-- ==== Sys2Proof/Word.lean ====
section
/-! DEFINITION. Bytes and the sparse table that the state is built of. -/

namespace Sys2Proof

/-- One byte of memory, of a frame or of a mailbox. -/
abbrev Byte := BitVec 8

/-- A sparse table: keys rising, absent keys read as the reader's default. -/
abbrev Tab (α : Type) := List (Nat × α)

end Sys2Proof
end

