-- ==== Sys2Proof/Config.lean ====
section
/-! DEFINITION. What an implementation fixes, the named values of the spec's enumerations, and the
free values: opaque constants for what the spec leaves open. -/

namespace Sys2Proof

/-- Ordering codes (00_scope.md, Table 00-1). -/
inductive Grade | a | b | n
  deriving DecidableEq, Repr

/-- Status codes (00_scope.md, Table 00-5). -/
inductive Status
  | ok | busy | badOpcode | badField | badDesc | unitAbsent | notOwner | denied | late | timeout
  | mismatch | capacity | epoch | integrity | fuseExhausted | aborted | retired
  deriving DecidableEq, Repr

/-- The code of a status (Table 00-5). -/
def Status.code : Status → Nat
  | .ok => 0 | .busy => 1 | .badOpcode => 2 | .badField => 3 | .badDesc => 4 | .unitAbsent => 5
  | .notOwner => 6 | .denied => 7 | .late => 8 | .timeout => 9 | .mismatch => 10 | .capacity => 11
  | .epoch => 12 | .integrity => 13 | .fuseExhausted => 14 | .aborted => 15 | .retired => 16

/-- The place of a refusal in the order of R10 (00_scope.md); the codes R10 does not list stand last. -/
def Status.rank : Status → Nat
  | .badOpcode => 1 | .badField => 2 | .denied => 3 | .notOwner => 4 | .unitAbsent => 5 | .retired => 6
  | .badDesc => 7 | .late => 8 | .fuseExhausted => 9 | .capacity => 10 | .busy => 11 | _ => 12

/-- The status of a code, `none` for a code of no row. -/
def Status.ofCode : Nat → Option Status
  | 0 => some .ok | 1 => some .busy | 2 => some .badOpcode | 3 => some .badField | 4 => some .badDesc
  | 5 => some .unitAbsent | 6 => some .notOwner | 7 => some .denied | 8 => some .late
  | 9 => some .timeout | 10 => some .mismatch | 11 => some .capacity | 12 => some .epoch
  | 13 => some .integrity | 14 => some .fuseExhausted | 15 => some .aborted | 16 => some .retired
  | _ => none

/-- The two PCIe hosts (16_host_mailboxes_commands.md R438). -/
inductive HostId | h0 | h1
  deriving DecidableEq, Repr

/-- The other host. -/
def HostId.other : HostId → HostId | .h0 => .h1 | .h1 => .h0
/-- H0 is 0, H1 is 1. -/
def HostId.num : HostId → Nat | .h0 => 0 | .h1 => 1

/-- Where a command came from: mailbox m of a host, or a MGMT request of a fabric requester (R457). -/
inductive Origin
  | mb (h : HostId) (m : Nat)
  | fab (fid seq : Nat)
  deriving DecidableEq, Repr

/-- FREE VALUE: what an optimizer of the update pipes gives for a Swatch record and its inputs (07 R221, Table 07-4): the record gives
neither its parameters nor its moments. Output bytes, amax, saturations, invalids, NaN blocks. -/
opaque Config.optimizerOut : List Byte → List Byte × Nat × Nat × Nat × Nat
/-- FREE VALUE: the SHA-384 digest of a byte string (18_reset_boot_security.md R514; the spec names the
function and gives no values). -/
opaque Config.sha384 : List Byte → BitVec 384
/-- FREE VALUE: the device's ECDSA P-384 signature under key slot `k` (R513, R515: the secret cannot be read). -/
opaque Config.sign : Nat → List Byte → BitVec 768
/-- FREE VALUE: whether a signature verifies under a public key (R511, R518). -/
opaque Config.verify : List Byte → List Byte → List Byte → Bool
/-- FREE VALUE: the fused digests of the firmware and debug keys (R511, R518). -/
opaque Config.fwKeyDigest : BitVec 384
opaque Config.dbgKeyDigest : BitVec 384
/-- FREE VALUE: the public key and certificate bytes of the attestation slots (R513). -/
opaque Config.publicKey : Nat → List Byte
opaque Config.certByte : Nat → Byte
/-- FREE VALUE: the n-th nonce of DEBUG_CHALLENGE (R518). -/
opaque Config.nonce : Nat → BitVec 256
/-- FREE VALUE: the serial number of the part. -/
opaque Config.serial : BitVec 64
/-- FREE VALUE: the verdict of the route checker on a description of the bytes given, for a device FID
(05 R171; the spec never gives the description's format): 0 malformed, 1 pass, else 2 + the failing rule. -/
opaque Config.routeVerdict : List Byte → Nat → Nat
/-- FREE VALUE: the image digest the route checker certifies. -/
opaque Config.routeDigest : List Byte → Nat → Nat
/-- FREE VALUE: the port_dir settings that a description gives the device of a FID, two bits for each port. -/
opaque Config.routeDirs : List Byte → Nat → Nat
/-- FREE VALUE: the fused rail voltage in mV of a clock in MHz (15 R431). -/
opaque Config.railMv : Nat → Nat
/-- FREE VALUE: the device DRAM address at which the overflow region of a port die starts while it is free (01 R28 fixes the Skein
and 04 the size; the spec gives no place). -/
opaque Config.ovfBase : Nat → Nat
/-- FREE VALUE: which of the possible splits of b bytes per element into a master and moments a mirror entry takes (13
R383: the entry is given b alone), by primary FID, handle, n and b. -/
opaque Config.mirrorSplit : Nat → Nat → Nat → Nat → Nat
/-- FREE VALUE: a number the spec leaves open, fresh for each use (the state counts the uses). -/
opaque Config.freeNat : Nat → Nat

/-- Reset values of the fuses (DESIGN CHOICE: the spec gives none; the part modelled at reset is an OL20-A). -/
def Config.grade : Grade := .a
/-- Stepping K1 and arithmetic revision 1 (07 after R219, Table 16-2). -/
def Config.stepping : Nat := 1
def Config.arithRev : Nat := 1

end Sys2Proof
end

