-- ==== Sys2Proof/Syntax.lean ====
section
/-! DEFINITION. The commands of the block: one constructor for each row of the table of operations and
events. A row of the host's command set carries where it came from (`Origin`) and its decoded
parameters, in the order of its table; an event carries the unit it happens to and what the outside
world brings (a frame, a tick, a measurement).

Numbers of units: a link is 2p for Pp or Pp.a and 2p + 1 for Pp.b; an ingress is a link's number or
128 + s for an internal source (06 R186); a Stitch Sk.i is 256k + i. -/

namespace Sys2Proof

/-- One item of CFG_STAGE (16 R466, Table 16-13). -/
structure Item where
  id : Nat
  rsv : Nat
  scope : Nat
  val : Nat
  deriving DecidableEq, Repr

/-- The parameters of PAT_LAUNCH_AT (10, Table 10-13). -/
structure LaunchArgs where
  launch : Nat
  pat : Nat
  map : Nat
  slotsPer : Nat
  entry : Nat
  target : Nat
  late : Nat
  group : Nat
  runLimit : Nat
  optStep : Nat
  step : Nat
  arg0 : Nat
  arg1 : Nat
  deriving DecidableEq, Repr

/-- Swatch targets (17 R497): a 1,024-bit Stitch bitmap, a Tally mask and a pipe mask. -/
structure Targets where
  map : BitVec 1024
  tally : BitVec 16
  pipes : BitVec 16
  deriving DecidableEq, Repr

/-- The parameters of SENT_SET (17, Table 17-6). -/
structure SentArgs where
  mask : Nat
  enable : Nat
  k : Nat
  offset : Nat
  derateAt : Nat
  retireAt : Nat
  derateMax : Nat
  fuse : Nat
  clear : Nat
  deriving DecidableEq, Repr

/-- The targets of a register write that is no mailbox, PIP, BAR2 or SPAD_RETAIN access: BAR0, the control space, the sideband, and the
control register of the Resizable BAR capability of a host's function (16 R440). -/
inductive RegTarget
  | bar0 (h : HostId) (off : Nat)
  | ctl (addr : Nat)
  | sb (reg : Nat)
  | resize (h : HostId)
  deriving DecidableEq, Repr

/-- The commands and events of the block. -/
inductive Instr
  -- 18 identity, firmware, reset, debug
  | devIdentity (o : Origin) (part off : Nat)
  | devAttestQuote (o : Origin) (nonce : BitVec 256)
  | devMeasureLog (o : Origin) (first count : Nat)
  | fwSlotWrite (o : Origin) (slot op off len : Nat) (data : List Byte)
  | fwSlotSelect (o : Origin) (slot : Nat)
  | devReset (o : Origin) (scope unit : Nat)
  | devResetBegin
  | debugChallenge (o : Origin) (level : Nat)
  | debugUnlock (o : Origin) (level : Nat) (key sig : List Byte)
  -- 16 staged configuration
  | cfgStage (o : Origin) (items : List Item)
  | cfgStageClear (o : Origin)
  | cfgCommitAt (o : Origin) (target late drain : Nat)
  | cfgCancel (o : Origin) (id : Nat)
  | cfgRead (o : Origin) (id scope : Nat)
  | cfgStatus (o : Origin)
  | cfgFreezeBegin (id : Nat)
  | linkDrainBegin (id : Nat)
  | cfgCommitApply
  -- 03, 04, 06 ports
  | portStatus (o : Origin) (port half : Nat)
  | portCounters (o : Origin) (port half clear : Nat)
  | portProfileRead (o : Origin) (port half : Nat)
  | portRetrain (o : Origin) (port half : Nat)
  | portSpareSwap (o : Origin) (port half lane : Nat)
  | portSpareFuse (o : Origin) (port dir pos : Nat)
  | portBufStatus (o : Origin) (die acct : Nat)
  | portBufCounters (o : Origin) (die clear : Nat)
  | portMeterRead (o : Origin) (port half vc clear : Nat)
  | portSchedRead (o : Origin) (port half clear : Nat)
  | arbStatus (o : Origin) (kind index dir clear : Nat)
  -- 05 routing
  | routeLoad (o : Origin) (addr : Nat)
  | routeLoadComplete
  | routeCheck (o : Origin) (addr len : Nat)
  | routeCheckComplete
  | routeStatus (o : Origin)
  | routeLookup (o : Origin) (epoch src dst channel vc mcast port half : Nat)
  | routeCounters (o : Origin) (die clear : Nat)
  -- 08 collectives
  | collGroupCreate (o : Origin) (addr len : Nat)
  | collGroupDestroy (o : Origin) (group : Nat)
  | collGroupStatus (o : Origin) (group clear : Nat)
  | collStragglers (o : Origin) (group : Nat)
  | collCounters (o : Origin) (die clear : Nat)
  | collAbort (o : Origin) (group seq : Nat)
  -- 10 Patterns and descriptors, 12 predictor layers
  | patLoad (o : Origin) (addr len : Nat)
  | patUnload (o : Origin) (pat : Nat)
  | patLaunchAt (o : Origin) (a : LaunchArgs)
  | patStatus (o : Origin) (launch : Nat)
  | patAbort (o : Origin) (launch : Nat)
  | patFaultRead (o : Origin) (skein index slot : Nat)
  | patTraceSet (o : Origin) (mask lo hi events ring size wrap : Nat)
  | predLayerSet (o : Origin) (skein index addr : Nat)
  | predLayerClear (o : Origin) (skein index : Nat)
  | predLayerStatus (o : Origin) (skein index clear : Nat)
  | descLoad (o : Origin) (handle count addr : Nat)
  | descRead (o : Origin) (handle : Nat)
  | descClear (o : Origin) (handle count : Nat)
  -- 14 Ladder streams
  | ladStreamCreate (o : Origin) (die stream addr : Nat)
  | ladStreamDestroy (o : Origin) (die stream : Nat)
  | ladFlush (o : Origin) (die stream : Nat)
  | ladStreamStatus (o : Origin) (die stream : Nat)
  | ladCounters (o : Origin) (die clear : Nat)
  -- 11 experts
  | expPlace (o : Origin) (addr : Nat)
  | expRemove (o : Origin) (expert : Nat)
  | expReplicaAdd (o : Origin) (expert map grad : Nat)
  | expReplicaDrop (o : Origin) (expert replica : Nat)
  | expRemoteSet (o : Origin) (kind index lo hi owner remove : Nat)
  | expMaskSet (o : Origin) (expert replica addr : Nat)
  | expStepSet (o : Origin) (expert step : Nat)
  | expGradClose (o : Origin) (expert step : Nat)
  | expStatus (o : Origin) (expert clear : Nat)
  | expCounters (o : Origin) (die clear : Nat)
  | expResume (o : Origin) (expert replica : Nat)
  -- 13 shards and mirrors
  | updShardCreate (o : Origin) (handle addr len source far : Nat)
  | updShardDestroy (o : Origin) (handle : Nat)
  | updApply (o : Origin) (handle addr version : Nat)
  | updParamsSet (o : Origin) (handle fromX : Nat) (params : List Byte)
  | updShardStatus (o : Origin) (handle clear : Nat)
  | updShardRebind (o : Origin) (handle fid index : Nat)
  | updShardRestore (o : Origin) (handle far : Nat)
  | updCommitForce (o : Origin) (handle version : Nat)
  | updCopyAdd (o : Origin) (handle : Nat) (entry : List Byte)
  | updCopyDrop (o : Origin) (handle copy : Nat)
  | updMirrorCreate (o : Origin) (index fid handle n b slot0 slot1 : Nat)
  | updMirrorBind (o : Origin) (index fid handle : Nat)
  | updMirrorDestroy (o : Origin) (index : Nat)
  | updMirrorStatus (o : Origin) (index : Nat)
  | updCounters (o : Origin) (skein clear : Nat)
  -- 15 power
  | pwrEnvelopeSet (o : Origin) (watts : Nat)
  | pwrStatus (o : Origin) (clear : Nat)
  | pwrTelemetry (o : Origin)
  | pwrStitchState (o : Origin) (map state : Nat)
  | pwrCounters (o : Origin) (domain clear : Nat)
  -- 17 log, sentinel, Swatch
  | logStatus (o : Origin)
  | logMark (o : Origin) (value : Nat)
  | logClear (o : Origin) (upTo : Nat)
  | logPolicy (o : Origin) (policy : Nat)
  | sentStatus (o : Origin) (skein clear : Nat)
  | sentSet (o : Origin) (a : SentArgs)
  | stitchRetire (o : Origin) (skein index action : Nat)
  | swatchRun (o : Origin) (addr len : Nat) (t : Targets) (limit : Nat)
  | swatchScheduleAt (o : Origin) (slot remove target late period addr len : Nat) (t : Targets) (limit : Nat)
  | swatchStatus (o : Origin) (slot : Nat)
  -- 18 fuse ledger, 16 hosts
  | fuseLedgerRead (o : Origin)
  | fuseRollbackAdvance (o : Origin) (target : Nat)
  | fuseStitchRetire (o : Origin) (skein index : Nat)
  | fuseKeyRevoke (o : Origin) (slot : Nat)
  | hostClaim (o : Origin) (mask : BitVec 128) (force : Nat)
  | hostRelease (o : Origin) (mask : BitVec 128)
  | hostStatus (o : Origin)
  | hostRoleSwap (o : Origin)
  -- 16, 09, 20 accesses
  | mbStateWrite (h : HostId) (m : Nat) (w : BitVec 32)
  | mailboxCmdWrite (h : HostId) (m off : Nat) (data : List Byte)
  | pipRead (h : HostId) (width : Nat)
  | bar2Read (h : HostId) (off len : Nat)
  | bar2Write (h : HostId) (off : Nat) (data : List Byte)
  | spadRetainWrite (st : Nat) (w : BitVec 32)
  | registerWrite (t : RegTarget) (data : List Byte)
  | sbDataRead
  | sbWindowWrite (w : BitVec 32)
  | smbusAlertResponse
  -- 16, 18 host links, failover, watchdog
  | hostLinkTrain (h : HostId) (gen width : Nat)
  | perstAssert (h : HostId)
  | failoverWaitExpiry
  | watchdogExpiry
  | mgmtRequest (ing : Nat)
  | mgmtResponse (ing : Nat)
  -- 03 frames, 09 local delivery
  | frameReceive (lk : Nat) (hdr : BitVec 128) (cells : List Byte) (trl : BitVec 64)
  | profileFrame (lk : Nat)
  | dataFrame (ing vc : Nat)
  | readReq (ing vc : Nat)
  | readRsp (ing : Nat)
  | errCompl (ing : Nat)
  | addI32 (ing : Nat)
  | addI64 (ing : Nat)
  | addF32 (ing : Nat)
  | addF32x8 (ing : Nat)
  | maxI32 (ing : Nat)
  | minI32 (ing : Nat)
  | maxF32 (ing : Nat)
  | minF32 (ing : Nat)
  | and64 (ing : Nat)
  | or64 (ing : Nat)
  | xor64 (ing : Nat)
  | swap64 (ing : Nat)
  | cas64 (ing : Nat)
  | signalFlag (ing : Nat)
  | signalCnt (ing : Nat)
  -- 08 collective frames
  | contrib (ing : Nat)
  | partialFrame (ing : Nat)
  | resultFrame (ing : Nat)
  | doneFrame (ing : Nat)
  | failFrame (ing : Nat)
  | errorFrame (ing : Nat)
  | tallyAdmit (ing : Nat)
  | collTimeout (group seq : Nat)
  | collBackstopTimeout (group seq : Nat)
  -- 11 tokens and runs
  | token (ing : Nat)
  | tokenRes (ing : Nat)
  | asmLimitExpiry (ing src channel pass : Nat)
  | tokenNotice (expert : Nat)
  | tileWaitExpiry (expert pass : Nat)
  | runLoad (expert replica area : Nat)
  | runStart (expert replica area : Nat)
  | runEnd (expert replica : Nat)
  | runLimitExpiry (expert replica : Nat)
  | bwdLimitExpiry (expert : Nat)
  -- 13 mirror and pipes
  | mirrorData (ing : Nat)
  | mirrorSeal (ing : Nat)
  | updateOpen (handle : Nat)
  | pipeSlice (handle : Nat)
  | mirrorChunkSend (handle : Nat)
  | mirrorTimeout (dst seq : Nat)
  | rubCommitTimeout (group seq : Nat)
  -- 14 Ladder events
  | ladderBatchDeadline (die stream : Nat)
  | ladderBatchLoad (die : Nat)
  | ladderBatchOutput (die buf : Nat)
  -- 02 marks
  | pipMark (lk : Nat) (w : BitVec 64)
  | pipMarkSend (lk : Nat)
  | holdoverEnter
  -- 03 ticks
  | credit (lk : Nat) (w : BitVec 64)
  | ack (lk : Nat) (w : BitVec 64)
  | nak (lk : Nat) (w : BitVec 64)
  | skip (lk : Nat) (w : BitVec 64)
  | laneSwapReq (lk : Nat) (w : BitVec 64)
  | laneSwapDone (lk : Nat) (w : BitVec 64)
  | barrier (lk : Nat) (w : BitVec 64)
  | train (lk : Nat) (w : BitVec 64) (locked : Bool) (ber : Nat)
  | retrainReq (lk : Nat) (w : BitVec 64)
  | goingDark (lk : Nat) (w : BitVec 64)
  | narrow (lk : Nat) (w : BitVec 64)
  | idle (lk : Nat) (w : BitVec 64)
  | reservedTick (lk : Nat) (w : BitVec 64)
  | alignmentMarker (lk : Nat) (block : List Byte) (skewNs : Nat)
  | alignmentMarkerSend (lk : Nat)
  | ackSend (lk : Nat)
  | creditSend (lk : Nat)
  | egressFrameStart (lk : Nat)
  | cutThroughUnderrun (lk : Nat)
  | replayTimeout (lk : Nat)
  | linkHoldExpiry (lk ing vc : Nat)
  | trainingLimitExpiry (lk : Nat)
  | trainingRestart (lk : Nat)
  | laneSignalLoss (lk lane : Nat)
  | laneBerWindow (lk lane berExp counts : Nat)
  | swapRefusedTimeout (lk : Nat)
  | lostLaneHoldExpiry (lk : Nat)
  | profileSend (lk : Nat)
  | profileLoss (lk : Nat)
  | laserReady (mod : Nat) (lit : List Bool)
  -- 04, 06, 01 buffer, arbiters, bridges
  | overflowSpill (die ing vc : Nat)
  | overflowReadback (die ing vc : Nat)
  | multicastReplica (die : Nat)
  | arbiterDecide (kind index dir : Nat) (raised : List Nat)
  | bridgeFlitRetry (bridge dir : Nat)
  -- 02, 10 launches
  | launchStart (launch : Nat)
  | barrierStart (launch : Nat)
  | barrierRootTimeout (launch : Nat)
  | barrierMemberTimeout (launch : Nat)
  | launchRunLimit (launch : Nat)
  -- 10 control words, issued by slot `slot` of Stitch `st`
  | ctrl (st slot : Nat)
  | mma (st slot : Nat)
  | mmaZero (st slot : Nat)
  | loadAcc (st slot : Nat)
  | drain (st slot : Nat)
  | predict (st slot : Nat)
  | maskN (st slot : Nat)
  | maskK (st slot : Nat)
  | vectorFma (st slot : Nat)
  | vectorAdd (st slot : Nat)
  | vectorMul (st slot : Nat)
  | vectorMax (st slot : Nat)
  | vectorMin (st slot : Nat)
  | vectorCmpEq (st slot : Nat)
  | vectorCmpLt (st slot : Nat)
  | vectorCmpLe (st slot : Nat)
  | vectorAnd (st slot : Nat)
  | vectorOr (st slot : Nat)
  | vectorXor (st slot : Nat)
  | vectorCvt (st slot : Nat)
  | dma (st slot : Nat)
  | copy (st slot : Nat)
  | gather (st slot : Nat)
  | memAtomic (st slot : Nat)
  | sigRemote (st slot : Nat)
  | agsetBase (st slot : Nat)
  | agsetStride (st slot : Nat)
  | agsetAdd (st slot : Nat)
  | cmpSet (st slot : Nat)
  | cmpAdd (st slot : Nat)
  | lcSet (st slot : Nat)
  | cntWrite (st slot : Nat)
  | testWord (st slot : Nat)
  | predSet (st slot : Nat)
  | descWord (st slot : Nat)
  | endWord (st slot : Nat)
  | operationComplete (st engine : Nat)
  | farTimeout (dst seq : Nat)
  | icacheFill (st slot : Nat)
  | bankWake (st bank : Nat)
  | bankRetentionEntry (st bank : Nat)
  -- 15 power events
  | stitchHoldEntry (st : Nat)
  | stitchWake (st : Nat)
  | turnBoundary
  | grantCompute
  | telemetryRead (domain mv amps16 : Nat) (ok : Bool)
  | sensorSample (readings : List (Nat × Bool))
  | telemRefresh
  | clockStep (domain : Nat)
  | voltageRegulated (domain : Nat)
  | voltageRaiseTimeout (domain : Nat)
  | thermalEmergency (domain : Nat)
  | emergencyExit (domain : Nat)
  | dealerDecide (skein : Nat)
  -- 17 sentinel, Swatch, scrub, log events
  | witnessCheck (skein : Nat) (same : Bool)
  | sentinelTiebreak (skein : Nat) (eqPrimary eqWitness : Bool)
  | suspectDecay
  | swatchOccurrence (slot : Nat)
  | swatchRunLimit
  | patrolScrub (channel : Nat)
  | correctableWindow
  | logEntryWrite
  | logSuppressEnd (code src : Nat)
  -- 20, 18 resets and cast-on
  | powerOnReset (rail lowNs : Nat)
  | resetN (lowNs : Nat)
  | thermalTrip (sensor reading : Nat)
  | thermalTripRelease
  | extestExit
  | castOnStrap (samples : List Nat)
  | castOnFuses (crcOk : Bool)
  | castOnRom (aPass bPass : Bool)
  | castOnVerify
  | castOnDram (ok : Bool)
  | castOnBridges (ok : Bool)
  | castOnSkeins (failing : List Nat)
  | castOnLasers (lit : List Bool)
  | castOnLinks
  | castOnProfile
  | castOnReady
  | barrierArrive (launch : Nat)
  | swatchRecord (kind unit : Nat)
  | hostLinkDown (h : HostId)
  | resetEnd (scope unit : Nat)
  | standbyRestart (pass : Bool)
  | dramRefresh (channel : Nat)
  deriving DecidableEq, Repr

end Sys2Proof
end

