-- ==== Sys2Proof/Decode.lean ====
section
/-! DEFINITION. The commands that words of the table spell. The table of operations and events gives no row any
bits, so no word spells a command; the bit layouts of frames, ticks, mailbox words and control words are read where
they arrive (Machine/Frames.lean, Cmd.lean, Words.lean). -/

namespace Sys2Proof

/-- The command that a word of `nbits` bits spells by the table's bits: none, since no row gives bits. -/
def decodeTableWord (_nbits _w : Nat) : Option Instr := none

end Sys2Proof
end

