-- ==== Sys2Proof/Machine/Bits.lean ====
section
/-! DEFINITION. Tables, bits, bytes and cyclic codes. -/

namespace Sys2Proof.Machine

open Sys2Proof

/-! ### Tables -/

/-- The entry of a key. -/
def tabGet? {α : Type} : Tab α → Nat → Option α
  | [], _ => none
  | (k, v) :: r, x => if k = x then some v else tabGet? r x

/-- The entry of a key, or the default. -/
def tabGet {α : Type} (t : Tab α) (d : α) (x : Nat) : α := (tabGet? t x).getD d

/-- Set the entry of a key; keys stay rising. -/
def tabPut {α : Type} : Tab α → Nat → α → Tab α
  | [], x, v => [(x, v)]
  | (k, w) :: r, x, v =>
    if x < k then (x, v) :: (k, w) :: r
    else if x = k then (x, v) :: r
    else (k, w) :: tabPut r x v

/-- Remove the entry of a key. -/
def tabDel {α : Type} (t : Tab α) (x : Nat) : Tab α := t.filter (fun p => p.1 ≠ x)

/-- Keep the entries whose key meets a test. -/
def tabKeep {α : Type} (t : Tab α) (p : Nat → Bool) : Tab α := t.filter (fun e => p e.1)

/-- Change every entry. -/
def tabMap {α β : Type} (t : Tab α) (f : Nat → α → β) : Tab β := t.map (fun e => (e.1, f e.1 e.2))

/-- The least number at or above `x` that is not in the list, looked for `fuel` times. -/
def firstFree (used : List Nat) : Nat → Nat → Nat
  | 0, x => x
  | fuel + 1, x => if used.contains x then firstFree used fuel (x + 1) else x

/-! ### Numbers and bytes (R4: little-endian) -/

/-- Bits [lo + n − 1 : lo] of a number. -/
def bits (x lo n : Nat) : Nat := (x >>> lo) % 2 ^ n

/-- One bit of a number. -/
def bit (x i : Nat) : Bool := x.testBit i

/-- 1 or 0. -/
def b2n (b : Bool) : Nat := if b then 1 else 0

/-- The `n` bytes of a number, least significant first. -/
def leBytes : Nat → Nat → List Byte
  | 0, _ => []
  | n + 1, x => BitVec.ofNat 8 x :: leBytes n (x / 256)

/-- The number that bytes spell, least significant first. -/
def leNat : List Byte → Nat
  | [] => 0
  | b :: r => b.toNat + 256 * leNat r

/-- The number that bytes spell, most significant first. -/
def beNat (bs : List Byte) : Nat := bs.foldl (fun a b => a * 256 + b.toNat) 0

/-- The `n` bytes of a number, most significant first. -/
def beBytes (n x : Nat) : List Byte := (leBytes n x).reverse

/-- The number in bytes [off, off + n) of a list; bytes past its end read 0. -/
def fieldAt (bs : List Byte) (off n : Nat) : Nat := leNat ((bs.drop off).take n)

/-- A list of bytes cut or filled with zeros to `n` bytes. -/
def padTo (n : Nat) (bs : List Byte) : List Byte := bs.take n ++ List.replicate (n - bs.length) 0

/-- Set `n` bits at `lo` of a number. -/
def setBits (x lo n v : Nat) : Nat := x - (bits x lo n) * 2 ^ lo + (v % 2 ^ n) * 2 ^ lo

/-- A CRC over the bits of a number, most significant first (no reflection): `w` the width, `poly` the
polynomial, `len` how many bits of `x`. -/
def crcBits (w poly : Nat) : Nat → Nat → Nat → Nat
  | 0, _, c => c
  | len + 1, x, c =>
    let top := bit c (w - 1) != bit x len
    let c' := (c <<< 1) % 2 ^ w
    crcBits w poly len x (if top then c' ^^^ poly else c')

/-- The IEEE 802.3 frame check sequence, reflected, over bytes in order (03 R85). -/
def crc32Step (c : Nat) (b : Byte) : Nat :=
  let f := fun (c : Nat) (_ : Nat) => if c % 2 = 1 then (c >>> 1) ^^^ 0xEDB88320 else c >>> 1
  (List.range 8).foldl f (c ^^^ b.toNat)
def crc32 (bs : List Byte) : Nat := (bs.foldl crc32Step 0xFFFFFFFF) ^^^ 0xFFFFFFFF

/-- CRC-64/ECMA over bytes, most significant bit first, initial value 0 (05 R174; the spec names the code
only: PRESUMED form, entry CRC64). -/
def crc64 (bs : List Byte) : Nat :=
  bs.foldl (fun c b => crcBits 64 0x42F0E1EBA9EA3693 8 b.toNat c) 0

/-- The greatest value of a 32-bit saturating counter. -/
def cMax : Nat := 2 ^ 32 - 1

end Sys2Proof.Machine
end

