-- ==== Sys2Proof/Machine/StHost.lean ====
section
/-! DEFINITION. State of the host interface, the staged configuration, the trouble log, cast-on and
security (chapters 16, 17, 18, 20). -/

namespace Sys2Proof.Machine

open Sys2Proof

/-- A mailbox (16, Table 16-5). Blocks of bytes are little-endian numbers (R4); `st` holds both halves of the
paired word MB_STATE (R5). -/
structure Mailbox where
  st : BitVec 32 := 0xFFFF0000#32
  cmd : BitVec 512 := 0
  params : BitVec 15872 := 0
  rsp : BitVec 512 := 0
  result : BitVec 15360 := 0
  deriving DecidableEq, Repr

/-- The W1C bits that events set in one core cycle of the model: they stay set if the host clears them in it (16 R447). `quiet` are those of
IRQ_STATUS that were set already, so that no message was sent. -/
structure Raced where
  pip : Nat := 0
  irq : BitVec 32 := 0
  quiet : BitVec 32 := 0
  done : BitVec 32 := 0
  ended : BitVec 1024 := 0
  deriving DecidableEq, Repr

/-- One host port: its link, its registers of BAR0 and its mailboxes (16 R438, R443, Tables 16-2 to 16-5). -/
structure HostPort where
  perst : Bool := true
  trained : Bool := false
  gen : Nat := 0
  width : Nat := 0
  bar2Base : Nat := 0
  bar2Log : Nat := 37
  pipHiLatch : BitVec 32 := 0
  launchEnd : BitVec 1024 := 0
  mbDone : BitVec 32 := 0
  irqEnable : BitVec 32 := 0
  irqStatus : BitVec 32 := 0
  raced : Raced := {}
  msix : Tab (BitVec 128) := []
  pba : BitVec 40 := 0
  boxes : Tab Mailbox := []
  deriving DecidableEq, Repr

/-- A command waiting in the device-wide order (R457); a fabric request carries its own header and parameters. -/
structure Posted where
  o : Origin
  stamp : Nat
  cmd : BitVec 512 := 0
  params : BitVec 15872 := 0
  deriving DecidableEq, Repr

/-- A command TAKEN and not yet DONE (R459). `discard` marks one whose host interface was reset (R442). -/
structure Taken where
  ticket : Nat
  o : Origin
  op : Nat
  cookie : Nat
  irq : Bool
  stamp : Nat
  tstate : Nat
  discard : Bool := false
  deriving DecidableEq, Repr

/-- The device's host interface. `sending` lists the tickets of commands that end once frames, given by their cells, have left
(08 R255). -/
structure HostSt where
  h0 : HostPort := {}
  h1 : HostPort := {}
  primary : HostId := .h0
  primaryDownSince : Option Nat := none
  order : List Posted := []
  taken : List Taken := []
  nextTicket : Nat := 0
  sending : List (Nat × List (List Byte)) := []
  telemSeq : Nat := 0
  telemPip : Nat := 0
  telemSensors : Tab Nat := []
  telemDomains : Tab (Nat × Nat × Nat × Nat) := []
  deriving DecidableEq, Repr

/-- Claims of the two hosts (R461): bit r of a mask is resource r of Table 16-8. -/
structure Claims where
  c0 : BitVec 128 := 0
  c1 : BitVec 128 := 0
  deriving DecidableEq, Repr

/-- A staged or committed setting (R466). -/
structure Setting where
  id : Nat
  scope : Nat
  val : Nat
  deriving DecidableEq, Repr

/-- A pending commit (R468). `ticket` is its command. -/
structure Commit where
  id : Nat
  pip : Nat
  host : HostId
  items : List Setting
  drainLead : Nat
  frozen : Bool := false
  drained : Bool := false
  ticket : Nat
  deriving DecidableEq, Repr

/-- Settings in force, those that commits replaced with the pips of the commits (02 R62), stage sets and pending commits (16 R466 to
R471). -/
structure CfgSt where
  vals : Tab Nat := []
  past : List (Nat × Tab Nat) := []
  stage0 : List Setting := []
  stage1 : List Setting := []
  commits : List Commit := []
  epoch : Nat := 0
  nextId : Nat := 0
  stampSince : Option Nat := none
  deriving DecidableEq, Repr

/-- A trouble-log entry raised by a unit and not yet written (17 R490); `eclass` and `tstate` as Table 17-3. -/
structure Raised where
  stamp : Nat
  code : Nat
  eclass : Nat
  tstate : Nat
  status : Nat
  source : Nat
  tag : Nat
  detail : Nat
  deriving DecidableEq, Repr

/-- A period of R492: entries of `code` and `source` are held back until `until`. -/
structure Suppress where
  code : Nat
  source : Nat
  till : Nat
  held : Nat := 0
  deriving DecidableEq, Repr

/-- The trouble log (17 R489 to R496). `slots` holds the 32 bytes of each written slot. -/
structure LogSt where
  slots : Tab (BitVec 256) := []
  firstSeq : Nat := 1
  nextSeq : Nat := 1
  wrap : Bool := false
  dropped : Nat := 0
  suppressed : Nat := 0
  unreadable : Nat := 0
  raised : List Raised := []
  suppress : List Suppress := []
  deriving DecidableEq, Repr

/-- Cast-on phases (18, Table 18-5). -/
inductive Phase
  | reset | rails | strap | fuses | rom | verify | dram | bridges | skeins | lasers | links | profile
  | ready | recovery | halted
  deriving DecidableEq, Repr

/-- The code of a phase (Table 18-5). -/
def Phase.code : Phase → Nat
  | .reset => 0 | .rails => 1 | .strap => 2 | .fuses => 3 | .rom => 4 | .verify => 5 | .dram => 6
  | .bridges => 7 | .skeins => 8 | .lasers => 9 | .links => 10 | .profile => 11 | .ready => 12
  | .recovery => 14 | .halted => 15

/-- A reset waiting to begin at `due`, or begun and waiting for its end (18 R499, R501, R476). -/
structure ResetJob where
  scope : Nat
  unit : Nat
  source : Nat
  due : Nat
  begun : Bool := false
  ticket : Option Nat := none
  deriving DecidableEq, Repr

/-- Cast-on, clusters, resets (18, 20). `coldRun` says that the cast-on in progress is a COLD one; `runSlot`, `runSv` and
`override` are the running slot, its security version and FW_SLOT_SELECT's choice; `jobs` the resets due or begun;
`pendingEntries` the sources and scopes of 0x0003 entries to be written in phase ROM; `tripped` the sensor and reading of a
thermal trip, `coolSince` the pip since which every valid sensor reads below 95 °C; `darkFibres` lists dark laser fibres by
5 × module + position; `profileDone` ends the wait of phase PROFILE. -/
structure BootSt where
  phase : Phase := .strap
  phaseSince : Nat := 0
  coldRun : Bool := true
  rstcfg : Nat := 0
  strapFault : Bool := false
  samples : List Nat := []
  clusterB : Bool := false
  standbyReady : Bool := false
  lastTakeover : Option Nat := none
  fwVersion : Nat := 0
  runSlot : Option Nat := none
  runSv : Nat := 0
  override : Option Nat := none
  jobs : List ResetJob := []
  pendingEntries : List (Nat × Nat) := []
  tripped : Option (Nat × Nat) := none
  coolSince : Option Nat := none
  darkFibres : List Nat := []
  profileDone : Bool := false
  deriving DecidableEq, Repr

/-- Output pins (20; 18 Table 18-4, R503, R556). Bit m of `laserEn` is LASER_EN_N[m]. -/
structure PinSt where
  devReady : Bool := false
  laserEn : BitVec 8 := 0xFF
  thermtripN : Bool := true
  smbAlertN : Bool := true
  deriving DecidableEq, Repr

/-- The signal pins other than the PCIe and fibre interfaces (18 Table 18-4; 20 Table 20-1). -/
inductive Pin
  | resetN | perstN (h : HostId) | rstcfg | thermtripN | devReady | laserEnN (m : Nat) | spiClk | spiCsN | spiIo (i : Nat)
  | avsClk | avsMdata | avsSdata | smbClk | smbDat | smbAlertN | tck | tms | tdi | trstN | tdo
  deriving DecidableEq, Repr

/-- The fuse map of a K1 part (18 R506, Table 18-4; 20 R538): bits [2:0] the state during reset, [5:3] the state until the pin's unit
configures it. -/
def k1PinMap : List (Pin × Nat) :=
  [(.resetN, 0), (.perstN .h0, 0), (.perstN .h1, 0), (.rstcfg, 0), (.thermtripN, 0), (.devReady, 27)] ++
  (List.range 8).map (fun m => (.laserEnN m, 36)) ++ [(.spiClk, 27), (.spiCsN, 36)] ++ (List.range 4).map (fun i => (.spiIo i, 18)) ++
  [(.avsClk, 0), (.avsMdata, 0), (.avsSdata, 0), (.smbClk, 0), (.smbDat, 0), (.smbAlertN, 0),
   (.tck, 9), (.tms, 18), (.tdi, 18), (.trstN, 18), (.tdo, 0)]

/-- A record of the fuse ledger (18 R516, Table 18-8): `torn` when its valid fuse is not blown. -/
structure FuseRec where
  key : Nat
  val : Nat
  torn : Bool := false
  deriving DecidableEq, Repr

/-- An outstanding nonce of DEBUG_CHALLENGE (18 R518). -/
structure Nonce where
  val : BitVec 256
  stamp : Nat
  host : HostId
  deriving DecidableEq, Repr

/-- Fuses, firmware flash, measurement log and debug (18 R511 to R518). `flash` lists the bytes of the boot
flash that do not read as erased, `pinMap` the fuse map of the pins (R506). -/
structure SecSt where
  grade : Grade := Config.grade
  disabled : BitVec 1024 := 0
  rollback : Nat := 0
  rollbackTorn : Nat := 0
  spares : List FuseRec := []
  fusedRetired : List FuseRec := []
  revoked : List FuseRec := []
  pinMap : List (Pin × Nat) := k1PinMap
  flash : List (Nat × Byte) := []
  meas : List (BitVec 576) := []
  measCount : Nat := 0
  measDigest : BitVec 384 := 0
  debugLevel : Nat := 0
  nonce : Option Nonce := none
  deriving DecidableEq, Repr

/-- The SMBus sideband registers (20, Table 20-4); `raced` holds a pip and the bits of SB_ALERT that events set in it (R551). -/
structure SideSt where
  alert : BitVec 8 := 0
  raced : Nat × BitVec 8 := (0, 0)
  alertMask : BitVec 8 := 0x0F
  window : BitVec 32 := 0x00100000#32
  deriving DecidableEq, Repr

/-- What the block puts out: the model's own record of messages, completions and data returned. -/
inductive Out
  | msix (h : HostId) (vector : Nat)
  | read (h : HostId) (bytes : List Byte)
  | unsupported (h : HostId)
  | completerAbort (h : HostId)
  | frame (lk lsn : Nat) (stomp : Bool) (hdr : BitVec 128) (cells : List Byte) (trl : BitVec 64)
  | tick (lk : Nat) (w : BitVec 64)
  | marker (lk : Nat) (block : List Byte)
  | sideband (bytes : List Byte)
  | alertResponse (address : Nat)
  deriving DecidableEq, Repr

end Sys2Proof.Machine
end

