-- ==== Sys2Proof/Machine/StFabric.lean ====
section
/-! DEFINITION. State of time, links, packet buffers, routing, metering and arbitration
(chapters 02 to 06). -/

namespace Sys2Proof.Machine

open Sys2Proof

/-- Time states (02 R40, R46, R48). -/
inductive TimeState | unlocked | locked | holdover
  deriving DecidableEq, Repr

/-- The code of a time state (16, Table 16-3). -/
def TimeState.code : TimeState → Nat | .unlocked => 0 | .locked => 1 | .holdover => 2

/-- A barrier slot (02 R56, R57); `busy` while a launch uses it, its last bits stay after that, those of a member as its parent's go bit says. `kids` are the child links with their last arrive bit as received, `parent` the
link toward the root (none at the root); `arrived` and `go` say that the bit of this device shows `phase`; `goAt`
is the pip at which go was set or received; `barred` lists the links of the tree that were time-excluded when the count
reached the launch's target pip (R60); `quiet` is the pip before which a slot freed again takes no bit of its parent (R59). -/
structure BarrierSlot where
  busy : Bool := true
  launch : Nat
  phase : Bool
  parent : Option Nat
  kids : List (Nat × Bool)
  arrived : Bool := false
  go : Bool := false
  goAt : Option Nat := none
  delay : Nat := 0
  span : Nat := 0
  barred : List Nat := []
  quiet : Nat := 0
  deriving DecidableEq, Repr

/-- Global time (02). `slew` is the correction in half-pips still to be applied by rate; `skews` holds by how much the
replica of the count on each of the twenty dies stands ahead of `pip` (R39). -/
structure TimeSt where
  pip : Nat := 0
  state : TimeState := .unlocked
  parent : Option Nat := none
  lockRun : Nat := 0
  stepped : Bool := false
  slew : Int := 0
  slots : Tab BarrierSlot := []
  skews : Tab Nat := []
  deriving DecidableEq, Repr

/-- A frame: header fields (03, Table 03-5, Table 03-6) and cells. -/
structure Frame where
  ty : Nat
  vc : Nat
  ch : Nat
  epoch : Nat := 0
  dst : Nat
  src : Nat
  seq : Nat := 0
  hops : Nat := 0
  colour : Nat := 0
  ecn : Bool := false
  ackReq : Bool := false
  mcast : Bool := false
  epochSet : Bool := false
  last : Bool := false
  spec : Nat := 0
  cells : List Byte := []
  deriving DecidableEq, Repr

/-- Number of cells of a frame. -/
def Frame.n (f : Frame) : Nat := (f.cells.length + 63) / 64

/-- Where a queued frame goes (04, Where frames are held). -/
inductive Dest
  | link (lk : Nat)
  | skein (k : Nat)
  | tally
  | ladder
  | needle
  | directory
  deriving DecidableEq, Repr

/-- Hanks of a frame with their generations, and what their release needs to know (04 R134, R136; 08 R241). -/
structure Chain where
  die : Nat
  ing : Nat
  acct : Nat
  hanks : List (Nat × Nat)
  ovf : Bool
  resv : Bool
  deriving DecidableEq, Repr

/-- What a Tally frame of this device belongs to: the group entry and the collective, and the slice whose slot it holds until it has
left; none for a frame that carries no node value (08 R236, R247). -/
structure TallyTag where
  no : Nat
  seq : Nat
  slot : Option Nat := none
  deriving DecidableEq, Repr

/-- A frame in a packet buffer (04 R119 to R128). `hanks` lists its hanks and their generations; `ovf` says its
hanks are DRAM hanks of the overflow region (R141); `store` says it takes store-and-forward and `resend` that it
stays for a second sending (R127); `note` is the member a Tally found to have sent it; `head` is the pip at which it reached the head of its queue; `resv` says that
its hanks are part of a reservation that its account holds already (08 R241); `tagged` says that it is the head that holds its
class's finish tag (06 R184); `rel` are the hanks of a token that are released when this frame, its return, is sent (R138); `tally` is set in a frame
that a Tally engine sends. -/
structure QFrame where
  die : Nat
  ing : Nat
  dest : Dest
  f : Frame
  stamp : Nat
  acct : Nat
  hanks : List (Nat × Nat)
  path : Nat := 0
  ovf : Bool := false
  store : Nat := 0
  resend : Bool := false
  head : Option Nat := none
  note : Option Nat := none
  resv : Bool := false
  tagged : Bool := false
  rel : List Chain := []
  tally : Option TallyTag := none
  deriving DecidableEq, Repr

/-- A multicast frame with destinations still to be replicated, and its pair-and-channel hash (04 R145, R146; 05 R156). -/
structure ReplJob where
  die : Nat
  f : Frame
  hash : Nat := 0
  stamp : Nat
  ing : Nat
  dests : List Dest
  deriving DecidableEq, Repr

/-- Counts of a buffer account (04 R130, R131): hanks held, credits advertised and not consumed, total_v, and whether an
allowance has been given since the link came up (03 R93). -/
structure Acct where
  h : Nat := 0
  o : Nat := 0
  total : Nat := 0
  freed : Nat := 0
  given : Bool := false
  deriving DecidableEq, Repr

/-- A hank's state word (04 R134). -/
structure Hank where
  held : Bool := false
  gen : Nat := 0
  deriving DecidableEq, Repr

/-- What is left to do when a frame of an internal source enters (04 R120, R145; 05 R162): one that a Skein presented is routed
already and may have replicas to come, a Tally frame has its link, any other is stamped and routed then. -/
inductive Entry
  | placed (job : Option ReplJob)
  | tally (lk : Nat)
  | route
  deriving DecidableEq, Repr

/-- A frame of an internal source that waits for its request to be granted (04 R138); `kind` is its account kind. -/
structure WaitFrame where
  die : Nat
  kind : Nat
  q : QFrame
  todo : Entry
  deriving DecidableEq, Repr

/-- The packet buffers of the four port dies. `frames` is in arrival order, so the queue of an ingress, a
destination and a VC is a filter of it (R122). Hank keys are die × 2^24 + index, DRAM hanks from die 8 on; `bases` holds where the
overflow region of a die starts (01 R28; R144), `ueHanks` the keys of hanks with a word that is uncorrectable (17 Table 17-2); `cut`
lists the ingress links that went down and may have done so in the middle of a frame (R127). -/
structure BufSt where
  frames : List QFrame := []
  accts : Tab Acct := []
  hanks : Tab Hank := []
  repl : List ReplJob := []
  wait : List WaitFrame := []
  bases : Tab Nat := []
  ueHanks : List Nat := []
  cut : List Nat := []
  deriving DecidableEq, Repr

/-- Link states (03, Table 03-4), in its order. -/
inductive LinkState | dark | signal | equalize | config | profile | up | narrow | failed
  deriving DecidableEq, Repr

/-- The code of a link state, from 0 in the order of Table 03-4. -/
def LinkState.code : LinkState → Nat
  | .dark => 0 | .signal => 1 | .equalize => 2 | .config => 3 | .profile => 4 | .up => 5 | .narrow => 6
  | .failed => 7

/-- A frame held in the replay buffer (03 R96, R102, R103). -/
structure Sent where
  lsn : Nat
  f : Frame
  stomp : Bool
  stamp : Nat
  replays : Nat := 0
  deriving DecidableEq, Repr

/-- The lanes of one direction (03 R66, R107, R109): the lane moved to L4, lanes out of service and the width
code of Table 03-3. -/
structure Lanes where
  width : Nat := 0
  moved : Option Nat := none
  lost : List Nat := []
  deriving DecidableEq, Repr

/-- A swap in progress (03 R107): its lane, lost bit, the pip of the REQ, the pip from which the marker may
name the lane, and whether that marker has gone or come. -/
structure Swap where
  lane : Nat
  lost : Bool
  req : Nat
  named : Bool := false
  ticket : Option Nat := none
  deriving DecidableEq, Repr

/-- Time calibration of a link (02 R41 to R51). Delay and θ are in half-pips. `sent` counts the marks sent, `base` is that count when
the link last came up; `echoNo` is the number among them of the mark that the peer last echoed, received at `echoAt` (R44). -/
structure LinkTime where
  markSeq : Nat := 0
  sent : Nat := 0
  base : Nat := 0
  echoNo : Option Nat := none
  echoAt : Nat := 0
  markNo : Nat := 0
  rxSeq : Option Nat := none
  rxStamp : Nat := 0
  txStamps : Tab Nat := []
  delay : Int := 0
  theta : Int := 0
  valid : Bool := false
  age : Nat := 0
  stratum : Nat := 15
  excluded : Bool := false
  bad : Nat := 0
  good : Nat := 0
  deriving DecidableEq, Repr

/-- What TRAIN ticks of the peer last said, and the run of equal agreed values (03, Table 03-9). -/
structure Peer where
  rxReady : Bool := false
  fecCap : Nat := 0
  fecReq : Nat := 0
  split : Bool := false
  spareCap : Bool := false
  txOut : Nat := 7
  rxOut : Nat := 7
  agreed : Nat := 0
  deriving DecidableEq, Repr

/-- One link: a full port or half-port a (2p), or half-port b (2p + 1) (03). `txHold` and `rxHold` are the pips from which a
lost lane without a swap holds back frames and NAKs (R108, R109); the Bool says that the next marker ends it. `sent` lists the
words of each frame and tick sent since the last marker (R72); `switchIn` counts the markers until the agreed mode is sent (R74);
`eq` holds, by 4 × position, the preset and the pre-cursor, post-cursor and main steps that the peer asked this transmitter for
(Table 03-9); `ownTrain` and `ownRun` are the last CONFIG values sent and the run of ticks that carried them; `narrowTo` is the width that
the peer asked for, which the next marker brings (R109). -/
structure Link where
  state : LinkState := .dark
  since : Nat := 0
  attempts : Nat := 0
  offSince : Option Nat := none
  fecS : Bool := false
  locked : Bool := false
  ber : Nat := 15
  peer : Peer := {}
  tx : Lanes := {}
  rx : Lanes := {}
  txSwap : Option Swap := none
  rxSwap : Option Swap := none
  txHold : Option (Nat × Bool) := none
  rxHold : Option Nat := none
  doneRepeats : Nat := 0
  amIndex : Nat := 0
  delin : Bool := true
  nakOut : Bool := false
  nakHeld : Option Nat := none
  adv : Nat := 0
  expected : Nat := 0
  lsn : Nat := 0
  used : Tab Nat := []
  total : Tab Nat := []
  allow : Tab Nat := []
  replay : List Sent := []
  resendFrom : Option Nat := none
  skips : List (Nat × Nat × Nat) := []
  ticks : List (Nat × BitVec 64) := []
  draining : Bool := false
  ackDue : Bool := false
  profAcked : Bool := false
  profGot : Bool := false
  profLsn : Option Nat := none
  profCell : List Byte := []
  profStamp : Option Nat := none
  profPend : List (Nat × List Byte) := []
  profDue : Bool := false
  profSent : Nat := 0
  disagree : BitVec 4 := 0
  berRun : Tab Nat := []
  time : LinkTime := {}
  downSince : Option Nat := none
  sent : List Nat := []
  switchIn : Nat := 0
  eq : Tab Int := []
  ownTrain : Nat := 0
  ownRun : Nat := 0
  narrowTo : Option Nat := none
  deriving DecidableEq, Repr

/-- Route bank states (05 R154). -/
inductive BankState | empty | loading | installed
  deriving DecidableEq, Repr

/-- A route bank (05): its image header fields and its entries, sparse. -/
structure Bank where
  st : BankState := .empty
  epoch : Nat := 0
  seed : BitVec 16 := 0
  digest : Nat := 0
  block : Tab (BitVec 128) := []
  fine : Tab (BitVec 128) := []
  groups : Tab (BitVec 256) := []
  cert : Option Nat := none
  deriving DecidableEq, Repr

/-- Who waits for an answer (05 R152): the operation of a DMA engine or of a thread slot, by its number in the
Stitch; a mirror chunk, a seal, a restore read; far output of a Ladder. -/
inductive Asker
  | engine (st op : Nat)
  | slot (st op : Nat)
  | mirror (shard chunk : Nat)
  | seal (shard : Nat)
  | restore (shard chunk : Nat)
  | ladder (die buf : Nat)
  deriving DecidableEq, Repr

/-- An outstanding request (05 R152): its destination, tag, unit, place of the data and stamp; `limit` is its timeout, and `gone`
says that its frame has crossed the egress MAC boundary, at the stamp (02 Table 02-3; 09 R278; 13 R389). -/
structure Request where
  dst : Nat
  seq : Nat
  who : Asker
  addr : Nat
  len : Nat
  stamp : Nat
  limit : Nat := 0
  gone : Bool := false
  deriving DecidableEq, Repr

/-- A ROUTE_CHECK or ROUTE_LOAD in progress. -/
structure RouteJob where
  ticket : Nat
  addr : Nat
  len : Nat
  stamp : Nat
  bank : Nat := 0
  deriving DecidableEq, Repr

/-- A request that waits because 65,536 to its FID are outstanding (05 R152); `unit` is the Skein that sends it, or 4 more than the
port die. -/
structure Parked where
  unit : Nat
  who : Asker
  f : Frame
  addr : Nat
  len : Nat
  deriving DecidableEq, Repr

/-- Routing (05): two banks, the loads and the check in progress, outstanding requests and those that wait for a tag. -/
structure RouteSt where
  b0 : Bank := {}
  b1 : Bank := {}
  load : List RouteJob := []
  check : Option RouteJob := none
  reqs : List Request := []
  parked : List Parked := []
  nextSeq : Nat := 0
  routeEpoch : Nat := 0
  logged : Tab Nat := []
  deriving DecidableEq, Repr

/-- A meter (06 R180), buckets in 1/256 byte; a step back of the pip counter (02 R46) can take them below 0. -/
structure Meter where
  tc : Int
  tp : Int
  last : Nat
  deriving DecidableEq, Repr

/-- An egress scheduler (06 R184, R187, R196): virtual time, finish tags, classes seen empty, shaper buckets, and for each class the
core cycles in which its head was blocked on credits and on the shaper, in thousandths. -/
structure Sched where
  v : Nat := 0
  tags : Tab Nat := []
  busy : List Nat := []
  buckets : Tab Int := []
  last : Nat := 0
  noCredit : Tab Nat := []
  noShape : Tab Nat := []
  deriving DecidableEq, Repr

/-- A requester of an arbiter (06 R192). -/
structure Req where
  s : Nat := 0
  c : Nat := 0
  maxc : Nat := 0
  grants : Nat := 0
  aging : Nat := 0
  stale : Nat := 0
  held : Nat := 0
  deriving DecidableEq, Repr

/-- An arbiter (06 R190 to R193): `asserted` lists the requests registered in the last cycle, which this one decides on, and
`granted` the grants for the next cycle. -/
structure Arb where
  frozen : Bool := false
  g : Nat := 0
  reqs : Tab Req := []
  asserted : List Nat := []
  granted : List Nat := []
  deriving DecidableEq, Repr

/-- Metering, scheduling, arbitration and bridges (01 R17, 06); `waits` counts for each port die the core cycles, in thousandths, in
which the head of a queue waited for admission to a slot (08, Table 08-7). -/
structure TrafSt where
  meters : Tab Meter := []
  scheds : Tab Sched := []
  arbs : Tab Arb := []
  retries : Tab Nat := []
  waits : Tab Nat := []
  deriving DecidableEq, Repr

end Sys2Proof.Machine
end

