-- ==== Sys2Proof/Machine/StPwr.lean ====
section
/-! DEFINITION. State of the budget manager, the Dealer and the sentinel, the Swatch runs and the patrol
(chapters 15, 17). -/

namespace Sys2Proof.Machine

open Sys2Proof

/-- Grants of one Turn for a domain (15 R424, R425): energy and issue cycles by class, and g(x). -/
structure Grants where
  g : Nat := 0
  energy : Tab Nat := []
  cycles : Tab Nat := []
  deriving DecidableEq, Repr

/-- A step up in progress (15 R431): its target, the pip of the raise and that of the report of regulation. -/
structure StepJob where
  target : Nat
  raisedAt : Nat
  regAt : Option Nat := none
  deriving DecidableEq, Repr

/-- A power domain (15): 0–3 Skeins, 4–7 port dies. Energies in eu, temperatures in °C × 64. `mv` is the rail's set
point, `readMv`, `amps` (1/16 A) and `pmeas` (W) what telemetry read; `pSnap` and `tSnap` are P_meas and T_hot at the start of
the present Turn (R423); `acted` are the classes that issued or were held this Turn, `heldE` and `heldC` those held for energy
and for cycles; `booked` is what of this Turn's overdraw is debt already; `cycLimit` the ramp limit of R425. The `last` fields are
grants, charges and unit-cycles of the Turn before. -/
structure Domain where
  clock : Nat := 950
  mv : Nat := 750
  kappa : Nat := 256
  readMv : Nat := 0
  pmeas : Nat := 0
  amps : Nat := 0
  readAt : Option Nat := none
  lost : Bool := false
  charged : Nat := 0
  since : Nat := 0
  pSnap : Nat := 0
  tSnap : Int := 0
  now : Grants := {}
  next : Option Grants := none
  spent : Tab Nat := []
  cycles : Tab Nat := []
  cycLimit : Option Nat := none
  debt : Tab Nat := []
  booked : Tab Nat := []
  acted : List Nat := []
  heldE : List Nat := []
  heldC : List Nat := []
  lastSpent : Tab Nat := []
  lastCycles : Tab Nat := []
  lastUnits : Nat := 0
  lastGrants : Grants := {}
  hotRun : Nat := 0
  coolRun : Nat := 0
  heldRun : Nat := 0
  lastStep : Option Nat := none
  stepTurn : Nat := 0
  step : Option StepJob := none
  noUpUntil : Nat := 0
  emergency : Bool := false
  belowRun : Nat := 0
  level : Nat := 0
  derate : Nat := 0
  deriving DecidableEq, Repr

/-- Work items of the Dealer (15 R428). -/
inductive Work
  | slice (shard s : Nat)
  | run (expert replica area : Nat)
  | check (id : Nat)
  | swatch (id : Nat)
  deriving DecidableEq, Repr

/-- A ready item: its work, since when it waits, and the key of its estimate. -/
structure Ready where
  work : Work
  since : Nat
  key : List Nat
  deriving DecidableEq, Repr

/-- The Dealer of a Skein (15 R428, R429): queues U, E and S, what was started and not yet taken up, and the
energy last charged for each key. -/
structure Dealer where
  u : List Ready := []
  e : List Ready := []
  s : List Ready := []
  started : List Work := []
  est : List (List Nat × Nat) := []
  deriving DecidableEq, Repr

/-- Power (15). `sensors` keeps the last valid reading of each sensor in TELEM order, `badSensors` those made invalid;
`fixedSusp` the domains where an emergency suspends FIXED and `fixedFlag` the flag of R435; `envelope` the envelope in watts,
`envPrev` the one before it and `envFrom` the first Turn of the new one; `vals` the settings in force at the start of the
present Turn (R436) and `vals0` those at the start of the Turn before; `granted` the last Turn whose grants are published. -/
structure PwrSt where
  envelope : Option Nat := none
  envPrev : Option Nat := none
  envFrom : Nat := 0
  vals : Tab Nat := []
  vals0 : Tab Nat := []
  doms : Tab Domain := []
  dealers : Tab Dealer := []
  sensors : Tab Int := []
  badSensors : List Nat := []
  fixedSusp : List Nat := []
  fixedFlag : Bool := false
  turn : Nat := 0
  granted : Nat := 0
  deriving DecidableEq, Repr

/-- Sentinel settings of a Skein (17, Table 17-6). -/
structure SentSet where
  enable : Nat := 1
  k : Nat := 10
  offset : Nat := 128
  derateAt : Nat := 2
  retireAt : Nat := 4
  derateMax : Nat := 4
  fuse : Nat := 0
  deriving DecidableEq, Repr

/-- A witness check (17 R481 to R483): its snapshot slot, the primary, the word's tag, core cycles and energy coefficients, the
witness and, after a mismatch, the third Stitch. -/
structure Check where
  id : Nat
  primary : Nat
  tag : Nat
  cycles : Nat := 0
  eu : Nat := 0
  witness : Option Nat
  third : Option Nat := none
  deriving DecidableEq, Repr

/-- Results of a Swatch run (17, Table 17-6). -/
structure SwResult where
  run : Nat := 0
  passed : Nat := 0
  failed : Nat := 0
  absent : Nat := 0
  malformed : Nat := 0
  firstFail : Option Nat := none
  start : Nat := 0
  stop : Nat := 0
  deriving DecidableEq, Repr

/-- What is still to be run of a Swatch set: a record's address and index, and the unit, kind 0 Stitch, 1 Tally engine,
2 update pipe. -/
structure SwItem where
  addr : Nat
  index : Nat
  kind : Nat
  unit : Nat
  deriving DecidableEq, Repr

/-- A Swatch run in progress (17 R487, R488): its limit, what is to be run, the results so far, and who started it: a command
or a schedule. -/
structure SwRun where
  limit : Nat
  todo : List SwItem
  res : SwResult := {}
  ticket : Option Nat := none
  slot : Option Nat := none
  deriving DecidableEq, Repr

/-- A Swatch schedule (17 R488); `order` is its place in the order of acceptance (02 R61). -/
structure SwSched where
  next : Nat
  period : Nat
  addr : Nat
  len : Nat
  t : Targets
  limit : Nat
  armed : Bool := true
  waiting : Bool := false
  skipped : Nat := 0
  last : Option SwResult := none
  order : Nat := 0
  deriving DecidableEq, Repr

/-- Where an uncorrectable word may stand outside memory and packet buffers (17 Table 17-2): a frame of a replay buffer by link and lsn, a
cached word of a Stitch by its key, an entry of the descriptor, layer or directory tables or of the group table, the working SRAM of the
update pipes for a shard and of a Ladder's buffer, the Needle's code and command state, and a word of 8 bytes of a log entry. -/
inductive UeSite
  | replay (lk lsn : Nat)
  | word (st key : Nat)
  | desc (key : Nat)
  | layer (key : Nat)
  | expert (id : Nat)
  | group (no : Nat)
  | pipe (shard : Nat)
  | ladder (slot : Nat)
  | needle
  | log (seq word : Nat)
  deriving DecidableEq, Repr

/-- The log keeps its words at WARM (17 R495). -/
def UeSite.inLog : UeSite → Bool | .log _ _ => true | _ => false

/-- Integrity (17). `ueSites` are the places of uncorrectable words outside memory and packet buffers. Keys of Stitches are 256k + i; `retired` lists volatile retirements, `suspects` the 16-bit
suspect counts; `corr` the correctable-error windows; `patrol` the next word of each channel. -/
structure IntegSt where
  ueSites : List UeSite := []
  sent : Tab SentSet := []
  suspects : Tab Nat := []
  retired : List Nat := []
  checks : List Check := []
  nextCheck : Nat := 0
  decayAt : Nat := 2 ^ 40
  run : Option SwRun := none
  lastRun : Option SwResult := none
  scheds : Tab SwSched := []
  corrBase : Tab Nat := []
  corrFrom : Nat := 0
  patrol : Tab Nat := []
  refresh : Tab Nat := []
  refreshes : Tab (List Nat) := []
  deriving DecidableEq, Repr

end Sys2Proof.Machine
end

