-- ==== Sys2Proof/Machine/Num.lean ====
section
/-! DEFINITION. Numbers: formats, rounding, block scales, statistics, the Dice (07; 13 R376, R378). -/

namespace Sys2Proof.Machine

open Sys2Proof

/-! ### Formats (Table 07-1) -/

/-- A format of Table 07-1. -/
inductive Fmt | f4 | f6a | f6b | f8a | f8b | b16 | h16 | f32 | i8 | i32
  deriving DecidableEq, Repr

/-- The format of a code; 0xA to 0xF name none (R197). -/
def Fmt.ofCode : Nat → Option Fmt
  | 0 => some .f4 | 1 => some .f6a | 2 => some .f6b | 3 => some .f8a | 4 => some .f8b | 5 => some .b16
  | 6 => some .h16 | 7 => some .f32 | 8 => some .i8 | 9 => some .i32 | _ => none

/-- Element width in bits. -/
def Fmt.width : Fmt → Nat
  | .f4 => 4 | .f6a | .f6b => 6 | .f8a | .f8b | .i8 => 8 | .b16 | .h16 => 16 | .f32 | .i32 => 32

/-- Mantissa bits. -/
def Fmt.mant : Fmt → Nat
  | .f4 => 1 | .f6a => 2 | .f6b => 3 | .f8a => 3 | .f8b => 2 | .b16 => 7 | .h16 => 10 | .f32 => 23 | _ => 0

/-- Exponent bias. -/
def Fmt.bias : Fmt → Nat
  | .f4 => 1 | .f6a => 3 | .f6b => 1 | .f8a => 7 | .f8b => 15 | .b16 => 127 | .h16 => 15 | .f32 => 127 | _ => 0

/-- Exponent bits. -/
def Fmt.expo : Fmt → Nat
  | .f4 => 2 | .f6a => 3 | .f6b => 2 | .f8a => 4 | .f8b => 5 | .b16 => 8 | .h16 => 5 | .f32 => 8 | _ => 0

/-- F4, F6A, F6B, F8A, F8B (R200). -/
def Fmt.narrow : Fmt → Bool | .f4 | .f6a | .f6b | .f8a | .f8b => true | _ => false
/-- I8 and I32. -/
def Fmt.int : Fmt → Bool | .i8 | .i32 => true | _ => false
/-- Formats with infinities. -/
def Fmt.hasInf : Fmt → Bool | .f8b | .b16 | .h16 | .f32 => true | _ => false
/-- Formats with a NaN of their own. -/
def Fmt.hasNan : Fmt → Bool | .f8a | .f8b | .b16 | .h16 | .f32 => true | _ => false
/-- Formats with a pre-scale (R203). -/
def Fmt.scaled : Fmt → Bool | .f32 | .i8 | .i32 => false | _ => true

/-- An exact value: (−1)^neg × m × 2^e, an infinity, or NaN. -/
inductive Num
  | fin (neg : Bool) (m : Nat) (e : Int)
  | inf (neg : Bool)
  | nan
  deriving DecidableEq, Repr

/-- +0. -/
def Num.zero : Num := .fin false 0 0
/-- +1. -/
def Num.one : Num := .fin false 1 0
/-- The value of an integer. -/
def Num.ofInt (i : Int) : Num := .fin (decide (i < 0)) i.natAbs 0
/-- NaN. -/
def Num.isNan : Num → Bool | .nan => true | _ => false
/-- ±0. -/
def Num.isZero : Num → Bool | .fin _ m _ => m == 0 | _ => false
/-- The sign bit. -/
def Num.neg? : Num → Bool | .fin s _ _ => s | .inf s => s | .nan => false
/-- The negation. -/
def Num.negate : Num → Num | .fin s m e => .fin (!s) m e | .inf s => .inf (!s) | .nan => .nan
/-- Multiply by 2^k, exactly. -/
def Num.scale (x : Num) (k : Int) : Num := match x with | .fin s m e => .fin s m (e + k) | y => y

/-- The largest finite mantissa and its exponent. -/
def Fmt.maxFin : Fmt → Nat × Int
  | .f4 => (6, 0) | .f6a => (28, 0) | .f6b => (15, -1) | .f8a => (448, 0) | .f8b => (57344, 0)
  | .b16 => (255, 120) | .h16 => (65504, 0) | .f32 => (16777215, 104) | .i8 => (127, 0)
  | .i32 => (2147483647, 0)

/-- The largest finite value with a sign. -/
def Fmt.maxNum (f : Fmt) (neg : Bool) : Num := .fin neg f.maxFin.1 f.maxFin.2

/-- The mantissas of two dyadics over a common exponent. -/
def alignPair (m1 : Nat) (e1 : Int) (m2 : Nat) (e2 : Int) : Nat × Nat × Int :=
  if e1 ≤ e2 then (m1, m2 <<< (e2 - e1).toNat, e1) else (m1 <<< (e1 - e2).toNat, m2, e2)

/-- Comparison of magnitudes of finite numbers. -/
def magLe (m1 : Nat) (e1 : Int) (m2 : Nat) (e2 : Int) : Bool :=
  let p := alignPair m1 e1 m2 e2
  decide (p.1 ≤ p.2.1)

/-- The value that bits of a format encode (Table 07-1). -/
def Fmt.decode (f : Fmt) (b : Nat) : Num :=
  if f.int then
    let w := f.width
    let v := b % 2 ^ w
    Num.ofInt (if v < 2 ^ (w - 1) then v else (v : Int) - 2 ^ w)
  else
    let m := f.mant
    let ex := bits b m f.expo
    let man := bits b 0 m
    let s := bit b (m + f.expo)
    if f.hasInf && ex == 2 ^ f.expo - 1 then (if man = 0 then .inf s else .nan)
    else if f.hasNan && !f.hasInf && ex == 2 ^ f.expo - 1 && man == 2 ^ m - 1 then .nan
    else if ex = 0 then .fin s man (1 - (f.bias : Int) - m)
    else .fin s (2 ^ m + man) ((ex : Int) - f.bias - m)

/-- The canonical NaN of a format (R211). -/
def Fmt.nanBits : Fmt → Nat
  | .f32 => 0x7FC00000 | .b16 => 0x7FC0 | .h16 => 0x7E00 | .f8a => 0x7F | .f8b => 0x7E | _ => 0

/-- The bits of a value of a format; the value is one that `rnd` gave, or NaN. -/
def Fmt.encode (f : Fmt) (x : Num) : Nat :=
  match x with
  | .nan => f.nanBits
  | .inf s => b2n s * 2 ^ (f.mant + f.expo) + (2 ^ f.expo - 1) * 2 ^ f.mant
  | .fin s m e =>
    if f.int then
      let v := if e ≥ 0 then m <<< e.toNat else m >>> (-e).toNat
      if s then (2 ^ f.width - v % 2 ^ f.width) % 2 ^ f.width else v % 2 ^ f.width
    else
      let sg := b2n s * 2 ^ (f.mant + f.expo)
      if m = 0 then sg
      else
        let l : Int := Nat.log2 m + e
        let ex := max l (1 - (f.bias : Int))
        let u := ex - f.mant
        let n := if e ≥ u then m <<< (e - u).toNat else m >>> (u - e).toNat
        -- a subnormal has n below 2^mant and exponent field 0
        if n < 2 ^ f.mant then sg + n else sg + (ex + f.bias).toNat * 2 ^ f.mant + (n - 2 ^ f.mant)

/-! ### Rounding (R207, R209, R210, R213) -/

/-- Rounding modes: RN, RZ, RS with its 24-bit value. -/
inductive Mode
  | rn | rz
  | rs (r : Nat)
  deriving DecidableEq, Repr

/-- Round a magnitude m × 2^e to a multiple of 2^u: the multiple. -/
def roundTo (m : Nat) (e u : Int) (mode : Mode) : Nat :=
  if e ≥ u then m <<< (e - u).toNat
  else
    let k := (u - e).toNat
    let n := m >>> k
    let rem := m - n <<< k
    match mode with
    | .rz => n
    | .rn => if 2 * rem > 1 <<< k ∨ (2 * rem = 1 <<< k ∧ n % 2 = 1) then n + 1 else n
    | .rs r => if (rem <<< 24) >>> k + r ≥ 2 ^ 24 then n + 1 else n

/-- What a conversion or operation counts (R214): saturations and invalids. -/
structure Cnts where
  sat : Nat := 0
  inv : Nat := 0
  deriving DecidableEq, Repr

/-- Sum of counts. -/
def Cnts.add (a b : Cnts) : Cnts := { sat := a.sat + b.sat, inv := a.inv + b.inv }

/-- rnd of R207 with the treatment of infinities and NaN of R210, R211, R213: the value of the format and what is
counted. A NaN stays NaN here; a format without NaN marks its block (R204). -/
def rnd (f : Fmt) (mode : Mode) (x : Num) : Num × Cnts :=
  match x with
  | .nan => if f.int then (Num.zero, { inv := 1 }) else (.nan, {})
  | .inf s =>
    if f.hasInf then (.inf s, {})
    else if f.int then
      (if s then .fin true (f.maxFin.1 + 1) 0 else f.maxNum false, { sat := 1 })
    else (f.maxNum s, { sat := 1 })
  | .fin s m e =>
    if m = 0 then (if f.int then Num.zero else .fin s 0 0, {})
    else if f.int then
      let n := roundTo m e 0 mode
      let lim := if s then f.maxFin.1 + 1 else f.maxFin.1
      if n > lim then (.fin s lim 0, { sat := 1 }) else (.fin s n 0, {})
    else
      let l : Int := Nat.log2 m + e
      let ex := max l (1 - (f.bias : Int))
      let u := ex - f.mant
      let n := roundTo m e u mode
      if magLe n u f.maxFin.1 f.maxFin.2 then (.fin s n u, {}) else (f.maxNum s, { sat := 1 })

/-- rnd(·, f32, rn). -/
def rnd32 (x : Num) : Num × Cnts := rnd .f32 .rn x

/-! ### Exact arithmetic with IEEE 754 infinities and NaN (R212) -/

/-- Exact sum; a sum whose value is zero is +0 unless both addends are −0. -/
def Num.add : Num → Num → Num
  | .nan, _ | _, .nan => .nan
  | .inf a, .inf b => if a = b then .inf a else .nan
  | .inf a, _ => .inf a
  | _, .inf b => .inf b
  | .fin s1 m1 e1, .fin s2 m2 e2 =>
    let p := alignPair m1 e1 m2 e2
    if s1 = s2 then .fin s1 (p.1 + p.2.1) p.2.2
    else if p.1 = p.2.1 then .fin false 0 0
    else if p.1 > p.2.1 then .fin s1 (p.1 - p.2.1) p.2.2
    else .fin s2 (p.2.1 - p.1) p.2.2

/-- Exact product. -/
def Num.mul : Num → Num → Num
  | .nan, _ | _, .nan => .nan
  | .inf a, y => if y.isZero then .nan else .inf (a != y.neg?)
  | x, .inf b => if x.isZero then .nan else .inf (x.neg? != b)
  | .fin s1 m1 e1, .fin s2 m2 e2 => .fin (s1 != s2) (m1 * m2) (e1 + e2)

/-- Order on numbers that are not NaN, −0 below +0 (R212). -/
def Num.le : Num → Num → Bool
  | .nan, _ | _, .nan => false
  | .inf true, _ => true
  | _, .inf false => true
  | .inf false, _ => false
  | _, .inf true => false
  | .fin s1 m1 e1, .fin s2 m2 e2 =>
    if s1 = s2 then (if s1 then magLe m2 e2 m1 e1 else magLe m1 e1 m2 e2)
    else s1

/-- IEEE equality: −0 = +0, NaN unequal to all. -/
def Num.eqv (a b : Num) : Bool :=
  if a.isZero && b.isZero then true else Num.le a b && Num.le b a

/-- IEEE less than. -/
def Num.lt (a b : Num) : Bool := Num.le a b && !Num.eqv a b && !a.isNan && !b.isNan

/-- A NaN result where no input was NaN counts one invalid (R212). -/
def invOf (ins : List Num) (r : Num) : Cnts := { inv := b2n (r.isNan && ins.all (fun x => !x.isNan)) }

/-- An operation on inputs, rounded to F32 with its counts. -/
def op32 (mode : Mode) (ins : List Num) (exact : Num) : Num × Cnts :=
  let r := rnd .f32 mode exact
  (r.1, r.2.add (invOf ins exact))

/-- rnd(a + b, f32). -/
def add32 (mode : Mode) (a b : Num) : Num × Cnts := op32 mode [a, b] (a.add b)
/-- rnd(a × b, f32). -/
def mul32 (mode : Mode) (a b : Num) : Num × Cnts := op32 mode [a, b] (a.mul b)
/-- rnd(a × b + c, f32), one rounding (R218). -/
def fma32 (mode : Mode) (a b c : Num) : Num × Cnts := op32 mode [a, b, c] ((a.mul b).add c)

/-- MAX under R212. -/
def maxNum (a b : Num) : Num := if a.isNan || b.isNan then .nan else if Num.le a b then b else a
/-- MIN under R212. -/
def minNum (a b : Num) : Num := if a.isNan || b.isNan then .nan else if Num.le a b then a else b

/-- The integer square root, bit by bit from 2^n. -/
def isqrt : Nat → Nat → Nat → Nat
  | 0, _, r => r
  | n + 1, x, r => if (r + 2 ^ n) * (r + 2 ^ n) ≤ x then isqrt n x (r + 2 ^ n) else isqrt n x r

/-- The correctly rounded F32 quotient (R376, R210, R212). -/
def div32 (a b : Num) : Num × Cnts :=
  match a, b with
  | .nan, _ | _, .nan => (.nan, {})
  | .inf _, .inf _ => (.nan, { inv := 1 })
  | .inf s, y => (.inf (s != y.neg?), {})
  | x, .inf s => (.fin (x.neg? != s) 0 0, {})
  | .fin s1 m1 e1, .fin s2 m2 e2 =>
    if m2 = 0 then (if m1 = 0 then (.nan, { inv := 1 }) else (Fmt.maxNum .f32 (s1 != s2), { sat := 1 }))
    else
      let k := 64 + Nat.log2 m2
      let q := (m1 <<< k) / m2
      let sticky := b2n ((m1 <<< k) % m2 != 0)
      rnd32 (.fin (s1 != s2) (2 * q + sticky) (e1 - e2 - k - 1))

/-- The correctly rounded F32 square root. -/
def sqrt32 (a : Num) : Num × Cnts :=
  match a with
  | .nan => (.nan, {})
  | .inf s => if s then (.nan, { inv := 1 }) else (.inf false, {})
  | .fin s m e =>
    if m = 0 then (.fin s 0 0, {})
    else if s then (.nan, { inv := 1 })
    else
      let m2 := if e % 2 = 0 then m else 2 * m
      let e2 := if e % 2 = 0 then e else e - 1
      let x := m2 <<< 80
      let r := isqrt (Nat.log2 x / 2 + 1) x 0
      let sticky := b2n (r * r != x)
      rnd32 (.fin false (2 * r + sticky) (e2 / 2 - 41))

/-! ### Statistics (R214) -/

/-- The conversion statistics of a write: the running maximum in F32 bits and three counts. -/
structure Stats where
  amax : Nat := 0
  sat : Nat := 0
  inv : Nat := 0
  nanblk : Nat := 0
  deriving DecidableEq, Repr

/-- Statistics combine as a maximum and as saturating sums (R214, R215). -/
def Stats.add (a b : Stats) : Stats :=
  { amax := max a.amax b.amax, sat := min cMax (a.sat + b.sat), inv := min cMax (a.inv + b.inv),
    nanblk := min cMax (a.nanblk + b.nanblk) }

/-- Counts as statistics. -/
def Cnts.stats (c : Cnts) : Stats := { sat := c.sat, inv := c.inv }

/-- F32 bits of the magnitude of a finite value, 0 for others (amax, R214). -/
def amaxOf (x : Num) : Nat :=
  match x with | .fin _ m e => Fmt.encode .f32 (rnd32 (.fin false m e)).1 | _ => 0

/-! ### Blocks (R200 to R206) -/

/-- The block size of a code. -/
def blockSize (c : Nat) : Nat := 16 * 2 ^ c

/-- emax and mmax (as multiples of 1/8) of a narrow format (Table 07-2). -/
def scaleRef : Fmt → Nat × Nat
  | .f4 => (2, 12) | .f6a => (4, 14) | .f6b => (2, 15) | .f8a => (8, 14) | _ => (15, 14)

/-- The greatest magnitude among finite values. -/
def magMax : List Num → Nat × Int
  | [] => (0, 0)
  | x :: r =>
    let b := magMax r
    match x with
    | .fin _ m e => if magLe m e b.1 b.2 then b else (m, e)
    | _ => b

/-- The scale byte of a block of pre-scaled values (R204). -/
def scaleOf (f : Fmt) (ys : List Num) : Nat :=
  if !f.hasNan && ys.any Num.isNan then 255
  else
    let a := magMax ys
    if a.1 = 0 then 127
    else
      let l := Nat.log2 a.1
      let k : Int := l + a.2
      let e := k - (scaleRef f).1 + 127
      -- sig > mmax: a / 2^l > mmax / 8
      let e := if a.1 * 8 > (scaleRef f).2 * 2 ^ l then e + 1 else e
      (min (max e 0) 254).toNat

/-- One element stored under a scale byte (R205): its bits and counts. -/
def storeElem (f : Fmt) (scale : Nat) (y : Num) (mode : Mode) : Nat × Cnts :=
  if f.narrow && scale == 255 then (0, {})
  else
    let r := rnd f mode (if f.narrow then y.scale (127 - scale) else y)
    (f.encode r.1, r.2)

/-- A block written: scale byte, element bits, statistics (R204, R205, R211, R214). `xs` are the values before the
pre-scale, with their rounding modes. -/
def storeBlock (f : Fmt) (prescale : Nat) (xs : List (Num × Mode)) : Nat × List Nat × Stats :=
  let ys := xs.map (fun x => (x.1.scale ((prescale : Int) - 127), x.2))
  let sc := if f.narrow then scaleOf f (ys.map (·.1)) else 127
  let es := ys.map (fun y => storeElem f sc y.1 y.2)
  let cs := es.foldl (fun c e => c.add e.2) ({} : Cnts)
  (sc, es.map (·.1),
   { amax := (xs.map (fun x => amaxOf x.1)).foldl max 0, sat := cs.sat, inv := cs.inv,
     nanblk := b2n (f.narrow && sc == 255) })

/-- The value of an element under a scale byte and pre-scale, exact (R202). -/
def loadElem (f : Fmt) (scale prescale b : Nat) : Num :=
  if f.narrow && scale == 255 then .nan
  else
    let x := f.decode b
    let x := if f.narrow then x.scale ((scale : Int) - 127) else x
    if f.scaled then x.scale (127 - (prescale : Int)) else x

/-- A read into F32 (R206): the value, and a saturation counted with the operation. -/
def readF32 (x : Num) : Num × Cnts := rnd32 x

/-- The bits of element `i` in packed bytes given as a little-endian number (R199). -/
def packGet (f : Fmt) (x i : Nat) : Nat := bits x (i * f.width) f.width

/-- Pack elements from position 0 (R199). -/
def packBits (f : Fmt) : List Nat → Nat
  | [] => 0
  | b :: r => b % 2 ^ f.width + 2 ^ f.width * packBits f r

/-! ### The matrix group rule (R216) -/

/-- Exact sum of a list, +0 for none. -/
def sumExact : List Num → Num
  | [] => Num.zero
  | [x] => x
  | x :: r => x.add (sumExact r)

/-- A product, and whether one of its factors is NaN. -/
def prodOf (a b : Num) : Num × Bool := (a.mul b, a.isNan || b.isNan)

/-- rnd(acc + t, f32, rn) for the exact sum t of products: a NaN result of operands none of which is NaN is one invalid (R212). -/
def sumAdd (acc t : Num) (prods : List (Num × Bool)) : Num × Cnts :=
  let r := add32 .rn acc t
  (r.1, { r.2 with inv := b2n (r.1.isNan && !acc.isNan && prods.all (fun p => !p.2)) })

/-- One group of R216 added to an F32 accumulator; a zero sum contributes +0. -/
def groupAdd (acc : Num) (prods : List (Num × Bool)) : Num × Cnts :=
  let t := sumExact (prods.map (·.1))
  sumAdd acc (if t.isZero then Num.zero else t) prods

/-- The B16 pieces x1, x2, x3 of an F32 operand (R219), and what the conversions and subtractions count. -/
def pieces16 (x : Num) : (Num × Num × Num) × Cnts :=
  let b (v : Num) : Num × Cnts := let e := storeElem .b16 127 v .rn; (Fmt.decode .b16 e.1, e.2)
  let p1 := b x
  let d2 := x.add p1.1.negate
  let p2 := b d2
  let d3 := d2.add p2.1.negate
  let p3 := b d3
  ((p1.1, p2.1, p3.1), ((p1.2.add p2.2).add p3.2).add ((invOf [x, p1.1] d2).add (invOf [d2, p2.1] d3)))

/-- The piece of a number. -/
def pieceOf (p : Num × Num × Num) (i : Nat) : Num := match i with | 1 => p.1 | 2 => p.2.1 | _ => p.2.2

/-- The passes of an emulation in order (Table 07-3): pieces of x and y. -/
def passOrder (three : Bool) : List (Nat × Nat) :=
  if three then [(3, 1), (2, 2), (1, 3), (2, 1), (1, 2), (1, 1)] else [(2, 1), (1, 2), (1, 1)]

/-- The product of F32 operands emulated by B16 passes (R219): every pass of every group of 16 goes into one accumulator. -/
def emulated (three : Bool) (xs ys : List Num) : Num × Cnts :=
  let px := xs.map pieces16
  let py := ys.map pieces16
  let n := (min xs.length ys.length + 15) / 16
  let c0 := ((px ++ py).map (·.2)).foldl Cnts.add {}
  (passOrder three).foldl (fun (a : Num × Cnts) p =>
    (List.range n).foldl (fun (a : Num × Cnts) g =>
      let r := groupAdd a.1 ((((px.drop (16 * g)).take 16).zip ((py.drop (16 * g)).take 16)).map (fun q =>
        prodOf (pieceOf q.1.1 p.1) (pieceOf q.2.1 p.2)))
      (r.1, a.2.add r.2)) a) (Num.zero, c0)

/-- Saturating I32 addition (R213). -/
def satI32 (x : Int) : Int × Nat :=
  if x > 2147483647 then (2147483647, 1) else if x < -2147483648 then (-2147483648, 1) else (x, 0)

/-- The signed value of n bits. -/
def toInt (n x : Nat) : Int := let v := x % 2 ^ n; if v < 2 ^ (n - 1) then v else (v : Int) - 2 ^ n

/-- The n-bit two's complement of an integer. -/
def ofInt (n : Nat) (i : Int) : Nat := (i % (2 ^ n : Int)).toNat

/-! ### The Dice (13 R378) -/

/-- 2^64. -/
def w64 : Nat := 2 ^ 64

/-- mix. -/
def diceMix (z : Nat) : Nat :=
  let z := ((z ^^^ (z >>> 30)) * 0xBF58476D1CE4E5B9) % w64
  let z := ((z ^^^ (z >>> 27)) * 0x94D049BB133111EB) % w64
  z ^^^ (z >>> 31)

/-- The 24-bit Dice value of an element. -/
def dice (seed step tid idx : Nat) : Nat :=
  diceMix (diceMix (seed % w64 ^^^ ((step % 2 ^ 32) * 2 ^ 32 + tid % 2 ^ 32)) ^^^ (idx % w64)) >>> 40

end Sys2Proof.Machine
end

