-- ==== Sys2Proof/Machine/StTile.lean ====
section
/-! DEFINITION. State of the Stitches, of Patterns, launches and descriptors, and of the predictor
(chapters 09, 10, 12). -/

namespace Sys2Proof.Machine

open Sys2Proof

/-- A tensor descriptor (10, Table 10-11). -/
structure Desc where
  fmt : Fmt := .f32
  block : Nat := 0
  prescale : Nat := 127
  rlz : Bool := false
  self : Bool := false
  writable : Bool := false
  rows : Nat := 1
  cols : Nat := 1
  pitch : Nat := 0
  data : Nat := 0
  scale : Nat := 0
  sparse : Nat := 0
  stats : Stats := {}
  tid : Nat := 0
  deriving DecidableEq, Repr

/-- An entry of a Skein's descriptor table (10 R308, R311). `last` is the pip of the last load and whether a command brought it
(R312). -/
structure DescEntry where
  gen : Nat := 0
  d : Option Desc := none
  last : Option (Nat × Bool) := none
  deriving DecidableEq, Repr

/-- A predictor layer image (12, Table 12-3). -/
structure Layer where
  mode : Nat := 0
  auditK : Nat := 0
  up : Nat := 0
  down : Nat := 0
  p1 : Nat := 0
  p2 : Nat := 0
  dModel : Nat := 0
  dFf : Nat := 0
  thr : Nat := 0
  floor : Nat := 0
  missLimit : Nat := 0
  maskOff : Nat := 0
  layerId : Nat := 0
  deriving DecidableEq, Repr

/-- An entry of a layer table with its step counts (12 R367). -/
structure LayerEntry where
  l : Layer
  step : Option Nat := none
  audited : Nat := 0
  found : Nat := 0
  fallback : Option Nat := none
  flag : Bool := false
  deriving DecidableEq, Repr

/-- A hardware loop level (10, Table 10-1). -/
structure Loop where
  active : Bool := false
  first : Nat := 0
  last : Nat := 0
  count : Nat := 0
  index : Nat := 0
  deriving DecidableEq, Repr

/-- An address generator (10, Table 10-1). -/
structure AddrGen where
  row0 : Nat := 0
  col0 : Nat := 0
  rs : List Nat := [0, 0, 0, 0]
  cs : List Nat := [0, 0, 0, 0]
  deriving DecidableEq, Repr

/-- A latched operand (10 R290, R311): its handle, generation, descriptor and origin. -/
structure LatOp where
  handle : Nat
  gen : Nat
  d : Desc
  row : Nat
  col : Nat
  deriving DecidableEq, Repr

/-- A checked word: the word, its position, its latched operands in the order of its form, the layer entry it
matched, and the sparse settings in force at its check (10 R290; 12 R362, R370). -/
structure Checked where
  w : BitVec 256
  pc : Nat
  ops : List (Option LatOp) := []
  layer : Option (Nat × Layer × Bool) := none
  split : Nat := 0
  density : Nat := 0
  deriving DecidableEq, Repr

/-- A fault record (10 R313). `exec` is the stage. -/
structure FaultRec where
  status : Status
  tag : Nat
  pc : Nat
  exec : Bool
  st : Nat
  slot : Nat
  stamp : Nat
  index : List Nat
  deriving DecidableEq, Repr

/-- The states of a thread slot; READY and WAITING are `live` (09 R260; 10 R288). -/
inductive SlotState | free | live | faulted
  deriving DecidableEq, Repr

/-- A started operation (10 R291, R294): its stage, the far requests without answer, the far bytes that came, whether
its effect is whole, how it ends, the statistics to be added at completion by handle and generation (R215, R311),
the bytes read first, a GATHER's index or an ATOMIC's operands (R304), whether its signal is withheld (R323), the sentinel check that took a snapshot of it, and the pips at which its word issued
(02 Table 02-3) and at which it began, and the core cycles that it occupies its engine. -/
structure Op where
  id : Nat
  slot : Nat
  owner : Nat
  c : Checked
  begun : Bool := false
  stage : Nat := 0
  left : Nat := 0
  far : List Host.Cell := []
  first : Option (List Byte) := none
  done : Bool := false
  status : Status := .ok
  parts : List (Nat × Nat × Stats) := []
  mute : Bool := false
  snap : Option Nat := none
  issued : Nat := 0
  began : Nat := 0
  cycles : Nat := 0
  deriving DecidableEq, Repr

/-- A thread slot (10, Table 10-1). `owner` is the launch's key, `reserved` that of an armed one; `ending` says END has issued (R307); `held` are
signals posted that wait for the memory words named, by their numbers (R276); `waited` that its wait was found unsatisfied (trace event 4). -/
structure Slot where
  st : SlotState := .free
  owner : Option Nat := none
  reserved : Option Nat := none
  pc : Nat := 0
  loops : List Loop := [{}, {}, {}, {}]
  lc : List Nat := [0, 0, 0, 0]
  cmp : List Nat := [0, 0, 0, 0]
  p : List Bool := [false, false, false, false]
  ag : List AddrGen := [{}, {}, {}, {}]
  next : Option Checked := none
  mem : List Op := []
  ending : Bool := false
  held : List (List Nat × BitVec 256) := []
  waited : Bool := false
  tag : Nat := 0
  fault : Option FaultRec := none
  deriving DecidableEq, Repr

/-- Power states of a Stitch (15, Table 15-4). -/
inductive PowerState | active | hold | retain | dark
  deriving DecidableEq, Repr

/-- An access to a scratchpad in a core cycle (09 R265): first byte and length, the requester's key and its place in the order of
precedence, and the bytes that a write found. -/
structure Met where
  off : Nat
  len : Nat
  who : Nat
  rank : Nat
  old : List Byte := []
  deriving DecidableEq, Repr

/-- What a Stitch has seen in one core cycle of a pip (09 R265, R271): the flags signalled, the sums added to counters, the
accesses to its banks. -/
structure Cycle where
  pip : Nat := 0
  flags : BitVec 32 := 0
  adds : Tab Nat := []
  met : List Met := []
  deriving DecidableEq, Repr

/-- One Stitch (09). `stalls` holds under 32 × requester + bank
the consecutive core cycles in which the requester stalled there, and the pip of the last (R265). Accumulator words are keyed 4096 × tile + 64 × row + column; `eng` keeps for engines 0 matrix,
1 vector, 2 and 3 DMA the running operation and at most one queued (R291); `icache` lists cache lines, most
recently used first; `idle` is the pip since which bank b, or the Stitch under key 32, has seen no access. -/
structure Stitch where
  slots : Tab Slot := []
  flags : BitVec 32 := 0
  cnts : Tab Nat := []
  retain : BitVec 32 := 0
  awake : BitVec 32 := 0xFFFFFFFF#32
  idle : Tab Nat := []
  acc : Tab Nat := []
  lastSlot : Nat := 63
  eng : Tab (List Op) := []
  icache : List Nat := []
  power : PowerState := .active
  turnOn : Option Nat := none
  words : Nat := 0
  nextOp : Nat := 0
  cycle : Cycle := {}
  stalls : Tab (Nat × Nat) := []
  deriving DecidableEq, Repr

/-- A loaded Pattern (10 R316): its load generation, its place in each Skein's Pattern store, its length in bytes,
its word count and digest. -/
structure Pattern where
  gen : Nat
  off : Nat
  len : Nat
  count : Nat
  digest : BitVec 384
  deriving DecidableEq, Repr

/-- Launch states (10, Table 10-13). -/
inductive LaunchState | armed | running | ended
  deriving DecidableEq, Repr

/-- A launch record (10 R319 to R323). Keys 0 to 1,023 are launch ids; runs of experts take keys from 1,024 on. -/
structure Launch where
  st : LaunchState := .armed
  host : Option HostId := none
  pat : Nat
  slots : List (Nat × Nat)
  entry : Nat
  target : Nat
  group : Option Nat := none
  runLimit : Nat := 0
  optStep : Bool := false
  step : Nat := 0
  arg0 : Nat := 0
  arg1 : Nat := 0
  ticket : Option Nat := none
  start : Nat := 0
  stop : Nat := 0
  done : Nat := 0
  status : Status := .ok
  fault : Option FaultRec := none
  bslot : Option Nat := none
  energy : Nat := 0
  abortTickets : List Nat := []
  deriving DecidableEq, Repr

/-- A trace setting of the Skeins of a mask (10 R315): `pos` is the next record, `held` how many are in the ring. -/
structure Trace where
  mask : Nat
  lo : Nat
  hi : Nat
  events : Nat
  ring : Nat
  size : Nat
  wrap : Bool
  pos : Nat := 0
  held : Nat := 0
  dropped : Nat := 0
  deriving DecidableEq, Repr

/-- Patterns, launches and traces (10). -/
structure PatSt where
  pats : Tab Pattern := []
  nextGen : Nat := 0
  launches : Tab Launch := []
  traces : List Trace := []
  deriving DecidableEq, Repr

end Sys2Proof.Machine
end

