-- ==== Sys2Proof/Machine/StUnits.lean ====
section
/-! DEFINITION. State of collective groups, hosted experts, shards and mirror entries, and Ladder streams
(chapters 08, 11, 13, 14). -/

namespace Sys2Proof.Machine

open Sys2Proof

/-! ### Collectives (08) -/

/-- A member of a group (08, Table 08-2), with its straggler record (R253). `lk` is its link. -/
structure Member where
  lk : Nat
  switch : Bool
  lo : Nat
  cnt : Nat
  fid : Nat
  base : Nat := 0
  stride : Nat := 0
  ring : Nat := 0
  child : Nat := 0
  last : Nat := 0
  hist : Nat := 0
  lag : Nat := 0
  deriving DecidableEq, Repr

/-- A slice value: for each element its 32 bits and its count (1 but in SUM_COUNT). -/
abbrev Vals := List (Nat × Nat)

/-- A slice in progress (R236, R238): the members whose input was admitted, the frames kept in their hanks (ordered
mode), the dies that hold a slot for it, the dies whose values have reached the home die, the accumulators by
die (arrival mode), the nodes that other dies computed and sent to the home die (R234): first rank, ranks, value; and the members
from whose frames a value was lost to an uncorrectable word (R251). -/
structure Slice where
  got : List Nat := []
  frames : List (Nat × QFrame) := []
  dies : List Nat := []
  home : List Nat := []
  acc : Tab Vals := []
  nodes : List (Nat × Nat × Vals) := []
  lost : List Nat := []
  deriving DecidableEq, Repr

/-- An open collective (R236): its first stamp, the header cell of its reference frame, the first frame of each member
(digest and stamp), the last arrival of each, slices in progress and those done by die (32 × slice + die), slices that
left the home die, the RESULT slices forwarded, when the last partial left, and the pip at which a rub root passed its
last slice to the pipes (R392). -/
structure Coll where
  seq : Nat
  t0 : Nat
  hdr : List Byte := []
  firsts : Tab (Nat × Nat) := []
  finals : Tab Nat := []
  slices : Tab Slice := []
  past : List Nat := []
  sent : List Nat := []
  passed : Option Nat := none
  deriving DecidableEq, Repr

/-- A group entry (08, Table 08-1). `closed` lists the collectives beyond the oldest open one that completed or failed,
`waitErr` failed ones whose ERROR has not come, `reserve` the reserved hanks by die, `born` the stamp of its creation;
`goDelay` and `goSpan` are the go delay of this device from the root and the largest of the tree (02 R57); `dead` says that a die
with its slots was reset, which neither the entry nor its reservations survive (R255). -/
structure Group where
  arrival : Bool
  lo : Nat
  cnt : Nat
  n : Nat
  parent : Option Nat
  parentFid : Nat
  parentGroup : Nat
  home : Nat
  depth : Nat
  timeout : Nat
  window : Nat
  suspectK : Nat
  rub : Option Nat
  members : List Member
  oldest : Nat
  closed : List Nat := []
  waitErr : List Nat := []
  colls : List Coll := []
  stats : Stats := {}
  reserve : Tab Nat := []
  born : Nat := 0
  goDelay : Nat := 0
  goSpan : Nat := 0
  dead : Bool := false
  deriving DecidableEq, Repr

/-! ### Experts (11) -/

/-- A token (11 R330 to R334): its first frame's header cell, its frames in their hanks, the next offset, the stamps of
its first and last frame, and the owner it is forwarded to (none: LOCAL). Once its hanks are released, `data` and `scales`
hold its payload, or `entry` names the entry of the stage region that does (R348). -/
structure Tok where
  die : Nat
  ing : Nat
  src : Nat
  ch : Nat
  hdr : List Byte
  frames : List QFrame := []
  data : List Byte := []
  scales : List Byte := []
  next : Nat := 0
  first : Nat
  stamp : Nat
  fwd : Option Nat := none
  entry : Option Nat := none
  deriving DecidableEq, Repr

/-- A tile: its opening stamp and its tokens (R336); a keyed tile has its number j in place of the stamp (R348). -/
structure Tile where
  t0 : Nat
  toks : List Tok
  deriving DecidableEq, Repr

/-- A run area in use (R337, R339): the pass, the rows (none: invalid), whether the run has started, its start pip (until
it starts, the pip of loading), its step, and the tiles it was loaded from. -/
structure Run where
  pass : Nat
  rows : List (Option Tok)
  tiles : List Tile
  running : Bool := false
  start : Nat := 0
  step : Nat := 0
  deriving DecidableEq, Repr

/-- A replica (11, Runs on a Stitch group): ascending Stitches, gradient descriptor, reserved slots, the mask bits of each
Stitch in order, the two areas, its fault record, the ticket of a drop in progress, keyed tiles to run, whether its
gradient buffer is clear, and the area that was loaded last. -/
structure Replica where
  sts : List Nat
  grad : Nat
  slots : List (Nat × Nat)
  masks : List Nat := []
  suspended : Bool := false
  drop : Option Nat := none
  a0 : Option Run := none
  a1 : Option Run := none
  fault : Option FaultRec := none
  keyed : List Tile := []
  fresh : Bool := false
  last : Nat := 0
  deriving DecidableEq, Repr

/-- A hosted expert: the 256 bytes of its descriptor (Table 11-4) and the state of its controller (R334 to R348). `grad`
is 0 open, 1 closed with runs to end, 2 passed on. -/
structure Expert where
  d : List Byte
  wstep : Nat := 0
  fwd : Nat := 0
  okF : Nat := 0
  okB : Nat := 0
  grad : Nat := 0
  firstBwd : Option Nat := none
  notices : List Tok := []
  openF : Option Tile := none
  openB : Option Tile := none
  closed : List (Nat × Tile) := []
  staged : List Tok := []
  stash : Nat := 0
  reps : Tab Replica := []
  stats : Stats := {}
  gradTicket : List Nat := []
  deriving DecidableEq, Repr

/-- An exact entry of the directory (R326). -/
inductive DirEntry
  | here (e : Expert)
  | remote (fid : Nat)
  deriving DecidableEq, Repr

/-- Experts (11): exact entries by expert ID, range entries by index (low, high, owner), tokens in assembly, and the
directory index of each exact entry. -/
structure ExpSt where
  exact : Tab DirEntry := []
  index : Tab Nat := []
  ranges : Tab (Nat × Nat × Nat) := []
  toks : List Tok := []
  deriving DecidableEq, Repr

/-! ### Shards and mirror entries (13) -/

/-- Shard states (13, Table 13-5). -/
inductive ShardState | committed | opened | sealing | lost | torn
  deriving DecidableEq, Repr

/-- The code of a shard state, in the order of Table 13-5. -/
def ShardState.code : ShardState → Nat | .committed => 0 | .opened => 1 | .sealing => 2 | .lost => 3 | .torn => 4

/-- A working copy (Table 13-2): handle, role 0 KNIT or 1 PURL, rounding code. -/
structure Copy where
  handle : Nat
  role : Nat
  mode : Nat
  deriving DecidableEq, Repr

/-- A layer of ratio monitoring (R381): its bounds and the last q as F32 bits; `terms` holds (w' − w)² and w² of each element of the
open update that has been processed, as F32 bits. -/
structure Ratio where
  first : Nat
  count : Nat
  lo : Nat
  hi : Nat
  q : Nat := 0
  excursions : Nat := 0
  terms : List (Nat × Nat) := []
  deriving DecidableEq, Repr

/-- A rebind in progress (R395); `create` says that it is the full re-mirror of a create from the partner's slot (Table 13-6). -/
structure Rebind where
  fid : Nat
  idx : Nat
  ticket : Nat
  create : Bool := false
  deriving DecidableEq, Repr

/-- A restore in progress (R395): the far address, its stage (0 seal record, 1 arrays), how far requests have gone, the
bytes that came, requests outstanding, the ticket, and whether it belongs to a create and the shard goes when it fails. -/
structure Restore where
  far : Nat
  stage : Nat := 0
  pos : Nat := 0
  bytes : List Host.Cell := []
  left : Nat := 0
  ticket : Nat
  create : Bool
  deriving DecidableEq, Repr

/-- A gradient slice that waits (R380): its number, the group and sequence of the collective that brought it, and its
elements as F32 bits; `bad` says that a word of them could not be corrected (R394). A PLAIN slice is read from DRAM when it
is applied. -/
structure GradSlice where
  s : Nat
  coll : Option (Nat × Nat) := none
  g : List Nat := []
  bad : Bool := false
  deriving DecidableEq, Repr

/-- A shard (13, Table 13-2, R373 to R395). `ready` lists the gradient slices that wait, in the order in which they became
ready; `next` counts the slices applied; `src` is the gradient address of UPD_APPLY; `consts` are b1t, b2t, a1, c2, a2 of
the open update; `sent` and `acked` count chunks; `rubColl` is the collective being applied; `mirrorBad` says the version
is no longer mirrored (R389); `pend` are chunks whose elements are updated and that wait for the window; `later` holds further
UPD_APPLYs of the same version (R398). -/
structure Shard where
  kind : Nat
  opt : Nat
  fmts : Nat
  skein : Nat
  copies : List Copy
  layers : List Ratio
  mirrorCh : Nat
  rows : Nat
  cols : Nat
  seed : Nat
  addr : Nat
  partner : Nat
  idx : Nat
  window : Nat
  timeout : Nat
  params : List Nat
  staged : Option (Nat × List Nat) := none
  b1t : Nat := 0x3F800000
  b2t : Nat := 0x3F800000
  st : ShardState := .committed
  consts : List Nat := []
  ready : List GradSlice := []
  next : Nat := 0
  src : Nat := 0
  version : Nat := 0
  ticket : Option Nat := none
  later : List Nat := []
  rubColl : Option (Nat × Nat) := none
  expert : Option Nat := none
  sent : Nat := 0
  acked : Nat := 0
  pend : List Nat := []
  sealSent : Bool := false
  mirrorBad : Bool := false
  unprotected : Bool := false
  rebind : Option Rebind := none
  restore : Option Restore := none
  sat : Nat := 0
  inv : Nat := 0
  deriving DecidableEq, Repr

/-- A mirror entry at a partner (R383, R386): sealed version and slot, the version being received and its chunks. -/
structure Mirror where
  fid : Nat
  handle : Nat
  n : Nat
  b : Nat
  slot0 : Nat
  slot1 : Nat
  sealed : Option (Nat × Nat) := none
  recv : Option Nat := none
  chunks : List Nat := []
  deriving DecidableEq, Repr

/-- Shards by handle, mirror entries by index. -/
structure UpdSt where
  shards : Tab Shard := []
  mirrors : Tab Mirror := []
  deriving DecidableEq, Repr

/-! ### Ladder streams (14) -/

/-- A record of a batch: key, payload, rank, sequence (R405). -/
structure Rec where
  key : Nat
  pay : Nat
  rank : Nat
  seq : Nat
  deriving DecidableEq, Repr

/-- A batch (R403): opening and close stamps, the cause of its close, its frames with rank and first sequence, and the
sources whose last flag came since it opened. -/
structure Batch where
  t0 : Nat
  close : Nat := 0
  cause : Nat := 0
  frames : List (Nat × Nat × QFrame) := []
  lasts : List Nat := []
  deriving DecidableEq, Repr

/-- A stream (R399): its 384-byte descriptor, sequence counters by rank, the open batch, batches closed so far, the headers
of the last four batches, its ticket and first status not OK (MEMORY). -/
structure Stream where
  d : List Byte
  cur : Option Batch := none
  seqs : Tab Nat := []
  nextBatch : Nat := 0
  headers : List (List Byte) := []
  ticket : Option Nat := none
  status : Status := .ok
  deriving DecidableEq, Repr

/-- A batch buffer in use (R404, R411): stream key and batch number, the records that pass, how many came in, the facts of
its close, whether its far output has been sent, answers awaited, status, records written, keys past the table and records that failed the predicate. -/
structure LBuf where
  stream : Nat
  batch : Nat
  recs : List Rec
  inRecs : Nat
  t0 : Nat
  close : Nat
  cause : Nat
  sent : Bool := false
  left : Nat := 0
  status : Status := .ok
  out : Nat := 0
  bad : Nat := 0
  filtered : Nat := 0
  deriving DecidableEq, Repr

/-- Ladders: streams by 16 × die + number, closed batches that wait with their stream's key, buffers by 2 × die + b, and for each
die the core cycles, in thousandths, that it was held (R416). -/
structure LadSt where
  streams : Tab Stream := []
  closed : List (Nat × Nat × Batch) := []
  bufs : Tab LBuf := []
  held : Tab Nat := []
  deriving DecidableEq, Repr

end Sys2Proof.Machine
end

