-- ==== Sys2Proof/Machine/State.lean ====
section
/-! DEFINITION. The state of the block, its reset, and one setter for each field. -/

namespace Sys2Proof.Machine

open Sys2Proof

/-- Reasons the block stops with a fault. -/
inductive Fault
  /-- Raised by no command: the spec answers every access to an address that does not exist with a status.
  Safe: a run that never faults claims nothing more. -/
  | absentAddress
  deriving DecidableEq, Repr

/-- Reasons the model gives no meaning. -/
inductive Refusal
  /-- Raised by the dispatcher for a command whose meaning is not written. Safe: no next state is claimed. -/
  | notModelled (mnemonic : String)
  deriving DecidableEq, Repr

/-- Everything the spec gives the block, and the queue of commands that wait. -/
structure State where
  /-- Fuses, firmware slots, measurements, debug (18). -/
  sec : SecSt := {}
  /-- Cast-on, clusters, resets (18). -/
  boot : BootSt := {}
  /-- Output pins (20). -/
  pins : PinSt := {}
  /-- The pip counter and its discipline (02). -/
  time : TimeSt := {}
  /-- Host ports, mailboxes, the command order (16). -/
  host : HostSt := {}
  /-- Claims of resources (16 R461). -/
  claims : Claims := {}
  /-- Settings, stage sets, pending commits (16). -/
  cfg : CfgSt := {}
  /-- The trouble log (17). -/
  log : LogSt := {}
  /-- Sideband registers (20). -/
  side : SideSt := {}
  /-- Links, by number 2p or 2p + 1 (03). -/
  links : Tab Link := []
  /-- Packet buffers (04). -/
  buf : BufSt := {}
  /-- Route banks and outstanding requests (05). -/
  route : RouteSt := {}
  /-- Meters, schedulers, arbiters, bridges (06). -/
  traf : TrafSt := {}
  /-- Stitches, by 256k + i (09). -/
  tiles : Tab Stitch := []
  /-- Descriptor tables, by 4096k + index (10 R308). -/
  descs : Tab DescEntry := []
  /-- Predictor layer tables, by 256k + index (12 R362). -/
  layers : Tab LayerEntry := []
  /-- Patterns, launches, traces (10). -/
  pat : PatSt := {}
  /-- Collective groups, by number (08). -/
  coll : Tab Group := []
  /-- The expert directory and the experts (11). -/
  exp : ExpSt := {}
  /-- Shards and mirror entries (13). -/
  upd : UpdSt := {}
  /-- Ladder streams and batch buffers (14). -/
  lad : LadSt := {}
  /-- Power, clocks, the Dealers (15). -/
  pwr : PwrSt := {}
  /-- Sentinel, Swatch, patrol (17). -/
  integ : IntegSt := {}
  /-- Device DRAM and scratchpads, in canonical form (09). -/
  mem : List Host.Cell := []
  /-- Places whose paired halves disagree (17 Table 17-1). -/
  mismatch : List Nat := []
  /-- 8-byte words whose check bits no longer correct (17 Table 17-2), by key / 8. -/
  ueWords : List Nat := []
  /-- 32-bit saturating counters of every unit. -/
  cnt : Tab Nat := []
  /-- What the block has put out (the model's own record). -/
  out : List Out := []
  /-- How many free values have been used (the model's own). -/
  free : Nat := 0
  /-- Commands waiting, first in, first out (the model's own). -/
  pending : List Instr := []
  deriving DecidableEq, Repr

/-- The block right after RESET_N rises on a part with the fuses of Config, at the start of phase STRAP: the pip
count 0, UNLOCKED, nothing configured, mailboxes EMPTY, tables clear (18 R507; 02 R40). -/
def State.reset : State := {}

/-- Replace field `sec`. -/
def State.setSec (s : State) (x : SecSt) : State := { s with sec := x }
/-- Replace field `boot`. -/
def State.setBoot (s : State) (x : BootSt) : State := { s with boot := x }
/-- Replace field `pins`. -/
def State.setPins (s : State) (x : PinSt) : State := { s with pins := x }
/-- Replace field `time`. -/
def State.setTime (s : State) (x : TimeSt) : State := { s with time := x }
/-- Replace field `host`. -/
def State.setHost (s : State) (x : HostSt) : State := { s with host := x }
/-- Replace field `claims`. -/
def State.setClaims (s : State) (x : Claims) : State := { s with claims := x }
/-- Replace field `cfg`. -/
def State.setCfg (s : State) (x : CfgSt) : State := { s with cfg := x }
/-- Replace field `log`. -/
def State.setLog (s : State) (x : LogSt) : State := { s with log := x }
/-- Replace field `side`. -/
def State.setSide (s : State) (x : SideSt) : State := { s with side := x }
/-- Replace field `links`. -/
def State.setLinks (s : State) (x : Tab Link) : State := { s with links := x }
/-- Replace field `buf`. -/
def State.setBuf (s : State) (x : BufSt) : State := { s with buf := x }
/-- Replace field `route`. -/
def State.setRoute (s : State) (x : RouteSt) : State := { s with route := x }
/-- Replace field `traf`. -/
def State.setTraf (s : State) (x : TrafSt) : State := { s with traf := x }
/-- Replace field `tiles`. -/
def State.setTiles (s : State) (x : Tab Stitch) : State := { s with tiles := x }
/-- Replace field `descs`. -/
def State.setDescs (s : State) (x : Tab DescEntry) : State := { s with descs := x }
/-- Replace field `layers`. -/
def State.setLayers (s : State) (x : Tab LayerEntry) : State := { s with layers := x }
/-- Replace field `pat`. -/
def State.setPat (s : State) (x : PatSt) : State := { s with pat := x }
/-- Replace field `coll`. -/
def State.setColl (s : State) (x : Tab Group) : State := { s with coll := x }
/-- Replace field `exp`. -/
def State.setExp (s : State) (x : ExpSt) : State := { s with exp := x }
/-- Replace field `upd`. -/
def State.setUpd (s : State) (x : UpdSt) : State := { s with upd := x }
/-- Replace field `lad`. -/
def State.setLad (s : State) (x : LadSt) : State := { s with lad := x }
/-- Replace field `pwr`. -/
def State.setPwr (s : State) (x : PwrSt) : State := { s with pwr := x }
/-- Replace field `integ`. -/
def State.setInteg (s : State) (x : IntegSt) : State := { s with integ := x }
/-- Replace field `mem`. -/
def State.setMem (s : State) (x : List Host.Cell) : State := { s with mem := x }
/-- Replace field `mismatch`. -/
def State.setMismatch (s : State) (x : List Nat) : State := { s with mismatch := x }
/-- Replace field `ueWords`. -/
def State.setUeWords (s : State) (x : List Nat) : State := { s with ueWords := x }
/-- Replace field `cnt`. -/
def State.setCnt (s : State) (x : Tab Nat) : State := { s with cnt := x }
/-- Replace field `out`. -/
def State.setOut (s : State) (x : List Out) : State := { s with out := x }
/-- Replace field `free`. -/
def State.setFree (s : State) (x : Nat) : State := { s with free := x }
/-- Replace field `pending`. -/
def State.setPending (s : State) (x : List Instr) : State := { s with pending := x }

end Sys2Proof.Machine
end

