-- ==== Sys2Proof/Machine/Flags.lean ====
section
/-! DEFINITION. Status flags and the lines they raise: SB_ALERT and SMB_ALERT_N (20), IRQ_STATUS, IRQ_ENABLE and the
MSI-X vectors of a host port (16). -/

namespace Sys2Proof.Machine

open Sys2Proof

/-- Record what the block puts out. -/
def State.emit (s : State) (o : Out) : State := s.setOut (s.out ++ [o])

/-! ### The sideband alert (20 R551) -/

/-- SMB_ALERT_N follows the alerts that their mask enables (20 R551). -/
def State.alertPin (s : State) : State :=
  s.setPins { s.pins with smbAlertN := decide (s.side.alert &&& s.side.alertMask = 0) }

/-- The bits of SB_ALERT that events set at this pip. -/
def State.alertRaced (s : State) : BitVec 8 := if s.side.raced.1 = s.time.pip then s.side.raced.2 else 0

/-- Set a bit of SB_ALERT (20 Table 20-4, R551). -/
def State.sbAlert (s : State) (b : Nat) : State :=
  (s.setSide { s.side with alert := s.side.alert ||| (1 <<< b), raced := (s.time.pip, s.alertRaced ||| (1 <<< b)) }).alertPin

/-- A W1C write of SB_ALERT: a bit that an event set at the same moment stays set (20 R551). -/
def State.clearAlert (s : State) (v : BitVec 8) : State :=
  (s.setSide { s.side with alert := (s.side.alert &&& ~~~v) ||| (v &&& s.alertRaced) }).alertPin

/-! ### Interrupts of a host port (16 R446) -/

/-- One port of the host interface. -/
def HostSt.port (h : HostSt) : HostId → HostPort | .h0 => h.h0 | .h1 => h.h1
/-- Replace one port. -/
def HostSt.setPort (h : HostSt) : HostId → HostPort → HostSt
  | .h0, p => { h with h0 := p }
  | .h1, p => { h with h1 := p }

/-- Replace one port of the state. -/
def State.setPort (s : State) (h : HostId) (p : HostPort) : State := s.setHost (s.host.setPort h p)

/-- UP while PERST# is deasserted and the link is trained (R442). -/
def HostPort.up (p : HostPort) : Bool := !p.perst && p.trained

/-- An MSI-X table entry; at reset its vector is masked (PRESUMED, PCIe: entry MSIX). -/
def HostPort.msixEntry (p : HostPort) (v : Nat) : BitVec 128 := tabGet p.msix (1 <<< 96) v

/-- Send a vector, or hold it in the pending-bit array while its mask bit is set (R446). -/
def State.sendVector (s : State) (h : HostId) (v : Nat) : State :=
  let p := s.host.port h
  if (p.msixEntry v).getLsbD 96 then s.setPort h { p with pba := p.pba ||| (1 <<< v) }
  else s.emit (.msix h v)

/-- The W1C bits of a port that events set at this pip (R447; the model's cycle is the pip: entry CYCLE). -/
def State.racedAt (s : State) (h : HostId) : Raced :=
  if (s.host.port h).raced.pip = s.time.pip then (s.host.port h).raced else { pip := s.time.pip }

/-- Set a bit of IRQ_STATUS; a change from 0 to 1 of an enabled bit sends its vector (R446). -/
def State.irq (s : State) (b : Nat) (h : HostId) : State :=
  let p := s.host.port h
  let r := s.racedAt h
  let m : BitVec 32 := 1 <<< b
  if p.irqStatus.getLsbD b then s.setPort h { p with raced := { r with irq := r.irq ||| m, quiet := r.quiet ||| (m &&& ~~~r.irq) } }
  else
    let s := s.setPort h { p with irqStatus := p.irqStatus ||| m, raced := { r with irq := r.irq ||| m } }
    if p.irqEnable.getLsbD b then s.sendVector h (32 + b) else s

/-- A W1C write of IRQ_STATUS: a bit that an event set in the same cycle ends set, and its message is sent (R446, R447). -/
def State.clearIrq (s : State) (h : HostId) (w : BitVec 32) : State :=
  let p := s.host.port h
  let r := s.racedAt h
  let s := s.setPort h { p with irqStatus := (p.irqStatus &&& ~~~w) ||| (w &&& r.irq), raced := { r with quiet := r.quiet &&& ~~~w } }
  ((List.range 7).filter (fun b => (w &&& r.quiet &&& p.irqEnable).getLsbD b)).foldl (fun s b => s.sendVector h (32 + b)) s

/-- Set a bit of MB_DONE. -/
def State.setDone (s : State) (h : HostId) (m : Nat) : State :=
  let p := s.host.port h
  let r := s.racedAt h
  s.setPort h { p with mbDone := p.mbDone ||| (1 <<< m), raced := { r with done := r.done ||| (1 <<< m) } }

/-- A W1C write of MB_DONE (R447). -/
def State.clearDone (s : State) (h : HostId) (w : BitVec 32) : State :=
  let p := s.host.port h
  s.setPort h { p with mbDone := (p.mbDone &&& ~~~w) ||| (w &&& (s.racedAt h).done) }

/-- Set a bit of LAUNCH_END. -/
def State.setEnded (s : State) (h : HostId) (i : Nat) : State :=
  let p := s.host.port h
  let r := s.racedAt h
  s.setPort h { p with launchEnd := p.launchEnd ||| (1#1024 <<< i), raced := { r with ended := r.ended ||| (1#1024 <<< i) } }

/-- A W1C write of LAUNCH_END (R447). -/
def State.clearEnded (s : State) (h : HostId) (w : BitVec 1024) : State :=
  let p := s.host.port h
  s.setPort h { p with launchEnd := (p.launchEnd &&& ~~~w) ||| (w &&& (s.racedAt h).ended) }

/-- Set a bit of IRQ_STATUS at both ports. -/
def State.irqAll (s : State) (b : Nat) : State := (s.irq b .h0).irq b .h1

end Sys2Proof.Machine
end

