-- ==== Sys2Proof/Machine/Ops.lean ====
section
/-! DEFINITION. Named operations over memory, counters, the trouble log and mailboxes. -/

namespace Sys2Proof.Machine

open Sys2Proof

/-! ### Memory in canonical form -/

/-- What a byte of memory that nothing has written reads as (DESIGN CHOICE: the spec gives none). -/
def memDefault : Byte := 0

/-- The form memory is kept in: addresses strictly rising, no entry that reads as an unlisted one. -/
def memWf : List Host.Cell → Bool
  | [] => true
  | [(_, b)] => b != memDefault
  | (a, b) :: (a', b') :: r => b != memDefault && decide (a < a') && memWf ((a', b') :: r)

/-- The byte at an address. -/
def memGet : List Host.Cell → Nat → Byte
  | [], _ => memDefault
  | (k, b) :: r, a => if k = a then b else memGet r a

/-- Put an entry in front unless it reads as an unlisted address. -/
def memCons (a : Nat) (b : Byte) (r : List Host.Cell) : List Host.Cell := if b = memDefault then r else (a, b) :: r

/-- Write one byte; the canonical form is kept. -/
def memPut : List Host.Cell → Nat → Byte → List Host.Cell
  | [], a, b => memCons a b []
  | (k, c) :: r, a, b =>
    if a < k then memCons a b ((k, c) :: r)
    else if a = k then memCons a b r
    else (k, c) :: memPut r a b

/-- Write bytes at rising addresses. -/
def memPutAll : List Host.Cell → Nat → List Byte → List Host.Cell
  | m, _, [] => m
  | m, a, b :: r => memPutAll (memPut m a b) (a + 1) r

/-- The bytes at rising addresses. -/
def memGetAll (m : List Host.Cell) (a : Nat) : Nat → List Byte
  | 0 => []
  | n + 1 => memGet m a :: memGetAll m (a + 1) n

/-- The key of byte `a` of device DRAM (space 0b00, 09 Table 09-3). -/
def dramKey (a : Nat) : Nat := a % 2 ^ 37

/-- The key of byte `off` of the scratchpad of Stitch `st`. -/
def spadKey (st off : Nat) : Nat := 2 ^ 62 + st * 2 ^ 19 + off % 2 ^ 19

/-- Write bytes of memory, each once, at their keys; words written wholly get fresh check bits (R477, R449). -/
def State.write (s : State) (key : Nat) (bs : List Byte) : State :=
  let s := s.setMem (memPutAll s.mem key bs)
  if s.ueWords.isEmpty then s
  else s.setUeWords (s.ueWords.filter (fun w => !(decide (key ≤ w * 8) && decide (w * 8 + 8 ≤ key + bs.length))))

/-- Bytes of memory. -/
def State.read (s : State) (key n : Nat) : List Byte := memGetAll s.mem key n

/-- A little-endian number of memory. -/
def State.readNat (s : State) (key n : Nat) : Nat := leNat (s.read key n)

/-- Whether a range of memory meets an uncorrectable word (17 R477). -/
def State.ueIn (s : State) (key n : Nat) : Bool :=
  s.ueWords.any (fun w => decide (key < w * 8 + 8) && decide (w * 8 < key + n))

/-! ### Counters -/

/-- Families of counters; the unit and the index within it are given where each is counted. -/
inductive Fam
  | host | port | buf | route | late | meter | sched | coll | local | exp | pred | upd | lad | pwr | sent
  | dram | sram | thread | swatch
  deriving DecidableEq, Repr

/-- The number of a family. -/
def Fam.num : Fam → Nat
  | .host => 0 | .port => 1 | .buf => 2 | .route => 3 | .late => 4 | .meter => 5 | .sched => 6
  | .coll => 7 | .local => 8 | .exp => 9 | .pred => 10 | .upd => 11 | .lad => 12 | .pwr => 13
  | .sent => 14 | .dram => 15 | .sram => 16 | .thread => 17 | .swatch => 18

/-- The key of counter `idx` of unit `u` of a family. -/
def cKey (f : Fam) (u idx : Nat) : Nat := f.num * 2 ^ 44 + u * 2 ^ 12 + idx

/-- A counter's value. -/
def State.count (s : State) (f : Fam) (u idx : Nat) : Nat := tabGet s.cnt 0 (cKey f u idx)

/-- Add to a 32-bit saturating counter. -/
def State.bumpBy (s : State) (f : Fam) (u idx n : Nat) : State :=
  s.setCnt (tabPut s.cnt (cKey f u idx) (min cMax (s.count f u idx + n)))

/-- Add 1 to a 32-bit saturating counter. -/
def State.bump (s : State) (f : Fam) (u idx : Nat) : State := s.bumpBy f u idx 1

/-- Zero every counter of a unit. -/
def State.clearUnit (s : State) (f : Fam) (u : Nat) : State :=
  s.setCnt (tabKeep s.cnt (fun k => !(decide (cKey f u 0 ≤ k) && decide (k < cKey f (u + 1) 0))))

/-! ### Free values, outputs -/

/-- A free value, fresh for each use. -/
def State.fresh (s : State) : Nat × State := (Config.freeNat s.free, s.setFree (s.free + 1))

/-! ### The trouble log -/

/-- Raise an entry at the present pip (17 R490): it reaches the Needle and is written by LOG_ENTRY_WRITE. -/
def State.logRaise (s : State) (code eclass status source tag detail : Nat) : State :=
  s.setLog { s.log with raised := s.log.raised ++
    [{ stamp := s.time.pip, code, eclass, tstate := s.time.state.code, status, source, tag, detail }] }

/-- A source field: kind and index (17, Table 17-5). -/
def srcOf (kind index : Nat) : Nat := kind * 2 ^ 12 + index % 2 ^ 12

/-- The active Needle cluster as a source. -/
def State.needle (s : State) : Nat := srcOf 0 (b2n s.boot.clusterB)

/-! ### The pip counter on each die -/

/-- The replica of the pip counter on a die: 0 to 3 the port dies, 4 to 7 the Skeins, 8 to 15 the DRAM dies, 16 to 19 the photonic
engines. It stands at most one pip ahead of the count (02 R39). -/
def State.pipOn (s : State) (die : Nat) : Nat := s.time.pip + min 1 (tabGet s.time.skews 0 die)

/-! ### Phases -/

/-- An entry or array other than memory and packet buffers has an uncorrectable word (17 Table 17-2). -/
def State.siteUe (s : State) (x : UeSite) : Bool := s.integ.ueSites.contains x

/-- The uncorrectable word is no longer there. -/
def State.dropSite (s : State) (x : UeSite) : State :=
  if s.siteUe x then s.setInteg { s.integ with ueSites := s.integ.ueSites.filter (· ≠ x) } else s

/-- A Needle cluster runs: the phases from the end of ROM on (18 Table 18-5, R501, R507). -/
def State.needleRuns (s : State) : Bool :=
  match s.boot.phase with | .reset | .rails | .strap | .fuses | .rom => false | _ => true

/-- The SMBus target acknowledges its address and host ports train: from ROM on (18 Table 18-5; 20 R549). -/
def State.sidebandUp (s : State) : Bool := match s.boot.phase with | .reset | .rails | .strap | .fuses => false | _ => true

/-! ### Mailboxes -/

/-- A mailbox of a port. -/
def HostPort.box (p : HostPort) (m : Nat) : Mailbox := tabGet p.boxes {} m

/-- Replace a mailbox. -/
def State.setBox (s : State) (h : HostId) (m : Nat) (b : Mailbox) : State :=
  let p := s.host.port h
  s.setPort h { p with boxes := tabPut p.boxes m b }

/-- The value half of MB_STATE. -/
def Mailbox.value (b : Mailbox) : Nat := bits b.st.toNat 0 16
/-- The state field: 0 EMPTY, 1 POSTED, 2 TAKEN, 3 DONE. -/
def Mailbox.state (b : Mailbox) : Nat := bits b.st.toNat 0 2
/-- The generation. -/
def Mailbox.gen (b : Mailbox) : Nat := bits b.st.toNat 8 8
/-- Whether the halves are complements (R5, R454). -/
def Mailbox.paired (b : Mailbox) : Bool := bits b.st.toNat 16 16 == 0xFFFF - bits b.st.toNat 0 16

/-- The paired word of a 16-bit value (R5). -/
def pairWord (v : Nat) : BitVec 32 := BitVec.ofNat 32 ((0xFFFF - v % 2 ^ 16) * 2 ^ 16 + v % 2 ^ 16)

/-- Change the state field and keep the generation (R453). -/
def Mailbox.toState (b : Mailbox) (st : Nat) : Mailbox := { b with st := pairWord (b.gen * 256 + st) }

/-! ### Identity -/

/-- DEV_IDENT (16, Table 16-2). -/
def State.devIdent (s : State) : Nat :=
  let g := match s.sec.grade with | .a => (0x0A20, 0) | .b => (0x0B20, 1) | .n => (0x0E20, 2)
  g.1 * 2 ^ 16 + g.2 * 2 ^ 8 + Config.stepping * 2 ^ 4 + Config.arithRev

/-- The grade's maximum core clock in MHz (00, Table 00-1). -/
def State.maxClock (s : State) : Nat := if s.sec.grade = .b then 1800 else 1900

/-- A Stitch absent in the grade (01 R30, R31). -/
def State.absent (s : State) (st : Nat) : Bool := decide (st ≥ 1024) || s.sec.disabled.getLsbD st

/-- The key of the FABRIC Ladder stream whose in_addr is an offset (14 R401, Table 14-1). -/
def State.ladderKey (s : State) (off : Nat) : Option Nat :=
  (s.lad.streams.find? (fun e => fieldAt e.2.d 20 1 == 0 && fieldAt e.2.d 24 8 == off)).map (·.1)
/-- The Skein whose pipes serve a mirror entry (05 R151; 13 R386): that of its slot 0. -/
def State.mirrorSkein (s : State) (i : Nat) : Nat :=
  match tabGet? s.upd.mirrors i with | some m => bits m.slot0 35 2 | none => 0

end Sys2Proof.Machine
end

