-- ==== Sys2Proof/Machine/Settings.lean ====
section
/-! DEFINITION. The staged settings: their IDs, scopes, ranges, defaults and owning resources (16 R461, R466,
Tables 16-8 to 16-11; the settings tables of the chapters). -/

namespace Sys2Proof.Machine

open Sys2Proof

/-- The value "none" (R466). -/
def noneVal : Nat := 0xFFFFFFFFFFFFFFFF

/-! ### IDs (Table 16-9) -/

def idTimeRole := 0x0201
def idPipTol := 0x0202
def idAsym := 0x0203
def idTimeElig := 0x0204
def idBarrierTo := 0x0205
def idAdmin := 0x0301
def idPortMode := 0x0302
def idFecMode := 0x0303
def idReplayTo := 0x0304
def idSwapBerL := 0x0305
def idSwapBerS := 0x0306
def idLinkHold := 0x0307
def idFwMatch := 0x0308
def idPoolMode := 0x0401
def idAcctMin := 0x0402
def idAcctMax := 0x0403
def idFwdMode := 0x0404
def idOvfSize := 0x0405
def idOvfEnable := 0x0406
def idOvfMax := 0x0407
def idDevFid := 0x0501
def idPortDir := 0x0502
def idStampEpoch := 0x0503
def idDropEpoch := 0x0504
def idLenOvh := 0x0601
def idMeterEn := 0x0602
def idMeterMode := 0x0603
def idCir := 0x0604
def idPir := 0x0605
def idCbs := 0x0606
def idPbs := 0x0607
def idWfqWeight := 0x0608
def idPrivileged := 0x0609
def idBurst := 0x060A
def idShapeEn := 0x060B
def idShapeRate := 0x060C
def idShapeBurst := 0x060D
def idEcnAt := 0x060E
def idArbWeight := 0x060F
def idFarTimeout := 0x0701
def idAsmLimit := 0x0702
def idDensity := 0x0801
def idSplit := 0x0802
def idDiceSeed := 0x0901
def idPolicy := 0x0A01
def idSkWeight := 0x0A02
def idSkMin := 0x0A03
def idPdWatts := 0x0A04
def idFwdW := 0x0A05
def idThermGain := 0x0A06
def idFloorW := 0x0A07
def idClsWeight := 0x0A08
def idCycShare := 0x0A09
def idRamp := 0x0A0A
def idDealerAge := 0x0A0B
def idClkMin := 0x0A0C
def idClkMax := 0x0A0D
def idFixedClk := 0x0A0E
def idFixedSkW := 0x0A0F
def idMgmtFabric := 0x0E01
def idMgmtFids := 0x0E02
def idFailoverWait := 0x0E03

/-! ### Scopes (Table 16-10) -/

/-- What a setting's scope index names. -/
inductive ScopeKind
  | device | index8 | port | half | linkVc | linkClass17 | die | domain | domClass | account | accountOvf | arb
  deriving DecidableEq, Repr

/-- The scope kind of a setting; `none` for an unknown ID. -/
def scopeKind (id : Nat) : Option ScopeKind :=
  if [idTimeRole, idPipTol, idBarrierTo, idFwMatch, idDevFid, idStampEpoch, idDropEpoch, idFarTimeout,
      idAsmLimit, idDiceSeed, idPolicy, idThermGain, idMgmtFabric, idFailoverWait].contains id then some .device
  else if id = idMgmtFids then some .index8
  else if [idAdmin, idPortMode, idSwapBerL, idSwapBerS, idPortDir].contains id then some .port
  else if [idAsym, idTimeElig, idFecMode, idReplayTo, idLinkHold, idLenOvh].contains id then some .half
  else if [idFwdMode, idMeterEn, idMeterMode, idCir, idPir, idCbs, idPbs, idShapeEn, idShapeRate,
      idShapeBurst].contains id then some .linkVc
  else if [idWfqWeight, idPrivileged, idBurst, idEcnAt].contains id then some .linkClass17
  else if [idPoolMode, idOvfSize, idDensity, idSplit, idSkWeight, idSkMin, idPdWatts, idFwdW, idRamp,
      idDealerAge, idFixedSkW].contains id then some .die
  else if [idClkMin, idClkMax, idFixedClk].contains id then some .domain
  else if [idFloorW, idClsWeight, idCycShare].contains id then some .domClass
  else if [idAcctMin, idAcctMax, idOvfMax].contains id then some .account
  else if id = idOvfEnable then some .accountOvf
  else if id = idArbWeight then some .arb
  else none

/-- A port or half-port index in form. -/
def halfOk (x : Nat) : Bool := decide (x < 256) && decide (bits x 6 2 ≠ 3)

/-- The account kinds (Table 16-10): 0 port, 1 TALLY, 2 LADDER, 3 SKEIN_LO, 4 SKEIN_HI, 5 MGMT, 6 REPL, 7 RDBK. -/
def acctKind (a : Nat) : Nat := bits a 16 4
/-- The VC of an account scope. -/
def acctVc (a : Nat) : Nat := bits a 8 3
/-- The port or half-port of a port account. -/
def acctPort (a : Nat) : Nat := bits a 0 8
/-- The port die of an account. -/
def acctDie (a : Nat) : Nat := if acctKind a = 0 then bits a 0 6 / 16 else bits a 24 2
/-- The scope of a port account. -/
def portAcct (ph vc : Nat) : Nat := vc * 256 + ph
/-- The scope of another account. -/
def unitAcct (die kind vc : Nat) : Nat := die * 2 ^ 24 + kind * 2 ^ 16 + vc * 256

/-- An account scope in form. -/
def acctOk (x : Nat) : Bool :=
  decide (x < 2 ^ 26) && decide (bits x 20 4 = 0) && decide (bits x 11 5 = 0) && decide (acctKind x ≤ 7) &&
  (if acctKind x = 0 then decide (bits x 24 2 = 0) && halfOk (acctPort x) else decide (acctPort x = 0)) &&
  (decide (acctKind x < 6) || decide (acctVc x = 0))

/-- Arbiters of a kind: indices, whether it has a direction, default weights (06, Table 06-2). -/
def arbShape : Nat → Nat × Bool × List Nat
  | 0 => (8, true, [8, 2, 2, 2, 1, 1])
  | 1 => (4, true, [8, 2, 2, 3, 1])
  | 2 => (256, false, [2, 4, 4, 2, 1, 2])
  | 3 => (4, false, [8, 2, 2, 2, 1, 1, 1])
  | _ => (0, false, [])

/-- An arbiter scope in form. -/
def arbOk (x : Nat) : Bool :=
  let sh := arbShape (bits x 16 8)
  decide (x < 2 ^ 24) && decide (bits x 4 3 = 0) && decide (bits x 8 8 < sh.1) &&
  (sh.2.1 || !bit x 7) && decide (bits x 0 4 < sh.2.2.length)

/-- The classes of Table 15-1 that a domain has (0 forwarding, 1 reduction, 2 expert, 3 update, 4 threads,
5 sentinel, 6 management). -/
def classInDomain (dom cls : Nat) : Bool :=
  if dom < 4 then [2, 3, 4, 5, 6].contains cls else [0, 1, 4, 6].contains cls

/-- A scope valid in form for a setting (R466, R467). -/
def scopeOk (k : ScopeKind) (x : Nat) : Bool :=
  match k with
  | .device => decide (x = 0)
  | .index8 => decide (x < 8)
  | .port => decide (x < 64)
  | .half => halfOk x
  | .linkVc => decide (x < 2048) && halfOk (bits x 0 8)
  | .linkClass17 => decide (x < 2048) && halfOk (bits x 0 8) && decide (1 ≤ bits x 8 3)
  | .die => decide (x < 4)
  | .domain => decide (x < 8)
  | .domClass => decide (x < 2048) && classInDomain (bits x 8 8) (bits x 0 8)
  | .account => acctOk x
  | .accountOvf => acctOk x && decide (acctKind x < 6) && [1, 3, 5, 7].contains (acctVc x)
  | .arb => arbOk x

/-- Whether a value lies in [lo, hi]. -/
def inRange (lo hi v : Nat) : Bool := decide (lo ≤ v) && decide (v ≤ hi)

/-- A clock of the grade: 950 MHz to the maximum in steps of 50. -/
def clockOk (maxMhz v : Nat) : Bool := inRange 950 maxMhz v && decide (v % 50 = 0)

/-- A value within the fixed bounds of a setting's range (R467). A negative asym is 64-bit two's complement
(DEDUCED: entry ASYM). -/
def rangeOk (maxMhz id scope v : Nat) : Bool :=
  let b := inRange 0 1 v
  if id = idTimeRole || id = idFecMode || id = idPortDir then inRange 0 2 v
  else if id = idPipTol then inRange 2 64 v
  else if id = idAsym then decide (v ≤ 127) || inRange (2 ^ 64 - 127) (2 ^ 64 - 1) v
  else if [idTimeElig, idAdmin, idPortMode, idFwMatch, idPoolMode, idFwdMode, idOvfEnable, idMeterEn,
      idMeterMode, idPrivileged, idShapeEn, idPolicy, idMgmtFabric].contains id then b
  else if id = idBarrierTo then inRange (2 ^ 12) (2 ^ 24) v
  else if id = idReplayTo then inRange 4 256 v
  else if id = idSwapBerL then inRange 3 7 v
  else if id = idSwapBerS then inRange 2 6 v
  else if id = idLinkHold then inRange (2 ^ 16) (2 ^ 28) v
  else if id = idAcctMin then inRange (if acctKind scope = 0 then 65 else 0) 131072 v
  else if id = idAcctMax then inRange 0 131072 v
  else if id = idOvfSize then inRange 0 (2 ^ 33) v && decide (v % 2 ^ 28 = 0)
  else if id = idOvfMax then inRange 0 16777216 v
  else if id = idDevFid then inRange 0 0xFFFFF v
  else if id = idStampEpoch then inRange 0 3 v
  else if id = idDropEpoch then inRange 0 3 v || decide (v = noneVal)
  else if id = idLenOvh then inRange 0 255 v
  else if id = idCir || id = idPir then inRange 0 65535 v
  else if id = idCbs || id = idPbs || id = idShapeBurst then inRange 8471 16777215 v
  else if id = idWfqWeight then inRange 1 255 v
  else if id = idBurst then inRange 0 1048576 v
  else if id = idShapeRate then inRange 1 65535 v
  else if id = idEcnAt then inRange 0 131072 v
  else if id = idArbWeight then inRange 1 15 v
  else if id = idFarTimeout then inRange (2 ^ 12) (2 ^ 30) v
  else if id = idAsmLimit then inRange (2 ^ 12) (2 ^ 24) v
  else if id = idDensity then inRange 0 256 v
  else if id = idSplit then decide (v = 0) || inRange 16 (2 ^ 20) v
  else if id = idDiceSeed then decide (v ≤ noneVal)
  else if id = idSkWeight then inRange 1 255 v
  else if id = idSkMin then inRange 50 400 v
  else if id = idPdWatts then inRange 100 200 v
  else if id = idFwdW then inRange 60 190 v
  else if id = idThermGain then inRange 1 100 v
  else if id = idFloorW then inRange 0 64 v
  else if id = idClsWeight then inRange 0 255 v
  else if id = idCycShare then inRange 1 256 v
  else if id = idRamp then inRange 16 256 v
  else if id = idDealerAge then inRange 1 255 v
  else if id = idClkMin || id = idClkMax || id = idFixedClk then clockOk maxMhz v
  else if id = idFixedSkW then inRange 50 760 v
  else if id = idMgmtFids then inRange 0 0xFFFFF v || decide (v = noneVal)
  else if id = idFailoverWait then inRange (2 ^ 20) (2 ^ 34) v
  else false

/-! ### Resources (Table 16-8, R461) -/

def resDevice := 0
def resRoute := 1
def resColl := 2
def resPat := 3
def resExp := 4
def resUpd := 5
def resLad := 6
def resPwr := 7
def resTest := 8
def resLog := 9
/-- PORTp. -/
def resPort (p : Nat) : Nat := 16 + p

/-- Whether a bit of a resource mask is reserved. -/
def resReserved (r : Nat) : Bool := decide (10 ≤ r && r < 16) || decide (r ≥ 80)

/-- The resource a setting belongs to (R461). -/
def resourceOf (id scope : Nat) : Nat :=
  let hb := id / 256
  if hb = 5 then resRoute
  else if hb = 8 then resPat
  else if hb = 0x0A then resPwr
  else if id = idDiceSeed then resUpd
  else match scopeKind id with
    | some .port | some .half | some .linkVc | some .linkClass17 => resPort (bits scope 0 6)
    | some .account | some .accountOvf => if acctKind scope = 0 then resPort (bits scope 0 6) else resDevice
    | _ => resDevice

/-- Whether the other host holds a resource. -/
def State.otherHolds (s : State) (h : HostId) (r : Nat) : Bool :=
  match h with | .h0 => s.claims.c1.getLsbD r | .h1 => s.claims.c0.getLsbD r

/-! ### Values in force -/

/-- The key of a setting. -/
def setKey (id scope : Nat) : Nat := id * 2 ^ 32 + scope

/-- The default of a setting (the Default columns). -/
def State.settingDefault (s : State) (id scope : Nat) : Nat :=
  let noLadder := decide (s.sec.grade = .b) && decide (acctKind scope = 2)
  if id = idTimeRole then 1
  else if id = idPipTol then 8
  else if id = idTimeElig then 1
  else if id = idBarrierTo then 2 ^ 20
  else if id = idAdmin then bits s.boot.rstcfg 3 1
  else if id = idReplayTo then 16
  else if id = idSwapBerL then 5
  else if id = idSwapBerS then 4
  else if id = idLinkHold then 2 ^ 24
  else if id = idAcctMin then
    (match acctKind scope with
     | 0 => 65 | 6 => 1024 | 7 => 512
     | _ => if noLadder then 0 else if [2, 4, 6].contains (acctVc scope) then 65 else 0)
  else if id = idAcctMax then (if acctKind scope = 0 then 1024 else if noLadder then 0 else 4096)
  else if id = idDevFid then 0xFFFFF
  else if id = idStampEpoch || id = idDropEpoch || id = idMgmtFids then noneVal
  else if id = idLenOvh then 16
  else if id = idCir || id = idPir then 51200
  else if id = idCbs || id = idPbs then 65536
  else if id = idWfqWeight then 1
  else if id = idBurst || id = idShapeBurst then 16384
  else if id = idShapeEn then (if bits scope 8 3 = 0 then 1 else 0)
  else if id = idShapeRate then (if bits scope 8 3 = 0 then 512 else 51200)
  else if id = idArbWeight then ((arbShape (bits scope 16 8)).2.2.getD (bits scope 0 4) 1)
  else if id = idFarTimeout || id = idAsmLimit then 2 ^ 20
  else if id = idDensity then 96
  else if id = idSkWeight then 1
  else if id = idSkMin then 150
  else if id = idPdWatts then 140
  else if id = idFwdW then 100
  else if id = idThermGain then 20
  else if id = idFloorW then (match bits scope 0 8 with | 5 => 1 | 6 => 2 | _ => 4)
  else if id = idClsWeight then (if bits scope 0 8 = 5 || bits scope 0 8 = 6 then 0 else 4)
  else if id = idCycShare then 256
  else if id = idRamp then 64
  else if id = idDealerAge then 8
  else if id = idClkMin then 950
  else if id = idClkMax || id = idFixedClk then s.maxClock
  else if id = idFixedSkW then 600
  else if id = idFailoverWait then 2 ^ 30
  else 0

/-- A setting of a configuration. -/
def State.settingOf (s : State) (vals : Tab Nat) (id scope : Nat) : Nat :=
  (tabGet? vals (setKey id scope)).getD (s.settingDefault id scope)

/-- A setting in force. -/
def State.setting (s : State) (id scope : Nat) : Nat := s.settingOf s.cfg.vals id scope

/-- The configuration that governs an event of a stamp: that which was in force before the first commit later than it (02 R62). -/
def State.valsAt (s : State) (stamp : Nat) : Tab Nat :=
  match s.cfg.past.find? (fun p => decide (stamp < p.1)) with | some p => p.2 | none => s.cfg.vals

/-- A setting as an event of a stamp finds it (02 R62). -/
def State.settingAt (s : State) (stamp id scope : Nat) : Nat := s.settingOf (s.valsAt stamp) id scope

/-- The configuration after a list of items. -/
def applyItems (vals : Tab Nat) (items : List Setting) : Tab Nat :=
  items.foldl (fun t i => tabPut t (setKey i.id i.scope) i.val) vals

/-! ### Ports, halves and links -/

/-- Whether a configuration has port p in split mode. -/
def State.splitIn (s : State) (vals : Tab Nat) (p : Nat) : Bool := decide (s.settingOf vals idPortMode p = 1)

/-- Whether a port and half-port index names a link of a configuration's port modes (R118). -/
def State.halfFits (s : State) (vals : Tab Nat) (ph : Nat) : Bool :=
  if s.splitIn vals (ph % 64) then decide (bits ph 6 2 = 1) || decide (bits ph 6 2 = 2)
  else decide (bits ph 6 2 = 0)

/-- The link number of a port and half: 2p for Pp or Pp.a, 2p + 1 for Pp.b. -/
def linkOf (port half : Nat) : Nat := 2 * port + (if half = 2 then 1 else 0)

/-- The link of a port and half-port index. -/
def linkOfPh (ph : Nat) : Nat := linkOf (ph % 64) (bits ph 6 2)

/-- The port and half-port index of a link under the modes in force. -/
def State.phOf (s : State) (lk : Nat) : Nat :=
  if s.splitIn s.cfg.vals (lk / 2) then (lk % 2 + 1) * 64 + lk / 2 else lk / 2

/-- The port die of a link. -/
def linkDie (lk : Nat) : Nat := lk / 32

/-- The links of the present port modes. -/
def State.linkNums (s : State) : List Nat :=
  (List.range 128).filter (fun lk => decide (lk % 2 = 0) || s.splitIn s.cfg.vals (lk / 2))

/-- A setting of the scope kind `half` of a link. -/
def State.linkSetting (s : State) (id lk : Nat) : Nat := s.setting id (s.phOf lk)
/-- A setting of the scope kind link and VC or class. -/
def State.linkVcSetting (s : State) (id lk vc : Nat) : Nat := s.setting id (vc * 256 + s.phOf lk)

/-- dev_fid in force (05 R151). -/
def State.devFid (s : State) : Nat := s.setting idDevFid 0

/-- dev_fid as an event of a stamp finds it (02 R62). -/
def State.fidAt (s : State) (stamp : Nat) : Nat := s.settingAt stamp idDevFid 0

/-- asym of a link in half-pips, signed (02, Table 02-4). -/
def State.asym (s : State) (lk : Nat) : Int :=
  let v := s.linkSetting idAsym lk
  if v < 2 ^ 63 then (v : Int) else (v : Int) - 2 ^ 64

end Sys2Proof.Machine
end

