-- ==== Sys2Proof/Machine/Charge.lean ====
section
/-! DEFINITION. Domains, charges and holds (15 R417 to R419, R425, R426). -/

namespace Sys2Proof.Machine

open Sys2Proof

/-- w(P): the eu of P watts over one Turn (15, Charges). -/
def watts (p : Nat) : Nat := 65536 * p

/-- Classes of Table 15-1. -/
def clsForward := 0
def clsReduce := 1
def clsExpert := 2
def clsUpdate := 3
def clsThreads := 4
def clsSentinel := 5
def clsMgmt := 6

/-- A power domain: 0–3 Skeins, 4–7 port dies. -/
def State.dom (s : State) (x : Nat) : Domain := tabGet s.pwr.doms {} x
/-- Replace a power domain. -/
def State.setDom (s : State) (x : Nat) (d : Domain) : State := s.setPwr { s.pwr with doms := tabPut s.pwr.doms x d }

/-- The scope of a (domain, class) setting. -/
def domCls (x c : Nat) : Nat := x * 256 + c

/-- The classes of a domain (Table 15-1). -/
def domClasses (x : Nat) : List Nat := if x < 4 then [2, 3, 4, 5, 6] else [0, 1, 4, 6]

/-- A Stitch. -/
def State.tile (s : State) (st : Nat) : Stitch := tabGet s.tiles {} st
/-- Replace a Stitch. -/
def State.setTile (s : State) (st : Nat) (t : Stitch) : State := s.setTiles (tabPut s.tiles st t)

/-- The unit-cycles of a domain in one Turn at a clock in MHz (R425); a port die counts its four Tally engines and,
where the grade has it, its Ladder engine. -/
def State.unitCyclesAt (s : State) (x mhz : Nat) : Nat :=
  let per := 4096 * mhz / 1000
  if x < 4 then
    per * ((List.range 256).filter (fun i =>
      !s.absent (256 * x + i) && decide ((s.tile (256 * x + i)).power ≠ .dark))).length
  else per * (if s.sec.grade = .b then 4 else 5)

/-- The unit-cycles of a domain at its present clock. -/
def State.unitCycles (s : State) (x : Nat) : Nat := s.unitCyclesAt x (s.dom x).clock

/-- a(c): the energy grant in force; before the first grants it is the floor (R424). -/
def State.grantE (s : State) (x c : Nat) : Nat :=
  (tabGet? (s.dom x).now.energy c).getD (watts (s.setting idFloorW (domCls x c)))

/-- The issue-cycle grant in force (R425). -/
def State.grantC (s : State) (x c : Nat) : Nat :=
  (tabGet? (s.dom x).now.cycles c).getD (s.unitCycles x * s.setting idCycShare (domCls x c) / 256)

/-- A class out of energy this Turn (R426). -/
def State.outOfEnergy (s : State) (x c : Nat) : Bool :=
  c != clsForward && decide (s.grantE x c ≤ tabGet (s.dom x).spent 0 c)

/-- A class held by an emergency of its domain (Table 15-3). -/
def State.stopped (s : State) (x c : Nat) : Bool := c != clsForward && c != clsMgmt && (s.dom x).emergency

/-- A class out of issue cycles this Turn (R426). -/
def State.outOfCycles (s : State) (x c : Nat) : Bool :=
  let d := s.dom x
  c != clsForward && (decide (s.grantC x c ≤ tabGet d.cycles 0 c) ||
    (match d.cycLimit with | some l => decide (l ≤ (d.cycles.map (·.2)).sum) | none => false))

/-- A class may issue (R418, R426, R432). -/
def State.mayIssue (s : State) (x c : Nat) : Bool := !s.outOfEnergy x c && !s.outOfCycles x c && !s.stopped x c

/-- Add to a list without repeats. -/
def addNew (l : List Nat) (x : Nat) : List Nat := if l.contains x then l else l ++ [x]

/-- A unit with work of a class finds it held (R424 act, R430). -/
def State.noteHold (s : State) (x c : Nat) : State :=
  let d := s.dom x
  s.setDom x { d with acted := addNew d.acted c,
                      heldE := if s.outOfEnergy x c then addNew d.heldE c else d.heldE,
                      heldC := if s.outOfCycles x c then addNew d.heldC c else d.heldC }

/-- κ of a domain: 256 in the fixed-clock policy (R420, R435). -/
def State.kappaOf (s : State) (x : Nat) : Nat := if s.setting idPolicy 0 = 1 then 256 else (s.dom x).kappa

/-- The energy charge of a sum of coefficients times quantities (R419). -/
def State.energyOf (s : State) (x sum : Nat) : Nat :=
  let d := s.dom x
  let v := Config.railMv 1900
  (s.kappaOf x * sum * (d.mv * d.mv) + 256 * (v * v) - 1) / (256 * (v * v))

/-- Charge a class when a unit issues: issue cycles and energy (R419). -/
def State.charge (s : State) (x c cycles sum : Nat) : State :=
  let d := s.dom x
  let e := s.energyOf x sum
  s.setDom x { d with spent := tabPut d.spent c (tabGet d.spent 0 c + e),
                      cycles := tabPut d.cycles c (tabGet d.cycles 0 c + cycles),
                      charged := d.charged + e, acted := addNew d.acted c }

/-- 64-byte pieces of a move, 3 eu each (Table 15-2). -/
def moveEu (bytes : Nat) : Nat := 3 * ((bytes + 63) / 64)

/-- A descriptor, route, layer-table or Pattern load of `bytes` from a device address: management work of its Skein
(Table 15-1). -/
def State.chargeLoad (s : State) (addr bytes : Nat) : State := s.charge (addr / 2 ^ 35 % 4) clsMgmt 0 (moveEu bytes)

end Sys2Proof.Machine
end

