-- ==== Sys2Proof/Machine/Frames.lean ====
section
/-! DEFINITION. Frames and ticks as bits: headers, trailers and their codes (03, Tables 03-5 to 03-9). -/

namespace Sys2Proof.Machine

open Sys2Proof

/-- hcrc: CRC-16 over header bits [127:16] (Table 03-5). -/
def hcrcOf (h : Nat) : Nat := crcBits 16 0x1021 112 (h >>> 16) 0xFFFF

/-- The 8 flag bits of a frame (Table 03-6). -/
def Frame.flags (f : Frame) : Nat :=
  f.colour * 64 + b2n f.ecn * 32 + b2n f.ackReq * 16 + b2n f.mcast * 8 + b2n f.epochSet * 4 + b2n f.last * 2

/-- The bytes of a frame on a link: header, cells and trailer (03, Frames). -/
def Frame.bytes (f : Frame) : Nat := 24 + 64 * f.n

/-- The spec field as it is sent: the bits that Table 03-7 and the chapters of the types reserve are zero (R84; 08 R226, 11 R330,
13 R384, 16 R464). -/
def Frame.sentSpec (f : Frame) : Nat :=
  match f.ty with
  | 0 | 2 => f.spec % 2 ^ 6
  | 1 => f.spec % 2 ^ 14
  | 3 | 11 => f.spec % 2 ^ 8
  | 4 | 5 => f.spec / 2 ^ 12 * 2 ^ 12
  | 8 => f.spec / 2 ^ 14 * 2 ^ 14
  | 9 => f.spec / 2 ^ 22 * 2 ^ 22
  | _ => 0

/-- The header of a frame, hcrc included (R81). -/
def Frame.header (f : Frame) : BitVec 128 :=
  let h := f.ty * 2 ^ 124 + f.vc * 2 ^ 121 + f.ch * 2 ^ 117 + f.epoch * 2 ^ 115 + (f.n % 128) * 2 ^ 108 +
    f.dst * 2 ^ 88 + f.src * 2 ^ 68 + f.seq * 2 ^ 52 + f.hops * 2 ^ 48 + f.flags * 2 ^ 40 + f.sentSpec * 2 ^ 16
  BitVec.ofNat 128 (h + hcrcOf h)

/-- Number of cells that a header announces: 0 means 128. -/
def headerCells (h : Nat) : Nat := if bits h 108 7 = 0 then 128 else bits h 108 7

/-- The bits of spec that Table 03-7 does not reserve, by type; the types of other chapters keep all 24, which the unit that takes the frame
checks. -/
def specBits : Nat → Nat
  | 0 | 2 => 6
  | 1 => 14
  | 3 | 11 => 8
  | 10 => 0
  | _ => 24

/-- The frame of a header and cells; reserved bits are ignored, and go out as zero (R84). -/
def Frame.ofHeader (hd : BitVec 128) (cells : List Byte) : Frame :=
  let h := hd.toNat
  { ty := bits h 124 4, vc := bits h 121 3, ch := bits h 117 4, epoch := bits h 115 2, dst := bits h 88 20,
    src := bits h 68 20, seq := bits h 52 16, hops := bits h 48 4, colour := bits h 46 2, ecn := bit h 45,
    ackReq := bit h 44, mcast := bit h 43, epochSet := bit h 42, last := bit h 41, spec := bits h 16 (specBits (bits h 124 4)),
    cells := padTo (64 * headerCells h) cells }

/-- Whether a header passes hcrc. -/
def headerGood (hd : BitVec 128) : Bool := hcrcOf hd.toNat == bits hd.toNat 0 16

/-- The frame check sequence over header, cells and trailer bytes 0 to 3 (R85). -/
def frameCrc (hd : BitVec 128) (cells : List Byte) (tflags lsn : Nat) : Nat :=
  crc32 (beBytes 16 hd.toNat ++ cells ++ beBytes 4 (tflags * 2 ^ 24 + lsn))

/-- Whether a trailer's crc is good (R85). -/
def trailerGood (hd : BitVec 128) (cells : List Byte) (trl : BitVec 64) : Bool :=
  let t := trl.toNat
  frameCrc hd (padTo (64 * headerCells hd.toNat) cells) (bits t 56 8) (bits t 32 24) == bits t 0 32

/-- The trailer of a frame. -/
def trailerOf (hd : BitVec 128) (cells : List Byte) (stomp : Bool) (lsn : Nat) : BitVec 64 :=
  let tf := b2n stomp * 128
  BitVec.ofNat 64 (tf * 2 ^ 56 + lsn * 2 ^ 32 + frameCrc hd cells tf lsn)

/-- The bytes of a frame in the order in which they cross the fibre: header and trailer bytes 0 to 3 most significant first,
cells from byte 0, the crc least significant byte first (R80, R85). -/
def frameBytes (hd : BitVec 128) (cells : List Byte) (trl : BitVec 64) : List Byte :=
  beBytes 16 hd.toNat ++ cells ++ beBytes 4 (bits trl.toNat 32 32) ++ leBytes 4 (bits trl.toNat 0 32)

/-- Bytes in the last cell of a DATA or READ_RSP frame: 0 means 64 (Table 03-7). -/
def Frame.dataLen (f : Frame) : Nat :=
  let k := bits f.spec 0 6
  64 * f.n - (if k = 0 then 0 else 64 - k)

/-- The types a VC and channel allow (Table 03-7). -/
def typeAllowed (f : Frame) : Bool :=
  match f.ty with
  | 0 | 1 => (decide (f.vc = 1) && decide (f.ch < 8)) || (decide (f.vc = 7) && decide (8 ≤ f.ch))
  | 2 | 11 => decide (f.vc = 2)
  | 3 => decide (f.vc = 1) && decide (f.ch < 8)
  | 4 => decide (f.vc = 3) && decide (f.ch < 8)
  | 5 => decide (f.vc = 4) && decide (f.ch < 8)
  | 6 => decide (f.vc = 5) && decide (f.ch < 8)
  | 7 => decide (f.vc = 6) && decide (f.ch < 8)
  | 8 => decide (f.vc = 4) && decide (f.ch < 8)
  | 9 => decide (f.vc = 0) && decide (f.ch = 0) && decide (bits f.spec 22 2 < 2)
  | 10 => decide (f.vc = 0) && decide (f.ch = 0)
  | _ => false

/-! ### Ticks (Tables 03-8, 03-9) -/

/-- CRC-8 over bits [63:8] of a tick (R88). -/
def tickCrc (w : Nat) : Nat := crcBits 8 0x07 56 (w >>> 8) 0xFF

/-- Whether a tick passes its CRC-8. -/
def tickGood (w : BitVec 64) : Bool := tickCrc w.toNat == bits w.toNat 0 8

/-- A tick word of lead nibble, kind and body (the body at its bit places). -/
def tickWord (lead kind body : Nat) : BitVec 64 :=
  let w := lead * 2 ^ 60 + kind * 2 ^ 56 + body
  BitVec.ofNat 64 (w + tickCrc w)

/-- Lead nibble. -/
def tickLead (w : BitVec 64) : Nat := bits w.toNat 60 4
/-- Kind of a tick other than a mark. -/
def tickKind (w : BitVec 64) : Nat := bits w.toNat 56 4

/-- The word is a tick of the kind, with a good code. -/
def tickIs (w : BitVec 64) (kind : Nat) : Bool := tickGood w && decide (tickLead w = 15) && decide (tickKind w = kind)

/-- A pip mark (Table 03-8). -/
def markWord (seq tx echo res stratum : Nat) : BitVec 64 :=
  tickWord 14 (seq % 16) ((tx % 2 ^ 24) * 2 ^ 32 + (echo % 16) * 2 ^ 28 + res * 2 ^ 12 + stratum * 2 ^ 8)

def creditWord (va ta vb tb : Nat) : BitVec 64 := tickWord 15 1 (va * 2 ^ 53 + ta * 2 ^ 37 + vb * 2 ^ 34 + tb * 2 ^ 18)
def ackWord (lsn : Nat) : BitVec 64 := tickWord 15 2 (lsn * 2 ^ 32)
def nakWord (lsn cause : Nat) : BitVec 64 := tickWord 15 3 (lsn * 2 ^ 32 + cause * 2 ^ 30)
def skipWord (lsn vc credits : Nat) : BitVec 64 := tickWord 15 4 (lsn * 2 ^ 32 + vc * 2 ^ 29 + credits * 2 ^ 21)
def swapWord (step lane : Nat) (lost : Bool) : BitVec 64 := tickWord 15 5 (step * 2 ^ 52 + lane * 2 ^ 50 + b2n lost * 2 ^ 49)
def barrierWord (slot : Nat) (arrive go : Bool) : BitVec 64 :=
  tickWord 15 6 (slot * 2 ^ 53 + b2n arrive * 2 ^ 52 + b2n go * 2 ^ 51)
def linkStateWord (code pair : Nat) : BitVec 64 := tickWord 15 8 (code * 2 ^ 52 + pair * 2 ^ 50)
def idleWord : BitVec 64 := tickWord 15 0 0

/-- What a TRAIN tick says of its sender (Table 03-9), but for step and position. -/
structure TrainBody where
  rxReady : Bool
  preset : Nat := 0
  request : Nat := 0
  fecCap : Nat := 3
  fecReq : Nat
  split : Bool
  spareCap : Bool := true
  txOut : Nat
  rxOut : Nat
  deriving DecidableEq, Repr

/-- A TRAIN tick (Table 03-9). -/
def trainWord (step pos : Nat) (b : TrainBody) : BitVec 64 :=
  tickWord 15 7 (step * 2 ^ 52 + pos * 2 ^ 49 + b2n b.rxReady * 2 ^ 48 + b.preset * 2 ^ 44 + b.request * 2 ^ 40 +
    b.fecCap * 2 ^ 38 + b.fecReq * 2 ^ 36 + b2n b.split * 2 ^ 35 + b2n b.spareCap * 2 ^ 34 + b.txOut * 2 ^ 31 + b.rxOut * 2 ^ 28)

/-- The order in which ticks go at a frame boundary (R89): lower first. -/
def prioMark := 0
def prioNak := 1
def prioSkip := 2
def prioSwap := 3
def prioLinkState := 4
def prioBarrier := 5
def prioAck := 6
def prioCredit := 7

/-- Put a tick among those pending, after every tick of its class or of an earlier one (R89). -/
def queueTick : List (Nat × BitVec 64) → Nat → BitVec 64 → List (Nat × BitVec 64)
  | [], p, w => [(p, w)]
  | (q, x) :: r, p, w => if p < q then (p, w) :: (q, x) :: r else (q, x) :: queueTick r p w

/-- Make a tick pending on a link. -/
def Link.post (l : Link) (p : Nat) (w : BitVec 64) : Link := { l with ticks := queueTick l.ticks p w }

/-! ### Links -/

/-- A link's record. -/
def State.link (s : State) (lk : Nat) : Link := tabGet s.links {} lk

/-- Replace a link's record. -/
def State.setLink (s : State) (lk : Nat) (l : Link) : State := s.setLinks (tabPut s.links lk l)

/-- UP or NARROW. -/
def Link.carries (l : Link) : Bool := decide (l.state = .up) || decide (l.state = .narrow)

/-- Words flow: PROFILE, UP or NARROW. -/
def Link.live (l : Link) : Bool := decide (l.state = .profile) || l.carries

/-- A change of a field that profile frames carry: each link in PROFILE, UP or NARROW owes one (03 R112). -/
def State.profileChanged (s : State) : State :=
  s.setLinks (tabMap s.links (fun _ l => if l.live then { l with profDue := true } else l))

/-- Words of the agreed mode go out: after the second marker of PROFILE (R74). -/
def Link.sends (l : Link) : Bool := l.live && l.switchIn == 0

/-- A frame or tick of `n` words crosses the egress MAC of a link. -/
def State.send (s : State) (lk : Nat) (o : Out) (n : Nat) : State :=
  (s.setLink lk { s.link lk with sent := (s.link lk).sent ++ [n] }).emit o

/-- A tick crosses the egress MAC of a link. -/
def State.sendTick (s : State) (lk : Nat) (w : BitVec 64) : State := s.send lk (.tick lk w) 1

/-- A frame crosses the egress MAC of a link, with the trailer of this link (R85, R86). -/
def State.sendFrame (s : State) (lk lsn : Nat) (stomp : Bool) (f : Frame) : State :=
  s.send lk (.frame lk lsn stomp f.header f.cells (trailerOf f.header f.cells stomp lsn)) (3 + 8 * f.n)

/-- The peer's role: 0 endpoint, 1 Oluac; a link with no profile yet counts as an endpoint (R82). -/
def Link.peerRole (l : Link) : Nat := fieldAt l.profCell 1 1

/-- The peer's FID (Table 03-12). -/
def Link.peerFid (l : Link) : Nat := fieldAt l.profCell 32 4 % 2 ^ 20

/-- The peer's allowance on a VC; between 1 and 128 counts as 0 (R93). -/
def Link.allowance (l : Link) (vc : Nat) : Nat := let a := tabGet l.allow 0 vc; if a < 129 then 0 else a

/-- Credits free to the transmitter (R92). -/
def Link.credits (l : Link) (vc : Nat) : Nat :=
  (tabGet l.total 0 vc + 2 ^ 16 - tabGet l.used 0 vc % 2 ^ 16) % 2 ^ 16

/-- The signed difference of link sequence numbers (R95). -/
def lsnDiff (a b : Nat) : Int :=
  let d : Nat := (a + 2 ^ 24 - b % 2 ^ 24) % 2 ^ 24
  if d < 2 ^ 23 then (d : Int) else (d : Int) - 2 ^ 24

/-- Bytes of the replay buffer in use (R96). -/
def Link.replayBytes (l : Link) : Nat := (l.replay.map (fun x => 24 + 64 * x.f.n)).sum

/-- The replay buffer of a link: 256 KiB, 128 KiB for a half-port (R96). -/
def State.replayRoom (s : State) (lk : Nat) : Nat := if s.splitIn s.cfg.vals (lk / 2) then 2 ^ 17 else 2 ^ 18

/-- Raise an entry of a link (17, Table 17-5 kind 4). -/
def State.logLink (s : State) (code eclass lk detail : Nat) : State := s.logRaise code eclass 0 (srcOf 4 lk) 0 detail

/-- Counters of a link (Table 03-15), by index: 0–4 corrected symbols per position, 8–12 uncorrectable codewords
per position. -/
def pcAccepted := 16
def pcCrcFail := 17
def pcNakSent := 18
def pcNakRecv := 19
def pcReplay := 20
def pcSkipSent := 21
def pcSkipRecv := 22
def pcStompSent := 23
def pcStompRecv := 24
def pcTickCrc := 25
def pcDelin := 26
def pcR82 := 27
def pcR83 := 28
def pcR84 := 29
def pcR562 := 30
def pcHold := 31
def pcSwap := 32
def pcNarrow := 33
def pcBadTick := 34
def pcDrained := 35

end Sys2Proof.Machine
end

