-- ==== Sys2Proof/Machine/Fabric.lean ====
section
/-! DEFINITION. Paired values, accounts and hanks, routing, meters: what happens to a frame inside the switch
core (01 R20 R21; 04; 05; 06; 17 R474 R475). -/

namespace Sys2Proof.Machine

open Sys2Proof

/-! ### Paired values (17 Table 17-1) -/

/-- Rows of Table 17-1, from 0. -/
def rowMb := 1
def rowHank := 2
def rowCredit := 3
def rowLsn := 4
def rowRoute := 5
def rowColl := 6
def rowStitch := 7
def rowPip := 8
def rowCommit := 9
def rowFuse := 10

/-- A place of a paired value: its row, the unit that holds it and where in the unit. -/
def siteOf (row unit loc : Nat) : Nat := row * 2 ^ 60 + unit * 2 ^ 40 + loc

/-- Whether the halves of a paired value disagree. -/
def State.torn (s : State) (row unit loc : Nat) : Bool := s.mismatch.contains (siteOf row unit loc)

/-- A critical-state error (R475): the entry 0x0002 is raised and the reset of Table 17-1 falls due. -/
def State.critical (s : State) (row unit loc scope target source : Nat) : State :=
  let s := s.setMismatch (s.mismatch.filter (· ≠ siteOf row unit loc))
  let s := s.logRaise 2 (if scope = 1 then 4 else 3) 0 source 0 (row + loc % 2 ^ 40 * 2 ^ 8)
  s.setBoot { s.boot with jobs := s.boot.jobs ++
    [{ scope := scope, unit := target, source := 6, due := s.time.pip }] }

/-- A fatal error (R12): the entry is raised and a WARM reset falls due. -/
def State.fatal (s : State) (code source detail : Nat) : State :=
  let s := s.logRaise code 4 0 source 0 detail
  s.setBoot { s.boot with jobs := s.boot.jobs ++
    [{ scope := 1, unit := 0, source := 7, due := s.time.pip }] }

/-! ### Dies (01 Table 01-2) -/

/-- The two Skeins a port die touches, lower number first. -/
def dieSkeins : Nat → Nat × Nat
  | 0 => (0, 1) | 1 => (1, 3) | 2 => (2, 3) | _ => (0, 2)

/-- The two port dies a Skein touches, lower number first. -/
def skeinDies : Nat → Nat × Nat
  | 0 => (0, 3) | 1 => (0, 1) | 2 => (2, 3) | _ => (1, 2)

/-- Whether a port die touches a Skein. -/
def touches (die k : Nat) : Bool := (dieSkeins die).1 == k || (dieSkeins die).2 == k

/-- Whether two port dies are opposite (R21). -/
def opposite (a b : Nat) : Bool := decide (a % 2 = b % 2) && a != b

/-- The Skeins crossed between port dies: the shared Skein, or path 0 or 1 of R21 (R20, R21). -/
def transitPath (a b path : Nat) : List Nat :=
  match a, b with
  | 0, 1 | 1, 0 => [1]
  | 1, 2 | 2, 1 => [3]
  | 2, 3 | 3, 2 => [2]
  | 3, 0 | 0, 3 => [0]
  | 0, 2 => if path = 0 then [0, 2] else [1, 3]
  | 2, 0 => if path = 0 then [2, 0] else [3, 1]
  | 1, 3 => if path = 0 then [1, 0] else [3, 2]
  | 3, 1 => if path = 0 then [0, 1] else [2, 3]
  | _, _ => []

/-- The Skeins crossed from a port die to a Skein: that one alone, or one the die touches before it. -/
def skeinRoute (die k : Nat) : List Nat :=
  let a := (dieSkeins die).1
  if touches die k then [k] else if a + k = 3 then [(dieSkeins die).2, k] else [a, k]

/-- The tie rule of R191 between indices: the lower wins in an even Turn, the higher in an odd one. -/
def tieBefore (turn a b : Nat) : Bool := if turn % 2 = 0 then decide (a < b) else decide (b < a)

/-! ### Requesters of the arbiters (06 R194, Table 06-2) -/

/-- The domain and class of a requester; `none` for those that are never held. The spec names no class for a requester of mixed
traffic: the model takes that of its first kind (DESIGN CHOICE: entry REQCLASS). -/
def reqClass (kind index i : Nat) : Option (Nat × Nat) :=
  match kind with
  | 0 =>
    let pd := 4 + index / 2
    (match i with
     | 2 => some (pd, clsReduce)
     | 3 => some (if index % 2 = 0 then (dieSkeins (index / 2)).1 else (dieSkeins (index / 2)).2, clsExpert)
     | 4 => some (pd, clsThreads) | 5 => some (pd, clsMgmt) | _ => none)
  | 1 =>
    let k := match index with | 0 | 1 => 0 | 2 => 1 | _ => 2
    (match i with
     | 1 => some (k, clsUpdate) | 2 => some (k, clsExpert) | 3 => some (k, clsThreads) | 4 => some (k, clsMgmt) | _ => none)
  | 2 =>
    let k := index / 64
    (match i with
     | 1 => some (k, clsUpdate) | 2 | 3 | 4 => some (k, clsThreads) | _ => none)
  | 3 =>
    let pd := 4 + index
    (match i with
     | 2 | 4 => some (pd, clsThreads) | 3 => some (pd, clsReduce) | 5 => some (pd, clsMgmt) | _ => none)
  | _ => none

/-- A requester whose class is held withdraws its requests. -/
def State.reqHeld (s : State) (kind index i : Nat) : Bool :=
  match reqClass kind index i with | some (x, c) => !s.mayIssue x c | none => false

/-- The key of an arbiter. -/
def arbKey (kind index dir : Nat) : Nat := kind * 2 ^ 16 + index * 2 + dir

/-- An arbiter. -/
def State.arb (s : State) (k : Nat) : Arb := tabGet s.traf.arbs {} k

/-- The weight of a requester. -/
def State.arbWeight (s : State) (kind index dir i : Nat) : Nat :=
  s.setting idArbWeight (kind * 2 ^ 16 + index * 2 ^ 8 + dir * 2 ^ 7 + i)

/-- The scaled service of a requester: s(i) × (360360 / w(i)) (R192). -/
def scaled (x : Req) (w : Nat) : Nat := x.s * (360360 / w)

/-- A requester begins to request: it rejoins at the level of the least served of those that request (R192). -/
def rejoin (w : Nat → Nat) (a : Arb) (i : Nat) : Arb :=
  let others := (a.reqs.filter (fun e => e.1 ≠ i && a.asserted.contains e.1)).map (fun e => scaled e.2 (w e.1))
  let k := match others with | [] => 0 | x :: r => r.foldl min x
  let q := tabGet a.reqs {} i
  { a with reqs := tabPut a.reqs i { q with s := max q.s ((k * w i + 360359) / 360360), c := 0 } }

/-- Charge the winner and take a round from every requester once all have had their weight (R192). -/
def arbCharge (w : Nat → Nat) (a : Arb) (req : List Nat) (win : Nat) (aging : Bool) : Arb :=
  let x := tabGet a.reqs {} win
  let a := { a with reqs := tabPut a.reqs win { x with s := x.s + 1, c := 0, grants := x.grants + 1,
                                                       aging := x.aging + b2n aging } }
  if req.all (fun j => decide ((tabGet a.reqs {} j).s ≥ w j)) then
    { a with reqs := tabMap a.reqs (fun j r => if req.contains j then { r with s := r.s - w j } else r) }
  else a

/-- The arbiter of the bridge between a port die and a Skein it touches; direction 0 runs to the Skein (06, Table 06-2). -/
def dieBridge (die k dir : Nat) : Nat := arbKey 0 (2 * die + b2n ((dieSkeins die).2 == k)) dir

/-- The arbiter of the bridge from a Skein to an adjacent one. -/
def skeinBridge (a b : Nat) : Nat :=
  let lo := min a b
  let hi := max a b
  arbKey 1 (if lo = 0 then hi - 1 else lo + 1) (b2n (decide (b < a)))

/-- The bridges between the Skeins of a path. -/
def skeinHops : List Nat → List Nat
  | a :: b :: r => skeinBridge a b :: skeinHops (b :: r)
  | _ => []

/-- The bridges from a port die through Skeins. -/
def bridgesFrom (die : Nat) : List Nat → List Nat
  | [] => []
  | k :: r => dieBridge die k 0 :: skeinHops (k :: r)

/-- The bridges that a queued frame crosses on its way (01 R20, R21). -/
def QFrame.bridges (q : QFrame) : List Nat :=
  match q.dest with
  | .link lk =>
    let ks := transitPath q.die (linkDie lk) q.path
    bridgesFrom q.die ks ++ (ks.getLast?.map (fun k => dieBridge (linkDie lk) k 1)).toList
  | .skein k => bridgesFrom q.die (skeinRoute q.die k)
  | _ => []

/-- A bridge on the way is frozen: its traffic waits (06 R193). -/
def State.frozenOn (s : State) (bridges : List Nat) : Bool := bridges.any (fun b => (s.arb b).frozen)

/-! ### Accounts and hanks (04 R128 to R139) -/

/-- Hanks of a frame of n cells (R128). -/
def hanksFor (n : Nat) : Nat := (n + 8) / 8

/-- The counts of an account. -/
def State.acct (s : State) (a : Nat) : Acct := tabGet s.buf.accts {} a
/-- Replace the counts of an account. -/
def State.setAcct (s : State) (a : Nat) (x : Acct) : State :=
  s.setBuf { s.buf with accts := tabPut s.buf.accts a x }

/-- Every account of a port die under the port modes in force (Table 04-1). -/
def State.dieAccts (s : State) (die : Nat) : List Nat :=
  let ports := (List.range 16).flatMap (fun i =>
    let p := 16 * die + i
    let hs := if s.splitIn s.cfg.vals p then [64 + p, 128 + p] else [p]
    hs.flatMap (fun ph => (List.range 8).map (portAcct ph)))
  let units := [1, 2, 3, 4, 5].flatMap (fun k => (List.range 8).map (unitAcct die k))
  ports ++ units ++ [unitAcct die 6 0, unitAcct die 7 0]

/-- Earmarked hanks: ceil(o / 2) (R130). -/
def Acct.earmark (a : Acct) : Nat := (a.o + 1) / 2

/-- Hanks drawn by an account: held and earmarked. -/
def Acct.drawn (a : Acct) : Nat := a.h + a.earmark

/-- The reserved minimum under the die's pool_mode (R132). -/
def State.reserve (s : State) (a : Nat) : Nat :=
  if s.setting idPoolMode (acctDie a) = 0 then s.setting idAcctMin a
  else if acctKind a = 0 then 65 else 0

/-- Hanks of the shared region still free (R132). -/
def State.sharedFree (s : State) (die : Nat) : Nat :=
  131072 - ((s.dieAccts die).map (fun a => max (s.reserve a) (s.acct a).drawn)).sum

/-- Hanks that `take` draws for an account: reserve first, then the pool, never beyond acct_max (R131, R132). -/
def State.take (s : State) (a need : Nat) : Nat :=
  let d := (s.acct a).drawn
  min need (min (s.setting idAcctMax a - d) ((s.reserve a - d) + s.sharedFree (acctDie a)))

/-- The requester of hank allocation for an account kind (06, Table 06-2). -/
def allocReq (kind : Nat) : Nat := ([0, 3, 4, 2, 2, 5, 6, 1] : List Nat).getD kind 0

/-- Hank allocation serves no request of an account kind: its arbiter is frozen (06 R193) or the class is held (06 R194). -/
def State.allocShut (s : State) (die kind : Nat) : Bool :=
  (s.arb (arbKey 3 die 0)).frozen || s.reqHeld 3 die (allocReq kind)

/-- Hanks that requests of other account kinds wait for on a port die: internal sources, replicas, frames to read back. -/
def State.rivals (s : State) (die kind : Nat) : Nat :=
  ((s.buf.wait.filter (fun w => w.die == die && w.kind != kind)).map (fun w => hanksFor w.q.f.n)).sum +
  (if kind = 6 then 0 else ((s.buf.repl.filter (·.die == die)).map (fun j => hanksFor j.f.n)).sum) +
  (if kind = 7 then 0 else (((s.buf.frames.filter (fun q => q.die == die && q.ovf)).head?.map (·.hanks.length)).getD 0))

/-- Hank allocation leaves a request of `n` hanks to its arbiter: it is shut, or other requesters seek the last hanks too (R135). -/
def State.contended (s : State) (die kind n : Nat) : Bool :=
  s.allocShut die kind || (s.rivals die kind != 0 && decide (s.sharedFree die < s.rivals die kind + n))

/-- A request that nobody contends is granted in the row that makes it: its requester is charged (06 R192). The core cycles between a
request and its grant are not modelled (DEDUCED: entry HANKREQ). -/
def State.chargeAlloc (s : State) (die kind : Nat) : State :=
  let k := arbKey 3 die 0
  let i := allocReq kind
  let w := s.arbWeight 3 die 0
  let a := s.arb k
  let a := if a.asserted.contains i then a else rejoin w a i
  let g := a.g + 1
  s.setTraf { s.traf with arbs := tabPut s.traf.arbs k (arbCharge w { a with g := g } [i] i (decide (g % 16 = 0))) }

/-- The credits that a port account advertises now while words flow on its link, when it is granted the hanks (R131, R139). -/
def State.giveCredits (s : State) (a : Nat) : State :=
  let x := s.acct a
  let limit := min (2 ^ 15) (2 * (s.setting idAcctMax a - x.h))
  if limit ≤ x.o || acctKind a != 0 || !(s.link (linkOfPh (acctPort a))).live then s
  else
    let got := s.take a ((limit + 1) / 2 - (x.o + 1) / 2)
    let add := min limit (2 * (x.earmark + got)) - x.o
    s.setAcct a { x with o := x.o + add, total := (x.total + add) % 2 ^ 16, freed := x.freed + add, given := x.given || decide (add ≠ 0) }

/-- Advertise further credits of a port account (R131), unless its request is left to the arbiter (R135). -/
def State.advertise (s : State) (a : Nat) : State :=
  if s.contended (acctDie a) 0 ((s.setting idAcctMax a - (s.acct a).h) - (s.acct a).earmark) then s
  else
    let u := s.giveCredits a
    if (u.acct a).total = (s.acct a).total then u else u.chargeAlloc (acctDie a) 0

/-- The state word of a hank. -/
def State.hank (s : State) (key : Nat) : Hank := tabGet s.buf.hanks {} key

/-- The key of SRAM hank `i` of a die; DRAM hanks stand from die 8 on. -/
def hankKey (die i : Nat) : Nat := die * 2 ^ 24 + i

/-- Allocate one hank, the lowest free one (the order is a DESIGN CHOICE: entry HANK); FREE becomes HELD and the
generation rises (R134). -/
def allocHank (hs : Tab Hank) (die : Nat) : Tab Hank × (Nat × Nat) :=
  let held := (hs.filter (fun e => e.2.held && e.1 / 2 ^ 24 == die)).map (fun e => e.1 % 2 ^ 24)
  let i := firstFree held (held.length + 1) 0
  let g := ((tabGet hs {} (hankKey die i)).gen + 1) % 256
  (tabPut hs (hankKey die i) { held := true, gen := g }, (i, g))

/-- Allocate `n` hanks. -/
def allocHanks (hs : Tab Hank) (die : Nat) : Nat → Tab Hank × List (Nat × Nat)
  | 0 => (hs, [])
  | n + 1 =>
    let r := allocHank hs die
    let q := allocHanks r.1 die n
    (q.1, r.2 :: q.2)

/-- Counters of the packet buffer of a die (Table 04-3), by index; 0–6 the causes of `QFrame.store`. -/
def bcResend := 8
def bcDoubleFree := 9
def bcWait := 16
def bcPause := 10
def bcSpilled := 11
def bcReadback := 12
def bcReadbackBad := 13
def bcHold := 14
def bcLostRegion := 15
def bcDeferral := 24

/-- The place of a hank's state word: DRAM hanks after those of the packet buffer. -/
def hankLoc (dram : Bool) (i : Nat) : Nat := i + b2n dram * 2 ^ 24

/-- A state word met with halves that disagree: a critical-state error of the port die (R137; 17 Table 17-1). -/
def State.hankError (s : State) (die loc : Nat) : State := s.critical rowHank die loc 4 die (srcOf 3 die)

/-- The state words of hanks that an allocation has changed. -/
def State.noteTorn (s : State) (die : Nat) (dram : Bool) (hs : List (Nat × Nat)) : State :=
  match hs.find? (fun h => s.torn rowHank die (hankLoc dram h.1)) with
  | some h => s.hankError die (hankLoc dram h.1)
  | none => s

/-- Release one hank under its generation; a double free changes nothing, is counted and logged (R136); a torn state word is a
critical-state error (R137). `src` is the releasing ingress index, `dram` whether it is a DRAM hank. -/
def State.freeHank (s : State) (die src : Nat) (dram : Bool) (h : Nat × Nat) : State × Bool :=
  let key := hankKey (if dram then die + 8 else die) h.1
  let w := s.hank key
  if s.torn rowHank die (hankLoc dram h.1) then (s.hankError die (hankLoc dram h.1), false)
  else if w.held && w.gen == h.2 then
    (s.setBuf { s.buf with hanks := tabPut s.buf.hanks key { w with held := false } }, true)
  else
    ((s.bump .buf die bcDoubleFree).logRaise 0x0401 2 0 (srcOf 3 die) 0
      (h.1 + b2n dram * 2 ^ 24 + src * 2 ^ 32 + w.gen * 2 ^ 40 + h.2 * 2 ^ 48), false)

/-- Release hanks: each good release lowers h of their account, but for hanks of a reservation (R135, R136; 08 R241); a port account
then advertises (R131). -/
def State.freeChain (s : State) (q : Chain) : State :=
  let s := q.hanks.foldl (fun s h =>
    let r := s.freeHank q.die q.ing q.ovf h
    if r.2 && !q.ovf && !q.resv then
      let x := r.1.acct q.acct
      r.1.setAcct q.acct { x with h := x.h - 1 }
    else r.1) s
  s.advertise q.acct

/-- The hanks of a frame. -/
def QFrame.chain (q : QFrame) : Chain := { die := q.die, ing := q.ing, acct := q.acct, hanks := q.hanks, ovf := q.ovf, resv := q.resv }

/-- Release the hanks of a frame, and those that wait for it (R122, R138). -/
def State.freeFrame (s : State) (q : QFrame) : State := q.rel.foldl State.freeChain (s.freeChain q.chain)

/-- Two frames of one queue (04 R119). -/
def sameQueue (a b : QFrame) : Bool :=
  a.die == b.die && a.ing == b.ing && decide (a.dest = b.dest) && a.f.vc == b.f.vc

/-- The heads of all queues: no earlier frame of the list is of the same queue (R122). -/
def queueHeads : List QFrame → List QFrame → List QFrame
  | _, [] => []
  | seen, q :: r => if seen.any (sameQueue q) then queueHeads seen r else q :: queueHeads (q :: seen) r

/-- The heads of the queues of the state. -/
def State.heads (s : State) : List QFrame := queueHeads [] s.buf.frames

/-- Depth of an egress on a VC: hanks queued, over all port dies (05 R158). -/
def State.depth (s : State) (lk vc : Nat) : Nat :=
  ((s.buf.frames.filter (fun q => decide (q.dest = .link lk) && q.f.vc == vc)).map (·.hanks.length)).sum

/-! ### Finish tags (06 R184) -/

/-- The signed difference of virtual times modulo 2^64. -/
def vDiff (a b : Nat) : Int :=
  let d : Nat := (a + 2 ^ 64 - b % 2 ^ 64) % 2 ^ 64
  if d < 2 ^ 63 then (d : Int) else (d : Int) - 2 ^ 64

/-- The later of two virtual times. -/
def vMax (a b : Nat) : Nat := if vDiff a b ≥ 0 then a else b

/-- a less n, modulo 2^64. -/
def vSub (a n : Nat) : Nat := (a + 2 ^ 64 - n % 2 ^ 64) % 2 ^ 64

/-- The quotient rounded up. -/
def ceilDiv (a b : Nat) : Nat := (a + b - 1) / b

/-- A link's scheduler. -/
def State.sched (s : State) (lk : Nat) : Sched := tabGet s.traf.scheds {} lk
/-- Replace a link's scheduler. -/
def State.setSched (s : State) (lk : Nat) (x : Sched) : State :=
  s.setTraf { s.traf with scheds := tabPut s.traf.scheds lk x }

/-- The bytes a frame is charged with on a link (R177). -/
def State.chargeLen (s : State) (lk n : Nat) : Nat := 24 + 64 * n + s.linkSetting idLenOvh lk

/-- cost(i, l) (R184). -/
def State.wfqCost (s : State) (lk cls n : Nat) : Nat :=
  ceilDiv (s.chargeLen lk n * 65536) (s.linkVcSetting idWfqWeight lk cls)

/-- bc(i) (R184). -/
def State.burstCost (s : State) (lk cls : Nat) : Nat :=
  ceilDiv (s.linkVcSetting idBurst lk cls * 65536) (s.linkVcSetting idWfqWeight lk cls)

/-- The tag of a frame that becomes head of a class (R184). -/
def State.tagHead (s : State) (lk cls n : Nat) (wasEmpty : Bool) : State :=
  if cls = 0 then s
  else
    let x := s.sched lk
    let f := tabGet x.tags 0 cls
    let start :=
      if !wasEmpty then f
      else if s.linkVcSetting idPrivileged lk cls = 1 then vMax f (vSub x.v (s.burstCost lk cls))
      else x.v
    s.setSched lk { x with tags := tabPut x.tags cls ((start + s.wfqCost lk cls n) % 2 ^ 64) }

/-- The ingress index that a frame takes part under: that of RDBK once it was read back (R186). -/
def QFrame.tieIndex (q : QFrame) : Nat := if acctKind q.acct = 7 then 134 else q.ing

/-- Whether queue head `a` goes before `b` within a class: older stamp, then the tie rule (R186). -/
def headBefore (turn : Nat) (a b : QFrame) : Bool :=
  decide (a.stamp < b.stamp) || (a.stamp == b.stamp && tieBefore turn a.tieIndex b.tieIndex)

/-- The head of a class of a link: the queue head that R186 chooses. Frames of the overflow region are read back
first (R141). The Turn of a tie is read from the replica of the egress's die (R191). Frames of equal stamp and ingress index, which only
one internal source on two port dies can have, are ordered by their entry into the buffers (DESIGN CHOICE: entry EQUALHEAD). -/
def State.classHead (s : State) (lk vc : Nat) : Option QFrame :=
  (s.heads.filter (fun q => decide (q.dest = .link lk) && q.f.vc == vc && !q.ovf)).foldl
    (fun best q => match best with
      | none => some q
      | some b => if headBefore (s.pipOn (linkDie lk) / 4096) q b then some q else some b) none

/-- Every head of a class that does not hold the class's tag yet gets one (R184); `before` is the state before the queues changed. -/
def State.tagHeads (before s : State) : State :=
  let cls := (s.buf.frames.filterMap (fun q => match q.dest with | .link lk => some (lk, q.f.vc) | _ => none)).eraseDups
  cls.foldl (fun (s : State) c => match s.classHead c.1 c.2 with
    | none => s
    | some q =>
      if q.tagged then s
      else
        let s := s.tagHead c.1 c.2 q.f.n (decide (before.depth c.1 c.2 = 0))
        let mine (x : QFrame) : Bool := decide (x.dest = .link c.1) && x.f.vc == c.2
        s.setBuf { s.buf with frames := s.buf.frames.map (fun x => if mine x then { x with tagged := decide (x = q) } else x) }) s

/-! ### Queues -/

/-- Stamp every head of a queue that has no stamp yet with the pip at which it became head (R124). -/
def markHeads (pip : Nat) : List QFrame → List QFrame → List QFrame
  | _, [] => []
  | seen, q :: r =>
    if seen.any (sameQueue q) then q :: markHeads pip seen r
    else (if q.head.isNone then { q with head := some pip } else q) :: markHeads pip (q :: seen) r

/-- Replace the queued frames, with the stamps of new heads and the tags of new class heads. -/
def State.setFrames (s : State) (fs : List QFrame) : State :=
  s.tagHeads (s.setBuf { s.buf with frames := markHeads s.time.pip [] fs })

/-- Take a frame out of its queue. -/
def State.dropQueued (s : State) (q : QFrame) : State := s.setFrames (s.buf.frames.erase q)

/-- Take a frame out of its queue and release its hanks. -/
def State.consume (s : State) (q : QFrame) : State := (s.dropQueued q).freeFrame q

/-- A hank of a frame holds a word that is uncorrectable (17 Table 17-2). -/
def State.frameUe (s : State) (q : QFrame) : Bool :=
  !s.buf.ueHanks.isEmpty && !q.ovf && q.hanks.any (fun h => s.buf.ueHanks.contains (hankKey q.die h.1))

/-- Log an uncorrectable error of a frame in a packet buffer (0x1101; 04 R138). -/
def State.logFrameUe (s : State) (q : QFrame) : State :=
  match q.hanks.find? (fun h => s.buf.ueHanks.contains (hankKey q.die h.1)) with
  | some h => s.logRaise 0x1101 2 0xD (srcOf 3 q.die) 0 (q.die * 2 ^ 26 + 512 * h.1 + 2 * 2 ^ 48)
  | none => s

/-- A write gives hanks fresh check bits. -/
def State.freshHanks (s : State) (die : Nat) (hs : List (Nat × Nat)) : State :=
  if s.buf.ueHanks.isEmpty then s
  else s.setBuf { s.buf with ueHanks := s.buf.ueHanks.filter (fun k => !hs.any (fun h => hankKey die h.1 == k)) }

/-- Whether a frame waits for a unit of the device. -/
def QFrame.local (q : QFrame) : Bool := match q.dest with | .link _ => false | _ => true

/-- The head of a local queue of an ingress with the type and VC (05 R151); a frozen bridge on its way holds it (06 R193), and one
with an uncorrectable word is not used (17 Table 17-2); a frame of the overflow region is read back first (04 R141). -/
def State.localHead (s : State) (ing vc ty : Nat) : Option QFrame :=
  s.heads.find? (fun q => q.local && q.ing == ing && q.f.vc == vc && q.f.ty == ty && !s.frozenOn q.bridges && !s.frameUe q && !q.ovf)

/-- Depth of the queue toward the first bridge of a path (R21): the hanks of all frames of the port die that go over it, of every
ingress and VC (DESIGN CHOICE: entry PATHTIE). -/
def State.bridgeDepth (s : State) (die k : Nat) : Nat :=
  ((s.buf.frames.filter (fun q => q.die == die && (match q.dest with
    | .link lk => (transitPath die (linkDie lk) q.path).head? == some k
    | .skein j => (skeinRoute die j).head? == some k
    | _ => false))).map (·.hanks.length)).sum

/-! ### Routing (05) -/

/-- The installed bank of an epoch: 0 or 1. -/
def State.bankOf (s : State) (e : Nat) : Option Nat :=
  if s.route.b0.st = .installed && s.route.b0.epoch == e then some 0
  else if s.route.b1.st = .installed && s.route.b1.epoch == e then some 1 else none

/-- A bank. -/
def RouteSt.bank (r : RouteSt) (i : Nat) : Bank := if i = 0 then r.b0 else r.b1
/-- Replace a bank. -/
def RouteSt.setBank (r : RouteSt) (i : Nat) (b : Bank) : RouteSt := if i = 0 then { r with b0 := b } else { r with b1 := b }

/-- The pair-and-channel hash (R156). -/
def pairHash (seed : BitVec 16) (src dst ch : Nat) : Nat :=
  crcBits 16 0x1021 48 (src * 2 ^ 28 + dst * 2 ^ 8 + ch * 2 ^ 4) seed.toNat

/-- Causes of a routing discard (R165). -/
def causeEpoch := 0
def causeNoRoute := 1
def causeUpDown := 2
def causeMcast := 3

/-- port_dir of a port: 0 DOWN, 1 UP, 2 ANY. -/
def State.portDir (s : State) (p : Nat) : Nat := s.setting idPortDir p

/-- The link that a candidate byte names (Table 05-1). -/
def candLink (c : Nat) : Nat := linkOf (bits c 0 6) (bits c 6 2)

/-- The candidates of an entry. -/
def entryCands (e : Nat) : List Nat := (List.range (bits e 122 3 + 1)).map (fun i => candLink (bits e (8 * i) 8))

/-- Whether a candidate is allowed for a frame from an ingress; `ing` 128 and above are internal, DOWN (R161). -/
def State.candOk (s : State) (ing lk : Nat) : Bool :=
  let up := decide (ing < 128) && decide (s.portDir (ing / 2) = 1)
  lk != ing && !(up && decide (s.portDir (lk / 2) = 1))

/-- The site of a route entry: block entries, fine entries and group entries of a bank. -/
def routeLoc (bank part i : Nat) : Nat := bank * 2 ^ 20 + part * 2 ^ 16 + i

/-- The entry that a lookup of a bank ends at, with the places it read (R155). -/
def Bank.entry (b : Bank) (bi dst : Nat) : Nat × List Nat :=
  let e := (tabGet b.block 0 (dst / 256)).toNat
  if bit e 127 && bits e 125 2 == 2 then
    let i := bits e 64 6 * 256 + dst % 256
    ((tabGet b.fine 0 i).toNat, [routeLoc bi 0 (dst / 256), routeLoc bi 1 i])
  else (e, [routeLoc bi 0 (dst / 256)])

/-- Whether a candidate can start a frame on a VC (R158). -/
def State.canServe (s : State) (lk vc : Nat) : Bool :=
  (s.link lk).carries && decide ((s.link lk).allowance vc ≠ 0)

/-- The depth that the adaptive choice compares: a NARROW direction or a half-port counts twice (R158). -/
def State.weighedDepth (s : State) (vc lk : Nat) : Nat :=
  let l := s.link lk
  let slow := decide (l.tx.width ≠ 0) || s.splitIn s.cfg.vals (lk / 2)
  if slow then 2 * s.depth lk vc else s.depth lk vc

/-- The ordered choice (R157). -/
def orderedPick (c : List Nat) (h : Nat) : Nat := c.getD (h % 2 ^ 15 % c.length) 0

/-- The adaptive choice (R158) and whether it fell back to the ordered one. -/
def State.adaptivePick (s : State) (c : List Nat) (h vc : Nat) : Nat × Bool :=
  let live := c.filter (fun lk => s.canServe lk vc)
  if live.isEmpty then (orderedPick c h, true)
  else
    let least := (live.map (s.weighedDepth vc)).foldl min (s.weighedDepth vc (live.headD 0))
    let tied := live.filter (fun lk => s.weighedDepth vc lk == least)
    (if tied.contains (orderedPick c h) then orderedPick c h else tied.headD 0, false)

/-- What routing answers. -/
inductive Routed
  | to (lk hash : Nat) (adaptive fallback : Bool)
  | many (dests : List Dest) (hash : Nat)
  | discard (cause : Nat)
  | torn (loc : Nat)
  deriving DecidableEq, Repr

/-- Route a unicast frame from an ingress at a port die (R155 to R158, R161). A frame to 0xF_FFFF without an installed epoch meets two
conditions of R165: it counts as NO_ROUTE (DESIGN CHOICE: entry ROUTECAUSE). -/
def State.routeUnicast (s : State) (die ing : Nat) (f : Frame) : Routed :=
  if f.dst = 0xFFFFF then .discard causeNoRoute
  else if !f.epochSet then .discard causeEpoch
  else match s.bankOf f.epoch with
  | none => .discard causeEpoch
  | some bi =>
    let b := s.route.bank bi
    let r := b.entry bi f.dst
    match r.2.find? (fun l => s.torn rowRoute die l) with
    | some l => .torn l
    | none =>
      if !bit r.1 127 || bits r.1 125 2 != 0 then .discard causeNoRoute
      else
        let c := (entryCands r.1).filter (s.candOk ing)
        if c.isEmpty then .discard causeUpDown
        else
          let h := pairHash b.seed f.src f.dst f.ch
          if f.ch < 8 then .to (orderedPick c h) h false false
          else
            let p := s.adaptivePick c h f.vc
            .to p.1 h true p.2

/-- The fan-out of a group entry in the order of R170, without the ingress link; while dev_fid names no device no copy is delivered
inside this one (R153). -/
def State.fanOut (s : State) (e ing : Nat) : List Dest :=
  let ports := (List.range 64).flatMap (fun p =>
    let split := s.splitIn s.cfg.vals p
    (if bit e p then [2 * p] else []) ++ (if split && bit e (64 + p) then [2 * p + 1] else []))
  (ports.filter (· ≠ ing)).map Dest.link ++
    ((List.range 4).filter (fun k => bit e (128 + k) && decide (s.devFid ≠ 0xFFFFF))).map Dest.skein

/-- Route a multicast frame (R169, R170); of EPOCH_UNKNOWN and MCAST_BAD the first counts (DESIGN CHOICE: entry ROUTECAUSE). -/
def State.routeMulticast (s : State) (die ing : Nat) (f : Frame) : Routed :=
  if !f.epochSet then .discard causeEpoch
  else match s.bankOf f.epoch with
  | none => .discard causeEpoch
  | some bi =>
    let b := s.route.bank bi
    if f.dst ≥ 16384 || !([1, 4, 7].contains f.vc) then .discard causeMcast
    else if s.torn rowRoute die (routeLoc bi 2 f.dst) then .torn (routeLoc bi 2 f.dst)
    else
      let e := (tabGet b.groups 0 f.dst).toNat
      let d := s.fanOut e ing
      if !bit e 255 || d.isEmpty then .discard causeMcast
      else .many d (pairHash b.seed f.src f.dst f.ch)

/-- Stamp a frame that carries no epoch with stamp_epoch, when one is in force (R162). -/
def State.stamp (s : State) (f : Frame) : Frame :=
  if f.epochSet then f
  else
    let e := s.setting idStampEpoch 0
    if e = noneVal then f else { f with epoch := e, epochSet := true }

/-- Count of routing of a die (Table 05-6): ingress link's discards by cause at 8 × ingress + cause (4 is R82). -/
def rcAdaptive (lk : Nat) : Nat := 2048 + 2 * lk
def rcStamped (e : Nat) : Nat := 2400 + e
def rcLate := 2410

/-- Discard on routing: counted, and logged once for each cause and ingress in 2^20 pips (R165), a period that runs from the last entry
(DESIGN CHOICE: entry ROUTECAUSE). -/
def State.routeDiscard (s : State) (die ing cause : Nat) (f : Frame) : State :=
  let s := s.bump .route die (8 * ing + cause)
  let key := ing * 4 + cause
  let recent := match tabGet? s.route.logged key with
    | some t => decide (s.time.pip < t + 2 ^ 20) | none => false
  if recent then s
  else
    let s := s.setRoute { s.route with logged := tabPut s.route.logged key s.time.pip }
    s.logRaise 0x0501 2 0 (if ing < 128 then srcOf 4 ing else srcOf 3 die) 0
      (f.src + f.dst * 2 ^ 20 + f.ch * 2 ^ 40 + f.epoch * 2 ^ 44 + cause * 2 ^ 46)

/-- The internal path of a frame between port dies (R21). Where the two first bridges have equally deep queues the spec names no
tie rule: the first path that R21 lists is taken (DESIGN CHOICE: entry PATHTIE). -/
def State.pathFor (s : State) (die lk : Nat) (f : Frame) (h : Nat) : Nat :=
  let e := linkDie lk
  if !opposite die e then 0
  else if f.ch < 8 then h / 2 ^ 15 % 2
  else
    let k0 := (transitPath die e 0).headD 0
    let k1 := (transitPath die e 1).headD 0
    if s.bridgeDepth die k1 < s.bridgeDepth die k0 then 1 else 0

/-- The Skein or unit that a local address offset reaches (09 Table 09-4). -/
def offsetSkein (off : Nat) : Nat :=
  match bits off 40 2 with
  | 0 => bits off 35 2
  | 1 => bits off 27 2
  | 3 => bits off 20 2
  | _ => 0

/-! ### Entering the buffer -/

/-- Put a frame at the end of its queue with hanks of its own, charged to its account or to a reservation (R129; 08 R241). -/
def State.enqueue (s : State) (q : QFrame) : State :=
  let r := allocHanks s.buf.hanks q.die (hanksFor q.f.n)
  let s := s.setBuf { s.buf with hanks := r.1 }
  let s := ((s.setFrames (s.buf.frames ++ [{ q with hanks := r.2 }])).noteTorn q.die false r.2).freshHanks q.die r.2
  let x := s.acct q.acct
  if q.resv then s else s.setAcct q.acct { x with h := x.h + hanksFor q.f.n }

/-- An account can draw hanks: its limit, its reserve and the pool allow them (R131, R132). -/
def State.canDraw (s : State) (a n : Nat) : Bool := s.take a n == n

/-- Whether an account may draw the hanks of a frame now, without its arbiter (R135; 06 R193, R194). -/
def State.mayDraw (s : State) (a n : Nat) : Bool := s.canDraw a n && !s.contended (acctDie a) (acctKind a) n

/-- Why a frame takes store-and-forward (R125): 0 cut-through, 1 slower ingress, 2 the window of 03 R99, 3 overflow,
4 replica, 5 hanks queued for the egress, 6 fwd_mode STORE. Where several hold, the spec does not say under which a frame counts
(Table 04-3): it is the first in the order of the text below (DESIGN CHOICE: entry STORECAUSE). A token frame for the directory keeps
the window of its arrival for a forwarding (11 R328). -/
def State.storeCause (s : State) (d : Dest) (vc : Nat) (slow : Nat → Bool) (nakWindow : Bool) : Nat :=
  match d with
  | .link e =>
    if s.linkVcSetting idFwdMode e vc = 1 then 6
    else if slow e then 1
    else if nakWindow then 2
    else if s.depth e vc > 0 then 5
    else 0
  | .directory => if nakWindow then 2 else 0
  | _ => 0

/-- The rate class of a direction: 1 a half-port or a NARROW direction, 2 full (R125, R126). -/
def State.rateOf (s : State) (lk : Nat) (width : Nat) : Nat :=
  if s.splitIn s.cfg.vals (lk / 2) || width != 0 then 1 else 2

/-- Why a frame of a link takes store-and-forward towards a destination (R125). -/
def State.portStore (s : State) (lk : Nat) (nakWindow : Bool) (d : Dest) (vc : Nat) : Nat :=
  s.storeCause d vc (fun e => decide (s.rateOf lk (s.link lk).rx.width < s.rateOf e (s.link e).tx.width)) nakWindow

/-- Replicas to come of a frame whose stored copy has entered (R145). -/
def State.postJob (s : State) (job : Option ReplJob) : State :=
  match job with | some j => s.setBuf { s.buf with repl := s.buf.repl ++ [j] } | none => s

/-- The unit of the device that a frame for dev_fid goes to (05 R151). -/
def State.localDest (s : State) (die : Nat) (f : Frame) : Dest :=
  match f.ty with
  | 0 =>
    let off := fieldAt f.cells 0 8 % 2 ^ 42
    if (s.ladderKey off).isSome then .ladder else .skein (offsetSkein off)
  | 1 | 3 => .skein (offsetSkein (fieldAt f.cells 0 8 % 2 ^ 42))
  | 2 | 11 =>
    (match s.route.reqs.find? (fun r => r.dst == f.src && r.seq == f.seq) with
     | some { who := .ladder _ _, .. } => .ladder
     | some { who := .engine st _, .. } | some { who := .slot st _, .. } => .skein (st / 256)
     | _ => .skein (dieSkeins die).1)
  | 4 | 5 => .tally
  | 6 => .directory
  | 8 => .skein (s.mirrorSkein (bits f.spec 14 10))
  | _ => .needle

/-- A frame for this device: it is delivered inside and not looked up (05 R151, R153). -/
def State.forSelf (s : State) (f : Frame) : Bool := !f.mcast && decide (f.dst = s.devFid) && decide (f.dst ≠ 0xFFFFF)

/-- A frame that reaches a destination of a multicast: one for a Skein is addressed to dev_fid (05, Table 05-3). -/
def State.copyFor (s : State) (d : Dest) (f : Frame) : Frame :=
  match d with | .skein _ => { f with dst := s.devFid, mcast := false } | _ => f

/-- The path of a frame to a destination. -/
def State.pathTo (s : State) (die : Nat) (d : Dest) (f : Frame) (h : Nat) : Nat :=
  match d with | .link lk => s.pathFor die lk f h | _ => 0

/-- Store a routed frame at a port die for its destination, replicas of a multicast after the stored copy (R119,
R145, R170). `enter` writes the stored copy into the buffer and then posts the job of its replicas. -/
def State.place (s : State) (q : QFrame) (r : Routed) (enter : State → QFrame → Option ReplJob → State) : State :=
  match r with
  | .to lk h ad fb =>
    let s := if ad then s.bump .route q.die (rcAdaptive lk + b2n fb) else s
    enter s { q with dest := .link lk, path := s.pathFor q.die lk q.f h } none
  | .many ds h =>
    (match ds with
     | [] => s
     | d :: rest =>
       enter s { q with dest := d, f := s.copyFor d q.f, path := s.pathTo q.die d q.f h }
         (if rest.isEmpty then none
          else some { die := q.die, f := q.f, hash := h, stamp := q.stamp, ing := q.ing, dests := rest }))
  | .discard c => (q.rel.foldl State.freeChain s).routeDiscard q.die q.ing c q.f
  | .torn l => (q.rel.foldl State.freeChain s).critical rowRoute q.die l 4 q.die (srcOf 3 q.die)

/-- Route a frame at a die: multicast or unicast. -/
def State.routeAt (s : State) (die ing : Nat) (f : Frame) : Routed :=
  if f.mcast then s.routeMulticast die ing f else s.routeUnicast die ing f

/-- Count a stamp that this device wrote (Table 05-6). -/
def State.countStamp (s : State) (die : Nat) (f g : Frame) : State :=
  if !f.epochSet && g.epochSet then s.bump .route die (rcStamped g.epoch) else s

/-- The pair-and-channel hash of a frame under its epoch's bank. -/
def State.hashOf (s : State) (f : Frame) : Nat :=
  match s.bankOf f.epoch with | some b => pairHash (s.route.bank b).seed f.src f.dst f.ch | none => pairHash 0 f.src f.dst f.ch

/-- Write a frame of an internal source into the buffer (R125). -/
def State.enqueueUnit (s : State) (q : QFrame) (job : Option ReplJob) : State :=
  (s.enqueue { q with store := s.storeCause q.dest q.f.vc (fun _ => false) false }).postJob job

/-- A frame of an internal source enters the switch core now (R120, R145): one that no Skein presented is stamped and looked up
here (05 R162). -/
def State.letIn (s : State) (w : WaitFrame) : State :=
  let t := s.pipOn w.die
  let f := s.stamp w.q.f
  let q := { w.q with stamp := t, f := f }
  match w.todo with
  | .placed job => s.enqueueUnit { w.q with stamp := t } (job.map (fun j => { j with stamp := t }))
  | .tally lk =>
    (s.countStamp w.die w.q.f f).enqueueUnit { q with dest := .link lk, path := s.pathFor w.die lk f (s.hashOf f) } none
  | .route =>
    let s := s.countStamp w.die w.q.f f
    if s.forSelf f then s.enqueueUnit { q with dest := s.localDest w.die f } none
    else s.place q (s.routeAt w.die q.ing f) State.enqueueUnit

/-- Two waiting frames of one source and VC: they enter in their order. -/
def WaitFrame.behind (a b : WaitFrame) : Bool := a.die == b.die && a.kind == b.kind && a.q.f.vc == b.q.f.vc

/-- A frame of a Skein waits while the bridge to its port die is frozen (06 R193). -/
def State.entryShut (s : State) (w : WaitFrame) : Bool :=
  match w.kind with
  | 3 => (s.arb (dieBridge w.die (dieSkeins w.die).1 1)).frozen
  | 4 => (s.arb (dieBridge w.die (dieSkeins w.die).2 1)).frozen
  | _ => false

/-- A frame of an internal source enters, or waits for its request to be granted behind those of its source and VC (04 R129, R135,
R138; 05 R167). -/
def State.enterUnit (s : State) (w : WaitFrame) : State :=
  if !s.buf.wait.any w.behind && s.mayDraw w.q.acct (hanksFor w.q.f.n) && !s.entryShut w then (s.chargeAlloc w.die w.kind).letIn w
  else (s.bump .buf w.die (bcWait + w.kind)).setBuf { s.buf with wait := s.buf.wait ++ [w] }

/-- A frame of an internal source at a port die: `kind` is its account kind. -/
def unitFrame (die kind : Nat) (f : Frame) (todo : Entry) : WaitFrame :=
  { die := die, kind := kind, todo := todo,
    q := { die := die, ing := 127 + kind, dest := .needle, f := f, stamp := 0, acct := unitAcct die kind f.vc, hanks := [] } }

/-- A frame that a Tally engine, a Ladder engine or the Needle sends from a port die (R120, R162). -/
def State.sendFrom (s : State) (die kind : Nat) (f : Frame) : State := s.enterUnit (unitFrame die kind f .route)

/-- The port die where a frame of Skein `k` enters, once its egress is known (R120). On channels 8 to 15 the queues compared are those
of each die toward its bridge of Skein `k`, and a tie goes to the lower die; a multicast frame goes by its first destination, and by
the lower die where that is a Skein (DESIGN CHOICE: entry ENTRYTIE). -/
def State.entryDie (s : State) (k : Nat) (r : Routed) (f : Frame) : Nat :=
  let ds := skeinDies k
  let byEgress (e h : Nat) : Nat :=
    if e = ds.1 then ds.1 else if e = ds.2 then ds.2
    else if f.ch < 8 then (if h / 2 ^ 15 % 2 = 0 then ds.1 else ds.2)
    else if s.bridgeDepth ds.2 k < s.bridgeDepth ds.1 k then ds.2 else ds.1
  match r with
  | .to lk h _ _ => byEgress (linkDie lk) h
  | .many (.link lk :: _) h => byEgress (linkDie lk) h
  | _ => ds.1

/-- The account kind of a Skein at a port die (04, Table 04-1). -/
def skeinKind (die k : Nat) : Nat := if (dieSkeins die).1 = k then 3 else 4

/-- A frame that a Skein sends: the lower-numbered port die stamps and routes it, and it enters where its egress says (R120; 05 R151,
R162). One for dev_fid has no egress port, for which the rule names no entry: it enters on the lower-numbered port die (DESIGN CHOICE:
entry ENTRYTIE). `rel` are hanks released when it is sent. -/
def State.sendSkeinWith (s : State) (k : Nat) (rel : List Chain) (f0 : Frame) : State :=
  let f := s.stamp f0
  let first := (skeinDies k).1
  let s := s.countStamp first f0 f
  if s.forSelf f then
    let w := unitFrame first (skeinKind first k) f (.placed none)
    s.enterUnit { w with q := { w.q with dest := s.localDest first f, rel := rel } }
  else
    let r := s.routeAt first 130 f
    let die := s.entryDie k r f
    let w := unitFrame die (skeinKind die k) f .route
    s.place { w.q with rel := rel } r (fun s q job => s.enterUnit { w with q := q, todo := .placed job })

/-- A frame that a Skein sends. -/
def State.sendSkein (s : State) (k : Nat) (f : Frame) : State := s.sendSkeinWith k [] f

/-- The active Needle cluster's port die: PD0 for A, PD1 for B (01). -/
def State.needleDie (s : State) : Nat := b2n s.boot.clusterB

/-! ### Outstanding requests (05 R152) -/

/-- A seq that no outstanding request to a FID uses; `none` while 65,536 are outstanding. -/
def State.freeSeq (s : State) (dst : Nat) : Option Nat :=
  let used := (s.route.reqs.filter (·.dst == dst)).map (·.seq)
  if used.length ≥ 65536 then none
  else
    let c := firstFree used (used.length + 1) s.route.nextSeq
    some (if c < 65536 then c else firstFree used (used.length + 1) 0)

/-- The limit of a request sent now: far_timeout (09 R278, R287), or its shard's mirror_timeout (13 R389). -/
def State.limitFor (s : State) (who : Asker) : Nat :=
  match who with
  | .mirror h _ | .seal h => ((tabGet? s.upd.shards h).map (·.timeout)).getD 0
  | _ => s.setting idFarTimeout 0

/-- A frame that carries a request. -/
def Request.carries (r : Request) (f : Frame) : Bool := f.dst == r.dst && f.seq == r.seq && [0, 1, 3, 8].contains f.ty

/-- A frame crosses the egress MAC boundary for the first time: the request that it carries is sent at this pip (02 Table 02-3). -/
def State.noteSent (s : State) (f : Frame) : State :=
  if f.src ≠ s.devFid then s
  else s.setRoute { s.route with reqs := s.route.reqs.map (fun r =>
    if r.carries f && !r.gone then { r with stamp := s.time.pip, limit := s.limitFor r.who, gone := true } else r) }

/-- The frame of a request still waits to be sent. -/
def State.unsent (s : State) (r : Request) : Bool :=
  !r.gone && (s.buf.frames.any (fun q => !q.local && decide (q.ing ≥ 128) && r.carries q.f) ||
    s.buf.wait.any (fun w => r.carries w.q.f))

/-- Record a request. -/
def State.addReq (s : State) (r : Request) : State :=
  s.setRoute { s.route with reqs := s.route.reqs ++ [r], nextSeq := (r.seq + 1) % 65536 }

/-- A unit sends a request with a tag of its own, or waits while none is free. -/
def State.request (s : State) (p : Parked) : State :=
  match s.freeSeq p.f.dst with
  | none => s.setRoute { s.route with parked := s.route.parked ++ [p] }
  | some q =>
    let s := s.addReq { dst := p.f.dst, seq := q, who := p.who, addr := p.addr, len := p.len, stamp := s.time.pip,
                          limit := s.limitFor p.who }
    let f := { p.f with seq := q }
    if p.unit < 4 then s.sendSkein p.unit f else s.sendFrom (p.unit - 4) 2 f

/-- The requests that wait for a tag are tried again, in their order. -/
def State.unpark (s : State) : State := s.route.parked.foldl State.request (s.setRoute { s.route with parked := [] })

/-- Drop the requests of some askers, outstanding and waiting. -/
def State.dropAskers (s : State) (gone : Asker → Bool) : State :=
  (s.setRoute { s.route with reqs := s.route.reqs.filter (fun r => !gone r.who),
                             parked := s.route.parked.filter (fun p => !gone p.who) }).unpark

/-- Remove a request that was answered or timed out. -/
def State.delReq (s : State) (r : Request) : State :=
  (s.setRoute { s.route with reqs := s.route.reqs.filter (· ≠ r) }).unpark

/-- The request that a response answers. -/
def State.reqFor (s : State) (f : Frame) : Option Request :=
  s.route.reqs.find? (fun r => r.dst == f.src && r.seq == f.seq)

/-- An ERR_COMPL that answers a frame (03, completion cell): cookie, type, reporting FID, status. -/
def State.errCompl (s : State) (f : Frame) (cookie : Nat) (st : Status) : Frame :=
  { ty := 11, vc := 2, ch := f.ch, dst := f.src, src := s.devFid, seq := f.seq, spec := st.code,
    cells := padTo 64 (leBytes 4 cookie ++ leBytes 4 f.ty ++ leBytes 4 s.devFid) }

/-! ### Meters (06 R177 to R182) -/

/-- The key of a meter. -/
def meterKey (lk vc : Nat) : Nat := lk * 8 + vc

/-- A meter with both buckets full (R182). -/
def State.fullMeter (s : State) (lk vc : Nat) : Meter :=
  { tc := ((s.linkVcSetting idCbs lk vc * 256 : Nat) : Int), tp := ((s.linkVcSetting idPbs lk vc * 256 : Nat) : Int),
    last := s.pipOn (linkDie lk) }

/-- A meter's state; at cast-on its buckets are full. -/
def State.meter (s : State) (lk vc : Nat) : Meter := (tabGet? s.traf.meters (meterKey lk vc)).getD (s.fullMeter lk vc)

/-- The two-rate three-colour step (R180): the colour and the buckets after it. Colours 0 green, 1 yellow, 2 red. -/
def meterStep (cbs pbs cir pir : Nat) (aware : Bool) (m : Meter) (t len colour : Nat) : Nat × Meter :=
  let dt : Int := (t : Int) - m.last
  let tc : Int := min (cbs * 256) (m.tc + dt * cir)
  let tp : Int := min (pbs * 256) (m.tp + dt * pir)
  let b : Int := len * 256
  if aware && decide (colour ≥ 2) then (2, { tc := tc, tp := tp, last := t })
  else if tp < b then (2, { tc := tc, tp := tp, last := t })
  else if (aware && decide (colour = 1)) || decide (tc < b) then (1, { tc := tc, tp := tp - b, last := t })
  else (0, { tc := tc - b, tp := tp - b, last := t })

/-- Meter a frame on its ingress link at its receive stamp (R178 to R181): the frame with its colour, the meter's buckets and counts.
The colour 0b11 of another Oluac counts as red in every mode; whether a BLIND meter charges its buckets for such a frame is not said:
like an AWARE one it charges nothing (DESIGN CHOICE: entry METER3). -/
def State.meterFrame (s : State) (lk : Nat) (f : Frame) : State × Frame :=
  let oluac := decide ((s.link lk).peerRole ≠ 0)
  let colour0 := if !oluac then 0 else if f.colour = 3 then 2 else f.colour
  let r :=
    if s.linkVcSetting idMeterEn lk f.vc = 0 then (s, colour0)
    else
      let m := meterStep (s.linkVcSetting idCbs lk f.vc) (s.linkVcSetting idPbs lk f.vc)
        (s.linkVcSetting idCir lk f.vc) (s.linkVcSetting idPir lk f.vc)
        (decide (s.linkVcSetting idMeterMode lk f.vc = 1) || (oluac && f.colour == 3)) (s.meter lk f.vc) (s.pipOn (linkDie lk)) (s.chargeLen lk f.n) colour0
      (s.setTraf { s.traf with meters := tabPut s.traf.meters (meterKey lk f.vc) m.2 }, m.1)
  let s := (r.1.bump .meter (meterKey lk f.vc) r.2).bumpBy .meter (meterKey lk f.vc) (4 + r.2) f.bytes
  (s, { f with colour := r.2 })

end Sys2Proof.Machine
end

