-- ==== Sys2Proof/Machine/Cmd.lean ====
section
/-! DEFINITION. The command protocol: packing of parameters and results, the opcode index, acceptance in the
one device-wide order, refusals and responses (16 R450 to R465, R473; 00 R8 to R11; 18 R508). -/

namespace Sys2Proof.Machine

open Sys2Proof

/-! ### Packing (R455) -/

/-- The size and alignment of a packed field. -/
structure Shape where
  size : Nat
  align : Nat
  deriving DecidableEq, Repr

/-- A field of n bytes at the next multiple of n. -/
def fu (n : Nat) : Shape := ⟨n, n⟩
/-- A fixed block of n bytes at the next multiple of 8. -/
def fb (n : Nat) : Shape := ⟨n, 8⟩

/-- A packed field with its value. -/
structure Fld where
  shape : Shape
  val : Nat
  deriving DecidableEq, Repr

/-- A field of a result. -/
def uf (n v : Nat) : Fld := ⟨fu n, v⟩
/-- A block of a result. -/
def bf (n v : Nat) : Fld := ⟨fb n, v⟩

/-- The next multiple of an alignment. -/
def alignUp (off a : Nat) : Nat := (off + a - 1) / a * a

/-- Offsets of the fields of a layout from an offset. -/
def offsets : List Shape → Nat → List Nat
  | [], _ => []
  | f :: r, off => alignUp off f.align :: offsets r (alignUp off f.align + f.size)

/-- Where a layout ends. -/
def layoutEnd : List Shape → Nat → Nat
  | [], off => off
  | f :: r, off => layoutEnd r (alignUp off f.align + f.size)

/-- The length of a layout: its end rounded up to a multiple of 8. -/
def layoutLen (l : List Shape) : Nat := alignUp (layoutEnd l 0) 8

/-- The little-endian number of packed fields; the gaps are 0. -/
def packFrom : List Shape → List Nat → Nat → Nat
  | f :: r, v :: vs, off =>
    (v % 2 ^ (8 * f.size)) * 2 ^ (8 * alignUp off f.align) + packFrom r vs (alignUp off f.align + f.size)
  | _, _, _ => 0

/-- Pack values under a layout. -/
def pack (l : List Shape) (vs : List Nat) : Nat := packFrom l vs 0

/-- The values of a layout in a packed number. -/
def unpackFrom : List Shape → Nat → Nat → List Nat
  | [], _, _ => []
  | f :: r, x, off =>
    bits x (8 * alignUp off f.align) (8 * f.size) :: unpackFrom r x (alignUp off f.align + f.size)

/-- Unpack values under a layout. -/
def unpack (l : List Shape) (x : Nat) : List Nat := unpackFrom l x 0

/-- The bytes of a result. -/
def resultBytes (fs : List Fld) : List Byte :=
  leBytes (layoutEnd (fs.map (·.shape)) 0) (pack (fs.map (·.shape)) (fs.map (·.val)))

/-- A "for each" list: a 4-byte count and the records (R455). -/
def listFlds (recs : List (List Fld)) : List Fld := uf 4 recs.length :: recs.flatten

/-! ### The opcode index (Table 16-12) and the layouts of parameters -/

/-- The marks of an opcode: P and F. -/
structure Marks where
  p : Bool := false
  f : Bool := false
  deriving DecidableEq, Repr

/-- The marks of a defined opcode (R473). -/
def marksOf (op : Nat) : Option Marks :=
  let lo := op % 256
  let pick (n : Nat) (p f : List Nat) : Option Marks :=
    if 1 ≤ lo ∧ lo ≤ n then some { p := p.contains lo, f := f.contains lo } else none
  match op / 256 with
  | 0x01 => pick 8 [4, 5, 6, 7, 8] [1]
  | 0x02 => pick 6 [] [5, 6]
  | 0x03 => pick 11 [6] [1, 2, 3, 7, 8, 9, 10, 11]
  | 0x04 => pick 5 [] [3, 4, 5]
  | 0x05 => pick 6 [] [3, 4, 5]
  | 0x06 => pick 10 [] [4, 6, 10]
  | 0x07 => pick 8 [] [2, 7, 8]
  | 0x08 => pick 11 [] [9, 10]
  | 0x09 => pick 15 [] [5, 14, 15]
  | 0x0A => pick 5 [] [2, 3, 5]
  | 0x0B => pick 7 [] [1, 5]
  | 0x0C => pick 3 [] [3]
  | 0x0D => pick 4 [2, 3, 4] [1]
  | 0x0E => pick 4 [4] [3]
  | _ => none

/-- `n` one-byte fields. -/
def ones (n : Nat) : List Shape := List.replicate n (fu 1)

/-- The layout of an opcode's parameters (R455 applied to the command tables). `n` is the count of CFG_STAGE or
the length of FW_SLOT_WRITE. -/
def layout (op n : Nat) : List Shape :=
  match op with
  | 0x0101 => [fu 1, fu 4]
  | 0x0102 => [fb 32]
  | 0x0103 => [fu 2, fu 1]
  | 0x0104 => [fu 1, fu 1, fu 4, fu 8, fb n]
  | 0x0105 => ones 1
  | 0x0106 => [fu 1, fu 2]
  | 0x0107 => ones 1
  | 0x0108 => [fu 1, fb 97, fb 96]
  | 0x0201 => fu 1 :: (List.replicate n [⟨2, 8⟩, fu 2, fu 4, fu 8]).flatten
  | 0x0203 => [fu 8, fu 1, fu 8]
  | 0x0204 => ones 1
  | 0x0205 => [fu 2, fu 4]
  | 0x0301 | 0x0303 | 0x0304 => ones 2
  | 0x0302 | 0x0305 | 0x0306 => ones 3
  | 0x0307 => ones 5
  | 0x0308 => ones 2
  | 0x0309 => ones 4
  | 0x030A => ones 3
  | 0x030B => ones 4
  | 0x0401 => [fu 8]
  | 0x0402 => [fu 8, fu 8]
  | 0x0404 => [fu 1, fu 4, fu 4, fu 1, fu 1, fu 1, fu 1, fu 1]
  | 0x0405 => ones 2
  | 0x0501 | 0x0601 => [fu 8, fu 8]
  | 0x0502 | 0x0504 | 0x0604 | 0x0605 | 0x0702 | 0x0802 | 0x0902 | 0x090D | 0x090E => [fu 2]
  | 0x0503 | 0x0804 | 0x0809 | 0x080B | 0x0905 | 0x090A => [fu 2, fu 1]
  | 0x0505 | 0x0609 | 0x0705 | 0x0706 | 0x0707 | 0x0708 | 0x080A | 0x090F | 0x0A05 => ones 2
  | 0x0506 | 0x0807 | 0x0808 | 0x0908 => [fu 2, fu 4]
  | 0x0602 | 0x0A02 => ones 1
  | 0x0603 => [fu 2, fu 1, fu 8, fu 1, fu 2, fu 8, fu 1, fu 2, fu 8, fu 1, fu 4, fu 4, fu 4]
  | 0x0606 | 0x060A => ones 3
  | 0x0607 => [fu 1, fu 2, fu 2, fu 1, fu 8, fu 8, fu 1]
  | 0x0608 | 0x0704 => [fu 1, fu 1, fu 8]
  | 0x0701 => [fu 2, fu 2, fu 8]
  | 0x0703 => [fu 2, fu 2]
  | 0x0801 => [fu 8]
  | 0x0803 => [fu 2, fu 8, fu 2]
  | 0x0805 => [fu 1, fu 1, fu 2, fu 2, fu 4, fu 1]
  | 0x0806 => [fu 2, fu 1, fu 8]
  | 0x0901 => [fu 2, fu 8, fu 8, fu 1, fu 8]
  | 0x0903 => [fu 2, fu 8, fu 4]
  | 0x0904 => [fu 2, fu 4, fb 32]
  | 0x0906 => [fu 2, fu 4, fu 2]
  | 0x0907 => [fu 2, fu 8]
  | 0x0909 => [fu 2, fb 16]
  | 0x090B => [fu 2, fu 4, fu 2, fu 4, fu 1, fu 8, fu 8]
  | 0x090C => [fu 2, fu 4, fu 2]
  | 0x0A01 => [fu 4]
  | 0x0A04 => [fu 8, fu 1]
  | 0x0B02 => [fu 8]
  | 0x0B03 => [fu 4]
  | 0x0B04 => ones 1
  | 0x0B05 => ones 2
  | 0x0B06 => [fu 1, fu 1, fu 1, fu 1, fu 2, fu 2, fu 1, fu 1, fu 1]
  | 0x0B07 => ones 3
  | 0x0C01 => [fu 8, fu 8, fb 128, fu 2, fu 2, fu 8]
  | 0x0C02 => [fu 1, fu 1, fu 8, fu 1, fu 8, fu 8, fu 8, fb 128, fu 2, fu 2, fu 8]
  | 0x0C03 => ones 1
  | 0x0D02 => ones 1
  | 0x0D03 => ones 2
  | 0x0D04 => ones 1
  | 0x0E01 => [fb 16, fu 1]
  | 0x0E02 => [fb 16]
  | _ => []

/-- The count that a variable layout depends on, as the parameters give it. -/
def layoutCount (op params : Nat) : Nat :=
  match op with | 0x0201 => params % 256 | 0x0104 => bits params 64 64 | _ => 0

/-- The layout of a command's parameters. -/
def paramLayout (op params : Nat) : List Shape := layout op (layoutCount op params)

/-- The first byte of a gap that is not 0 (R455, R8), below `len`. -/
def firstDiff (x y : Nat) : Nat → Nat → Option Nat
  | 0, _ => none
  | fuel + 1, off => if bits x (8 * off) 8 ≠ bits y (8 * off) 8 then some off else firstDiff x y fuel (off + 1)

/-- The first nonzero gap byte of the parameters. -/
def gapFault (op params : Nat) : Option Nat :=
  let l := paramLayout op params
  firstDiff params (pack l (unpack l params)) (layoutLen l) 0

/-! ### Headers (Table 16-6) -/

def cmdOp (c : BitVec 512) : Nat := bits c.toNat 0 16
def cmdLen (c : BitVec 512) : Nat := bits c.toNat 16 16
def cmdCookie (c : BitVec 512) : Nat := bits c.toNat 32 32
def cmdIrq (c : BitVec 512) : Bool := bit c.toNat 64
/-- A nonzero reserved field of the header. -/
def cmdReserved (c : BitVec 512) : Bool := decide (c.toNat / 2 ^ 65 ≠ 0)

/-- The header and parameters of a waiting command: those of its mailbox, or those the request carried. -/
def State.posted (s : State) (p : Posted) : BitVec 512 × BitVec 15872 :=
  match p.o with
  | .mb h m => (((s.host.port h).box m).cmd, ((s.host.port h).box m).params)
  | .fab _ _ => (p.cmd, p.params)

/-- Commands admitted before READY (18 R508). -/
def admitted (op : Nat) : Bool := [0x0101, 0x0104, 0x0105, 0x0106, 0x0D01, 0x0B01, 0x0E03].contains op

/-- READY (18 Table 18-5). -/
def State.ready (s : State) : Bool := decide (s.boot.phase = .ready)

/-- Refusals that need no meaning of the command: R456, R473, R508 and nonzero gaps (R8, R455). -/
def State.headRefusal (s : State) (p : Posted) : Option (Status × Nat) :=
  let c := s.posted p
  let op := cmdOp c.1
  if (marksOf op).isNone then some (.badOpcode, 0xFFFF)
  else if cmdReserved c.1 || cmdLen c.1 != layoutLen (paramLayout op c.2.toNat) then some (.badField, 0xFFFF)
  else if !s.ready && !admitted op then some (.busy, 0xFFFF)
  else (gapFault op c.2.toNat).map (fun off => (.badField, off))

/-! ### Acceptance and responses -/

/-- The response header (Table 16-7). `bad_offset` is 0xFFFF but for a parameter at fault. -/
def rspWord (t : Taken) (st : Status) (off len done : Nat) : Nat :=
  t.op + st.code * 2 ^ 16 + t.cookie * 2 ^ 32 + len * 2 ^ 64 + off * 2 ^ 80 + t.tstate * 2 ^ 96 +
  t.stamp * 2 ^ 128 + done * 2 ^ 192

/-- Counters of a host port: refused MB_STATE writes, refused CMD and PARAMS writes, discarded responses, BAR2
failures. -/
def hcState := 0
def hcData := 1
def hcDiscard := 2
def hcBar2 := 3

/-- Write a response (R453): into the mailbox, which becomes DONE, sets MB_DONE and sends its vector when irq = 1
(R446, R447); or a MGMT response to the requester (R464). A response of a reset interface is discarded and
counted (R442). A result longer than the RESULT field is cut at its 1,920 bytes (DESIGN CHOICE: entry BUFCUT). -/
def State.respond (s : State) (t : Taken) (st : Status) (off : Nat) (res : List Fld) : State :=
  match t.o with
  | .mb h m =>
    if t.discard then s.bump .host h.num hcDiscard
    else
      let body := (resultBytes res).take 1920
      let b := (s.host.port h).box m
      let b := if body.isEmpty then b else { b with result := BitVec.ofNat 15360 (leNat body) }
      let b := { b with rsp := BitVec.ofNat 512 (rspWord t st off body.length s.time.pip) }
      let s := s.setBox h m (b.toState 3)
      let s := s.setDone h m
      if t.irq then s.sendVector h m else s
  | .fab fid seq =>
    let body := resultBytes res
    let cells := padTo 64 (leBytes 64 (rspWord t st off body.length s.time.pip)) ++
      padTo ((body.length + 63) / 64 * 64) body
    s.sendFrom s.needleDie 5
      { ty := 9, vc := 0, ch := 0, dst := fid, src := s.devFid, seq := seq, spec := 2 ^ 22, cells := cells }

/-- End a TAKEN command (R453, R459). -/
def State.finishAt (s : State) (ticket : Nat) (st : Status) (off : Nat) (res : List Fld) : State :=
  match s.host.taken.find? (·.ticket == ticket) with
  | none => s
  | some t => (s.setHost { s.host with taken := s.host.taken.filter (·.ticket != ticket) }).respond t st off res

/-- End a TAKEN command with a status that names no parameter. -/
def State.finish (s : State) (ticket : Nat) (st : Status) (res : List Fld) : State := s.finishAt ticket st 0xFFFF res

/-- Accept the command at the head of the order: its mailbox becomes TAKEN at this pip (R453, R457). Answers
its ticket. -/
def State.accept (s : State) (p : Posted) : Nat × State :=
  let c := (s.posted p).1
  let t : Taken := { ticket := s.host.nextTicket, o := p.o, op := cmdOp c, cookie := cmdCookie c, irq := cmdIrq c,
                     stamp := s.time.pip, tstate := s.time.state.code }
  let s := s.setHost { s.host with order := s.host.order.tail, taken := s.host.taken ++ [t],
                                   nextTicket := s.host.nextTicket + 1 }
  (t.ticket, match p.o with
    | .mb h m => s.setBox h m (((s.host.port h).box m).toState 2)
    | .fab _ _ => s)

/-- The effects of PERST# on a host interface (R442): mailboxes EMPTY with generation 0, RW and W1C registers at
reset, claims released, running commands' responses to be discarded. -/
def State.resetInterface (s : State) (h : HostId) : State :=
  let p := s.host.port h
  let s := s.setPort h { p with bar2Base := 0, launchEnd := 0, mbDone := 0, irqEnable := 0,
                                irqStatus := 0, raced := {}, msix := [], pba := 0, boxes := [] }
  let mine (o : Origin) : Bool := match o with | .mb g _ => decide (g = h) | .fab _ _ => false
  let s := s.setHost { s.host with
    order := s.host.order.filter (fun p => !mine p.o),
    taken := s.host.taken.map (fun t => if mine t.o then { t with discard := true } else t) }
  s.setClaims (match h with | .h0 => { s.claims with c0 := 0 } | .h1 => { s.claims with c1 := 0 })

/-- Whether the mailbox of a waiting command holds an unpaired MB_STATE (R454). -/
def State.headTorn (s : State) (p : Posted) : Option (HostId × Nat) :=
  match p.o with
  | .mb h m => if ((s.host.port h).box m).paired then none else some (h, m)
  | .fab _ _ => none

/-- Take from the head of the order every command that is refused without its meaning, at most `fuel` times. -/
def refuseHeads : Nat → State → State
  | 0, s => s
  | fuel + 1, s =>
    match s.host.order with
    | [] => s
    | p :: _ =>
      match s.headTorn p with
      | some (h, m) =>
        refuseHeads fuel ((s.logRaise 2 3 0 (srcOf 8 h.num) 0 (rowMb + m * 2 ^ 8)).resetInterface h)
      | none =>
        match s.headRefusal p with
        | none => s
        | some (st, off) =>
          let a := s.accept p
          refuseHeads fuel (a.2.finishAt a.1 st off [])

/-- Refuse what can be refused at the head of the order, once a Needle cluster runs. -/
def State.drainHeads (s : State) : State := if s.needleRuns then refuseHeads s.host.order.length s else s

/-- A refusal condition of a command: when it holds, its code, and the index of the parameter at fault. -/
structure Chk where
  bad : Bool
  st : Status
  fld : Option Nat := none
  deriving DecidableEq, Repr

/-- A condition comes before another: by the order of codes (R10), and of one code by the first field at fault
(Table 16-7); one that no parameter is at fault for comes last. -/
def Chk.before (c d : Chk) : Bool :=
  decide (c.st.rank < d.st.rank) || (c.st.rank == d.st.rank && decide (c.fld.getD 0xFFFF ≤ d.fld.getD 0xFFFF))

/-- The refusal of R10: of the conditions that hold, the first. -/
def firstRefusal : List Chk → Option Chk
  | [] => none
  | c :: r =>
    match firstRefusal r with
    | none => if c.bad then some c else none
    | some d => if c.bad && c.before d then some c else some d

/-- The host of an origin. -/
def Origin.host? : Origin → Option HostId | .mb h _ => some h | .fab _ _ => none

/-- Whether a FID may send commands (R465). -/
def State.mgmtAllowed (s : State) (fid : Nat) : Bool :=
  decide (s.setting idMgmtFabric 0 = 1) && (List.range 8).any (fun i => s.setting idMgmtFids i == fid)

/-- The conditions of the marks: P from a port that is not primary (R460); from the fabric a FID that may send none, or an opcode
without F (R465). They take their place in the order of R10. -/
def State.markChks (s : State) (o : Origin) (op : Nat) : List Chk :=
  let m := (marksOf op).getD {}
  match o with
  | .mb h _ => [⟨m.p && decide (h ≠ s.host.primary), .denied, none⟩]
  | .fab fid _ => [⟨!s.mgmtAllowed fid || !m.f, .denied, none⟩]

/-- A resource held by the other host refuses a host's command, never the fabric's (R461, R465). -/
def State.ownChk (s : State) (o : Origin) (r : Nat) : Chk :=
  ⟨match o with | .mb h _ => s.otherHolds h r | .fab _ _ => false, .notOwner, none⟩

/-- A parameter out of range. -/
def badFld (i : Nat) (bad : Bool) : Chk := ⟨bad, .badField, some i⟩

/-- A clear parameter: 0 or 1, and 0 from the fabric (R465). -/
def clearChks (o : Origin) (i clear : Nat) : List Chk :=
  [badFld i (decide (clear > 1)), ⟨(match o with | .fab _ _ => true | _ => false) && clear != 0, .denied, none⟩]

/-- How a command that was accepted goes on: it answers at once, or it stays TAKEN. -/
inductive Reply
  | done (st : Status) (res : List Fld)
  | later
  deriving DecidableEq, Repr

/-- The waiting command, when it is at the head of the order with this opcode and these parameters and nothing
refuses it before its meaning. -/
def State.waiting (s : State) (o : Origin) (op : Nat) (vs : List Nat) : Option Posted :=
  match s.host.order with
  | [] => none
  | p :: _ =>
    let c := s.posted p
    let l := paramLayout op c.2.toNat
    if p.o = o ∧ cmdOp c.1 = op ∧ l.length = vs.length ∧ c.2.toNat % 2 ^ (8 * layoutLen l) = pack l vs ∧
       s.headTorn p = none ∧ s.headRefusal p = none ∧ s.needleRuns = true then some p else none

/-- The offset of parameter i (bad_offset). -/
def fldOffset (op params : Nat) (f : Option Nat) : Nat :=
  match f with
  | none => 0xFFFF
  | some i => (offsets (paramLayout op params) 0).getD i 0xFFFF

/-- A command row: the command that waits at the head of the order is accepted, refused under R10 or run, and
what then stands at the head and is refused without meaning goes too. With no such command waiting nothing
happens. -/
def State.command (s : State) (o : Origin) (op : Nat) (vs : List Nat) (chks : List Chk)
    (run : Nat → State → State × Reply) : Host.Outcome State Fault Refusal :=
  match s.waiting o op vs with
  | none => .next s
  | some p =>
    let a := s.accept p
    match firstRefusal (s.markChks o op ++ chks) with
    | some c =>
      .next (a.2.finishAt a.1 c.st (fldOffset op (s.posted p).2.toNat c.fld) []).drainHeads
    | none =>
      let r := run a.1 a.2
      match r.2 with
      | .done st res => .next (r.1.finish a.1 st res).drainHeads
      | .later => .next r.1.drainHeads

/-- A command that only answers. -/
def State.query (s : State) (o : Origin) (op : Nat) (vs : List Nat) (chks : List Chk) (res : State → List Fld) :
    Host.Outcome State Fault Refusal :=
  s.command o op vs chks (fun _ t => (t, .done .ok (res t)))

/-- A command whose effect is one update of the state and whose answer is ST_OK. -/
def State.update (s : State) (o : Origin) (op : Nat) (vs : List Nat) (chks : List Chk) (f : State → State)
    (res : State → List Fld) : Host.Outcome State Fault Refusal :=
  s.command o op vs chks (fun _ t => let u := f t; (u, .done .ok (res u)))

/-! ### Posting (R457) -/

/-- The rank of a source among arrivals of one Needle cycle: H0, H1, fabric in an even Turn, H1, H0, fabric in an
odd one (R457). The model's cycle is the pip (DESIGN CHOICE: entry CYCLE). -/
def orderRank (turn : Nat) : Origin → Nat
  | .mb .h0 _ => if turn % 2 = 0 then 0 else 1
  | .mb .h1 _ => if turn % 2 = 0 then 1 else 0
  | .fab _ _ => 2

/-- Put an arrival in the order: after every arrival of an earlier cycle, and among those of its own cycle by
source (R457). -/
def insertPosted (turn : Nat) : List Posted → Posted → List Posted
  | [], p => [p]
  | q :: r, p =>
    if q.stamp = p.stamp ∧ orderRank turn p.o < orderRank turn q.o then p :: q :: r
    else q :: insertPosted turn r p

/-- A command arrives at the mailbox controller; the Turn is that of the replica on the Needle's die. -/
def State.postCommand (s : State) (p : Posted) : State :=
  (s.setHost { s.host with order := insertPosted (s.pipOn s.needleDie / 4096) s.host.order p }).drainHeads

end Sys2Proof.Machine
end

