-- ==== Sys2Proof/Machine/UpdBase.lean ====
section
/-! DEFINITION. Layout of shards, copies and mirror slots, and the memory they reserve (09 R275; 13 R372 to R374, R383, R388,
R390). -/

namespace Sys2Proof.Machine

open Sys2Proof

/-- The table key of a handle. -/
def handleKey (h : Nat) : Nat := bits h 14 2 * 4096 + h % 4096

/-- A descriptor-table entry. -/
def State.desc (s : State) (h : Nat) : DescEntry := tabGet s.descs {} (handleKey h)

/-- The space of an address. -/
def addrSpace (a : Nat) : Nat := bits a 62 2

/-- Whether two ranges have a byte in common. -/
def overlaps (a la b lb : Nat) : Bool := decide (0 < la) && decide (0 < lb) && decide (a < b + lb) && decide (b < a + la)

/-! ### Shards -/

/-- A shard by its handle. -/
def State.shard? (s : State) (h : Nat) : Option Shard := tabGet? s.upd.shards h
/-- Replace a shard. -/
def State.setShard (s : State) (h : Nat) (x : Shard) : State := s.setUpd { s.upd with shards := tabPut s.upd.shards h x }

/-- Number of elements. -/
def Shard.n (x : Shard) : Nat := x.rows * x.cols
/-- Formats of the master, the moments and the gradient (Table 13-2, fmts). -/
def Shard.masterFmt (x : Shard) : Fmt := if bit x.fmts 0 then .b16 else .f32
def Shard.momentFmt (x : Shard) : Fmt := if bit x.fmts 2 then .b16 else .f32
def Shard.gradFmt (x : Shard) : Fmt := if bit x.fmts 3 then .b16 else .f32
/-- The formats of the arrays in order: master, first moment, second moment for ADAMW. -/
def Shard.fmtList (x : Shard) : List Fmt :=
  x.masterFmt :: List.replicate (if x.opt = 2 then 2 else 1) x.momentFmt
/-- Bytes per element (R383). -/
def Shard.b (x : Shard) : Nat := (x.fmtList.map (fun f => f.width / 8)).sum

/-- Offsets of arrays of widths for n elements, each padded to a multiple of 64 bytes, from an offset. -/
def arrayOffs (n : Nat) : List Nat → Nat → List Nat
  | [], _ => []
  | w :: r, off => off :: arrayOffs n r (off + alignUp (n * w) 64)

/-- Where those arrays end. -/
def arraysEnd (n : Nat) (ws : List Nat) : Nat := (ws.map (fun w => alignUp (n * w) 64)).sum

/-- Widths of the arrays in bytes. -/
def Shard.widths (x : Shard) : List Nat := x.fmtList.map (fun f => f.width / 8)
/-- Length of the update region. -/
def Shard.region (x : Shard) : Nat := arraysEnd x.n x.widths
/-- Arrays with their addresses. -/
def Shard.arrays (x : Shard) : List (Nat × Fmt) := (arrayOffs x.n x.widths x.addr).zip x.fmtList

/-- Slices and chunks of a shard (R380, R384). -/
def Shard.sliceNum (x : Shard) : Nat := (x.n + 1023) / 1024
def Shard.chunkNum (x : Shard) : Nat := (x.n + 511) / 512

/-! ### Copies -/

/-- A descriptor that a copy entry may name. -/
def copyDescOk (rows cols : Nat) (c : Copy) (d : Desc) : Bool :=
  let dense := !d.rlz && decide (d.sparse = 0)
  let shape := if c.role = 0 then d.rows == rows && d.cols == cols else d.rows == cols && d.cols == rows
  dense && d.writable && !d.self && shape && addrSpace d.data == 0 &&
  decide (d.fmt ≠ .f32) && !d.fmt.int && (!d.fmt.narrow || addrSpace d.scale == 0)

/-- The descriptor of a copy, while it still meets R374. -/
def State.copyDesc (s : State) (x : Shard) (c : Copy) : Option Desc :=
  match (s.desc c.handle).d with
  | some d => if copyDescOk x.rows x.cols c d then some d else none
  | none => none

/-- The regions of a copy's elements and scales. -/
def descRegions (d : Desc) : List (Nat × Nat) :=
  (d.data, (d.rows - 1) * d.pitch + (d.cols * d.fmt.width + 7) / 8) ::
  (if d.fmt.narrow then [(d.scale, d.rows * (d.cols / blockSize d.block))] else [])

/-! ### Mirror slots (R383) -/

/-- The possible splits of b bytes per element into a master and moments (Tables 13-2, 13-3); one array where there is none. -/
def splits (b : Nat) : List (List Nat) :=
  let l := [[2, 2], [4, 2], [2, 4], [4, 4], [2, 2, 2], [4, 2, 2], [2, 4, 4], [4, 4, 4]].filter (fun w => w.sum == b)
  if l.isEmpty then [[b]] else l

/-- The widths of the arrays of a mirror slot: the entry is given only their sum, so among the possible splits the choice
is a free value (DESIGN CHOICE: entry MIRRORSPLIT). -/
def Mirror.widths (m : Mirror) : List Nat :=
  let l := splits m.b
  l.getD (Config.mirrorSplit m.fid m.handle m.n m.b % l.length) [m.b]

/-- Length of a slot: the seal record and the arrays. -/
def Mirror.slotLen (m : Mirror) : Nat := 64 + arraysEnd m.n m.widths
/-- Slot 0 or 1. -/
def Mirror.slot (m : Mirror) (i : Nat) : Nat := if i = 0 then m.slot0 else m.slot1
/-- The receiving slot: the one that does not hold v_s (R386). -/
def Mirror.recvSlot (m : Mirror) : Nat := match m.sealed with | some (_, 0) => 1 | _ => 0

/-! ### What they reserve -/

/-- The copy regions that no access reaches: those of a shard that is not COMMITTED (R390, Table 13-5). -/
def State.copyRegions (s : State) (x : Shard) : List (Nat × Nat) :=
  x.copies.flatMap (fun c => match s.copyDesc x c with | some d => descRegions d | none => [])

/-- DRAM that shards and mirror entries reserve for as long as they exist (R372, R388). -/
def State.updHeld (s : State) (addr len : Nat) : Bool :=
  s.upd.shards.any (fun e => overlaps addr len e.2.addr e.2.region) ||
  s.upd.mirrors.any (fun e => overlaps addr len e.2.slot0 e.2.slotLen || overlaps addr len e.2.slot1 e.2.slotLen)

/-- The copy regions reserved while a shard is not COMMITTED (R390). -/
def State.copyDenied (s : State) (addr len : Nat) : Bool :=
  s.upd.shards.any (fun e => decide (e.2.st ≠ .committed) && (s.copyRegions e.2).any (fun r => overlaps addr len r.1 r.2))

/-- The 64-byte blocks at the in_addr of FABRIC Ladder streams (14 R400). -/
def State.ladDenied (s : State) (addr len : Nat) : Bool :=
  s.lad.streams.any (fun e => fieldAt e.2.d 20 1 == 0 && overlaps addr len (fieldAt e.2.d 24 8) 64)

/-- All DRAM that shards, mirror entries and FABRIC streams hold: start and length. -/
def State.unitExtents (s : State) : List (Nat × Nat) :=
  s.upd.shards.flatMap (fun e => (e.2.addr, e.2.region) :: e.2.copies.flatMap (fun c =>
    match s.copyDesc e.2 c with | some d => descRegions d | none => [])) ++
  s.upd.mirrors.flatMap (fun e => [(e.2.slot0, e.2.slotLen), (e.2.slot1, e.2.slotLen)]) ++
  s.lad.streams.filterMap (fun e => if fieldAt e.2.d 20 1 == 0 then some (fieldAt e.2.d 24 8, 64) else none)

/-- A far read of the slot that holds v_s by the bound primary (R388). -/
def State.mirrorRead (s : State) (src addr len : Nat) : Bool :=
  s.upd.mirrors.any (fun e => e.2.fid == src && (match e.2.sealed with
    | some (_, i) => decide (e.2.slot i ≤ addr) && decide (addr + len ≤ e.2.slot i + e.2.slotLen)
    | none => false))

end Sys2Proof.Machine
end

