-- ==== Sys2Proof/Machine/Operands.lean ====
section
/-! DEFINITION. Addresses and what they reach: reserved regions, checks of an access, loads and stores, the Stitch
control page, atomics (09 R263 to R265, R270 to R286, R561; 17 R477). -/

namespace Sys2Proof.Machine

open Sys2Proof

/-! ### Stitches -/

/-- The number of a Stitch. -/
def stitchNo (k i : Nat) : Nat := 256 * k + i

/-- A fused retirement of a Stitch (18 R516). -/
def State.fusedRetired (s : State) (st : Nat) : Bool := s.sec.fusedRetired.any (fun r => r.key == st && !r.torn)

/-- A retired Stitch (17 R486, 18 R516). -/
def State.isRetired (s : State) (st : Nat) : Bool := s.integ.retired.contains st || s.fusedRetired st

/-- The refusal of a use of a Stitch (R31, R434): absent, retired, DARK. -/
def State.stitchStatus (s : State) (st : Nat) : Option Status :=
  if s.absent st then some .unitAbsent
  else if s.isRetired st then some .retired
  else if (s.tile st).power = .dark then some .busy else none

/-- Of two refusals, the first in the order of R10. -/
def firstStatus (a b : Option Status) : Option Status :=
  match a, b with
  | none, x | x, none => x
  | some x, some y => if x.rank ≤ y.rank then some x else some y

/-! ### Reserved regions of device DRAM (R275) -/

/-- The first byte of the Pattern store of a Skein: the top 32 MiB (10 R316). -/
def patStore (k : Nat) : Nat := (k + 1) * 2 ^ 35 - 2 ^ 25
/-- The first byte of the sentinel region of a Skein: 64 MiB below the Pattern store (17 R481). -/
def sentRegion (k : Nat) : Nat := patStore k - 2 ^ 26

/-- The overflow region of a port die: start and length (01 R28; 04 R140). -/
def State.ovfRegion (s : State) (die : Nat) : Nat × Nat := (tabGet s.buf.bases (Config.ovfBase die) die, s.setting idOvfSize die)

/-- Device DRAM that units hold for themselves (R275; 01 R28): overflow, sentinel region, Pattern store, update regions, mirror slots
(13), and the blocks of FABRIC streams (14). -/
def State.dramKept (s : State) (addr len : Nat) : Bool :=
  (List.range 4).any (fun d => let r := s.ovfRegion d; overlaps addr len r.1 r.2) ||
  (List.range 4).any (fun k => overlaps addr len (sentRegion k) (2 ^ 26 + 2 ^ 25)) ||
  s.updHeld addr len || s.ladDenied addr len

/-- Device DRAM that no access from outside reaches (R275): what units hold, and the copies of shards that are not COMMITTED (13). -/
def State.dramDenied (s : State) (addr len : Nat) : Bool := s.dramKept addr len || s.copyDenied addr len

/-! ### Checks of a local access (R274, R275, R561) -/

/-- The Stitches that a scratchpad-window range reaches. -/
def stitchesIn (off len : Nat) : List Nat :=
  (List.range ((off + len - 1) / 2 ^ 19 - off / 2 ^ 19 + 1)).map (fun i => off / 2 ^ 19 + i)

/-- The refusal of an access to device DRAM or the scratchpad window, the first under R10 over all its bytes. -/
def State.localStatus (s : State) (a len : Nat) : Option Status :=
  match addrSpace a with
  | 0 =>
    if decide (bits a 37 25 ≠ 0) || decide (bits a 0 37 + len > 2 ^ 37) then some .badField
    else if s.dramDenied (bits a 0 37) len then some .denied else none
  | 1 =>
    if decide (bits a 29 33 ≠ 0) || decide (bits a 0 29 + len > 2 ^ 29) then some .badField
    else (stitchesIn (bits a 0 29) len).foldl (fun r st => firstStatus r (s.stitchStatus st)) none
  | _ => some .badField

/-- The key of the first byte of a DRAM or scratchpad address; bytes run on linearly (R561). -/
def memKey (a : Nat) : Nat := if addrSpace a = 1 then 2 ^ 62 + bits a 0 29 else bits a 0 37

/-- The local address of a far offset (Table 09-4). -/
def offsetAddr (off : Nat) : Nat := bits off 40 2 * 2 ^ 62 + bits off 0 40

/-- The bank of a scratchpad offset (R263). -/
def bankOf (off : Nat) : Nat := bits off 6 5

/-- The banks of a Stitch that a range of its scratchpad touches (R263, R264). -/
def banksIn (off len : Nat) : List Nat :=
  if len ≥ 2048 then List.range 32
  else (List.range ((off + len - 1) / 64 - off / 64 + 1)).foldl (fun l i => addNew l ((off / 64 + i) % 32)) []

/-- The Stitches whose control pages a range of the control space reaches. -/
def pagesIn (a len : Nat) : List Nat :=
  (List.range ((bits a 0 32 + len - 1) / 4096 - bits a 0 32 / 4096 + 1)).map (bits a 0 32 / 4096 + ·)

/-- Every Stitch and bank of a range is awake, so that the access is served now (R267, R434); STITCH_ID is always readable. -/
def State.padReady (s : State) (a len : Nat) : Bool :=
  if addrSpace a = 3 then decide (bits a 0 12 + len ≤ 8) || (pagesIn a len).all (fun st => decide ((s.tile st).power = .active))
  else addrSpace a != 1 ||
  (stitchesIn (bits a 0 29) len).all (fun st =>
    let t := s.tile st
    let lo := max (bits a 0 29) (st * 2 ^ 19)
    let hi := min (bits a 0 29 + len) ((st + 1) * 2 ^ 19)
    decide (t.power = .active) && (banksIn (lo % 2 ^ 19) (hi - lo)).all (fun b => t.awake.getLsbD b))

/-! ### Paths to DRAM (R281 to R283) -/

/-- The channel of a DRAM byte, device-wide (R281). -/
def channelOf (a : Nat) : Nat :=
  64 * bits a 35 2 + (bits a 8 6 ^^^ bits a 14 6 ^^^ bits a 20 6 ^^^ bits a 26 6)

/-- A refresh holds a DRAM channel (06 R194; R282). -/
def State.refreshing (s : State) (channel : Nat) : Bool := decide (s.time.pip < tabGet s.integ.refresh 0 channel)

/-- The Skeins on the way from a Skein to the DRAM of another (R283): to the diagonal one by way of the lower-numbered common
neighbour for an even channel, of the higher-numbered one for an odd channel. -/
def skeinPath (a b ch : Nat) : List Nat :=
  if a = b then [a]
  else if a + b ≠ 3 then [a, b]
  else if a = 0 ∨ a = 3 then [a, if ch % 2 = 0 then 1 else 2, b]
  else [a, if ch % 2 = 0 then 0 else 3, b]

/-- The bridges that an access and its answer cross. -/
def accessBridges (a b ch : Nat) : List Nat := skeinHops (skeinPath a b ch) ++ skeinHops (skeinPath a b ch).reverse

/-- The first bytes of the granules of 256 bytes that a range of DRAM meets, as far as they bring further channels. -/
def granules (key len : Nat) : List Nat := (List.range (min 128 ((key + len - 1) / 256 - key / 256 + 1))).map (fun i => (key / 256 + i) * 256)

/-- DRAM that a Skein can access now: no bridge of its path and no channel arbiter is frozen (06 R193), no refresh holds a
channel (R282). -/
def State.dramOpen (s : State) (k key len : Nat) : Bool :=
  (granules key len).all (fun g =>
    let ch := channelOf g
    !s.frozenOn (arbKey 2 ch 0 :: accessBridges k (ch / 64) ch) && !s.refreshing ch)

/-- A range that an access from Skein `k` reaches now: DRAM over its path, scratchpad banks awake. -/
def State.memReady (s : State) (k a len : Nat) : Bool :=
  s.padReady a len && (addrSpace a != 0 || s.dramOpen k (bits a 0 37) len)

/-- Note an access to a Stitch, a signal to it, or the end of its work: its idle time starts again (R434). -/
def State.atTile (s : State) (st : Nat) : State :=
  let t := s.tile st
  s.setTile st { t with idle := tabPut t.idle 32 s.time.pip }

/-- Note an access: the Stitch is no longer idle, nor are banks that were woken (R267, R434). -/
def State.touch (s : State) (a len : Nat) : State :=
  if addrSpace a = 3 then (pagesIn a len).foldl State.atTile s
  else if addrSpace a != 1 then s
  else (stitchesIn (bits a 0 29) len).foldl (fun s st =>
    let t := s.tile st
    let lo := max (bits a 0 29) (st * 2 ^ 19)
    let hi := min (bits a 0 29 + len) ((st + 1) * 2 ^ 19)
    let keep := (banksIn (lo % 2 ^ 19) (hi - lo)).filter (fun b => t.retain.getLsbD b && (tabGet? t.idle b).isSome)
    s.setTile st { t with idle := (32 :: keep).foldl (fun i b => tabPut i b s.time.pip) t.idle }) s

/-! ### Counters of local delivery, DRAM and scratchpads -/

/-- Counters of local delivery of a die: 0 MGMT responses, 1 MGMT requests discarded, 2 TOKEN_RES, 3 late responses,
4 refused DATA, READ_REQ and ATOMIC frames, 5 words left by a failed merge, 6 Ladder refusals, 7 token frames. -/
def lcMgmtRsp := 0
def lcMgmtReq := 1
def lcTokenRes := 2
def lcRefused := 4
def lcMerge := 5
def lcLadder := 6
def lcToken := 7

/-- The log source of a memory key: its DRAM channel, or its Stitch (Table 17-5). -/
def memSrc (key : Nat) : Nat :=
  if key < 2 ^ 37 then srcOf 6 (channelOf key) else srcOf 2 ((key - 2 ^ 62) / 2 ^ 19)

/-- Log an uncorrectable data error (0x1101): location and store, 0 DRAM or 1 scratchpad (Table 17-2). -/
def State.logUe (s : State) (key : Nat) : State :=
  s.logRaise 0x1101 2 0xD (memSrc key) 0 (key % 2 ^ 40 + (if key < 2 ^ 37 then 0 else 2 ^ 48))

/-- The first uncorrectable word of a range. -/
def State.firstUe (s : State) (key n : Nat) : Option Nat :=
  (s.ueWords.find? (fun w => decide (key < w * 8 + 8) && decide (w * 8 < key + n))).map (· * 8)

/-- Read memory, refused with ST_INTEGRITY and logged where a word is uncorrectable (R477). -/
def State.load (s : State) (key n : Nat) : State × Except Status (List Byte) :=
  match s.firstUe key n with
  | some w => (s.logUe w, .error .integrity)
  | none => (s, .ok (s.read key n))

/-- Write memory word by word (R279): words covered in part that are uncorrectable are left and logged; the answer
says whether one was met. -/
def State.store (s : State) (key : Nat) (bs : List Byte) : State × Bool :=
  let n := bs.length
  let partial_ := s.ueWords.filter (fun w =>
    decide (key < w * 8 + 8) && decide (w * 8 < key + n) && !(decide (key ≤ w * 8) && decide (w * 8 + 8 ≤ key + n)))
  if partial_.isEmpty then (s.write key bs, false)
  else
    let old := partial_.map (fun w => (w * 8, s.read (w * 8) 8))
    let t := s.write key bs
    let t := old.foldl (fun t p => t.setMem (memPutAll t.mem p.1 p.2)) t
    (partial_.foldl (fun t w => t.logUe (w * 8)) t, true)

/-! ### The banks of a scratchpad in one core cycle (R263 to R266)

The model has no core clock: accesses to one scratchpad in one pip, with no word issued by its Stitch and no signal to it between
them, meet in one core cycle; a read whose row comes before that of a write was served in an earlier core cycle of the pip (DESIGN
CHOICE: entry SAMECYCLE). -/

/-- Who asks for a bank: the place in the order of R265 that the requester has at its own Stitch (1 matrix feed, 2 and 3 DMA, 5
thread slots, of which `slot` tells them apart); at any other, and for other units and the fabric, it is an incoming access (4). The
update of a block of a narrow tensor is indivisible, and no order of two is promised: the writes of a `whole` requester stand in the
order of the rows (07 R201). -/
structure Requester where
  own : Option Nat := none
  rank : Nat := 4
  slot : Nat := 0
  whole : Bool := false
  deriving DecidableEq, Repr

/-- A requester that is no part of a Stitch. -/
def incoming : Requester := {}

/-- The place of a requester at a Stitch. -/
def Requester.place (r : Requester) (st : Nat) : Nat := if r.own = some st then r.rank else 4

/-- The key of a requester at a Stitch: its place, and which of those of its place it is. -/
def Requester.key (r : Requester) (st : Nat) : Nat :=
  r.place st + 8 * (if r.own = some st then r.slot else match r.own with | some x => x + 1 | none => 0)

/-- The core cycle of a Stitch. -/
def State.cycleOf (s : State) (st : Nat) : Cycle :=
  let c := (s.tile st).cycle
  if c.pip = s.time.pip then c else { pip := s.time.pip }

/-- The stalls of a requester on a bank that reach up to this pip: pips that follow one another hold consecutive core cycles. -/
def stallsOf (stalls : Tab (Nat × Nat)) (pip who bank : Nat) : Nat :=
  match tabGet? stalls (32 * who + bank) with
  | some x => if pip ≤ x.2 + 1 then x.1 else 0
  | none => 0

/-- The precedence of a requester at banks of a Stitch: after 16 stalls on one of them it goes before all others there. -/
def State.bankRank (s : State) (r : Requester) (st : Nat) (banks : List Nat) : Nat :=
  if banks.any (fun b => decide (stallsOf (s.tile st).stalls s.time.pip (r.key st) b ≥ 16)) then 0 else r.place st

/-- The pieces of a range of the scratchpad window: Stitch, offset, length. -/
def padPieces (key len : Nat) : List (Nat × Nat × Nat) :=
  (stitchesIn (key - 2 ^ 62) len).map (fun st =>
    let lo := max (key - 2 ^ 62) (st * 2 ^ 19)
    (st, lo % 2 ^ 19, min (key - 2 ^ 62 + len) ((st + 1) * 2 ^ 19) - lo))

/-- The key of a byte of a scratchpad. -/
def padKey (st off : Nat) : Nat := 2 ^ 62 + st * 2 ^ 19 + off

/-- The stalls after an access of a requester to banks that others addressed in the same cycle: of two, the one without precedence
stalls; a requester that is served has not stalled. -/
def stallsAfter (pip : Nat) (stalls : Tab (Nat × Nat)) (met : List Met) (who rank : Nat) (banks : List Nat) : Tab (Nat × Nat) :=
  let more (t : Tab (Nat × Nat)) (w b : Nat) : Tab (Nat × Nat) := tabPut t (32 * w + b) (stallsOf t pip w b + 1, pip)
  banks.foldl (fun t b =>
    let others := met.filter (fun m => (banksIn m.off m.len).contains b && m.who != who)
    let t := if others.any (fun m => decide (m.rank < rank)) then more t who b else tabDel t (32 * who + b)
    ((others.filter (fun m => decide (rank < m.rank))).map (·.who)).eraseDups.foldl (fun t c => more t c b) t) stalls

/-- A requester addresses a range of the scratchpad window. -/
def State.meet (s : State) (r : Requester) (key len : Nat) : State :=
  (padPieces key len).foldl (fun s p =>
    let t := s.tile p.1
    let c := s.cycleOf p.1
    let rank := s.bankRank r p.1 (banksIn p.2.1 p.2.2)
    s.setTile p.1 { t with
      stalls := stallsAfter s.time.pip t.stalls c.met (r.key p.1) rank (banksIn p.2.1 p.2.2),
      cycle := { c with met := c.met ++ [{ off := p.2.1, len := p.2.2, who := r.key p.1, rank := rank }] } }) s

/-- Note what a write is about to replace. -/
def State.noteWrite (s : State) (r : Requester) (key len : Nat) : State :=
  if key < 2 ^ 62 || r.whole then s
  else (padPieces key len).foldl (fun s p =>
    let c := s.cycleOf p.1
    s.setTile p.1 { s.tile p.1 with cycle := { c with met := c.met ++ [{ off := p.2.1, len := p.2.2, who := r.key p.1, rank := s.bankRank r p.1 (banksIn p.2.1 p.2.2), old := s.read (padKey p.1 p.2.1) p.2.2 }] } }) s

/-- Write memory as a requester of banks. -/
def State.storeBy (s : State) (r : Requester) (key : Nat) (bs : List Byte) : State × Bool :=
  (s.noteWrite r key bs.length).store key bs

/-- The writes of the same cycle that give a requester precedence. -/
def State.yielding (s : State) (r : Requester) : List (Nat × Met) :=
  s.tiles.flatMap (fun p => ((s.cycleOf p.1).met.filter (fun m => !m.old.isEmpty && decide (s.bankRank r p.1 (banksIn m.off m.len) < m.rank))).map (fun m => (p.1, m)))

/-- Put bytes at the places of writes. -/
def State.putMet (s : State) (l : List (Nat × Met)) : State :=
  l.foldl (fun s x => s.setMem (memPutAll s.mem (padKey x.1 x.2.off) x.2.old)) s

/-- Accesses of a requester take effect before those of the same cycle over which it has precedence: it observes none of their
writes, and a byte that both write ends with theirs (R265). -/
def State.firstBy {α : Type} (s : State) (r : Requester) (f : State → State × α) : State × α :=
  let l := s.yielding r
  if l.isEmpty || r.whole then f s
  else
    let x := f (s.putMet l.reverse)
    let now (p : Nat × Met) (u : State) : Met := { p.2 with old := u.read (padKey p.1 p.2.off) p.2.old.length }
    let t := l.foldl (fun t p =>
      let y := t.tile p.1
      t.setTile p.1 { y with cycle := { y.cycle with met := y.cycle.met.map (fun m => if m = p.2 then now p x.1 else m) } }) x.1
    (t.putMet (l.map (fun p => (p.1, now p s))), x.2)

/-! ### Flags, counters and the Stitch control page (R270, R271, R273, R280) -/

/-- The location of a Stitch counter as a paired value. -/
def cntLoc (n : Nat) : Nat := n

/-- A Stitch counter. -/
def Stitch.cnt (t : Stitch) (n : Nat) : Nat := tabGet t.cnts 0 n

/-- Set a counter; its complement half is formed with it (R305). -/
def State.setCntr (s : State) (st n v : Nat) : State :=
  let t := s.tile st
  s.setTile st { t with cnts := tabPut t.cnts n (v % 2 ^ 32) }

/-- Signal a flag; a clear by a register write of the same cycle leaves it set (R271). -/
def State.setFlag (s : State) (st f : Nat) : State :=
  let t := s.tile st
  let c := s.cycleOf st
  s.setTile st { t with flags := t.flags ||| (1#32 <<< f), cycle := { c with flags := c.flags ||| (1#32 <<< f), met := [] } }

/-- Clear a flag. -/
def State.clearFlag (s : State) (st f : Nat) : State :=
  let t := s.tile st
  s.setTile st { t with flags := t.flags &&& ~~~(1#32 <<< f) }

/-- Whether the halves of a counter disagree. -/
def State.cntTorn (s : State) (st n : Nat) : Bool := s.torn rowStitch st (cntLoc n)

/-- The critical-state error of a Stitch value (Table 17-1): STITCH scope. -/
def State.stitchCritical (s : State) (st loc : Nat) : State := s.critical rowStitch st loc 5 st (srcOf 2 st)

/-- Add to a counter, modulo 2^32, its halves checked first (R270, R271, R273); a register write of the same cycle comes before. -/
def State.addCntr (s : State) (st n v : Nat) : State :=
  if s.cntTorn st n then s.stitchCritical st (cntLoc n)
  else
    let c := s.cycleOf st
    let s := s.setTile st { s.tile st with cycle := { c with adds := tabPut c.adds n (tabGet c.adds 0 n + v), met := [] } }
    s.setCntr st n ((s.tile st).cnt n + v)

/-- A register write of a counter: the signals of the same cycle are added to it (R271). -/
def State.writeCntr (s : State) (st n v : Nat) : State := s.setCntr st n (v + tabGet (s.cycleOf st).adds 0 n)

/-- Slots of a state that are not FREE, and those FAULTED (STITCH_STATE, Table 09-5). -/
def Stitch.busySlots (t : Stitch) : Nat := (t.slots.filter (fun p => decide (p.2.st ≠ .free))).length
def Stitch.faultedSlots (t : Stitch) : Nat := (t.slots.filter (fun p => decide (p.2.st = .faulted))).length

/-- STITCH_ID (Table 09-5). -/
def State.stitchId (s : State) (st : Nat) : Nat :=
  let present := !s.absent st
  b2n (present && decide (s.sec.grade ≠ .n)) * 2 ^ 13 + b2n (present && s.isRetired st) * 2 ^ 12 + b2n present * 2 ^ 11 + st

/-- The 8 bytes at an offset of a Stitch control page (Table 09-5). -/
def State.pageWord (s : State) (st off : Nat) : Nat :=
  let t := s.tile st
  if off = 0x000 then s.stitchId st
  else if off = 0x008 then (t.faultedSlots % 256) * 256 + t.busySlots % 256
  else if off = 0x010 then t.flags.toNat
  else if off = 0x018 then t.retain.toNat
  else if off = 0x020 then t.awake.toNat
  else if 0x040 ≤ off ∧ off < 0x0C0 then
    let v := t.cnt ((off - 0x040) / 8)
    v + (0xFFFFFFFF - v) * 2 ^ 32
  else 0

/-- The refusal of an access to the control space (R274, R275, R280): STITCH_ID is always readable. -/
def State.ctlStatus (s : State) (a len : Nat) (write : Bool) : Option Status :=
  let c := bits a 0 32
  if decide (bits a 32 30 ≠ 0) || decide (c + len > 0x400000) then some .badField
  else if !write && decide (c % 4096 + len ≤ 8) then none
  else (pagesIn a len).foldl (fun r st => firstStatus r (s.stitchStatus st)) none

/-- Read bytes of the control space. -/
def State.ctlRead (s : State) (a : Nat) : Nat → List Byte
  | 0 => []
  | n + 1 =>
    let c := bits a 0 32
    BitVec.ofNat 8 (s.pageWord (c / 4096) (c % 4096 / 8 * 8) >>> (8 * (c % 8))) :: s.ctlRead (a + 1) n

/-- A write of SPAD_RETAIN (R267): banks whose bit is cleared wake. -/
def State.writeRetain (s : State) (st : Nat) (w : BitVec 32) : State :=
  let t := s.tile st
  s.setTile st { t with retain := w, awake := t.awake ||| ~~~w,
                        idle := (List.range 32).foldl (fun i b =>
                          if w.getLsbD b && !t.retain.getLsbD b then tabDel i b else i) t.idle }

/-- A refused write of a paired register (R6, 0x0001): its offset, and the host port or 0xFF. -/
def State.refuseWrite (s : State) (src off port : Nat) : State := s.logRaise 0x0001 0 0 src 0 (off + port * 2 ^ 32)

/-- A write of bytes from byte `lo` on of one register of a Stitch control page: FLAGS clears, SPAD_RETAIN is set,
CNTn takes a value whose two halves come in one access and are complements, and keeps its own otherwise (R5, R6). -/
def State.regWrite (s : State) (st reg lo : Nat) (bs : List Byte) (port : Nat) : State :=
  let t := s.tile st
  let v := leNat bs
  if reg = 0x010 then s.setTile st { t with flags := (t.flags &&& ~~~(BitVec.ofNat 32 (v * 2 ^ (8 * lo)))) ||| (s.cycleOf st).flags }
  else if reg = 0x018 then s.writeRetain st (BitVec.ofNat 32 (setBits t.retain.toNat (8 * lo) (8 * bs.length) v))
  else if 0x040 ≤ reg ∧ reg < 0x0C0 then
    if bs.length = 8 ∧ bits v 32 32 = 0xFFFFFFFF - bits v 0 32 then s.writeCntr st ((reg - 0x040) / 8) (bits v 0 32)
    else s.refuseWrite (srcOf 2 st) reg port
  else s

/-- A write to the Stitch control pages from control address `c` on: each register that it reaches takes its bytes. -/
def State.pageWrite (s : State) (c : Nat) (bs : List Byte) (port : Nat) : State :=
  (List.range ((c + bs.length - 1) / 8 - c / 8 + 1)).foldl (fun s i =>
    let lo := if i = 0 then c % 8 else 0
    s.regWrite ((c / 8 + i) / 512) ((c / 8 + i) % 512 * 8) lo ((bs.drop (8 * i - c % 8)).take (8 - lo)) port) s

/-! ### Atomics (R284 to R286) -/

/-- The size in bytes of an atomic, `none` for a code of no row (Table 09-7). -/
def atomSize (code : Nat) : Option Nat :=
  match code % 128 with
  | 1 | 3 | 5 | 6 | 7 | 8 => some 4
  | 2 | 9 | 10 | 11 | 12 | 13 => some 8
  | 4 => some 32
  | 0x20 | 0x21 => some 0
  | _ => none

/-- Bytes of operands at byte 16 of an atomic. -/
def atomOperands (code : Nat) : Nat :=
  match code % 128 with | 13 => 16 | 0x20 | 0x21 => 8 | _ => (atomSize code).getD 0

/-- An F32 binary operation on bits. -/
def f32Op (f : Num → Num → Num × Cnts) (a b : Nat) : Nat × Cnts :=
  let r := f (Fmt.decode .f32 a) (Fmt.decode .f32 b)
  (Fmt.encode .f32 r.1, r.2)

/-- The new value of a location and what is counted (Table 09-7, R286). -/
def atomApply (code old opnd : Nat) : Nat × Cnts :=
  match code % 128 with
  | 1 => let r := satI32 (toInt 32 old + toInt 32 opnd); (ofInt 32 r.1, { sat := r.2 })
  | 2 => ((old + opnd) % 2 ^ 64, {})
  | 3 => f32Op (add32 .rn) (bits old 0 32) (bits opnd 0 32)
  | 4 =>
    let r := (List.range 8).map (fun i => f32Op (add32 .rn) (bits old (32 * i) 32) (bits opnd (32 * i) 32))
    (packBits .f32 (r.map (·.1)), (r.map (·.2)).foldl Cnts.add {})
  | 5 => (if toInt 32 old ≥ toInt 32 opnd then old else bits opnd 0 32, {})
  | 6 => (if toInt 32 old ≤ toInt 32 opnd then old else bits opnd 0 32, {})
  | 7 => f32Op (fun a b => (maxNum a b, {})) (bits old 0 32) (bits opnd 0 32)
  | 8 => f32Op (fun a b => (minNum a b, {})) (bits old 0 32) (bits opnd 0 32)
  | 9 => (old &&& bits opnd 0 64, {})
  | 10 => (old ||| bits opnd 0 64, {})
  | 11 => (old ^^^ bits opnd 0 64, {})
  | 12 => (bits opnd 0 64, {})
  | 13 => (if old = bits opnd 0 64 then bits opnd 64 64 else old, {})
  | _ => (old, {})

/-- Counters of a DRAM channel: 0 saturations, 1 invalids of atomics; 2 corrected words. -/
def State.atomCount (s : State) (key : Nat) (c : Cnts) : State :=
  (s.bumpBy .dram (channelOf key) 0 c.sat).bumpBy .dram (channelOf key) 1 c.inv

/-- Apply an atomic to device DRAM: the old value, or ST_INTEGRITY with the location unchanged (R284, R286). -/
def State.atomic (s : State) (key code opnd : Nat) : State × Except Status (List Byte) :=
  let n := (atomSize code).getD 0
  let r := s.load key n
  match r.2 with
  | .error e => (r.1, .error e)
  | .ok old =>
    let v := atomApply code (leNat old) opnd
    ((r.1.write key (leBytes n v.1)).atomCount key v.2, .ok old)

/-- The Stitch whose SIGNAL register a control address names. -/
def signalStitch (c : Nat) : Option Nat :=
  if c < 0x400000 ∧ c % 4096 = 0x100 then some (c / 4096) else none

/-- Signal a Stitch (Table 09-7, R271): set a flag, or add to a counter. -/
def State.signal (s : State) (st code opnd : Nat) : State :=
  let s := s.atTile st
  if code % 128 = 0x20 then s.setFlag st (bits opnd 0 5) else s.addCntr st (bits opnd 32 4) (bits opnd 0 32)

end Sys2Proof.Machine
end

