-- ==== Sys2Proof/Machine/Time.lean ====
section
/-! DEFINITION. Pip marks, discipline, exclusion and barrier ticks (02). -/

namespace Sys2Proof.Machine

open Sys2Proof

/-- time_role: 0 MASTER, 1 FOLLOWER, 2 FREE (Table 02-1). -/
def State.timeRole (s : State) : Nat := s.setting idTimeRole 0

/-- The stratum that the device advertises (Table 02-1, R45, R48). For a FOLLOWER that has chosen no parent yet the table gives none:
it is 15 (DESIGN CHOICE: entry NOPARENT). -/
def State.stratum (s : State) : Nat :=
  match s.timeRole with
  | 0 => 0
  | 1 =>
    if s.time.state = .holdover then 15
    else match s.time.parent with
      | none => 15
      | some lk => let p := (s.link lk).time.stratum; if p ≤ 13 then p + 1 else 15
  | _ => 15

/-- A link is eligible as parent (R45). -/
def State.eligible (s : State) (lk : Nat) : Bool :=
  let l := s.link lk
  l.carries && decide (l.time.stratum ≤ 14) && l.time.valid && decide (l.time.age ≤ 4) && !l.time.excluded &&
    decide (s.linkSetting idTimeElig lk = 1)

/-- The better of two links as parent: lower stratum, then lower number (R45). -/
def State.better (s : State) (a : Option Nat) (lk : Nat) : Option Nat :=
  match a with
  | none => some lk
  | some b => if (s.link lk).time.stratum < (s.link b).time.stratum then some lk else some b

/-- The parent that R45 chooses. -/
def State.chooseParent (s : State) : Option Nat := (s.linkNums.filter s.eligible).foldl s.better none

/-- The full count congruent to a 24-bit stamp that lies nearest to `a` (R43). A stamp exactly 2^23 away has two nearest counts;
the later is taken (DESIGN CHOICE: entry NEAREST). -/
def nearest24 (x a : Nat) : Int :=
  let d : Nat := (x + 2 ^ 24 - a % 2 ^ 24) % 2 ^ 24
  if d ≤ 2 ^ 23 then (a : Int) + d else (a : Int) + d - 2 ^ 24

/-- The number among the marks sent of the mark that an echo names by its low 4 bits (R44): the first such mark since the link came
up, and then the one nearest to where the echoes must stand after the pips since the last one (DEDUCED: entry ECHONUM). -/
def LinkTime.echoNum (t : LinkTime) (a4 echo : Nat) : Nat :=
  match t.echoNo with
  | none => t.base + (echo + 16 - t.base % 16) % 16
  | some n =>
    let x := n + (a4 - t.echoAt) / 1024 + 8
    let r := (x + 16 - echo) % 16
    if x < r then x + 16 - r else x - r

/-- The echoed mark is more than 15 marks old, a newer one having taken its number, or was never sent (R44). -/
def LinkTime.stale (t : LinkTime) (a4 echo : Nat) : Bool :=
  let u := t.echoNum a4 echo
  decide (u + 16 < t.sent) || decide (t.sent ≤ u)

/-- The mark that a received mark echoes is noted; a residence of 0xFFFF may go with none. -/
def LinkTime.noteEcho (t : LinkTime) (a4 echo res : Nat) : LinkTime :=
  if res = 0xFFFF then t else { t with echoNo := some (t.echoNum a4 echo), echoAt := a4 }

/-- One calibration sample from a mark: θ and the delay in half-pips; `none` when it is discarded (R43, R44). Marks go at every
multiple of 1,024, so a mark is more than 15 old when more than 15 multiples have passed since. -/
def sample (t : LinkTime) (a4 tx echo res : Nat) (asym : Int) : Option (Int × Int) :=
  match tabGet? t.txStamps echo with
  | none => none
  | some a1 =>
    if t.stale a4 echo ∨ a4 / 1024 > a1 / 1024 + 15 then none else
    let d : Int := (a4 : Int) - a1 - res
    let theta : Int := 2 * (nearest24 tx a4 - a4) + d
    let d' := d + asym
    if res = 0xFFFF ∨ d' < 0 ∨ d' > 14000 then none else some (theta, d')

/-- Exclusion and readmission of a link by its samples (R50, R51); tolerance in half-pips. -/
def LinkTime.judge (t : LinkTime) (tol2 : Nat) (theta : Int) : LinkTime :=
  let big := decide (theta.natAbs > tol2)
  let small := decide (2 * theta.natAbs ≤ tol2)
  let bad := if big then t.bad + 1 else 0
  let good := if small then t.good + 1 else 0
  if t.excluded then
    if good ≥ 64 then { t with excluded := false, bad := 0, good := 0 } else { t with bad := bad, good := good }
  else if bad ≥ 4 then { t with excluded := true, bad := bad, good := 0 }
  else { t with bad := bad, good := good }

/-- Log that a link became time-excluded or was readmitted (0x0201; θ in pips, signed 24 bits). -/
def State.logExclusion (s : State) (lk : Nat) (excluded : Bool) (theta : Int) : State :=
  s.logLink 0x0201 0 lk (b2n excluded + ((theta / 2) % 2 ^ 24).toNat * 2 ^ 8)

/-- The count after the single step of R46; a step that would put it below 0 leaves 0 (DESIGN CHOICE: entry STEPZERO). -/
def steppedPip (pip : Nat) (theta : Int) : Nat := ((pip : Int) + theta / 2).toNat

/-- After a backward step every multiple of 1,024 that the count reaches again gets its mark (R41); echoes are timed by the new
count. -/
def State.rewindMarks (s : State) : State :=
  s.setLinks (tabMap s.links (fun _ l =>
    { l with time := { l.time with markNo := min l.time.markNo (s.time.pip / 1024), echoAt := s.time.pip } }))

/-- Discipline to the parent's valid sample (R46, R48). -/
def State.discipline (s : State) (theta : Int) : State :=
  let t := s.time
  let near := decide (theta.natAbs ≤ 4)
  let run := if near then t.lockRun + 1 else 0
  match t.state with
  | .unlocked =>
    if !t.stepped then
      (s.setTime { t with pip := steppedPip t.pip theta, stepped := true, lockRun := 0 }).rewindMarks
    else if run ≥ 16 then s.setTime { t with state := .locked, lockRun := run, slew := theta }
    else s.setTime { t with lockRun := run }
  | .locked => s.setTime { t with lockRun := run, slew := theta }
  | .holdover =>
    if run ≥ 16 then
      (s.setTime { t with state := .locked, lockRun := run, slew := theta }).logRaise 0x0202 0 0 s.needle 0 0
    else s.setTime { t with lockRun := run }

/-- A follower takes the parent that R45 chooses, none while no link is eligible; a new parent starts the run of samples again
(R45, R48). -/
def State.reparent (s : State) : State :=
  if s.timeRole = 1 && s.time.parent != s.chooseParent then s.setTime { s.time with parent := s.chooseParent, lockRun := 0 }
  else s

/-- A change of time_state or stratum is due in the PROFILE frame of every link that carries traffic (03 R112). -/
def State.noteTime (s : State) (state : TimeState) (stratum : Nat) : State :=
  if s.time.state = state ∧ s.stratum = stratum then s
  else s.profileChanged

/-- The parent is chosen again, and a change of state or stratum noted (R45; 03 R112). -/
def State.reparented (s : State) : State := s.reparent.noteTime s.time.state s.stratum

/-- Effects of a received pip mark (R43 to R51). A mark without a sample breaks the run of marks that excludes (R50). -/
def State.receiveMark (s : State) (lk : Nat) (w : Nat) : State :=
  let l := s.link lk
  let t := l.time
  let a4 := s.pipOn (linkDie lk)
  let sm := sample t a4 (bits w 32 24) (bits w 28 4) (bits w 12 16) (s.asym lk)
  let t := { t.noteEcho a4 (bits w 28 4) (bits w 12 16) with rxSeq := some (bits w 56 4), rxStamp := a4, stratum := bits w 8 4 }
  match sm with
  | none =>
    ((s.setLink lk { l with time := { t with age := t.age + 1, bad := 0 } }).reparent).noteTime s.time.state s.stratum
  | some (theta, d) =>
    let t := { t with theta := theta, delay := d, valid := true, age := 0 }
    let t' := t.judge (2 * s.setting idPipTol 0) theta
    let s' := s.setLink lk { l with time := t' }
    let s' := if t'.excluded != t.excluded then s'.logExclusion lk t'.excluded theta else s'
    let s' := s'.reparent
    let u := if s'.timeRole = 1 && decide (s'.time.parent = some lk) then s'.discipline theta else s'
    u.noteTime s.time.state s.stratum

/-- A header or tick fails its code: delineation is lost (03 R87). -/
def State.loseDelin (s : State) (lk : Nat) : State :=
  let s := s.bump .port lk pcDelin
  s.setLink lk { s.link lk with delin := false, nakOut := false }

/-- A received tick: nothing while delineation is lost; a bad code loses it; a word of another kind is not this
event. -/
def State.tickRow (s : State) (lk : Nat) (w : BitVec 64) (ok : Bool) (f : State → State) :
    Host.Outcome State Fault Refusal :=
  let l := s.link lk
  if !l.live || !l.delin then .next s
  else if !tickGood w then .next ((s.bump .port lk pcTickCrc).loseDelin lk)
  else if !ok then .next s
  else .next (f s)

/-- PIP_MARK (R37, R43 to R51, R55). -/
def execPipMark (lk : Nat) (w : BitVec 64) (s : State) : Host.Outcome State Fault Refusal :=
  s.tickRow lk w (decide (tickLead w = 14)) (fun s => s.receiveMark lk w.toNat)

/-- The residence of a mark (Table 02-2); 0xFFFF while no mark has come, the number `x` when a backward step has
put the count below the receive stamp (the spec gives no residence below 0). -/
def residence (pip : Nat) (t : LinkTime) (x : Nat) : Nat :=
  if t.rxSeq.isNone then 0xFFFF else if pip < t.rxStamp then x % 2 ^ 16 else min 0xFFFF (pip - t.rxStamp)

/-- Emit every pending tick of a link in order (R89). -/
def State.flush (s : State) (lk : Nat) : State :=
  let l := s.link lk
  l.ticks.foldl (fun s t => s.sendTick lk t.2) (s.setLink lk { l with ticks := [] })

/-- Send a LINK_STATE tick in its place among the pending ones, and all of them (R89). -/
def State.sendLinkState (s : State) (lk : Nat) (w : BitVec 64) : State :=
  (s.setLink lk ((s.link lk).post prioLinkState w)).flush lk

/-- The present total of a VC of a link's receiver. -/
def State.totalOf (s : State) (lk vc : Nat) : Nat := (s.acct (portAcct (s.phOf lk) vc)).total

/-- CREDIT ticks for a list of VCs, two to a tick (R91). -/
def State.creditTicks (s : State) (lk : Nat) : List Nat → List (BitVec 64)
  | [] => []
  | [a] => [creditWord a (s.totalOf lk a) a (s.totalOf lk a)]
  | a :: b :: r => creditWord a (s.totalOf lk a) b (s.totalOf lk b) :: s.creditTicks lk r

/-- Make CREDIT ticks of VCs pending, and clear what was due for them. -/
def State.postCredits (s : State) (lk : Nat) (vcs : List Nat) : State :=
  let ws := s.creditTicks lk vcs
  let l := s.link lk
  let s := s.setLink lk (ws.foldl (fun l w => l.post prioCredit w) l)
  vcs.foldl (fun s v =>
    let a := portAcct (s.phOf lk) v
    s.setAcct a { s.acct a with freed := 0 }) s

/-- The arrive bit that a slot shows. -/
def BarrierSlot.arriveBit (b : BarrierSlot) : Bool := b.arrived == b.phase
/-- The go bit that a slot shows. -/
def BarrierSlot.goBit (b : BarrierSlot) : Bool := b.go == b.phase
/-- The barrier tick of a slot: its number and both bits (R56). -/
def BarrierSlot.word (b : BarrierSlot) (slot : Nat) : BitVec 64 := barrierWord slot b.arriveBit b.goBit

/-- The barrier ticks that repeat the bits of every slot on a link (02, Scheduled actions); a time-excluded link takes no part
(R50). -/
def State.barrierTicks (s : State) (lk : Nat) : List (BitVec 64) :=
  if (s.link lk).time.excluded then [] else
  s.time.slots.filterMap (fun e =>
    let b := e.2
    if decide (b.parent = some lk) || b.kids.any (fun k => k.1 == lk) then some (b.word e.1) else none)

/-- The difference of R113 that stops VC1 to VC7: row route_epoch of Table 03-13, or fw_version where either side
sets fw_match_required. -/
def State.vcBlocked (s : State) (lk : Nat) : Bool :=
  let l := s.link lk
  l.disagree.getLsbD 1 || (l.disagree.getLsbD 3 && (decide (s.setting idFwMatch 0 = 1) || bit (fieldAt l.profCell 2 1) 1))

/-- VCs on which this receiver has an allowance and may return credits (03 R94, R113). -/
def State.creditVcs (s : State) (lk : Nat) : List Nat :=
  (List.range 8).filter (fun v => (s.acct (portAcct (s.phOf lk) v)).given && (decide (v = 0) || !s.vcBlocked lk))

/-- The ticks that go with a pip mark: repeated DONE (03 R107), barrier bits and credit totals (03 R94). -/
def State.markCompanions (s : State) (lk : Nat) : State :=
  let l := s.link lk
  let l := match l.rx.moved with
    | some k => if l.doneRepeats > 0 then { l.post prioSwap (swapWord 2 k false) with doneRepeats := l.doneRepeats - 1 } else l
    | none => l
  let l := (s.barrierTicks lk).foldl (fun l w => l.post prioBarrier w) l
  let s := s.setLink lk l
  s.postCredits lk (s.creditVcs lk)

/-- PIP_MARK_SEND (R41, R42; 03 R89, R94): once for each multiple of 1,024 that the count reaches. While no mark has come
echo_seq is 0 (DESIGN CHOICE: entry ECHO0). -/
def execPipMarkSend (lk : Nat) (s : State) : Host.Outcome State Fault Refusal :=
  let l := s.link lk
  let t := l.time
  if !l.sends || decide (s.time.pip / 1024 ≤ t.markNo) then .next s
  else
    let a1 := s.pipOn (linkDie lk)
    let x := if t.rxSeq.isSome && decide (a1 < t.rxStamp) then s.fresh else (0, s)
    let w := markWord t.markSeq a1 (t.rxSeq.getD 0) (residence a1 t x.1) s.stratum
    let s := x.2
    let t := { t with markSeq := (t.markSeq + 1) % 16, sent := t.sent + 1, markNo := s.time.pip / 1024,
                      txStamps := tabPut t.txStamps (t.markSeq % 16) a1 }
    let s := s.setLink lk ({ l with time := t }.post prioMark w)
    .next ((s.markCompanions lk).flush lk)

/-- HOLDOVER_ENTER (R45, R48): a LOCKED follower without an eligible link. -/
def execHoldoverEnter (s : State) : Host.Outcome State Fault Refusal :=
  if s.timeRole = 1 && decide (s.time.state = .locked) && s.chooseParent.isNone then
    .next (((s.setTime { s.time with state := .holdover, parent := none, lockRun := 0 }).logRaise
      0x0202 0 0 s.needle 0 1).noteTime s.time.state s.stratum)
  else .next s

/-- The bits of a barrier slot after a tick from a link (02 R57): a child's arrive bit, or the parent's go. A slot that no launch uses
takes the parent's go bit for both of its own once no member can still start by it, so that the next launch's phase differs from
them (DEDUCED: entry BARRIER). -/
def BarrierSlot.hear (b : BarrierSlot) (lk pip : Nat) (arrive go : Bool) : BarrierSlot :=
  let b := { b with kids := b.kids.map (fun k => if k.1 = lk then (lk, arrive) else k) }
  if b.parent ≠ some lk then b
  else if !b.busy then (if pip < b.quiet then b else { b with phase := go, arrived := true, go := true })
  else if go == b.phase && b.goAt.isNone then { b with go := true, goAt := some pip }
  else b

/-- Post a slot's bits on a link, unless it is time-excluded (R50). -/
def State.postBarrier (s : State) (lk slot : Nat) (b : BarrierSlot) : State :=
  if (s.link lk).time.excluded then s else s.setLink lk ((s.link lk).post prioBarrier (b.word slot))

/-- A tick whenever a bit changes (R56): the arrive bit toward the parent, the go bit to the children. -/
def State.postChanges (s : State) (slot : Nat) (old new : BarrierSlot) : State :=
  let s := if old.arriveBit != new.arriveBit then new.parent.toList.foldl (fun s p => s.postBarrier p slot new) s else s
  if old.goBit != new.goBit then new.kids.foldl (fun s c => s.postBarrier c.1 slot new) s else s

/-- A slot takes new bits, and shows the change. -/
def State.setBarrier (s : State) (slot : Nat) (old new : BarrierSlot) : State :=
  (s.setTime { s.time with slots := tabPut s.time.slots slot new }).postChanges slot old new

/-- The go of a slot's launch is late for this member (R52, R59): stamped at its limit or after. -/
def State.goLate (s : State) (b : BarrierSlot) : Bool :=
  match tabGet? s.pat.launches b.launch with
  | some l => decide (l.target + s.setting idBarrierTo 0 + 4096 ≤ s.time.pip)
  | none => false

/-- BARRIER tick (R57, R59): go is passed to the children as soon as it is received; a time-excluded link takes no
part (R50). -/
def execBarrier (lk : Nat) (w : BitVec 64) (s : State) : Host.Outcome State Fault Refusal :=
  s.tickRow lk w (tickIs w 6) (fun s =>
    let k := bits w.toNat 53 3
    match tabGet? s.time.slots k with
    | none => s
    | some b =>
      if (s.link lk).time.excluded then s
      else
        let b' := b.hear lk s.time.pip (bit w.toNat 52) (if b.busy && s.goLate b then !b.phase else bit w.toNat 51)
        s.setBarrier k b b')

end Sys2Proof.Machine
end

