-- ==== Sys2Proof/Machine/Sensors.lean ====
section
/-! DEFINITION. What many units consult: temperatures, requesters withdrawn by the budget manager, Skeins in reset, the two
digests (15 R421, R432; 06 R194; 04 R143; 18 R516; 19 R520, R521). -/

namespace Sys2Proof.Machine

open Sys2Proof

/-! ### Temperatures -/

/-- The TELEM positions of a domain's sensors: a Skein's with those of its DRAM dies, or a port die's. -/
def domSensors (x : Nat) : List Nat :=
  if x < 4 then (List.range 64).map (64 * x + ·) ++ (List.range 4).map (256 + 4 * x + ·)
  else (List.range 16).map (272 + 16 * (x - 4) + ·)

/-- With the sensors that act on the domain: a photonic engine's on its port die (R432). -/
def actSensors (x : Nat) : List Nat :=
  if x < 4 then domSensors x else domSensors x ++ (List.range 4).map (336 + 4 * (x - 4) + ·)

/-- A sensor's reading while it is valid. -/
def State.reading (s : State) (i : Nat) : Option Int := if s.pwr.badSensors.contains i then none else tabGet? s.pwr.sensors i

/-- The highest valid reading of sensors. -/
def State.hottest (s : State) (l : List Nat) : Option Int :=
  (l.filterMap s.reading).foldl (fun a v => match a with | none => some v | some b => some (max b v)) none

/-- T_hot of a domain, and the reading that decides its level. -/
def State.tHot (s : State) (x : Nat) : Option Int := s.hottest (domSensors x)
def State.tAct (s : State) (x : Nat) : Option Int := s.hottest (actSensors x)

/-- A temperature at or above a limit in °C. -/
def atLeast (t : Option Int) (c : Int) : Bool := match t with | some v => decide (c * 64 ≤ v) | none => false

/-- A ledger change is refused for now (18 R516): a domain at 100 °C or above. A record is programmed within its command, so
that no other is ever in progress. -/
def State.fuseBusy (s : State) : Bool := (List.range 8).any (fun x => atLeast (s.tAct x) 100)

/-! ### Resets in progress -/

/-- A reset of a scope and unit has begun and not ended. -/
def State.inReset (s : State) (scope unit : Nat) : Bool :=
  s.boot.jobs.any (fun j => j.begun && j.scope == scope && j.unit == unit)

/-- A Skein in a reset of SKEIN scope (04 R143). -/
def State.skeinDown (s : State) (k : Nat) : Bool := s.inReset 2 k

/-! ### The digests (19 R520, R521) -/

/-- Sentinel settings of a Skein. -/
def State.sentSet (s : State) (k : Nat) : SentSet := tabGet s.integ.sent {} k

/-- The sentinel word of Table 19-1. -/
def SentSet.word (z : SentSet) : Nat := z.enable % 2 + z.k % 32 * 2 + z.fuse % 2 * 64 + z.offset % 256 * 2 ^ 8 + z.retireAt % 2 ^ 16 * 2 ^ 16

/-- The record of Table 19-1. -/
def State.profileRecord (s : State) : List Byte :=
  let id := s.devIdent
  padTo 64 (leBytes 1 1 ++ leBytes 1 (bits id 0 4) ++ leBytes 1 (bits id 8 8) ++ leBytes 1 (bits id 4 4) ++ leBytes 4 0 ++
    (List.range 4).flatMap (fun k => leBytes 4 (s.setting idSplit k)) ++ leBytes 8 (s.setting idDiceSeed 0) ++
    (List.range 4).flatMap (fun k => leBytes 4 (s.sentSet k).word))

/-- profile_digest (R520). -/
def State.profileDigest (s : State) : Nat := crc64 s.profileRecord

/-- The bitmap of absent and retired Stitches (R521). -/
def State.unitMap (s : State) : Nat :=
  let r := (s.integ.retired ++ (s.sec.fusedRetired.filter (fun r => !r.torn)).map (·.key)).foldl
    (fun (m : BitVec 1024) st => m ||| (1#1024 <<< st)) s.sec.disabled
  r.toNat

/-- The 132 bytes of R521. -/
def State.unitRecord (s : State) : List Byte :=
  let b := decide (s.sec.grade = .b)
  leBytes 128 s.unitMap ++
  leBytes 4 ((if b then 0 else 0xFF) + (if s.sec.grade = .n then 0 else 2 ^ 8))

/-- unit_map_digest (R521). -/
def State.unitMapDigest (s : State) : Nat := crc64 s.unitRecord

end Sys2Proof.Machine
end

