-- ==== Sys2Proof/Machine/LinkRx.lean ====
section
/-! DEFINITION. The receiving side of a link and its flow control: CREDIT, ACK, NAK, SKIP, profiles, and the ticks that answer
them (03 R82 to R103, R112 to R114). -/

namespace Sys2Proof.Machine

open Sys2Proof

/-- A link reset at PORT scope follows a torn credit or sequence count (17 Table 17-1). -/
def State.linkTorn (s : State) (lk : Nat) : Option Nat :=
  if s.torn rowCredit lk 0 then some rowCredit else if s.torn rowLsn lk 0 then some rowLsn else none

/-- The critical-state error of a link's counts. -/
def State.linkCritical (s : State) (lk row : Nat) : State := s.critical row lk 0 3 (lk / 2) (srcOf 4 lk)

/-- Log a discard of 0x0303 (17 Table 17-4). -/
def State.logDiscard (s : State) (lk cause : Nat) (f : Frame) : State :=
  s.logLink 0x0303 2 lk (f.src + f.dst * 2 ^ 20 + cause * 2 ^ 40)

/-- Post the NAK that a receiver owes, unless one is outstanding (R97) or a lost lane holds it back (R108); `prio` is its place
among pending ticks. -/
def State.nakWith (s : State) (prio lk cause : Nat) : State :=
  let l := s.link lk
  if l.nakOut then s
  else if l.rxHold.isSome || l.rxSwap.any (·.lost) then s.setLink lk { l with nakHeld := some cause }
  else
    (s.bump .port lk pcNakSent).setLink lk
      ({ l with nakOut := true }.post prio (nakWord l.expected cause))

/-- Post the NAK that a receiver owes in its own place (R89). -/
def State.nak (s : State) (lk cause : Nat) : State := s.nakWith prioNak lk cause

/-! ### Flow control and replay -/

/-- Take the totals of a CREDIT tick (R91, R93). -/
def Link.credit (l : Link) (vc total : Nat) : Link :=
  let l := { l with total := tabPut l.total vc total }
  { l with allow := tabPut l.allow vc (max (tabGet l.allow 0 vc) (l.credits vc)) }

/-- CREDIT (R91, R93). -/
def rowCreditTick (lk : Nat) (w : BitVec 64) (s : State) : Host.Outcome State Fault Refusal :=
  s.tickRow lk w (tickIs w 1) (fun s =>
    if s.torn rowCredit lk 0 then (s.linkCritical lk rowCredit)
    else
      let x := w.toNat
      s.setLink lk (((s.link lk).credit (bits x 53 3) (bits x 37 16)).credit (bits x 34 3) (bits x 18 16)))

/-- Enter UP, or NARROW where a direction is narrow, once both halves of R113 hold. -/
def State.tryUp (s : State) (lk : Nat) : State :=
  let l := s.link lk
  if l.state = .profile && l.profGot && l.profAcked then
    let st := if l.tx.width = 0 && l.rx.width = 0 then LinkState.up else LinkState.narrow
    let s := s.setBuf { s.buf with cut := s.buf.cut.erase lk }
    ((s.setLink lk { l with state := st, since := s.time.pip, attempts := 0, downSince := none }).irqAll 4).reparented
  else s

/-- Drop what an ACK covers (R96, R98); a replay in progress goes on after it. -/
def Link.ack (l : Link) (lsn pip : Nat) : Link :=
  let keep := l.replay.filter (fun x => decide (lsnDiff x.lsn lsn > 0))
  let l := { l with adv := if keep.length < l.replay.length then pip else l.adv, replay := keep,
                    skips := l.skips.filter (fun k => decide (lsnDiff k.1 lsn > 0)) }
  let l := match l.resendFrom with
    | some n => if lsnDiff n lsn ≤ 0 then { l with resendFrom := keep.head?.map Sent.lsn } else l
    | none => l
  match l.profLsn with
  | some n => if lsnDiff lsn n ≥ 0 then { l with profAcked := true } else l
  | none => l

/-- A lost lane holds back frames and replays (R108, R109). -/
def Link.held (l : Link) : Bool := l.txHold.isSome || l.txSwap.any (·.lost)

/-- The first frame of the replay buffer after an lsn (R100). -/
def Link.nextReplay (l : Link) (lsn : Nat) : Option Nat :=
  (l.replay.find? (fun y => decide (lsnDiff y.lsn lsn > 0))).map Sent.lsn

/-- An uncorrectable word of a frame in the replay buffer is logged (17 Table 17-2). -/
def State.noteReplayUe (s : State) (lk lsn : Nat) : State :=
  if s.siteUe (.replay lk lsn) then
    (s.dropSite (.replay lk lsn)).logRaise 0x1101 2 0xD (srcOf 4 lk) 0 (lsn + 3 * 2 ^ 48)
  else s

/-- Replay from a frame: it counts one replay unless a lost lane suspends the count (R100, R108); one that has been
replayed 3 times, or that has an uncorrectable word (17 Table 17-2), is discarded with a SKIP, and one already skipped gets its SKIP
again (R103); the frames after it follow. -/
def State.replayFrom (s : State) (lk lsn : Nat) : State :=
  let l := s.link lk
  match l.replay.find? (·.lsn == lsn) with
  | none =>
    (match l.skips.find? (·.1 == lsn) with
     | none => s
     | some k => (s.bump .port lk pcSkipSent).setLink lk
         ({ l with resendFrom := l.nextReplay lsn }.post prioSkip (skipWord k.1 k.2.1 k.2.2)))
  | some x =>
    if l.held then s.setLink lk { l with resendFrom := some lsn }
    else if decide (x.replays ≥ 3) || s.siteUe (.replay lk lsn) then
      let k := (lsn, x.f.vc, x.f.n + 1)
      (((s.noteReplayUe lk lsn).bump .port lk pcSkipSent).setLink lk
        ({ l with replay := l.replay.filter (·.lsn != lsn), skips := l.skips ++ [k], resendFrom := l.nextReplay lsn }.post
          prioSkip (skipWord k.1 k.2.1 k.2.2)))
    else
      (s.bump .port lk pcReplay).setLink lk
        { l with resendFrom := some lsn,
                 replay := l.replay.map (fun y => if y.lsn = lsn then { y with replays := y.replays + 1 } else y) }

/-- NAK (R100, R103). Every NAK counts as an advance for R102 (DESIGN CHOICE: entry NAKADV). -/
def execNak (lk : Nat) (w : BitVec 64) (s : State) : Host.Outcome State Fault Refusal :=
  s.tickRow lk w (tickIs w 3) (fun s =>
    let s := s.bump .port lk pcNakRecv
    (s.setLink lk { s.link lk with adv := s.time.pip }).replayFrom lk (bits w.toNat 32 24))

/-- REPLAY_TIMEOUT (R102): nothing has advanced for replay_timeout since the oldest frame was sent. -/
def execReplayTimeout (lk : Nat) (s : State) : Host.Outcome State Fault Refusal :=
  let l := s.link lk
  match l.replay with
  | [] => .next s
  | x :: _ =>
    if l.live && decide (max x.stamp l.adv + s.linkSetting idReplayTo lk * 1000 ≤ s.time.pip) then
      .next ((s.setLink lk { l with adv := s.time.pip }).replayFrom lk x.lsn)
    else .next s

/-- SKIP (R103): a receiver that expects the lsn goes past it and frees the credits. -/
def execSkip (lk : Nat) (w : BitVec 64) (s : State) : Host.Outcome State Fault Refusal :=
  s.tickRow lk w (tickIs w 4) (fun s =>
    let l := s.link lk
    if bits w.toNat 32 24 = l.expected then
      let a := portAcct (s.phOf lk) (bits w.toNat 29 3)
      let s := (s.bump .port lk pcSkipRecv).setLink lk { l with expected := (l.expected + 1) % 2 ^ 24, ackDue := true }
      let x := s.acct a
      (s.setAcct a { x with o := x.o - bits w.toNat 21 8 }).advertise a
    else s)

/-- ACK_SEND (R89, R98). -/
def execAckSend (lk : Nat) (s : State) : Host.Outcome State Fault Refusal :=
  let l := s.link lk
  if l.sends && l.ackDue then
    .next ((s.setLink lk ({ l with ackDue := false }.post prioAck (ackWord ((l.expected + 2 ^ 24 - 1) % 2 ^ 24)))).flush lk)
  else .next s

/-- CREDIT_SEND (R89, R91, R94; 04 R130, R131): the VCs on which credits were made available since the last tick. -/
def execCreditSend (lk : Nat) (s : State) : Host.Outcome State Fault Refusal :=
  let due := (List.range 8).filter (fun v => decide ((s.acct (portAcct (s.phOf lk) v)).freed ≠ 0) &&
    (decide (v = 0) || !s.vcBlocked lk))
  if (s.link lk).sends && !due.isEmpty then .next ((s.postCredits lk due).flush lk) else .next s

/-- IDLE (R89): a word with nothing to say. -/
def execIdle (lk : Nat) (w : BitVec 64) (s : State) : Host.Outcome State Fault Refusal :=
  s.tickRow lk w (tickIs w 0) id

/-- RESERVED_TICK (R88): discarded and counted. -/
def execReservedTick (lk : Nat) (w : BitVec 64) (s : State) : Host.Outcome State Fault Refusal :=
  s.tickRow lk w (decide (tickLead w = 15) && decide (tickKind w ≥ 9)) (fun s => s.bump .port lk pcBadTick)

/-! ### Profiles (03 R112 to R114) -/

/-- The profile cell of this device (Table 03-12). -/
def State.profileCell (s : State) : List Byte :=
  padTo 64 (leBytes 1 1 ++ leBytes 1 1 ++ leBytes 1 (1 + 2 * s.setting idFwMatch 0) ++ leBytes 1 s.route.routeEpoch ++
    leBytes 4 s.boot.fwVersion ++ leBytes 8 s.profileDigest ++ leBytes 8 s.unitMapDigest ++ leBytes 8 s.time.pip ++
    leBytes 4 s.devFid ++ leBytes 1 s.time.state.code ++ leBytes 1 s.stratum)

/-- The fields of a profile frame but for its own stamp: a change is sent within 4,096 pips (R112). -/
def State.profileFields (s : State) : List Byte := s.profileCell.take 24 ++ s.profileCell.drop 32

/-- The disagreement bits of Table 03-13 for a received cell: 0 time, 1 route_epoch, 2 digests, 3 fw_version. -/
def State.disagreement (s : State) (lk stamp : Nat) (cell : List Byte) : BitVec 4 :=
  let l := s.link lk
  let both := fieldAt cell 1 1 == 1
  let off : Int := 2 * ((fieldAt cell 24 8 : Nat) : Int) + l.time.delay - 2 * stamp
  let t := bit (fieldAt cell 2 1) 0 && decide (s.time.state ≠ .unlocked) && decide (off.natAbs > 2 * s.settingAt stamp idPipTol 0)
  let e := both && decide ((fieldAt cell 3 1 % 4 + 4 - s.route.routeEpoch) % 4 = 2)
  let d := both && (fieldAt cell 8 8 != s.profileDigest || fieldAt cell 16 8 != s.unitMapDigest)
  let v := both && fieldAt cell 4 4 != s.boot.fwVersion
  BitVec.ofNat 4 (b2n t + 2 * b2n e + 4 * b2n d + 8 * b2n v)

/-- Log the disagreements that begin or end in the rows 1 to 3 (R113; 0x0304). -/
def State.logDisagree (s : State) (lk : Nat) (old new : BitVec 4) (dProfile dMap : Bool) (fw : Nat) : State :=
  [1, 2, 3].foldl (fun s r =>
    if old.getLsbD r == new.getLsbD r then s
    else s.logLink 0x0304 0 lk (r + b2n (new.getLsbD r) * 4 + b2n dProfile * 8 + b2n dMap * 16 + fw * 2 ^ 16)) s

/-- The comparisons of Table 03-13 with the last accepted profile of a link that is UP or NARROW (R113). The delay allowed for is the
last one that the link has kept, 0 on one that never had a sample (DESIGN CHOICE: entry PROFDELAY). -/
def State.compareProfile (s : State) (lk : Nat) : State :=
  let l := s.link lk
  match l.profStamp with
  | none => s
  | some stamp =>
    if !l.carries then s
    else
      let cell := l.profCell
      let new := s.disagreement lk stamp cell
      let s := s.logDisagree lk l.disagree new (fieldAt cell 8 8 != s.profileDigest)
        (fieldAt cell 16 8 != s.unitMapDigest) (fieldAt cell 4 4)
      let s := s.setLink lk { s.link lk with disagree := new }
      if new.getLsbD 0 && !l.time.excluded then
        let off : Int := 2 * ((fieldAt cell 24 8 : Nat) : Int) + l.time.delay - 2 * stamp
        ((s.setLink lk { s.link lk with time := { (s.link lk).time with excluded := true, bad := 0, good := 0 } }).logExclusion
          lk true off).reparented
      else s

/-- The go delay of this device from the root of a group's tree and the largest of the tree, from the calibrated link delays: 0 at
the root, and no largest delay in a tree of one device; the spec gives no figures for what other devices calibrate (02 R57; free
values, entry GODELAY). -/
def State.drawGo (s : State) (g : Group) : State × Group :=
  if g.parent.isNone then
    if g.members.any (·.switch) then (s.fresh.2, { g with goDelay := 0, goSpan := s.fresh.1 })
    else (s, { g with goDelay := 0, goSpan := 0 })
  else
    let u := s.fresh.2
    (u.fresh.2, { g with goDelay := s.fresh.1, goSpan := s.fresh.1 + u.fresh.1 })

/-- A group whose tree has a link of this device. -/
def Group.onLink (g : Group) (lk : Nat) : Bool := g.parent == some lk || g.members.any (fun m => m.lk == lk)

/-- A profile exchange on a link refreshes the go delays of the groups whose trees use it (02 R57). -/
def State.refreshGo (s : State) (lk : Nat) : State :=
  (s.coll.filter (fun p => p.2.onLink lk)).foldl (fun s p =>
    let r := s.drawGo p.2
    r.1.setColl (tabPut r.1.coll p.1 r.2)) s

/-- Apply a profile cell accepted at a stamp (R113; 02 R57). -/
def State.applyProfile (s : State) (lk stamp : Nat) (cell : List Byte) : State :=
  (((s.setLink lk { s.link lk with profCell := cell, profStamp := some stamp, profGot := true }).tryUp lk).compareProfile lk).refreshGo lk

/-- ACK (R96, R113): the one that covers this side's PROFILE frame may bring the link UP, and the comparisons with the
peer's profile apply from there. -/
def execAck (lk : Nat) (w : BitVec 64) (s : State) : Host.Outcome State Fault Refusal :=
  s.tickRow lk w (tickIs w 2) (fun s =>
    let s := s.setLink lk ((s.link lk).ack (bits w.toNat 32 24) s.time.pip)
    let u := s.tryUp lk
    if (s.link lk).carries then u else u.compareProfile lk)

/-- PROFILE_FRAME (R113; 02 R50, R57): the oldest accepted PROFILE frame of a link is applied. -/
def execProfileFrame (lk : Nat) (s : State) : Host.Outcome State Fault Refusal :=
  let l := s.link lk
  match l.profPend with
  | [] => .next s
  | (stamp, cell) :: r =>
    if !l.live then .next s
    else .next ((s.setLink lk { l with profPend := r }).applyProfile lk stamp cell)

/-- PROFILE_LOSS (R114): both digests and fw_version count as differing. -/
def execProfileLoss (lk : Nat) (s : State) : Host.Outcome State Fault Refusal :=
  let l := s.link lk
  match l.profStamp with
  | none => .next s
  | some t =>
    if l.carries && decide (t + 3 * 2 ^ 20 ≤ s.time.pip) then
      let new := l.disagree ||| 12
      let s := s.logDisagree lk l.disagree new true true (fieldAt l.profCell 4 4)
      .next (s.setLink lk { s.link lk with disagree := new })
    else .next s

/-- Send a frame on a link: credits charged, numbered, kept for replay (R92, R95, R96), and the request that it carries sent (02
Table 02-3). -/
def State.transmit (s : State) (lk : Nat) (f : Frame) (stomp : Bool) : State :=
  let l := s.link lk
  let s := s.setLink lk { l with
    lsn := (l.lsn + 1) % 2 ^ 24,
    used := tabPut l.used f.vc ((tabGet l.used 0 f.vc + f.n + 1) % 2 ^ 16),
    replay := l.replay ++ [{ lsn := l.lsn, f := f, stomp := stomp, stamp := s.time.pip }] }
  (s.noteSent f).sendFrame lk l.lsn stomp f

/-- Whether a frame of n cells may start on a VC of a link (R92, R93, R96). -/
def State.roomFor (s : State) (lk vc n : Nat) : Bool :=
  let l := s.link lk
  decide (l.allowance vc ≠ 0) && decide (l.credits vc ≥ n + 1) && decide (l.replayBytes + 24 + 64 * n ≤ s.replayRoom lk)

end Sys2Proof.Machine
end

