-- ==== Sys2Proof/Machine/LinkTrain.lean ====
section
/-! DEFINITION. Training, alignment markers, spare lanes and NARROW operation of a link (03 R71 to R79, R105 to
R111; 04 R139). -/

namespace Sys2Proof.Machine

open Sys2Proof

/-- Pips of a millisecond. -/
def ms : Nat := 1000000

/-- A port or half-port changes state: IRQ_STATUS bit 4 (16 Table 16-4). -/
def State.linkTo (s : State) (lk : Nat) (st : LinkState) : State :=
  let t := s.setLink lk { s.link lk with state := st, since := s.time.pip }
  if (s.link lk).state = st then t else t.irqAll 4

/-- Return the earmarks of a link's port accounts and restart their counts (R91; 04 R139). -/
def State.dropEarmarks (s : State) (lk : Nat) : State :=
  (List.range 8).foldl (fun s v =>
    let a := portAcct (s.phOf lk) v
    s.setAcct a { s.acct a with o := 0, total := 0, freed := 0, given := false }) s

/-- The link record after leaving UP: counts, replay buffer and profile exchange restart. The
last accepted profile, the count of failed attempts and a drain that has begun (R116) stay. -/
def Link.cleared (l : Link) (pip : Nat) : Link :=
  { l with delin := true, nakOut := false, nakHeld := none, expected := 0, lsn := 0, used := [], total := [],
           allow := [], replay := [], resendFrom := none, skips := [], ticks := [], ackDue := false,
           profAcked := false, profGot := false, profLsn := none, profPend := [],
           profDue := false, disagree := 0, txSwap := none, rxSwap := none, doneRepeats := 0,
           berRun := [], locked := false, fecS := false, txHold := none, rxHold := none, peer := {}, tx := {}, rx := {}, narrowTo := none,
           offSince := none, time := { l.time with valid := false, rxSeq := none, txStamps := [], base := l.time.sent, echoNo := none },
           sent := [], switchIn := 0, eq := [], ownTrain := 0, ownRun := 0,
           downSince := if l.carries then some pip else l.downSince }

/-- Leave UP, NARROW or training for another state: earmarks return (04 R139), unacknowledged frames are dropped
and counted (16 R469), a swap ordered by a command ends with ST_ABORTED, disagreements with the peer's profile end (R113), and a follower
that had it as parent chooses again (02 R45). It may have been in the middle of a frame (04 R127). -/
def State.leave (s : State) (lk : Nat) (st : LinkState) : State :=
  let l := s.link lk
  let s := match l.rxSwap with | some { ticket := some t, .. } => s.finish t .aborted [] | _ => s
  let s := (s.dropEarmarks lk).bumpBy .port lk pcDrained l.replay.length
  let s := s.logDisagree lk l.disagree 0 false false (fieldAt l.profCell 4 4)
  let s := if l.carries then s.setBuf { s.buf with cut := addNew s.buf.cut lk } else s
  ((s.setLink lk (l.cleared s.time.pip)).linkTo lk st).reparented

/-- Start an attempt at SIGNAL (R75). -/
def State.startTraining (s : State) (lk : Nat) : State := s.leave lk .signal

/-- A failed attempt (R75): transmitters off for 1 ms, or FAILED after 16 in a row. -/
def State.failAttempt (s : State) (lk : Nat) : State :=
  let n := (s.link lk).attempts + 1
  let s := s.leave lk (if n ≥ 16 then .failed else .dark)
  let s := s.setLink lk { s.link lk with attempts := n, offSince := if n ≥ 16 then none else some s.time.pip }
  if n ≥ 16 then s.logLink 0x0301 2 lk n else s

/-- The latest record of the fuse ledger for a port and direction: the position out of service, 7 for none (R110). -/
def State.fusePos (s : State) (port dir : Nat) : Nat :=
  match (s.sec.spares.filter (fun r => r.key == 2 * port + dir && !r.torn)).getLast? with
  | some r => r.val | none => 7

/-- The positions out of service for this transmitter: that of the ledger, and those whose laser fibre is dark (R106, R110;
20 R556). -/
def State.txOut (s : State) (lk : Nat) : List Nat :=
  s.fusePos (lk / 2) 0 :: (s.boot.darkFibres.filter (fun x => x / 5 == lk / 16)).map (· % 5)

/-- The lanes of a direction that avoids positions (R79), first the one that the transmitter's tx_out names and second the one that
the receiver's rx_out names, so that both ends take the same second lost lane (DESIGN CHOICE: entry SECONDLANE); `none` when a
half-port avoids two. -/
def lanesFor (half : Bool) (avoid : List Nat) : Option Lanes :=
  match avoid.eraseDups.filter (· < 5) with
  | [] => some {}
  | [p] => some (if p = 4 then { lost := [4] } else { moved := some p, lost := [p] })
  | p :: q :: _ =>
    if half then none
    else
      let lost := if q = 4 then p else q
      let w := if lost < 2 then 2 else 1
      some (if p = 4 || q = 4 then { width := w, lost := [p, q] }
            else { width := w, moved := some p, lost := [p, q] })

/-- This side's request for FEC-S (R77); `ber` is the least k for which the measured ratio exceeds 10^-k. -/
def State.wantsFecS (s : State) (lk : Nat) : Bool :=
  let m := s.linkSetting idFecMode lk
  m = 2 || (m = 0 && decide ((s.link lk).ber ≤ 6))

/-- The step of the TRAIN ticks that a training state sends (Table 03-4). -/
def trainStep : LinkState → Option Nat | .signal => some 1 | .equalize => some 2 | .config => some 3 | _ => none

/-- The equaliser of this transmitter after a request of the peer for a position (Table 03-9): the preset, and one step of the
pre-cursor, post-cursor or main tap. -/
def hearEq (t : Tab Int) (pos preset req : Nat) : Tab Int :=
  let t := tabPut t (4 * pos) (preset : Int)
  let k := 4 * pos + (req + 1) / 2
  if 1 ≤ req ∧ req ≤ 6 then tabPut t k (tabGet t 0 k + (if req % 2 = 1 then 1 else -1)) else t

/-- The link record after a TRAIN tick (R74, Table 03-9): what the peer says, the run of equal CONFIG values, and the equaliser
that it asks for. -/
def Link.hearTrain (l : Link) (w : Nat) (locked : Bool) (ber : Nat) : Link :=
  let p : Peer := { rxReady := bit w 48, fecCap := bits w 38 2, fecReq := bits w 36 2, split := bit w 35,
                    spareCap := bit w 34, txOut := bits w 31 3, rxOut := bits w 28 3 }
  let same := p == { l.peer with rxReady := p.rxReady, agreed := 0 }
  let n := if bits w 52 4 = 3 then (if same then l.peer.agreed + 1 else 1) else 0
  { l with peer := { p with agreed := n }, locked := locked, ber := ber,
           eq := if bits w 52 4 = 2 then hearEq l.eq (bits w 49 3) (bits w 44 4) (bits w 40 4) else l.eq }

/-- What this side says in its TRAIN ticks (R74, R77, R78, R110): the Oluac has both FEC modes and can use the spare. -/
def State.trainBody (s : State) (lk : Nat) : TrainBody :=
  { rxReady := (s.link lk).locked, fecReq := if s.wantsFecS lk then 2 else 1, split := s.splitIn s.cfg.vals (lk / 2),
    txOut := ((s.txOut lk).find? (· < 5)).getD 7, rxOut := s.fusePos (lk / 2) 1 }

/-- The other half-port of a split port. -/
def otherHalf (lk : Nat) : Nat := if lk % 2 = 0 then lk + 1 else lk - 1

/-- The positions on which a link trains: its own and L4, which half-port a drives for both unless half-port b holds it (R111), but
for those out of service. -/
def State.trainPositions (s : State) (lk : Nat) : List Nat :=
  let own := if lk % 2 = 0 then (if (s.link (otherHalf lk)).tx.moved.isSome then [0, 1] else [0, 1, 4]) else [2, 3]
  (if s.splitIn s.cfg.vals (lk / 2) then own else [0, 1, 2, 3, 4]).filter (fun p => !(s.txOut lk).contains p)

/-- One TRAIN tick on every position in use (R74). What the receiver asks of the peer's equaliser in EQUALIZE is a free value (DESIGN CHOICE: entry
EQREQ). In CONFIG the run of ticks with the same values goes on (Table 03-4). -/
def State.sendTrain (s : State) (lk : Nat) : State :=
  match trainStep (s.link lk).state with
  | none => s
  | some step =>
    let b := s.trainBody lk
    let own := (trainWord 3 0 { b with rxReady := false }).toNat
    let l := s.link lk
    let run := if step = 3 then (if l.ownTrain = own then l.ownRun + 1 else 1) else 0
    let s := s.setLink lk { l with ownTrain := own, ownRun := run }
    (s.trainPositions lk).foldl (fun s p =>
      let r := if step = 2 then s.fresh else (0, s)
      r.2.emit (.tick lk (trainWord step p { b with preset := r.1 % 16, request := r.1 / 16 % 7 }))) s

/-- Enter PROFILE with the agreed FEC mode, lanes and fresh counts; fail the attempt where the sides disagree on
split mode or a half-port avoids two positions (R77 to R79, R91, R95). What this side requests, and the positions that it names, are
those of the TRAIN ticks that it sent. A half-port has two positions of its own and L4, unless
the other half holds L4 (R67, R111). -/
def State.enterProfile (s : State) (lk : Nat) : State :=
  let l := s.link lk
  let split := s.splitIn s.cfg.vals (lk / 2)
  let fecS := bits l.ownTrain 36 2 == 2 || l.peer.fecReq == 2 || !bit l.peer.fecCap 0
  let tx4 := split && (s.link (otherHalf lk)).tx.moved.isSome
  let rx4 := split && (s.link (otherHalf lk)).rx.moved.isSome
  let out (taken : Bool) (avoid : List Nat) : List Nat :=
    (avoid ++ (if taken then [4] else [])).filter (fun p => !split || decide (p = 4) || decide (p / 2 = lk % 2))
  match lanesFor split (out tx4 [bits l.ownTrain 31 3, l.peer.rxOut]),
    lanesFor split (out rx4 [l.peer.txOut, bits l.ownTrain 28 3]) with
  | some tx, some rx =>
    if split != l.peer.split then s.failAttempt lk
    else
      let s := (s.setLink lk { l with fecS := fecS, tx := tx, rx := rx, profDue := true, switchIn := 2, expected := 0, lsn := 0,
                                      used := [], total := [], allow := [] }).linkTo lk .profile
      (List.range 8).foldl (fun s v => s.advertise (portAcct (s.phOf lk) v)) s
  | _, _ => s.failAttempt lk

/-- CONFIG ends once both sides have sent the same values in 8 consecutive ticks (Table 03-4). -/
def State.tryProfile (s : State) (lk : Nat) : State :=
  let l := s.link lk
  if l.state = .config && decide (l.peer.agreed ≥ 8) && decide (l.ownRun ≥ 8) then s.enterProfile lk else s

/-- TRAIN (R71, R74, R77 to R79, R87, R110): `locked` says that every position in use is locked, `ber` is the measured
ratio of the worst lane. A side that goes on training answers with TRAIN ticks of its own. -/
def execTrain (lk : Nat) (w : BitVec 64) (locked : Bool) (ber : Nat) (s : State) : Host.Outcome State Fault Refusal :=
  let l := s.link lk
  if (trainStep l.state).isNone || !l.delin then .next s
  else if !tickGood w then .next ((s.bump .port lk pcTickCrc).loseDelin lk)
  else if !tickIs w 7 then .next s
  else
    let step := bits w.toNat 52 4
    let l' := l.hearTrain w.toNat locked ber
    let s' := s.setLink lk l'
    let ready := locked && l'.peer.rxReady
    match l.state with
    | .signal => .next ((if ready then s'.linkTo lk .equalize else s').sendTrain lk)
    | .equalize => .next ((if ready && decide (step ≥ 2) then s'.linkTo lk .config else s').sendTrain lk)
    | _ =>
      let t := s'.tryProfile lk
      .next (if (t.link lk).state = .config then (t.sendTrain lk).tryProfile lk else t)

/-- The limit of a training state in pips (Table 03-4). -/
def trainLimit : LinkState → Option Nat
  | .signal | .profile => some (2 * ms) | .equalize => some (10 * ms) | .config => some ms | _ => none

/-- TRAINING_LIMIT_EXPIRY (R75; 04 R139). -/
def execTrainingLimitExpiry (lk : Nat) (s : State) : Host.Outcome State Fault Refusal :=
  let l := s.link lk
  match trainLimit l.state with
  | some n => if l.since + n ≤ s.time.pip then .next (s.failAttempt lk) else .next s
  | none => .next s

/-- TRAINING_RESTART (R75): 1 ms after the transmitters went off. -/
def execTrainingRestart (lk : Nat) (s : State) : Host.Outcome State Fault Refusal :=
  match (s.link lk).offSince with
  | some t => if t + ms ≤ s.time.pip then .next (s.startTraining lk) else .next s
  | none => .next s

/-! ### Link state ticks -/

/-- RETRAIN_REQ (R88, Table 03-9; 04 R139): the link leaves UP and trains again. -/
def execRetrainReq (lk : Nat) (w : BitVec 64) (s : State) : Host.Outcome State Fault Refusal :=
  s.tickRow lk w (tickIs w 8 && decide (bits w.toNat 52 4 = 1)) (fun s => s.startTraining lk)

/-- GOING_DARK (R116; 04 R139): the peer goes dark; an ARMED port trains again. -/
def execGoingDark (lk : Nat) (w : BitVec 64) (s : State) : Host.Outcome State Fault Refusal :=
  s.tickRow lk w (tickIs w 8 && decide (bits w.toNat 52 4 = 2)) (fun s =>
    if s.setting idAdmin (lk / 2) = 1 then s.startTraining lk else s.leave lk .dark)

/-- Log a lane event (0x0302): 0 a swap, 1 NARROW, 2 a spare lost. -/
def State.logLane (s : State) (lk event lane pos : Nat) : State :=
  s.logLink 0x0302 1 lk (event + lane % 4 * 4 + pos * 16)

/-- NARROW (R109): the transmitter stripes over the named pair from the next marker, and the hold of R108 goes to there. Half-ports do
not narrow. -/
def execNarrow (lk : Nat) (w : BitVec 64) (s : State) : Host.Outcome State Fault Refusal :=
  s.tickRow lk w (tickIs w 8 && decide (bits w.toNat 52 4 = 3)) (fun s =>
    let l := s.link lk
    let pair := bits w.toNat 50 2
    if s.splitIn s.cfg.vals (lk / 2) || decide (pair > 1) then s
    else
      let s := (s.bump .port lk pcNarrow).logLane lk 1 (if pair = 0 then 2 else 0) 0
      s.setLink lk { l with narrowTo := some (pair + 1), txHold := some (s.time.pip, true) })

/-! ### Spare lanes (R105 to R110) -/

/-- Whether L4 is unused in a direction, both halves counted. -/
def State.spareFree (s : State) (lk : Nat) (rx : Bool) : Bool :=
  let d (k : Nat) : Lanes := if rx then (s.link k).rx else (s.link k).tx
  let free (k : Nat) : Bool := (d k).moved.isNone && !(d k).lost.contains 4
  let busy (k : Nat) : Bool := if rx then (s.link k).rxSwap.isSome else (s.link k).txSwap.isSome
  free lk && !busy lk && (!s.splitIn s.cfg.vals (lk / 2) || (free (otherHalf lk) && !busy (otherHalf lk)))

/-- A lane is lost with no swap possible (R109): a full port asks for the pair without it, a half-port leaves UP and
retrains. -/
def State.loseLane (s : State) (lk lane : Nat) : State :=
  let l := s.link lk
  if s.splitIn s.cfg.vals (lk / 2) then (s.logLane lk 1 lane lane).failAttempt lk
  else
    let pair := if lane < 2 then 1 else 0
    let s := (s.bump .port lk pcNarrow).logLane lk 1 lane lane
    s.setLink lk ({ l with rx := { l.rx with lost := lane :: l.rx.lost },
                           rxHold := some s.time.pip }.post prioLinkState (linkStateWord 3 pair))

/-- Ask the peer to move a lane to L4, or go on under R109 (R106, R107). -/
def State.requestSwap (s : State) (lk lane : Nat) (lost : Bool) (ticket : Option Nat) : State :=
  let l := s.link lk
  if s.spareFree lk true && l.peer.spareCap then
    (s.bump .port lk pcSwap).setLink lk
      ({ l with rxSwap := some { lane := lane, lost := lost, req := s.time.pip, ticket := ticket } }.post
        prioSwap (swapWord 1 lane lost))
  else s.loseLane lk lane

/-- Half-port a takes the spare from b when both ask in one cycle, here one pip (R107). -/
def State.yieldSpare (s : State) (lk : Nat) : State :=
  let k := otherHalf lk
  let m := s.link k
  match m.txSwap with
  | some x =>
    if s.splitIn s.cfg.vals (lk / 2) && decide (lk % 2 = 0) && !x.named && x.req == s.time.pip then
      s.setLink k { m with txSwap := none, txHold := if x.lost then some (s.time.pip, false) else m.txHold }
    else s
  | none => s

/-- LANE_SWAP_REQ (R66, R107, R108): L4 will carry the lane from a marker at least 1 µs later; with lost = 1 nothing
new is sent until DONE, or for at most 4 marker periods. A REQ with lost = 1 for the lane already asked for turns that swap into one of
a lost lane (R106). -/
def execLaneSwapReq (lk : Nat) (w : BitVec 64) (s : State) : Host.Outcome State Fault Refusal :=
  s.tickRow lk w (tickIs w 5 && decide (bits w.toNat 52 4 = 1)) (fun s =>
    let s := s.yieldSpare lk
    let l := s.link lk
    let again := l.txSwap.any (fun x => x.lane == bits w.toNat 50 2 && !x.lost) && bit w.toNat 49
    if again then s.setLink lk { l with txSwap := l.txSwap.map (fun x => { x with lost := true, req := s.time.pip }) }
    else if s.spareFree lk false && l.peer.spareCap then
      s.setLink lk { l with txSwap := some { lane := bits w.toNat 50 2, lost := bit w.toNat 49, req := s.time.pip } }
    else if bit w.toNat 49 then s.setLink lk { l with txHold := some (s.time.pip, false) }
    else s)

/-- LANE_SWAP_DONE (R107, R108): the transmitter stops modulating the old position, and L4 carries the lane; for lane 0, which L4
copies, DONE may come before a marker has named the lane. -/
def execLaneSwapDone (lk : Nat) (w : BitVec 64) (s : State) : Host.Outcome State Fault Refusal :=
  s.tickRow lk w (tickIs w 5 && decide (bits w.toNat 52 4 = 2)) (fun s =>
    let l := s.link lk
    match l.txSwap with
    | some x =>
      if x.lane = bits w.toNat 50 2 then
        s.setLink lk { l with txSwap := none, tx := { l.tx with moved := some x.lane, lost := x.lane :: l.tx.lost } }
      else s
    | none => s)

/-- A lane of the link's mode and width (R66, R67, R109). -/
def State.laneMine (s : State) (lk lane : Nat) : Bool :=
  (if s.splitIn s.cfg.vals (lk / 2) then decide (lane / 2 = lk % 2)
   else match (s.link lk).rx.width with | 1 => decide (lane < 2) | 2 => decide (2 ≤ lane) | _ => true) && decide (lane < 4)

/-- A lane that a receiver takes from its own position and has not asked to be moved (R66, R67, R109). -/
def State.laneUsed (s : State) (lk lane : Nat) : Bool :=
  let l := s.link lk
  s.laneMine lk lane && decide (l.rx.moved ≠ some lane) && decide (l.rxSwap.map Swap.lane ≠ some lane)

/-- A lane under a swap that was asked for with lost = 0 loses its signal: the REQ goes again with lost = 1 (R106). -/
def State.loseSwapped (s : State) (lk lane : Nat) : State :=
  let l := s.link lk
  match l.rxSwap with
  | some x =>
    if x.lane = lane ∧ x.lost = false then
      s.setLink lk ({ l with rxSwap := some { x with lost := true, req := s.time.pip } }.post prioSwap (swapWord 1 lane true))
    else s
  | none => s

/-- LANE_SIGNAL_LOSS (R106, R109, R110): position 4 is the spare itself; a position that carries no lane is not in use. -/
def execLaneSignalLoss (lk lane : Nat) (s : State) : Host.Outcome State Fault Refusal :=
  let l := s.link lk
  if !l.carries || decide (lane > 4) then .next s
  else if lane = 4 then
    let s := (s.setLink lk { l with rx := { l.rx with lost := 4 :: l.rx.lost } }).logLane lk 2 0 4
    .next (match l.rx.moved with | some k => s.loseLane lk k | none => s)
  else if s.laneUsed lk lane then .next (s.requestSwap lk lane true none)
  else .next (s.loseSwapped lk lane)

/-- LANE_BER_WINDOW (R106): a window of 2^20 pips ends at a position with its estimated ratio (`berExp` the least k for which
it exceeds 10^-k), uncorrectable codewords in bits 31 to 0 of `counts` and corrected symbols above them; position 4 counts for the
lane that it carries. While the swap of another lane runs none is possible, so that R109 follows. -/
def execLaneBerWindow (lk lane berExp counts : Nat) (s : State) : Host.Outcome State Fault Refusal :=
  let l := s.link lk
  if !l.carries || decide (lane > 4) then .next s
  else
    let k := s.setting (if l.fecS then idSwapBerS else idSwapBerL) (lk / 2)
    let high := decide (berExp ≤ k)
    let run := if high then tabGet l.berRun 0 lane + 1 else 0
    let uncorrectable := counts % 2 ^ 32
    let s := ((s.bumpBy .port lk lane (counts / 2 ^ 32)).bumpBy .port lk (8 + lane) uncorrectable).setLink lk
      { l with berRun := tabPut l.berRun lane run }
    let carried := if lane = 4 then l.rx.moved else if s.laneUsed lk lane then some lane else none
    match carried with
    | some j =>
      if run ≥ 2 || uncorrectable > 16 then .next (s.requestSwap lk j false none) else .next s
    | none => .next s

/-- Marker period in pips, rounded up (Table 03-2). -/
def markerPeriod (fecS : Bool) : Nat := if fecS then 6560 else 3473

/-- SWAP_REFUSED_TIMEOUT (R107, R109): no L4 marker named the lane within 3 marker periods. A PORT_SPARE_SWAP whose swap the peer
refuses ends with ST_TIMEOUT (DESIGN CHOICE: entry SWAPREFUSED). -/
def execSwapRefusedTimeout (lk : Nat) (s : State) : Host.Outcome State Fault Refusal :=
  let l := s.link lk
  match l.rxSwap with
  | some x =>
    if x.req + 3 * markerPeriod l.fecS ≤ s.time.pip then
      let s := match x.ticket with | some t => s.finish t .timeout [] | none => s
      .next ((s.setLink lk { l with rxSwap := none }).loseLane lk x.lane)
    else .next s
  | none => .next s

/-- The hold of a receiver ends, and the NAK held back goes (R108), at the place among pending ticks that `prio` says. -/
def State.endHoldWith (s : State) (prio lk : Nat) : State :=
  let l := s.link lk
  let s := s.setLink lk { l with rxHold := none, nakHeld := none }
  match l.nakHeld with | some c => s.nakWith prio lk c | none => s

/-- The hold of a receiver ends (R108). -/
def State.endHold (s : State) (lk : Nat) : State := s.endHoldWith prioNak lk

/-- LOST_LANE_HOLD_EXPIRY (R108, R109): a hold ends after 4 marker periods, at either end. -/
def execLostLaneHoldExpiry (lk : Nat) (s : State) : Host.Outcome State Fault Refusal :=
  let l := s.link lk
  let past (k : Nat) : Bool := decide (k + 4 * markerPeriod l.fecS ≤ s.time.pip)
  let tx := l.txSwap.map (fun x => if x.lost && past x.req then { x with lost := false } else x)
  let hold := if l.txHold.any (fun h => past h.1) then none else l.txHold
  let s := s.setLink lk { l with txSwap := tx, txHold := hold }
  .next (if l.rxHold.any past then s.endHold lk else s)

/-! ### Alignment markers (R72, R73, R87, R101, R107) -/

/-- am_pattern. -/
def amPattern : Nat := 0x6A2DC3F10E7B9A54

/-- The marker block of a position (Table 03-3). Multi-byte fields are sent most significant byte first
(DEDUCED: entry MARKER). -/
def markerBlock (lane pos index width : Nat) (fecS : Bool) (next : Nat) : List Byte :=
  let b := beBytes 8 amPattern ++ beBytes 1 (lane * 16 + pos) ++ beBytes 2 (index % 4096) ++
    beBytes 1 (width * 64 + (if fecS then 2 else 1) * 16) ++ beBytes 4 next
  padTo (if fecS then 340 else 180) (b ++ beBytes 2 (crcBits 16 0x1021 128 (beNat b) 0xFFFF))

/-- A marker with the pattern and a good am_crc (R73). -/
def markerGood (b : List Byte) : Bool :=
  beNat (b.take 8) == amPattern && crcBits 16 0x1021 128 (beNat (b.take 16)) 0xFFFF == beNat ((b.drop 16).take 2)

/-- The width code of a link's transmit direction in its markers. -/
def State.markerWidth (s : State) (lk : Nat) : Nat :=
  if s.splitIn s.cfg.vals (lk / 2) then 3 else (s.link lk).tx.width

/-- The lanes that a link has in use in its transmit direction. -/
def State.lanesInUse (s : State) (lk : Nat) : List Nat :=
  if s.splitIn s.cfg.vals (lk / 2) then (if lk % 2 = 0 then [0, 1] else [2, 3])
  else match (s.link lk).tx.width with | 1 => [0, 1] | 2 => [2, 3] | _ => [0, 1, 2, 3]

/-- The lanes that a link carries and the position of each; L4 copies lane 0 while it is unused (R105, R107),
follows the half-port that holds it (R111), and sends nothing while it is out of service (R79, R110). -/
def State.lanePositions (s : State) (lk : Nat) : List (Nat × Nat) :=
  let l := s.link lk
  let lanes := s.lanesInUse lk
  let named := match l.txSwap with | some x => if x.named then some x.lane else none | none => none
  let moved := if l.tx.moved.isSome then l.tx.moved else named
  (lanes.filter (fun k => decide (l.tx.moved ≠ some k) || l.txSwap.isSome)).map (fun k => (k, k)) ++
    (match moved with
     | some k => [(k, 4)]
     | none =>
       if l.tx.lost.contains 4 ||
          (s.splitIn s.cfg.vals (lk / 2) && (decide (lk % 2 = 1) || (s.link (otherHalf lk)).tx.moved.isSome)) then []
       else [(0, 4)])

/-- Words of the word stream between two markers: 1,024 codewords of 1,360 message bits per lane in FEC-L, of 5,140 bits per lane
pair in FEC-S (R70, R72, Table 03-2). -/
def State.periodWords (s : State) (lk : Nat) : Nat :=
  let l := s.link lk
  (if l.fecS then 41120 else 21760) * (if s.splitIn s.cfg.vals (lk / 2) || l.tx.width ≠ 0 then 2 else 4)

/-- Cut a word stream after `n` words: the words that precede the next start of a frame or tick, and what is left. -/
def cutWords : List Nat → Nat → Nat × List Nat
  | [], _ => (0, [])
  | x :: r, n => if n = 0 then (0, x :: r) else if x ≤ n then cutWords r (n - x) else (x - n, (x - n) :: r)

/-- The marker blocks that a link sends now: those of training until the second marker of PROFILE, then those of the agreed mode with
a next_boundary (R72, R74). -/
def State.markerBlocks (s : State) (lk next : Nat) : List (List Byte) :=
  let l := s.link lk
  if l.live && decide (l.switchIn < 2) then
    (s.lanePositions lk).map (fun p =>
      markerBlock p.1 p.2 l.amIndex (s.markerWidth lk) l.fecS next)
  else
    (s.trainPositions lk).map (fun p =>
      markerBlock (if p = 4 then 0 else p) p l.amIndex (if s.splitIn s.cfg.vals (lk / 2) then 3 else 0) false 0)

/-- ALIGNMENT_MARKER_SEND (R72, R105, R107, R109): a marker on every position, after 1,024 codewords of each stream (words that
nothing was sent in are IDLE ticks), with the next_boundary that the words under way give; a requested lane goes to L4 from the
first marker at least 1 µs after the request, and a requested width begins with the marker. In training
the TRAIN ticks of the state follow (R74). -/
def execAlignmentMarkerSend (lk : Nat) (s : State) : Host.Outcome State Fault Refusal :=
  let l := s.link lk
  if l.state = .dark || l.state = .failed then .next s
  else
    let l := match l.txSwap with
      | some x =>
        if !x.named && decide (x.req + 1000 ≤ s.time.pip) then
          { l with txSwap := some { x with named := true }, tx := { l.tx with moved := some x.lane } }
        else l
      | none => l
    let l := match l.txHold with | some (_, true) => { l with txHold := none } | _ => l
    let cut := cutWords l.sent (s.periodWords lk)
    let s := s.setLink lk { l with tx := { l.tx with width := l.narrowTo.getD l.tx.width }, narrowTo := none }
    let blocks := s.markerBlocks lk cut.1
    let s := s.setLink lk { s.link lk with amIndex := (l.amIndex + 1) % 4096, switchIn := l.switchIn - 1, sent := cut.2 }
    let s := if l.narrowTo.isSome && l.carries then s.linkTo lk .narrow else s
    .next (((blocks.foldl (fun s b => s.emit (.marker lk b)) s).sendTrain lk).tryProfile lk)

/-- The lane is taken from L4: DONE is sent and repeated, the NAK held back goes right after it, the order of a command ends
(R107, R108). -/
def State.takeSpare (s : State) (lk : Nat) (x : Swap) : State :=
  let l := s.link lk
  let l := { l with rxSwap := none, rx := { l.rx with moved := some x.lane, lost := x.lane :: l.rx.lost },
                    doneRepeats := 4 }.post prioSwap (swapWord 2 x.lane false)
  let s := (s.setLink lk l).logLane lk 0 x.lane 4
  let s := match x.ticket with | some t => s.finish t .ok [] | none => s
  s.endHoldWith prioSwap lk

/-- ALIGNMENT_MARKER (R73, R87, R101, R107): a good marker restores delineation and owes the NAK once frames flow, names the lane on
L4, and shows the width; lanes more than 128 ns apart fail training. The row of a frame or tick stands where its first word arrives,
so that the next row is the unit at which next_boundary lets the receiver resume (DEDUCED: entry BOUNDARY). -/
def execAlignmentMarker (lk : Nat) (block : List Byte) (skewNs : Nat) (s : State) : Host.Outcome State Fault Refusal :=
  let l := s.link lk
  if l.state = .dark || l.state = .failed || !markerGood block then .next s
  else if skewNs > 128 && (trainLimit l.state).isSome then .next (s.failAttempt lk)
  else
    let s := if l.delin then s else
      let s := s.setLink lk { l with delin := true }
      if l.live then s.nak lk 2 else s
    let lane := fieldAt block 8 1 / 16
    let pos := fieldAt block 8 1 % 8
    let width := fieldAt block 11 1 / 64
    let s := match (s.link lk).rxSwap with
      | some x => if pos = 4 && decide (lane = x.lane) && l.carries then s.takeSpare lk x else s
      | none => s
    let l' := s.link lk
    if l'.carries && (width = 1 || width = 2) && decide (l'.rx.width ≠ width) then
      .next (((s.setLink lk { l' with rx := { l'.rx with width := width } }).linkTo lk .narrow).endHold lk)
    else .next s

end Sys2Proof.Machine
end

