-- ==== Sys2Proof/Machine/Line.lean ====
section
/-! DEFINITION. Line coding of a link: words dealt to FEC streams, scrambling, Reed-Solomon codewords, lanes and PAM4 levels (03 R68 to
R72, Table 03-2). Where the spec takes a form from IEEE 802.3 without giving it, the form is that of the standard (PRESUMED: entry
LINECODE). -/

namespace Sys2Proof.Machine

open Sys2Proof

/-! ### PAM4 (R68) -/

/-- The level of a bit pair, the first bit sent being the more significant one: Gray code. -/
def pam4 : Bool → Bool → Nat
  | false, false => 0
  | false, true => 1
  | true, true => 2
  | true, false => 3

/-- The levels of a bit stream. -/
def pam4Levels : List Bool → List Nat
  | a :: b :: r => pam4 a b :: pam4Levels r
  | _ => []

/-! ### The scrambler (R69) -/

/-- One step of x^31 + x^28 + 1: the bit that is added to the message, which also enters the register. -/
def scrambleStep (r : BitVec 31) : Bool × BitVec 31 :=
  let b := r.getLsbD 27 != r.getLsbD 30
  (b, (r <<< 1) ||| BitVec.ofNat 31 (b2n b))

/-- Scramble message bits from a register; the same function takes the scrambling off again. -/
def scramble : BitVec 31 → List Bool → List Bool
  | _, [] => []
  | r, b :: l => let x := scrambleStep r; (b != x.1) :: scramble x.2 l

/-- The register at the first bit after an alignment marker. -/
def scrambleReset : BitVec 31 := BitVec.allOnes 31

/-! ### The codes (R71) -/

/-- Multiply by x in GF(2^10), whose polynomial is x^10 + x^3 + 1. -/
def gfX (a : Nat) : Nat := if 2 * a ≥ 1024 then (2 * a) ^^^ 0x409 else 2 * a

/-- The product of two field elements. -/
def gfMul (a b : Nat) : Nat :=
  [9, 8, 7, 6, 5, 4, 3, 2, 1, 0].foldl (fun acc i => (gfX acc) ^^^ (if bit b i then a else 0)) 0

/-- α^i. -/
def gfPow : Nat → Nat
  | 0 => 1
  | i + 1 => gfX (gfPow i)

/-- The generator polynomial with roots α^0 to α^(n-1), highest power first. -/
def rsGen : Nat → List Nat
  | 0 => [1]
  | n + 1 => List.zipWith (fun (a b : Nat) => a ^^^ b) (rsGen n ++ [0]) (0 :: (rsGen n).map (gfMul (gfPow n)))

/-- The parity symbols of a message, the symbol of its highest power first. -/
def rsParity (g : List Nat) (msg : List Nat) : List Nat :=
  let t := g.tail
  msg.foldl (fun r m =>
    let f := m ^^^ r.headD 0
    List.zipWith (fun (a b : Nat) => a ^^^ b) (r.tail ++ [0]) (t.map (gfMul f))) (List.replicate t.length 0)

/-- Message and parity symbols of a codeword of a mode: 136 + 8 in FEC-L, 514 + 30 in FEC-S (Table 03-2). -/
def rsShape (fecS : Bool) : Nat × Nat := if fecS then (514, 30) else (136, 8)

/-- A codeword: its message, then its parity. -/
def rsEncode (fecS : Bool) (msg : List Nat) : List Nat := msg ++ rsParity (rsGen (rsShape fecS).2) msg

/-- A word's value at a point, highest power first; 0 at every root of a codeword. -/
def rsEval (x : Nat) (w : List Nat) : Nat := w.foldl (fun acc m => (gfMul acc x) ^^^ m) 0

/-! ### Streams (R70, R71) -/

/-- A list cut into pieces of `n`, at most `fuel` of them. -/
def cutList {α : Type} (n : Nat) : Nat → List α → List (List α)
  | 0, _ => []
  | fuel + 1, l => if l.isEmpty then [] else l.take n :: cutList n fuel (l.drop n)

/-- The bits of bytes, each most significant first (R70). -/
def byteBits (bs : List Byte) : List Bool := bs.flatMap (fun b => [7, 6, 5, 4, 3, 2, 1, 0].map b.getLsbD)

/-- The words of stream i of n: dealt round-robin (R70). -/
def dealt (n i : Nat) (ws : List (List Byte)) : List (List Byte) := (ws.zipIdx.filter (fun p => p.2 % n == i)).map (·.1)

/-- A 10-bit symbol of bits, its least significant bit first. -/
def symbolOf (l : List Bool) : Nat := l.foldr (fun b a => 2 * a + b2n b) 0
/-- The bits of a symbol. -/
def symbolBits (x : Nat) : List Bool := (List.range 10).map (bit x)

/-- The codewords of a stream after a marker: its bits scrambled, in messages of whole symbols, with parity over the scrambled
message (R69, R71). -/
def codewords (fecS : Bool) (ws : List (List Byte)) : List (List Nat) :=
  let syms := (cutList 10 (64 * ws.length) (scramble scrambleReset (byteBits ws.flatten))).map symbolOf
  (cutList (rsShape fecS).1 syms.length syms).map (rsEncode fecS)

/-- What a lane carries of a stream: all of it in FEC-L; in FEC-S the even symbols on the lower lane and the odd ones on the higher
(Table 03-2). -/
def laneSymbols (fecS : Bool) (half : Nat) (cw : List Nat) : List Nat :=
  if fecS then (cw.zipIdx.filter (fun p => p.2 % 2 == half)).map (·.1) else cw

/-- The bits of lane `i` among the `n` lanes in use, for the words between two markers. -/
def laneBits (fecS : Bool) (n i : Nat) (ws : List (List Byte)) : List Bool :=
  let mine := if fecS then dealt (n / 2) (i / 2) ws else dealt n i ws
  (codewords fecS mine).flatMap (fun cw => (laneSymbols fecS (i % 2) cw).flatMap symbolBits)

/-! ### What a link puts on its fibre -/

/-- The words of what crosses an egress MAC: a frame in the order of R80 and R85, a tick most significant byte first. -/
def outWords : Out → List (List Byte)
  | .frame _ _ _ hd cells trl => cutList 8 (3 + cells.length) (frameBytes hd cells trl)
  | .tick _ w => [beBytes 8 w.toNat]
  | _ => []

/-- The words that a link has sent since its last marker, those that a marker interrupted going on after it; `n` words lie between
markers and `fresh` says that a marker went last. -/
def wordsSince (n lk : Nat) : List Out → List (List Byte) → Bool → List (List Byte)
  | [], ws, _ => ws
  | .marker l _ :: r, ws, fresh => if l = lk then wordsSince n lk r (if fresh then ws else ws.drop n) true else wordsSince n lk r ws fresh
  | .frame l a b c d e :: r, ws, fresh =>
    if l = lk then wordsSince n lk r (ws ++ outWords (.frame l a b c d e)) false else wordsSince n lk r ws fresh
  | .tick l w :: r, ws, fresh => if l = lk then wordsSince n lk r (ws ++ outWords (.tick l w)) false else wordsSince n lk r ws fresh
  | _ :: r, ws, fresh => wordsSince n lk r ws fresh

/-- The word stream of a link between its last marker and its next: what it has sent, and IDLE ticks in every other word (R70, R89). -/
def State.stretch (s : State) (lk : Nat) : List (List Byte) :=
  let n := s.periodWords lk
  let ws := (wordsSince n lk s.out [] true).take n
  ws ++ List.replicate (n - ws.length) (beBytes 8 idleWord.toNat)

/-- A marker of the link, or a TRAIN tick of a position. -/
def trainOut (lk pos : Nat) : Out → Bool
  | .marker l _ => l == lk
  | .tick l w => l == lk && tickIs w 7 && bits w.toNat 49 3 == pos
  | _ => false

/-- The words of a position in training, where each sends an FEC-L stream of its own with its TRAIN ticks (Table 03-4). -/
def State.trainStretch (s : State) (lk pos : Nat) : List (List Byte) :=
  let ws := (wordsSince 21760 lk (s.out.filter (trainOut lk pos)) [] true).take 21760
  ws ++ List.replicate (21760 - ws.length) (beBytes 8 idleWord.toNat)

/-- A link sends the streams of training: until the second marker after CONFIG (Table 03-4). -/
def Link.trains (l : Link) : Bool := (trainStep l.state).isSome || (l.live && decide (l.switchIn ≠ 0))

/-- The levels on a position of a link from its last marker to its next one (R68 to R71); none where the position carries no lane. -/
def State.levels (s : State) (lk pos : Nat) : List Nat :=
  if (s.link lk).trains then
    (if (s.trainPositions lk).contains pos then pam4Levels (laneBits false 1 0 (s.trainStretch lk pos)) else [])
  else match (s.lanePositions lk).find? (fun p => p.2 == pos) with
  | none => []
  | some (k, _) =>
    let ls := s.lanesInUse lk
    pam4Levels (laneBits (s.link lk).fecS ls.length (ls.idxOf k) (s.stretch lk))

/-- The levels of a marker block: it is not scrambled and carries no parity (R69, R72). -/
def markerLevels (block : List Byte) : List Nat := pam4Levels (byteBits block)

end Sys2Proof.Machine
end

