-- ==== Sys2Proof/Machine/Switch.lean ====
section
/-! DEFINITION. The egress scheduler, link_hold, the overflow region, the replicator, the arbiters and the bridges
(01 R17, R18; 04 R121 to R147; 06 R183 to R194). -/

namespace Sys2Proof.Machine

open Sys2Proof

/-! ### Choosing a frame (06 R183 to R187) -/

/-- The shaper bucket of a class at this pip, in 1/256 byte (R187). -/
def State.shaper (s : State) (lk vc : Nat) : Int :=
  let x := s.sched lk
  let full : Int := s.linkVcSetting idShapeBurst lk vc * 256
  let b := (tabGet? x.buckets vc).getD full
  let gain := if s.linkVcSetting idShapeEn lk vc = 1 then (s.time.pip - x.last) * s.linkVcSetting idShapeRate lk vc else 0
  min full (b + (gain : Nat))

/-- The shaper allows a class (R187). -/
def State.shaperOk (s : State) (lk vc : Nat) : Bool :=
  s.linkVcSetting idShapeEn lk vc == 0 || decide (s.shaper lk vc > 0)

/-- A class head that may start (R123, R183, R187, R193; 03 R113). Forwarding is never held (15 R418). -/
def State.eligibleHead (s : State) (lk vc : Nat) : Option QFrame :=
  match s.classHead lk vc with
  | none => none
  | some q =>
    if s.roomFor lk vc q.f.n && s.shaperOk lk vc && (vc == 0 || !s.vcBlocked lk) && !s.frozenOn q.bridges then some q else none

/-- The class that wins at a frame boundary: class 0 first, else the least finish tag, ties to the lower class. -/
def State.winner (s : State) (lk : Nat) : Option QFrame :=
  match s.eligibleHead lk 0 with
  | some q => some q
  | none =>
    ([1, 2, 3, 4, 5, 6, 7].foldl (fun (best : Option QFrame) c =>
      match s.eligibleHead lk c, best with
      | some q, none => some q
      | some q, some b =>
        if vDiff (tabGet (s.sched lk).tags 0 c) (tabGet (s.sched lk).tags 0 b.f.vc) < 0 then some q else some b
      | none, b => b) none)

/-- Advance v to the winner's tag and hold the tags of empty privileged classes at v less their burst (R184). -/
def State.advanceV (s : State) (lk cls : Nat) : State :=
  if cls = 0 then s
  else
    let x := s.sched lk
    let x := { x with v := vMax x.v (tabGet x.tags 0 cls) }
    let idle := [1, 2, 3, 4, 5, 6, 7].filter (fun j =>
      decide (s.linkVcSetting idPrivileged lk j = 1) && decide (s.depth lk j = 0))
    s.setSched lk (idle.foldl (fun x j =>
      { x with tags := tabPut x.tags j (vMax (tabGet x.tags 0 j) (vSub x.v (s.burstCost lk j))) }) x)

/-- Take a frame's bytes from the shaper bucket while shape_en = 1, every bucket brought to this pip (R187). -/
def State.takeShaper (s : State) (lk vc len : Nat) : State :=
  let x := s.sched lk
  let bs := (List.range 8).map (fun c =>
    (c, if c = vc ∧ s.linkVcSetting idShapeEn lk vc = 1 then s.shaper lk c - (len * 256 : Nat) else s.shaper lk c))
  s.setSched lk { x with buckets := bs, last := s.time.pip }

/-- ecn is set when a class's depth exceeds ecn_at (R188). -/
def State.markEcnAt (s : State) (lk : Nat) (f : Frame) (depth : Nat) : Frame :=
  let lim := if f.vc = 0 then 0 else s.linkVcSetting idEcnAt lk f.vc
  if lim ≠ 0 ∧ depth > lim then { f with ecn := true } else f

/-- The mark of a queued frame at its start: the depth includes its own hanks (R188). -/
def State.markEcn (s : State) (lk : Nat) (f : Frame) : Frame := s.markEcnAt lk f (s.depth lk f.vc)

/-- Counters of a class of a link (06 Table 06-3): 0 frames, 1 bytes, 2 ecn marks. -/
def schedKey (lk vc : Nat) : Nat := lk * 8 + vc

/-- The charges of a start: tags, virtual time, shaper, counters and the forwarding class (R184, R187; 15 R419). `was` is the ecn flag
before the start: a mark made here is counted. -/
def State.chargeStart (s : State) (lk : Nat) (f : Frame) (was : Bool) : State :=
  let len := s.chargeLen lk f.n
  let s := (s.advanceV lk f.vc).takeShaper lk f.vc len
  let s := (s.bump .sched (schedKey lk f.vc) 0).bumpBy .sched (schedKey lk f.vc) 1 f.bytes
  let s := if f.ecn && !was then s.bump .sched (schedKey lk f.vc) 2 else s
  s.charge (4 + linkDie lk) 0 f.n f.n

/-- A state word of a frame's hanks that disagrees (17 Table 17-1). -/
def State.hankTorn (s : State) (q : QFrame) : Option Nat :=
  (q.hanks.map (fun h => hankLoc q.ovf h.1)).find? (fun h => s.torn rowHank q.die h)

/-- Start a queued frame on a link (R92, R95, R122, R184 to R188). -/
def State.startFrame (s : State) (lk : Nat) (q : QFrame) : State :=
  let f := s.markEcn lk q.f
  let s := (s.chargeStart lk f q.f.ecn).bump .buf q.die (if q.resend then bcResend else q.store)
  (s.transmit lk f false).consume q

/-- A queued frame whose hanks hold an uncorrectable word: the copy on the link ends with stomp = 1 and the frame is discarded
(17 Table 17-2; R86, R138). -/
def State.startTornFrame (s : State) (lk : Nat) (q : QFrame) : State :=
  let f := s.markEcn lk q.f
  let s := ((s.chargeStart lk f q.f.ecn).bump .port lk pcStompSent).logFrameUe q
  (s.transmit lk f true).consume q

/-- Whether a link may start new frames now: UP or NARROW, its mode's words sent (03 R74), not draining (03 R116), no lost lane held
(03 R108). -/
def State.maySend (s : State) (lk : Nat) : Bool :=
  let l := s.link lk
  l.carries && l.sends && !l.draining && !l.held

/-- PROFILE_SEND (03 R112, R116; 06 R187): the frame starts as any new class-0 frame, on a link in PROFILE too. -/
def execProfileSend (lk : Nat) (s : State) : Host.Outcome State Fault Refusal :=
  let l := s.link lk
  let due := l.profDue || (l.carries && decide (l.profSent + 2 ^ 20 ≤ s.time.pip))
  if l.sends && due && !l.held && !l.draining && l.resendFrom.isNone && s.roomFor lk 0 1 && s.shaperOk lk 0 then
    let f : Frame := { ty := 10, vc := 0, ch := 0, dst := 0xFFFFF, src := s.devFid, cells := s.profileCell }
    let s := ((s.flush lk).chargeStart lk f false)
    .next ((s.setLink lk { s.link lk with profDue := false, profSent := s.time.pip,
                                          profLsn := l.profLsn.or (some l.lsn) }).transmit lk f false)
  else .next s

/-- Send again the frame at which a replay stands (03 R100): forwarding work (15 R417). -/
def State.resendOne (s : State) (lk lsn : Nat) : State :=
  let l := s.link lk
  match l.replay.find? (·.lsn == lsn) with
  | none => s.setLink lk { l with resendFrom := none }
  | some x =>
    let s := s.setLink lk { l with
      resendFrom := l.nextReplay lsn,
      replay := l.replay.map (fun y => if y.lsn = lsn then { y with stamp := s.time.pip } else y) }
    (s.charge (4 + linkDie lk) clsForward x.f.n x.f.n).sendFrame lk lsn x.stomp x.f

/-- EGRESS_FRAME_START: a frame boundary of a link. Pending ticks go first (03 R89), then a replay (R100;
PROFILE frames and a drain of R116 have replays too), then the frame that the scheduler chooses (06 R183 to R188; 04 R122, R123);
with nothing else to send an IDLE tick goes (R89). -/
def rowEgressFrameStart (lk : Nat) (s : State) : Host.Outcome State Fault Refusal :=
  if !(s.link lk).sends then .next s
  else match s.linkTorn lk with
  | some row => .next (s.linkCritical lk row)
  | none =>
    let idle := (s.link lk).ticks.isEmpty
    let s := s.flush lk
    let rest := if idle then s.sendTick lk idleWord else s
    match (s.link lk).resendFrom with
    | some n => .next (if (s.link lk).held then rest else s.resendOne lk n)
    | none =>
      match (if s.maySend lk then s.winner lk else none) with
      | none => .next rest
      | some q =>
        match s.hankTorn q with
        | some h => .next (s.hankError q.die h)
        | none => .next (if s.frameUe q then s.startTornFrame lk q else s.startFrame lk q)

/-- Bytes that nothing fixes. -/
def State.freeBytes (s : State) (n : Nat) : List Byte × State :=
  ((List.range n).map (fun i => BitVec.ofNat 8 (Config.freeNat (s.free + i))), s.setFree (s.free + n))

/-- A frame whose ingress link went down in the middle of it: no row gave it, so what of it had come is a free value (DEDUCED: entry
FRAMESTEP). -/
def State.cutFrame (s : State) : Frame × State :=
  let x := s.fresh
  let hd := BitVec.ofNat 128 x.1
  let b := x.2.freeBytes (64 * headerCells hd.toNat)
  (Frame.ofHeader hd b.1, b.2)

/-- An egress that was sending such a frame by cut-through ends that copy with stomp = 1 (R127); its trailer never arrives and nothing of
it stays stored. -/
def State.stompCut (s : State) (lk ing : Nat) : State :=
  let c := (s.setBuf { s.buf with cut := s.buf.cut.erase ing }).cutFrame
  let f := c.1
  let s := c.2
  if !typeAllowed f || f.ty == 10 || !s.roomFor lk f.vc f.n || !s.shaperOk lk f.vc || (f.vc != 0 && s.vcBlocked lk) then s
  else
    let g := s.markEcnAt lk f (hanksFor f.n)
    (((s.flush lk).chargeStart lk g f.ecn).bump .port lk pcStompSent).transmit lk g true

/-- CUT_THROUGH_UNDERRUN (04 R127): the chosen frame was started by cut-through and its next cell did not come in
time; that copy ends with stomp = 1 and the frame stays at the head of its queue for a second sending. With no frame to start, the
frame under way is one whose ingress link went down in the middle of it. -/
def execCutThroughUnderrun (lk : Nat) (s : State) : Host.Outcome State Fault Refusal :=
  if !s.maySend lk || (s.link lk).resendFrom.isSome then .next s
  else match s.winner lk with
  | none => (match s.buf.cut.find? (fun l => l != lk) with
    | none => .next s
    | some l => .next (s.stompCut lk l))
  | some q =>
    if q.store ≠ 0 || q.resend then .next s
    else
      let f := s.markEcn lk q.f
      let s := ((s.flush lk).chargeStart lk f q.f.ecn).bump .port lk pcStompSent
      let s := s.transmit lk f true
      .next (s.setFrames (s.buf.frames.map (fun x => if x = q then { x with resend := true } else x)))

/-- Whether the frame at a head cannot start on its link: not UP or NARROW, no allowance, or too few credits (R124). -/
def State.unable (s : State) (lk : Nat) (q : QFrame) : Bool :=
  let l := s.link lk
  !l.carries || decide (l.allowance q.f.vc = 0) || decide (l.credits q.f.vc < q.f.n + 1)

/-- Why link_hold discards the head of a queue of a link now, as the cause of 0x0303: it waited at the head and cannot start (2, R124),
or the link has been down (3, 03 R117). -/
def State.holdCause (s : State) (lk : Nat) (q : QFrame) : Option Nat :=
  let past (t : Option Nat) : Bool := match t with | some t => decide (t + s.linkSetting idLinkHold lk ≤ s.time.pip) | none => false
  if past q.head && s.unable lk q then some 2
  else if past (s.link lk).downSince && !(s.link lk).carries then some 3 else none

/-- LINK_HOLD_EXPIRY (03 R117; 04 R124): a frame that waited link_hold and cannot start is discarded. -/
def execLinkHoldExpiry (lk ing vc : Nat) (s : State) : Host.Outcome State Fault Refusal :=
  match s.heads.find? (fun q => decide (q.dest = .link lk) && q.ing == ing && q.f.vc == vc && (s.holdCause lk q).isSome) with
  | none => .next s
  | some q =>
    let s1 := (s.bump .port lk pcHold).bump .buf q.die bcHold
    .next ((s1.logDiscard lk ((s.holdCause lk q).getD 2) q.f).consume q)

/-! ### Overflow (04 R140 to R144) -/

/-- The Skein that holds a die's overflow region (01 R28). -/
def ovfSkein : Nat → Nat | 0 => 0 | 1 => 1 | 2 => 3 | _ => 2

/-- Tokens that wait in the queues of an expert, in the order in which they leave (11 R334, R336). -/
def Expert.waitToks (x : Expert) : List Tok :=
  x.closed.flatMap (·.2.toks) ++ (x.openF.map (·.toks)).getD [] ++ (x.openB.map (·.toks)).getD [] ++ x.notices

/-- The frames of tokens that wait for an expert or are in assembly; their hanks stay theirs (11 R334). -/
def State.tokFrames (s : State) : List QFrame :=
  (s.exp.exact.flatMap (fun e => match e.2 with | .here x => x.waitToks | _ => []) ++ s.exp.toks).flatMap (·.frames)

/-- The queues of experts, one for each pass (11 R334). -/
def State.tokQueues (s : State) : List (List QFrame) :=
  s.exp.exact.flatMap (fun e => match e.2 with
    | .here x =>
      let asm := s.exp.toks.filter (fun t => t.fwd.isNone && decide (fieldAt t.hdr 0 2 = e.1))
      [0, 1].map (fun p => ((x.waitToks ++ asm).filter (fun t => decide (fieldAt t.hdr 2 1 % 2 = p))).flatMap (·.frames))
    | _ => [])

/-- Change the frames of tokens that wait or are in assembly. -/
def State.mapTokFrames (s : State) (g : QFrame → QFrame) : State :=
  let tok (t : Tok) : Tok := { t with frames := t.frames.map g }
  let tile (t : Tile) : Tile := { t with toks := t.toks.map tok }
  let exp (x : Expert) : Expert :=
    { x with notices := x.notices.map tok, openF := x.openF.map tile, openB := x.openB.map tile,
             closed := x.closed.map (fun c => (c.1, tile c.2)) }
  s.setExp { s.exp with
    toks := s.exp.toks.map tok,
    exact := tabMap s.exp.exact (fun _ e => match e with | .here x => .here (exp x) | e => e) }

/-- Every chain of hanks of queued frames, of tokens, and of tokens whose return is still to be sent. -/
def State.chains (s : State) : List Chain :=
  (s.buf.frames ++ s.tokFrames).map QFrame.chain ++ (s.buf.frames ++ s.buf.wait.map (·.q)).flatMap (·.rel)

/-- DRAM hanks that an account holds. -/
def State.dramHeld (s : State) (a : Nat) : Nat :=
  ((s.chains.filter (fun q => q.ovf && q.acct == a)).map (·.hanks.length)).sum

/-- DRAM hanks in use in a die's region. -/
def State.regionUsed (s : State) (die : Nat) : Nat :=
  ((s.chains.filter (fun q => q.ovf && q.die == die)).map (·.hanks.length)).sum

/-- Whether an account may use the region now (R140, R143). -/
def State.ovfOn (s : State) (a : Nat) : Bool :=
  decide (acctKind a < 6) && [1, 3, 5, 7].contains (acctVc a) && decide (s.setting idOvfEnable a = 1) &&
  !s.skeinDown (ovfSkein (acctDie a))

/-- The frame that a spill moves: the oldest of the tail, the head keeping two frames (R141). -/
def spillFrame (queue : List QFrame) : Option QFrame :=
  match queue.reverse.find? (·.ovf) with
  | some last => ((queue.dropWhile (· ≠ last)).drop 1).head?
  | none => (queue.drop 2).head?

/-- Take a token that lost a frame out of every queue and assembly, with its other frames: its operation ends by its own timeout
(R142). -/
def State.loseToken (s : State) (q : QFrame) : State :=
  let hit (t : Tok) : Bool := t.frames.contains q
  let lost := (s.exp.toks ++ s.exp.exact.flatMap (fun e => match e.2 with | .here x => x.waitToks | _ => [])).filter hit
  let tile (t : Tile) : Tile := { t with toks := t.toks.filter (fun x => !hit x) }
  let exp (x : Expert) : Expert :=
    { x with notices := x.notices.filter (fun t => !hit t), openF := x.openF.map tile, openB := x.openB.map tile,
             closed := x.closed.map (fun c => (c.1, tile c.2)) }
  let s := s.setExp { s.exp with
    toks := s.exp.toks.filter (fun t => !hit t),
    exact := tabMap s.exp.exact (fun _ e => match e with | .here x => .here (exp x) | e => e) }
  (lost.flatMap (·.frames)).foldl State.freeFrame s

/-- Discard a frame, or the token that holds it, for an uncorrectable word of its hanks (04 R138; 17 Table 17-2). -/
def State.discardUe (s : State) (q : QFrame) : State :=
  let s := s.logFrameUe q
  if s.buf.frames.contains q then s.consume q else s.loseToken q

/-- OVERFLOW_SPILL (R140, R141; 11 R334): an account above spill_at moves a frame of a queue of the switch core, or else of a
queue of an expert, to the region; one whose reading meets an uncorrectable word is discarded. Where several queues could spill the
spec names none: the queues of the switch core go first, in the order in which their oldest frames arrived, then those of experts
(DESIGN CHOICE: entry QUEUEPICK). A frozen bridge to the Skein holds it (06 R193). -/
def execOverflowSpill (die ing vc : Nat) (s : State) : Host.Outcome State Fault Refusal :=
  let hit (q : QFrame) : Bool := q.die == die && q.ing == ing && q.f.vc == vc
  let mine := s.buf.frames.filter hit
  let cands := (mine.map (·.dest)).eraseDups.filterMap (fun d => spillFrame (mine.filter (fun q => decide (q.dest = d)))) ++
    s.tokQueues.filterMap (fun l => spillFrame (l.filter hit))
  match cands.find? (fun q => !q.ovf && s.ovfOn q.acct) with
  | none => .next s
  | some q =>
    let mx := s.setting idAcctMax q.acct
    let n := hanksFor q.f.n
    if (s.acct q.acct).h > mx - mx / 8 ∧ s.dramHeld q.acct + n ≤ s.setting idOvfMax q.acct ∧
       s.regionUsed die + n ≤ s.setting idOvfSize die / 512 then
      if (s.arb (dieBridge die (ovfSkein die) 0)).frozen then .next s else
      if s.frameUe q then .next (s.discardUe q) else
      let r := allocHanks s.buf.hanks (die + 8) n
      let moved (x : QFrame) : QFrame := if x = q then { x with hanks := r.2, ovf := true, store := 3 } else x
      let s := (s.setBuf { s.buf with hanks := r.1 }).noteTorn die true r.2
      let s := s.freeChain q.chain
      let s := (s.setFrames (s.buf.frames.map moved)).mapTokFrames moved
      .next ((s.charge (4 + die) clsForward 0 (moveEu (64 * q.f.n))).bump .buf die bcSpilled)
    else .next s

/-- The frame that readback takes next among the queues of a die that `hit` selects: in a queue of the switch core, or else of an
expert, the oldest frame of the middle while the head holds fewer than two (R141; 11 R334); of several queues the first in the order
of their arrival (DESIGN CHOICE: entry QUEUEPICK). -/
def State.middleFrame (s : State) (hit : QFrame → Bool) : Option QFrame :=
  let mine := s.buf.frames.filter hit
  let ok (q : QFrame) : Bool :=
    q.ovf && decide (((mine.filter (sameQueue q)).takeWhile (fun x => !x.ovf)).length < 2)
  (mine.find? ok).or (s.tokQueues.findSome? (fun l =>
    let m := l.filter hit
    if (m.takeWhile (fun x => !x.ovf)).length < 2 then m.find? (·.ovf) else none))

/-- The first DRAM hank of a frame that meets an uncorrectable word. -/
def State.badHank (s : State) (q : QFrame) : Option (Nat × Nat) :=
  if s.ueWords.isEmpty then none else q.hanks.find? (fun h => s.ueIn (dramKey ((s.ovfRegion q.die).1 + 512 * h.1)) 512)

/-- The account of frames read back at a die. -/
def rdbk (die : Nat) : Nat := unitAcct die 7 0

/-- A frame's readback met an uncorrectable word: counted and logged (R142). -/
def State.noteBadHank (s : State) (q : QFrame) (h : Nat × Nat) : State :=
  (s.bump .buf q.die bcReadbackBad).logRaise 0x0402 2 0 (srcOf 3 q.die) 0 h.1

/-- A frame of the region takes hanks of RDBK instead, and is counted as read back (R141, R142); answers it as it is then. -/
def State.moveBack (s : State) (q : QFrame) : QFrame × State :=
  let s := s.freeChain q.chain
  let r := allocHanks s.buf.hanks q.die q.hanks.length
  let s := ((s.setBuf { s.buf with hanks := r.1 }).noteTorn q.die false r.2).freshHanks q.die r.2
  let x := s.acct (rdbk q.die)
  let s := s.setAcct (rdbk q.die) { x with h := x.h + r.2.length }
  let s := s.charge (4 + q.die) clsForward 0 (moveEu (64 * q.f.n))
  ({ q with hanks := r.2, ovf := false, store := 3, acct := rdbk q.die, resv := false }, s.bump .buf q.die bcReadback)

/-- Read a frame back; an uncorrectable word discards it (R141, R142). -/
def State.readBack (s : State) (q : QFrame) : State :=
  match s.badHank q with
  | some h =>
    let s := s.noteBadHank q h
    if s.buf.frames.contains q then s.consume q else s.loseToken q
  | none =>
    let r := s.moveBack q
    let moved (x : QFrame) : QFrame := if x = q then r.1 else x
    (r.2.setFrames (r.2.buf.frames.map moved)).mapTokFrames moved

/-- The bridge from the Skein of a die's region is frozen: readback waits (06 R193). -/
def State.readShut (s : State) (die : Nat) : Bool := (s.arb (dieBridge die (ovfSkein die) 1)).frozen

/-- OVERFLOW_READBACK (R121, R135, R141, R142; 11 R334): a request that cannot be granted at once waits for the arbiter and is
counted. -/
def execOverflowReadback (die ing vc : Nat) (s : State) : Host.Outcome State Fault Refusal :=
  match s.middleFrame (fun q => q.die == die && q.ing == ing && q.f.vc == vc) with
  | none => .next s
  | some q =>
    if s.readShut die then .next s
    else if s.mayDraw (rdbk die) q.hanks.length then .next ((s.chargeAlloc die 7).readBack q)
    else .next (s.bump .buf die (bcWait + 7))

/-! ### Replication (04 R145, R146; 05 R170) -/

/-- The replicator of a die writes the next copy of its oldest frame when `may` says that the hanks are granted; no copy goes inside the
device while dev_fid names none (R145, R146; 05 R153). -/
def State.replicate (s : State) (die : Nat) (may : State → Nat → Bool) : State :=
  match s.buf.repl.find? (·.die == die) with
  | none => s
  | some j =>
    match j.dests with
    | [] => s.setBuf { s.buf with repl := s.buf.repl.erase j }
    | d :: rest =>
      let next (s : State) : State := s.setBuf { s.buf with
        repl := if rest.isEmpty then s.buf.repl.erase j
        else s.buf.repl.map (fun x => if x = j then { x with dests := rest } else x) }
      let a := unitAcct die 6 0
      let f := s.copyFor d j.f
      if (match d with | .skein _ => decide (s.devFid = 0xFFFFF) | _ => false) then next s
      else if may s (hanksFor j.f.n) then
        let s := s.charge (4 + die) clsForward j.f.n j.f.n
        next (s.enqueue { die := die, ing := 133, dest := d, f := f, stamp := j.stamp, acct := a, hanks := [],
                          path := s.pathTo die d f j.hash, store := 4 })
      else s.bump .buf die bcPause

/-- MULTICAST_REPLICA (R121, R135, R145, R146). -/
def execMulticastReplica (die : Nat) (s : State) : Host.Outcome State Fault Refusal :=
  let a := unitAcct die 6 0
  let u := s.replicate die (fun s n => s.mayDraw a n)
  .next (if u.buf.frames.length = s.buf.frames.length then u else u.chargeAlloc die 6)

/-! ### Arbiters (06 R190 to R194) -/

/-- The winner among requesters: greatest wait on an aging grant, else least scaled service; ties by R191. -/
def arbPick (turn : Nat) (w : Nat → Nat) (a : Arb) (aging : Bool) (req : List Nat) : Option Nat :=
  req.foldl (fun best i => match best with
    | none => some i
    | some b =>
      let x := tabGet a.reqs {} i
      let y := tabGet a.reqs {} b
      let better := if aging then decide (x.c > y.c) else decide (scaled x (w i) < scaled y (w b))
      let equal := if aging then x.c == y.c else scaled x (w i) == scaled y (w b)
      if better || (equal && tieBefore turn i b) then some i else some b) none

/-- Up to `n` grants decided from the requests of a cycle, each by R192 in turn; each takes one request of its requester. -/
def arbDecide (turn : Nat) (w : Nat → Nat) : Nat → List Nat → Arb → Arb
  | 0, _, a => a
  | n + 1, req, a =>
    let a' := { a with g := a.g + 1 }
    let aging := decide (a'.g % 16 = 0)
    match arbPick turn w a' aging req.eraseDups with
    | none => a
    | some i =>
      let b := arbCharge w a' req.eraseDups i aging
      arbDecide turn w n (req.erase i) { b with granted := b.granted ++ [i] }

/-- Take note of a cycle's requests: waits grow, those asserted in the cycle too that are withdrawn in it, requesters that begin rejoin,
holds are counted (R192, R194). -/
def arbNote (w : Nat → Nat) (held : Nat → Bool) (raised : List Nat) (a : Arb) : Arb :=
  let on := raised.filter (fun i => !held i)
  let a := (on.eraseDups.filter (fun i => !a.asserted.contains i)).foldl (rejoin w) a
  let note (a : Arb) (i : Nat) : Arb :=
    let r := tabGet a.reqs {} i
    let c := if held i then r.c else if a.asserted.contains i then min 65535 (r.c + 1) else 0
    { a with reqs := tabPut a.reqs i { r with c := c, maxc := max r.maxc c, held := r.held + b2n (held i && raised.contains i) } }
  (raised ++ a.asserted).eraseDups.foldl note a

/-- The grants of this cycle that find their requester still asking. -/
def Arb.used (a : Arb) (held : Nat → Bool) (raised : List Nat) : List Nat := a.granted.filter (fun i => raised.contains i && !held i)

/-- One core cycle of an arbiter that may give `n` grants (R190 to R194): `raised` are the requests raised in it, `held` says whose are
withdrawn. Grants of the last decision that find their requester gone are stale; the requests registered in the last cycle are
decided on; this cycle's are registered. -/
def arbStep (n turn : Nat) (w : Nat → Nat) (held : Nat → Bool) (raised : List Nat) (a : Arb) : Arb :=
  let stale (a : Arb) (i : Nat) : Arb :=
    let x := tabGet a.reqs {} i
    { a with reqs := tabPut a.reqs i { x with stale := x.stale + 1 } }
  let gone := a.granted.filter (fun i => !(raised.contains i && !held i))
  let a := arbNote w held raised (gone.foldl stale a)
  let req := a.asserted.filter (fun i => !held i)
  let a := { a with granted := [], asserted := raised.filter (fun i => !held i) }
  if a.frozen then a else arbDecide turn w n req a

/-- The first waiting frame of a hank requester (04 R132, R138): 1 RDBK, 2 SKEIN, 3 TALLY, 4 LADDER, 5 MGMT. -/
def waitKinds : Nat → List Nat | 1 => [7] | 2 => [3, 4] | 3 => [1] | 4 => [2] | 5 => [5] | _ => []

/-- The first waiting frame of each source and VC of a die. -/
def State.waitHeads (s : State) (die : Nat) : List WaitFrame :=
  (s.buf.wait.filter (·.die == die)).foldl (fun l w => if l.any w.behind then l else l ++ [w]) []

/-- A hank grant lets a waiting frame of its requester enter: the first whose account may draw its hanks (04 R135, R138; 05 R167). -/
def State.admitWaiting (s : State) (die req : Nat) : State :=
  match (s.waitHeads die).find? (fun w => (waitKinds req).contains w.kind && s.canDraw w.q.acct (hanksFor w.q.f.n) && !s.entryShut w) with
  | none => s
  | some w => (s.setBuf { s.buf with wait := s.buf.wait.erase w }).letIn w

/-- What a grant of hank allocation does: earmarks of the port accounts, readback, a replica, or a waiting frame (04 R131, R135, R141,
R145). A grant decided before a freeze is still issued (06 R193). -/
def State.allocGranted (s : State) (die req : Nat) : State :=
  match req with
  | 0 => (s.dieAccts die).foldl State.giveCredits s
  | 1 => (match s.middleFrame (fun q => q.die == die) with
    | some q => if s.canDraw (rdbk die) q.hanks.length && !s.readShut die then s.readBack q else s
    | none => s.admitWaiting die 1)
  | 6 => s.replicate die (fun s n => s.canDraw (unitAcct die 6 0) n)
  | _ => s.admitWaiting die req

/-- The bridge of an arbiter as counted in `retries` (17 Table 17-5: 0–7 port-die–Skein, 8–11 Skein–Skein). -/
def bridgeOf (kind index : Nat) : Option Nat := match kind with | 0 => some index | 1 => some (8 + index) | _ => none

/-- The die whose replica of the pip counter gives an arbiter's Turn: the port die of a bridge or of hank allocation, the Skein of a
DRAM channel, the lower-numbered Skein of a Skein–Skein bridge (R191; which end of a bridge counts is a DESIGN CHOICE: entry ARBTURN). -/
def arbDie (kind index : Nat) : Nat :=
  match kind with
  | 0 => index / 2
  | 1 => 4 + (match index with | 0 | 1 => 0 | 2 => 1 | _ => 2)
  | 2 => 4 + index / 64
  | _ => index

/-- Grants of an arbiter in a core cycle (04 R135). -/
def arbGrants (kind : Nat) : Nat := if kind = 3 then 32 else 1

/-- ARBITER_DECIDE (R132, R135, R190 to R194): one core cycle of an arbiter. The grants decided in the last one take effect where they
are not stale; a used grant on a bridge means that its last flit has been delivered. -/
def execArbiterDecide (kind index dir : Nat) (raised : List Nat) (s : State) : Host.Outcome State Fault Refusal :=
  let sh := arbShape kind
  if index ≥ sh.1 || (dir ≥ 2) || (!sh.2.1 && dir != 0) || raised.any (fun i => i ≥ sh.2.2.length) then .next s
  else
    let k := arbKey kind index dir
    let a0 := s.arb k
    let held := s.reqHeld kind index
    let busy := decide (kind = 2) && s.refreshing index
    let a := arbStep (arbGrants kind) (s.pipOn (arbDie kind index) / 4096) (s.arbWeight kind index dir) held raised { a0 with frozen := a0.frozen || busy }
    let s := s.setTraf { s.traf with arbs := tabPut s.traf.arbs k { a with frozen := a0.frozen } }
    let used := a0.used held raised
    let s := match bridgeOf kind index with
      | some b => if used.isEmpty then s else s.setTraf { s.traf with retries := tabDel s.traf.retries (b * 2 + dir) }
      | none => s
    .next (if kind = 3 then used.foldl (fun s i => s.allocGranted index i) s else s)

/-- BRIDGE_FLIT_RETRY (01 R17, R18; 00 R12): a flit fails its CRC and is retried; a failure after 8 retries is fatal. -/
def rowBridgeFlitRetry (bridge dir : Nat) (s : State) : Host.Outcome State Fault Refusal :=
  if bridge ≥ 12 || dir ≥ 2 then .next s
  else
    let k := bridge * 2 + dir
    let n := tabGet s.traf.retries 0 k + 1
    let s := s.setTraf { s.traf with retries := tabPut s.traf.retries k n }
    .next (if n > 8 then (s.fatal 0x0101 (srcOf 5 bridge) dir) else s)

end Sys2Proof.Machine
end

