-- ==== Sys2Proof/Machine/PortCmds.lean ====
section
/-! DEFINITION. Commands on ports, buffers, meters, schedulers and arbiters (03 Table 03-15; 04 Table 04-3;
06 Table 06-3). -/

namespace Sys2Proof.Machine

open Sys2Proof

/-- The checks of R118 on a port and half: range, and the half against the port mode. -/
def State.portChks (s : State) (port half : Nat) : List Chk :=
  [badFld 0 (decide (port > 63)),
   badFld 1 (decide (half > 2) || !s.halfFits s.cfg.vals (half * 64 + port % 64))]

/-- One direction of a link in a result: width code, lane moved to L4 (7 none), spare in use. -/
def lanesFlds (d : Lanes) : List Fld := [uf 1 d.width, uf 1 (d.moved.getD 7), uf 1 (b2n d.moved.isSome)]

/-- PORT_STATUS (R118). -/
def execPortStatus (o : Origin) (port half : Nat) (s : State) : Host.Outcome State Fault Refusal :=
  s.query o 0x0301 [port, half] (s.portChks port half) (fun s =>
    let l := s.link (linkOf port half)
    [uf 1 l.state.code, uf 1 (b2n l.fecS)] ++ lanesFlds l.tx ++ lanesFlds l.rx ++
      [uf 1 l.attempts, uf 1 l.peerRole, uf 4 l.peerFid])

/-- The counters of a link in the order of Table 03-15. -/
def State.portCounterFlds (s : State) (lk : Nat) : List Fld :=
  let c := s.count .port lk
  ([0, 1, 2, 3, 4, 8, 9, 10, 11, 12] ++ [pcAccepted, pcCrcFail, pcNakSent, pcNakRecv, pcReplay, pcSkipSent,
    pcSkipRecv, pcStompSent, pcStompRecv, pcTickCrc, pcDelin, pcR82, pcR83, pcR84, pcR562, pcHold, pcSwap,
    pcNarrow]).map (fun i => uf 4 (c i))

/-- Zero a unit's counters when clear = 1. -/
def State.clearIf (s : State) (clear : Nat) (f : Fam) (u : Nat) : State := if clear = 1 then s.clearUnit f u else s

/-- PORT_COUNTERS (R118). -/
def execPortCounters (o : Origin) (port half clear : Nat) (s : State) : Host.Outcome State Fault Refusal :=
  s.command o 0x0302 [port, half, clear] (s.portChks port half ++ clearChks o 2 clear) (fun _ s =>
    let lk := linkOf port half
    (s.clearIf clear .port lk, .done .ok (s.portCounterFlds lk)))

/-- PORT_PROFILE_READ (R118): ST_BUSY while no profile has been accepted. -/
def execPortProfileRead (o : Origin) (port half : Nat) (s : State) : Host.Outcome State Fault Refusal :=
  let l := s.link (linkOf port half)
  s.query o 0x0303 [port, half] (s.portChks port half ++ [⟨l.profStamp.isNone, .busy, none⟩]) (fun s =>
    let l := s.link (linkOf port half)
    [bf 64 (leNat l.profCell), uf 8 (l.profStamp.getD 0), uf 1 l.disagree.toNat])

/-- Whether a pending commit changes admin, port_mode or fec_mode of a port or half-port (R118). -/
def State.commitTouches (s : State) (port half : Nat) : Bool :=
  s.cfg.commits.any (fun c => c.items.any (fun i =>
    (decide (i.id = idAdmin ∨ i.id = idPortMode) && i.scope == port) ||
    (decide (i.id = idFecMode) && i.scope == half * 64 + port)))

/-- PORT_RETRAIN (R74, R118; 04 R139): RETRAIN_REQ goes to the peer and the attempt begins; a port that is not
ARMED has no attempt to begin. -/
def execPortRetrain (o : Origin) (port half : Nat) (s : State) : Host.Outcome State Fault Refusal :=
  s.update o 0x0304 [port, half]
    (s.portChks port half ++ [s.ownChk o (resPort port), ⟨s.commitTouches port half, .busy, none⟩])
    (fun s =>
      let lk := linkOf port half
      if s.setting idAdmin port = 1 then
        let s := if (s.link lk).carries then s.sendLinkState lk (linkStateWord 1 0) else s
        let s := s.startTraining lk
        s.setLink lk { s.link lk with attempts := 0 }
      else s)
    (fun _ => [])

/-- L4 is in use in the receive direction: by this link or the other half-port (R118). An L4 that has lost its signal or is out of
service counts as in use, since no lane can move to it (DESIGN CHOICE: entry SPARELOST). -/
def State.spareTaken (s : State) (lk : Nat) : Bool :=
  let used (k : Nat) : Bool := (s.link k).rx.moved.isSome || (s.link k).rx.lost.contains 4
  used lk || (s.splitIn s.cfg.vals (lk / 2) && used (otherHalf lk))

/-- A swap of the receive direction is in progress on the link or its other half-port (R118). -/
def State.swapRuns (s : State) (lk : Nat) : Bool :=
  (s.link lk).rxSwap.isSome || (s.splitIn s.cfg.vals (lk / 2) && (s.link (otherHalf lk)).rxSwap.isSome)

/-- PORT_SPARE_SWAP (R106, R107, R118): the swap is ordered; the command ends once DONE has been sent. What the peer can do is known
while the link is UP or NARROW. A lane that the half-port does not carry is ST_BAD_FIELD (DESIGN CHOICE: entry SWAPLANE). -/
def execPortSpareSwap (o : Origin) (port half lane : Nat) (s : State) : Host.Outcome State Fault Refusal :=
  let lk := linkOf port half
  let l := s.link lk
  s.command o 0x0305 [port, half, lane]
    (s.portChks port half ++ [badFld 2 (decide (lane > 3) || (half == 1 && decide (lane > 1)) || (half == 2 && decide (lane < 2))),
      s.ownChk o (resPort port), ⟨decide (l.state ≠ .up) || s.swapRuns lk, .busy, none⟩,
      ⟨s.spareTaken lk || (l.carries && !l.peer.spareCap), .capacity, none⟩])
    (fun t s => (s.requestSwap lk lane false (some t), .later))

/-- The fuse record written is logged (18 R516, 0x1206): setting in the row order of Table 18-8. -/
def State.logFuse (s : State) (setting unit : Nat) : State := s.logRaise 0x1206 0 0 s.needle 0 (setting + unit * 2 ^ 16)

/-- Records of a port in the ledger. -/
def State.spareRecs (s : State) (port : Nat) : Nat := (s.sec.spares.filter (fun r => r.key / 2 == port)).length

/-- PORT_SPARE_FUSE (R110, R118; 18 R516). -/
def execPortSpareFuse (o : Origin) (port dir pos : Nat) (s : State) : Host.Outcome State Fault Refusal :=
  s.update o 0x0306 [port, dir, pos]
    [badFld 0 (decide (port > 63)), badFld 1 (decide (dir > 1)), badFld 2 (decide (pos > 4) && pos != 7),
     s.ownChk o (resPort port), ⟨decide (s.spareRecs port ≥ 3), .fuseExhausted, none⟩, ⟨s.fuseBusy, .busy, none⟩]
    (fun s => (s.setSec { s.sec with spares := s.sec.spares ++ [{ key := 2 * port + dir, val := pos }] }).logFuse 1 port)
    (fun s => [uf 1 (3 - s.spareRecs port)])

/-! ### Buffers (04 R150) -/

/-- The account that a selector (kind, port or source, half, VC) names at a die; `none` outside Table 04-1. -/
def State.selectAcct (s : State) (die kind port half vc : Nat) : Option Nat :=
  let a := if kind = 0 then portAcct (half * 64 + port) vc else unitAcct die kind vc
  let inTable := decide (vc < 8) && (if kind = 0 then decide (port < 64) && decide (half ≤ 2) else port == 0 && half == 0 && decide (kind < 8))
  if inTable && (s.dieAccts die).contains a then some a else none

/-- One account in a result. -/
def State.acctFlds (s : State) (a : Nat) : List Fld :=
  let x := s.acct a
  let qs := (s.buf.frames ++ s.tokFrames).filter (·.acct == a)
  [uf 4 (s.setting idAcctMin a), uf 4 (s.setting idAcctMax a), uf 4 x.h, uf 4 x.earmark, uf 4 x.o, uf 4 qs.length,
   uf 4 (s.dramHeld a)]

/-- Hanks of a die that no account has drawn. -/
def State.freeHanks (s : State) (die : Nat) : Nat := 131072 - ((s.dieAccts die).map (fun a => (s.acct a).drawn)).sum

/-- PORT_BUF_STATUS (R150): `acct` holds kind, port or source, half and VC in its bytes, all ones for all. -/
def execPortBufStatus (o : Origin) (die acct : Nat) (s : State) : Host.Outcome State Fault Refusal :=
  let sel := s.selectAcct die (bits acct 0 8) (bits acct 8 8) (bits acct 16 8) (bits acct 24 8)
  let all := decide (acct = 0xFFFFFFFF)
  s.query o 0x0307 [die, bits acct 0 8, bits acct 8 8, bits acct 16 8, bits acct 24 8]
    [badFld 0 (decide (die > 3)), badFld 1 (!all && sel.isNone)]
    (fun s =>
      let as := if all then s.dieAccts die else sel.toList
      listFlds (as.map s.acctFlds) ++
        [uf 4 (s.freeHanks die), uf 4 (s.sharedFree die), uf 4 (s.setting idOvfSize die / 512 - s.regionUsed die),
         uf 1 (s.setting idPoolMode die), uf 1 (b2n (s.regionUsed die == 0))])

/-- PORT_BUF_COUNTERS (R150). -/
def execPortBufCounters (o : Origin) (die clear : Nat) (s : State) : Host.Outcome State Fault Refusal :=
  s.command o 0x0308 [die, clear] (badFld 0 (decide (die > 3)) :: clearChks o 1 clear) (fun _ s =>
    let c := s.count .buf die
    let idx := [0, 1, 2, 3, 4, 5, 6, bcResend, bcDoubleFree] ++ (List.range 8).map (bcWait + ·) ++
      [bcPause, bcSpilled, bcReadback, bcReadbackBad, bcHold, bcLostRegion] ++ (List.range 5).map (bcDeferral + ·)
    (s.clearIf clear .buf die, .done .ok (idx.map (fun i => uf 4 (c i)))))

/-! ### Meters, schedulers, arbiters (06 R196) -/

/-- One meter in a result: settings, buckets, counters by colour, red discards. -/
def State.meterFlds (s : State) (lk vc : Nat) : List Fld :=
  let m := s.meter lk vc
  let c := s.count .meter (meterKey lk vc)
  [uf 1 (s.linkVcSetting idMeterEn lk vc), uf 1 (s.linkVcSetting idMeterMode lk vc), uf 2 (s.linkVcSetting idCir lk vc),
   uf 2 (s.linkVcSetting idPir lk vc), uf 4 (s.linkVcSetting idCbs lk vc), uf 4 (s.linkVcSetting idPbs lk vc),
   uf 8 (m.tc % 2 ^ 64).toNat, uf 8 (m.tp % 2 ^ 64).toNat, uf 8 m.last] ++ [0, 1, 2, 4, 5, 6, 8].map (fun i => uf 4 (c i))

/-- PORT_METER_READ (R196): vc 0 to 7, or 0xFF for all. -/
def execPortMeterRead (o : Origin) (port half vc clear : Nat) (s : State) : Host.Outcome State Fault Refusal :=
  s.command o 0x0309 [port, half, vc, clear]
    (s.portChks port half ++ [badFld 2 (decide (vc > 7) && vc != 255)] ++ clearChks o 3 clear) (fun _ s =>
    let lk := linkOf port half
    let vcs := if vc = 255 then List.range 8 else [vc]
    (vcs.foldl (fun s v => s.clearIf clear .meter (meterKey lk v)) s,
     .done .ok (if vc = 255 then listFlds (vcs.map (s.meterFlds lk)) else s.meterFlds lk vc)))

/-- Core cycles of a class from its count in thousandths: 32 bits, saturating. -/
def blockedCycles (t : Tab Nat) (vc : Nat) : Nat := min cMax (tabGet t 0 vc / 1000)

/-- PORT_SCHED_READ (R196). -/
def execPortSchedRead (o : Origin) (port half clear : Nat) (s : State) : Host.Outcome State Fault Refusal :=
  s.command o 0x030A [port, half, clear] (s.portChks port half ++ clearChks o 2 clear) (fun _ s =>
    let lk := linkOf port half
    let x := s.sched lk
    let one (v : Nat) : List Fld :=
      let c := s.count .sched (schedKey lk v)
      [uf 4 (s.depth lk v), uf 8 (tabGet x.tags 0 v), uf 8 ((s.shaper lk v) % 2 ^ 64).toNat] ++
        [0, 1, 2].map (fun i => uf 4 (c i)) ++ [uf 4 (blockedCycles x.noCredit v), uf 4 (blockedCycles x.noShape v)]
    let s1 := (List.range 8).foldl (fun s v => s.clearIf clear .sched (schedKey lk v)) s
    (if clear = 1 then s1.setSched lk { s1.sched lk with noCredit := [], noShape := [] } else s1,
     .done .ok (uf 8 x.v :: (List.range 8).flatMap one)))

/-- A requester in a result: weight, s, greatest c, grants, aging grants, stale grants, cycles held; the Ladder
requesters of OL20-B report counts of 0 (R196). -/
def State.reqFlds (s : State) (kind index dir i : Nat) : List Fld :=
  let r := tabGet (s.arb (arbKey kind index dir)).reqs {} i
  let r := if s.sec.grade = .b && (kind == 2 || kind == 3) && i == 4 then {} else r
  uf 1 (s.arbWeight kind index dir i) :: [r.s, r.maxc, r.grants, r.aging, r.stale, r.held].map (uf 4)

/-- ARB_STATUS (R196). -/
def execArbStatus (o : Origin) (kind index dir clear : Nat) (s : State) : Host.Outcome State Fault Refusal :=
  let sh := arbShape kind
  s.command o 0x030B [kind, index, dir, clear]
    ([badFld 0 (decide (kind > 3)), badFld 1 (decide (index ≥ sh.1)), badFld 2 (decide (dir > 1) || (!sh.2.1 && dir != 0))]
      ++ clearChks o 3 clear) (fun _ s =>
    let k := arbKey kind index dir
    let a := s.arb k
    let zeroed := { a with reqs := tabMap a.reqs (fun _ r => { r with maxc := 0, grants := 0, aging := 0, stale := 0, held := 0 }) }
    (if clear = 1 then s.setTraf { s.traf with arbs := tabPut s.traf.arbs k zeroed } else s,
     .done .ok ([uf 1 (b2n a.frozen), uf 4 a.g] ++ (List.range sh.2.2.length).flatMap (s.reqFlds kind index dir))))

end Sys2Proof.Machine
end

