-- ==== Sys2Proof/Machine/RouteCmds.lean ====
section
/-! DEFINITION. Route banks: loading, checking, reading (05 R154, R163, R171 to R175). -/

namespace Sys2Proof.Machine

open Sys2Proof

/-- The refusals of a device DRAM address parameter (16 R563; 09 R274, R275, R561): the space, the alignment, the end
of memory, and reserved regions. -/
def State.addrChks (s : State) (i addr len align : Nat) : List Chk :=
  [badFld i (decide (addr + len > 2 ^ 37) || decide (addr % align ≠ 0)), ⟨s.dramDenied addr len, .denied, none⟩]

/-- A command for which the Needle reads `len` bytes of DRAM at `addr`, management work of the Skein that holds them (15 R417): it
waits while that class is held (15 R426), and an uncorrectable word ends it with ST_INTEGRITY (17 Table 17-2). -/
def State.loading (s : State) (o : Origin) (op : Nat) (vs : List Nat) (addr len : Nat) (chks : List Chk)
    (run : Nat → State → State × Reply) : Host.Outcome State Fault Refusal :=
  let k := addr / 2 ^ 35 % 4
  if (s.waiting o op vs).isSome && (firstRefusal (s.markChks o op ++ chks)).isNone && !s.mayIssue k clsMgmt then
    .next (s.noteHold k clsMgmt)
  else s.command o op vs chks (fun t a =>
    match a.firstUe (dramKey addr) len with
    | some u => ((a.chargeLoad addr len).logUe u, .done .integrity [])
    | none => run t (a.chargeLoad addr len))

/-- The digest of the port_dir settings that a certificate names: the 64 values, two bits each (the spec names no
function; the model keeps the values themselves: entry CERT). -/
def State.portDirDigest (s : State) (vals : Tab Nat) : Nat :=
  (List.range 64).foldl (fun a p => a + s.settingOf vals idPortDir p * 4 ^ p) 0

/-- Entry `i` of `n` bytes of an image part that starts at `base`. -/
def State.imageEntry (s : State) (base i n : Nat) : Nat := s.readNat (dramKey (base + i * n)) n

/-- The bytes of a bank image: header, block entries, fine pages, group entries (R174). -/
def imageLen (pages : Nat) : Nat := 64 + 65536 + 4096 * pages + 524288

/-- A route entry with a reserved bit or the reserved kind (R8, R174; only where valid = 1). -/
def entryReserved (e : Nat) : Bool := bit e 127 && (bits e 70 52 != 0 || bits e 125 2 == 3)

/-- A route entry that R174 refuses: FINE in a fine page, a page index too high, a half that does not match. -/
def State.entryBad (s : State) (pages : Nat) (fine : Bool) (e : Nat) : Bool :=
  bit e 127 && (match bits e 125 2 with
    | 2 => fine || decide (bits e 64 6 ≥ pages)
    | 0 => (List.range (bits e 122 3 + 1)).any (fun i => !s.halfFits s.cfg.vals (bits e (8 * i) 8))
    | _ => false)

/-- The route and group entries of an image, with where each part starts. -/
def State.imageBlocks (s : State) (addr : Nat) : List Nat := (List.range 4096).map (fun i => s.imageEntry (addr + 64) i 16)
def State.imageFines (s : State) (addr pages : Nat) : List Nat :=
  (List.range (256 * pages)).map (fun i => s.imageEntry (addr + 65600) i 16)
def State.imageGroups (s : State) (addr pages : Nat) : List Nat :=
  (List.range 16384).map (fun i => s.imageEntry (addr + 65600 + 4096 * pages) i 32)

/-- The entries with valid = 1, by index. -/
def validTab (w vbit : Nat) (es : List Nat) : Tab (BitVec w) :=
  (es.zipIdx.filter (fun p => bit p.1 vbit)).map (fun p => (p.2, BitVec.ofNat w p.1))

/-- The bank of an image. -/
def State.bankImage (s : State) (addr : Nat) : Bank :=
  let h := s.readNat (dramKey addr) 64
  let pages := bits h 32 8
  { st := .loading, epoch := bits h 8 8, seed := BitVec.ofNat 16 (bits h 16 16),
    digest := crc64 (s.read (dramKey addr) (imageLen pages)),
    block := validTab 128 127 (s.imageBlocks addr), fine := validTab 128 127 (s.imageFines addr pages),
    groups := validTab 256 255 (s.imageGroups addr pages) }

/-- The bank that a load would take. -/
def RouteSt.emptyBank (r : RouteSt) : Option Nat :=
  if r.b0.st = .empty then some 0 else if r.b1.st = .empty then some 1 else none

/-- Epochs that differ by exactly one modulo 4 (R163). -/
def adjacent (a b : Nat) : Bool := (a + 1) % 4 == b || (b + 1) % 4 == a

/-- The newer installed epoch, or the only one (R163); `old` while none is installed. -/
def RouteSt.newest (r : RouteSt) (old : Nat) : Nat :=
  match r.b0.st, r.b1.st with
  | .installed, .installed => if (r.b0.epoch + 1) % 4 = r.b1.epoch then r.b1.epoch else r.b0.epoch
  | .installed, _ => r.b0.epoch
  | _, .installed => r.b1.epoch
  | _, _ => old

/-- Bring the advertised route_epoch up to date (R163). -/
def State.refreshEpoch (s : State) : State :=
  let e := s.route.newest s.route.routeEpoch
  if e = s.route.routeEpoch then s else (s.setRoute { s.route with routeEpoch := e }).profileChanged

/-- ROUTE_LOAD (R163, R174, R175): the bank is LOADING from acceptance. -/
def execRouteLoad (o : Origin) (addr : Nat) (s : State) : Host.Outcome State Fault Refusal :=
  let h := s.readNat (dramKey addr) 64
  let pages := bits h 32 8
  let epoch := bits h 8 8
  let clash (b : Bank) : Bool := decide (b.st ≠ .empty) && !adjacent epoch b.epoch
  let es := s.imageBlocks addr
  let fs := s.imageFines addr pages
  let gs := s.imageGroups addr pages
  s.loading o 0x0401 [addr] addr (imageLen pages)
    (s.addrChks 0 addr (imageLen pages) 64 ++
     [badFld 0 (decide (epoch > 3) || clash s.route.b0 || clash s.route.b1 || decide (pages > 64) ||
        decide (bits h 40 8 ≠ 0) || decide (bits h 48 464 ≠ 0)),
      badFld 0 ((es ++ fs).any entryReserved || gs.any (fun g => bit g 255 && bits g 132 123 != 0)),
      s.ownChk o resRoute,
      ⟨decide (bits h 0 8 ≠ 1) || es.any (s.entryBad pages false) || fs.any (s.entryBad pages true), .badDesc, none⟩,
      ⟨s.route.emptyBank.isNone, .busy, none⟩])
    (fun t s =>
      let i := s.route.emptyBank.getD 0
      (s.setRoute { s.route.setBank i (s.bankImage addr) with
        load := s.route.load ++ [{ ticket := t, addr := addr, len := imageLen pages, stamp := s.time.pip, bank := i }] }, .later))

/-- ROUTE_LOAD_COMPLETE (R163, R174): the bank of the load accepted first is INSTALLED from the completion stamp. -/
def execRouteLoadComplete (s : State) : Host.Outcome State Fault Refusal :=
  match s.route.load with
  | [] => .next s
  | j :: rest =>
    let b := s.route.bank j.bank
    let s := s.setRoute { s.route.setBank j.bank { b with st := .installed } with load := rest }
    .next (s.refreshEpoch.finish j.ticket .ok [uf 1 j.bank, uf 1 b.epoch, uf 8 b.digest])

/-- ROUTE_CHECK (R171, R175). The description's format is not in the spec: its verdict is a free value. -/
def execRouteCheck (o : Origin) (addr len : Nat) (s : State) : Host.Outcome State Fault Refusal :=
  let v := Config.routeVerdict (s.read (dramKey addr) len) s.devFid
  s.loading o 0x0402 [addr, len] addr len
    (s.addrChks 0 addr len 1 ++ [s.ownChk o resRoute, ⟨v == 0, .badDesc, none⟩, ⟨decide (v > 6), .capacity, none⟩,
      ⟨s.route.check.isSome, .busy, none⟩])
    (fun t s => (s.setRoute { s.route with check := some { ticket := t, addr := addr, len := len, stamp := s.time.pip } }, .later))

/-- ROUTE_CHECK_COMPLETE (R171): a pass certifies the installed bank whose digest is the one named for dev_fid, with the port_dir
settings that the description gives this device; a failure names a device and an entry or group. A word that cannot be read ends it
with ST_INTEGRITY (00 R13). -/
def execRouteCheckComplete (s : State) : Host.Outcome State Fault Refusal :=
  match s.route.check with
  | none => .next s
  | some j =>
    let bytes := s.read (dramKey j.addr) j.len
    let v := Config.routeVerdict bytes s.devFid
    let d := Config.routeDigest bytes s.devFid % 2 ^ 64
    let s := s.setRoute { s.route with check := none }
    if let some u := s.firstUe (dramKey j.addr) j.len then .next ((s.logUe u).finish j.ticket .integrity [])
    else if v = 1 then
      let cert (b : Bank) : Bank :=
        if b.st = .installed && b.digest == d then { b with cert := some (Config.routeDirs bytes s.devFid) } else b
      .next ((s.setRoute { s.route with b0 := cert s.route.b0, b1 := cert s.route.b1 }).finish j.ticket .ok
        [uf 1 1, uf 1 0, uf 4 0, uf 4 0, uf 8 d])
    else
      let x := s.fresh
      let y := x.2.fresh
      .next (y.2.finish j.ticket .ok [uf 1 0, uf 1 (v - 2), uf 4 x.1, uf 4 y.1, uf 8 0])

/-- The code of a bank state. -/
def BankState.code : BankState → Nat | .empty => 0 | .loading => 1 | .installed => 2

/-- ROUTE_STATUS (R163, R175): the pending commits of drop_epoch as a list of their values and pips. -/
def execRouteStatus (o : Origin) (s : State) : Host.Outcome State Fault Refusal :=
  s.query o 0x0403 [] [] (fun s =>
    let bank (b : Bank) : List Fld :=
      [uf 1 b.st.code, uf 1 b.epoch, uf 2 b.seed.toNat, uf 8 b.digest, uf 1 (b2n b.cert.isSome)]
    let drops := s.cfg.commits.flatMap (fun c => (c.items.filter (·.id == idDropEpoch)).map (fun x => [uf 8 x.val, uf 8 c.pip]))
    bank s.route.b0 ++ bank s.route.b1 ++ [uf 8 (s.setting idStampEpoch 0), uf 8 (s.cfg.stampSince.getD noneVal)] ++
      listFlds drops ++ [uf 1 s.route.routeEpoch])

/-- The entry that a lookup finds. -/
def State.lookupEntry (s : State) (f : Frame) : Nat :=
  match s.bankOf f.epoch with
  | none => 0
  | some bi => if f.mcast then (tabGet (s.route.bank bi).groups 0 f.dst).toNat else ((s.route.bank bi).entry bi f.dst).1

/-- What ROUTE_LOOKUP answers: the entry, the allowed candidates (of a group, the links of its fan-out), the ordered choice, h, the
internal path (of a group, that of each link), the present depths, and the cause of a discard or 0xFF. -/
def State.lookupFlds (s : State) (f : Frame) (ing : Nat) (r : Routed) : List Fld :=
  let die := linkDie ing
  let e := s.lookupEntry f
  let cands := if f.mcast || (s.bankOf f.epoch).isNone then [] else (entryCands e).filter (s.candOk ing)
  let tail (cs : List Nat) (ord h : Nat) (path : List Fld) (cause : Nat) : List Fld :=
    [bf 32 e] ++ listFlds (cs.map (fun lk => [uf 1 lk])) ++ [uf 1 ord, uf 2 h] ++ path ++
      listFlds (cs.map (fun lk => [uf 4 (s.depth lk f.vc)])) ++ [uf 1 cause]
  match r with
  | .to lk h _ _ => tail cands (orderedPick cands h) h [uf 1 (s.pathFor die lk f h)] 0xFF
  | .many ds h =>
    let lks := ds.filterMap (fun d => match d with | .link lk => some lk | _ => none)
    tail lks 0xFF h (listFlds (lks.map (fun lk => [uf 1 (s.pathFor die lk f h)]))) 0xFF
  | .discard c => tail cands 0xFF 0 [uf 1 0] c
  | .torn _ => []

/-- ROUTE_LOOKUP (R154, R175): an entry whose halves disagree is a critical-state error here as at a frame's lookup (17 Table 17-1),
and the command ends with ST_INTEGRITY. -/
def execRouteLookup (o : Origin) (epoch src dst channel vc mcast port half : Nat) (s : State) :
    Host.Outcome State Fault Refusal :=
  s.command o 0x0404 [epoch, src, dst, channel, vc, mcast, port, half]
    [badFld 0 (decide (epoch > 3)), badFld 1 (decide (src > 0xFFFFF)), badFld 2 (decide (dst > 0xFFFFF)),
     badFld 3 (decide (channel > 15)), badFld 4 (decide (vc > 7)), badFld 5 (decide (mcast > 1)),
     badFld 6 (decide (port > 63)), badFld 7 (decide (half > 2) || !s.halfFits s.cfg.vals (half * 64 + port % 64))]
    (fun _ s =>
      let f : Frame := { ty := 0, vc := vc, ch := channel, epoch := epoch, epochSet := true, dst := dst, src := src,
                         mcast := decide (mcast = 1) }
      let lk := linkOf port half
      let r := s.routeAt (linkDie lk) lk f
      match r with
      | .torn l => (s.critical rowRoute (linkDie lk) l 4 (linkDie lk) (srcOf 3 (linkDie lk)), .done .integrity [])
      | _ => (s, .done .ok (s.lookupFlds f lk r)))

/-- ROUTE_COUNTERS (R165, R175): per ingress link the discards by cause and under R82, per egress the adaptive choices
and fallbacks, frames stamped per epoch, late responses. -/
def execRouteCounters (o : Origin) (die clear : Nat) (s : State) : Host.Outcome State Fault Refusal :=
  s.command o 0x0405 [die, clear] (badFld 0 (decide (die > 3)) :: clearChks o 1 clear) (fun _ s =>
    let c := s.count .route die
    let lks := s.linkNums.filter (fun lk => linkDie lk == die)
    (s.clearIf clear .route die,
     .done .ok (listFlds (lks.map (fun lk => [0, 1, 2, 3, 4].map (fun i => uf 4 (c (8 * lk + i))))) ++
       listFlds (s.linkNums.map (fun lk => [uf 4 (c (rcAdaptive lk)), uf 4 (c (rcAdaptive lk + 1))])) ++
       (List.range 4).map (fun e => uf 4 (c (rcStamped e))) ++ [uf 4 (c rcLate)])))

end Sys2Proof.Machine
end

