-- ==== Sys2Proof/Machine/TLog.lean ====
section
/-! DEFINITION. Writing, holding back, clearing and reading the trouble log (17 R489 to R497). -/

namespace Sys2Proof.Machine

open Sys2Proof

/-- Slots of the log. -/
def logSize : Nat := 16384

/-- The 32 bytes of an entry (Table 17-3). -/
def entryWord (r : Raised) (seq ncycle : Nat) : BitVec 256 :=
  BitVec.ofNat 256 (r.stamp % 2 ^ 64 + (ncycle % 2 ^ 32) * 2 ^ 64 + (seq % 2 ^ 32) * 2 ^ 96 + (r.code % 2 ^ 16) * 2 ^ 128 +
    (r.eclass % 8 + r.tstate % 4 * 8) * 2 ^ 144 + (r.status % 256) * 2 ^ 152 + (r.source % 2 ^ 16) * 2 ^ 160 +
    (r.tag % 2 ^ 16) * 2 ^ 176 + (r.detail % 2 ^ 64) * 2 ^ 192)

/-- Slots not holding a retained entry. -/
def LogSt.freeSlots (l : LogSt) : Nat := logSize - (l.nextSeq - l.firstSeq)

/-- Whether the policy lets an entry of a class be written now (R493). -/
def LogSt.admits (l : LogSt) (eclass : Nat) : Bool :=
  l.wrap || (decide (l.freeSlots > 0) && (decide (l.freeSlots > 16) || decide (eclass ≥ 3)))

/-- The log after one entry (R489, R493): the next sequence, its slot; under WRAP the oldest goes. -/
def LogSt.put (l : LogSt) (r : Raised) (ncycle : Nat) : LogSt :=
  let seq := l.nextSeq
  { l with slots := tabPut l.slots ((seq - 1) % logSize) (entryWord r seq ncycle), nextSeq := seq + 1,
           firstSeq := max l.firstSeq (seq + 1 - logSize) }

/-- Write an entry, or count it as dropped (R490, R493); a written entry sets IRQ_STATUS bit 1, and one of
class unit or fatal SB_ALERT bit 0 (20 Table 20-4). The Needle's cycle
count is a free value. -/
def State.logWrite (s : State) (r : Raised) : State :=
  if s.log.admits r.eclass then
    let x := s.fresh
    let s := (x.2.setLog (x.2.log.put r x.1)).irqAll 1
    if r.eclass ≥ 3 then s.sbAlert 0 else s
  else s.setLog { s.log with dropped := min cMax (s.log.dropped + 1) }

/-- An entry raised and written at once. -/
def State.logNow (s : State) (code eclass status source tag detail : Nat) : State :=
  s.logWrite { stamp := s.time.pip, code := code, eclass := eclass, tstate := s.time.state.code, status := status,
               source := source, tag := tag, detail := detail }

/-- Whether a code has no period of R492: host marks, and routing discards with the rate of R165. -/
def noHold (code : Nat) : Bool := code == 0x1107 || code == 0x0501

/-- The period that holds an entry back (R491, R492). -/
def State.holder (s : State) (r : Raised) : Option Suppress :=
  if noHold r.code || decide (r.eclass ≥ 3) then none
  else s.log.suppress.find? (fun p => p.code == r.code && p.source == r.source && decide (s.time.pip < p.till))

/-- Handle an entry that reaches the Needle: hold it back and count it, or write it and begin its period (R492). -/
def State.logHandle (s : State) (r : Raised) : State :=
  match s.holder r with
  | some p =>
    s.setLog { s.log with suppressed := min cMax (s.log.suppressed + 1),
                          suppress := s.log.suppress.map (fun q => if q = p then { q with held := q.held + 1 } else q) }
  | none =>
    let written := s.log.admits r.eclass
    let s := s.logWrite r
    if noHold r.code || !written then s
    else
      let others := s.log.suppress.filter (fun q => !(q.code == r.code && q.source == r.source && q.held == 0))
      s.setLog { s.log with suppress := others ++ [{ code := r.code, source := r.source, till := s.time.pip + 2 ^ 16 }] }

/-- Handle every raised entry, oldest first (R475: the entry is in the log before the reset begins). -/
def State.logFlush (s : State) : State :=
  let rs := s.log.raised
  rs.foldl State.logHandle (s.setLog { s.log with raised := [] })

/-- LOG_ENTRY_WRITE (R489 to R493; 16 R446): the oldest raised entry reaches the log. -/
def execLogEntryWrite (s : State) : Host.Outcome State Fault Refusal :=
  match s.log.raised with
  | [] => .next s
  | r :: rest => if s.needleRuns then .next ((s.setLog { s.log with raised := rest }).logHandle r) else .next s

/-- LOG_SUPPRESS_END (R492): at the end of a period with entries held back, one entry 0x1106 carries the count. -/
def execLogSuppressEnd (code src : Nat) (s : State) : Host.Outcome State Fault Refusal :=
  match s.log.suppress.find? (fun p => p.code == code && p.source == src && decide (p.till ≤ s.time.pip)) with
  | none => .next s
  | some p =>
    let s := s.setLog { s.log with suppress := s.log.suppress.erase p }
    .next (if p.held = 0 then s else s.logNow 0x1106 0 0 s.needle 0 (code + src * 2 ^ 16 + p.held * 2 ^ 32))

/-- LOG_STATUS (R497). -/
def execLogStatus (o : Origin) (s : State) : Host.Outcome State Fault Refusal :=
  s.query o 0x0B01 [] [] (fun s =>
    [uf 1 (b2n s.log.wrap), uf 4 s.log.firstSeq, uf 4 s.log.nextSeq, uf 4 s.log.dropped, uf 4 s.log.suppressed,
     uf 4 s.log.unreadable])

/-- LOG_MARK (R492, R497): an entry 0x1107 with the acceptance stamp. -/
def execLogMark (o : Origin) (value : Nat) (s : State) : Host.Outcome State Fault Refusal :=
  s.update o 0x0B02 [value] [⟨!s.log.admits 0, .capacity, none⟩]
    (fun s => s.logNow 0x1107 0 0 s.needle 0 value) (fun s => [uf 4 (s.log.nextSeq - 1)])

/-- LOG_CLEAR (R494, R497): frees every retained entry with a sequence of `upTo` or less. -/
def execLogClear (o : Origin) (upTo : Nat) (s : State) : Host.Outcome State Fault Refusal :=
  s.update o 0x0B03 [upTo] [badFld 0 (decide (s.log.nextSeq ≤ upTo)), s.ownChk o resLog]
    (fun s => s.setLog { s.log with firstSeq := max s.log.firstSeq (upTo + 1) }) (fun s => [uf 4 s.log.firstSeq])

/-- LOG_POLICY (R493, R494, R497): 0 STOP, 1 WRAP; answers the previous policy. -/
def execLogPolicy (o : Origin) (policy : Nat) (s : State) : Host.Outcome State Fault Refusal :=
  s.command o 0x0B04 [policy] [badFld 0 (decide (policy > 1)), s.ownChk o resLog] (fun _ s =>
    (s.setLog { s.log with wrap := decide (policy = 1) }, .done .ok [uf 1 (b2n s.log.wrap)]))

end Sys2Proof.Machine
end

