-- ==== Sys2Proof/Machine/HostIf.lean ====
section
/-! DEFINITION. Host ports, mailboxes, claims, roles and MGMT frames (16). -/

namespace Sys2Proof.Machine

open Sys2Proof

/-- A refused MB_STATE write is counted and logged (R452; 0x1002). -/
def State.refuseMbWrite (s : State) (h : HostId) (m w : Nat) (data : Bool) : State :=
  let b := (s.host.port h).box m
  let s := s.bump .host h.num (if data then hcData else hcState)
  s.logRaise 0x1002 0 0 (srcOf 8 h.num) 0
    (m + b2n data * 32 + b.state * 256 + b.gen * 2 ^ 16 + (if data then 0 else w % 2 ^ 16 * 2 ^ 32))

/-- The value that a write of MB_STATE carries, its reserved bits [7:2] ignored (R7, Table 16-5). -/
def mbWritten (w : BitVec 32) : Nat := bits w.toNat 8 8 * 256 + bits w.toNat 0 2

/-- The state a host's write gives a mailbox (the table of R452); `none` for any other write. -/
def mbNext (b : Mailbox) (v : Nat) : Option Nat :=
  let g := (b.gen + 1) % 256
  if (b.state = 0 ∨ b.state = 3) ∧ v = g * 256 + 1 then some v
  else if b.state = 3 ∧ v = b.gen * 256 then some v
  else none

/-- A write of bytes of MB_STATE, from its byte `lo` on (R5, R6, R450, R452): both halves come in one access and are
complements, or the register keeps its value. -/
def State.mbStateWrite (s : State) (h : HostId) (m lo : Nat) (bs : List Byte) : State :=
  let b := (s.host.port h).box m
  let w := BitVec.ofNat 32 (leNat bs)
  let v := bits w.toNat 0 16
  if !b.paired then (s.logRaise 2 3 0 (srcOf 8 h.num) 0 (rowMb + m * 2 ^ 8)).resetInterface h
  else if lo ≠ 0 ∨ bs.length ≠ 4 ∨ bits w.toNat 16 16 ≠ 0xFFFF - v then
    (s.bump .host h.num hcState).refuseWrite (srcOf 8 h.num) (0x10000 + 0x1000 * m) h.num
  else match mbNext b (mbWritten w) with
    | none => s.refuseMbWrite h m v false
    | some v' =>
      let s := s.setBox h m { b with st := pairWord v' }
      if v' % 4 = 1 then s.postCommand { o := .mb h m, stamp := s.time.pip } else s

/-- MB_STATE_WRITE (R5, R6, R450, R452 to R457, R473; 18 R508): a host writes a mailbox's state word; a posted
command enters the one order. -/
def execMbStateWrite (h : HostId) (m : Nat) (w : BitVec 32) (s : State) : Host.Outcome State Fault Refusal :=
  if !(s.host.port h).up || decide (m ≥ 32) then .next s else .next (s.mbStateWrite h m 0 (leBytes 4 w.toNat))

/-- Bytes written over a block at an offset. -/
def overlay (x len off : Nat) (data : List Byte) : Nat :=
  let d := data.take (len - off)
  setBits x (8 * off) (8 * d.length) (leNat d)

/-- A write from offset `off` of a mailbox, 0x040 to 0x83F: CMD, PARAMS or across both (R453). -/
def State.mbDataWrite (s : State) (h : HostId) (m off : Nat) (data : List Byte) : State :=
  let b := (s.host.port h).box m
  if b.state = 1 ∨ b.state = 2 then s.refuseMbWrite h m 0 true
  else
    let n := 0x80 - off
    s.setBox h m { b with
      cmd := BitVec.ofNat 512 (overlay b.cmd.toNat 64 (off - 0x40) (data.take n)),
      params := BitVec.ofNat 15872 (overlay b.params.toNat 1984 (off - 0x80) (data.drop n)) }

/-- The longest write payload accepted from a host, in bytes (R441). -/
def hostPayload : Nat := 512

/-- MAILBOX_CMD_WRITE (R441, R453): a host writes CMD (0x040 to 0x07F), PARAMS (0x080 to 0x83F) or across both of a mailbox;
while it is POSTED or TAKEN the write is discarded, counted and logged. -/
def execMailboxCmdWrite (h : HostId) (m off : Nat) (data : List Byte) (s : State) :
    Host.Outcome State Fault Refusal :=
  if !(s.host.port h).up || decide (m ≥ 32) || decide (off < 0x40) || decide (off ≥ 0x840) ||
     decide (hostPayload < data.length) then .next s
  else .next (s.mbDataWrite h m off data)

/-- A write from offset `off` of a mailbox as a part of BAR0: the bytes of MB_STATE and those of CMD and PARAMS that it
covers take effect, and the others are ignored. -/
def State.mailboxWrite (s : State) (h : HostId) (m off : Nat) (data : List Byte) : State :=
  let s := if off < 4 ∧ data ≠ [] then s.mbStateWrite h m off (data.take (4 - off)) else s
  let rest := data.drop (0x40 - off)
  if rest = [] ∨ off ≥ 0x840 then s else s.mbDataWrite h m (max off 0x40) rest

/-- PIP_READ (R444), of the replica on the port's die: an 8-byte read, or a 4-byte read that latches the high half. -/
def execPipRead (h : HostId) (width : Nat) (s : State) : Host.Outcome State Fault Refusal :=
  let p := s.host.port h
  if !p.up then .next s
  else if width = 8 then .next (s.emit (.read h (leBytes 8 (s.pipOn h.num))))
  else if width = 4 then
    .next ((s.setPort h { p with pipHiLatch := BitVec.ofNat 32 (s.pipOn h.num / 2 ^ 32) }).emit (.read h (leBytes 4 (s.pipOn h.num))))
  else .next s

/-! ### Host links (R438, R442, R463) -/

/-- A change of role, claim or UP state shows at IRQ_STATUS bit 3 of both ports. -/
def State.hostChanged (s : State) : State := s.irqAll 3

/-- The highest PCIe generation that the RSTCFG code selects (18 Table 18-3). -/
def State.maxGen (s : State) : Nat := if bit s.boot.rstcfg 2 then 5 else 6

/-- The pip since which the primary has been DOWN (R463). -/
def State.watchPrimary (s : State) : State :=
  if (s.host.port s.host.primary).up then s.setHost { s.host with primaryDownSince := none }
  else if s.host.primaryDownSince.isSome then s
  else s.setHost { s.host with primaryDownSince := some s.time.pip }

/-- HOST_LINK_TRAIN (R438, R442; 18 Table 18-5; 20 R553): from phase ROM on, PERST# is deasserted and the link comes to L0 at a generation and width; a
port that cannot reach 16 GT/s and ×4 stays DOWN and the attempt is logged. -/
def execHostLinkTrain (h : HostId) (gen width : Nat) (s : State) : Host.Outcome State Fault Refusal :=
  if !s.sidebandUp then .next s
  else
    let p := s.host.port h
    let g := min gen s.maxGen
    if g < 4 ∨ !([4, 8, 16].contains width) then
      let s := s.setPort h { p with perst := false, trained := false }
      let s := if p.up then s.irq 3 h.other else s
      .next (s.watchPrimary.logRaise 0x1003 0 0 (srcOf 8 h.num) 0 0)
    else
      let s := s.setPort h { p with perst := false, trained := true, gen := g, width := width }
      .next (if p.up then s else s.watchPrimary.irq 3 h.other)

/-- HOST_LINK_DOWN (R442): the link leaves L0 and L0p. -/
def execHostLinkDown (h : HostId) (s : State) : Host.Outcome State Fault Refusal :=
  let p := s.host.port h
  if !p.up then .next s
  else .next ((s.setPort h { p with trained := false }).watchPrimary.irq 3 h.other)

/-- The claims of a host. -/
def Claims.of (c : Claims) : HostId → BitVec 128 | .h0 => c.c0 | .h1 => c.c1

/-- PERST_ASSERT (R442; 18 R498): that host interface alone is reset; its end is logged with its source. -/
def execPerstAssert (h : HostId) (s : State) : Host.Outcome State Fault Refusal :=
  let seen := (s.host.port h).up || s.claims.of h != 0
  let s := s.logFlush.resetInterface h
  let p := s.host.port h
  let s := (s.setPort h { p with perst := true, trained := false, gen := 0, width := 0 }).watchPrimary
  let s := s.setBoot { s.boot with jobs := s.boot.jobs ++
    [{ scope := 6, unit := h.num, source := 3 + h.num, due := s.time.pip, begun := true }] }
  .next (if seen then s.irq 3 h.other else s)

/-- FAILOVER_WAIT_EXPIRY (R463): the primary was DOWN for failover_wait without a break. -/
def execFailoverWaitExpiry (s : State) : Host.Outcome State Fault Refusal :=
  match s.host.primaryDownSince with
  | none => .next s
  | some t =>
    if t + s.setting idFailoverWait 0 ≤ s.time.pip then
      let old := s.host.primary
      let s := s.setClaims (match old with | .h0 => { s.claims with c0 := 0 } | .h1 => { s.claims with c1 := 0 })
      let s := s.setHost { s.host with primary := old.other, primaryDownSince := none }
      .next ((s.watchPrimary.logRaise 0x1003 0 0 (srcOf 8 old.other.num) 0 1).hostChanged)
    else .next s

/-! ### Claims and roles (R460 to R463, R472) -/

/-- The reserved bits of a resource mask (Table 16-8). -/
def reservedMask : BitVec 128 := BitVec.ofNat 128 (0xFC00 + (2 ^ 128 - 2 ^ 80))

/-- Add a mask to a host's claims; what passes from the other host leaves it. -/
def Claims.claim (c : Claims) (h : HostId) (mask : BitVec 128) : Claims :=
  match h with
  | .h0 => { c0 := c.c0 ||| mask, c1 := c.c1 &&& ~~~mask }
  | .h1 => { c0 := c.c0 &&& ~~~mask, c1 := c.c1 ||| mask }

/-- Take a mask from a host's claims. -/
def Claims.release (c : Claims) (h : HostId) (mask : BitVec 128) : Claims :=
  match h with
  | .h0 => { c with c0 := c.c0 &&& ~~~mask }
  | .h1 => { c with c1 := c.c1 &&& ~~~mask }

/-- New claims; a change shows at IRQ_STATUS bit 3. -/
def State.newClaims (s : State) (c : Claims) : State := if s.claims = c then s else (s.setClaims c).hostChanged

/-- The host of a command; the fabric's never reach a meaning that asks (their opcodes carry no F). -/
def Origin.hostD (o : Origin) : HostId := (Origin.host? o).getD .h0

/-- HOST_CLAIM (R461, R462): all or nothing; force passes claims of a host that is DOWN. -/
def execHostClaim (o : Origin) (mask : BitVec 128) (force : Nat) (s : State) : Host.Outcome State Fault Refusal :=
  let h := Origin.hostD o
  let forced := decide (force = 1) && !(s.host.port h.other).up
  s.update o 0x0E01 [mask.toNat, force]
    [badFld 0 (mask &&& reservedMask != 0), badFld 1 (decide (force > 1)),
     ⟨s.claims.of h.other &&& mask != 0 && !forced, .notOwner, none⟩]
    (fun s => s.newClaims (s.claims.claim h mask))
    (fun s => [bf 16 (s.claims.of h).toNat])

/-- HOST_RELEASE (R461, R472). -/
def execHostRelease (o : Origin) (mask : BitVec 128) (s : State) : Host.Outcome State Fault Refusal :=
  let h := Origin.hostD o
  s.update o 0x0E02 [mask.toNat] [badFld 0 (mask &&& reservedMask != 0)]
    (fun s => s.newClaims (s.claims.release h mask))
    (fun s => [bf 16 (s.claims.of h).toNat])

/-- HOST_STATUS (R472): pips left before failover are noneVal when the primary is UP. -/
def execHostStatus (o : Origin) (s : State) : Host.Outcome State Fault Refusal :=
  s.query o 0x0E03 [] [] (fun s =>
    let one (h : HostId) : List Fld := [uf 1 (b2n (decide (s.host.primary = h))), uf 1 (b2n (s.host.port h).up)]
    let left := match s.host.primaryDownSince with
      | some t => t + s.setting idFailoverWait 0 - s.time.pip | none => noneVal
    one .h0 ++ one .h1 ++ [bf 16 s.claims.c0.toNat, bf 16 s.claims.c1.toNat, uf 8 left] ++
      [HostId.h0, HostId.h1].flatMap (fun h => [uf 4 (s.count .host h.num hcState), uf 4 (s.count .host h.num hcData)]))

/-- HOST_ROLE_SWAP (R460, R472): the other host is primary from the completion stamp. -/
def execHostRoleSwap (o : Origin) (s : State) : Host.Outcome State Fault Refusal :=
  let h := Origin.hostD o
  s.update o 0x0E04 [] [⟨!(s.host.port h.other).up, .busy, none⟩]
    (fun s => ((s.setHost { s.host with primary := h.other, primaryDownSince := none }).watchPrimary).hostChanged)
    (fun _ => [])

/-! ### MGMT frames (R464, R465) -/

/-- Fabric commands in progress: waiting and TAKEN. -/
def State.fabInProgress (s : State) : Nat :=
  let fab (o : Origin) : Bool := match o with | .fab _ _ => true | .mb _ _ => false
  (s.host.order.filter (fun p => fab p.o)).length + (s.host.taken.filter (fun t => fab t.o)).length

/-- Answer a request without a command (R465). -/
def State.answerMgmt (s : State) (f : Frame) (hdr : BitVec 512) (st : Status) : State :=
  s.respond { ticket := 0, o := .fab f.src f.seq, op := cmdOp hdr, cookie := cmdCookie hdr, irq := false,
              stamp := s.time.pip, tstate := s.time.state.code } st 0xFFFF []

/-- MGMT_REQUEST (R456, R457, R459, R464, R465, R473; 04 R120): the oldest request of an ingress reaches the mailbox
controller. Its authority is judged with its other conditions, in the order of R10 and R508. -/
def execMgmtRequest (ing : Nat) (s : State) : Host.Outcome State Fault Refusal :=
  match s.localHead ing 0 9 with
  | none => .next s
  | some q =>
    if bits q.f.spec 22 2 ≠ 0 then .next s
    else
      let s := s.consume q
      let hdr := BitVec.ofNat 512 (leNat (q.f.cells.take 64))
      let len := cmdLen hdr
      if s.fabInProgress ≥ 16 then
        .next ((s.bump .local q.die lcMgmtReq).logRaise 0x1004 0 0 s.needle 0 (q.f.src + cmdOp hdr * 2 ^ 20))
      else if q.f.n ≠ 1 + (len + 63) / 64 then
        .next (s.answerMgmt q.f hdr (if (marksOf (cmdOp hdr)).isNone then .badOpcode else .badField))
      else
        .next (s.postCommand { o := .fab q.f.src q.f.seq, stamp := s.time.pip, cmd := hdr,
                               params := BitVec.ofNat 15872 (leNat (q.f.cells.drop 64)) })

/-- MGMT_RESPONSE (R464): discarded and counted. -/
def execMgmtResponse (ing : Nat) (s : State) : Host.Outcome State Fault Refusal :=
  match s.localHead ing 0 9 with
  | none => .next s
  | some q => if bits q.f.spec 22 2 ≠ 1 then .next s else .next ((s.consume q).bump .local q.die lcMgmtRsp)

end Sys2Proof.Machine
end

