-- ==== Sys2Proof/Machine/LocalMem.lean ====
section
/-! DEFINITION. Accesses from the fabric, from hosts and to registers: READ_REQ, atomics, BAR2, register writes and
bank retention (09; 16 R446 to R449; 20 R551). -/

namespace Sys2Proof.Machine

open Sys2Proof

/-! ### Requests from the fabric (R279, R284) -/

/-- The fields of a request prefix: offset, cookie, and whether a reserved bit is set. -/
def Frame.offset (f : Frame) : Nat := fieldAt f.cells 0 8 % 2 ^ 42
def Frame.cookie (f : Frame) : Nat := fieldAt f.cells 8 4
def Frame.prefixBad (f : Frame) : Bool := decide (fieldAt f.cells 0 8 ≥ 2 ^ 42) || decide (fieldAt f.cells 12 4 ≠ 0)

/-- The Skein that serves a local frame. -/
def QFrame.skein (q : QFrame) : Nat := match q.dest with | .skein k => k | _ => (dieSkeins q.die).1

/-- Answer a frame with an ERR_COMPL from the Skein that serves it. -/
def State.answerErr (s : State) (q : QFrame) (st : Status) : State := s.sendSkein q.skein (s.errCompl q.f q.f.cookie st)

/-- Cells of a data frame and its spec: bytes in the last cell, 0 for 64. -/
def dataCells (bs : List Byte) : List Byte := padTo ((bs.length + 63) / 64 * 64) bs
def dataSpec (n : Nat) : Nat := n % 64

/-- A READ_RSP that answers a frame. -/
def State.readRspTo (s : State) (f : Frame) (bs : List Byte) : Frame :=
  { ty := 2, vc := 2, ch := f.ch, dst := f.src, src := s.devFid, seq := f.seq, spec := dataSpec bs.length,
    cells := dataCells bs }

/-- The refusal of a fabric access to memory: the offset's rules, with the slots of a mirror open to its primary
(R279; 13 R388). -/
def State.fabricStatus (s : State) (f : Frame) (len : Nat) : Option Status :=
  if f.prefixBad then some .badField
  else if bits f.offset 40 2 ≥ 2 then some .badField
  else if f.ty = 1 ∧ bits f.offset 40 2 = 0 ∧ s.mirrorRead f.src f.offset len then none
  else s.localStatus (offsetAddr f.offset) len

/-- A range that the fabric or a host accesses: its banks are not idle, and it meets the accesses of the same cycle (R265, R267). -/
def State.fabricAccess (s : State) (a n : Nat) : State :=
  if addrSpace a = 1 then (s.touch a n).meet incoming (memKey a) n else s

/-- READ_REQ (R279, R388): read memory and answer READ_RSP or ERR_COMPL. -/
def execReadReq (ing vc : Nat) (s : State) : Host.Outcome State Fault Refusal :=
  match s.localHead ing vc 1 with
  | none => .next s
  | some q =>
    let n := bits q.f.spec 0 14
    let bad := if n = 0 ∨ n > 8192 then some .badField else s.fabricStatus q.f n
    match bad with
    | some st => .next (((s.consume q).bump .local q.die lcRefused).answerErr q st)
    | none =>
      let a := offsetAddr q.f.offset
      if !s.memReady q.skein a n then .next s
      else
        let r := ((s.consume q).fabricAccess a n).firstBy incoming (fun s => s.load (memKey a) n)
        match r.2 with
        | .error e => .next (r.1.answerErr q e)
        | .ok bs => .next (r.1.sendSkein q.skein (r.1.readRspTo q.f bs))

/-- The operands of an ATOMIC frame, from byte 16. -/
def Frame.operand (f : Frame) (n : Nat) : Nat := leNat ((f.cells.drop 16).take n)

/-- The refusal of an ATOMIC frame (R284, R279). -/
def State.atomicStatus (s : State) (f : Frame) : Option Status :=
  let code := bits f.spec 0 8
  match atomSize code with
  | none => some .badField
  | some n =>
    if f.prefixBad then some .badField
    else if code % 128 ≥ 0x20 then
      if bits f.offset 40 2 ≠ 3 ∨ bits f.offset 32 8 ≠ 0 then some .badField
      else match signalStitch (bits f.offset 0 32) with
        | none => some .badField
        | some st => s.stitchStatus st
    else if bits f.offset 40 2 ≠ 0 ∨ f.offset % n ≠ 0 then some .badField
    else s.localStatus (offsetAddr f.offset) n

/-- An ATOMIC frame with one operation: applied where nothing refuses it, and answered under R284. Rows pass the
code they serve; a code of no row is served, and refused, by the row ADD_I32. -/
def State.atomicRow (s : State) (ing code : Nat) : Host.Outcome State Fault Refusal :=
  match s.localHead ing 1 3 with
  | none => .next s
  | some q =>
    let c := bits q.f.spec 0 8
    let mine := decide (c % 128 = code) || (code == 1 && (atomSize c).isNone)
    if !mine then .next s
    else match s.atomicStatus q.f with
      | some st => .next (((s.consume q).bump .local q.die lcRefused).answerErr q st)
      | none =>
        if c % 128 ≥ 0x20 then
          let st := (signalStitch (bits q.f.offset 0 32)).getD 0
          if decide ((s.tile st).power ≠ .active) then .next s
          else
            let t := ((s.consume q).signal st c (q.f.operand 8))
            .next (if q.f.ackReq then t.answerErr q .ok else t)
        else
          if !s.memReady q.skein (offsetAddr q.f.offset) ((atomSize c).getD 0) then .next s else
          let r := (s.consume q).atomic (memKey (offsetAddr q.f.offset)) c (q.f.operand (atomOperands c))
          match r.2 with
          | .error e => .next (r.1.answerErr q e)
          | .ok old =>
            if bit c 7 then .next (if q.f.ackReq then r.1.answerErr q .ok else r.1)
            else .next (r.1.sendSkein q.skein (r.1.readRspTo q.f old))

/-- ADD_I32 (Table 09-7): sum saturating under R213. -/
def execAddI32 (ing : Nat) (s : State) : Host.Outcome State Fault Refusal := s.atomicRow ing 0x01
/-- ADD_I64: sum modulo 2^64. -/
def execAddI64 (ing : Nat) (s : State) : Host.Outcome State Fault Refusal := s.atomicRow ing 0x02
/-- ADD_F32: rnd(old + addend). -/
def execAddF32 (ing : Nat) (s : State) : Host.Outcome State Fault Refusal := s.atomicRow ing 0x03
/-- ADD_F32X8: as ADD_F32, element by element. -/
def execAddF32x8 (ing : Nat) (s : State) : Host.Outcome State Fault Refusal := s.atomicRow ing 0x04
/-- MAX_I32. -/
def execMaxI32 (ing : Nat) (s : State) : Host.Outcome State Fault Refusal := s.atomicRow ing 0x05
/-- MIN_I32. -/
def execMinI32 (ing : Nat) (s : State) : Host.Outcome State Fault Refusal := s.atomicRow ing 0x06
/-- MAX_F32 under R212. -/
def execMaxF32 (ing : Nat) (s : State) : Host.Outcome State Fault Refusal := s.atomicRow ing 0x07
/-- MIN_F32 under R212. -/
def execMinF32 (ing : Nat) (s : State) : Host.Outcome State Fault Refusal := s.atomicRow ing 0x08
/-- AND_64. -/
def execAnd64 (ing : Nat) (s : State) : Host.Outcome State Fault Refusal := s.atomicRow ing 0x09
/-- OR_64. -/
def execOr64 (ing : Nat) (s : State) : Host.Outcome State Fault Refusal := s.atomicRow ing 0x0A
/-- XOR_64. -/
def execXor64 (ing : Nat) (s : State) : Host.Outcome State Fault Refusal := s.atomicRow ing 0x0B
/-- SWAP_64. -/
def execSwap64 (ing : Nat) (s : State) : Host.Outcome State Fault Refusal := s.atomicRow ing 0x0C
/-- CAS_64. -/
def execCas64 (ing : Nat) (s : State) : Host.Outcome State Fault Refusal := s.atomicRow ing 0x0D
/-- SIGNAL_FLAG (R271, R284). -/
def rowSignalFlag (ing : Nat) (s : State) : Host.Outcome State Fault Refusal := s.atomicRow ing 0x20
/-- SIGNAL_CNT (R271, R284). -/
def rowSignalCnt (ing : Nat) (s : State) : Host.Outcome State Fault Refusal := s.atomicRow ing 0x21

/-! ### BAR2 (16 R448, R449) -/

/-- The device address of a BAR2 offset. -/
def State.bar2Addr (s : State) (h : HostId) (off : Nat) : Nat := (s.host.port h).bar2Base + off

/-- An access within the BAR of a host that is UP. -/
def State.bar2Ok (s : State) (h : HostId) (off len : Nat) : Bool :=
  (s.host.port h).up && decide (0 < len) && decide (off + len ≤ 2 ^ (s.host.port h).bar2Log)

/-- A failed BAR2 access is counted and logged (0x1001). -/
def State.bar2Fail (s : State) (h : HostId) (addr write : Nat) : State :=
  (s.bump .host h.num hcBar2).logRaise 0x1001 2 0 (srcOf 8 h.num) 0 (addr % 2 ^ 37 + write * 2 ^ 40)

/-- DRAM that a host port reaches now: no bridge from its port die and back, and no channel arbiter, is frozen (06 R193), and no
refresh holds a channel (09 R282). Its class is never held (R449). -/
def State.bar2Open (s : State) (h : HostId) (a len : Nat) : Bool :=
  (granules a len).all (fun g =>
    let ch := channelOf g
    let ks := skeinRoute h.num (ch / 64)
    !s.frozenOn (arbKey 2 ch 0 :: bridgesFrom h.num ks ++ skeinHops ks.reverse ++ [dieBridge h.num (ks.headD 0) 1]) && !s.refreshing ch)

/-- BAR2_READ: charged to the management class, never held by it; data, Unsupported Request on a reserved region, Completer Abort
on an uncorrectable error. -/
def execBar2Read (h : HostId) (off len : Nat) (s : State) : Host.Outcome State Fault Refusal :=
  let a := s.bar2Addr h off
  if !s.bar2Ok h off len then .next s
  else if (s.localStatus a len).isSome then
    .next (((s.charge (bits a 35 2) clsMgmt 0 (moveEu len)).bar2Fail h a 0).emit (.unsupported h))
  else if !s.bar2Open h a len then .next s
  else
    let s := s.charge (bits a 35 2) clsMgmt 0 (moveEu len)
    let r := (s.fabricAccess a len).firstBy incoming (fun s => s.load (memKey a) len)
    match r.2 with
    | .error _ => .next ((r.1.bar2Fail h a 0).emit (.completerAbort h))
    | .ok bs => .next (r.1.emit (.read h bs))

/-- BAR2_WRITE: written word by word; discarded on a reserved region, and not accepted beyond 512 bytes (R441). -/
def execBar2Write (h : HostId) (off : Nat) (data : List Byte) (s : State) : Host.Outcome State Fault Refusal :=
  let a := s.bar2Addr h off
  if !s.bar2Ok h off data.length || decide (hostPayload < data.length) then .next s
  else if (s.localStatus a data.length).isSome then .next ((s.charge (bits a 35 2) clsMgmt 0 (moveEu data.length)).bar2Fail h a 1)
  else if !s.bar2Open h a data.length then .next s
  else
    let s := s.charge (bits a 35 2) clsMgmt 0 (moveEu data.length)
    let r := (s.fabricAccess a data.length).firstBy incoming (fun s => s.storeBy incoming (memKey a) data)
    .next (if r.2 then r.1.bar2Fail h a 1 else r.1)

/-! ### Register writes (00 R5 to R7; 16 Tables 16-2 to 16-4, R446, R447; 20 Table 20-4) -/

/-- Write an MSI-X table word; a vector whose mask clears sends its pending message (R446). -/
def State.msixWrite (s : State) (h : HostId) (off : Nat) (data : List Byte) : State :=
  let p := s.host.port h
  let v := off / 16
  let e := BitVec.ofNat 128 (overlay (p.msixEntry v).toNat 16 (off % 16) data)
  let e := BitVec.ofNat 128 (e.toNat % 2 ^ 97)
  let s := s.setPort h { p with msix := tabPut p.msix v e }
  if !e.getLsbD 96 && p.pba.getLsbD v then
    let p := s.host.port h
    (s.setPort h { p with pba := p.pba &&& ~~~(1#40 <<< v) }).sendVector h v
  else s

/-- The bytes of a write at `off` that fall on a register of `len` bytes at `base`, given with the first one's place in it;
a register that none of them falls on is left alone (R7). -/
def State.onBytes (s : State) (off base len : Nat) (data : List Byte) (f : State → Nat → List Byte → State) : State :=
  let d := (data.drop (base - off)).take (len - (off - base))
  if d.isEmpty then s else f s (off - base) d

/-- The word that a write of some bytes of a register carries, its other bytes 0: what a W1C register of `n` bits clears. -/
def clearing (n off : Nat) (data : List Byte) : BitVec n := BitVec.ofNat n (overlay 0 (n / 8) off data)

/-- A write to BAR0: each register it covers takes the bytes that fall on it. RW fields are set, W1C bits cleared, an MSI-X
entry and a mailbox take theirs, everything else is ignored. -/
def State.bar0Write (s : State) (h : HostId) (off : Nat) (data : List Byte) : State :=
  let s := s.onBytes off 0x040 8 data (fun s o d =>
    let p := s.host.port h
    s.setPort h { p with bar2Base := overlay p.bar2Base 8 o d % 2 ^ 37 / 2 ^ p.bar2Log * 2 ^ p.bar2Log })
  let s := s.onBytes off 0x200 4 data (fun s o d => s.clearIrq h (clearing 32 o d))
  let s := s.onBytes off 0x204 4 data (fun s o d =>
    let p := s.host.port h
    s.setPort h { p with irqEnable := BitVec.ofNat 32 (overlay p.irqEnable.toNat 4 o d % 2 ^ 7) })
  let s := s.onBytes off 0x208 4 data (fun s o d => s.clearDone h (clearing 32 o d))
  let s := s.onBytes off 0x280 128 data (fun s o d => s.clearEnded h (clearing 1024 o d))
  let s := (List.range 40).foldl (fun s v => s.onBytes off (0x1000 + 16 * v) 16 data (fun s o d => s.msixWrite h (16 * v + o) d)) s
  (List.range 32).foldl (fun s m => s.onBytes off (0x10000 + 0x1000 * m) 0x1000 data (fun s o d => s.mailboxWrite h m o d)) s

/-- The one physical function that each host port presents (16 R439 to R441): no virtual functions, two BARs, no expansion ROM. -/
structure PciFunction where
  classCode : Nat := 0x120000
  virtualFunctions : Nat := 0
  bar0Log : Nat := 24
  bar2MinLog : Nat := 30
  bar2MaxLog : Nat := 37
  expansionRom : Bool := false
  errorReporting : Bool := true
  aspmL1 : Bool := false
  deriving DecidableEq, Repr

/-- The configuration space of each function. -/
def pciFunction : PciFunction := {}

/-- A write of the control register of the Resizable BAR capability (R440): the BAR Size field, [13:8], is log2 of the size less 20
(PRESUMED from PCIe: entry REBAR); a size out of the range of R440 is not taken. The window base keeps its alignment. -/
def State.resizeBar2 (s : State) (h : HostId) (data : List Byte) : State :=
  let n := bits (leNat data) 8 6 + 20
  if pciFunction.bar2MinLog ≤ n ∧ n ≤ pciFunction.bar2MaxLog then
    let p := s.host.port h
    s.setPort h { p with bar2Log := n, bar2Base := p.bar2Base / 2 ^ n * 2 ^ n }
  else s

/-- REGISTER_WRITE: one access to a register of BAR0, of the device control space or of the sideband, or to the size of
BAR2. -/
def execRegisterWrite (t : RegTarget) (data : List Byte) (s : State) : Host.Outcome State Fault Refusal :=
  match t with
  | .bar0 h off => if (s.host.port h).up && decide (data.length ≤ hostPayload) then .next (s.bar0Write h off data) else .next s
  | .ctl a =>
    if data.isEmpty || (s.ctlStatus a data.length true).isSome || !s.padReady a data.length then .next s
    else .next ((s.touch a data.length).pageWrite (bits a 0 32) data 0xFF)
  | .sb reg =>
    let v := BitVec.ofNat 8 (leNat data)
    if data.isEmpty || !s.sidebandUp then .next s
    else if reg = 5 then .next (s.clearAlert v)
    else if reg = 4 then .next (s.setSide { s.side with alertMask := v }).alertPin
    else .next s
  | .resize h => if (s.host.port h).up && decide (data.length = 4) then .next (s.resizeBar2 h data) else .next s

/-! ### Bank retention (R267) -/

/-- SPAD_RETAIN_WRITE: request retention of banks, or wake those whose bit is cleared; it waits until the Stitch is ACTIVE (15 R434). -/
def execSpadRetainWrite (st : Nat) (w : BitVec 32) (s : State) : Host.Outcome State Fault Refusal :=
  if (s.stitchStatus st).isSome || decide ((s.tile st).power ≠ .active) then .next s else .next ((s.atTile st).writeRetain st w)

/-- BANK_WAKE: a bank in retention wakes for the access that waits at it. -/
def execBankWake (st bank : Nat) (s : State) : Host.Outcome State Fault Refusal :=
  let t := s.tile st
  if (s.stitchStatus st).isSome || decide (bank ≥ 32) || t.awake.getLsbD bank || decide (t.power ≠ .active) then .next s
  else .next (s.setTile st { t with awake := t.awake ||| (1#32 <<< bank), idle := tabPut t.idle bank s.time.pip })

/-- Core cycles of a Skein in pips, rounded up. -/
def State.cyclesPips (s : State) (k n : Nat) : Nat := let f := (s.dom k).clock; (n * 1000 + f - 1) / f

end Sys2Proof.Machine
end

