-- ==== Sys2Proof/Machine/Stitch.lean ====
section
/-! DEFINITION. Thread slots and operands: words, faults, traces, descriptors, elements of tensors (10). -/

namespace Sys2Proof.Machine

open Sys2Proof

/-! ### Slots -/

/-- A slot of a Stitch. -/
def State.slot (s : State) (st i : Nat) : Slot := tabGet (s.tile st).slots {} i
/-- Replace a slot. -/
def State.setSlot (s : State) (st i : Nat) (x : Slot) : State :=
  let t := s.tile st
  s.setTile st { t with slots := tabPut t.slots i x }

/-- Bits [hi : lo] of a control word. -/
def wf (w : BitVec 256) (hi lo : Nat) : Nat := bits w.toNat lo (hi + 1 - lo)

/-- The tag and form of a word (Table 10-2). -/
def wTag (w : BitVec 256) : Nat := wf w 255 240
def wForm (w : BitVec 256) : Nat := wf w 239 236

/-- A launch record. -/
def State.launch (s : State) (key : Nat) : Option Launch := tabGet? s.pat.launches key
/-- Replace a launch record. -/
def State.setLaunch (s : State) (key : Nat) (l : Launch) : State :=
  s.setPat { s.pat with launches := tabPut s.pat.launches key l }

/-- The launch that owns a slot. -/
def State.slotLaunch (s : State) (st i : Nat) : Option Launch := (s.slot st i).owner.bind s.launch

/-- The class that a launch's words are charged to (Table 15-1): runs of experts have keys from 1,024 on. -/
def launchClass (key : Nat) (l : Launch) : Nat := if key ≥ 1024 then clsExpert else if l.optStep then clsUpdate else clsThreads

/-! ### Tie rule and traces -/

/-- R191: in an even Turn the lowest index wins, in an odd one the highest. -/
def tieWins (pip a b : Nat) : Bool := if pip / 4096 % 2 = 0 then decide (a < b) else decide (b < a)

/-- Trace events of R315, Table 10-12. -/
def evIssue := 1
def evComplete := 2
def evFault := 3
def evWait := 4
def evSignal := 5

/-- One trace setting after an event, with the address of the record it writes, if any (R315). -/
def Trace.record (t : Trace) : Trace × Option Nat :=
  let n := t.size / 16
  if !t.wrap && decide (t.held ≥ n) then ({ t with dropped := min cMax (t.dropped + 1) }, none)
  else ({ t with pos := (t.pos + 1) % n, held := min n (t.held + 1) }, some (t.ring + 16 * t.pos))

/-- Write a trace record with a stamp where the Skein traces this event of this tag (R315). -/
def State.traceAt (s : State) (stamp st slot tag ev : Nat) (status : Nat) : State :=
  match s.pat.traces.find? (fun t => bit t.mask (st / 256) && decide (t.lo ≤ tag) && decide (tag ≤ t.hi) && bit t.events ev) with
  | none => s
  | some t =>
    let r := t.record
    let s := s.setPat { s.pat with traces := s.pat.traces.map (fun x => if x = t then r.1 else x) }
    match r.2 with
    | none => s
    | some a => s.write (dramKey a) (leBytes 8 stamp ++ leBytes 2 tag ++ leBytes 1 ev ++ leBytes 1 slot ++
        leBytes 2 st ++ leBytes 1 status ++ [0])

/-- Write a trace record stamped now. -/
def State.trace (s : State) (st slot tag ev : Nat) (status : Nat) : State := s.traceAt s.time.pip st slot tag ev status

/-! ### Operations of a Stitch -/

/-- The operations of an engine, running first. -/
def Stitch.ops (t : Stitch) (e : Nat) : List Op := tabGet t.eng [] e

/-- Every operation that a slot has started and that has not completed. -/
def Stitch.opsOf (t : Stitch) (i : Nat) : List Op :=
  (t.eng.flatMap (·.2)).filter (·.slot == i) ++ (tabGet t.slots {} i).mem

/-- Every operation of a Stitch. -/
def Stitch.allOps (t : Stitch) : List Op := t.eng.flatMap (·.2) ++ t.slots.flatMap (·.2.mem)

/-- Memory requests outstanding of all slots (R260). -/
def Stitch.requests (t : Stitch) : Nat := (t.slots.map (fun p => p.2.mem.length)).sum

/-! ### End of launches (R314, R321) -/

/-- A slot of a launch has finished: it no longer runs for the launch, and nothing it started for it is outstanding
(R307, R321). -/
def State.slotOver (s : State) (key : Nat) (p : Nat × Nat) : Bool :=
  let x := s.slot p.1 p.2
  (x.owner != some key || decide (x.st ≠ .live)) && ((s.tile p.1).opsOf p.2).all (fun o => o.owner != key)

/-- A running launch all of whose slots have finished ends: end stamp, LAUNCH_END bit, IRQ_STATUS bit 0; its aborts
complete. Runs of experts end by their own event. -/
def State.endLaunch (s : State) (key : Nat) : State :=
  match s.launch key with
  | none => s
  | some l =>
    if decide (l.st ≠ .running) || key ≥ 1024 || !l.slots.all (s.slotOver key) then s
    else
      let s := s.setLaunch key { l with st := .ended, stop := s.time.pip, abortTickets := [] }
      let s := match l.host with
        | none => s
        | some h => (s.setEnded h key).irq 0 h
      l.abortTickets.foldl (fun s t => s.finish t .ok []) s

/-- The earlier of two faults, ties by R191 (R314). -/
def earlierFault (pip : Nat) (a : Option FaultRec) (b : FaultRec) : FaultRec :=
  match a with
  | none => b
  | some a =>
    if a.stamp < b.stamp then a else if b.stamp < a.stamp then b
    else if tieWins pip (256 * b.st + b.slot) (256 * a.st + a.slot) then b else a

/-- A slot becomes FAULTED with a record; its launch keeps the earliest (R262, R313, R314). The stamp is the pip at which the word
issued, or at which its check found the fault (02 Table 02-3). -/
def State.stopSlot (s : State) (st i : Nat) (status : Status) (tag pc : Nat) (exec : Bool) (stamp : Nat) : State :=
  let x := s.slot st i
  let r : FaultRec := { status := status, tag := tag, pc := pc, exec := exec, st := st, slot := i,
                        stamp := stamp, index := x.loops.map (·.index) }
  let s := (s.setSlot st i { x with st := .faulted, fault := some r, next := none, ending := false }).atTile st
  match x.owner with
  | none => s
  | some key =>
    match s.launch key with
    | none => s
    | some l =>
      let f := earlierFault s.time.pip l.fault r
      s.setLaunch key { l with fault := some f, status := f.status }

/-- The requests of a slot that faults stay outstanding; what they bring is discarded, so their words write and
signal nothing more (R262). -/
def State.discardMem (s : State) (st i : Nat) : State :=
  let x := s.slot st i
  s.setSlot st i { x with mem := x.mem.map (fun o =>
    if o.stage < 8 ∧ o.status = .ok then { o with status := .aborted, begun := true, done := decide (o.left = 0) } else o) }

/-- A fault of a slot: record, trouble-log entry 0x0A01, trace event (R313). -/
def State.slotFault (s : State) (st i : Nat) (status : Status) (tag pc : Nat) (exec : Bool) (stamp : Nat) : State :=
  let key := (s.slot st i).owner.getD 0
  let s := (s.stopSlot st i status tag pc exec stamp).discardMem st i
  let s := s.logRaise 0x0A01 2 status.code (srcOf 2 st) tag
    (key % 2 ^ 10 + i * 2 ^ 10 + pc % 2 ^ 16 * 2 ^ 16 + b2n exec * 2 ^ 32)
  (s.traceAt stamp st i tag evFault status.code).endLaunch key

/-! ### Descriptors and operands (R299, R308, R309) -/

/-- The origin of an address generator over the active loops (R299). -/
def agOrigin (x : Slot) (g : Nat) : Nat × Nat :=
  let a := x.ag.getD g {}
  let sum (base : Nat) (strides : List Nat) : Nat :=
    (List.range 4).foldl (fun v n =>
      let l := x.loops.getD n {}
      if l.active then (v + l.index * strides.getD n 0) % 2 ^ 32 else v) base % 2 ^ 32
  (sum a.row0 a.rs, sum a.col0 a.cs)

/-- Latch an operand: ST_BAD_FIELD for reserved handle bits, ST_BAD_DESC for an entry not valid. -/
def State.latch (s : State) (x : Slot) (h g : Nat) : Except Status LatOp :=
  if bits h 12 2 ≠ 0 then .error .badField
  else
    let e := s.desc h
    match e.d with
    | none => .error .badDesc
    | some d => let o := agOrigin x g; .ok { handle := h, gen := e.gen, d := d, row := o.1, col := o.2 }

/-- The first byte address of a field of a descriptor for a Stitch: with self = 1 an offset in its scratchpad. -/
def descBase (d : Desc) (st a : Nat) : Nat := if d.self then 2 ^ 62 + st * 2 ^ 19 + a else a

/-- The address of the byte that holds the start of element (r, c) (R309). -/
def Desc.addr (d : Desc) (st r c : Nat) : Nat := descBase d st d.data + r * d.pitch + c * d.fmt.width / 8

/-- Bytes that `n` elements from column `c` of a row cover. -/
def Desc.rowBytes (d : Desc) (c n : Nat) : Nat := (c * d.fmt.width + n * d.fmt.width + 7) / 8 - c * d.fmt.width / 8

/-- The number of the block of element (r, c). -/
def Desc.blockNo (d : Desc) (r c : Nat) : Nat := r * (d.cols / blockSize d.block) + c / blockSize d.block

/-- The ranges of bytes that rows × cols elements at an origin cover: data rows, and scale bytes of narrow ones. -/
def LatOp.ranges (o : LatOp) (st rows cols : Nat) : List (Nat × Nat) :=
  (List.range rows).flatMap (fun i =>
    (o.d.addr st (o.row + i) o.col, o.d.rowBytes o.col cols) ::
    (if o.d.fmt.narrow then
      [(descBase o.d st o.d.scale + o.d.blockNo (o.row + i) o.col,
        (o.col + cols - 1) / blockSize o.d.block - o.col / blockSize o.d.block + 1)] else []))

/-- An element that follows another by n in row-major order from the origin (R301). -/
def LatOp.nth (o : LatOp) (n : Nat) : Nat × Nat :=
  let i := o.row * o.d.cols + o.col + n
  (i / o.d.cols, i % o.d.cols)

/-- The ranges of `count` elements in row-major order. -/
def LatOp.runRanges (o : LatOp) (st count : Nat) : List (Nat × Nat) :=
  let z := o.nth (count - 1)
  (List.range (z.1 - o.row + 1)).flatMap (fun i =>
    let c0 := if i = 0 then o.col else 0
    let c1 := if o.row + i = z.1 then z.2 + 1 else o.d.cols
    ({ o with row := o.row + i, col := c0 } : LatOp).ranges st 1 (c1 - c0))

/-- A region wholly within the tensor. -/
def LatOp.fits (o : LatOp) (rows cols : Nat) : Bool :=
  decide (o.row + rows ≤ o.d.rows) && decide (o.col + cols ≤ o.d.cols)

/-- A row-major run wholly within the tensor. -/
def LatOp.runFits (o : LatOp) (count : Nat) : Bool :=
  decide (o.row < o.d.rows) && decide (o.col < o.d.cols) &&
  decide (o.row * o.d.cols + o.col + count ≤ o.d.rows * o.d.cols)

/-- An origin at a whole byte (R309). -/
def LatOp.whole (o : LatOp) : Bool := decide (o.col * o.d.fmt.width % 8 = 0)

/-- A range in the Stitch's own scratchpad. -/
def ownRange (st : Nat) (r : Nat × Nat) : Bool :=
  decide (addrSpace r.1 = 1) && decide (bits r.1 29 33 = 0) && decide (bits r.1 19 10 = st) &&
  decide (bits r.1 0 19 + r.2 ≤ 2 ^ 19)

/-- A destination of narrow elements that is whole blocks (R201). -/
def LatOp.wholeBlocks (o : LatOp) (cols : Nat) : Bool :=
  !o.d.fmt.narrow || (decide (o.col % blockSize o.d.block = 0) && decide (cols % blockSize o.d.block = 0))

/-! ### Where an address leads (R277) -/

/-- Memory of this device at an address, or memory of another FID at an offset. -/
inductive Place
  | here (a : Nat)
  | far (fid off : Nat)
  deriving DecidableEq, Repr

/-- A far address that names dev_fid is the local address of its offset (R277). -/
def State.place? (s : State) (a : Nat) : Place :=
  if addrSpace a = 2 then
    if bits a 42 20 = s.devFid then .here (offsetAddr (bits a 0 42)) else .far (bits a 42 20) (bits a 0 42)
  else .here a

/-- The refusal of an access by a Stitch or engine (R274, R275, R277, R561). An offset of this device reaches DRAM and scratchpads
only (Table 09-4). -/
def State.accessStatus (s : State) (a len : Nat) (write : Bool) : Option Status :=
  if addrSpace a = 2 ∧ bits a 42 20 = 0xFFFFF then some .badField
  else if addrSpace a = 2 ∧ bits a 0 42 + len > 2 ^ 42 then some .badField
  else if addrSpace a = 2 ∧ bits a 42 20 = s.devFid ∧ bits a 40 2 ≥ 2 then some .badField
  else match s.place? a with
    | .far _ _ => none
    | .here b => if addrSpace b = 3 then s.ctlStatus b len write else s.localStatus b len

/-- The refusal of a list of ranges. -/
def State.rangesStatus (s : State) (rs : List (Nat × Nat)) (write : Bool) : Option Status :=
  rs.foldl (fun st r => firstStatus st (s.accessStatus r.1 r.2 write)) none

/-- Local ranges that a Stitch can access now. -/
def State.rangesReady (s : State) (st : Nat) (rs : List (Nat × Nat)) : Bool :=
  rs.all (fun r => match s.place? r.1 with | .far _ _ => true | .here b => s.memReady (st / 256) b r.2)

/-- A requester addresses local ranges: banks are no longer idle, and its accesses meet those of the same cycle. -/
def State.addressed (s : State) (q : Requester) (rs : List (Nat × Nat)) : State :=
  rs.foldl (fun s r => match s.place? r.1 with
    | .far _ _ => s
    | .here b => if addrSpace b = 1 then (s.touch b r.2).meet q (memKey b) r.2 else s.touch b r.2) s

/-! ### Elements -/

/-- The key under which a byte is read: local memory, or the far bytes that came for an operation. -/
def State.viewKey (s : State) (a : Nat) : Nat :=
  match s.place? a with | .here b => memKey b | .far _ _ => a

/-- A number in bytes at an address: from memory, the control space or far bytes. -/
def State.view (s : State) (far : List Host.Cell) (a n : Nat) : Nat :=
  match s.place? a with
  | .here b => if addrSpace b = 3 then leNat (s.ctlRead b n) else leNat (memGetAll s.mem (memKey b) n)
  | .far _ _ => leNat (memGetAll far a n)

/-- The bits of element (r, c) of a dense tensor (R199, R309). -/
def State.elemBits (s : State) (far : List Host.Cell) (d : Desc) (st r c : Nat) : Nat :=
  let bitOff := c * d.fmt.width
  bits (s.view far (descBase d st d.data + r * d.pitch + bitOff / 8) ((bitOff % 8 + d.fmt.width + 7) / 8)) (bitOff % 8)
    d.fmt.width

/-- The scale byte of element (r, c), 127 for formats without blocks. -/
def State.scaleByte (s : State) (far : List Host.Cell) (d : Desc) (st r c : Nat) : Nat :=
  if d.fmt.narrow then s.view far (descBase d st d.scale + d.blockNo r c) 1 else 127

/-- The exact value of element (r, c). -/
def State.elemNum (s : State) (far : List Host.Cell) (d : Desc) (st r c : Nat) : Num :=
  loadElem d.fmt (s.scaleByte far d st r c) d.prescale (s.elemBits far d st r c)

/-- The first uncorrectable word in local ranges. -/
def State.rangesUe (s : State) (rs : List (Nat × Nat)) : Option Nat :=
  rs.findSome? (fun r => match s.place? r.1 with
    | .here b => if addrSpace b = 3 then none else s.firstUe (memKey b) r.2
    | .far _ _ => none)

/-! ### Storing elements (R201, R204, R205) -/

/-- Pieces of bytes to be written: address and bytes. -/
abbrev Writes := List (Nat × List Byte)

/-- Write the bits of one element of a format of whole bytes, or of a narrow block at once. -/
def Desc.putRun (d : Desc) (st r c : Nat) (es : List Nat) : Nat × List Byte :=
  (d.addr st r c, leBytes (es.length * d.fmt.width / 8) (packBits d.fmt es))

/-- Store a run of values of one row from (r, c): the writes and the statistics. Narrow runs are whole blocks; each
block is followed by its scale byte. `vals` carry their rounding modes. -/
def Desc.storeRun (d : Desc) (st r : Nat) : Nat → Nat → List (Num × Mode) → Writes × Stats
  | 0, _, _ => ([], {})
  | fuel + 1, c, vals =>
    match vals with
    | [] => ([], {})
    | _ =>
      let n := if d.fmt.narrow then blockSize d.block else vals.length
      let b := storeBlock d.fmt d.prescale (vals.take n)
      let rest := d.storeRun st r fuel (c + n) (vals.drop n)
      let w := d.putRun st r c b.2.1
      let ws := if d.fmt.narrow then [w, (descBase d st d.scale + d.blockNo r c, [BitVec.ofNat 8 b.1])] else [w]
      (ws ++ rest.1, b.2.2.add rest.2)

/-- The rounding mode of a stored element: RS draws from the Dice under the launch's step (R302). -/
def State.modeFor (s : State) (rmode step : Nat) (d : Desc) (r c : Nat) : Mode :=
  match rmode with
  | 0 => .rn
  | 1 => .rz
  | _ => .rs (dice (s.setting idDiceSeed 0) step d.tid (r * d.cols + c))

/-- Perform local writes of a requester; far ones are left to the caller. -/
def State.putLocal (s : State) (r : Requester) (ws : Writes) : State :=
  ws.foldl (fun s w => match s.place? w.1 with
    | .here b => if addrSpace b = 3 then
        s.pageWrite (bits b 0 32) w.2 0xFF
      else ((s.touch b w.2.length).storeBy r (memKey b) w.2).1
    | .far _ _ => s) s

/-- Add statistics to a descriptor entry of the generation latched (R215, R311). -/
def State.addStats (s : State) (p : Nat × Nat × Stats) : State :=
  let e := s.desc p.1
  if e.gen != p.2.1 then s
  else match e.d with
    | none => s
    | some d => s.setDescs (tabPut s.descs (handleKey p.1) { e with d := some { d with stats := d.stats.add p.2.2 } })

end Sys2Proof.Machine
end

