-- ==== Sys2Proof/Machine/WordCheck.lean ====
section
/-! DEFINITION. The check of a control word when it becomes its slot's next word (10 R289 to R306; 12 R356, R357, R362). -/

namespace Sys2Proof.Machine

open Sys2Proof

/-- Failures of a check: those that hold, reduced to the first under R10. -/
abbrev Fails := List (Bool × Status)

/-- The first failure in the order of R10. -/
def firstFail : Fails → Option Status
  | [] => none
  | (b, st) :: r => if b then firstStatus (some st) (firstFail r) else firstFail r

/-- A field that must be zero. -/
def must0 (w : BitVec 256) (hi lo : Nat) : Bool × Status := (wf w hi lo != 0, .badField)

/-- The failures of the common part (Table 10-2, R293, R295); `count` is the image's word count. -/
def commonFails (w : BitVec 256) (x : Slot) (pc count : Nat) : Fails :=
  let wk := wf w 235 234
  let sk := wf w 211 210
  let lo := wf w 188 187
  let n := wf w 186 185
  let body := wf w 167 152
  let lp (i : Nat) : Loop := x.loops.getD i {}
  let inner := (List.range 4).foldl (fun (r : Option Nat) i => if (lp i).active then some (lp i).last else r) none
  [must0 w 144 128] ++
  (if wk = 0 then [must0 w 233 212]
   else if wk < 3 then [must0 w 228 212]
   else [(decide (wf w 233 229 > 15), .badField), (wf w 228 228 == 1 && wf w 227 214 != 0, .badField)]) ++
  (if sk = 0 then [must0 w 209 189]
   else if sk = 1 then [must0 w 204 189]
   else if sk = 2 then [(decide (wf w 209 205 > 15), .badField)] else [(true, .badField)]) ++
  (if lo = 0 then [must0 w 186 149]
   else if lo = 1 then
     [must0 w 151 149, (wf w 184 184 == 1 && wf w 183 168 != 0, .badField),
      ((lp n).active, .badField), ((List.range n).any (fun i => !(lp i).active), .badField),
      (decide (body = 0), .badField),
      ((match inner with | some l => decide (pc + body > l) | none => false) || decide (pc + body ≥ count), .badField)]
   else if lo = 2 then [must0 w 184 152, (!(lp n).active, .badField)] else [(true, .badField)])

/-- A rounding field, whatever the operands: 0b11 reserved, RS only in a launch with opt_step = 1 (R302). -/
def roundFails (mode : Nat) (opt : Bool) : Fails := [(decide (mode = 3), .badField), (decide (mode = 2) && !opt, .badField)]

/-- RS only for the destination formats of R302. -/
def rsFails (mode : Nat) (f : Fmt) : Fails := [(decide (mode = 2) && (f.int || decide (f = .f32)), .badField)]

/-- An optional operand: its failures through a function. -/
def onOp (o : Except Status LatOp) (f : LatOp → Fails) : Fails :=
  match o with | .error st => [(true, st)] | .ok x => f x

/-- The latched operand. -/
def opOf (o : Except Status LatOp) : Option LatOp := match o with | .ok x => some x | .error _ => none

/-- The failures of an operand region of a MATRIX word in the own scratchpad (R299, R300, R309). -/
def ownRegion (st : Nat) (o : LatOp) (rows cols : Nat) : Fails :=
  [(!o.fits rows cols, .badDesc), (!o.whole, .badDesc),
   (o.fits rows cols && !(o.ranges st rows cols).all (ownRange st), .badDesc)]

/-- Whether a format pair may be multiplied (R217, Table 09-2). -/
def pairOk (a b : Desc) : Bool :=
  if a.fmt.narrow && b.fmt.narrow then a.block == b.block
  else decide (a.fmt = b.fmt) && [Fmt.b16, .h16, .i8].contains a.fmt

/-- The group length of a MATRIX word (R216). -/
def groupLen (a : Desc) : Nat := if a.fmt.narrow then blockSize a.block else 16

/-- K of a MATRIX word. -/
def wK (w : BitVec 256) : Nat := 16 * wf w 63 48
def wM (w : BitVec 256) : Nat := wf w 45 40 + 1
def wN (w : BitVec 256) : Nat := wf w 39 34 + 1
def wSpctl (w : BitVec 256) : Nat := wf w 114 112

/-- Whether a descriptor is dense B16 of a shape (Table 12-3). -/
def shaped (e : DescEntry) (rows cols : Nat) : Bool :=
  match e.d with | some d => decide (d.rows = rows) && decide (d.cols = cols) | none => false

/-- The layer's descriptors have the shapes of Table 12-3. -/
def State.layerShapes (s : State) (l : Layer) : Bool :=
  shaped (s.desc l.up) l.dFf l.dModel && shaped (s.desc l.down) l.dModel l.dFf &&
  shaped (s.desc l.p1) 64 l.dModel && shaped (s.desc l.p2) (l.dFf / 32) 64 &&
  [l.p1, l.p2].all (fun h => match (s.desc h).d with | some d => decide (d.fmt = .b16) && !d.rlz | none => false)

/-- The layer entry that a word's handle_b selects (R362): index within the Skein's table and image. -/
def State.layerFor (s : State) (k spctl h : Nat) : Option (Nat × LayerEntry) :=
  (s.layers.find? (fun e => e.1 / 256 == k && (if spctl = 4 then e.2.l.down == h else e.2.l.up == h))).map
    (fun e => (e.1 % 256, e.2))

/-- A descriptor latched as a whole: the factors of a layer (R362). -/
def State.whole (s : State) (h : Nat) : Option LatOp :=
  (s.desc h).d.map (fun d => { handle := h, gen := (s.desc h).gen, d := d, row := 0, col := 0 })

/-- A status as a failure. -/
def statusFail (o : Option Status) : Fails := match o with | some st => [(true, st)] | none => []

/-- The failures and the latched parts of a MATRIX word (R300; R354 to R357, R362). -/
def State.matrixCheck (s : State) (st : Nat) (x : Slot) (w : BitVec 256) (opt : Bool) :
    Fails × List (Option LatOp) × Option (Nat × Layer × Bool) :=
  let mop := wf w 127 124
  let sp := wSpctl w
  let m := wM w; let n := wN w; let k := wK w
  let g := s.sec.grade
  let head : Fails :=
    [(decide (mop > 3), .badOpcode), (decide (g = .n), .unitAbsent),
     (decide (sp ≥ 5) || (sp != 0 && decide (mop > 1)), .badField),
     (sp == 2 && (mop != 1 || wf w 123 123 != 0 || wf w 39 34 != 63), .badField),
     (decide (sp ≥ 2) && decide (sp ≤ 4) && decide (g = .b), .unitAbsent),
     must0 w 47 46, must0 w 33 0]
  if mop > 1 then
    let c := s.latch x (wf w 79 64) (wf w 116 115)
    (head ++ [must0 w 111 80, must0 w 63 48] ++ (if mop = 2 then [must0 w 122 121] else roundFails (wf w 122 121) opt) ++
     onOp c (fun o => ownRegion st o m n ++ [(o.d.rlz, .badDesc)] ++
       (if mop = 3 then
          [(!o.d.writable, .badDesc), (!o.wholeBlocks n, .badDesc)] ++ rsFails (wf w 122 121) o.d.fmt
        else [])),
     [none, none, opOf c], none)
  else
    let a := s.latch x (wf w 111 96) (wf w 120 119)
    let le := s.layerFor (st / 256) sp (wf w 95 80)
    let base := head ++ [must0 w 122 121, must0 w 79 64, (decide (wf w 63 48 = 0), .badField)]
    if sp = 2 then
      (base ++ [(bits (wf w 95 80) 12 2 != 0, .badField)] ++ onOp a (fun o => ownRegion st o m k ++ [(o.d.rlz, .badDesc)]) ++
       (match le with
        | none => [(true, .badDesc)]
        | some e => [(!s.layerShapes e.2.l, .badDesc), (decide (k ≠ e.2.l.dModel), .badDesc)] ++
            (if s.layerShapes e.2.l then statusFail (s.rangesStatus
              (((s.whole e.2.l.p1).toList.flatMap (fun p => p.ranges st 64 e.2.l.dModel)) ++
               ((s.whole e.2.l.p2).toList.flatMap (fun p => p.ranges st (e.2.l.dFf / 32) 64))) false) else [])),
       [opOf a, le.bind (fun e => s.whole e.2.l.p1), le.bind (fun e => s.whole e.2.l.p2)],
       le.map (fun e => (e.1, e.2.l, false)))
    else
      let b := s.latch x (wf w 95 80) (wf w 118 117)
      (base ++ onOp b (fun o => ownRegion st o n k ++ [(o.d.rlz, .badDesc)]) ++
       onOp a (fun o =>
         (if sp = 1 then
            [(!o.d.rlz, .badDesc), (decide (o.row % 64 ≠ 0) || decide (o.col % 64 ≠ 0) || decide (k % 64 ≠ 0), .badDesc),
             (!o.fits m k, .badDesc),
             (!ownRange st (descBase o.d st o.d.data, (o.d.rows - 1) * o.d.pitch + 1), .badDesc),
             (o.d.fmt.narrow && !ownRange st (descBase o.d st o.d.scale, o.d.rows * (o.d.cols / blockSize o.d.block)), .badDesc),
             (!ownRange st (descBase o.d st o.d.sparse,
                4 * o.d.rows * (o.d.cols / 64) + 4 * ((o.d.rows + 63) / 64) * (o.d.cols / 64) + o.d.rows * o.d.cols), .badDesc)]
          else ownRegion st o m k ++ [(o.d.rlz, .badDesc)])) ++
       (match a, b with
        | .ok oa, .ok ob => [(!pairOk oa.d ob.d, .badDesc), (decide (k % groupLen oa.d ≠ 0), .badDesc)]
        | _, _ => []) ++
       (if sp ≥ 3 then
          (match le with
           | none => [(true, .badDesc)]
           | some e =>
             [(!s.layerShapes e.2.l, .badDesc),
              (if sp = 3 then decide (k ≠ e.2.l.dModel)
               else (match a with | .ok o => decide (o.col % 32 ≠ 0) | .error _ => false) || decide (k % 32 ≠ 0), .badDesc)])
        else []),
       [opOf a, opOf b, none],
       if sp ≥ 3 then le.map (fun e => (e.1, e.2.l, false)) else none)

/-- Inputs that a vector operation takes beside a: b, c (Table 10-7). -/
def vopB (vop : Nat) : Bool := decide (vop ≤ 0x0A)
def vopC (vop : Nat) : Bool := vop == 0

/-- A vector operand in the own scratchpad. -/
def ownRun (st : Nat) (o : LatOp) (count : Nat) : Fails :=
  [(!o.runFits count, .badDesc), (!o.whole, .badDesc), (o.d.rlz, .badDesc),
   (o.runFits count && !(o.runRanges st count).all (ownRange st), .badDesc)]

/-- The failures and operands (d, a, b, c) of a VECTOR word (R301). -/
def State.vectorCheck (s : State) (st : Nat) (x : Slot) (w : BitVec 256) (opt : Bool) :
    Fails × List (Option LatOp) :=
  let vop := wf w 127 120
  let imm := wf w 117 117 = 1
  let n := wf w 107 96 + 1
  let d := s.latch x (wf w 95 80) (wf w 115 114)
  let a := s.latch x (wf w 79 64) (wf w 113 112)
  let useB := vopB vop && !imm
  let b := if useB then some (s.latch x (wf w 63 48) (wf w 111 110)) else none
  let c := if vopC vop then some (s.latch x (wf w 47 32) (wf w 109 108)) else none
  let bitw := decide (8 ≤ vop ∧ vop ≤ 10)
  let intOnly (o : LatOp) : Fails := [(bitw && !o.d.fmt.int, .badDesc)]
  ([(decide (vop > 0x0B), .badOpcode), must0 w 116 116, (!useB && wf w 63 48 != 0, .badField),
    (!vopC vop && wf w 47 32 != 0, .badField), (!imm && wf w 31 0 != 0, .badField)] ++
   roundFails (wf w 119 118) opt ++
   onOp d (fun o => ownRun st o n ++ intOnly o ++ rsFails (wf w 119 118) o.d.fmt ++
     [(!o.d.writable, .badDesc), (!o.wholeBlocks n, .badDesc)]) ++
   onOp a (fun o => ownRun st o n ++ intOnly o) ++
   (match b with | some o => onOp o (fun o => ownRun st o n ++ intOnly o) | none => []) ++
   (match c with | some o => onOp o (fun o => ownRun st o n) | none => []),
   [opOf d, opOf a, b.bind opOf, c.bind opOf])

/-- The ranges of an RLZ source in rows (data, scale and metadata). -/
def LatOp.sparseRanges (o : LatOp) (st rows : Nat) : List (Nat × Nat) :=
  let nbk := o.d.cols / 64
  let m := descBase o.d st o.d.sparse
  (List.range rows).flatMap (fun i =>
    let r := o.row + i
    [(descBase o.d st o.d.data + r * o.d.pitch, o.d.rowBytes 0 o.d.cols), (m + 4 * r * nbk, 4 * nbk),
     (m + 4 * o.d.rows * nbk + 4 * ((o.d.rows + 63) / 64) * nbk + r * o.d.cols, o.d.cols)] ++
    (if o.d.fmt.narrow then [(descBase o.d st o.d.scale + o.d.blockNo r 0, o.d.cols / blockSize o.d.block)] else []))

/-- The ranges that a source region needs. -/
def LatOp.srcRanges (o : LatOp) (st rows cols : Nat) : List (Nat × Nat) :=
  if o.d.rlz then o.sparseRanges st rows else o.ranges st rows cols

/-- The failures and operands (source, destination) of a DMA word (R303). -/
def State.dmaCheck (s : State) (st : Nat) (x : Slot) (w : BitVec 256) (opt : Bool) : Fails × List (Option LatOp) :=
  let rows := wf w 79 64
  let cols := wf w 63 32
  let a := s.latch x (wf w 111 96) (wf w 120 119)
  let d := s.latch x (wf w 95 80) (wf w 118 117)
  ([must0 w 116 112, must0 w 31 0, (decide (rows = 0) || decide (cols = 0), .badField)] ++
   roundFails (wf w 126 125) opt ++
   onOp a (fun o => [(!o.fits rows cols, .badDesc), (!o.whole, .badDesc)] ++
     (if o.fits rows cols then statusFail (s.rangesStatus (o.srcRanges st rows cols) false) else [])) ++
   onOp d (fun o => [(!o.fits rows cols, .badDesc), (!o.whole, .badDesc), (o.d.rlz, .badDesc),
     (!o.d.writable, .badDesc), (!o.wholeBlocks cols, .badDesc)] ++
     (if o.fits rows cols then statusFail (s.rangesStatus (o.ranges st rows cols) true) else []) ++
     rsFails (wf w 126 125) o.d.fmt),
   [opOf a, opOf d])

/-- Elements that `n` bytes cover. -/
def bytesElems (f : Fmt) (n : Nat) : Nat := (n * 8 + f.width - 1) / f.width

/-- A byte operand of a MEM word: the region of n bytes at its origin (R304). -/
def State.byteOp (s : State) (st : Nat) (o : LatOp) (n : Nat) (write place : Bool) : Fails :=
  let e := bytesElems o.d.fmt n
  [(!o.fits 1 e, .badDesc), (!o.whole, .badDesc), (o.d.rlz, .badDesc)] ++
  (if write then [(!o.d.writable, .badDesc), (!o.wholeBlocks e, .badDesc)] else []) ++
  (if place && o.fits 1 e then statusFail (s.accessStatus (o.d.addr st o.row o.col) n write) else [])

/-- A far ATOMIC goes on channels 0 to 7 only (03 Table 03-7), and to no device 0xF_FFFF (R277). -/
def State.farAtomic (s : State) (st : Nat) (o : LatOp) (ch : Nat) : Fails :=
  let a := o.d.addr st o.row o.col
  [(decide (addrSpace a = 2 ∧ bits a 42 20 = 0xFFFFF), .badField), ((match s.place? a with | .far _ _ => true | .here _ => false) && decide (ch > 7), .badField)]

/-- The failures and operands (src, dst, aux) of a MEM word (R304). -/
def State.memCheck (s : State) (st : Nat) (x : Slot) (w : BitVec 256) : Fails × List (Option LatOp) :=
  let mop := wf w 127 124
  let n := wf w 113 108 + 1
  let code := wf w 107 100
  let src := s.latch x (wf w 95 80) (wf w 119 118)
  let dst := s.latch x (wf w 79 64) (wf w 117 116)
  let aux := s.latch x (wf w 63 48) (wf w 115 114)
  let head : Fails := [(decide (mop > 3), .badOpcode), must0 w 99 96, must0 w 11 0]
  match mop with
  | 0 => (head ++ onOp src (fun o => s.byteOp st o n false true) ++ onOp dst (fun o => s.byteOp st o n true true),
          [opOf src, opOf dst, none])
  | 1 => (head ++ onOp src (fun o => [(o.d.rlz, .badDesc), (!o.whole, .badDesc),
            (decide (o.col + bytesElems o.d.fmt n > o.d.cols), .badDesc)]) ++
          onOp dst (fun o => s.byteOp st o n true true) ++
          onOp aux (fun o => s.byteOp st o 4 false true ++ [(decide (o.d.fmt ≠ .i32), .badDesc)]),
          [opOf src, opOf dst, opOf aux])
  | 2 =>
    let ret := !bit code 7 && decide (code % 128 < 0x20)
    (head ++ [((atomSize code).isNone, .badField)] ++
     onOp src (fun o => s.byteOp st o (atomOperands code) false true) ++
     onOp dst (fun o => [(o.d.rlz, .badDesc), (!o.fits 1 (max 1 (bytesElems o.d.fmt ((atomSize code).getD 0))), .badDesc),
         (!o.whole, .badDesc), (!o.d.writable, .badDesc),
         (decide (code % 128 < 0x20) && !o.wholeBlocks (bytesElems o.d.fmt ((atomSize code).getD 0)), .badDesc)] ++
       s.farAtomic st o (wf w 123 120)) ++
     (if ret then onOp aux (fun o => s.byteOp st o ((atomSize code).getD 0) true true) else []),
     [opOf src, opOf dst, if ret then opOf aux else none])
  | _ => (head ++ [(decide (code % 128 ≠ 0x20 ∧ code % 128 ≠ 0x21), .badField)] ++
            onOp dst (fun o => [(o.d.rlz, .badDesc), (!o.fits 1 1, .badDesc), (!o.whole, .badDesc)] ++
              s.farAtomic st o (wf w 123 120)),
          [none, opOf dst, none])

/-- The failures of the body of a word without operands (Tables 10-4, 10-10, R306, R307). -/
def plainFails (w : BitVec 256) : Fails :=
  match wForm w with
  | 0x0 | 0xF => [must0 w 127 0]
  | 0x5 => [(decide (wf w 125 124 = 3), .badOpcode), must0 w 121 64]
  | 0x6 => [(decide (wf w 127 124 > 5), .badOpcode), must0 w 110 32,
            (wf w 127 124 == 4 && decide (wf w 119 117 > 5), .badField),
            (wf w 127 124 == 4 && wf w 116 115 != 0 && decide (wf w 114 111 > 3), .badField)]
  | 0x7 => [must0 w 111 64, (bits (wf w 127 112) 12 2 != 0, .badField),
            (decide (wf w 63 0 % 64 ≠ 0) || decide (addrSpace (wf w 63 0) > 1), .badField)]
  | _ => [(true, .badOpcode)]

/-- The check of R290: the first failure, or the word with its latched parts. -/
def State.checkWord (s : State) (st : Nat) (x : Slot) (w : BitVec 256) (count : Nat) (opt : Bool) :
    Except Status Checked :=
  let common : Fails := commonFails w x x.pc count ++ [(s.absent st, .unitAbsent), (s.isRetired st, .retired)]
  let finish (f : Fails) (ops : List (Option LatOp)) (ly : Option (Nat × Layer × Bool)) : Except Status Checked :=
    match firstFail (common ++ f) with
    | some e => .error e
    | none => .ok { w := w, pc := x.pc, ops := ops, layer := ly, split := s.setting idSplit (st / 256), density := s.setting idDensity (st / 256) }
  match wForm w with
  | 0x1 => let r := s.matrixCheck st x w opt; finish r.1 r.2.1 r.2.2
  | 0x2 => let r := s.vectorCheck st x w opt; finish r.1 r.2 none
  | 0x3 => let r := s.dmaCheck st x w opt; finish r.1 r.2 none
  | 0x4 => let r := s.memCheck st x w; finish r.1 r.2 none
  | 0x7 => finish (plainFails w ++ statusFail (s.accessStatus (wf w 63 0) 64 false)) [] none
  | _ => finish (plainFails w) [] none

end Sys2Proof.Machine
end

