-- ==== Sys2Proof/Machine/Matrix.lean ====
section
/-! DEFINITION. What MATRIX and VECTOR operations compute: group accumulation, run-length operands, the predictor, drains,
lanes (07 R216 to R218; 09 R257 to R259; 10 R300, R301; 12 R354 to R367). -/

namespace Sys2Proof.Machine

open Sys2Proof

/-! ### Accumulator tiles -/

/-- The key of an accumulator element; key 8192 + tile says the tile holds I32. -/
def accKey (tile i j : Nat) : Nat := tile * 4096 + i * 64 + j

/-- An accumulator word. -/
def Stitch.accAt (t : Stitch) (tile i j : Nat) : Nat := tabGet t.acc 0 (accKey tile i j)

/-- A tile holds I32 words. -/
def Stitch.accInt (t : Stitch) (tile : Nat) : Bool := tabGet t.acc 0 (8192 + tile) == 1

/-- The value of an accumulator word. -/
def Stitch.accNum (t : Stitch) (tile i j : Nat) : Num :=
  (if t.accInt tile then Fmt.i32 else Fmt.f32).decode (t.accAt tile i j)

/-- Counters of a Stitch (indices of family `thread`): 0 read saturations without a descriptor, 1 invalids, 2 records
of words skipped by the sentinel. -/
def tcSat := 0
def tcInv := 1

/-- Count reads and sums that no descriptor records (R206). -/
def State.countTile (s : State) (st : Nat) (c : Cnts) : State :=
  (s.bumpBy .thread st tcSat c.sat).bumpBy .thread st tcInv c.inv

/-! ### Operand values -/

/-- Element (row + i, col + k) of a dense operand read under R206. -/
def State.opElem (s : State) (st : Nat) (o : LatOp) (i k : Nat) : Num × Cnts :=
  readF32 (s.elemNum [] o.d st (o.row + i) (o.col + k))

/-- The signed value of an integer element. -/
def State.opInt (s : State) (st : Nat) (o : LatOp) (i k : Nat) : Int :=
  toInt o.d.fmt.width (s.elemBits [] o.d st (o.row + i) (o.col + k))

/-- Positions and stored indices of a block's values from its run bytes (R355); `none` on a fault. -/
def runPositions : List Nat → Nat → Nat → Option (List (Nat × Nat))
  | [], _, _ => some []
  | b :: r, pos, j =>
    if b ≥ 64 ∨ pos + b > 63 then none
    else (runPositions r (pos + b + 1) (j + 1)).map (fun l => (pos + b, j) :: l)

/-- The present values of block `b` of row `r` of an RLZ tensor: position in the row and bits (R354, R355). -/
def State.rlzBlock (s : State) (far : List Host.Cell) (d : Desc) (st r b : Nat) : Option (List (Nat × Nat)) :=
  let nbk := d.cols / 64
  let m := descBase d st d.sparse
  let e := s.view far (m + 4 * (r * nbk + b)) 4
  let nnz := bits e 25 7
  let first := bits e 0 25
  let runs := m + 4 * d.rows * nbk + 4 * ((d.rows + 63) / 64) * nbk + r * d.cols
  let bs := (List.range nnz).map (fun j => s.view far (runs + first + j) 1)
  (runPositions bs 0 first).map (fun l => l.map (fun p => (64 * b + p.1, s.elemBits far d st r p.2)))

/-- The values of row `r` over columns [c, c + n) of an RLZ tensor: position from c, value, present. A block scale of
0xFF makes every position NaN (R358). -/
def State.rlzRow (s : State) (far : List Host.Cell) (d : Desc) (st r c n : Nat) : Option (List (Nat × Num × Bool)) :=
  let blocks := (List.range ((c + n + 63) / 64 - c / 64)).map (fun i => c / 64 + i)
  blocks.foldl (fun acc b =>
    match acc, s.rlzBlock far d st r b with
    | some l, some ps =>
      let here := (List.range 64).filterMap (fun q =>
        let p := 64 * b + q
        if p < c ∨ p ≥ c + n then none
        else
          let sc := s.scaleByte far d st r p
          match ps.find? (fun x => x.1 == p) with
          | some x => some (p - c, loadElem d.fmt sc d.prescale x.2, true)
          | none => if d.fmt.narrow && sc == 255 then some (p - c, Num.nan, false) else none)
      some (l ++ here)
    | _, _ => none) (some [])

/-! ### Accumulation (R216, R361) -/

/-- One row's terms: reduction position, product, and whether a factor is NaN. -/
abbrev Terms := List (Nat × Num × Bool)

/-- The products of group g of length gl. -/
def groupTerms (ts : Terms) (gl g : Nat) : List (Num × Bool) := (ts.filter (fun t => t.1 / gl == g)).map (·.2)

/-- R216 over groups [lo, hi). -/
def accGroups (ts : Terms) (gl : Nat) (init : Num) (lo hi : Nat) : Num × Cnts :=
  (List.range (hi - lo)).foldl (fun (a : Num × Cnts) i =>
    let r := groupAdd a.1 (groupTerms ts gl (lo + i)); (r.1, a.2.add r.2)) (init, {})

/-- cut(i) of R361: the segments as group ranges, from the present values per group. -/
def cutSegs (thr ng : Nat) (present : Nat → Nat) : Nat → Nat → Nat → Nat → Nat → List (Nat × Nat)
  | 0, _, start, _, _ => [(start, ng)]
  | fuel + 1, g, start, c, n =>
    if g ≥ ng then [(start, ng)]
    else
      let c := c + present g
      if c ≥ thr ∧ n < 7 ∧ g + 1 < ng then (start, g + 1) :: cutSegs thr ng present fuel (g + 1) (g + 1) 0 (n + 1)
      else cutSegs thr ng present fuel (g + 1) start c n

/-- The segments of a row (R361): all its groups where it is not split. -/
def rowSegs (thr gl ng : Nat) (pos : List Nat) : List (Nat × Nat) :=
  if thr = 0 ∨ pos.length ≤ thr then [(0, ng)]
  else cutSegs thr ng (fun g => (pos.filter (fun p => p / gl == g)).length) ng 0 0 0 0

/-- Accumulate the segments of a row. -/
def accSegs (ts : Terms) (gl : Nat) (acc : Num) : List (Nat × Nat) → Num × Cnts
  | [] => (acc, {})
  | s0 :: rest =>
    rest.foldl (fun (a : Num × Cnts) sg =>
      let p := accGroups ts gl Num.zero sg.1 sg.2
      let r := add32 .rn a.1 p.1
      (r.1, (a.2.add p.2).add r.2)) (accGroups ts gl acc s0.1 s0.2)

/-- Integer groups added with saturation (R213, R216). -/
def accIntGroups (ts : List (Nat × Int)) (gl : Nat) (init : Int) (lo hi : Nat) : Int × Nat :=
  (List.range (hi - lo)).foldl (fun (a : Int × Nat) i =>
    let t := ((ts.filter (fun t => t.1 / gl == lo + i)).map (·.2)).sum
    let r := satI32 (a.1 + t); (r.1, a.2 + r.2)) (init, 0)

/-- Integer segments, each addition saturating (R361). -/
def accIntSegs (ts : List (Nat × Int)) (gl : Nat) (acc : Int) : List (Nat × Nat) → Int × Nat
  | [] => (acc, 0)
  | s0 :: rest =>
    rest.foldl (fun (a : Int × Nat) sg =>
      let p := accIntGroups ts gl 0 sg.1 sg.2
      let r := satI32 (a.1 + p.1)
      (r.1, a.2 + p.2 + r.2)) (accIntGroups ts gl acc s0.1 s0.2)

/-- Row i of operand A over K: position, value, present; `none` on an RLZ fault. -/
def State.aRow (s : State) (st : Nat) (o : LatOp) (i k : Nat) : Option (List (Nat × Num × Bool)) :=
  if o.d.rlz then s.rlzRow [] o.d st (o.row + i) o.col k
  else some ((List.range k).map (fun q => (q, s.elemNum [] o.d st (o.row + i) (o.col + q), true)))

/-- The terms of output element (i, j): products of a row of A with row j of B, both read under R206. -/
def State.terms (s : State) (st : Nat) (row : List (Nat × Num × Bool)) (b : LatOp) (j : Nat) : Terms :=
  row.map (fun t => (t.1, prodOf (readF32 t.2.1).1 (s.opElem st b j t.1).1))

/-- Where an operand's first column lies in its group: groups of narrow operands are blocks (R216), others run from the origin. -/
def LatOp.phase (o : LatOp) (gl : Nat) : Nat := if o.d.fmt.narrow then o.col % gl else 0

/-- A cell of an accumulator tile set to bits. -/
def Stitch.setAcc (t : Stitch) (tile i j v : Nat) : Stitch := { t with acc := tabPut t.acc (accKey tile i j) v }

/-- One output element over segments of groups: its new bits and counts. -/
def State.mmaSegs (s : State) (st : Nat) (o b : LatOp) (row : List (Nat × Num × Bool)) (j gl init : Nat)
    (segs : List (Nat × Nat)) : Nat × Cnts :=
  if o.d.fmt.int then
    let ts := row.map (fun t => (t.1, (match t.2.1 with
      | .fin sg m e => (if sg then -((m <<< e.toNat : Nat) : Int) else ((m <<< e.toNat : Nat) : Int)) | _ => 0) *
      s.opInt st b j t.1))
    let r := accIntSegs ts gl (toInt 32 init) segs
    (ofInt 32 r.1, { sat := r.2 })
  else
    let r := accSegs ((s.terms st row b j).map (fun t => (t.1 + o.phase gl, t.2))) gl (Fmt.decode .f32 init) segs
    (Fmt.encode .f32 r.1, r.2)

/-- One output element of MMA or MMA_ZERO: its new bits and counts. -/
def State.mmaElem (s : State) (st : Nat) (o b : LatOp) (row : List (Nat × Num × Bool)) (j gl k thr : Nat) (init : Nat) :
    Nat × Cnts :=
  s.mmaSegs st o b row j gl init
    (rowSegs thr gl ((o.phase gl + k + gl - 1) / gl) ((row.filter (·.2.2)).map (fun t => t.1 + o.phase gl)))

/-- Counts of reading the elements of a row of A (R206). -/
def rowCnts (o : LatOp) (row : List (Nat × Num × Bool)) : Cnts :=
  if o.d.fmt.int then {} else row.foldl (fun c t => c.add (readF32 t.2.1).2) {}

/-- Counts of reading elements (j, q) of operand B, each once (R206). -/
def State.readCnts (s : State) (st : Nat) (o : LatOp) (cells : List (Nat × Nat)) : Cnts :=
  if o.d.fmt.int then {} else cells.foldl (fun c p => c.add (s.opElem st o p.1 p.2).2) {}

/-- Cells of a region. -/
def regionCells (rows cols : Nat) : List (Nat × Nat) :=
  (List.range rows).flatMap (fun i => (List.range cols).map (fun j => (i, j)))

/-- Sum of counts. -/
def sumCnts (l : List Cnts) : Cnts := l.foldl Cnts.add {}

/-- MMA and MMA_ZERO, dense or RLZ (R216, R300, R358, R361): the tile is updated, or the word faults. -/
def State.mma (s : State) (st : Nat) (c : Checked) : State × Option Status :=
  match c.ops with
  | [some a, some b, _] =>
    let w := c.w
    let m := wM w; let n := wN w; let k := wK w
    let tile := wf w 123 123
    let gl := groupLen a.d
    let thr := if wSpctl w = 1 then c.split else 0
    let rows := (List.range m).map (fun i => s.aRow st a i k)
    let rngs := (if a.d.rlz then a.sparseRanges st m else a.ranges st m k) ++ b.ranges st n k
    match s.rangesUe rngs with
    | some u => (s.logUe u, some .integrity)
    | none =>
      if rows.any Option.isNone then (s, some .badDesc)
      else
        let t := s.tile st
        let cells := (List.range m).flatMap (fun i => (List.range n).map (fun j => (i, j)))
        let zero := wf w 127 124 = 1
        let out := cells.map (fun p =>
          (p, s.mmaElem st a b ((rows.getD p.1 none).getD []) p.2 gl k thr (if zero then 0 else t.accAt tile p.1 p.2)))
        let t := out.foldl (fun t o => t.setAcc tile o.1.1 o.1.2 o.2.1) t
        let t := { t with acc := tabPut t.acc (8192 + tile) (b2n a.d.fmt.int) }
        let cs := out.foldl (fun c o => c.add o.2.2) 
          ((sumCnts (rows.map (fun r => rowCnts a (r.getD [])))).add (s.readCnts st b (regionCells n k)))
        ((s.setTile st t).countTile st cs, none)
  | _ => (s, none)

/-- LOAD_ACC: tile := C, read under R206; I8 and I32 load as I32 (R258, R300). -/
def State.loadAcc (s : State) (st : Nat) (c : Checked) : State × Option Status :=
  match c.ops with
  | [_, _, some o] =>
    let m := wM c.w; let n := wN c.w
    let tile := wf c.w 123 123
    match s.rangesUe (o.ranges st m n) with
    | some u => (s.logUe u, some .integrity)
    | none =>
      let t := s.tile st
      let cells := (List.range m).flatMap (fun i => (List.range n).map (fun j => (i, j)))
      let out := cells.map (fun p =>
        if o.d.fmt.int then (p, ofInt 32 (s.opInt st o p.1 p.2), ({} : Cnts))
        else let r := s.opElem st o p.1 p.2; (p, Fmt.encode .f32 r.1, r.2))
      let t := out.foldl (fun t q => t.setAcc tile q.1.1 q.1.2 q.2.1) t
      let t := { t with acc := tabPut t.acc (8192 + tile) (b2n o.d.fmt.int) }
      ((s.setTile st t).countTile st (out.foldl (fun c q => c.add q.2.2) {}), none)
  | _ => (s, none)

/-- DRAIN: C := tile with conversion (R205, R258): the writes' statistics. -/
def State.drain (s : State) (st : Nat) (c : Checked) (step : Nat) : State × Option (Nat × Nat × Stats) :=
  match c.ops with
  | [_, _, some o] =>
    let m := wM c.w; let n := wN c.w
    let tile := wf c.w 123 123
    let t := s.tile st
    let rm := wf c.w 122 121
    let runs := (List.range m).map (fun i =>
      o.d.storeRun st (o.row + i) (n + 1) o.col ((List.range n).map (fun j =>
        (t.accNum tile i j, s.modeFor rm step o.d (o.row + i) (o.col + j)))))
    let ws := runs.flatMap (·.1)
    let sts := runs.foldl (fun a r => a.add r.2) ({} : Stats)
    (s.putLocal { own := some st, rank := 1, whole := o.d.fmt.narrow } ws, some (o.handle, o.gen, sts))
  | _ => (s, none)

/-! ### The predictor (12) -/

/-- A layer table entry. -/
def State.layer (s : State) (k i : Nat) : Option LayerEntry := tabGet? s.layers (256 * k + i)
/-- Replace a layer table entry. -/
def State.setLayer (s : State) (k i : Nat) (e : LayerEntry) : State := s.setLayers (tabPut s.layers (256 * k + i) e)

/-- Counters of a layer: PREDICT rows, pairs skipped, audited, missed, made up, fallbacks (Table 12-6). -/
def plRows := 0
def plSkipped := 1
def plAudited := 2
def plMissed := 3
def plMade := 4
def plFallback := 5

/-- The values of a row of a descriptor's tensor as F32 numbers, and what reading them counts (07 R206); `far` are far bytes at hand. -/
def State.descRow (s : State) (far : List Host.Cell) (st : Nat) (d : Desc) (r n : Nat) : List (Num × Cnts) :=
  (List.range n).map (fun k => readF32 (s.elemNum far d st r k))

/-- The ranges of the factors of a PREDICT word (R362, R363). -/
def factorRanges (st : Nat) (c : Checked) : List (Nat × Nat) :=
  match wSpctl c.w, c.ops, c.layer with
  | 2, [_, some p1, some p2], some (_, l, _) => p1.ranges st 64 l.dModel ++ p2.ranges st (l.dFf / 32) 64
  | _, _, _ => []

/-- Products of two rows. -/
def prodsOf (a b : List Num) : List (Num × Bool) := List.zipWith prodOf a b

/-- h(r): runs of 16 consecutive positions, one rounding each (R363), and what is counted (07 R210, R212). -/
def runsOf16 : Nat → Num → List Num → List Num → Num × Cnts
  | 0, h, _, _ => (h, {})
  | fuel + 1, h, a, b =>
    if a.isEmpty then (h, {})
    else
      let ps := prodsOf (a.take 16) (b.take 16)
      let r := sumAdd h (sumExact (ps.map (·.1))) ps
      let x := runsOf16 fuel r.1 (a.drop 16) (b.drop 16)
      (x.1, r.2.add x.2)

/-- A score: the exact sum of products rounded once (R363). -/
def scoreOf (ps : List (Num × Bool)) : Num × Cnts :=
  let t := sumExact (ps.map (·.1))
  let r := rnd32 t
  (r.1, { r.2 with inv := b2n (t.isNan && ps.all (fun p => !p.2)) })

/-- The mask of a row from the rows of P1 and P2 (R363): bit b is 1 where the score of block b reaches the threshold. -/
def maskRow (l : Layer) (p1 p2 : List (List Num)) (x : List Num) : Nat × Cnts :=
  let h := p1.map (runsOf16 (l.dModel / 16 + 1) Num.zero x)
  let sc := p2.map (fun r => scoreOf (prodsOf (h.map (·.1)) r))
  let thr := Fmt.decode .f32 l.thr
  (sc.zipIdx.foldl (fun m v => if Num.le thr v.1.1 || Num.eqv thr v.1.1 then m + 2 ^ v.2 else m) 0,
   (sumCnts (h.map (·.2))).add (sumCnts (sc.map (·.2))))

/-- PREDICT (R363): compute the masks of M rows from the factors latched at the check (R362) and write the whole mask region
of the Stitch; `far` are the bytes of far factors. -/
def State.predict (s : State) (far : List Host.Cell) (st : Nat) (c : Checked) : State × Option Status :=
  match c.ops, c.layer with
  | [some a, some p1, some p2], some (li, l, _) =>
    let m := wM c.w
    match s.rangesUe (a.ranges st m l.dModel ++ factorRanges st c) with
    | some u => (s.logUe u, some .integrity)
    | none =>
      let f1 := (List.range 64).map (fun r => s.descRow far st p1.d r l.dModel)
      let f2 := (List.range (l.dFf / 32)).map (fun b => s.descRow far st p2.d b 64)
      let xs := (List.range m).map (fun i => (List.range l.dModel).map (fun k => s.opElem st a i k))
      let vals (r : List (List (Num × Cnts))) : List (List Num) := r.map (fun y => y.map (·.1))
      let read (r : List (List (Num × Cnts))) : Cnts := sumCnts (r.map (fun y => sumCnts (y.map (·.2))))
      let out := (vals xs).map (maskRow l (vals f1) (vals f2))
      let cs := sumCnts (out.map (·.2))
      let s := s.countTile st (((cs.add (read xs)).add (read f1)).add (read f2))
      let rows := out.map (·.1) ++ List.replicate (64 - m) 0
      let s := (s.noteWrite { own := some st, rank := 1 } (spadKey st l.maskOff) 4096).write (spadKey st l.maskOff) (rows.flatMap (leBytes 64))
      (s.bumpBy .pred (256 * (st / 256) + li) plRows m, none)
  | _, _ => (s, none)

/-- mask(i, b) of the region. -/
def State.maskBit (s : State) (st : Nat) (l : Layer) (i b : Nat) : Bool :=
  bit (s.readNat (spadKey st (l.maskOff + 64 * i + b / 8)) 1) (b % 8)

/-- Set a mask bit (R366). -/
def State.setMaskBit (s : State) (st : Nat) (l : Layer) (i b : Nat) : State :=
  let k := spadKey st (l.maskOff + 64 * i + b / 8)
  (s.noteWrite { own := some st, rank := 1 } k 1).write k [BitVec.ofNat 8 (s.readNat k 1 ||| 2 ^ (b % 8))]

/-- Whether a skipped pair is audited (R366). -/
def audited (l : Layer) (step row b : Nat) : Bool :=
  l.auditK != 0 &&
  crc32 (leBytes 4 l.layerId ++ leBytes 4 step ++ leBytes 4 row ++ leBytes 4 b) % 2 ^ l.auditK == 0

/-- Count an audit and its find; in AUDITED mode the layer may fall back for the step (R367). -/
def State.countAudit (s : State) (k li step : Nat) (miss made : Bool) : State :=
  let u := 256 * k + li
  let s := (s.bump .pred u plAudited).bumpBy .pred u plMissed (b2n miss)
  let s := s.bumpBy .pred u plMade (b2n made)
  match s.layer k li with
  | none => s
  | some e =>
    if e.step ≠ some step then s
    else
      let e := { e with audited := e.audited + 1, found := e.found + b2n miss }
      if e.l.mode = 1 ∧ e.audited ≥ 64 ∧ e.found * 65536 > e.l.missLimit * e.audited ∧ e.fallback ≠ some step then
        ((s.setLayer k li { e with fallback := some step, flag := true }).bump .pred u plFallback).logRaise
          0x0C01 2 0 (srcOf 1 k) 0 (li + step * 2 ^ 32)
      else s.setLayer k li e

/-- MASK_N (R365, R366): output blocks predicted inactive are left out; audited ones are computed after the word. -/
def State.maskN (s : State) (st : Nat) (c : Checked) (step : Nat) : State × Option Status :=
  match c.ops, c.layer with
  | [some a, some b, _], some (li, l, exact) =>
    let w := c.w
    let m := wM w; let n := wN w; let k := wK w
    let tile := wf w 123 123
    let gl := groupLen a.d
    let zero := wf w 127 124 = 1
    match s.rangesUe (a.ranges st m k ++ b.ranges st n k) with
    | some u => (s.logUe u, some .integrity)
    | none =>
      let full := l.mode == 2 || exact
      let t0 := s.tile st
      let elem (i j : Nat) : Nat × Cnts :=
        s.mmaElem st a b ((s.aRow st a i k).getD []) j gl k 0 (if zero then 0 else t0.accAt tile i j)
      let cells := (List.range m).flatMap (fun i => (List.range n).map (fun j => (i, j)))
      let active (i j : Nat) : Bool := full || s.maskBit st l i ((b.row + j) / 32)
      let out := cells.map (fun p => (p, if active p.1 p.2 then elem p.1 p.2
        else (if zero then 0 else t0.accAt tile p.1 p.2, {})))
      let t := out.foldl (fun t o => t.setAcc tile o.1.1 o.1.2 o.2.1) t0
      let t := { t with acc := tabPut t.acc (8192 + tile) (b2n a.d.fmt.int) }
      let aRead := sumCnts (((List.range m).filter (fun i => (List.range n).any (active i))).map (fun i =>
        rowCnts a ((s.aRow st a i k).getD [])))
      let bRead := s.readCnts st b ((regionCells n k).filter (fun p => (List.range m).any (fun i => active i p.1)))
      let u := (s.setTile st t).countTile st (out.foldl (fun c o => c.add o.2.2) (aRead.add bRead))
      let blocks := (List.range ((b.row + n - 1) / 32 - b.row / 32 + 1)).map (fun i => b.row / 32 + i)
      let skipped := (List.range m).flatMap (fun i =>
        (blocks.filter (fun q => !s.maskBit st l i q)).map (fun q => (i, q)))
      let u := u.bumpBy .pred (256 * (st / 256) + li) plSkipped skipped.length
      (skipped.foldl (fun u p =>
        if full || !audited l step (a.row + p.1) p.2 then u
        else
          let js := (List.range n).filter (fun j => (b.row + j) / 32 == p.2)
          let vals := js.map (fun j => (j, elem p.1 j))
          let fl := Fmt.decode .f32 l.floor
          let act := vals.any (fun v =>
            let x := if a.d.fmt.int then Fmt.decode .i32 v.2.1 else Fmt.decode .f32 v.2.1
            x.isNan || Num.lt fl x)
          let make := act && l.mode == 1
          let u := if make then
              let t := vals.foldl (fun t v => t.setAcc tile p.1 v.1 v.2.1) (u.tile st)
              ((u.setTile st t).countTile st (sumCnts (vals.map (·.2.2)))).setMaskBit st l p.1 p.2
            else u
          u.countAudit (st / 256) li step act make) u, none)
  | _, _ => (s, none)

/-- MASK_K (R365, R366): reduction blocks predicted inactive are left out of the group sums. -/
def State.maskK (s : State) (st : Nat) (c : Checked) (step : Nat) : State × Option Status :=
  match c.ops, c.layer with
  | [some a, some b, _], some (li, l, exact) =>
    let w := c.w
    let m := wM w; let n := wN w; let k := wK w
    let tile := wf w 123 123
    let gl := groupLen a.d
    let zero := wf w 127 124 = 1
    match s.rangesUe (a.ranges st m k ++ b.ranges st n k) with
    | some u => (s.logUe u, some .integrity)
    | none =>
      let full := l.mode == 2 || exact
      let t0 := s.tile st
      let blockOf (q : Nat) : Nat := (a.col + q) / 32
      let on (i q : Nat) : Bool := full || s.maskBit st l i (blockOf q)
      let row (i : Nat) : List (Nat × Num × Bool) := (s.aRow st a i k).getD []
      let cells := (List.range m).flatMap (fun i => (List.range n).map (fun j => (i, j)))
      let out := cells.map (fun p =>
        (p, s.mmaElem st a b ((row p.1).filter (fun t => on p.1 t.1)) p.2 gl k 0
          (if zero then 0 else t0.accAt tile p.1 p.2)))
      let t := out.foldl (fun t o => t.setAcc tile o.1.1 o.1.2 o.2.1) t0
      let t := { t with acc := tabPut t.acc (8192 + tile) (b2n a.d.fmt.int) }
      let aRead := sumCnts ((List.range m).map (fun i => rowCnts a ((row i).filter (fun t => on i t.1))))
      let bRead := s.readCnts st b ((regionCells n k).filter (fun p => (List.range m).any (fun i => on i p.2)))
      let u := (s.setTile st t).countTile st (out.foldl (fun c o => c.add o.2.2) (aRead.add bRead))
      let blocks := (List.range ((a.col + k - 1) / 32 - a.col / 32 + 1)).map (fun i => a.col / 32 + i)
      let skipped := (List.range m).flatMap (fun i =>
        (blocks.filter (fun q => !s.maskBit st l i q)).map (fun q => (i, q)))
      let u := u.bumpBy .pred (256 * (st / 256) + li) plSkipped skipped.length
      (skipped.foldl (fun u p =>
        if full || !audited l step (a.row + p.1) p.2 then u
        else
          let part := (row p.1).filter (fun t => blockOf t.1 == p.2)
          let act := part.any (fun t => t.2.1.isNan || !t.2.1.isZero)
          let make := act && l.mode == 1
          let base := a.col - a.phase gl
          let gs : List (Nat × Nat) := [((32 * p.2 - base) / gl, (32 * p.2 + 31 - base) / gl + 1)]
          let u := if make then
              let vals := (List.range n).map (fun j => (j, s.mmaSegs st a b part j gl ((u.tile st).accAt tile p.1 j) gs))
              (u.setTile st (vals.foldl (fun t v => t.setAcc tile p.1 v.1 v.2.1) (u.tile st))).countTile st
                (sumCnts (vals.map (·.2.2)))
            else u
          u.countAudit (st / 256) li step act make) u, none)
  | _, _ => (s, none)

/-! ### VECTOR (R301) -/

/-- The value of an integer Num. -/
def Num.toInt : Num → Int
  | .fin sg m e => let v : Nat := if e ≥ 0 then m <<< e.toNat else m >>> (-e).toNat; if sg then -(v : Int) else v
  | _ => 0

/-- One integer lane: I32 with saturation (R213); d's value as an exact number. -/
def laneInt (vop : Nat) (a b c : Int) : Num × Cnts :=
  let sat (x : Int) : Num × Cnts := let r := satI32 x; (Num.ofInt r.1, { sat := r.2 })
  let flag (p : Bool) : Num × Cnts := (Num.ofInt (b2n p), {})
  match vop with
  | 0 => sat (a * b + c)
  | 1 => sat (a + b)
  | 2 => sat (a * b)
  | 3 => (Num.ofInt (max a b), {})
  | 4 => (Num.ofInt (min a b), {})
  | 5 => flag (a == b)
  | 6 => flag (decide (a < b))
  | 7 => flag (decide (a ≤ b))
  | 8 => (Num.ofInt (toInt 32 (ofInt 32 a &&& ofInt 32 b)), {})
  | 9 => (Num.ofInt (toInt 32 (ofInt 32 a ||| ofInt 32 b)), {})
  | 10 => (Num.ofInt (toInt 32 (ofInt 32 a ^^^ ofInt 32 b)), {})
  | _ => (Num.ofInt a, {})

/-- One F32 lane; the lane rounds by RN or RZ (R218, R301). -/
def laneF32 (vop : Nat) (mode : Mode) (a b c : Num) : Num × Cnts :=
  let flag (p : Bool) : Num × Cnts := (Num.ofInt (b2n p), {})
  match vop with
  | 0 => fma32 mode a b c
  | 1 => add32 mode a b
  | 2 => mul32 mode a b
  | 3 => (maxNum a b, {})
  | 4 => (minNum a b, {})
  | 5 => flag (Num.eqv a b)
  | 6 => flag (Num.lt a b)
  | 7 => flag (Num.lt a b || Num.eqv a b)
  | _ => (a, {})

/-- The lane mode of a word's rounding field: RZ for RZ, RN otherwise (RS rounds only the store; R208, R218). -/
def laneMode (rm : Nat) : Mode := if rm = 1 then .rz else .rn

/-- Element n of an operand as the lanes read it: exact integer, or F32 under R206. -/
def State.laneIn (s : State) (st : Nat) (o : LatOp) (n : Nat) (int : Bool) : Num × Cnts :=
  let p := o.nth n
  let x := s.elemNum [] o.d st p.1 p.2
  if int then (x, {}) else readF32 x

/-- The VECTOR operation (R301): the writes, the statistics, or an integrity fault. -/
def State.vector (s : State) (st : Nat) (c : Checked) (step : Nat) : State × Except Status (Nat × Nat × Stats) :=
  match c.ops with
  | [some d, some a, b, cc] =>
    let w := c.w
    let vop := wf w 127 120
    let n := wf w 107 96 + 1
    let rm := wf w 119 118
    let imm := wf w 31 0
    let ins := [some a, b, cc].filterMap (fun o => o)
    let int := ins.all (fun o => o.d.fmt.int)
    match s.rangesUe (ins.flatMap (fun o => o.runRanges st n)) with
    | some u => (s.logUe u, .error .integrity)
    | none =>
      let immN : Num := if int then Num.ofInt (toInt 32 imm) else Fmt.decode .f32 imm
      let inp (o : Option LatOp) (i : Nat) : Num × Cnts :=
        match o with | some o => s.laneIn st o i int | none => (immN, {})
      let lane (i : Nat) : Num × Cnts :=
        let x := inp (some a) i; let y := inp b i; let z := inp cc i
        let r := if int then laneInt vop x.1.toInt y.1.toInt z.1.toInt else laneF32 vop (laneMode rm) x.1 y.1 z.1
        (r.1, ((x.2.add (if b.isSome then y.2 else {})).add (if cc.isSome then z.2 else {})).add r.2)
      let vals := (List.range n).map lane
      let z := d.nth (n - 1)
      let runs := (List.range (z.1 - d.row + 1)).map (fun i =>
        let c0 := if i = 0 then d.col else 0
        let c1 := if d.row + i = z.1 then z.2 + 1 else d.d.cols
        let from_ := (d.row + i) * d.d.cols + c0 - (d.row * d.d.cols + d.col)
        d.d.storeRun st (d.row + i) (n + 1) c0 ((List.range (c1 - c0)).map (fun j =>
          ((vals.getD (from_ + j) (Num.zero, {})).1, s.modeFor rm step d.d (d.row + i) (c0 + j)))))
      let cs := (vals.foldl (fun a v => a.add v.2) ({} : Cnts)).stats
      let sts := runs.foldl (fun a r => a.add r.2) cs
      (s.putLocal { own := some st, rank := 5, whole := d.d.fmt.narrow } (runs.flatMap (·.1)), .ok (d.handle, d.gen, sts))
  | _ => (s, .error .badDesc)

/-! ### Timing and energy of words (R257 to R259, R359, R364; 15 Table 15-2) -/

/-- k and q of an operand pair (Table 09-2). -/
def pairRate (a b : Fmt) : Nat × Nat :=
  if a = .f4 ∧ b = .f4 then (2, 1) else if a = .b16 ∨ a = .h16 then (1, 4) else (1, 1)

/-- The energy of a core cycle with MATRIX busy on a format. -/
def matrixEu (a b : Fmt) : Nat :=
  if a = .f4 ∧ b = .f4 then 25 else if a = .b16 ∨ a = .h16 then 16 else 22

/-- The format of operand B, that of A where the word reads none. -/
def opB (a : LatOp) (b : Option LatOp) : Fmt := match b with | some o => o.d.fmt | none => a.d.fmt

/-- The energy of a core cycle of a MATRIX word. -/
def opEu (c : Checked) : Nat :=
  match c.ops with
  | [some a, b, _] => if wSpctl c.w = 2 then matrixEu .b16 .b16 else matrixEu a.d.fmt (opB a b)
  | _ => 1

/-- Core cycles and energy coefficients of a MATRIX word at the rates of Table 09-2; a drain or load moves 64 bytes in each, and is a
control word of 1 eu, for no row of Table 15-2 names the cycles of the unit without operands (DESIGN CHOICE: entry CHARGES). -/
def matrixCost (c : Checked) : Nat × Nat :=
  let w := c.w
  match c.ops with
  | [some a, b, _] =>
    let r := pairRate a.d.fmt (opB a b)
    let n := (wK w + r.1 - 1) / r.1 * r.2
    (n, n * opEu c)
  | _ => ((4 * wM w * wN w + 63) / 64, 1)

/-- nnz of block `b` of row `r` of an RLZ tensor. -/
def State.rlzCount (s : State) (d : Desc) (st r b : Nat) : Nat :=
  bits (s.view [] (descBase d st d.sparse + 4 * (r * (d.cols / 64) + b)) 4) 25 7

/-- A tile of an RLZ word runs on the sparse path, by its tile count and density_thr (12 R358). -/
def State.tileSparse (s : State) (d : Desc) (st t b thr : Nat) : Bool :=
  decide (s.view [] (descBase d st d.sparse + 4 * d.rows * (d.cols / 64) + 4 * (t * (d.cols / 64) + b)) 4 * 256 < thr * 4096)

/-- The entries of lane i in tile b of a word: the present values of row i there, of the largest segment where the row is split (R359,
R361). -/
def State.laneEntries (s : State) (st : Nat) (a : LatOp) (c : Checked) (i b : Nat) : Nat :=
  match s.rlzRow [] a.d st (a.row + i) a.col (wK c.w) with
  | none => s.rlzCount a.d st (a.row + i) (a.col / 64 + b)
  | some row =>
    let gl := groupLen a.d
    let pos := (row.filter (·.2.2)).map (·.1)
    ((rowSegs c.split gl (wK c.w / gl) pos).map (fun sg =>
      pos.countP (fun p => decide (sg.1 ≤ p / gl) && decide (p / gl < sg.2) && p / 64 == b))).foldl max 0

/-- The core cycles of an RLZ word (R359): those of its dense tiles, and the most that its sparse tiles and its changes of path take. -/
def State.rlzCycles (s : State) (st : Nat) (a : LatOp) (bf : Fmt) (c : Checked) : Nat × Nat :=
  let r := pairRate a.d.fmt bf
  let tiles := List.range (wK c.w / 64)
  let paths := tiles.map (fun b => s.tileSparse a.d st (a.row / 64) (a.col / 64 + b) c.density)
  let sparse (b : Nat) : Nat := ((List.range (wM c.w)).map (fun i => (s.laneEntries st a c i b + r.1 - 1) / r.1 * r.2)).foldl max 0 + 16
  ((paths.countP (!·)) * (64 / r.1 * r.2),
   (List.zipWith (fun b p => if p then sparse b else 0) tiles paths).sum +
     16 * (List.zipWith (fun p q => b2n (p != q)) paths paths.tail).sum)

/-- The core cycles of a MATRIX word: those that the spec fixes, and the most that it allows beside them where chapter 12 gives only a
bound (R359, R364). -/
def State.matrixBound (s : State) (st : Nat) (c : Checked) : Nat × Nat :=
  match wSpctl c.w, c.ops, c.layer with
  | 1, [some a, b, _], _ => s.rlzCycles st a (opB a b) c
  | 2, _, some (_, l, _) => (0, (wM c.w * 64 * (l.dModel + l.dFf / 32) + 16383) / 16384 + 32)
  | _, _, _ => ((matrixCost c).1, 0)

end Sys2Proof.Machine
end

