-- ==== Sys2Proof/Machine/Engine.lean ====
section
/-! DEFINITION. Operations of engines and of thread memory: starting, far requests and their answers, completion,
the sentinel's selection (09 R276 to R279; 10 R291, R294, R303, R304, R311; 17 R480, R481). -/

namespace Sys2Proof.Machine

open Sys2Proof

/-! ### Places of operations -/

/-- Replace the operation with a number, wherever the Stitch holds it. -/
def Stitch.setOp (t : Stitch) (o : Op) : Stitch :=
  let f (l : List Op) : List Op := l.map (fun x => if x.id = o.id then o else x)
  { t with eng := tabMap t.eng (fun _ l => f l), slots := tabMap t.slots (fun _ x => { x with mem := f x.mem }) }

/-- The operation with a number. -/
def Stitch.findOp (t : Stitch) (id : Nat) : Option Op :=
  ((t.eng.flatMap (·.2)) ++ (t.slots.flatMap (·.2.mem))).find? (·.id == id)

/-- Replace an operation. -/
def State.setOp (s : State) (st : Nat) (o : Op) : State := s.setTile st ((s.tile st).setOp o)

/-- The launch step and optimizer mark of an operation (R302, R366). -/
def State.opStep (s : State) (o : Op) : Nat := ((s.launch o.owner).map (·.step)).getD 0

/-- An operation ends with a fault of its slot at the execution stage (R262, R313, R355; 17 Table 17-2). -/
def State.opFault (s : State) (st : Nat) (o : Op) (status : Status) : State :=
  let s := s.setOp st { o with status := status, done := decide (o.left = 0) }
  if decide ((s.slot st o.slot).st = .live) && (s.slot st o.slot).owner == some o.owner then
    s.slotFault st o.slot status (wTag o.c.w) o.c.pc true o.issued
  else s

/-- How an operation ends in error: a DMA transfer ends with the status (R269, R278); for the others the slot faults. -/
def State.opError (s : State) (st : Nat) (o : Op) (status : Status) : State :=
  if wForm o.c.w = 3 then s.setOp st { o with status := status, done := decide (o.left = 0) } else s.opFault st o status

/-! ### Far requests (R277) -/

/-- The pieces of a range, at most `max` bytes each. -/
def pieces (max : Nat) : Nat → Nat → Nat → List (Nat × Nat)
  | 0, _, _ => []
  | fuel + 1, a, n => if n = 0 then [] else (a, min max n) :: pieces max fuel (a + min max n) (n - min max n)

/-- The request prefix of an offset: cookie 0. -/
def prefixBytes (off : Nat) : List Byte := leBytes 8 off ++ leBytes 4 0 ++ leBytes 4 0

/-- The VC of a channel (Table 03-7). -/
def chVc (ch : Nat) : Nat := if ch < 8 then 1 else 7

/-- Send a request of an operation from its Skein, recorded as outstanding, or let it wait for a tag (05 R152). -/
def State.sendReq (s : State) (st : Nat) (who : Asker) (f : Frame) (addr len : Nat) : State :=
  s.request { unit := st / 256, who := who, f := f, addr := addr, len := len }

/-- Read far bytes: one READ_REQ per 8,192 bytes (R277). -/
def State.farRead (s : State) (st : Nat) (who : Asker) (ch a n : Nat) : State × Nat :=
  let ps := pieces 8192 (n / 8192 + 1) a n
  (ps.foldl (fun s p => s.sendReq st who
    { ty := 1, vc := chVc ch, ch := ch, dst := bits a 42 20, src := s.devFid, spec := p.2 % 2 ^ 14,
      cells := padTo 64 (prefixBytes (bits p.1 0 42)) } p.1 p.2) s, ps.length)

/-- Write far bytes: one DATA frame with ack_req per 8,176 bytes (R276, R277). -/
def State.farWrite (s : State) (st : Nat) (who : Asker) (ch a : Nat) (bs : List Byte) : State × Nat :=
  let ps := pieces 8176 (bs.length / 8176 + 1) a bs.length
  (ps.foldl (fun s p =>
    let d := prefixBytes (bits p.1 0 42) ++ (bs.drop (p.1 - a)).take p.2
    s.sendReq st who
      { ty := 0, vc := chVc ch, ch := ch, dst := bits a 42 20, src := s.devFid, ackReq := true,
        spec := dataSpec d.length, cells := dataCells d } p.1 0) s, ps.length)

/-- The far ranges of a list. -/
def State.farOf (s : State) (rs : List (Nat × Nat)) : List (Nat × Nat) :=
  rs.filter (fun r => match s.place? r.1 with | .far _ _ => true | .here _ => false)

/-- Ask for every far range; answers how many requests were sent. -/
def State.askFar (s : State) (st : Nat) (who : Asker) (ch : Nat) (rs : List (Nat × Nat)) : State × Nat :=
  (s.farOf rs).foldl (fun a r => let x := a.1.farRead st who ch r.1 r.2; (x.1, a.2 + x.2)) (s, 0)

/-- The destination that a word stores to. -/
def Checked.dest (c : Checked) : Option LatOp :=
  match wForm c.w, c.ops with
  | 1, [_, _, d] => if wf c.w 127 124 = 3 then d else none
  | 2, d :: _ => d
  | 3, [_, d] => d
  | 4, [_, d, _] => d
  | _, _ => none

/-- The requester of banks that an operation is (R265); the vector unit counts as the thread slots. -/
def Op.requester (o : Op) (st : Nat) : Requester :=
  { own := some st, rank := match wForm o.c.w with | 1 => 1 | 3 => 2 + wf o.c.w 127 127 | _ => 5,
    slot := if wForm o.c.w = 4 then o.slot + 1 else 0, whole := o.c.dest.any (fun d => d.d.fmt.narrow) }

/-- Perform writes of an operation: local ones at once, far ones as frames; answers how many acknowledgements are awaited. -/
def State.putAll (s : State) (st : Nat) (o : Op) (who : Asker) (ch : Nat) (ws : Writes) : State × Nat :=
  ws.foldl (fun a w => match a.1.place? w.1 with
    | .here _ => (a.1.putLocal (o.requester st) [w], a.2)
    | .far _ _ => let x := a.1.farWrite st who ch w.1 w.2; (x.1, a.2 + x.2)) (s, 0)

/-- The far requests that ranges need. -/
def farCount (max : Nat) (rs : List (Nat × Nat)) : Nat := (rs.map (fun r => (r.2 + max - 1) / max)).sum

/-- Whether the device may send that many further requests to every FID concerned (05 R152). -/
def State.tagsFree (s : State) (rs : List (Nat × Nat)) : Bool :=
  rs.all (fun r => decide ((s.route.reqs.filter (fun q => q.dst == bits r.1 42 20)).length + farCount 8176 rs ≤ 65536))

/-! ### DMA (R303) -/

/-- The writes and statistics of a DMA word, its far source bytes at hand; `none` on an RLZ fault (R205, R303, R356). -/
def State.dmaWrites (s : State) (st : Nat) (o : Op) : Option (Writes × Stats) :=
  match o.c.ops with
  | [some a, some d] =>
    let w := o.c.w
    let rows := wf w 79 64
    let cols := wf w 63 32
    let rm := wf w 126 125
    let step := s.opStep o
    let same := decide (a.d.fmt = d.d.fmt) && a.d.prescale == d.d.prescale && a.d.block == d.d.block && !a.d.rlz &&
      (!a.d.fmt.narrow || a.col % blockSize a.d.block == 0)
    (List.range rows).foldl (fun (acc : Option (Writes × Stats)) i =>
      match acc with
      | none => none
      | some x =>
        if same then
          let es := (List.range cols).map (fun j => s.elemBits o.far a.d st (a.row + i) (a.col + j))
          let body := d.d.putRun st (d.row + i) d.col es
          let sc : Writes := if !d.d.fmt.narrow then [] else
            (List.range (cols / blockSize d.d.block)).map (fun b =>
              (descBase d.d st d.d.scale + d.d.blockNo (d.row + i) (d.col + b * blockSize d.d.block),
               [BitVec.ofNat 8 (s.scaleByte o.far a.d st (a.row + i) (a.col + b * blockSize a.d.block))]))
          some (x.1 ++ body :: sc, x.2)
        else
          let src : Option (List Num) :=
            if a.d.rlz then (s.rlzRow o.far a.d st (a.row + i) a.col cols).map (fun ts =>
              (List.range cols).map (fun j => match ts.find? (fun t => t.1 == j) with
                | some t => t.2.1 | none => Num.zero))
            else some ((List.range cols).map (fun j => s.elemNum o.far a.d st (a.row + i) (a.col + j)))
          match src with
          | none => none
          | some vs =>
            let rd := vs.map (fun v => if a.d.fmt.int && d.d.fmt.int then (v, ({} : Cnts)) else readF32 v)
            let r := d.d.storeRun st (d.row + i) (cols + 1) d.col ((List.range cols).map (fun j =>
              ((rd.getD j (Num.zero, {})).1, s.modeFor rm step d.d (d.row + i) (d.col + j))))
            let cs := (rd.foldl (fun c v => c.add v.2) ({} : Cnts)).stats
            some (x.1 ++ r.1, (x.2.add r.2).add cs)) (some ([], {}))
  | _ => none

/-- Source ranges of a DMA word. -/
def dmaSrc (st : Nat) (c : Checked) : List (Nat × Nat) :=
  match c.ops with | some a :: _ => a.srcRanges st (wf c.w 79 64) (wf c.w 63 32) | _ => []

/-- Destination ranges of a DMA word. -/
def dmaDst (st : Nat) (c : Checked) : List (Nat × Nat) :=
  match c.ops with | [_, some d] => d.ranges st (wf c.w 79 64) (wf c.w 63 32) | _ => []

/-- Carry a DMA operation on: ask for far source bytes, then write, then wait for acknowledgements (R269, R276); a bad block of an RLZ
source faults the slot (R355). -/
def State.runDma (s : State) (st : Nat) (o : Op) : State :=
  let ch := wf o.c.w 124 121
  let who := Asker.engine st o.id
  if o.stage = 0 && !(s.farOf (dmaSrc st o.c)).isEmpty then
    let r := s.askFar st who ch (dmaSrc st o.c)
    r.1.setOp st { o with stage := 1, left := r.2 }
  else if o.stage ≤ 1 then
    match s.rangesUe (dmaSrc st o.c) with
    | some u => (s.logUe u).opError st o .integrity
    | none =>
      match s.dmaWrites st o with
      | none => s.opFault st o .badDesc
      | some ws =>
        let r := s.putAll st o who ch ws.1
        let h := match o.c.ops with | [_, some d] => [(d.handle, d.gen, ws.2)] | _ => []
        r.1.setOp st { o with stage := 2, left := r.2, parts := h, done := decide (r.2 = 0) }
  else s.setOp st { o with done := true }

/-! ### MEM (R304) -/

/-- Bytes at an address: from memory, or from what came for the operation. -/
def State.viewBytes (s : State) (far : List Host.Cell) (a n : Nat) : List Byte := leBytes n (s.view far a n)

/-- The source range of a COPY or GATHER, `none` for an index at or beyond the rows; the index is the one that was read first. -/
def State.memSource (s : State) (st : Nat) (o : Op) : Option (Nat × Nat) :=
  let n := wf o.c.w 113 108 + 1
  match o.c.ops with
  | [some a, _, x] =>
    if wf o.c.w 127 124 = 1 then
      let i := match x with
        | some x => (match o.first with | some bs => leNat bs | none => s.view o.far (x.d.addr st x.row x.col) 4)
        | none => a.d.rows
      if i < a.d.rows then some (a.d.addr st i a.col, n) else none
    else some (a.d.addr st a.row a.col, n)
  | _ => none

/-- The address of an operand's origin. -/
def opAddr (st : Nat) (o : Option LatOp) : Nat := match o with | some x => x.d.addr st x.row x.col | none => 0

/-- The operand at a place of a word. -/
def Checked.op (c : Checked) (i : Nat) : Option LatOp := (c.ops.getD i none)

/-- Read a range for an operation: `some` bytes at hand, or requests sent. -/
def State.fetchFor (s : State) (st : Nat) (o : Op) (ch a n stage : Nat) : State × Option (List Byte) :=
  match s.place? a with
  | .far _ _ =>
    if o.stage > stage then (s, some (s.viewBytes o.far a n))
    else
      let r := s.farRead st (.slot st o.id) ch a n
      (r.1.setOp st { o with stage := stage + 1, left := r.2 }, none)
  | .here _ => (s, some (s.viewBytes o.far a n))

/-- Write the result of a MEM word; it ends when a far write is acknowledged. -/
def State.finishMem (s : State) (st : Nat) (o : Op) (ch a : Nat) (bs : List Byte) : State :=
  let r := s.putAll st o (.slot st o.id) ch [(a, bs)]
  r.1.setOp st { o with stage := 8, left := r.2, done := decide (r.2 = 0) }

/-- The integrity check of a local range. -/
def State.ueAt (s : State) (a n : Nat) : Option Nat := s.rangesUe [(a, n)]

/-- COPY and GATHER: the index first and once, then the source bytes, then the destination. -/
def State.runCopy (s : State) (st : Nat) (o : Op) : State :=
  let ch := wf o.c.w 123 120
  let gather := wf o.c.w 127 124 = 1
  let x := opAddr st (o.c.op 2)
  if gather ∧ o.first.isNone ∧ (s.ueAt x 4).isSome then (s.logUe ((s.ueAt x 4).getD 0)).opError st o .integrity
  else
    let i : State × Option (List Byte) := match o.first with
      | some bs => (s, some bs)
      | none => if gather then s.fetchFor st o ch x 4 0 else (s, some [])
    match i.2 with
    | none => i.1
    | some bs =>
      let o := { o with first := some bs }
      match s.memSource st o with
      | none => s.opError st o .badDesc
      | some (a, n) =>
        match s.accessStatus a n false with
        | some e => s.opError st o e
        | none =>
          match s.ueAt a n with
          | some u => (s.logUe u).opError st o .integrity
          | none =>
            let r := s.fetchFor st o ch a n 2
            match r.2 with
            | none => r.1
            | some bs => r.1.finishMem st o ch (opAddr st (o.c.op 1)) bs

/-- A memory word that only signals: SIG_REMOTE, or an ATOMIC of the signal codes. -/
def Checked.signals (c : Checked) : Bool :=
  wf c.w 127 124 == 3 || (wf c.w 127 124 == 2 && decide (wf c.w 107 100 % 128 ≥ 0x20))

/-- The memory words of a slot that write and were issued before an operation's number (R276). -/
def State.olderWrites (s : State) (st slot id : Nat) : List Nat :=
  ((s.slot st slot).mem.filter (fun o => decide (o.id < id) && !o.c.signals)).map (·.id)

/-- ATOMIC: operands from src, read once, applied at dst, the old value to aux unless no_return (R304, R284). A signal waits for the
slot's earlier writes (R276). -/
def State.runAtomic (s : State) (st : Nat) (o : Op) : State :=
  let ch := wf o.c.w 123 120
  let code := wf o.c.w 107 100
  let n := (atomSize code).getD 0
  let m := atomOperands code
  let src := opAddr st (o.c.op 0)
  let dst := opAddr st (o.c.op 1)
  match (if o.first.isSome then none else s.ueAt src m) with
  | some u => (s.logUe u).opError st o .integrity
  | none =>
    let r : State × Option (List Byte) := match o.first with | some bs => (s, some bs) | none => s.fetchFor st o ch src m 0
    match r.2 with
    | none => r.1
    | some opnd =>
      let o := { o with first := some opnd }
      if o.c.signals && !(s.olderWrites st o.slot o.id).isEmpty then s.setOp st o
      else match s.place? dst with
      | .here b =>
        let bad := if code % 128 ≥ 0x20 then
            (if addrSpace b = 3 ∧ bits b 32 30 = 0 ∧ (signalStitch (bits b 0 32)).isSome then
              s.stitchStatus ((signalStitch (bits b 0 32)).getD 0) else some .badField)
          else if addrSpace b ≠ 0 ∨ b % n ≠ 0 then some .badField else s.localStatus b n
        match bad with
        | some e => s.opError st o e
        | none =>
          if code % 128 ≥ 0x20 then
            (s.signal ((signalStitch (bits b 0 32)).getD 0) code (leNat opnd)).setOp st { o with stage := 8, done := true }
          else
            let x := s.atomic (memKey b) code (leNat opnd)
            match x.2 with
            | .error e => x.1.opError st o e
            | .ok old =>
              if bit code 7 then x.1.setOp st { o with stage := 8, done := true }
              else x.1.finishMem st o ch (opAddr st (o.c.op 2)) old
      | .far fid off =>
        let f : Frame := { ty := 3, vc := 1, ch := ch, dst := fid, src := s.devFid, spec := code,
                           cells := dataCells (prefixBytes off ++ opnd) }
        if bit code 7 || decide (code % 128 ≥ 0x20) then
          (s.sendSkein (st / 256) f).setOp st { o with stage := 8, done := true }
        else if o.stage ≤ 1 then
          (s.sendReq st (.slot st o.id) f dst n).setOp st { o with stage := 2, left := 1 }
        else s.finishMem st o ch (opAddr st (o.c.op 2)) (s.viewBytes o.far dst n)

/-- SIG_REMOTE: ATOMIC 0x20 or 0x21, the code of the word's acode field, with sig_operand to the SIGNAL address that
dst names, once the slot's earlier writes are complete (R304, R276). -/
def State.runSigRemote (s : State) (st : Nat) (o : Op) : State :=
  if !(s.olderWrites st o.slot o.id).isEmpty then s else
  let opnd := wf o.c.w 47 12
  let code := wf o.c.w 107 100
  let done := { o with stage := 8, done := true }
  match s.place? (opAddr st (o.c.op 1)) with
  | .here b =>
    let ok := addrSpace b = 3 ∧ bits b 32 30 = 0 ∧ (signalStitch (bits b 0 32)).isSome
    let t := (signalStitch (bits b 0 32)).getD 0
    if ¬ ok then s.opError st o .badField
    else match s.stitchStatus t with
      | some e => s.opError st o e
      | none => (s.signal t code opnd).setOp st done
  | .far fid off =>
    (s.sendSkein (st / 256) { ty := 3, vc := 1, ch := wf o.c.w 123 120, dst := fid, src := s.devFid, spec := code,
                              cells := dataCells (prefixBytes off ++ leBytes 8 opnd) }).setOp st done

/-! ### The sentinel's selection (17 R480, R481) -/

/-- Bytes of the elements and scales of a region. -/
def regionBytes (d : Desc) (rows cols : Nat) : Nat :=
  rows * cols * d.fmt.width / 8 + (if d.fmt.narrow then rows * cols / blockSize d.block else 0)

/-- The snapshot of a MATRIX word in bytes. -/
def snapBytes (c : Checked) : Nat :=
  match c.ops with
  | [some a, some b, _] => regionBytes a.d (wM c.w) (wK c.w) + regionBytes b.d (wN c.w) (wK c.w) +
      (if wf c.w 127 124 = 0 then 16384 else 0)
  | _ => 0

/-- Eligible for the sentinel: MMA or MMA_ZERO, DENSE, a snapshot of at most 512 KiB. -/
def wordEligible (c : Checked) : Bool :=
  wForm c.w == 1 && decide (wf c.w 127 124 ≤ 1) && wSpctl c.w == 0 && decide (snapBytes c ≤ 2 ^ 19)

/-- Counters of the sentinel of a Skein: 0 selected, 1 run, 2–4 skipped by cause, 8–11 mismatches by verdict. -/
def snSelected := 0
def snRun := 1
def snSkip := 2
def snVerdict := 8

/-- A skipped witness check is counted and logged (0x0F03; causes 0 queue full, 1 region full, 2 witness lost). -/
def State.sentSkip (s : State) (st cause : Nat) : State :=
  (s.bump .sent (st / 256) (snSkip + cause)).logRaise 0x0F03 0 0 (srcOf 2 st) 0 cause

/-- Number an eligible word and select it (R480, R481): the check that holds its snapshot, if any. -/
def State.sentSelect (s : State) (st : Nat) (c : Checked) : State × Option Nat :=
  if !wordEligible c then (s, none)
  else
    let t := s.tile st
    let s := s.setTile st { t with words := t.words + 1 }
    let z := s.sentSet (st / 256)
    if z.enable = 0 ∨ (t.words + st) % 2 ^ z.k ≠ 0 then (s, none)
    else
      let s := s.bump .sent (st / 256) snSelected
      if (s.integ.checks.filter (fun x => x.primary / 256 == st / 256)).length ≥ 128 then (s.sentSkip st 1, none)
      else
        let id := s.integ.nextCheck
        let cost := matrixCost c
        let new : Check := { id := id, primary := st, tag := wTag c.w, cycles := cost.1, eu := cost.2, witness := none }
        (s.setInteg { s.integ with nextCheck := id + 1, checks := s.integ.checks ++ [new] }, some id)

/-- The first Stitch after the primary that may witness, among others than those given (R482, R483). -/
def State.witnessFor (s : State) (st : Nat) (not : List Nat) : Option Nat :=
  let z := s.sentSet (st / 256)
  ((List.range 256).map (fun m => st / 256 * 256 + (st % 256 + z.offset + m) % 256)).find? (fun j =>
    !s.absent j && !s.isRetired j && decide ((s.tile j).power ≠ .dark) && !not.contains j)

/-- The Dealer of a Skein. -/
def State.dealer (s : State) (k : Nat) : Dealer := tabGet s.pwr.dealers {} k
/-- Replace a Dealer. -/
def State.setDealer (s : State) (k : Nat) (d : Dealer) : State :=
  s.setPwr { s.pwr with dealers := tabPut s.pwr.dealers k d }

/-- Keys of estimates (15 R428): witness checks and Swatch items by kind. -/
def keyCheck : List Nat := [2, 0]
def keySwatch : List Nat := [2, 1]

/-- Counters of a power domain, by index: per class 4c + 0 Turns held for energy, + 1 for cycles, + 2 overdraws,
+ 3 their eu; then starts per queue, aged starts, skipped checks, steps up, down, abandoned, emergencies. -/
def pwStart := 32
def pwAged := 35
def pwSkipped := 36
def pwUp := 37
def pwDown := 38
def pwAbandon := 39
def pwEmerg := 40

/-- Put an item in queue S; a 257th drops the oldest, counted and logged as a skipped check (15 R429). -/
def State.queueS (s : State) (k : Nat) (w : Work) (key : List Nat) : State :=
  let d := s.dealer k
  let q := d.s ++ [{ work := w, since := s.time.pip, key := key }]
  if q.length ≤ 256 then s.setDealer k { d with s := q }
  else
    let s := (s.setDealer k { d with s := q.tail }).bump .pwr k pwSkipped
    match q.head? with
    | some { work := .check id, .. } =>
      let s := s.setInteg { s.integ with checks := s.integ.checks.filter (·.id != id) }
      s.sentSkip (256 * k) 0
    | _ => (s.bump .sent k snSkip).logRaise 0x0F03 0 0 (srcOf 1 k) 0 0

/-- A selected word completes: its check enters queue S of the witness's Skein (R482). -/
def State.sentDone (s : State) (st : Nat) (snap : Option Nat) : State :=
  match snap with
  | none => s
  | some id =>
    match s.witnessFor st [st] with
    | none => (s.setInteg { s.integ with checks := s.integ.checks.filter (·.id != id) }).sentSkip st 2
    | some j =>
      (s.setInteg { s.integ with checks := s.integ.checks.map (fun c =>
        if c.id = id then { c with witness := some j } else c) }).queueS (st / 256) (.check id) keyCheck

/-- The range of `n` bytes at an operand's origin. -/
def originRange (st : Nat) (o : Option LatOp) (n : Nat) : List (Nat × Nat) :=
  match o with | some x => if n = 0 then [] else [(x.d.addr st x.row x.col, n)] | none => []

/-- The ranges of memory that a word touches whatever it reads; the source of a GATHER and the location of an ATOMIC
are checked when they are accessed. -/
def opRanges (st : Nat) (c : Checked) : List (Nat × Nat) :=
  let w := c.w
  match wForm w, c.ops with
  | 1, [a, b, cc] =>
    (match a with | some o => o.srcRanges st (wM w) (wK w) | none => []) ++
    (if wSpctl w = 2 then factorRanges st c else match b with | some o => o.ranges st (wN w) (wK w) | none => []) ++
    (if wSpctl w = 2 then [] else match cc with | some o => o.ranges st (wM w) (wN w) | none => [])
  | 2, ops => ops.flatMap (fun o => match o with | some o => o.runRanges st (wf w 107 96 + 1) | none => [])
  | 3, _ => dmaSrc st c ++ dmaDst st c
  | 4, [src, dst, aux] =>
    (match wf w 127 124 with
     | 0 => originRange st src (wf w 113 108 + 1) ++ originRange st dst (wf w 113 108 + 1)
     | 1 => originRange st dst (wf w 113 108 + 1) ++ originRange st aux 4
     | 2 => originRange st src (atomOperands (wf w 107 100)) ++ originRange st aux ((atomSize (wf w 107 100)).getD 0)
     | _ => [])
  | 7, _ => [(wf w 63 0, 64)]
  | _, _ => []

/-- Those ranges, with the location of an ATOMIC and the tensor of a GATHER. -/
def reachRanges (st : Nat) (c : Checked) : List (Nat × Nat) :=
  opRanges st c ++ (match wForm c.w, wf c.w 127 124, c.ops with
    | 4, 1, [some a, _, _] => [(a.d.addr st 0 a.col, wf c.w 113 108 + 1)]
    | 4, 2, [_, dst, _] => originRange st dst 1
    | _, _, _ => [])

/-- The place to which a SIG_REMOTE goes. -/
def sigRange (st : Nat) (c : Checked) : List (Nat × Nat) :=
  match wForm c.w, wf c.w 127 124, c.ops with | 4, 3, [_, dst, _] => originRange st dst 1 | _, _, _ => []

/-! ### Starting and completing operations -/

/-- The effect of an operation whose addresses may still be accessed, or the next part of it. -/
def State.opEffect (s : State) (st : Nat) (o : Op) : State :=
  let simple (r : State × Option Status) (o : Op) : State :=
    match r.2 with | some e => r.1.opError st o e | none => r.1.setOp st { o with done := true }
  let w := o.c.w
  match wForm w with
  | 1 =>
    (match wf w 127 124, wSpctl w with
     | 2, _ => simple (s.loadAcc st o.c) o
     | 3, _ => let r := s.drain st o.c (s.opStep o); r.1.setOp st { o with done := true, parts := r.2.toList }
     | _, 2 =>
       if o.stage = 0 && !(s.farOf (factorRanges st o.c)).isEmpty then
         let r := s.askFar st (.engine st o.id) 0 (factorRanges st o.c)
         r.1.setOp st { o with stage := 1, left := r.2 }
       else simple (s.predict o.far st o.c) o
     | _, 3 => simple (s.maskN st o.c (s.opStep o)) o
     | _, 4 => simple (s.maskK st o.c (s.opStep o)) o
     | _, _ =>
       let z := s.sentSelect st o.c
       simple (z.1.mma st o.c) { o with snap := z.2 })
  | 2 =>
    let r := s.vector st o.c (s.opStep o)
    (match r.2 with
     | .error e => r.1.opError st o e
     | .ok p => r.1.setOp st { o with done := true, parts := [p] })
  | 3 => s.runDma st o
  | _ =>
    (match wf w 127 124 with
     | 2 => s.runAtomic st o
     | 3 => s.runSigRemote st o
     | _ => s.runCopy st o)

/-- That effect, in the order of R265 among the accesses of one core cycle. -/
def State.runOp (s : State) (st : Nat) (o : Op) : State := (s.firstBy (o.requester st) (fun s => (s.opEffect st o, ()))).1

/-- An operation begins to run; an address that has become refused since its check faults it now (09 R275; 13 R390). -/
def State.beginOp (s : State) (st : Nat) (o : Op) : State :=
  let o := { o with begun := true, began := s.time.pip }
  let s := s.setOp st o
  match s.rangesStatus (opRanges st o.c) false with
  | some e => s.opError st o e
  | none => (s.addressed (o.requester st) (opRanges st o.c)).runOp st o

/-- A byte of memory, of the control space or far, by one key. -/
def State.placeKey (s : State) (a : Nat) : Nat :=
  match s.place? a with
  | .here b => if addrSpace b = 3 then 2 ^ 63 + bits b 0 32 else memKey b
  | .far _ _ => 2 ^ 64 + a

/-- All that a MEM word may touch: its ranges, the whole tensor of a GATHER, the location of an ATOMIC. -/
def memRanges (st : Nat) (c : Checked) : List (Nat × Nat) :=
  opRanges st c ++ (match wf c.w 127 124, c.ops with
    | 1, [some a, _, _] => [(a.d.addr st 0 0, a.d.rows * a.d.pitch)]
    | 2, [_, dst, _] => originRange st dst (max 1 ((atomSize (wf c.w 107 100)).getD 1))
    | _, _ => [])

/-- Two MEM words of a slot meet at a byte: they take effect in issue order (R276). -/
def State.memMeet (s : State) (st : Nat) (a b : Checked) : Bool :=
  (memRanges st a).any (fun x => (memRanges st b).any (fun y => overlaps (s.placeKey x.1) x.2 (s.placeKey y.1) y.2))

/-- An earlier MEM word of the slot that is not done touches a byte of this one. -/
def State.memWaits (s : State) (st : Nat) (o : Op) : Bool :=
  (s.slot st o.slot).mem.any (fun e => decide (e.id < o.id) && !e.done && s.memMeet st e.c o.c)

/-- MEM words of a slot that waited for an earlier one begin (R276). -/
def State.beginMem (s : State) (st slot : Nat) : State :=
  (s.slot st slot).mem.foldl (fun s e =>
    match (s.tile st).findOp e.id with
    | some o => if o.begun || s.memWaits st o then s else s.beginOp st o
    | none => s) s

/-- The pip at which a running operation of the matrix unit ends (R257, R258). -/
def State.opDue (s : State) (st : Nat) (o : Op) : Nat := o.began + s.cyclesPips (st / 256) o.cycles

/-- Two operations of the matrix unit that may overlap: one takes products into a tile while the other drains or loads the other
tile (R258, R291). -/
def mayOverlap (a b : Checked) : Bool :=
  wf a.w 123 123 != wf b.w 123 123 && (decide (wf a.w 127 124 ≥ 2) != decide (wf b.w 127 124 ≥ 2))

/-- The predictor of a Skein serves its PREDICT words in the order in which they reach it, those of one core cycle in the order of R191
over the Stitch index (12 R364): this word's turn has come. -/
def State.predictTurn (s : State) (st : Nat) (o : Op) : Bool :=
  wSpctl o.c.w != 2 || s.tiles.all (fun p => p.1 / 256 != st / 256 || p.1 == st || (p.2.ops 0).all (fun q =>
    !q.begun || wForm q.c.w != 1 || wSpctl q.c.w != 2 || decide (o.began < q.began) || (o.began == q.began && tieWins o.began st p.1)))

/-- The operations of an engine or of the memory of slot e − 4 in the order in which they complete (R291; 12 R364). -/
def State.completing (s : State) (st e : Nat) : List Op :=
  if e = 0 then
    (match (s.tile st).ops 0 with
     | [a, b] => if b.begun && decide (s.opDue st b < s.opDue st a) then [b, a] else [a, b]
     | l => l).filter (s.predictTurn st)
  else if e < 4 then ((s.tile st).ops e).take 1 else (s.slot st (e - 4)).mem

/-- A signal takes effect: a flag is set, or a counter added to (R271). -/
def State.signalNow (s : State) (st : Nat) (w : BitVec 256) : State :=
  if wf w 211 210 = 1 then s.setFlag st (wf w 209 205) else s.addCntr st (wf w 209 205) (wf w 204 189)

/-- Post the signal of a word with number `id` among the Stitch's operations (R293, R294): it takes effect at once, or
after the slot's earlier writes (R276). -/
def State.postSignal (s : State) (st slot id : Nat) (w : BitVec 256) (stamp : Nat) : State :=
  if wf w 211 210 = 0 then s
  else
    let s := s.traceAt stamp st slot (wTag w) evSignal 0
    let ids := s.olderWrites st slot id
    if ids.isEmpty then s.signalNow st w
    else
      let x := s.slot st slot
      s.setSlot st slot { x with held := x.held ++ [(ids, w)] }

/-- A memory word of a slot has ended, its writes complete or not: signals that waited for it alone take effect, or
never will; words that only signal and waited go on (R276). -/
def State.releaseSignals (s : State) (st slot id : Nat) (ok : Bool) : State :=
  let x := s.slot st slot
  let kept := x.held.filter (fun h => ok || !h.1.contains id)
  let rest := kept.map (fun h => (h.1.filter (· ≠ id), h.2))
  let s := s.setSlot st slot { x with held := rest.filter (fun h => !h.1.isEmpty) }
  let s := (rest.filter (fun h => h.1.isEmpty)).foldl (fun s h => s.signalNow st h.2) s
  (s.slot st slot).mem.foldl (fun s o =>
    if o.status ≠ .ok ∨ o.done ∨ ¬ o.c.signals then s
    else if wf o.c.w 127 124 = 3 then s.runSigRemote st o
    else if o.begun && o.first.isSome then s.runAtomic st o else s) s

/-- A slot that has issued END becomes FREE when everything it started has completed (R307). -/
def State.freeIfEnded (s : State) (st i : Nat) : State :=
  let x := s.slot st i
  if x.ending && ((s.tile st).opsOf i).isEmpty then
    (s.setSlot st i { reserved := x.reserved }).endLaunch (x.owner.getD 0)
  else s

/-- Remove an operation and let the next of its engine begin. -/
def State.dropOp (s : State) (st e : Nat) (o : Op) : State :=
  let t := s.tile st
  if e < 4 then
    let q := (t.ops e).filter (·.id != o.id)
    let s := (s.setTile st { t with eng := tabPut t.eng e q }).atTile st
    match q with
    | n :: _ => if n.begun then s else s.beginOp st n
    | [] => s
  else
    let x := s.slot st (e - 4)
    ((s.setSlot st (e - 4) { x with mem := x.mem.filter (·.id != o.id) }).atTile st).beginMem st (e - 4)

/-- An answered or timed-out request of an operation: its bytes, or its status (R276, R278). -/
def State.opAnswer (s : State) (st id : Nat) (r : Except Status (Option (Nat × List Byte))) : State :=
  match (s.tile st).findOp id with
  | none => s
  | some o =>
    if o.done then s
    else match r with
      | .error e =>
        let s := if wForm o.c.w = 3 then s.dropAskers (fun a => decide (a = .engine st id)) else s
        let left := if wForm o.c.w = 3 then 0 else o.left - 1
        if o.status = .ok then s.opError st { o with left := left } e
        else s.setOp st { o with left := left, done := decide (left = 0) }
      | .ok bs =>
        let o := { o with left := o.left - 1, far := match bs with | some p => memPutAll o.far p.1 p.2 | none => o.far }
        let s := s.setOp st o
        if o.left > 0 then s
        else if o.status ≠ .ok then s.setOp st { o with done := true }
        else if o.stage ≥ 8 then s.setOp st { o with done := true }
        else s.runOp st o

/-! ### Bank retention (R267) -/

/-- An operation that has been started, on any Stitch, has still to access a bank (R267). -/
def State.bankPending (s : State) (st bank : Nat) : Bool :=
  s.tiles.any (fun p => p.2.allOps.any (fun o => !o.done && (reachRanges p.1 o.c).any (fun r => match s.place? r.1 with
    | .here b => addrSpace b == 1 && (padPieces (memKey b) r.2).any (fun x => x.1 == st && (banksIn x.2.1 x.2.2).contains bank)
    | .far _ _ => false)))

/-- An operation that has been started, on any Stitch, has still to reach the scratchpad or control page of a Stitch (15 R434). -/
def State.stitchPending (s : State) (st : Nat) : Bool :=
  s.tiles.any (fun p => p.2.allOps.any (fun o => !o.done && (reachRanges p.1 o.c ++ sigRange p.1 o.c).any (fun r => match s.place? r.1 with
    | .here b => if addrSpace b = 1 then (stitchesIn (bits b 0 29) r.2).contains st else addrSpace b == 3 && (pagesIn b r.2).contains st
    | .far _ _ => false)))

/-- BANK_RETENTION_ENTRY: a bank whose SPAD_RETAIN bit is 1 enters retention once no access to it is pending: at once when it has not
been woken since its bit was set, and 2,048 core cycles after its last access when it was. -/
def execBankRetentionEntry (st bank : Nat) (s : State) : Host.Outcome State Fault Refusal :=
  let t := s.tile st
  let quiet := match tabGet? t.idle bank with
    | none => true
    | some a => decide (s.time.pip ≥ a + s.cyclesPips (st / 256) 2048)
  if (s.stitchStatus st).isSome || decide (bank ≥ 32) || !t.awake.getLsbD bank || !t.retain.getLsbD bank || !quiet ||
      s.bankPending st bank then .next s
  else .next (s.setTile st { t with awake := t.awake &&& ~~~(1#32 <<< bank) })

end Sys2Proof.Machine
end

