-- ==== Sys2Proof/Machine/Words.lean ====
section
/-! DEFINITION. Issue of control words: the next word of a slot, waits, loops, selection, and one row for each kind of
word (09 R260 to R262, R270 to R273; 10 R288 to R307, R317, R318). -/

namespace Sys2Proof.Machine

open Sys2Proof

/-! ### Waits (R270 to R273, R293) -/

/-- The value a counter wait compares with (R293). -/
def waitValue (x : Slot) (w : BitVec 256) : Nat :=
  if wf w 228 228 = 1 then x.cmp.getD (wf w 213 212) 0 else wf w 227 212

/-- The slots that wait with clear on a flag. -/
def Stitch.clearWaiters (t : Stitch) (f : Nat) : List Nat :=
  (t.slots.filter (fun p => decide (p.2.st = .live) && (match p.2.next with
    | some c => wf c.w 235 234 == 2 && wf c.w 233 229 == f | none => false))).map (·.1)

/-- Whether a slot's wait is satisfied; a wait with clear is satisfied for one slot only, chosen by R191 (R272). -/
def State.waitOk (s : State) (st i : Nat) (x : Slot) (w : BitVec 256) : Bool :=
  let t := s.tile st
  let n := wf w 233 229
  match wf w 235 234 with
  | 0 => true
  | 1 => t.flags.getLsbD n
  | 2 => t.flags.getLsbD n && (t.clearWaiters n).all (fun j => j == i || tieWins s.time.pip i j)
  | _ => decide ((t.cnt n + 2 ^ 32 - waitValue x w % 2 ^ 32) % 2 ^ 32 < 2 ^ 31)

/-- A wait on a counter whose halves disagree. -/
def State.waitTorn (s : State) (st : Nat) (w : BitVec 256) : Bool :=
  wf w 235 234 == 3 && s.cntTorn st (wf w 233 229)

/-- A checked word whose wait is not satisfied: its wait begins, traced once (Table 10-12). -/
def State.noteWait (s : State) (st i : Nat) (c : Checked) : State :=
  let x := s.slot st i
  if x.waited || s.waitOk st i x c.w then s
  else (s.setSlot st i { x with waited := true }).trace st i (wTag c.w) evWait 0

/-! ### The next word (R290, R298, R317, R318) -/

/-- A cache line: eight words of a loaded Pattern. -/
def lineKey (gen pc : Nat) : Nat := gen * 2 ^ 13 + pc / 8

/-- The place of a word of a Pattern in a Skein's store. -/
def wordKey (k : Nat) (p : Pattern) (pc : Nat) : Nat := dramKey (patStore k + p.off + 64 + 32 * pc)

/-- The Pattern of a launch. -/
def State.patternOf (s : State) (l : Launch) : Option Pattern := tabGet? s.pat.pats l.pat

/-- A MASK word's check advances its layer's current step (12 R367); the word runs as EXACT under fallback. -/
def State.noteMask (s : State) (st : Nat) (c : Checked) (step : Nat) : State × Checked :=
  match c.layer with
  | none => (s, c)
  | some (li, l, _) =>
    if wSpctl c.w < 3 then (s, c)
    else match s.layer (st / 256) li with
      | none => (s, c)
      | some e =>
        let newer := match e.step with | none => true | some x => x != step && decide ((step + 2 ^ 32 - x) % 2 ^ 32 < 2 ^ 31)
        let s := if newer then s.setLayer (st / 256) li { e with step := some step, audited := 0, found := 0 } else s
        (s, { c with layer := some (li, l, decide (e.fallback = some step)) })

/-- The cached word at a position as a place of uncorrectable words. -/
def wordSite (st gen pc : Nat) : UeSite := .word st (gen * 2 ^ 16 + pc)

/-- Whether the word at a position cannot be fetched: its bytes in the Pattern store or its copy in the cache are uncorrectable. -/
def State.wordUe (s : State) (st : Nat) (p : Pattern) (pc : Nat) : Bool :=
  s.ueIn (wordKey (st / 256) p pc) 32 || s.siteUe (wordSite st p.gen pc)

/-- Log the uncorrectable word that a fetch met: in the store, or else in the cache (17 Table 17-2). -/
def State.logWordUe (s : State) (st : Nat) (p : Pattern) (pc : Nat) : State :=
  match s.firstUe (wordKey (st / 256) p pc) 32 with
  | some u => s.logUe u
  | none => (s.dropSite (wordSite st p.gen pc)).logRaise 0x1101 2 0xD (srcOf 2 st) 0 (32 * pc + 4 * 2 ^ 48)

/-- Check the word at the slot's position, its line being in the cache; an uncorrectable fetch faults the slot and discards the line
(R318). -/
def State.checkNext (s : State) (st i : Nat) (l : Launch) (p : Pattern) : State :=
  let x := s.slot st i
  let k := wordKey (st / 256) p x.pc
  if s.wordUe st p x.pc then
    let s := s.logWordUe st p x.pc
    let t := s.tile st
    let s := s.setTile st { t with icache := t.icache.filter (· ≠ lineKey p.gen x.pc) }
    s.slotFault st i .integrity x.tag x.pc false s.time.pip
  else
    let w := BitVec.ofNat 256 (s.readNat k 32)
    match s.checkWord st x w p.count l.optStep with
    | .error e => s.slotFault st i e (wTag w) x.pc false s.time.pip
    | .ok c =>
      let r := s.noteMask st c l.step
      (r.1.setSlot st i { x with next := some r.2, waited := false }).noteWait st i r.2

/-- The slot's next position: beyond the image it faults (R298); a line in the cache is checked at once, another waits
for its fill (R317). -/
def State.becomeNext (s : State) (st i : Nat) : State :=
  let x := s.slot st i
  match s.slotLaunch st i with
  | none => s
  | some l =>
    match s.patternOf l with
    | none => s
    | some p =>
      if x.pc ≥ p.count then s.slotFault st i .badDesc x.tag x.pc false s.time.pip
      else
        let t := s.tile st
        let key := lineKey p.gen x.pc
        if t.icache.contains key then
          (s.setTile st { t with icache := key :: t.icache.filter (· ≠ key) }).checkNext st i l p
        else s.setSlot st i { x with next := none }

/-- ICACHE_FILL: the missed line enters the cache, for which the least recently used leaves; the next one comes as a prefetch where
there is room, as the first to leave until it is used (R317). -/
def execIcacheFill (st slot : Nat) (s : State) : Host.Outcome State Fault Refusal :=
  let x := s.slot st slot
  match s.slotLaunch st slot with
  | none => .next s
  | some l =>
    match s.patternOf l with
    | none => .next s
    | some p =>
      if decide (x.st ≠ .live) || x.next.isSome || x.ending || decide (x.pc ≥ p.count) then .next s
      else
        let t := s.tile st
        let key := lineKey p.gen x.pc
        let c := (key :: t.icache.filter (· != key)).take 256
        let pre := if x.pc / 8 * 8 + 8 < p.count && !c.contains (key + 1) then [key + 1] else []
        .next ((s.setTile st { t with icache := (c ++ pre).take 256 }).checkNext st slot l p)

/-! ### Readiness and selection (R260, R261, R291) -/

/-- The engine of a word: 0 matrix, 1 vector, 2 and 3 DMA. -/
def wEngine (w : BitVec 256) : Option Nat :=
  match wForm w with | 1 => some 0 | 2 => some 1 | 3 => some (2 + wf w 127 127) | _ => none

/-- The guard of a word passes (R292). -/
def guardOk (x : Slot) (w : BitVec 256) : Bool :=
  wf w 148 148 == 0 || (x.p.getD (wf w 146 145) false != (wf w 147 147 == 1))

/-- The engine can take the word, and its requests stay within R260 and the limit of outstanding tags (05 R152). -/
def State.engineOk (s : State) (st : Nat) (x : Slot) (c : Checked) : Bool :=
  let t := s.tile st
  (match wEngine c.w with | some e => decide ((t.ops e).length < 2) | none => true) &&
  decide (x.mem.length < 16) && decide (t.requests < 256) &&
  s.tagsFree (s.farOf (reachRanges st c)) && s.rangesReady st (reachRanges st c ++ sigRange st c)

/-- The domain class of a slot's words. -/
def State.slotClass (s : State) (st i : Nat) : Nat :=
  match (s.slot st i).owner with
  | none => clsThreads
  | some key => match s.launch key with | some l => launchClass key l | none => clsThreads

/-- A slot's next word could issue but for a hold of its class. -/
def State.couldIssue (s : State) (st i : Nat) : Bool :=
  let x := s.slot st i
  decide (x.st = .live) && !x.ending && decide ((s.tile st).power = .active) &&
  (match x.next with
   | none => false
   | some c => s.waitOk st i x c.w && s.engineOk st x c)

/-- READY (R260, R291). -/
def State.slotReady (s : State) (st i : Nat) : Bool :=
  s.couldIssue st i && s.mayIssue (st / 256) (s.slotClass st i)

/-- The slot that the Stitch selects: the first READY one upward from the one after the last (R261). -/
def State.pick (s : State) (st : Nat) : Option Nat :=
  ((List.range 64).map (fun n => ((s.tile st).lastSlot + 1 + n) % 64)).find? (fun i => s.slotReady st i)

/-! ### Loops (R296, R297) -/

/-- End the loops from level n inward. -/
def endLoops (ls : List Loop) (n : Nat) : List Loop :=
  ls.zipIdx.map (fun p => if p.2 ≥ n then { p.1 with active := false, index := 0 } else p.1)

/-- Set one loop level. -/
def setLoop (ls : List Loop) (n : Nat) (l : Loop) : List Loop := ls.set n l

/-- The loop ends tested from the innermost level: the loops and the next position. -/
def closeLoops (e : Nat) : Nat → List Loop → List Loop × Nat
  | 0, ls => (ls, e + 1)
  | n + 1, ls =>
    let l := ls.getD n {}
    if l.active ∧ l.last = e then
      if l.index + 1 < l.count then (setLoop ls n { l with index := l.index + 1 }, l.first)
      else closeLoops e n (setLoop ls n { l with active := false, index := 0 })
    else closeLoops e n ls

/-- next_pc of R296: the loops and position after a word at pc. -/
def nextPc (x : Slot) (w : BitVec 256) (pc : Nat) : List Loop × Nat :=
  let op := wf w 188 187
  let n := wf w 186 185
  let body := wf w 167 152
  if op = 1 then
    let cnt := if wf w 184 184 = 0 then wf w 183 168 else x.lc.getD n 0
    if cnt > 0 then
      (setLoop x.loops n { active := true, first := pc + 1, last := pc + body, count := cnt, index := 0 }, pc + 1)
    else closeLoops (pc + body) 4 x.loops
  else if op = 2 ∧ (x.p.getD (wf w 150 149) false != (wf w 151 151 == 1)) then
    closeLoops (x.loops.getD n {}).last 4 (endLoops x.loops n)
  else closeLoops pc 4 x.loops

/-! ### Effects at issue of words without an engine -/

/-- Add modulo 2^32. -/
def add32m (a b : Nat) : Nat := (a + b) % 2 ^ 32

/-- An AGSET word's effect (Table 10-4). -/
def agSet (x : Slot) (w : BitVec 256) : Slot :=
  let g := wf w 127 126
  let a := x.ag.getD g {}
  let row := wf w 63 32
  let col := wf w 31 0
  let n := wf w 123 122
  let a := match wf w 125 124 with
    | 0 => { a with row0 := row, col0 := col }
    | 1 => { a with rs := a.rs.set n row, cs := a.cs.set n col }
    | _ => { a with row0 := add32m a.row0 row, col0 := add32m a.col0 col }
  { x with ag := x.ag.set g a }

/-- The value that TEST compares (Table 10-10). -/
def testValue (t : Stitch) (x : Slot) (w : BitVec 256) : Nat :=
  let n := wf w 114 111
  match wf w 116 115 with
  | 0 => t.cnt n
  | 1 => let l := x.loops.getD n {}; if l.active then l.index else 0
  | 2 => x.lc.getD n 0
  | _ => x.cmp.getD n 0

/-- cond(x, CMPj) (Table 10-10). -/
def testCond (cond v c : Nat) : Bool :=
  let ge := decide ((v + 2 ^ 32 - c % 2 ^ 32) % 2 ^ 32 < 2 ^ 31)
  match cond with
  | 0 => v == c | 1 => v != c | 2 => ge | 3 => !ge | 4 => decide (v ≥ c) | _ => decide (v < c)

/-- A SCALAR word's effect on its slot (Table 10-10); CNT_WRITE acts on the Stitch. -/
def scalarSet (t : Stitch) (x : Slot) (w : BitVec 256) : Slot :=
  let j := wf w 123 122
  let imm := wf w 31 0
  match wf w 127 124 with
  | 0 => { x with cmp := x.cmp.set j imm }
  | 1 => { x with cmp := x.cmp.set j (add32m (x.cmp.getD j 0) imm) }
  | 2 => { x with lc := x.lc.set j imm }
  | 4 => { x with p := x.p.set (wf w 121 120) (testCond (wf w 119 117) (testValue t x w) (x.cmp.getD j 0)) }
  | 5 => { x with p := x.p.set (wf w 121 120) (decide (imm % 2 = 1)) }
  | _ => x

/-- TEST of a counter whose halves disagree. -/
def State.testTorn (s : State) (st : Nat) (w : BitVec 256) : Bool :=
  wForm w == 6 && wf w 127 124 == 4 && wf w 116 115 == 0 && s.cntTorn st (wf w 114 111)

/-! ### Descriptor loads (R308 to R312) -/

/-- The descriptor of an image, or its refusal (R310, R354). -/
def parseDesc (b : List Byte) : Except Status Desc :=
  let f (o n : Nat) : Nat := fieldAt b o n
  match Fmt.ofCode (f 0 1 % 16) with
  | none => .error .badField
  | some fm =>
    let block := bits (f 0 1) 4 2
    let self := bit (f 2 1) 2
    let rows := f 4 4; let cols := f 8 4; let pitch := f 12 4
    let lay := bits (f 2 1) 0 2
    let addrBad (a : Nat) : Bool :=
      if self then decide (a ≥ 2 ^ 19)
      else match addrSpace a with
        | 0 => decide (bits a 37 25 ≠ 0) | 1 => decide (bits a 29 33 ≠ 0) | 2 => false | _ => decide (bits a 32 30 ≠ 0)
    let bad := decide (f 0 1 ≥ 64) || decide (f 2 1 ≥ 8) || decide (lay ≥ 2) || decide (f 3 1 ≥ 2) || decide (f 60 4 ≠ 0) ||
      decide (rows = 0) || decide (cols = 0) || (!fm.narrow && block != 0) || (!fm.scaled && f 1 1 != 127) ||
      addrBad (f 16 8) || addrBad (f 24 8) || addrBad (f 32 8)
    let bytes := cols * fm.width / 8
    let rlz := lay == 1
    let badD := (fm.narrow && cols % blockSize block != 0) || decide (cols * fm.width % 8 ≠ 0) || decide (pitch < bytes) ||
      (fm.narrow && pitch != bytes) || (fm.narrow != (f 24 8 != 0)) || (!rlz && f 32 8 != 0) ||
      (rlz && (f 32 8 == 0 || f 32 8 % 64 != 0 || cols % 64 != 0 || decide (cols > 2 ^ 24)))
    if bad then .error .badField
    else if badD then .error .badDesc
    else .ok { fmt := fm, block := block, prescale := f 1 1, rlz := rlz, self := self, writable := bit (f 3 1) 0,
               rows := rows, cols := cols, pitch := pitch, data := f 16 8, scale := f 24 8, sparse := f 32 8,
               stats := { amax := f 40 4, sat := f 44 4, inv := f 48 4, nanblk := f 52 4 }, tid := f 56 4 }

/-- Load a descriptor into an entry, by a command or a word: a new generation (R311). Of a command and a word that load one entry in
one core cycle the one that R191 names loads first, so that the other's image stays, each with a generation (R312; DESIGN CHOICE: entry
SAMECYCLE). -/
def State.loadDesc (s : State) (cmd : Bool) (h : Nat) (d : Desc) : State :=
  let e := s.desc h
  if e.last = some (s.time.pip, !cmd) ∧ tieWins s.time.pip (b2n !cmd) (b2n cmd) then
    s.setDescs (tabPut s.descs (handleKey h) { e with gen := e.gen + 1 })
  else s.setDescs (tabPut s.descs (handleKey h) { gen := e.gen + 1, d := some d, last := some (s.time.pip, cmd) })

/-- The effect of a DESC word (R306): the refusal of its image, or the loaded entry. -/
def State.descLoadWord (s : State) (w : BitVec 256) : State × Option Status :=
  let a := wf w 63 0
  match s.ueAt a 64 with
  | some u => (s.logUe u, some .integrity)
  | none =>
    match parseDesc (s.read (memKey a) 64) with
    | .error e => (s, some e)
    | .ok d => (s.loadDesc false (wf w 127 112) d, none)

/-! ### Issue (R291 to R296, R305 to R307) -/

/-- Core cycles and energy coefficients of a word whose guard passes (15 Table 15-2); where chapter 12 gives only a bound on cycles of a
MATRIX word, these are a free value within it (DESIGN CHOICE: entry SPARSECOST). -/
def State.wordCost (s : State) (st : Nat) (c : Checked) : (Nat × Nat) × State :=
  let w := c.w
  match wForm w with
  | 1 =>
    (match s.matrixBound st c with
     | (n, 0) => ((n, if n = (matrixCost c).1 then (matrixCost c).2 else n * opEu c), s)
     | (n, m) => let r := s.fresh; let x := n + r.1 % (m + 1); ((x, x * opEu c), r.2))
  | 2 => let n := (wf w 107 96 + 64) / 64; ((n, 6 * n), s)
  | 3 => let n := (dmaSrc st c).foldl (fun a r => a + r.2) 0; (((n + 127) / 128, 1 + moveEu n), s)
  | 4 => ((1, 1 + moveEu (wf w 113 108 + 1)), s)
  | _ => ((1, 1), s)

/-- Charge a word to its class, and to its launch's total (15 R419, Table 15-2). -/
def State.chargeWord (s : State) (st slot : Nat) (cost : Nat × Nat) : State :=
  let k := st / 256
  let cls := s.slotClass st slot
  let e := s.energyOf k cost.2
  let s := s.charge k cls cost.1 cost.2
  match (s.slot st slot).owner with
  | none => s
  | some key => match s.launch key with
    | none => s
    | some l => s.setLaunch key { l with energy := l.energy + e }

/-- The operation of a word with an engine, or of thread memory, is started (R291). -/
def State.startOp (s : State) (st slot : Nat) (c : Checked) (cycles : Nat) : State :=
  let t := s.tile st
  let o : Op := { id := t.nextOp, slot := slot, owner := (s.slot st slot).owner.getD 0, c := c, issued := s.time.pip, cycles := cycles }
  let s := s.setTile st { t with nextOp := t.nextOp + 1 }
  match wEngine c.w with
  | some e =>
    let t := s.tile st
    let q := t.ops e
    let s := s.setTile st { t with eng := tabPut t.eng e (q ++ [o]) }
    if q.isEmpty || (decide (e = 0) && q.all (fun r => mayOverlap r.c c)) then s.beginOp st o else s
  | none =>
    let x := s.slot st slot
    let s := s.setSlot st slot { x with mem := x.mem ++ [o] }
    if s.memWaits st o then s else s.beginOp st o

/-- The operation of a word whose guard passes; words without an engine post their signal at once (Table 10-3). -/
def State.wordEffect (s : State) (st slot : Nat) (c : Checked) (cycles : Nat) : State :=
  let w := c.w
  let x := s.slot st slot
  let done (s : State) : State := (s.trace st slot (wTag w) evComplete 0).postSignal st slot (s.tile st).nextOp w s.time.pip
  match wForm w with
  | 0x5 => done (s.setSlot st slot (agSet x w))
  | 0x6 =>
    if wf w 127 124 = 3 then done (s.setCntr st (wf w 114 111) (wf w 31 0))
    else done (s.setSlot st slot (scalarSet (s.tile st) x w))
  | 0x7 =>
    let r := s.descLoadWord w
    (match r.2 with
     | some e => r.1.slotFault st slot e (wTag w) c.pc true s.time.pip
     | none => done r.1)
  | 0xF => done (s.setSlot st slot { x with ending := true, next := none })
  | 0x0 => done s
  | _ => s.startOp st slot c cycles

/-- Issue the selected slot's word: the wait's clear, the operation unless the guard fails, the loop step, the next
word's check. -/
def State.issueWord (s : State) (st slot : Nat) (c : Checked) : State :=
  let w := c.w
  let t := s.tile st
  let s := s.setTile st { t with lastSlot := slot, idle := tabPut t.idle 32 s.time.pip, cycle := {} }
  let s := s.trace st slot (wTag w) evIssue 0
  let s := if wf w 235 234 = 2 then s.clearFlag st (wf w 233 229) else s
  let x := s.slot st slot
  let s := s.setSlot st slot { x with tag := wTag w, next := none, waited := false }
  let pass := guardOk x w
  let cost := if pass then s.wordCost st c else ((1, 1), s)
  let s := cost.2.chargeWord st slot cost.1
  let s := if pass then s.wordEffect st slot c cost.1.1 else s
  let y := s.slot st slot
  if decide (y.st ≠ .live) then s
  else if y.ending then s.freeIfEnded st slot
  else
    let r := nextPc y w c.pc
    (s.setSlot st slot { y with loops := r.1, pc := r.2 }).becomeNext st slot

/-- The site of a slot's loop values. -/
def loopLoc (slot : Nat) : Nat := 64 + slot

/-- A row of a control word: the selected slot issues a word of the row's kind. A slot whose class is held notes the hold
(15 R426); a wait not satisfied is traced once (Table 10-12); halves that disagree are a critical-state error. -/
def State.wordRow (s : State) (st slot : Nat) (mine : BitVec 256 → Bool) : Host.Outcome State Fault Refusal :=
  let x := s.slot st slot
  match x.next with
  | none => .next s
  | some c =>
    if !mine c.w || decide (x.st ≠ .live) || x.ending then .next s
    else if s.waitTorn st c.w then .next (s.stitchCritical st (cntLoc (wf c.w 233 229)))
    else if s.testTorn st c.w then .next (s.stitchCritical st (cntLoc (wf c.w 114 111)))
    else if s.torn rowStitch st (loopLoc slot) then .next (s.stitchCritical st (loopLoc slot))
    else if !s.waitOk st slot x c.w then
      .next (s.noteWait st slot c)
    else if s.couldIssue st slot && !s.slotReady st slot then .next (s.noteHold (st / 256) (s.slotClass st slot))
    else if s.pick st = some slot then .next (s.issueWord st slot c)
    else .next s

/-- A MATRIX word's kind. -/
def isMatrix (mop sp : Nat) (w : BitVec 256) : Bool := wForm w == 1 && wf w 127 124 == mop && wSpctl w == sp
def isVector (vop : Nat) (w : BitVec 256) : Bool := wForm w == 2 && wf w 127 120 == vop
def isMem (mop : Nat) (w : BitVec 256) : Bool := wForm w == 4 && wf w 127 124 == mop
def isAg (sub : Nat) (w : BitVec 256) : Bool := wForm w == 5 && wf w 125 124 == sub
def isScalar (sop : Nat) (w : BitVec 256) : Bool := wForm w == 6 && wf w 127 124 == sop

/-- OPERATION_COMPLETE (R294, R215, R311): the running operation of an engine (0 matrix, 1 vector, 2 and 3 DMA), or the
first finished memory request of slot engine − 4, completes: its statistics combine, it posts its signal unless it
ended in error or its slot was stopped, and the next operation of the engine begins. -/
def rowOperationComplete (st engine : Nat) (s : State) : Host.Outcome State Fault Refusal :=
  match (s.completing st engine).find? (fun o => o.begun && o.done) with
  | none => .next s
  | some o =>
    let s := o.parts.foldl State.addStats s
    let s := s.sentDone st o.snap
    let s := s.traceAt o.issued st o.slot (wTag o.c.w) evComplete 0
    let s := s.dropOp st engine o
    let s := if decide (o.status = .ok) && !o.mute then s.postSignal st o.slot o.id o.c.w o.issued else s
    let s := if engine < 4 then s else s.releaseSignals st o.slot o.id (decide (o.status = .ok))
    let s := s.freeIfEnded st o.slot
    .next (s.endLaunch o.owner)

/-- FAR_TIMEOUT (R278, R287): a far request of a Stitch unanswered far_timeout pips after it was sent faults its slot,
or ends its transfer, with ST_TIMEOUT. Far output of a Ladder times out in its own chapter's way. -/
def State.stitchTimeout (s : State) (r : Request) : State :=
  let s := s.delReq r
  match r.who with
  | .engine st id | .slot st id => s.opAnswer st id (.error .timeout)
  | _ => s

end Sys2Proof.Machine
end

