-- ==== Sys2Proof/Machine/LaunchCmds.lean ====
section
/-! DEFINITION. Commands on Patterns, launches, descriptors and predictor layers, and the start and end of launches (02 R54
to R61; 10 R308 to R325; 12 R362, R369, R371; 18 R514). -/

namespace Sys2Proof.Machine

open Sys2Proof

/-! ### Measurements (18 R514) -/

/-- An entry of the measurement log. -/
def measEntry (index kind stamp id : Nat) (digest : BitVec 384) : List Byte :=
  leBytes 4 index ++ leBytes 1 kind ++ leBytes 3 0 ++ leBytes 8 stamp ++ leBytes 4 id ++ leBytes 4 0 ++ beBytes 48 digest.toNat

/-- Record a measurement: kind 1 firmware image, 2 Pattern, 3 debug unlock; entry 0x1208 when the log fills. -/
def State.measure (s : State) (kind id : Nat) (digest : BitVec 384) : State :=
  let e := measEntry (s.sec.measCount + 1) kind s.time.pip id digest
  let full := decide (s.sec.meas.length ≥ 4096)
  let s := s.setSec { s.sec with
    measCount := s.sec.measCount + 1, measDigest := Config.sha384 (beBytes 48 s.sec.measDigest.toNat ++ e),
    meas := if full then s.sec.meas else s.sec.meas ++ [BitVec.ofNat 576 (leNat e)] }
  if !full && decide (s.sec.meas.length = 4096) then s.logRaise 0x1208 0 0 s.needle 0 0 else s

/-! ### Patterns (R316) -/

/-- The lowest place of a store where `len` bytes fit beside the Patterns loaded (the placing is the model's own). -/
def placeIn (len : Nat) : List (Nat × Nat) → Nat → Nat
  | [], at0 => at0
  | (off, n) :: r, at0 => if at0 + len ≤ off then at0 else placeIn len r (max at0 (off + n))

/-- Insert a place in rising order. -/
def insertPlace (p : Nat × Nat) : List (Nat × Nat) → List (Nat × Nat)
  | [] => [p]
  | q :: r => if p.1 ≤ q.1 then p :: q :: r else q :: insertPlace p r

/-- Where the store of each Skein would hold an image of `len` bytes. -/
def State.patPlace (s : State) (len : Nat) : Nat :=
  placeIn (alignUp len 64) ((s.pat.pats.map (fun p => (p.2.off, alignUp p.2.len 64))).foldl (fun l p => insertPlace p l) []) 0

/-- PAT_LOAD (R316, R325): the image enters every Skein's Pattern store and the measurement log. -/
def execPatLoad (o : Origin) (addr len : Nat) (s : State) : Host.Outcome State Fault Refusal :=
  let h := s.readNat (dramKey addr) 64
  let n := bits h 32 32
  let id := firstFree (s.pat.pats.map (·.1)) 257 0
  let off := s.patPlace len
  s.loading o 0x0601 [addr, len] addr len
    (s.addrChks 0 addr len 64 ++
     [badFld 0 (decide (n = 0) || decide (n > 65536) || decide (bits h 8 24 ≠ 0) || decide (bits h 64 448 ≠ 0)),
      s.ownChk o resPat,
      ⟨decide (bits h 0 8 ≠ 1), .badDesc, none⟩, ⟨decide (len ≠ 64 + 32 * n), .badDesc, some 1⟩,
      ⟨decide (id ≥ 256) || decide (off + len > 2 ^ 25), .capacity, none⟩])
    (fun _ s =>
      let bs := s.read (dramKey addr) len
      let d := Config.sha384 bs
      let s := (List.range 4).foldl (fun s k => s.write (dramKey (patStore k + off)) bs) s
      let s := s.setPat { s.pat with
        pats := tabPut s.pat.pats id { gen := s.pat.nextGen, off := off, len := len, count := n, digest := d },
        nextGen := s.pat.nextGen + 1 }
      (s.measure 2 id d, .done .ok [uf 1 id, uf 4 n, bf 48 (leNat (beBytes 48 d.toNat))]))

/-- A launch of a Pattern is armed or running. -/
def State.patBusy (s : State) (id : Nat) : Bool :=
  s.pat.launches.any (fun l => l.2.pat == id && decide (l.2.st ≠ .ended))

/-- PAT_UNLOAD (R325). -/
def execPatUnload (o : Origin) (pat : Nat) (s : State) : Host.Outcome State Fault Refusal :=
  s.update o 0x0602 [pat]
    [s.ownChk o resPat, ⟨(tabGet? s.pat.pats pat).isNone, .badDesc, some 0⟩, ⟨s.patBusy pat, .busy, none⟩]
    (fun s => s.setPat { s.pat with pats := tabDel s.pat.pats pat }) (fun _ => [])

/-! ### Slots of a launch (R319, R320) -/

/-- The Stitches of a 128-byte bitmap, ascending. -/
def mapStitches (x : Nat) : List Nat := (List.range 1024).filter (fun i => bit x i)

/-- The slots that R319 takes on a Stitch: FREE before FAULTED, ascending; `none` when too few. -/
def State.takeSlots (s : State) (st n : Nat) : Option (List (Nat × Nat)) :=
  let open_ (f : SlotState) := (List.range 64).filter (fun i =>
    let x := s.slot st i
    decide (x.st = f) && x.reserved.isNone)
  let l := (open_ .free ++ open_ .faulted).take n
  if l.length < n then none else some (l.map (fun i => (st, i)))

/-- Reserve slots for a key; a FAULTED one loses its record (R262, R319). -/
def State.reserveSlots (s : State) (key : Nat) (l : List (Nat × Nat)) : State :=
  l.foldl (fun s p =>
    let x := s.slot p.1 p.2
    s.setSlot p.1 p.2 { x with st := .free, fault := none, reserved := some key }) s

/-- Give reserved slots back. -/
def State.unreserve (s : State) (key : Nat) (l : List (Nat × Nat)) : State :=
  l.foldl (fun s p =>
    let x := s.slot p.1 p.2
    if x.reserved = some key then s.setSlot p.1 p.2 { x with reserved := none } else s) s

/-- The slots of all Stitches of a map. -/
def State.takeAll (s : State) (sts : List Nat) (n : Nat) : Option (List (Nat × Nat)) :=
  sts.foldl (fun a st => match a, s.takeSlots st n with | some l, some m => some (l ++ m) | _, _ => none) (some [])

/-- The refusals of named Stitches (R31, R434). -/
def State.stitchChks (s : State) (sts : List Nat) : List Chk :=
  [⟨sts.any s.absent, .unitAbsent, none⟩, ⟨sts.any s.isRetired, .retired, none⟩,
   ⟨sts.any (fun st => s.stitchStatus st == some .busy), .busy, none⟩]

/-- The state of Table 10-1 for a slot: ordinal in the launch, ordinal within its Stitch. -/
def freshSlot (key entry n m arg0 arg1 : Nat) : Slot :=
  { st := .live, owner := some key, pc := entry, cmp := [n, m, arg0, arg1] }

/-- Order of slots: by Stitch, then slot. -/
def slotLe (a b : Nat × Nat) : Bool := decide (a.1 < b.1) || (a.1 == b.1 && decide (a.2 ≤ b.2))

/-- Insert a slot in order. -/
def insertSlot (p : Nat × Nat) : List (Nat × Nat) → List (Nat × Nat)
  | [] => [p]
  | q :: r => if slotLe p q then p :: q :: r else q :: insertSlot p r

/-- Slots in launch order. -/
def sortSlots (l : List (Nat × Nat)) : List (Nat × Nat) := l.foldr insertSlot []

/-- Start the slots of a launch record: each takes the state of Table 10-1 and its first word becomes next; on a Stitch retired
since, it ends with ST_RETIRED (R31, R324). -/
def State.startSlots (s : State) (key : Nat) (l : Launch) : State :=
  let ps := sortSlots l.slots
  let s := ps.zipIdx.foldl (fun s q =>
    let m := (ps.take q.2).countP (fun p => p.1 == q.1.1)
    let old := s.slot q.1.1 q.1.2
    let keep := if key ≥ 1024 then old.reserved else none
    s.setSlot q.1.1 q.1.2 { freshSlot key l.entry q.2 m l.arg0 l.arg1 with mem := old.mem, held := old.held, reserved := keep }) s
  ps.foldl (fun s p => if s.isRetired p.1 then s.stopSlot p.1 p.2 .retired 0 l.entry false s.time.pip else s.becomeNext p.1 p.2) s

/-- A launch starts at the present pip: its slots become READY and its command completes (R320). -/
def State.startLaunch (s : State) (key : Nat) (l : Launch) : State :=
  let l := { l with st := .running, start := s.time.pip }
  let s := (s.setLaunch key l).startSlots key l
  let s := match l.ticket with | some t => s.finish t .ok [uf 8 s.time.pip] | none => s
  s.endLaunch key

/-- A launch that never starts: slots released, its command completes with the status (R320, R323); without a go its arrive bit goes
back (02 R56, R57). -/
def State.dropLaunch (s : State) (key : Nat) (l : Launch) (st : Status) : State :=
  let s := s.setLaunch key { l with st := .ended, status := st, stop := s.time.pip, ticket := none }
  let s := s.unreserve key l.slots
  let s := match l.bslot with
    | none => s
    | some b => match tabGet? s.time.slots b with
      | some x => s.setBarrier b x { x with busy := false, arrived := x.go }
      | none => s
  match l.ticket with | some t => s.finish t st [] | none => s

/-- Operations of a launch post no signal any more (R323). -/
def Stitch.mute (t : Stitch) (key : Nat) : Stitch :=
  let f (l : List Op) : List Op := l.map (fun o => if o.owner = key then { o with mute := true } else o)
  { t with eng := tabMap t.eng (fun _ l => f l), slots := tabMap t.slots (fun _ x => { x with mem := f x.mem }) }

/-- Stop one slot of a launch, its operations muted (R323, R324). -/
def State.stopRunning (s : State) (key : Nat) (p : Nat × Nat) (status : Status) : State :=
  let x := s.slot p.1 p.2
  let s := s.setTile p.1 ((s.tile p.1).mute key)
  if x.owner = some key ∧ x.st = .live then s.stopSlot p.1 p.2 status x.tag x.pc false s.time.pip else s

/-- Abort a running launch (R322, R323): it ends once started operations have completed. -/
def State.abortLaunch (s : State) (key : Nat) (l : Launch) (status : Status) : State :=
  (l.slots.foldl (fun s p => s.stopRunning key p status) s).endLaunch key

/-! ### PAT_LAUNCH_AT and the start of launches (02 R54 to R61) -/

/-- The target of a scheduled action, or `none` when it has passed without run-if-late (R54). -/
def scheduled (accept target late : Nat) : Option Nat :=
  if target ≥ accept + 2048 then some target else if late = 1 then some (accept + 2048) else none

/-- A free barrier slot (R56). -/
def State.freeBarrier (s : State) : Option Nat :=
  (List.range 8).find? (fun k => match tabGet? s.time.slots k with | none => true | some b => !b.busy)

/-- Arm a barrier slot for a launch over a group's tree: the links of its switch members and its parent link, with the go
delay and the largest delay of the tree that the group holds (R57). The launch's phase is the complement of the go bit that the slot
shows, so that no bit that stands from an earlier launch shows it (DEDUCED: entry BARRIER). -/
def State.armBarrier (s : State) (k launch target : Nat) (g : Group) : State :=
  let old := tabGet? s.time.slots k
  let phase := match old with | some b => !b.goBit | none => true
  let kids := (g.members.filter (·.switch)).map (·.lk)
  let kids := kids.foldl addNew []
  let last (lk : Nat) : Bool := match old with
    | some b => ((b.kids.find? (fun x => x.1 == lk)).map (·.2)).getD (!phase) | none => !phase
  let b : BarrierSlot := { launch := launch, phase := phase, parent := g.parent,
                           kids := kids.map (fun lk => (lk, last lk)), delay := g.goDelay, span := g.goSpan,
                           quiet := target + s.setting idBarrierTo 0 + 4096 }
  s.setTime { s.time with slots := tabPut s.time.slots k b }

/-- PAT_LAUNCH_AT (R54, R55, R60, R319, R320, R325): slots are reserved at acceptance. -/
def execPatLaunchAt (o : Origin) (a : LaunchArgs) (s : State) : Host.Outcome State Fault Refusal :=
  let sts := mapStitches (s.readNat (dramKey a.map) 128)
  let p := tabGet? s.pat.pats a.pat
  let g := (tabGet? s.coll a.group).filter (fun g => !g.dead)
  let t := scheduled s.time.pip a.target a.late
  let slots := s.takeAll sts a.slotsPer
  let busy := match s.launch a.launch with | some l => decide (l.st ≠ .ended) | none => false
  s.loading o 0x0603
    [a.launch, a.pat, a.map, a.slotsPer, a.entry, a.target, a.late, a.group, a.runLimit, a.optStep, a.step, a.arg0, a.arg1] a.map 128
    (s.addrChks 2 a.map 128 64 ++ s.stitchChks sts ++
     [badFld 0 (decide (a.launch > 1023)), badFld 3 (!inRange 1 64 a.slotsPer), badFld 6 (decide (a.late > 1)),
      badFld 7 (decide (a.group > 4095) && decide (a.group ≠ 0xFFFF)),
      badFld 8 (decide (a.runLimit ≠ 0) && !inRange (2 ^ 12) (2 ^ 40) a.runLimit), badFld 9 (decide (a.optStep > 1)),
      badFld 4 (match p with | some p => decide (a.entry ≥ p.count) | none => false), s.ownChk o resPat,
      ⟨p.isNone, .badDesc, some 1⟩, ⟨sts.isEmpty, .badDesc, some 2⟩,
      ⟨decide (a.group ≠ 0xFFFF) && g.isNone, .badDesc, some 7⟩, ⟨t.isNone, .late, none⟩,
      ⟨decide (a.group ≠ 0xFFFF) && s.freeBarrier.isNone, .capacity, none⟩,
      ⟨busy || slots.isNone || decide (s.time.state = .unlocked), .busy, none⟩])
    (fun tk s =>
      let b := if a.group = 0xFFFF then none else s.freeBarrier
      let l : Launch :=
        { host := Origin.host? o, pat := a.pat, slots := slots.getD [], entry := a.entry, target := t.getD 0,
          group := if a.group = 0xFFFF then none else some a.group, runLimit := a.runLimit, optStep := decide (a.optStep = 1),
          step := a.step, arg0 := a.arg0, arg1 := a.arg1, ticket := some tk, bslot := b }
      let s := (s.reserveSlots a.launch l.slots).setLaunch a.launch l
      (match b, g with | some k, some g => s.armBarrier k a.launch l.target g | _, _ => s, .later))

/-- A commit or a Swatch start is still due at or before a launch's target (R61). -/
def State.kindDue (s : State) (l : Launch) : Bool :=
  s.cfg.commits.any (fun c => decide (c.pip ≤ l.target) && decide (c.pip ≤ s.time.pip)) ||
  s.integ.scheds.any (fun e => e.2.armed && !e.2.waiting && decide (e.2.next ≤ l.target) && decide (e.2.next ≤ s.time.pip))

/-- The pip at which an armed launch starts, as far as it is known (R56, R57): its target, or H − a_i pips after go. -/
def State.startsAt (s : State) (l : Launch) : Option Nat :=
  match l.bslot with
  | none => some l.target
  | some k => (tabGet? s.time.slots k).bind (fun b => b.goAt.map (fun g => g + (b.span - b.delay)))

/-- Two launches of one target are in the order of acceptance (R61). -/
def Launch.before (a b : Launch) : Bool := a.target == b.target && decide (a.ticket.getD 0 < b.ticket.getD 0)

/-- A scheduled action of an earlier kind, or a launch that starts at an earlier pip or has the same target and was accepted earlier,
is still due (R61). -/
def State.earlierDue (s : State) (key : Nat) (l : Launch) : Bool :=
  s.kindDue l ||
  s.pat.launches.any (fun e => e.1 != key && decide (e.2.st = .armed) &&
    (match s.startsAt e.2, s.startsAt l with
     | some a, some b => decide (a ≤ s.time.pip) && (decide (a < b) || e.2.before l)
     | _, _ => false))

/-- LAUNCH_START (R56, R61, R320): an armed launch without a barrier starts when the counter reaches its target. -/
def execLaunchStart (launch : Nat) (s : State) : Host.Outcome State Fault Refusal :=
  match s.launch launch with
  | none => .next s
  | some l =>
    if decide (l.st = .armed) && l.bslot.isNone && decide (l.target ≤ s.time.pip) && !s.earlierDue launch l then
      .next (s.startLaunch launch l)
    else .next s

/-- The barrier of an armed launch whose target has come. -/
def State.barrierOf (s : State) (launch : Nat) : Option (Launch × Nat × BarrierSlot) :=
  match s.launch launch with
  | none => none
  | some l =>
    if decide (l.st = .armed) && decide (l.target ≤ s.time.pip) then
      l.bslot.bind (fun k => (tabGet? s.time.slots k).map (fun b => (l, k, b)))
    else none

/-- The last pip before which the root may set go (R59). -/
def State.barrierLimit (s : State) (l : Launch) : Nat := l.target + s.setting idBarrierTo 0

/-- When the count reaches the target of an armed barrier launch, its slot notes which links of the tree are time-excluded (R60). -/
def State.noteBarred (s : State) : State :=
  let at' (b : BarrierSlot) : Bool := b.busy && (match tabGet? s.pat.launches b.launch with
    | some l => decide (l.st = .armed) && l.target == s.time.pip | none => false)
  s.setTime { s.time with slots := tabMap s.time.slots (fun _ b =>
    if at' b then { b with barred := (b.parent.toList ++ b.kids.map (·.1)).filter (fun lk => (s.link lk).time.excluded) } else b) }

/-- A barrier may set its arrive bit, or its root go (R57, R59, R60): all children show the phase, no link that it needs is barred, and
the root's go would come within its limit. -/
def State.mayArrive (s : State) (l : Launch) (b : BarrierSlot) : Bool :=
  !b.arrived && b.goAt.isNone && b.kids.all (fun c => c.2 == b.phase && !b.barred.contains c.1) &&
  (match b.parent with
   | none => decide (s.time.pip + b.span < s.barrierLimit l)
   | some p => !b.barred.contains p)

/-- A launch of the same target that was accepted earlier can still act: start, or arrive at its barrier (R61). -/
def State.arrivesAfter (s : State) (key : Nat) (l : Launch) : Bool :=
  s.kindDue l ||
  s.pat.launches.any (fun e => e.1 != key && decide (e.2.st = .armed) && e.2.before l &&
    (match s.startsAt e.2 with | some a => decide (a ≤ s.time.pip) | none => false) ||
      (match s.barrierOf e.1 with | some x => e.1 != key && x.1.before l && s.mayArrive x.1 x.2.2 | none => false))

/-- BARRIER_ARRIVE (R57, R59, R60): at T, once all children show the phase, a member sets its arrive bit toward its parent,
and the root sets go while G + H precedes its limit; of launches with one target, in the order of acceptance (R61). -/
def execBarrierArrive (launch : Nat) (s : State) : Host.Outcome State Fault Refusal :=
  match s.barrierOf launch with
  | none => .next s
  | some (l, k, b) =>
    if s.arrivesAfter launch l || !s.mayArrive l b then .next s
    else match b.parent with
      | none => .next (s.setBarrier k b { b with arrived := true, go := true, goAt := some s.time.pip })
      | some _ => .next (s.setBarrier k b { b with arrived := true })

/-- BARRIER_START (R57): H − a_i pips after go was set or received. -/
def execBarrierStart (launch : Nat) (s : State) : Host.Outcome State Fault Refusal :=
  match s.barrierOf launch with
  | none => .next s
  | some (l, k, b) =>
    match b.goAt with
    | none => .next s
    | some g =>
      if g + (b.span - b.delay) ≤ s.time.pip && !s.earlierDue launch l then
        let s := s.setTime { s.time with slots := tabPut s.time.slots k { b with busy := false } }
        .next (s.startLaunch launch { l with bslot := none })
      else .next s

/-- BARRIER_ROOT_TIMEOUT (R59). -/
def execBarrierRootTimeout (launch : Nat) (s : State) : Host.Outcome State Fault Refusal :=
  match s.barrierOf launch with
  | none => .next s
  | some (l, _, b) =>
    if b.parent.isNone && b.goAt.isNone && decide (s.barrierLimit l ≤ s.time.pip + b.span) then
      .next (s.dropLaunch launch l .timeout)
    else .next s

/-- BARRIER_MEMBER_TIMEOUT (R59). -/
def execBarrierMemberTimeout (launch : Nat) (s : State) : Host.Outcome State Fault Refusal :=
  match s.barrierOf launch with
  | none => .next s
  | some (l, _, b) =>
    if b.parent.isSome && b.goAt.isNone && decide (s.barrierLimit l + 4096 ≤ s.time.pip) then
      .next (s.dropLaunch launch l .timeout)
    else .next s

/-- LAUNCH_RUN_LIMIT (R322). -/
def execLaunchRunLimit (launch : Nat) (s : State) : Host.Outcome State Fault Refusal :=
  match s.launch launch with
  | none => .next s
  | some l =>
    if decide (launch < 1024) && decide (l.st = .running) && decide (l.runLimit ≠ 0) &&
       decide (l.start + l.runLimit ≤ s.time.pip) then .next (s.abortLaunch launch l .timeout)
    else .next s

/-- PAT_ABORT (R323, R325): an armed launch is dropped; a running one is stopped, and the command completes when it has
ended. -/
def execPatAbort (o : Origin) (launch : Nat) (s : State) : Host.Outcome State Fault Refusal :=
  let l := s.launch launch
  s.command o 0x0605 [launch]
    [badFld 0 (decide (launch > 1023)), s.ownChk o resPat,
     ⟨match l with | some l => decide (l.st = .ended) | none => true, .badDesc, some 0⟩]
    (fun t s => match s.launch launch with
      | none => (s, .done .ok [])
      | some l =>
        if l.st = .armed then (s.dropLaunch launch l .aborted, .done .ok [])
        else
          let l := { l with abortTickets := l.abortTickets ++ [t] }
          ((s.setLaunch launch l).abortLaunch launch l .aborted, .later))

/-! ### Reading launches and faults (R313, R314, R325) -/

/-- The fields of a fault record, a leading 1 or 0 saying whether there is one. -/
def faultFlds (f : Option FaultRec) : List Fld :=
  match f with
  | none => [uf 1 0]
  | some r => [uf 1 1, uf 1 r.status.code, uf 2 r.tag, uf 2 r.pc, uf 1 (b2n r.exec), uf 1 (r.st / 256), uf 1 (r.st % 256),
      uf 1 r.slot, uf 8 r.stamp] ++ r.index.map (uf 4)

/-- PAT_STATUS (R325): state; stamps; slots READY, WAITING, FAULTED and ended; end status and fault record. -/
def execPatStatus (o : Origin) (launch : Nat) (s : State) : Host.Outcome State Fault Refusal :=
  s.query o 0x0604 [launch] [badFld 0 (decide (launch > 1023)), ⟨(s.launch launch).isNone, .badDesc, some 0⟩]
    (fun s => match s.launch launch with
      | none => []
      | some l =>
        let mine := l.slots.filter (fun p => (s.slot p.1 p.2).owner == some launch)
        let live := mine.filter (fun p => decide ((s.slot p.1 p.2).st = .live))
        let ready := live.countP (fun p => s.slotReady p.1 p.2)
        let faulted := mine.countP (fun p => decide ((s.slot p.1 p.2).st = .faulted))
        let st := match l.st with | .armed => 0 | .running => 1 | .ended => 2
        [uf 1 st, uf 8 l.start, uf 8 l.stop, uf 4 ready, uf 4 (live.length - ready), uf 4 faulted,
         uf 4 (if l.st = .armed then 0 else l.slots.length - live.length - faulted), uf 1 l.status.code] ++ faultFlds l.fault)

/-- PAT_FAULT_READ (R313, R325). -/
def execPatFaultRead (o : Origin) (skein index slot : Nat) (s : State) : Host.Outcome State Fault Refusal :=
  let st := stitchNo skein index
  s.query o 0x0606 [skein, index, slot]
    [badFld 0 (decide (skein > 3)), badFld 2 (decide (slot > 63)), ⟨s.absent st, .unitAbsent, none⟩, ⟨s.isRetired st, .retired, none⟩]
    (fun s => faultFlds (if (s.slot st slot).st = .faulted then (s.slot st slot).fault else none))

/-- PAT_TRACE_SET (R315, R325): the setting of the Skeins of the mask is replaced, size 0 stops it. -/
def execPatTraceSet (o : Origin) (mask lo hi events ring size wrap : Nat) (s : State) : Host.Outcome State Fault Refusal :=
  let dropped := (s.pat.traces.filter (fun t => t.mask &&& mask != 0)).foldl (fun a t => min cMax (a + t.dropped)) 0
  s.update o 0x0607 [mask, lo, hi, events, ring, size, wrap]
    ((if size = 0 then [badFld 4 (decide (ring % 64 ≠ 0) || decide (ring ≥ 2 ^ 37))] else s.addrChks 4 ring size 64) ++
     [badFld 0 (decide (mask > 15)), badFld 1 (decide (lo > hi)), badFld 5 (decide (size % 16 ≠ 0)),
      badFld 6 (decide (wrap > 1)), s.ownChk o resPat])
    (fun s =>
      let old := (s.pat.traces.map (fun t => { t with mask := t.mask - (t.mask &&& mask) })).filter (fun t => t.mask != 0)
      let new : List Trace := if size = 0 ∨ mask = 0 then [] else
        [{ mask := mask, lo := lo, hi := hi, events := events, ring := ring, size := size, wrap := decide (wrap = 1) }]
      s.setPat { s.pat with traces := old ++ new })
    (fun _ => [uf 4 dropped])

/-! ### Descriptors (R308 to R312, R325) -/

/-- The code of a format. -/
def fmtCode (f : Fmt) : Nat := ((List.range 10).find? (fun c => Fmt.ofCode c == some f)).getD 0

/-- The 64 bytes of a descriptor (Table 10-11). -/
def Desc.bytes (d : Desc) : List Byte :=
  leBytes 1 (fmtCode d.fmt + d.block * 16) ++ leBytes 1 d.prescale ++ leBytes 1 (b2n d.rlz + 4 * b2n d.self) ++
  leBytes 1 (b2n d.writable) ++ leBytes 4 d.rows ++ leBytes 4 d.cols ++ leBytes 4 d.pitch ++ leBytes 8 d.data ++
  leBytes 8 d.scale ++ leBytes 8 d.sparse ++ leBytes 4 d.stats.amax ++ leBytes 4 d.stats.sat ++ leBytes 4 d.stats.inv ++
  leBytes 4 d.stats.nanblk ++ leBytes 4 d.tid ++ leBytes 4 0

/-- Reserved handle bits or a range past the table. -/
def handlesBad (handle count : Nat) : Bool := decide (bits handle 12 2 ≠ 0) || decide (handle % 4096 + count > 4096)

/-- The images of a load, in order. -/
def State.descImages (s : State) (addr count : Nat) : List (Except Status Desc) :=
  (List.range count).map (fun i => parseDesc (s.read (dramKey (addr + 64 * i)) 64))

/-- DESC_LOAD (R310 to R312): all entries or none. -/
def execDescLoad (o : Origin) (handle count addr : Nat) (s : State) : Host.Outcome State Fault Refusal :=
  let c := min count 4096
  let es := s.descImages addr c
  let bad (st : Status) : Bool := es.any (fun e => match e with | .error x => decide (x = st) | .ok _ => false)
  s.loading o 0x0701 [handle, count, addr] addr (64 * c)
    (s.addrChks 2 addr (64 * c) 64 ++
     [badFld 0 (handlesBad handle c), badFld 1 (!inRange 1 4096 count), badFld 2 (bad .badField), s.ownChk o resPat,
      ⟨bad .badDesc, .badDesc, none⟩])
    (fun _ s =>
      let s := es.zipIdx.foldl (fun s e => match e.1 with | .ok d => s.loadDesc true (handle + e.2) d | .error _ => s) s
      (s, .done .ok (listFlds ((List.range c).map (fun i => [uf 4 (s.desc (handle + i)).gen])))))

/-- DESC_READ (R325). -/
def execDescRead (o : Origin) (handle : Nat) (s : State) : Host.Outcome State Fault Refusal :=
  s.query o 0x0702 [handle] [badFld 0 (decide (bits handle 12 2 ≠ 0))]
    (fun s =>
      let e := s.desc handle
      [uf 1 (b2n e.d.isSome), uf 4 e.gen, bf 64 (match e.d with | some d => leNat d.bytes | none => 0)])

/-- DESC_CLEAR (R311, R325). -/
def execDescClear (o : Origin) (handle count : Nat) (s : State) : Host.Outcome State Fault Refusal :=
  s.update o 0x0703 [handle, count]
    [badFld 0 (handlesBad handle count), badFld 1 (!inRange 1 4096 count), s.ownChk o resPat]
    (fun s => s.setDescs (tabMap s.descs (fun k e =>
      if decide (handleKey handle ≤ k) && decide (k < handleKey handle + count) then { e with d := none } else e)))
    (fun _ => [])

/-! ### Predictor layers (12 R362, R369, R371) -/

/-- The layer of an image (Table 12-3), and whether a field is outside the table. -/
def parseLayer (b : List Byte) : Layer × Bool :=
  let f (o n : Nat) : Nat := fieldAt b o n
  let l : Layer := { mode := f 1 1, auditK := f 2 1, up := f 4 2, down := f 6 2, p1 := f 8 2, p2 := f 10 2, dModel := f 12 2,
                     dFf := f 14 2, thr := f 16 4, floor := f 20 4, missLimit := f 24 4, maskOff := f 28 4, layerId := f 32 4 }
  (l, decide (f 0 1 ≠ 1) || decide (l.mode > 2) || decide (l.auditK > 16) || (l.mode == 1 && l.auditK == 0) ||
    decide (f 3 1 ≠ 0) || [l.up, l.down, l.p1, l.p2].any (fun h => decide (bits h 12 2 ≠ 0)) ||
    !inRange 16 16384 l.dModel || decide (l.dModel % 16 ≠ 0) || !inRange 32 16384 l.dFf || decide (l.dFf % 32 ≠ 0) ||
    !inRange 1 65536 l.missLimit || decide (l.maskOff % 64 ≠ 0) || decide (l.maskOff > 0x7F000) || decide (f 36 28 ≠ 0))

/-- The bytes of a layer image. -/
def Layer.bytes (l : Layer) : List Byte :=
  padTo 64 (leBytes 1 1 ++ leBytes 1 l.mode ++ leBytes 1 l.auditK ++ [0] ++ leBytes 2 l.up ++ leBytes 2 l.down ++
    leBytes 2 l.p1 ++ leBytes 2 l.p2 ++ leBytes 2 l.dModel ++ leBytes 2 l.dFf ++ leBytes 4 l.thr ++ leBytes 4 l.floor ++
    leBytes 4 l.missLimit ++ leBytes 4 l.maskOff ++ leBytes 4 l.layerId)

/-- A handle of a layer stands in another entry of the Skein. -/
def State.handleUsed (s : State) (k i : Nat) (l : Layer) : Bool :=
  s.layers.any (fun e => decide (e.1 / 256 = k) && decide (e.1 % 256 ≠ i) &&
    [e.2.l.up, e.2.l.down, e.2.l.p1, e.2.l.p2].any (fun h => [l.up, l.down, l.p1, l.p2].contains h))

/-- The Skein of a PRED command is out of range, or the grade has no matrix tiles (R369). -/
def State.predChks (s : State) (skein : Nat) : List Chk :=
  [badFld 0 (decide (skein > 3)), ⟨decide (s.sec.grade = .b), .unitAbsent, none⟩]

/-- PRED_LAYER_SET (R362, R369, R371). -/
def execPredLayerSet (o : Origin) (skein index addr : Nat) (s : State) : Host.Outcome State Fault Refusal :=
  let p := parseLayer (s.read (dramKey addr) 64)
  s.loading o 0x0608 [skein, index, addr] addr 64
    (s.predChks skein ++ s.addrChks 2 addr 64 64 ++
     [badFld 2 p.2, s.ownChk o resPat,
      ⟨!s.layerShapes p.1 || p.1.up == p.1.down || s.handleUsed skein index p.1, .badDesc, none⟩])
    (fun _ s => ((s.clearUnit .pred (256 * skein + index)).setLayer skein index { l := p.1 }, .done .ok [uf 8 s.time.pip]))

/-- PRED_LAYER_CLEAR (R371). -/
def execPredLayerClear (o : Origin) (skein index : Nat) (s : State) : Host.Outcome State Fault Refusal :=
  s.update o 0x0609 [skein, index]
    (s.predChks skein ++ [s.ownChk o resPat, ⟨(s.layer skein index).isNone, .badDesc, some 1⟩])
    (fun s => s.setLayers (tabDel s.layers (256 * skein + index))) (fun _ => [])

/-- PRED_LAYER_STATUS (R371). -/
def execPredLayerStatus (o : Origin) (skein index clear : Nat) (s : State) : Host.Outcome State Fault Refusal :=
  s.command o 0x060A [skein, index, clear]
    (s.predChks skein ++ clearChks o 2 clear ++ [⟨(s.layer skein index).isNone, .badDesc, some 1⟩])
    (fun _ s => match s.layer skein index with
      | none => (s, .done .ok [])
      | some e =>
        let u := 256 * skein + index
        let res := [bf 64 (leNat e.l.bytes), uf 4 (e.step.getD 0), uf 1 (b2n e.flag), uf 4 (e.fallback.getD 0),
          uf 4 (min cMax e.audited), uf 4 (min cMax e.found)] ++
          [plRows, plSkipped, plAudited, plMissed, plMade, plFallback].map (fun i => uf 4 (s.count .pred u i))
        (if clear = 1 then (s.clearUnit .pred u).setLayer skein index { e with flag := false } else s, .done .ok res))

end Sys2Proof.Machine
end

