-- ==== Sys2Proof/Machine/Tally.lean ====
section
/-! DEFINITION. Collectives: descriptors, header cells, slice records, nodes (08 R223 to R235, R242, R243, R248). -/

namespace Sys2Proof.Machine

open Sys2Proof

/-! ### Group descriptors (R223 to R225, R229) -/

/-- A 24-bit rank count: 0 means 2^24 (R223). -/
def rankCnt (x : Nat) : Nat := if x % 2 ^ 24 = 0 then 2 ^ 24 else x % 2 ^ 24

/-- The member of a 32-byte entry (Table 08-2), and whether a field is out of its range. -/
def parseMember (b : List Byte) : Member × Bool :=
  let f (o n : Nat) : Nat := fieldAt b o n
  let sw := decide (f 2 1 = 1)
  ({ lk := linkOf (f 0 1) (f 1 1), switch := sw, lo := f 4 3, cnt := rankCnt (f 8 3), fid := f 12 4 % 2 ^ 20, base := f 16 8,
     stride := f 24 4, ring := f 28 1, child := f 30 2 },
   decide (f 0 1 > 63) || decide (f 1 1 > 2) || decide (f 2 1 > 1) || decide (f 3 1 ≠ 0) || decide (f 7 1 ≠ 0) ||
   decide (f 11 1 ≠ 0) || decide (f 12 4 ≥ 2 ^ 20) || decide (f 16 8 ≥ 2 ^ 42) || decide (f 29 1 ≠ 0) || decide (f 30 2 > 4095) ||
   (if sw then decide (f 16 8 ≠ 0) || decide (f 24 4 ≠ 0) || decide (f 28 1 ≠ 0)
    else decide (f 24 4 < 64) || decide (f 24 4 % 64 ≠ 0) || decide (f 30 2 ≠ 0)))

/-- The number of the group a descriptor names. -/
def descGroup (b : List Byte) : Nat := fieldAt b 2 2

/-- The members of a descriptor. -/
def descMembers (b : List Byte) : List (Member × Bool) :=
  (List.range (min 1024 (fieldAt b 30 2))).map (fun i => parseMember ((b.drop (64 + 32 * i)).take 32))

/-- The group entry of a descriptor (Table 08-1). -/
def parseGroup (b : List Byte) : Group :=
  let f (o n : Nat) : Nat := fieldAt b o n
  let root := decide (f 16 1 = 0xFF)
  { arrival := decide (f 1 1 = 1), lo := f 4 3, cnt := rankCnt (f 8 3), n := rankCnt (f 12 3),
    parent := if root then none else some (linkOf (f 16 1) (f 17 1)), parentFid := f 32 4 % 2 ^ 20, parentGroup := f 40 2,
    home := if root then f 18 1 % 4 else f 16 1 / 16 % 4, depth := f 19 1, timeout := f 24 4, window := f 28 1,
    suspectK := f 29 1, rub := if bit (f 36 1) 0 then some (f 38 2) else none,
    members := (descMembers b).map (·.1), oldest := f 20 4 }

/-- A field of the header outside the ranges of Table 08-1. -/
def groupFieldBad (b : List Byte) : Bool :=
  let f (o n : Nat) : Nat := fieldAt b o n
  let root := decide (f 16 1 = 0xFF)
  decide (f 0 1 ≠ 1) || decide (f 1 1 > 1) || decide (f 2 2 > 4095) || decide (f 7 1 ≠ 0) || decide (f 11 1 ≠ 0) ||
  decide (f 15 1 ≠ 0) || (!root && decide (f 16 1 > 63)) || decide (f 17 1 > 2) || (root && decide (f 17 1 ≠ 0)) ||
  (if root then decide (f 18 1 > 3) else decide (f 18 1 ≠ 0)) || decide (f 19 1 > 15) || (root != decide (f 19 1 = 0)) ||
  !inRange (2 ^ 12) (2 ^ 30) (f 24 4) || !inRange 2 16 (f 28 1) || !inRange 1 16 (f 29 1) || !inRange 1 1024 (f 30 2) ||
  decide (f 32 4 ≥ 2 ^ 20) || (root && decide (f 32 4 ≠ 0)) || decide (f 36 1 > 1) || decide (f 37 1 ≠ 0) ||
  decide (f 38 2 > 1023) || (decide (f 36 1 = 0) && decide (f 38 2 ≠ 0)) || decide (f 40 2 > 4095) ||
  (root && decide (f 40 2 ≠ 0)) || decide (f 42 8 ≠ 0) || decide (f 50 8 ≠ 0) || decide (f 58 6 ≠ 0)

/-- The power of two of an aligned range within N ranks (R229). -/
def alignedC (lo hi n : Nat) : Option Nat :=
  ((List.range 25).map (2 ^ ·)).find? (fun c => decide (lo % c = 0) && (decide (hi = lo + c) || (decide (hi = n) && decide (lo + c ≥ n))))

/-- Insert a range in rising order. -/
def insertRange (p : Nat × Nat) : List (Nat × Nat) → List (Nat × Nat)
  | [] => [p]
  | q :: r => if p.1 ≤ q.1 then p :: q :: r else q :: insertRange p r

/-- Ranges in rising order. -/
def sortRanges (l : List (Nat × Nat)) : List (Nat × Nat) := l.foldr insertRange []

/-- Whether sorted ranges cover [lo, hi) exactly, without overlap. -/
def coversFrom : List (Nat × Nat) → Nat → Nat → Bool
  | [], lo, hi => lo == hi
  | (a, n) :: r, lo, hi => a == lo && coversFrom r (a + n) hi

/-- A link of an ordered group's tree disagrees in a digest (03, Table 03-13). -/
def State.digestDiffers (s : State) (lk : Nat) : Bool := (s.link lk).disagree.getLsbD 2

/-- The refusals with ST_BAD_DESC of R225 but the length. -/
def State.groupDescBad (s : State) (no : Nat) (g : Group) : Bool :=
  let ordered := !g.arrival
  let root := g.parent.isNone
  !coversFrom (sortRanges (g.members.map (fun m => (m.lo, m.cnt)))) g.lo (g.lo + g.cnt) || decide (g.lo + g.cnt > g.n) ||
  g.members.any (fun m => some m.lk == g.parent) || (tabGet? s.coll no).isSome ||
  (!root && g.rub.isSome) || (root && (decide (g.lo ≠ 0) || decide (g.cnt ≠ g.n))) ||
  (ordered && ((!root && (alignedC g.lo (g.lo + g.cnt) g.n).isNone) ||
    g.members.any (fun m => (alignedC m.lo (m.lo + m.cnt) g.n).isNone))) ||
  (ordered && ((g.members.map (·.lk)) ++ g.parent.toList).any s.digestDiffers) ||
  (match g.rub with
   | none => false
   | some h => match tabGet? s.upd.shards h with | some x => decide (x.kind ≠ 1) | none => true)

/-- The dies that hold slots of a group: those of its members and its home die (R236). -/
def Group.dies (g : Group) : List Nat :=
  (List.range 4).filter (fun d => g.home == d || g.members.any (fun m => linkDie m.lk == d))

/-- The reservation of a group on a die (R241). -/
def Group.need (g : Group) (die : Nat) : Nat :=
  g.window * 9 * (if g.arrival then 5 else g.members.countP (fun m => linkDie m.lk == die) + 4)

/-! ### Header cells (Table 08-3) -/

/-- Put `n` bytes at an offset of a list. -/
def putBytes (bs : List Byte) (off n v : Nat) : List Byte := bs.take off ++ leBytes n v ++ bs.drop (off + n)

/-- Fields of a header cell. -/
def chKind (h : List Byte) : Nat := fieldAt h 0 1
def chOp (h : List Byte) : Nat := fieldAt h 1 1
def chInFmt (h : List Byte) : Nat := fieldAt h 2 1
def chWire (h : List Byte) : Nat := fieldAt h 3 1
def chInBlock (h : List Byte) : Nat := fieldAt h 4 1 % 4
def chResBlock (h : List Byte) : Nat := fieldAt h 4 1 / 4 % 4
def chResFmt (h : List Byte) : Nat := fieldAt h 5 1
def chMode (h : List Byte) : Nat := fieldAt h 6 1
def chPre (h : List Byte) : Nat := fieldAt h 7 1
def chSeq (h : List Byte) : Nat := fieldAt h 8 4
def chDigest (h : List Byte) : Nat := fieldAt h 12 4
def chCount (h : List Byte) : Nat := fieldAt h 16 4
def chSlice (h : List Byte) : Nat := fieldAt h 20 4
def chLo (h : List Byte) : Nat := fieldAt h 24 3
def chCnt (h : List Byte) : Nat := rankCnt (fieldAt h 28 3)
def chStatus (h : List Byte) : Nat := fieldAt h 40 1
def chResPre (h : List Byte) : Nat := fieldAt h 44 1
/-- The rub bit of res_mode. -/
def chRub (h : List Byte) : Bool := bit (chMode h) 2

/-- Entry j of the batch table: op and elements. -/
def chEntry (h : List Byte) (j : Nat) : Nat × Nat :=
  let e := fieldAt h (48 + 2 * j) 2
  (e / 2 ^ 13, e % 2 ^ 11)

/-- A reserved value of op. -/
def opReserved (op : Nat) : Bool := decide (op = 7) || decide (op ≥ 9)

/-- A nonzero reserved field of a header cell (R227). -/
def headerReserved (h : List Byte) : Bool :=
  let k := chKind h
  let fail := decide (k = 5) || decide (k = 6)
  decide (fieldAt h 4 1 ≥ 16) || decide (chMode h ≥ 8) || decide (chSlice h ≥ 2 ^ 20) || decide (fieldAt h 27 1 ≠ 0) ||
  decide (fieldAt h 31 1 ≠ 0) || (if k = 3 then decide (fieldAt h 32 8 ≥ 2 ^ 42) else decide (fieldAt h 32 8 ≠ 0)) ||
  (!fail && decide (k ≠ 4) && decide (chStatus h ≠ 0)) || (if fail then decide (fieldAt h 41 1 > 1) else decide (fieldAt h 41 1 ≠ 0)) ||
  decide (fieldAt h 42 2 ≠ 0) || decide (fieldAt h 45 3 ≠ 0) ||
  (if chOp h = 8 then (List.range 8).any (fun j => decide (fieldAt h (48 + 2 * j) 2 / 2 ^ 11 % 4 ≠ 0))
   else decide (fieldAt h 48 8 ≠ 0) || decide (fieldAt h 56 8 ≠ 0))

/-- The op of element j (R231). -/
def opAt (h : List Byte) (j : Nat) : Nat :=
  if chOp h ≠ 8 then chOp h
  else ((List.range 8).foldl (fun (a : Nat × Option Nat) i =>
    let e := chEntry h i
    match a.2 with
    | some o => (a.1, some o)
    | none => if j < a.1 + e.2 then (a.1, some e.1) else (a.1 + e.2, none)) (0, none)).2.getD 0

/-- The format of an op's partials (Table 08-5); `none` where the row does not allow the formats. -/
def partialFmt (op i r : Nat) : Option Fmt :=
  match Fmt.ofCode i, Fmt.ofCode r with
  | some a, some b =>
    match op with
    | 0 | 1 | 2 => if a.int != b.int then none else some (if a.int then .i32 else .f32)
    | 3 | 4 | 5 => if a.int && decide (a = b) then some a else none
    | 6 => if a.int || b.int then none else some .f32
    | _ => none
  | _, _ => none

/-- The used entries of a batch. -/
def chUsed (h : List Byte) : List (Nat × Nat) := ((List.range 8).map (chEntry h)).filter (fun e => e.2 != 0)

/-- The partial wire format of a collective, `none` where R230 refuses its op and formats. -/
def collFmt (h : List Byte) : Option Fmt :=
  if chOp h ≠ 8 then partialFmt (chOp h) (chInFmt h) (chResFmt h)
  else
    let us := chUsed h
    match us with
    | [] => none
    | u :: _ =>
      let f := partialFmt u.1 (chInFmt h) (chResFmt h)
      if us.all (fun e => decide (e.1 ≤ 5) && decide (partialFmt e.1 (chInFmt h) (chResFmt h) = f)) then f else none

/-- The slice length of a collective (R228). -/
def sliceLen (h : List Byte) : Nat := if chOp h = 6 then 512 else 1024

/-- Slices of a collective. -/
def sliceCount (h : List Byte) : Nat := (chCount h + sliceLen h - 1) / sliceLen h

/-- Elements of slice s. -/
def sliceElems (h : List Byte) (s : Nat) : Nat := min (sliceLen h) (chCount h - sliceLen h * s)

/-- Elements that a record stores: whole blocks of a narrow format (R228). -/
def storedElems (f : Fmt) (block n : Nat) : Nat := if f.narrow then alignUp n (blockSize block) else n

/-- The bytes of elements, scales and counts of a record. -/
def recParts (f : Fmt) (block n : Nat) (counts : Bool) : Nat × Nat × Nat :=
  ((storedElems f block n * f.width + 7) / 8, if f.narrow then (n + blockSize block - 1) / blockSize block else 0,
   if counts then 4 * n else 0)

/-- The padded size of a record. -/
def recBytes (f : Fmt) (block n : Nat) (counts : Bool) : Nat :=
  let p := recParts f block n counts
  alignUp (p.1 + p.2.1 + p.2.2) 64

/-- The bytes of a header cell that its digest covers (R232). -/
def coveredBytes (h : List Byte) : List Byte :=
  leBytes 1 (chOp h) ++ leBytes 1 (chInFmt h) ++ leBytes 1 (fieldAt h 4 1) ++ leBytes 1 (chResFmt h) ++
    leBytes 1 (chMode h) ++ leBytes 1 (chResPre h) ++ leBytes 2 0 ++ leBytes 4 (chCount h) ++ leBytes 8 (fieldAt h 48 8) ++
    leBytes 8 (fieldAt h 56 8)

/-- The digest of a header cell (R232). -/
def chDigestOf (h : List Byte) : Nat := crc32 (coveredBytes h)

/-- The format that a frame's kind carries (R230), with its block code, and whether it has counts. -/
def wireOf (h : List Byte) : Option (Fmt × Nat × Bool) :=
  match chKind h with
  | 1 => (Fmt.ofCode (chInFmt h)).map (fun f => (f, chInBlock h, false))
  | 2 => (collFmt h).map (fun f => (f, 0, decide (chOp h = 6)))
  | _ => (Fmt.ofCode (chResFmt h)).map (fun f => (f, chResBlock h, decide (chOp h = 6)))

/-- The failures of R230, and a frame that is not exactly the record of its slice (R228). A RESULT of a rub collective
carries the format, pre-scale and block size of copy 0 (R391), which are not tied to res_fmt; its format is one that a working copy may
have (13 R374). -/
def opsBad (h : List Byte) (cells : Nat) : Bool :=
  let rubResult := chKind h == 3 && chRub h
  (collFmt h).isNone || decide (chMode h % 4 > 1) || decide (chCount h = 0) || decide (chCount h > 2 ^ 28) ||
  decide (chSlice h ≥ sliceCount h) ||
  (chOp h == 8 && (decide (chCount h > 1024) || decide (((chUsed h).map (·.2)).sum ≠ chCount h))) ||
  (match Fmt.ofCode (chResFmt h) with | some f => !f.scaled && !rubResult && decide (chResPre h ≠ 127) | none => true) ||
  (match wireOf h with
   | none => true
   | some w =>
     let n := sliceElems h (chSlice h)
     if rubResult then
       (match Fmt.ofCode (chWire h) with
        | none => true
        | some f => !(f.narrow || decide (f = .b16) || decide (f = .h16)) || (!f.scaled && (decide (chPre h ≠ 127) || decide (chResPre h ≠ 127))) ||
            [0, 1, 2, 3].all (fun b => decide (64 * cells ≠ 64 + recBytes f b n false)))
     else decide (Fmt.ofCode (chWire h) ≠ some w.1) || (!w.1.scaled && decide (chPre h ≠ 127)) ||
       decide (64 * cells ≠ 64 + recBytes w.1 w.2.1 n w.2.2))

/-! ### Values (R206, R228, R233) -/

/-- The value of one element of a frame as partial bits, with what its reading counts. -/
def readElem (h : List Byte) (pf w : Fmt) (scale pre b : Nat) (cnt : Option Nat) : (Nat × Nat) × Cnts :=
  if chOp h = 3 ∨ chOp h = 4 ∨ chOp h = 5 ∨ (chOp h = 8 ∧ !decide (pf = .f32) ∧ decide (pf = w)) then ((b, 1), {})
  else
    let x := loadElem w scale pre b
    match cnt with
    | some c => ((b, c), {})
    | none =>
      if chOp h = 6 ∧ x.isNan then ((0, 0), {})
      else
        let r := if w.int then (x, ({} : Cnts)) else readF32 x
        ((pf.encode r.1, 1), r.2)

/-- The values of a frame's slice. -/
def readSlice (f : Frame) : Vals × Cnts :=
  let h := f.cells.take 64
  match collFmt h, wireOf h with
  | some pf, some (w, block, counts) =>
    let n := sliceElems h (chSlice h)
    let p := recParts w block n counts
    let body := f.cells.drop 64
    let x := leNat (body.take p.1)
    let es := (List.range n).map (fun i =>
      let sc := if w.narrow then fieldAt body (p.1 + i / blockSize block) 1 else 127
      let c := if counts then some (fieldAt body (p.1 + p.2.1 + 4 * i) 4) else none
      readElem h pf w sc (chPre h) (packGet w x i) c)
    (es.map (·.1), (es.map (·.2)).foldl Cnts.add {})
  | _, _ => ([], {})

/-- combine of one element (R233). -/
def combineElem (op : Nat) (pf : Fmt) (a b : Nat × Nat) : (Nat × Nat) × Cnts :=
  match op with
  | 3 => ((a.1 &&& b.1, 1), {})
  | 4 => ((a.1 ||| b.1, 1), {})
  | 5 => ((a.1 ^^^ b.1, 1), {})
  | 6 =>
    if a.2 = 0 then (b, {}) else if b.2 = 0 then (a, {})
    else let r := f32Op (add32 .rn) a.1 b.1; ((r.1, (a.2 + b.2) % 2 ^ 32), r.2)
  | 0 =>
    if pf.int then let r := satI32 (toInt 32 a.1 + toInt 32 b.1); ((ofInt 32 r.1, 1), { sat := r.2 })
    else let r := f32Op (add32 .rn) a.1 b.1; ((r.1, 1), r.2)
  | 1 =>
    if pf.int then ((if toInt 32 a.1 ≥ toInt 32 b.1 then a.1 else b.1, 1), {})
    else ((Fmt.encode .f32 (maxNum (Fmt.decode .f32 a.1) (Fmt.decode .f32 b.1)), 1), {})
  | _ =>
    if pf.int then ((if toInt 32 a.1 ≤ toInt 32 b.1 then a.1 else b.1, 1), {})
    else ((Fmt.encode .f32 (minNum (Fmt.decode .f32 a.1) (Fmt.decode .f32 b.1)), 1), {})

/-- combine of two slices. -/
def combineVals (h : List Byte) (a b : Vals) : Vals × Cnts :=
  let pf := (collFmt h).getD .f32
  let l := (a.zip b).zipIdx.map (fun p => combineElem (opAt h p.2) pf p.1.1 p.1.2)
  (l.map (·.1), (l.map (·.2)).foldl Cnts.add {})

/-- combine of absent or present nodes. -/
def combineOpt (h : List Byte) (a b : Option Vals) : Option Vals × Cnts :=
  match a, b with
  | none, x | x, none => (x, {})
  | some x, some y => let r := combineVals h x y; (some r.1, r.2)

/-- node(lo, size) with size = 2^k (R233): the members' parts by position, subtrees without members absent. -/
def node (h : List Byte) (n : Nat) (ms : List (Nat × Nat × Vals)) : Nat → Nat → Option Vals × Cnts
  | k, lo =>
    match ms.find? (fun m => m.1 == lo && m.2.1 == min (2 ^ k) (n - lo)) with
    | some m => (some m.2.2, {})
    | none =>
      match k with
      | 0 => (none, {})
      | k' + 1 =>
        let inside (a : Nat) : List (Nat × Nat × Vals) :=
          ms.filter (fun m => decide (a ≤ m.1) && decide (m.1 < a + 2 ^ k'))
        let l := inside lo
        let r := inside (lo + 2 ^ k')
        let a := if l.isEmpty then (none, {}) else node h n l k' lo
        let b := if r.isEmpty then (none, {}) else node h n r k' (lo + 2 ^ k')
        let c := combineOpt h a.1 b.1
        (c.1, (a.2.add b.2).add c.2)

/-- log2 of a power of two. -/
def log2c (c : Nat) : Nat := Nat.log2 c

/-- The maximal nodes under node(lo, 2^k) whose present ranks are all among `own`, `others` being the first ranks of the other
members of the device (R234). -/
def dieNodes (h : List Byte) (n : Nat) (own : List (Nat × Nat × Vals)) (others : List Nat) :
    Nat → Nat → List (Nat × Nat × Vals) × Cnts
  | k, lo =>
    let inside (a : Nat) : Bool := decide (lo ≤ a) && decide (a < lo + 2 ^ k)
    let mine := own.filter (fun m => inside m.1)
    if mine.isEmpty then ([], {})
    else if !others.any inside then
      let r := node h n mine k lo
      ((r.1.map (fun v => (lo, min (2 ^ k) (n - lo), v))).toList, r.2)
    else match k with
      | 0 => ([], {})
      | k' + 1 =>
        let a := dieNodes h n own others k' lo
        let b := dieNodes h n own others k' (lo + 2 ^ k')
        (a.1 ++ b.1, a.2.add b.2)

/-- The exponent of the power of two of a device's range (R229). -/
def Group.rangeExp (g : Group) : Nat := log2c ((alignedC g.lo (g.lo + g.cnt) g.n).getD 1)

/-- The parts that a slice's values give: rank_lo, rank_cnt and value of each member in the table. -/
def Group.parts (g : Group) (acc : Tab Vals) : List (Nat × Nat × Vals) :=
  g.members.zipIdx.filterMap (fun p => (tabGet? acc p.2).map (fun v => (p.1.lo, p.1.cnt, v)))

/-- The nodes that a die which is not the home die computes from its members' values (R234). -/
def Group.nodesOf (g : Group) (h : List Byte) (acc : Tab Vals) (die : Nat) : List (Nat × Nat × Vals) × Cnts :=
  dieNodes h g.n (g.parts acc) ((g.members.filter (fun m => linkDie m.lk != die)).map (·.lo)) g.rangeExp g.lo

/-- The value of a device's range in ordered mode, from the values of the home die's members and the nodes of the other dies
(R233, R234). -/
def Group.nodeValue (g : Group) (h : List Byte) (acc : Tab Vals) (nodes : List (Nat × Nat × Vals)) : Option Vals × Cnts :=
  node h g.n (g.parts acc ++ nodes) g.rangeExp g.lo

/-- The sum of accumulators in arrival mode (R235). -/
def foldAcc (h : List Byte) (acc : Tab Vals) : Option Vals × Cnts :=
  acc.foldl (fun a p => let r := combineOpt h a.1 (some p.2); (r.1, a.2.add r.2)) (none, {})

/-- The record of partial values (R228). -/
def partialRecord (h : List Byte) (vs : Vals) : List Byte :=
  let pf := (collFmt h).getD .f32
  let e := leBytes ((vs.length * pf.width + 7) / 8) (packBits pf (vs.map (·.1)))
  let c := if chOp h = 6 then vs.flatMap (fun v => leBytes 4 v.2) else []
  dataCells (e ++ c)

/-- The blocks of a run of values in a format: bytes of elements, scale bytes, statistics. -/
def storeBlocks (f : Fmt) (block pre : Nat) (xs : List (Num × Mode)) : List Byte × List Byte × Stats :=
  let n := storedElems f block xs.length
  let ys := xs ++ List.replicate (n - xs.length) (Num.zero, Mode.rz)
  let size := if f.narrow then blockSize block else max 1 n
  let bs := (List.range ((n + size - 1) / size)).map (fun i => storeBlock f pre ((ys.drop (size * i)).take size))
  (leBytes ((n * f.width + 7) / 8) (packBits f (bs.flatMap (·.2.1))),
   if f.narrow then bs.map (fun b => BitVec.ofNat 8 b.1) else [],
   (bs.map (·.2.2)).foldl Stats.add {})

/-- The bytes of the result record of a slice: its conversion into res_fmt, exactly once (R242), with its statistics (R246). -/
def resultData (h : List Byte) (vs : Vals) : List Byte × Stats :=
  let pf := (collFmt h).getD .f32
  let rf := (Fmt.ofCode (chResFmt h)).getD .f32
  let mode := if chMode h % 4 = 1 then Mode.rz else Mode.rn
  let bitwise := decide (pf = rf) && pf.int && decide (pf ≠ .i32)
  if bitwise then (leBytes ((vs.length * rf.width + 7) / 8) (packBits rf (vs.map (·.1))),
    { amax := (vs.map (fun v => amaxOf (pf.decode v.1))).foldl max 0 })
  else
    let r := storeBlocks rf (chResBlock h) (chResPre h) (vs.map (fun v => (pf.decode v.1, mode)))
    let c := if chOp h = 6 then vs.flatMap (fun v => leBytes 4 v.2) else []
    (r.1 ++ r.2.1 ++ c, r.2.2)

/-- The result record of a slice in whole cells. -/
def resultRecord (h : List Byte) (vs : Vals) : List Byte × Stats := let r := resultData h vs; (dataCells r.1, r.2)

/-- rec of R243: the padded record of a full slice in res_fmt. -/
def fullRec (h : List Byte) : Nat :=
  recBytes ((Fmt.ofCode (chResFmt h)).getD .f32) (chResBlock h) (sliceLen h) (decide (chOp h = 6))

/-- A result does not fit the ring entry of an endpoint member (R245). -/
def resultTooBig (h : List Byte) (m : Member) : Bool :=
  let ns := sliceCount h
  !m.switch && decide ((ns - 1) * fullRec h +
    recBytes ((Fmt.ofCode (chResFmt h)).getD .f32) (chResBlock h) (sliceElems h (ns - 1)) (decide (chOp h = 6)) > m.stride)

/-- The cell of rank ranges (R248), and whether it is truncated. -/
def rangesCell (rs : List (Nat × Nat)) : List Byte × Bool :=
  let l := sortRanges rs
  (padTo 64 ((l.take 8).flatMap (fun r => leBytes 8 (r.1 + r.2 % 2 ^ 24 * 2 ^ 24))), decide (l.length > 8))

/-- A range entry of a FAIL or ERROR with a nonzero reserved field (R227, R248). -/
def rangesReserved (c : List Byte) : Bool := (List.range 8).any (fun i => decide (fieldAt c (8 * i) 8 ≥ 2 ^ 48))

/-- The ranges that a FAIL or ERROR names. -/
def cellRanges (c : List Byte) : List (Nat × Nat) :=
  ((List.range 8).map (fun i => fieldAt c (8 * i) 8)).filterMap (fun x =>
    if x = 0 then none else some (x % 2 ^ 24, rankCnt (x / 2 ^ 24)))

end Sys2Proof.Machine
end

