-- ==== Sys2Proof/Machine/Shard.lean ====
section
/-! DEFINITION. Shards: layout, optimizers, working copies, what makes slices ready and what tears a shard (13 R372 to R382,
R390, R392, R394). -/

namespace Sys2Proof.Machine

open Sys2Proof

/-! ### The Dealer's queues (15 R428, R429) -/

/-- The shard of an item of queue U. -/
def Work.shard : Work → Option Nat | .slice h _ => some h | _ => none

/-- An item goes into a queue behind those that became ready before it; of slices that became ready at one pip those of the shard that
wins the tie of R191 come first (R380). -/
def queueIn (r : Ready) : List Ready → List Ready
  | [] => [r]
  | x :: rest =>
    let wins : Bool := match r.work.shard, x.work.shard with
      | some a, some b => x.since == r.since && tieBefore (r.since / 4096) a b
      | _, _ => false
    if wins then r :: x :: rest else x :: queueIn r rest

/-- Put an item in queue U. -/
def State.queueU (s : State) (k : Nat) (w : Work) (key : List Nat) : State :=
  let d := s.dealer k
  s.setDealer k { d with u := queueIn { work := w, since := s.time.pip, key := key } d.u }

/-- Put an item in queue E. -/
def State.queueE (s : State) (k : Nat) (w : Work) (key : List Nat) : State :=
  let d := s.dealer k
  s.setDealer k { d with e := d.e ++ [{ work := w, since := s.time.pip, key := key }] }

/-- Remember the energy charged by a completed item of a key (R428). -/
def State.noteEst (s : State) (k : Nat) (key : List Nat) (e : Nat) : State :=
  let d := s.dealer k
  s.setDealer k { d with est := (key, e) :: d.est.filter (fun x => x.1 != key) }

/-- Take items of work out of a Dealer: its queues and what was started. -/
def State.dropWork (s : State) (k : Nat) (p : Work → Bool) : State :=
  let d := s.dealer k
  s.setDealer k { d with u := d.u.filter (fun r => !p r.work), e := d.e.filter (fun r => !p r.work),
                         s := d.s.filter (fun r => !p r.work), started := d.started.filter (fun w => !p w) }

/-- A started item is taken up. -/
def State.takeUp (s : State) (k : Nat) (w : Work) : State :=
  let d := s.dealer k
  s.setDealer k { d with started := d.started.erase w }

/-! ### The step of an expert (11 R335, R347) -/

/-- w_step advances: the forward count and the counts of R347 restart, the gradient is open again, and every replica's
gradient buffer is to be cleared before the next backward run. -/
def Expert.advance (x : Expert) (v : Nat) : Expert :=
  { x with wstep := v, fwd := 0, okF := 0, okB := 0, grad := 0, firstBwd := none,
           reps := tabMap x.reps (fun _ r => { r with fresh := false }) }

/-! ### Elements -/

/-- The value of element e of an array. -/
def State.arrElem (s : State) (base : Nat) (f : Fmt) (e : Nat) : Num :=
  f.decode (s.readNat (dramKey (base + e * (f.width / 8))) (f.width / 8))

/-! ### Optimizers (R376) -/

/-- Counted arithmetic: each result carries the counts of its operands' computation. -/
def c0 (x : Num) : Num × Cnts := (x, {})
def cOp (f : Num → Num → Num × Cnts) (a b : Num × Cnts) : Num × Cnts :=
  let r := f a.1 b.1
  (r.1, (a.2.add b.2).add r.2)
def cAdd (a b : Num × Cnts) : Num × Cnts := cOp (add32 .rn) a b
def cSub (a b : Num × Cnts) : Num × Cnts := cOp (fun x y => add32 .rn x y.negate) a b
def cMul (a b : Num × Cnts) : Num × Cnts := cOp (mul32 .rn) a b
def cDiv (a b : Num × Cnts) : Num × Cnts := cOp div32 a b
def cSqrt (a : Num × Cnts) : Num × Cnts := let r := sqrt32 a.1; (r.1, a.2.add r.2)

/-- A parameter as an exact value: 0 lr, 1 wd, 2 gscale, 3 p1, 4 p2, 5 p3, 6 p4, 7 eps. -/
def Shard.param (x : Shard) (i : Nat) : Num := Fmt.decode .f32 (x.params.getD i 0)
/-- A constant of the open update: 0 b1t, 1 b2t, 2 a1, 3 c2, 4 a2. -/
def Shard.const (x : Shard) (i : Nat) : Num := Fmt.decode .f32 (x.consts.getD i 0)

/-- The constants computed once when an update opens (R376), as F32 bits, with their counts. b1t and b2t change for ADAMW
only. -/
def Shard.opening (x : Shard) : List Nat × Cnts :=
  let a2 := cMul (c0 (x.param 0)) (c0 (x.param 1))
  let enc (v : Num × Cnts) : Nat := Fmt.encode .f32 v.1
  if x.opt = 2 then
    let b1 := cMul (c0 (Fmt.decode .f32 x.b1t)) (c0 (x.param 3))
    let b2 := cMul (c0 (Fmt.decode .f32 x.b2t)) (c0 (x.param 4))
    let a1 := cDiv (c0 (x.param 0)) (cSub (c0 Num.one) (c0 b1.1))
    let c2 := cDiv (c0 Num.one) (cSqrt (cSub (c0 Num.one) (c0 b2.1)))
    ([enc b1, enc b2, enc a1, enc c2, enc a2], [b1, b2, a1, c2, a2].foldl (fun c v => c.add v.2) {})
  else ([x.b1t, x.b2t, 0, 0, enc a2], a2.2)

/-- New values of an element: w', the moments, and the counts (R376). `ms` are its stored moments. -/
def Shard.element (x : Shard) (gin w : Num) (ms : List Num) : Num × List Num × Cnts :=
  let p (i : Nat) : Num × Cnts := c0 (x.param i)
  let g := cMul (c0 gin) (p 2)
  let g0 := c0 g.1
  let m := c0 (ms.getD 0 Num.zero)
  let decay := cMul (c0 w) (c0 (x.const 4))
  if x.opt = 2 then
    let v := c0 (ms.getD 1 Num.zero)
    let m' := cAdd (cMul (p 3) m) (cMul (p 5) g0)
    let v' := cAdd (cMul (p 4) v) (cMul (p 6) (cMul g0 g0))
    let den := cAdd (cMul (cSqrt (c0 v'.1)) (c0 (x.const 3))) (p 7)
    let w' := cSub (cSub (c0 w) (cMul (cDiv (c0 m'.1) den) (c0 (x.const 2)))) decay
    (w'.1, [m'.1, v'.1], [g, m', v', w'].foldl (fun c y => c.add y.2) {})
  else
    let m' := cAdd (cMul (p 3) m) g0
    let d := if x.opt = 0 then c0 m'.1 else cAdd g0 (cMul (p 3) (c0 m'.1))
    let w' := cSub (cSub (c0 w) (cMul (p 0) d)) decay
    (w'.1, [m'.1], [g, m', w'].foldl (fun c y => c.add y.2) {})

/-- The rounding of a stored master element: RS under the Dice with tid 0xFFFF_FFFF and the step key (R377, R378). -/
def Shard.masterMode (x : Shard) (step e : Nat) : Mode :=
  if bit x.fmts 0 && bit x.fmts 1 then .rs (dice x.seed step 0xFFFFFFFF e) else .rn

/-! ### Working copies (R374, R377) -/

/-- The rounding of an element of a copy (R377, R378). -/
def Shard.copyMode (x : Shard) (c : Copy) (d : Desc) (step r col : Nat) : Mode :=
  match c.mode with
  | 0 => .rn
  | 1 => .rz
  | _ => .rs (dice x.seed step d.tid (r * d.cols + col))

/-- The shard element at a position of a copy (R374). -/
def Shard.elemAt (x : Shard) (c : Copy) (r col : Nat) : Nat := if c.role = 0 then r * x.cols + col else col * x.cols + r

/-- A copy that would lie in DRAM which a unit holds (01 R28; 09 R275). -/
def State.copyHeld (s : State) (x : Shard) (d : Desc) : Bool :=
  (descRegions d).any (fun r => s.dramKept r.1 r.2 || overlaps r.1 r.2 x.addr x.region)

/-- Write a copy from the stored master with a step key; the descriptor's statistics follow R214 and R215. The whole copy
is written when its last element is known: while an update runs no access reads it (R390). Nothing is written to DRAM that a unit
holds. -/
def State.writeCopy (s : State) (x : Shard) (step : Nat) (c : Copy) : State :=
  match (s.copyDesc x c).filter (fun d => !s.copyHeld x d) with
  | none => s
  | some d =>
    let gen := (s.desc c.handle).gen
    (List.range d.rows).foldl (fun (s : State) r =>
      let vals := (List.range d.cols).map (fun col =>
        (s.arrElem x.addr x.masterFmt (x.elemAt c r col), x.copyMode c d step r col))
      let w := d.storeRun 0 r (d.cols + 1) 0 vals
      (s.putLocal incoming w.1).addStats (c.handle, gen, w.2)) s

/-- Write every copy (R377). -/
def State.writeCopies (s : State) (x : Shard) (step : Nat) : State := x.copies.foldl (fun s c => s.writeCopy x step c) s

/-! ### Slices that become ready, gradients that fail -/

/-- The key of a shard's slices in the Dealer. -/
def keyShard (h : Nat) : List Nat := [0, h]

/-- A gradient slice becomes ready (R380); the shard counts what its reading saturated or made invalid (07 R206; R382). -/
def State.sliceReady (s : State) (h : Nat) (g : GradSlice) (c : Cnts) : State :=
  match s.shard? h with
  | none => s
  | some x => (s.setShard h { x with ready := x.ready ++ [g], sat := min cMax (x.sat + c.sat), inv := min cMax (x.inv + c.inv) }).queueU x.skein (.slice h g.s) (keyShard h)

/-- Items of a shard in its Dealer. -/
def isSliceOf (h : Nat) (w : Work) : Bool := match w with | .slice y _ => y == h | _ => false

/-- Counters of update pipes of a Skein (Table 13-7): 0 elements, 1 committed, 2 forced, 3 restored, 4 mirror frames sent,
5 answered, 32 + status failed, 64 + status frames answered as partner. -/
def ucElems := 0
def ucCommit := 1
def ucForce := 2
def ucRestore := 3
def ucSent := 4
def ucAnswered := 5
def ucFailed := 32
def ucPartner := 64

/-- The requests of a shard's mirroring and restoring. -/
def askerOf (h : Nat) (a : Asker) : Bool :=
  match a with | .mirror x _ => x == h | .seal x => x == h | .restore x _ => x == h | _ => false

/-- Forget a shard's requests; answers to them count as late. -/
def State.dropAsks (s : State) (h : Nat) : State :=
  s.dropAskers (askerOf h)

/-- Commands end with a status and no result. -/
def State.finishAll (s : State) (ts : List Nat) (st : Status) : State := ts.foldl (fun s t => s.finish t st []) s

/-- A shard becomes TORN (R394): what it waits for goes, and UPD_APPLY completes with ST_INTEGRITY. -/
def State.tear (s : State) (h : Nat) : State :=
  match s.shard? h with
  | none => s
  | some x =>
    let s := (s.dropAsks h).dropWork x.skein (isSliceOf h)
    let s := (s.setShard h { x with st := .torn, ready := [], pend := [], ticket := none, later := [], rubColl := none,
                                    sealSent := false }).irqAll 5
    s.finishAll (x.ticket.toList ++ x.later) .integrity

/-- A RUB collective fails before its last slice reached the pipes (R392): TORN when some slices were applied, otherwise
COMMITTED. -/
def State.rubFailed (s : State) (h no seq : Nat) : State :=
  match s.shard? h with
  | none => s
  | some x =>
    if x.rubColl = some (no, seq) && decide (x.next > 0) then s.tear h
    else
      let gone := (x.ready.filter (fun r => r.coll == some (no, seq))).map (·.s)
      let s := s.dropWork x.skein (fun w => match w with | .slice y i => y == h && gone.contains i | _ => false)
      let x := { x with ready := x.ready.filter (fun r => r.coll != some (no, seq)) }
      if x.rubColl = some (no, seq) then s.setShard h { x with st := .committed, rubColl := none, consts := [] }
      else s.setShard h x

end Sys2Proof.Machine
end

