-- ==== Sys2Proof/Machine/TallyFlow.lean ====
section
/-! DEFINITION. The flow of collectives: checks, admission, completion, failures, commands (08 R226, R230, R236 to R255). -/

namespace Sys2Proof.Machine

open Sys2Proof

/-- Counters of collectives of a die (Table 08-7): 0 completed, 1 FAIL sent, 2 FAIL received, 3 ERROR sent, 4 ERROR
received, 5 late, 6 duplicate, 7 foreign, 8 reserved fields, 16 + e slices of engine e, 32 + status failures. -/
def ccCompleted := 0
def ccFailSent := 1
def ccFailRecv := 2
def ccErrSent := 3
def ccErrRecv := 4
def ccLate := 5
def ccDuplicate := 6
def ccForeign := 7
def ccReserved := 8
def ccEngine := 16
def ccStatus := 32

/-- Replace a group entry. -/
def State.setGroup (s : State) (no : Nat) (g : Group) : State := s.setColl (tabPut s.coll no g)

/-- Change a group entry. -/
def State.withGroup (s : State) (no : Nat) (f : Group → Group) : State :=
  match tabGet? s.coll no with | some g => s.setGroup no (f g) | none => s

/-- An open collective. -/
def Group.coll? (g : Group) (seq : Nat) : Option Coll := g.colls.find? (·.seq == seq)

/-- Put an open collective in the entry, in place of one of its number. -/
def Group.putColl (g : Group) (c : Coll) : Group :=
  if g.colls.any (·.seq == c.seq) then { g with colls := g.colls.map (fun x => if x.seq = c.seq then c else x) }
  else { g with colls := g.colls ++ [c] }

/-- The signed difference of sequence numbers (R236). -/
def seqBefore (a b : Nat) : Bool := decide ((a + 2 ^ 32 - b % 2 ^ 32) % 2 ^ 32 ≥ 2 ^ 31)

/-- A frame of a collective that is over (R252). -/
def Group.late (g : Group) (seq : Nat) : Bool := seqBefore seq g.oldest || g.closed.contains seq

/-- Move the oldest open collective past those that are over (R236). -/
def Group.advance (g : Group) : Nat → Group
  | 0 => g
  | fuel + 1 =>
    if g.closed.contains g.oldest then
      ({ g with closed := g.closed.filter (· != g.oldest), oldest := (g.oldest + 1) % 2 ^ 32 } : Group).advance fuel
    else g

/-- A collective is over. -/
def Group.close (g : Group) (seq : Nat) : Group :=
  ({ g with colls := g.colls.filter (·.seq != seq), closed := addNew g.closed seq } : Group).advance (g.closed.length + 1)

/-! ### Sending (R223, R226, R240) -/

/-- Send a Tally frame on a link of the tree, from hanks of the TALLY account of its VC (R240); a node value sent up is charged within
the group's reservation, which it shares with the slot that it holds until it has left (R236, R241). The engine issues for one cycle
(15 R417; DESIGN CHOICE: entry TALLYCHARGE). -/
def State.sendTally (s : State) (die lk : Nat) (tag : TallyTag) (f : Frame) : State :=
  let s := s.charge (4 + die) clsReduce 1 0
  let w := unitFrame die 1 f (.tally lk)
  let resv := tag.slot.isSome && f.ty == 4
  let w := { w with q := { w.q with resv := resv, tally := some tag } }
  if resv then s.letIn w else s.enterUnit w

/-- A header cell of a kind for a group's frame. -/
def headerOf (h : List Byte) (kind seq lo cnt status eflags : Nat) : List Byte :=
  let h := if h.isEmpty then List.replicate 64 0 else h
  let h := putBytes (putBytes (putBytes h 0 1 kind) 8 4 seq) 24 4 lo
  putBytes (putBytes (putBytes (putBytes h 28 4 (cnt % 2 ^ 24)) 32 8 0) 40 1 status) 41 1 eflags

/-- Send a COLL frame to the parent. -/
def State.sendUp (s : State) (g : Group) (tag : TallyTag) (cells : List Byte) : State :=
  match g.parent with
  | none => s
  | some lk => s.sendTally g.home lk tag
      { ty := 4, vc := 3, ch := 0, dst := g.parentFid, src := s.devFid, spec := g.parentGroup * 4096, cells := cells }

/-- Send a COLL_RES frame to a member. -/
def State.sendDown (s : State) (tag : TallyTag) (g : Group) (m : Member) (cells : List Byte) : State :=
  s.sendTally g.home m.lk tag
    { ty := 5, vc := 4, ch := 0, dst := m.fid, src := s.devFid, spec := (if m.switch then m.child else tag.no) * 4096, cells := cells }

/-- dest of a RESULT to an endpoint (R243), `rec` being the record of a full slice. -/
def resultDest (m : Member) (seq slice rec_ : Nat) : Nat :=
  (m.base + seq % (m.ring + 1) * m.stride + slice * rec_) % 2 ^ 42

/-- Send a RESULT slice to every member (R242, R243). `h` is its header with wire_fmt and prescales set; `own` says that the slice
holds a slot here. -/
def State.sendResults (s : State) (no : Nat) (g : Group) (h : List Byte) (seq slice rec_ : Nat) (body : List Byte) (own : Bool) : State :=
  g.members.foldl (fun s m =>
    let x := putBytes (headerOf h 3 seq m.lo m.cnt 0 0) 20 4 slice
    let x := if m.switch then x else putBytes x 32 8 (resultDest m seq slice rec_)
    s.sendDown { no := no, seq := seq, slot := if own then some slice else none } g m (x ++ body)) s

/-- Send a DONE to every member (R244). -/
def State.sendDone (s : State) (no : Nat) (g : Group) (h : List Byte) (seq : Nat) : State :=
  g.members.foldl (fun s m => s.sendDown { no := no, seq := seq } g m (headerOf h 4 seq m.lo m.cnt 0 0)) s

/-- Send an ERROR to every member (R247, R248). -/
def State.sendErrors (s : State) (no : Nat) (g : Group) (h : List Byte) (seq status eflags : Nat) (cell : List Byte) : State :=
  g.members.foldl (fun s m =>
    (s.sendDown { no := no, seq := seq } g m (headerOf h 6 seq m.lo m.cnt status eflags ++ cell)).bump .coll g.home ccErrSent) s

/-! ### Slots (R236, R238) -/

/-- Release the hanks of an admitted frame; the reservation keeps its charge (R241). -/
def State.releaseHeld (s : State) (q : QFrame) : State :=
  q.hanks.foldl (fun s h => (s.freeHank q.die q.ing q.ovf h).1) s

/-- Release every frame of a collective's slices. -/
def State.releaseColl (s : State) (c : Coll) : State :=
  c.slices.foldl (fun s x => x.2.frames.foldl (fun s f => s.releaseHeld f.2) s) s

/-- The frames of this device's Tally engines that have not left: queued, or waiting for hanks (R236, R247, R255). -/
def State.tallyFrames (s : State) : List QFrame := (s.buf.frames ++ s.buf.wait.map (·.q)).filter (·.tally.isSome)

/-- The slices of a group whose values are on their way out: each holds its slot of the home die until they have left (R236). -/
def State.leaving (s : State) (no : Nat) : List (Nat × Nat) :=
  (s.tallyFrames.filterMap (fun q => match q.tally with
    | some t => if t.no = no then t.slot.map (fun sl => (t.seq, sl)) else none
    | none => none)).eraseDups

/-- Slots in use of a group on a die. -/
def State.slotsUsed (s : State) (no : Nat) (g : Group) (die : Nat) : Nat :=
  (g.colls.map (fun c => c.slices.countP (fun x => x.2.dies.contains die))).sum + (if die = g.home then (s.leaving no).length else 0)

/-- A slot holds the slice on the die. -/
def Group.holds (g : Group) (die seq s : Nat) : Bool :=
  match g.coll? seq with | some c => (tabGet c.slices {} s).dies.contains die | none => false

/-- The key of a slice done on a die. -/
def pastKey (s die : Nat) : Nat := 32 * s + die

/-- The oldest incomplete slice on a die (R236). -/
def Group.oldestSlice (g : Group) (die : Nat) : Nat :=
  match g.coll? g.oldest with
  | none => 0
  | some c => firstFree ((c.past.filter (fun k => k % 32 == die)).map (· / 32)) (c.past.length + 1) 0

/-- A slice may take a slot (R236). -/
def State.slotOk (s : State) (no : Nat) (g : Group) (die seq sl : Nat) : Bool :=
  let free := g.window - s.slotsUsed no g die
  g.holds die seq sl || decide (free ≥ 2) || (decide (free = 1) && seq == g.oldest && sl == g.oldestSlice die)

/-! ### Failures (R247, R248) -/

/-- The range of a member. -/
def Member.range (m : Member) : Nat × Nat := (m.lo, m.cnt)

/-- A PARTIAL, RESULT or DONE of a collective that has not left (R247). -/
def QFrame.carries (q : QFrame) (no seq : Nat) : Bool :=
  (match q.tally with | some t => t.no == no && t.seq == seq | none => false) && [2, 3, 4].contains (chKind (q.f.cells.take 64))

/-- No PARTIAL, RESULT or DONE of a collective is sent any more: those queued go with their hanks, and those that wait for hanks
(R247). -/
def State.stopSending (s : State) (no seq : Nat) : State :=
  let s := s.setBuf { s.buf with wait := s.buf.wait.filter (fun w => !w.q.carries no seq) }
  (s.buf.frames.filter (·.carries no seq)).foldl State.consume s

/-- A collective fails here (R247): it is over, nothing of it is sent any more, its slots are released, a FAIL goes to the parent or, from the root, an
ERROR to every member; the failure is counted and logged. `down` also sends the ERROR from a device that is not the
root (R250). -/
def State.failColl (s : State) (no : Nat) (c : Coll) (status : Status) (ranges : List (Nat × Nat)) (cut down : Bool) : State :=
  match tabGet? s.coll no with
  | none => s
  | some g =>
    let s := (s.stopSending no c.seq).releaseColl c
    let root := g.parent.isNone
    let s := match g.rub with
      | some h => if root && chRub c.hdr && c.passed.isNone then s.rubFailed h no c.seq else s
      | none => s
    let g' := g.close c.seq
    let s := s.setGroup no (if root || down then g' else { g' with waitErr := addNew g'.waitErr c.seq })
    let s := (s.bump .coll g.home (ccStatus + status.code)).logRaise 0x0801 2 status.code (srcOf 3 g.home) 0 (no + c.seq * 2 ^ 32)
    let rc := rangesCell ranges
    let e := b2n (rc.2 || cut)
    let s := if root || down then s.sendErrors no g c.hdr c.seq status.code e rc.1 else s
    if root then s
    else (s.sendUp g { no := no, seq := c.seq } (headerOf c.hdr 5 c.seq g.lo g.cnt status.code e ++ rc.1)).bump .coll g.home ccFailSent

/-- The collective that a number names, the oldest open one being open before its first frame (R236). -/
def State.collAt (s : State) (g : Group) (seq : Nat) : Option Coll :=
  match g.coll? seq with
  | some c => some c
  | none => if seq = g.oldest then some { seq := seq, t0 := s.time.pip } else none

/-! ### Completion (R244, R253) -/

/-- The index of the straggler rules (R253). -/
def Member.tieIndex (m : Member) (pos : Nat) : Nat := 1024 * m.lk + pos

/-- The last member of a completed collective: latest stamp, ties by R191. -/
def lastMember (pip : Nat) (ms : List Member) (fs : Tab Nat) : Option (Nat × Nat) :=
  fs.foldl (fun a p => match a with
    | none => some (p.1, p.2)
    | some b =>
      let tie (x : Nat) : Nat := (ms.getD x { lk := 0, switch := false, lo := 0, cnt := 0, fid := 0 }).tieIndex x
      if b.2 < p.2 ∨ (b.2 = p.2 ∧ tieWins pip (tie p.1) (tie b.1)) then some (p.1, p.2) else some b) none

/-- Straggler records after a completion (R253). -/
def Group.straggle (g : Group) (pip : Nat) (fs : Tab Nat) : Group :=
  match lastMember pip g.members fs with
  | none => g
  | some (x, _) =>
    let second := ((fs.filter (fun p => p.1 != x)).map (·.2)).foldl max 0
    { g with members := g.members.zipIdx.map (fun p =>
        let hit := p.2 == x
        { p.1 with last := if hit then min 0xFFFF (p.1.last + 1) else p.1.last,
                   hist := (2 * p.1.hist + b2n hit) % 2 ^ 16,
                   lag := match tabGet? fs p.2 with
                     | some t => if fs.length ≥ 2 then t - second else 0 | none => p.1.lag }) }

/-- A collective completes at this device. -/
def State.completeColl (s : State) (no : Nat) (c : Coll) : State :=
  match tabGet? s.coll no with
  | none => s
  | some g => (s.setGroup no ((g.straggle s.time.pip c.finals).close c.seq)).bump .coll g.home ccCompleted

/-! ### Nodes (R233 to R238, R242, R246, R254) -/

/-- Statistics of node combinations (R246) are counted in the group entry as well as those of result conversions. -/
def State.collStats (s : State) (no : Nat) (t : Stats) : State := s.withGroup no (fun g => { g with stats := g.stats.add t })

/-- Hand a slice of a rub collective to the shard's pipes as F32 bits (R254, 13 R390). -/
def State.rubSlice (s : State) (handle no seq slice : Nat) (g : List Nat) (c : Cnts) : State :=
  s.sliceReady handle { s := slice, coll := some (no, seq), g := g } c

/-- The additions of a die for a slice: those of ordered mode are made when its nodes are computed (R233, R238; 15 R417). -/
def State.chargeNodes (s : State) (g : Group) (h : List Byte) (sl die m : Nat) : State :=
  if g.arrival then s else s.charge (4 + die) clsReduce m ((m - 1) * ((sliceElems h sl + 15) / 16))

/-- The values of an admitted slice are all present at the home die: compute its node and send it (R233, R242, R254); its slot is held
until it has left, or has gone to the pipes (R236). -/
def State.finishSlice (s : State) (no : Nat) (c : Coll) (sl : Nat) (x : Slice) : State :=
  match tabGet? s.coll no with
  | none => s
  | some g =>
    let h := c.hdr
    let r := if g.arrival then foldAcc h x.acc else g.nodeValue h x.acc x.nodes
    let vs := r.1.getD []
    let c := { c with slices := tabDel c.slices sl, past := c.past ++ [pastKey sl g.home], sent := c.sent ++ [sl] }
    let all := decide (c.sent.length ≥ sliceCount h)
    let c := if all then { c with passed := some s.time.pip } else c
    let s := (s.setGroup no (g.putColl c)).collStats no r.2.stats
    let s := (s.chargeNodes g h sl g.home (x.acc.length + x.nodes.length)).bump .coll g.home (ccEngine + sl % 4)
    match g.parent with
    | some _ =>
      let x := putBytes (headerOf h 2 c.seq g.lo g.cnt 0 0) 20 4 sl
      let x := putBytes (putBytes x 3 1 (fmtCode ((collFmt h).getD .f32))) 7 1 127
      s.sendUp g { no := no, seq := c.seq, slot := some sl } (x ++ partialRecord h vs)
    | none =>
      let rr := resultRecord h vs
      let s := s.collStats no rr.2
      if chRub h then
        let rf := (Fmt.ofCode (chResFmt h)).getD .f32
        let e := leNat (rr.1.take ((vs.length * rf.width + 7) / 8))
        let gs := (List.range vs.length).map (fun i => readF32 (loadElem rf 127 (chResPre h) (packGet rf e i)))
        s.rubSlice (g.rub.getD 0) no c.seq sl (gs.map (fun v => Fmt.encode .f32 v.1)) (sumCnts (gs.map (·.2)))
      else
        let x := putBytes (putBytes h 3 1 (chResFmt h)) 7 1 (chResPre h)
        let s := s.sendResults no g x c.seq sl (fullRec h) rr.1 true
        if all then (s.sendDone no g h c.seq).completeColl no c else s

/-- Every input of a die is present: in ordered mode its frames become values and their hanks are released. -/
def State.absorb (s : State) (no : Nat) (x : Slice) (die : Nat) : State × Slice :=
  let mine := x.frames.filter (fun f => f.2.die == die)
  mine.foldl (fun a f =>
    let v := readSlice f.2.f
    let s := (a.1.collStats no v.2.stats).releaseHeld f.2
    (s, { a.2 with acc := tabPut a.2.acc f.1 v.1, frames := a.2.frames.erase f })) (s, x)

/-- In arrival mode the home die adds a die's partial to its own accumulator (R235). -/
def State.addHome (s : State) (no : Nat) (h : List Byte) (x : Slice) (home d : Nat) : State × Slice :=
  let r := combineOpt h (tabGet? x.acc home) (tabGet? x.acc d)
  (s.collStats no r.2.stats, { x with acc := tabPut (tabDel x.acc d) home (r.1.getD []) })

/-- Whether all members of a die have supplied a slice. -/
def Group.dieFull (g : Group) (x : Slice) (die : Nat) : Bool :=
  g.members.zipIdx.all (fun p => linkDie p.1.lk != die || x.got.contains p.2)

/-- In ordered mode a die that is not the home die computes its nodes and sends them to the home die (R234). -/
def State.sendNodes (s : State) (no : Nat) (h : List Byte) (x : Slice) (sl d : Nat) : State × Slice :=
  match tabGet? s.coll no with
  | none => (s, x)
  | some g =>
    let r := g.nodesOf h x.acc d
    ((s.chargeNodes g h sl d x.acc.length).collStats no r.2.stats, { x with acc := [], nodes := x.nodes ++ r.1 })

/-- The members whose data is lost: their node value meets an uncorrectable word, or else the first kept frame that does, of a die
where all inputs are present (R251). -/
def State.lostMembers (s : State) (g : Group) (x : Slice) : List Nat :=
  if x.lost.isEmpty then ((x.frames.find? (fun f => g.dieFull x f.2.die && s.frameUe f.2)).map (·.1)).toList else x.lost

/-- The bridges that node values cross from a port die to the home die (01 R20, R21); the first path of R21 between opposite dies
(DESIGN CHOICE: entry TALLYDIES). -/
def nodeWay (d home : Nat) : List Nat :=
  let ks := transitPath d home 0
  bridgesFrom d ks ++ (ks.getLast?.map (fun k => dieBridge home k 1)).toList

/-- Carry one slice on: dies whose inputs are complete pass their nodes to the home die over bridges that are not frozen, taking a slot
there, and the home die computes once it has everything (R234, R236, R238; 06 R193); data that is lost fails the collective (R251). -/
def State.flowSlice (s : State) (no seq sl : Nat) : State :=
  match tabGet? s.coll no with
  | none => s
  | some g =>
    match g.coll? seq with
    | none => s
    | some c =>
      match tabGet? c.slices sl with
      | none => s
      | some x =>
        match s.lostMembers g x with
        | m :: ms => s.failColl no c .integrity ((m :: ms).map (fun i => (g.members.map Member.range).getD i (0, 0))) false false
        | [] =>
        let step (a : State × Slice × List Nat) (d : Nat) : State × Slice × List Nat :=
          let x := a.2.1
          if d = g.home || !x.dies.contains d || !g.dieFull x d || s.frozenOn (nodeWay d g.home) ||
              !(x.dies.contains g.home || s.slotOk no g g.home seq sl) then a
          else
            let r := a.1.absorb no x d
            let r := if g.arrival then r.1.addHome no c.hdr r.2 g.home d else r.1.sendNodes no c.hdr r.2 sl d
            (r.1.bump .coll d (ccEngine + sl % 4),
             { r.2 with dies := addNew (r.2.dies.filter (· != d)) g.home, home := r.2.home ++ [d] }, a.2.2 ++ [pastKey sl d])
        let r := g.dies.foldl step (s, x, [])
        let x := r.2.1
        let c := { c with slices := tabPut c.slices sl x, past := c.past ++ r.2.2 }
        let s := r.1.withGroup no (fun g => g.putColl c)
        let ready := x.dies.contains g.home && g.dieFull x g.home &&
          (g.dies.filter (· != g.home)).all (fun d => x.home.contains d)
        if ready then
          let r := s.absorb no x g.home
          r.1.finishSlice no c sl r.2
        else s

/-- The slices of a group in progress: collective and slice. -/
def Group.slicesOf (g : Group) : List (Nat × Nat) := g.colls.flatMap (fun c => c.slices.map (fun x => (c.seq, x.1)))

/-- Carry every slice of a group on, those that waited for a slot at the home die too, as often as there are slices: each that leaves
frees a slot. -/
def State.flowGroup (s : State) (no : Nat) : State :=
  match tabGet? s.coll no with
  | none => s
  | some g =>
    let l := g.slicesOf
    l.foldl (fun s _ => l.foldl (fun s p => s.flowSlice no p.1 p.2) s) s

/-- Carry the slices of every group on: slots and bridges that they waited for may be free (R234, R236). -/
def State.flowAll (s : State) : State := s.coll.foldl (fun s g => s.flowGroup g.1) s

/-! ### Checks of frames (R226, R227, R230, R245, R249, R251, R252, R254) -/

/-- The group number of a Tally frame. -/
def Frame.group (f : Frame) : Nat := bits f.spec 12 12

/-- The header cell of a frame. -/
def Frame.head (f : Frame) : List Byte := f.cells.take 64

/-- Count and log a foreign frame at a die (R224, R226). -/
def State.noteForeign (s : State) (die : Nat) (f : Frame) : State :=
  (s.bump .coll die ccForeign).logRaise 0x0801 2 0 (srcOf 3 die) 0 (f.group + chSeq f.head * 2 ^ 32)

/-- Discard a queued frame as foreign (R224, R226). -/
def State.foreign (s : State) (q : QFrame) : State := (s.consume q).noteForeign q.die q.f

/-- The entry of a frame's group that was there at its receive stamp (R224). -/
def State.groupFor (s : State) (q : QFrame) : Option Group :=
  (tabGet? s.coll q.f.group).filter (fun g => decide (g.born ≤ q.stamp) && !g.dead)

/-- A frame with a nonzero reserved field, in its header cell, its spec field or its range entries (R227). -/
def badReserved (q : QFrame) : Bool :=
  let h := q.f.head
  headerReserved h || opReserved (chOp h) || q.f.spec % 4096 != 0 ||
    ((chKind h == 5 || chKind h == 6) && rangesReserved (q.f.cells.drop 64))

/-- Discard a frame with a reserved field or of a wrong kind; an open collective that it names fails (R227). -/
def State.malformed (s : State) (q : QFrame) (g : Group) (ranges : List (Nat × Nat)) : State :=
  let s := (s.consume q).bump .coll q.die ccReserved
  match s.collAt g (chSeq q.f.head) with
  | some c => s.failColl q.f.group c .badField ranges false false
  | none => s

/-- The member that sent a COLL frame (R226), by position. -/
def State.senderOf (s : State) (q : QFrame) (g : Group) : Option Nat :=
  let h := q.f.head
  if q.f.dst ≠ s.fidAt q.stamp then none
  else g.members.findIdx? (fun m => m.lk == q.ing && m.fid == q.f.src && m.lo == chLo h && m.cnt == chCnt h)

/-- The ranges named for a digest disagreement on the links of an ordered tree (R251). -/
def State.epochRanges (s : State) (g : Group) : List (Nat × Nat) :=
  let own := (g.members.filter (fun m => s.digestDiffers m.lk)).map Member.range
  let up := match g.parent with
    | some lk => if s.digestDiffers lk then
        [(0, g.lo), (g.lo + g.cnt, g.n - (g.lo + g.cnt))].filter (fun r => r.2 != 0) else []
    | none => []
  own ++ up

/-- The failure of a collective at its first frame: ordered trees with a disagreement (R251), results that do not fit
(R245), rub without rub_enable or with a wrong result format (R254). -/
def State.openFailure (s : State) (g : Group) (h : List Byte) : Option (Status × List (Nat × Nat)) :=
  let er := if g.arrival then [] else s.epochRanges g
  let big := (g.members.filter (resultTooBig h)).map Member.range
  let root := g.parent.isNone
  if root && chRub h && g.rub.isNone then some (.badDesc, [(0, g.n)])
  else if root && chRub h && !([some Fmt.b16, some Fmt.f32].contains (Fmt.ofCode (chResFmt h))) then some (.badField, [(0, g.n)])
  else if !er.isEmpty then some (.epoch, er)
  else if !big.isEmpty then some (.badDesc, big)
  else none

/-- The member whose first frame is the reference: earliest stamp, ties by R191 (R249). -/
def refMember (pip : Nat) (ms : List Member) (fs : Tab (Nat × Nat)) : Option (Nat × Nat) :=
  (fs.foldl (fun (a : Option (Nat × Nat × Nat)) p =>
    let tie (x : Nat) : Nat := (ms.getD x { lk := 0, switch := false, lo := 0, cnt := 0, fid := 0 }).tieIndex x
    match a with
    | none => some (p.1, p.2)
    | some b => if p.2.2 < b.2.2 ∨ (p.2.2 = b.2.2 ∧ tieWins pip (tie p.1) (tie b.1)) then some (p.1, p.2) else some b)
    none).map (fun r => (r.1, r.2.1))

/-- Check the frame at the head of a queue from a known member, of kind CONTRIB or PARTIAL: it opens its collective, is
found late or a duplicate, fails the collective, or is noted for admission. -/
def State.checkUp (s : State) (q : QFrame) (g : Group) (m : Nat) : State :=
  let h := q.f.head
  let no := q.f.group
  let seq := chSeq h
  let range := (g.members.map Member.range).getD m (0, 0)
  match g.coll? seq with
  | none =>
    let c : Coll := { seq := seq, t0 := q.stamp, hdr := h, firsts := [(m, chDigest h, q.stamp)] }
    let s' := s.setGroup no (g.putColl c)
    let bad := if chSlice h ≠ 0 ∨ opsBad h q.f.n then some (Status.badField, [range]) else s.openFailure g h
    (match bad with
     | some (st, rs) => (s'.consume q).failColl no c st rs false false
     | none => s'.setFrames (s'.buf.frames.map (fun x => if x = q then { x with note := some m } else x)))
  | some c =>
    let first := (tabGet? c.firsts m).isNone
    let c := { c with t0 := min c.t0 q.stamp,
                      firsts := if first then tabPut c.firsts m (chDigest h, q.stamp) else c.firsts }
    let s := s.setGroup no (g.putColl c)
    let ref := refMember s.time.pip g.members c.firsts
    let differ := c.firsts.filter (fun p => some p.2.1 != ref.map (·.2))
    if first && !differ.isEmpty then
      (s.consume q).failColl no c .mismatch (differ.map (fun p => (g.members.map Member.range).getD p.1 (0, 0))) false false
    else if (first && decide (chSlice h ≠ 0)) || ((tabGet? c.firsts m).map (·.1)) != some (chDigest h) ||
        coveredBytes h != coveredBytes c.hdr || opsBad h q.f.n then
      (s.consume q).failColl no c .badField [range] false false
    else if c.past.contains (pastKey (chSlice h) q.die) || (tabGet c.slices {} (chSlice h)).got.contains m then
      (s.consume q).bump .coll q.die ccDuplicate
    else s.setFrames (s.buf.frames.map (fun x => if x = q then { x with note := some m } else x))

/-- The members whose inputs are incomplete. -/
def Group.missing (g : Group) (c : Coll) : List (Nat × Nat) :=
  ((g.members.zipIdx.filter (fun p => (List.range (sliceCount c.hdr)).any (fun sl =>
    !c.sent.contains sl && !c.past.contains (pastKey sl (linkDie p.1.lk)) && !(tabGet c.slices {} sl).got.contains p.2))).map
      (·.1)).map Member.range

/-- Inputs of a collective lack at a pip past its limit: what is stamped then is late, and the collective is timed out first (R250; 02
R52). -/
def Group.pastLimit (g : Group) (seq stamp : Nat) : Option Coll :=
  (g.coll? seq).filter (fun c => !c.hdr.isEmpty && decide (c.t0 + g.timeout ≤ stamp) && !(g.missing c).isEmpty)

/-- A non-root device that has sent its partials waits for DONE or ERROR up to this pip (R250). -/
def Group.backstop (g : Group) (c : Coll) : Nat := c.t0 + (g.depth + 1) * g.timeout + 65536

/-- The same for what comes down: the backstop has ended the collective first (R250; 02 R52). -/
def Group.pastBackstop (g : Group) (seq stamp : Nat) : Option Coll :=
  (g.coll? seq).filter (fun c => g.parent.isSome && c.passed.isSome && decide (g.backstop c ≤ stamp))

/-- Discard a frame as late, whose kind counts too (R252, Table 08-7). -/
def State.late (s : State) (q : QFrame) : State :=
  let k := chKind q.f.head
  let s := s.consume q
  let s := if k = 5 then s.bump .coll q.die ccFailRecv else if k = 6 then s.bump .coll q.die ccErrRecv else s
  s.bump .coll q.die ccLate

/-- A COLL frame at the head of an ingress's queue, of the kinds that a row serves. -/
def State.upRow (s : State) (ing : Nat) (mine : Nat → Bool) (f : State → QFrame → Group → Nat → State) :
    Host.Outcome State Fault Refusal :=
  match s.localHead ing 3 4 with
  | none => .next s
  | some q =>
    let h := q.f.head
    let k := chKind h
    if q.note.isSome || !mine k then .next s
    else match s.groupFor q with
      | none => .next (s.foreign q)
      | some g =>
        match s.senderOf q g with
        | none => .next (s.foreign q)
        | some m =>
          let x := g.members.getD m { lk := 0, switch := false, lo := 0, cnt := 0, fid := 0 }
          let allowed := k == 2 || k == 5 || (k == 1 && !x.switch && x.cnt == 1)
          if !allowed || badReserved q then .next ((s.malformed q g [x.range]).flowGroup q.f.group)
          else if g.late (chSeq h) then .next (s.late q)
          else match g.pastLimit (chSeq h) q.stamp with
            | some c => .next (((s.failColl q.f.group c .timeout (g.missing c) false false).late q).flowGroup q.f.group)
            | none => .next ((f s q g m).flowGroup q.f.group)

/-- CONTRIB (R226 to R232, R245, R249 to R252); also every COLL frame of no kind that a child may send. -/
def execContrib (ing : Nat) (s : State) : Host.Outcome State Fault Refusal :=
  s.upRow ing (fun k => k != 2 && k != 5) (fun s q g m => s.checkUp q g m)

/-- PARTIAL (R226, R227, R230, R233, R245, R249, R252). -/
def execPartialFrame (ing : Nat) (s : State) : Host.Outcome State Fault Refusal :=
  s.upRow ing (fun k => k == 2) (fun s q g m => s.checkUp q g m)

/-- A collective with no frame yet takes the header of the first frame that names it (R232). -/
def Coll.withHeader (c : Coll) (h : List Byte) : Coll := if c.hdr.isEmpty then { c with hdr := h } else c

/-- FAIL (R247, R248): a child's failure fails the collective here. -/
def execFailFrame (ing : Nat) (s : State) : Host.Outcome State Fault Refusal :=
  s.upRow ing (fun k => k == 5) (fun s q g _ =>
    let h := q.f.head
    let s := (s.consume q).bump .coll q.die ccFailRecv
    let c := (s.collAt g (chSeq h)).getD { seq := chSeq h, t0 := q.stamp }
    s.failColl q.f.group (c.withHeader h) ((Status.ofCode (chStatus h)).getD .aborted) (cellRanges (q.f.cells.drop 64))
      (bit (fieldAt h 41 1) 0) false)

/-! ### Admission (R236 to R238) -/

/-- Recharge an admitted frame from its port account to the die's TALLY account, whose reservation holds it (R237, R241). -/
def State.recharge (s : State) (q : QFrame) : State :=
  let x := s.acct q.acct
  (s.setAcct q.acct { x with h := x.h - q.hanks.length }).advertise q.acct

/-- Admit a frame into the slot of its slice (R236 to R238). -/
def State.admitFrame (s : State) (q : QFrame) (g : Group) (c : Coll) (m : Nat) : State :=
  let no := q.f.group
  let h := q.f.head
  let sl := chSlice h
  let s := (s.dropQueued q).recharge q
  let x := tabGet c.slices {} sl
  let x := { x with got := addNew x.got m, dies := addNew x.dies q.die }
  let c := { c with finals := tabPut c.finals m q.stamp }
  if g.arrival then
    let v := readSlice q.f
    let r := combineOpt c.hdr (tabGet? x.acc q.die) (some v.1)
    let x := { x with acc := tabPut x.acc q.die (r.1.getD []) }
    let s := (s.releaseHeld q).withGroup no (fun g => g.putColl { c with slices := tabPut c.slices sl x })
    (s.collStats no (v.2.add r.2).stats).flowGroup no
  else
    let x := { x with frames := x.frames ++ [(m, { q with note := none })] }
    (s.withGroup no (fun g => g.putColl { c with slices := tabPut c.slices sl x })).flowGroup no

/-- TALLY_ADMIT: the checked frame at the head of an ingress's queue is admitted once a slot is available; a frame whose
collective is over meanwhile is discarded as late, one whose slice was supplied meanwhile as a duplicate; reduction may be held (15
R426, R432). -/
def rowTallyAdmit (ing : Nat) (s : State) : Host.Outcome State Fault Refusal :=
  match s.localHead ing 3 4 with
  | none => .next s
  | some q =>
    match q.note, s.groupFor q with
    | none, _ => .next s
    | some _, none => .next (s.foreign q)
    | some m, some g =>
      let h := q.f.head
      match g.coll? (chSeq h) with
      | none => .next (s.late q)
      | some c =>
        if (g.pastLimit (chSeq h) q.stamp).isSome then
          .next (((s.failColl q.f.group c .timeout (g.missing c) false false).late q).flowGroup q.f.group)
        else if c.past.contains (pastKey (chSlice h) q.die) || (tabGet c.slices {} (chSlice h)).got.contains m then
          .next ((s.consume q).bump .coll q.die ccDuplicate)
        else if !s.slotOk q.f.group g q.die (chSeq h) (chSlice h) then .next s
        else if !s.mayIssue (4 + q.die) clsReduce then .next (s.noteHold (4 + q.die) clsReduce)
        else if s.torn rowColl q.die q.f.group then .next (s.critical rowColl q.die q.f.group 4 q.die (srcOf 3 q.die))
        else .next ((s.charge (4 + q.die) clsReduce 1
          (if g.arrival then (sliceElems h (chSlice h) + 15) / 16 else 0)).admitFrame q g c m)

/-! ### Downward frames (R226, R227, R242, R244, R247) -/

/-- A COLL_RES frame at the head of an ingress's queue, of the kinds that a row serves. -/
def State.downRow (s : State) (ing : Nat) (mine : Nat → Bool) (f : State → QFrame → Group → State) :
    Host.Outcome State Fault Refusal :=
  match s.localHead ing 4 5 with
  | none => .next s
  | some q =>
    let h := q.f.head
    let k := chKind h
    if !mine k then .next s
    else match s.groupFor q with
      | none => .next (s.foreign q)
      | some g =>
        if g.parent ≠ some q.ing ∨ q.f.src ≠ g.parentFid ∨ q.f.dst ≠ s.fidAt q.stamp then .next (s.foreign q)
        else if !([3, 4, 6].contains k) || badReserved q then .next ((s.malformed q g [(g.lo, g.cnt)]).flowGroup q.f.group)
        else match g.pastBackstop (chSeq h) q.stamp with
          | some c => .next (((s.failColl q.f.group c .timeout [(g.lo, g.cnt)] false true).late q).flowGroup q.f.group)
          | none => .next ((f s q g).flowGroup q.f.group)

/-- RESULT (R230, R242, R243): forwarded with the same element bits to every member; also every frame of no kind that a
parent may send. -/
def execResultFrame (ing : Nat) (s : State) : Host.Outcome State Fault Refusal :=
  s.downRow ing (fun k => k != 4 && k != 6) (fun s q g =>
    let h := q.f.head
    match g.coll? (chSeq h) with
    | none => s.late q
    | some c =>
      if opsBad h q.f.n then (s.consume q).failColl q.f.group c .badField [(g.lo, g.cnt)] false false
      else
        let rec_ := if chRub h then (match Fmt.ofCode (chWire h) with
            | some f => recBytes f (chResBlock h) (sliceLen h) false | none => fullRec h) else fullRec h
        (s.consume q).sendResults q.f.group g h (chSeq h) (chSlice h) rec_ (q.f.cells.drop 64) false)

/-- DONE (R244): forwarded after the results; the collective completes here. -/
def execDoneFrame (ing : Nat) (s : State) : Host.Outcome State Fault Refusal :=
  s.downRow ing (fun k => k == 4) (fun s q g =>
    let h := q.f.head
    match g.coll? (chSeq h) with
    | none => s.late q
    | some c => (((s.consume q).sendDone q.f.group g h (chSeq h)).releaseColl c).completeColl q.f.group c)

/-- ERROR (R247): fails the collective here and is forwarded to every member; one that this device failed first has its
ERROR forwarded too. -/
def execErrorFrame (ing : Nat) (s : State) : Host.Outcome State Fault Refusal :=
  s.downRow ing (fun k => k == 6) (fun s q g =>
    let h := q.f.head
    let no := q.f.group
    let s := (s.consume q).bump .coll q.die ccErrRecv
    if g.waitErr.contains (chSeq h) then
      (s.setGroup no { g with waitErr := g.waitErr.filter (· != chSeq h) }).sendErrors no g h (chSeq h) (chStatus h)
        (fieldAt h 41 1) (q.f.cells.drop 64)
    else if g.late (chSeq h) then s.bump .coll q.die ccLate
    else
      let s := match g.coll? (chSeq h) with | some c => s.releaseColl c | none => s
      let s := (s.setGroup no (g.close (chSeq h))).bump .coll g.home (ccStatus + chStatus h)
      s.sendErrors no g h (chSeq h) (chStatus h) (fieldAt h 41 1) (q.f.cells.drop 64))

/-! ### Timeouts (R250) -/

/-- COLL_TIMEOUT: inputs still lack at t + coll_timeout. -/
def execCollTimeout (group seq : Nat) (s : State) : Host.Outcome State Fault Refusal :=
  match tabGet? s.coll group with
  | none => .next s
  | some g =>
    match g.coll? seq with
    | none => .next s
    | some c =>
      let miss := g.missing c
      if c.hdr.isEmpty || decide (s.time.pip < c.t0 + g.timeout) || miss.isEmpty then .next s
      else .next ((s.failColl group c .timeout miss false false).flowGroup group)

/-- COLL_BACKSTOP_TIMEOUT: all partials sent and neither DONE nor ERROR by t + (depth + 1) × coll_timeout + 65,536. -/
def execCollBackstopTimeout (group seq : Nat) (s : State) : Host.Outcome State Fault Refusal :=
  match tabGet? s.coll group with
  | none => .next s
  | some g =>
    match g.coll? seq with
    | none => .next s
    | some c =>
      if g.parent.isSome && c.passed.isSome && decide (g.backstop c ≤ s.time.pip) then
        .next ((s.failColl group c .timeout [(g.lo, g.cnt)] false true).flowGroup group)
      else .next s

/-! ### Commands (R255) -/

/-- Draw or give back a group's reservations (R241). -/
def State.reserveGroup (s : State) (g : Group) (sign : Bool) : State :=
  g.reserve.foldl (fun s p =>
    let a := unitAcct p.1 1 3
    let x := s.acct a
    s.setAcct a { x with h := if sign then x.h + p.2 else x.h - p.2 }) s

/-- COLL_GROUP_CREATE (R224, R225, R241, R255). -/
def execCollGroupCreate (o : Origin) (addr len : Nat) (s : State) : Host.Outcome State Fault Refusal :=
  let n := 64 + 32 * (s.readNat (dramKey (addr + 30)) 2)
  let b := s.read (dramKey addr) (min n (64 + 32 * 1024))
  let g := parseGroup b
  let no := descGroup b
  let res := g.dies.map (fun d => (d, g.need d))
  s.loading o 0x0501 [addr, len] addr len
    (s.addrChks 0 addr len 64 ++
     [badFld 0 (groupFieldBad b || (descMembers b).any (·.2)), s.ownChk o resColl,
      ⟨decide (len ≠ n), .badDesc, some 1⟩, ⟨s.groupDescBad no g, .badDesc, none⟩,
      ⟨res.any (fun p => s.take (unitAcct p.1 1 3) p.2 != p.2), .capacity, none⟩])
    (fun _ s =>
      let r := s.drawGo { g with reserve := res, born := s.time.pip }
      let s := (r.1.setGroup no r.2).reserveGroup r.2 true
      (s, .done .ok ([uf 2 no, uf 1 g.home] ++ (List.range 4).map (fun d => uf 4 (tabGet res 0 d)) ++ [uf 8 s.time.pip])))

/-- The refusals of a command that names a group. -/
def State.groupChks (s : State) (group : Nat) : List Chk :=
  [badFld 0 (decide (group > 4095)), ⟨(tabGet? s.coll group).isNone, .badDesc, some 0⟩]

/-- The collectives open at a device, the oldest among them (R236). -/
def State.openColls (s : State) (g : Group) : List Coll :=
  if g.dead then [] else match g.coll? g.oldest with | some _ => g.colls | none => { seq := g.oldest, t0 := s.time.pip } :: g.colls

/-- A node value of a group that waits for its link within its reservation (R241). -/
def QFrame.reservedBy (q : QFrame) (no : Nat) : Bool := q.resv && decide (q.tally.map (·.no) = some no)

/-- Give back a group's reservations; node values that have not left are charged to the account themselves from here (R241). -/
def State.giveBack (s : State) (no : Nat) (g : Group) : State :=
  let mine := s.buf.frames.filter (·.reservedBy no)
  let s := mine.foldl (fun s q => let x := s.acct q.acct; s.setAcct q.acct { x with h := x.h + q.hanks.length }) s
  (s.setFrames (s.buf.frames.map (fun q => if q.reservedBy no then { q with resv := false } else q))).reserveGroup g false

/-- End every open collective of a group with ST_ABORTED, every rank of the device named (R251). -/
def State.abortGroup (s : State) (no : Nat) (g : Group) : State :=
  (s.openColls g).foldl (fun s c => s.failColl no c .aborted [(g.lo, g.cnt)] false false) s

/-- Remove a group entry: its collectives end with ST_ABORTED and its hanks are released. -/
def State.removeGroup (s : State) (no : Nat) (g : Group) : State :=
  let s := (s.abortGroup no g).giveBack no g
  s.setColl (tabDel s.coll no)

/-- A die with slots of a group was reset: its collectives end, its reservations are gone and the entry is of no more use (R255; DESIGN
CHOICE: entry GROUPDEAD). -/
def State.killGroup (s : State) (no : Nat) (g : Group) : State :=
  ((s.abortGroup no g).giveBack no g).withGroup no (fun g => { g with dead := true, reserve := [], colls := [] })

/-- COLL_GROUP_DESTROY (R251, R255). -/
def execCollGroupDestroy (o : Origin) (group : Nat) (s : State) : Host.Outcome State Fault Refusal :=
  s.command o 0x0502 [group] (s.ownChk o resColl :: s.groupChks group) (fun _ s =>
    match tabGet? s.coll group with
    | none => (s, .done .ok [])
    | some g => (s.removeGroup group g, .done .ok [uf 4 (s.openColls g).length, uf 4 (g.reserve.map (·.2)).sum]))

/-- COLL_GROUP_STATUS (R246, R255). -/
def execCollGroupStatus (o : Origin) (group clear : Nat) (s : State) : Host.Outcome State Fault Refusal :=
  s.command o 0x0503 [group, clear] (clearChks o 1 clear ++ s.groupChks group) (fun _ s =>
    match tabGet? s.coll group with
    | none => (s, .done .ok [])
    | some g =>
      let res := [uf 1 (b2n g.arrival), uf 4 g.oldest] ++
        listFlds ((s.openColls g).map (fun c => [uf 4 c.seq, uf 8 c.t0, uf 4 c.sent.length, uf 4 (chDigest c.hdr)])) ++
        (List.range 4).map (fun d => uf 1 (s.slotsUsed group g d)) ++
        [uf 4 g.stats.amax, uf 4 g.stats.sat, uf 4 g.stats.inv, uf 4 g.stats.nanblk]
      (if clear = 1 then s.setGroup group { g with stats := {} } else s, .done .ok res))

/-- Bits set of a history. -/
def popCount (x : Nat) : Nat := (List.range 16).countP (bit x)

/-- COLL_STRAGGLERS (R253, R255). -/
def execCollStragglers (o : Origin) (group : Nat) (s : State) : Host.Outcome State Fault Refusal :=
  s.query o 0x0504 [group] (s.groupChks group) (fun s =>
    match tabGet? s.coll group with
    | none => []
    | some g => listFlds (g.members.map (fun m =>
        [uf 4 m.lo, uf 4 (m.cnt % 2 ^ 24), uf 2 m.last, uf 2 m.hist, uf 8 m.lag, uf 1 (b2n (decide (popCount m.hist ≥ g.suspectK)))])))

/-- COLL_COUNTERS (R255). -/
def execCollCounters (o : Origin) (die clear : Nat) (s : State) : Host.Outcome State Fault Refusal :=
  s.command o 0x0505 [die, clear] (badFld 0 (decide (die > 3)) :: clearChks o 1 clear) (fun _ s =>
    let c (i : Nat) : Fld := uf 4 (s.count .coll die i)
    let res := c ccCompleted :: (List.range 17).map (fun i => c (ccStatus + i)) ++
      [c ccFailSent, c ccFailRecv, c ccErrSent, c ccErrRecv, c ccLate, c ccDuplicate, c ccForeign, c ccReserved,
       uf 4 (min cMax (tabGet s.traf.waits 0 die / 1000))] ++
      (List.range 4).map (fun e => c (ccEngine + e))
    (if clear = 1 then (s.clearUnit .coll die).setTraf { s.traf with waits := tabPut s.traf.waits die 0 } else s, .done .ok res))

/-- The FAIL and ERROR frames of a collective that have not left. -/
def State.failFrames (s : State) (no seq : Nat) : List (List Byte) :=
  (s.tallyFrames.filter (fun q => decide (q.tally.map (fun t => (t.no, t.seq)) = some (no, seq)) &&
    (chKind q.f.head == 5 || chKind q.f.head == 6))).map (·.f.cells)

/-- COLL_ABORT (R251, R255): the collective fails, and the command completes once the FAIL or ERROR frames have left. -/
def execCollAbort (o : Origin) (group seq : Nat) (s : State) : Host.Outcome State Fault Refusal :=
  let c := (tabGet? s.coll group).bind (fun g => if g.dead then none else s.collAt g seq)
  s.command o 0x0506 [group, seq] (s.ownChk o resColl :: ⟨c.isNone, .badDesc, some 1⟩ :: s.groupChks group)
    (fun t s => match tabGet? s.coll group, c with
      | some g, some c =>
        let u := s.failColl group c .aborted [(g.lo, g.cnt)] false false
        let w := (u.failFrames group seq).filter (fun f => !(s.failFrames group seq).contains f)
        ((u.setHost { u.host with sending := u.host.sending ++ [(t, w)] }).flowGroup group, .later)
      | _, _ => (s, .done .ok []))

/-- Commands that wait for their frames complete once none of them is queued any more (R255). -/
def State.finishSent (s : State) : State :=
  let there (f : List Byte) : Bool := s.tallyFrames.any (fun q => decide (q.f.cells = f))
  let done := s.host.sending.filter (fun p => !p.2.any there)
  if done.isEmpty then s
  else done.foldl (fun s p => s.finish p.1 .ok []) (s.setHost { s.host with sending := s.host.sending.filter (fun p => p.2.any there) })

end Sys2Proof.Machine
end

