-- ==== Sys2Proof/Machine/Update.lean ====
section
/-! DEFINITION. Updates, mirroring, commits, restores: events and commands of shards and mirror entries (13). -/

namespace Sys2Proof.Machine

open Sys2Proof

/-- The signed difference of 32-bit versions (R373). -/
def verDiff (a b : Nat) : Int := toInt 32 (a + 2 ^ 32 - b % 2 ^ 32)

/-- A commit record whose halves disagree: SKEIN scope (17 Table 17-1). -/
def State.commitTorn (s : State) (k loc : Nat) : Bool := s.torn rowCommit k loc
def State.commitCritical (s : State) (k loc : Nat) : State := s.critical rowCommit k loc 2 k (srcOf 1 k)

/-! ### The commit (R390, R391, R393) -/

/-- The expert of an EXPERT shard takes the committed version as its w_step; its forward count restarts (11 R335). -/
def State.stepExpert (s : State) (e : Option Nat) (v : Nat) : State :=
  match e with
  | none => s
  | some id => match tabGet? s.exp.exact id with
    | some (.here x) =>
      s.setExp { s.exp with exact := tabPut s.exp.exact id (.here (x.advance v)) }
    | _ => s

/-- The record of a slice of copy 0: its elements, then its scale bytes, in whole cells (08 R228, R391). -/
def State.copyRecord (s : State) (x : Shard) (d : Desc) (sl : Nat) : List Byte :=
  let es := (List.range (min 1024 (x.n - 1024 * sl))).map (fun i => 1024 * sl + i)
  let bits_ := es.map (fun e => s.elemBits [] d 0 (e / x.cols) (e % x.cols))
  let bs := blockSize d.block
  let scales := if d.fmt.narrow then
    (List.range ((es.length + bs - 1) / bs)).map (fun i => BitVec.ofNat 8 (s.readNat (dramKey (d.scale + (1024 * sl) / bs + i)) 1))
    else []
  dataCells (leBytes ((es.length * d.fmt.width + 7) / 8) (packBits d.fmt bits_) ++ scales)

/-- A RUB version committed at `tc` goes to every member: RESULT frames of copy 0, then a DONE (R391). A collective that failed
meanwhile sends nothing, and one that `tc` is too late for fails with ST_TIMEOUT (R392; 02 R52); one whose copy 0 cannot be read fails
with ST_INTEGRITY (00 R13). -/
def State.publish (s : State) (x : Shard) (no seq tc : Nat) : State :=
  match tabGet? s.coll no, x.copies.head? with
  | some g, some c0 =>
    (match g.coll? seq, s.copyDesc x c0 with
     | some c, some d =>
       if (c.passed.map (fun t => decide (t + g.timeout ≤ tc))).getD false then s.failColl no c .timeout [(0, g.n)] false false
       else match (descRegions d).findSome? (fun r => s.firstUe (dramKey r.1) r.2) with
       | some u => (s.logUe u).failColl no c .integrity [(0, g.n)] false false
       | none =>
       let hd := putBytes (putBytes (putBytes c.hdr 3 1 (fmtCode d.fmt)) 7 1 d.prescale) 44 1 d.prescale
       let s := (List.range x.sliceNum).foldl (fun s sl =>
         s.sendResults no g hd seq sl (recBytes d.fmt d.block 1024 false) (s.copyRecord x d sl) false) s
       (s.sendDone no g hd seq).completeColl no c
     | _, _ => s)
  | _, _ => s

/-- The new version commits at pip `tc` (R390, R391). -/
def State.commitShard (s : State) (h : Nat) (forced : Bool) (tc : Nat) : State :=
  match s.shard? h with
  | none => s
  | some x =>
    if s.commitTorn x.skein h then s.commitCritical x.skein h
    else
      let v := (x.version + 1) % 2 ^ 32
      let y := { x with st := .committed, version := v, b1t := x.consts.getD 0 x.b1t, b2t := x.consts.getD 1 x.b2t,
                        consts := [], next := 0, ticket := none, later := [], rubColl := none, sealSent := false, mirrorBad := false,
                        pend := [], unprotected := x.unprotected || forced || decide (x.partner = 0xFFFFF) }
      let s := (s.setShard h y).bump .upd x.skein (if forced then ucForce else ucCommit)
      let s := if !forced && decide (x.partner = 0xFFFFF) then
        s.logRaise 0x0D03 0 0 (srcOf 1 x.skein) 0 (h % 1024 + v * 2 ^ 32) else s
      match x.kind with
      | 0 => (x.ticket.toList.foldl (fun s t => s.finish t .ok [uf 8 tc]) s).finishAll x.later .epoch
      | 1 => (match x.rubColl with | some (no, seq) => s.publish y no seq tc | none => s)
      | _ => s.stepExpert x.expert v

/-! ### Sending to the partner (R384, R385) -/

/-- Where mirror frames go: the partner, or the new one of a rebind. -/
def Shard.goal (x : Shard) : Nat × Nat := match x.rebind with | some r => (r.fid, r.idx) | none => (x.partner, x.idx)

/-- What is mirrored is the version x: in a rebind while COMMITTED, and in the re-mirror of a create. -/
def Shard.sendsOld (x : Shard) : Bool := decide (x.st = .committed) || (match x.rebind with | some r => r.create | none => false)

/-- The version that mirror frames carry: x or x + 1. -/
def Shard.sendVersion (x : Shard) : Nat := if x.sendsOld then x.version else (x.version + 1) % 2 ^ 32

/-- b1t and b2t of that version. -/
def Shard.sendB (x : Shard) (i : Nat) : Nat :=
  let old := if i = 0 then x.b1t else x.b2t
  if x.sendsOld then old else x.consts.getD i old

/-- The header cell of Table 13-4. -/
def mirrorHeader (kind b ver cookie elems b1 b2 n chunks : Nat) : List Byte :=
  padTo 64 (leBytes 1 kind ++ leBytes 1 b ++ leBytes 2 0 ++ leBytes 4 ver ++ leBytes 4 cookie ++ leBytes 4 elems ++
    leBytes 4 b1 ++ leBytes 4 b2 ++ leBytes 4 n ++ leBytes 4 chunks)

/-- A MIRROR frame. -/
def State.mirrorFrame (s : State) (x : Shard) (ch : Nat) (cells : List Byte) : Frame :=
  { ty := 8, vc := 4, ch := ch, dst := x.goal.1, src := s.devFid, ackReq := true, spec := x.goal.2 * 2 ^ 14, cells := cells }

/-- Elements of a chunk. -/
def Shard.chunkElems (x : Shard) (k : Nat) : Nat := min 512 (x.n - 512 * k)

/-- The data of a chunk: its part of each array in order. -/
def State.chunkData (s : State) (x : Shard) (k : Nat) : List Byte :=
  (x.arrays.map (fun a => s.read (dramKey (a.1 + 512 * k * (a.2.width / 8))) (x.chunkElems k * (a.2.width / 8)))).flatten

/-- The first uncorrectable word of a chunk's stored state. -/
def State.chunkUe (s : State) (x : Shard) (k : Nat) : Option Nat :=
  x.arrays.findSome? (fun a => s.firstUe (dramKey (a.1 + 512 * k * (a.2.width / 8))) (x.chunkElems k * (a.2.width / 8)))

/-- Send a mirror frame, recorded as outstanding. -/
def State.sendMirror (s : State) (x : Shard) (who : Asker) (f : Frame) : State :=
  (s.sendReq (256 * x.skein) who f 0 0).bump .upd x.skein ucSent

/-- SEAL_SEND: once every chunk is acknowledged. -/
def State.trySeal (s : State) (h : Nat) : State :=
  match s.shard? h with
  | none => s
  | some x =>
    if (decide (x.st = .sealing) || x.rebind.isSome) && !x.mirrorBad && x.pend.isEmpty && x.acked == x.chunkNum && !x.sealSent then
      (s.setShard h { x with sealSent := true }).sendMirror x (.seal h) (s.mirrorFrame x 0
        (mirrorHeader 2 x.b x.sendVersion 0xFFFFFFFF 0 (x.sendB 0) (x.sendB 1) x.n x.chunkNum))
    else s

/-- An update whose partner was lost ends LOST; UPD_APPLY completes with ST_TIMEOUT (R394). -/
def State.loseShard (s : State) (h : Nat) (x : Shard) : State :=
  let s := (s.setShard h { x with st := .lost, ticket := none, later := [], pend := [] }).irqAll 5
  s.finishAll (x.ticket.toList ++ x.later) .timeout

/-- A mirror failure (R389, R394): the version is mirrored no further; a rebind ends with the status, and the shard of
a create goes with it. -/
def State.mirrorFail (s : State) (h chunk : Nat) (st : Status) : State :=
  match s.shard? h with
  | none => s
  | some x =>
    let s := (s.dropAsks h).logRaise 0x0D02 2 st.code (srcOf 1 x.skein) 0
      (h % 1024 + chunk % 2 ^ 22 * 2 ^ 10 + x.goal.1 * 2 ^ 32)
    match x.rebind with
    | some r =>
      let s := if r.create then s.setUpd { s.upd with shards := tabDel s.upd.shards h }
        else s.setShard h { x with rebind := none, pend := [], sealSent := false }
      s.finish r.ticket st []
    | none =>
      let y := { x with mirrorBad := true, pend := [] }
      if x.st = .sealing then s.loseShard h y else s.setShard h y

/-- The stored state of a shard cannot be read: during an update it is TORN (R394), and a rebind ends with ST_INTEGRITY. -/
def State.stateError (s : State) (h chunk : Nat) : State :=
  if ((s.shard? h).bind (·.rebind)).isSome then s.mirrorFail h chunk .integrity else s.tear h

/-- MIRROR_CHUNK_SEND (R384, R385): the next chunk whose elements are updated, within the window; one that cannot be
read is not sent (00 R13; R394). -/
def execMirrorChunkSend (handle : Nat) (s : State) : Host.Outcome State Fault Refusal :=
  match s.shard? handle with
  | none => .next s
  | some x =>
    match x.pend with
    | [] => .next s
    | k :: r =>
      if decide (x.sent - x.acked ≥ x.window) || (s.freeSeq x.goal.1).isNone then .next s
      else if !s.mayIssue x.skein clsUpdate then .next (s.noteHold x.skein clsUpdate)
      else match s.chunkUe x k with
      | some u => .next ((s.logUe u).stateError handle k)
      | none =>
        let f := s.mirrorFrame x (k % x.mirrorCh) (mirrorHeader 1 x.b x.sendVersion k (x.chunkElems k) 0 0 0 0 ++
          dataCells (s.chunkData x k))
        let s := s.charge x.skein clsUpdate 0 (moveEu (x.chunkElems k * x.b))
        let s := s.setShard handle { x with pend := r, sent := x.sent + 1 }
        .next ((s.sendMirror x (.mirror handle k) f).trySeal handle)

/-- The SEAL is answered with ST_OK at pip `tc`: commit, and the end of a rebind or of a create (R390, R395, Table 13-6). -/
def State.sealed (s : State) (h tc : Nat) : State :=
  match s.shard? h with
  | none => s
  | some x =>
    match x.rebind with
    | none => s.commitShard h false tc
    | some r =>
      let s := s.setShard h { x with partner := r.fid, idx := r.idx, rebind := none, sealSent := false, unprotected := false }
      if r.create then
        ((s.setShard h { x with st := .committed, rebind := none, sealSent := false, unprotected := false }).stepExpert x.expert x.version).finish
          r.ticket .ok [uf 4 x.version, uf 8 tc]
      else
        let s := if x.st = .lost then s.commitShard h false tc else s
        s.finish r.ticket .ok []

/-- An answer to a MIRROR frame of a shard, received at pip `tc` (R385, R389, R390). -/
def State.mirrorAnswer (s : State) (h chunk : Nat) (isSeal : Bool) (st : Status) (tc : Nat) : State :=
  match s.shard? h with
  | none => s
  | some x =>
    let s := s.bump .upd x.skein ucAnswered
    if st ≠ .ok then (s.bump .upd x.skein (ucFailed + st.code)).mirrorFail h chunk st
    else if isSeal then s.sealed h tc
    else (s.setShard h { x with acked := x.acked + 1 }).trySeal h

/-- The pip at which a request times out, and from which an answer is late (02 R52; 09 R278; R389): its limit after it was sent; none
while its frame waits to be sent. -/
def State.due (s : State) (r : Request) : Option Nat := if s.unsent r then none else some (r.stamp + r.limit)

/-- A request of far_timeout's kind; mirror frames have mirror_timeout. -/
def Request.far (r : Request) : Bool := match r.who with | .mirror _ _ | .seal _ => false | _ => true

/-- A response stamped before its request times out (02 R52). -/
def State.inTime (s : State) (r : Request) (q : QFrame) : Bool := match s.due r with | some d => decide (q.stamp < d) | none => true

/-- A response to a request that came in time waits for delivery. -/
def State.answerWaits (s : State) (r : Request) : Bool :=
  s.buf.frames.any (fun q => q.local && q.f.vc == 2 && (q.f.ty == 2 || q.f.ty == 11) && s.inTime r q && s.reqFor q.f == some r)

/-- MIRROR_TIMEOUT (R389; 02 R52): no answer stamped within mirror_timeout pips. -/
def execMirrorTimeout (dst seq : Nat) (s : State) : Host.Outcome State Fault Refusal :=
  match s.route.reqs.find? (fun r => r.dst == dst && r.seq == seq) with
  | none => .next s
  | some r =>
    let run (h chunk : Nat) : Host.Outcome State Fault Refusal :=
      match s.shard? h with
      | none => .next s
      | some x =>
        if (s.due r).any (· ≤ s.time.pip) ∧ s.answerWaits r = false then
          .next (((s.delReq r).bump .upd x.skein (ucFailed + Status.timeout.code)).mirrorFail h chunk .timeout)
        else .next s
    match r.who with
    | .mirror h k => run h k
    | .seal h => run h 0xFFFFFFFF
    | _ => .next s

/-! ### Opening and running an update (R376, R379 to R381, R390) -/

/-- No run of an expert is in progress. -/
def State.expertQuiet (s : State) (id : Nat) : Bool :=
  match tabGet? s.exp.exact id with
  | some (.here e) => e.reps.all (fun r => [r.2.a0, r.2.a1].all (fun a => match a with | some x => !x.running | none => true))
  | _ => true

/-- UPDATE_OPEN (R376, R379, R390): a slice is ready, the shard COMMITTED, no rebind or restore runs, and the runs of its
expert have ended. From here the copy regions are reserved. -/
def rowUpdateOpen (handle : Nat) (s : State) : Host.Outcome State Fault Refusal :=
  match s.shard? handle with
  | none => .next s
  | some x =>
    match x.ready with
    | [] => .next s
    | r :: _ =>
      if decide (x.st ≠ .committed) || x.rebind.isSome || x.restore.isSome ||
         !(match x.expert with | some e => s.expertQuiet e | none => true) then .next s
      else if s.commitTorn x.skein handle then .next (s.commitCritical x.skein handle)
      else
        let x := match x.staged with
          | some (v, p) => if verDiff x.version v ≥ 0 then { x with params := p, staged := none } else x
          | none => x
        let o := x.opening
        .next (s.setShard handle { x with st := .opened, consts := o.1, next := 0, sent := 0, acked := 0, pend := [],
                                          sealSent := false, mirrorBad := false, rubColl := r.coll,
                                          sat := min cMax (x.sat + o.2.sat), inv := min cMax (x.inv + o.2.inv) })

/-- A begun operation of a Stitch that still waits for answers accesses a copy region (R390 step 2). -/
def State.copiesInFlight (s : State) (x : Shard) : Bool :=
  let rs := s.copyRegions x
  s.tiles.any (fun t => ((t.2.eng.flatMap (·.2)) ++ (t.2.slots.flatMap (fun p => p.2.mem))).any (fun o =>
    o.begun && !o.done && (reachRanges t.1 o.c).any (fun a => match s.place? a.1 with
      | .here b => addrSpace b == 0 && rs.any (fun r => overlaps (bits b 0 37) a.2 r.1 r.2)
      | .far _ _ => false)))

/-- The gradient of a slice: what the collective or the expert passed, or the tensor of UPD_APPLY; `none` where a word of
it is uncorrectable. -/
def State.gradOf (s : State) (x : Shard) (r : GradSlice) : State × Option (List Num) :=
  let cnt := min 1024 (x.n - 1024 * r.s)
  if r.bad then (s, none)
  else if !r.g.isEmpty then (s, some ((List.range cnt).map (fun i => Fmt.decode .f32 (r.g.getD i 0))))
  else
    let w := x.gradFmt.width / 8
    match s.firstUe (dramKey (x.src + 1024 * r.s * w)) (cnt * w) with
    | some u => (s.logUe u, none)
    | none => (s, some ((List.range cnt).map (fun i => s.arrElem x.src x.gradFmt (1024 * r.s + i))))

/-- The first uncorrectable word of a slice's stored state. -/
def State.sliceUe (s : State) (x : Shard) (sl cnt : Nat) : Option Nat :=
  x.arrays.findSome? (fun a => s.firstUe (dramKey (a.1 + 1024 * sl * (a.2.width / 8))) (cnt * (a.2.width / 8)))

/-- New stored bits of the elements of a slice, array by array, the counts (R376), and for each element its number and the terms of
R381 as F32 bits: (w' − w)² and w². -/
def State.sliceValues (s : State) (x : Shard) (sl : Nat) (gs : List Num) : List (List Nat) × Cnts × List (Nat × Nat × Nat) :=
  let ms := x.arrays.tail
  let rs := gs.zipIdx.map (fun p =>
    let e := 1024 * sl + p.2
    let w0 := s.arrElem x.addr x.masterFmt e
    let y := x.element p.1 w0 (ms.map (fun a => s.arrElem a.1 a.2 e))
    let w := rnd x.masterFmt (x.masterMode x.version e) y.1
    let m := y.2.1.map (fun v => rnd x.momentFmt .rn v)
    let d := (add32 .rn y.1 w0.negate).1
    let sq (v : Num) : Nat := Fmt.encode .f32 (mul32 .rn v v).1
    (x.masterFmt.encode w.1 :: m.map (fun v => x.momentFmt.encode v.1), m.foldl (fun c v => c.add v.2) (y.2.2.add w.2), (e, sq d, sq w0)))
  ((List.range x.arrays.length).map (fun i => rs.map (fun r => r.1.getD i 0)), rs.foldl (fun c r => c.add r.2.1) {}, rs.map (·.2.2))

/-- The terms of a slice go to the layers that hold its elements. -/
def Ratio.take (l : Ratio) (ts : List (Nat × Nat × Nat)) : Ratio :=
  { l with terms := l.terms ++ (ts.filter (fun t => decide (l.first ≤ t.1) && decide (t.1 < l.first + l.count))).map (·.2) }

/-- Store the slice's arrays. -/
def State.storeSlice (s : State) (x : Shard) (sl : Nat) (vs : List (List Nat)) : State :=
  (x.arrays.zip vs).foldl (fun s a =>
    let w := a.1.2.width / 8
    (s.store (dramKey (a.1.1 + 1024 * sl * w)) (leBytes (a.2.length * w) (packBits a.1.2 a.2))).1) s

/-- An F32 sum whose order the spec leaves open (R381): two of the terms, which ones `u` says, are added and their sum put in their
place, until one is left. Every order is that of some `u` (free value: entry RATIO). -/
def sumInOrder : Nat → Nat → List Num → Num
  | 0, _, l => l.headD Num.zero
  | fuel + 1, u, l =>
    let n := l.length
    let i := u % n
    let l' := l.eraseIdx i
    let j := u / n % (n - 1)
    let v := (add32 .rn (l.getD i Num.zero) (l'.getD j Num.zero)).1
    sumInOrder fuel (u / n / (n - 1)) (v :: l'.eraseIdx j)

/-- q of a layer: the root of the ratio of its sums, in orders that `u` and `v` say (R381). -/
def Ratio.ratio (l : Ratio) (u v : Nat) : Num :=
  let sum (u : Nat) (f : Nat × Nat → Nat) : Num := sumInOrder (l.terms.length - 1) u (l.terms.map (fun t => Fmt.decode .f32 (f t)))
  (sqrt32 (div32 (sum u (·.1)) (sum v (·.2))).1).1

/-- Ratio monitoring at the end of an update (R381). -/
def State.ratios (s : State) (h : Nat) (x : Shard) : State :=
  let r := x.layers.zipIdx.foldl (fun (a : State × List Ratio) p =>
    let u := a.1.fresh
    let w := u.2.fresh
    let v := p.1.ratio u.1 w.1
    let q := Fmt.encode .f32 v
    let out := v.isNan || Num.lt v (Fmt.decode .f32 p.1.lo) || Num.lt (Fmt.decode .f32 p.1.hi) v
    let s := if out then w.2.logRaise 0x0D01 0 0 (srcOf 1 x.skein) 0 (h % 1024 + p.2 * 2 ^ 10 + q * 2 ^ 32) else w.2
    (s, a.2 ++ [{ p.1 with q := q, terms := [], excursions := if out then min cMax (p.1.excursions + 1) else p.1.excursions }])) (s, [])
  r.1.setShard h { x with layers := r.2 }

/-- The first uncorrectable word of the master. -/
def State.masterUe (s : State) (x : Shard) : Option Nat := s.firstUe (dramKey x.addr) (x.n * (x.masterFmt.width / 8))

/-- Every element is processed (R390 step 3, R393, R394): the copies follow the stored master, which must be readable. -/
def State.endUpdate (s : State) (h : Nat) : State :=
  match s.shard? h with
  | none => s
  | some x =>
    match s.masterUe x with
    | some u => (s.logUe u).tear h
    | none =>
    let s := (s.writeCopies x x.version).ratios h x
    match s.shard? h with
    | none => s
    | some x =>
      if x.partner = 0xFFFFF then (s.setShard h { x with st := .sealing }).commitShard h false s.time.pip
      else if x.mirrorBad then s.loseShard h x
      else (s.setShard h { x with st := .sealing }).trySeal h

/-- Apply one slice. -/
def State.applySlice (s : State) (h : Nat) (x : Shard) (r : GradSlice) : State :=
  let k := x.skein
  let s := s.takeUp k (.slice h r.s)
  let g := s.gradOf x r
  match g.2 with
  | none => g.1.tear h
  | some gs =>
    let s := g.1
    match s.sliceUe x r.s gs.length with
    | some u => (s.logUe u).tear h
    | none =>
      let v := s.sliceValues x r.s gs
      let s := s.storeSlice x r.s v.1
      let sum := gs.length + moveEu (2 * gs.length * x.b + (if r.g.isEmpty then gs.length * (x.gradFmt.width / 8) else 0))
      let e := s.energyOf k sum
      let s := ((s.charge k clsUpdate ((gs.length + 127) / 128) sum).noteEst k (keyShard h) e).bumpBy .upd k ucElems gs.length
      let chunks := if x.partner ≠ 0xFFFFF ∧ !x.mirrorBad then [2 * r.s, 2 * r.s + 1].filter (fun c => decide (c < x.chunkNum)) else []
      let y := { x with ready := x.ready.erase r, next := x.next + 1, pend := x.pend ++ chunks, layers := x.layers.map (·.take v.2.2),
                        sat := min cMax (x.sat + v.2.1.sat), inv := min cMax (x.inv + v.2.1.inv) }
      let s := s.setShard h y
      if y.next ≥ y.sliceNum then s.endUpdate h else s

/-- PIPE_SLICE (R376 to R382, R390, R426): a slice that the Dealer started is applied; a held class waits. -/
def rowPipeSlice (handle : Nat) (s : State) : Host.Outcome State Fault Refusal :=
  match s.shard? handle with
  | none => .next s
  | some x =>
    let started := (s.dealer x.skein).started
    match x.ready.find? (fun r => r.coll == x.rubColl && started.contains (.slice handle r.s)) with
    | none => .next s
    | some r =>
      if decide (x.st ≠ .opened) || s.copiesInFlight x then .next s
      else if !s.mayIssue x.skein clsUpdate then .next (s.noteHold x.skein clsUpdate)
      else .next (s.applySlice handle x r)

/-- An ST_OK answer to a shard's SEAL, stamped before a limit and in time, waits for delivery (R392; 02 R52). -/
def State.sealAnswered (s : State) (h lim : Nat) : Bool :=
  s.route.reqs.any (fun r => decide (r.who = .seal h) && s.buf.frames.any (fun q => q.local && q.f.vc == 2 && q.f.ty == 11 &&
    decide (q.stamp < lim) && s.inTime r q && s.reqFor q.f == some r && bits q.f.spec 0 8 == 0))

/-- RUB_COMMIT_TIMEOUT (R392): no commit by t_l + coll_timeout: the root fails the collective, every rank named. -/
def execRubCommitTimeout (group seq : Nat) (s : State) : Host.Outcome State Fault Refusal :=
  match tabGet? s.coll group with
  | none => .next s
  | some g =>
    match g.coll? seq with
    | none => .next s
    | some c =>
      match c.passed with
      | none => .next s
      | some t =>
        if g.parent.isNone && chRub c.hdr && decide (t + g.timeout ≤ s.time.pip) &&
           !(match g.rub with | some h => s.sealAnswered h (t + g.timeout) | none => false) then
          .next (s.failColl group c .timeout [(0, g.n)] false false)
        else .next s

/-! ### Restoring (R395) -/

/-- Send the next reads of a restore, at most `fuel` of them. -/
def State.askRestore (s : State) (h : Nat) : Nat → State
  | 0 => s
  | fuel + 1 =>
    match s.shard? h with
    | none => s
    | some x =>
      match x.restore with
      | none => s
      | some r =>
        let len := if r.stage = 0 then 64 else 64 + x.region
        if r.pos ≥ len then s
        else
          let n := min 8192 (len - r.pos)
          let s := s.setShard h { x with restore := some { r with pos := r.pos + n, left := r.left + 1 } }
          (s.farRead (256 * x.skein) (.restore h r.stage) 0 (r.far + r.pos) n).1.askRestore h fuel

/-- A restore ends without effect; the shard of a create goes. -/
def State.endRestore (s : State) (h : Nat) (st : Status) : State :=
  match s.shard? h with
  | none => s
  | some x =>
    match x.restore with
    | none => s
    | some r =>
      let s := s.dropAsks h
      let s := if r.create then s.setUpd { s.upd with shards := tabDel s.upd.shards h } else s.setShard h { x with restore := none }
      s.finish r.ticket st []

/-- A rebind is sent again from its first chunk. -/
def State.resendRebind (s : State) (h : Nat) : State :=
  match s.shard? h with
  | none => s
  | some x =>
    match x.rebind with
    | none => s
    | some _ =>
      (s.dropAskers (fun a => match a with | .mirror y _ => y == h | .seal y => y == h | _ => false)).setShard h
        { x with pend := List.range x.chunkNum, sent := 0, acked := 0, sealSent := false, mirrorBad := false }

/-- Every byte of the slot has come: v_s is written, its copies regenerated, and it commits (R377, R395); a create is mirrored in full
before that, where there is a partner (Table 13-6). UPD_APPLYs that wait for another version end with ST_EPOCH. -/
def State.finishRestore (s : State) (h : Nat) (x : Shard) (r : Restore) : State :=
  let at0 (o n : Nat) : Nat := leNat (memGetAll r.bytes (r.far + o) n)
  let v := at0 0 4
  let s := s.write (dramKey x.addr) (memGetAll r.bytes (r.far + 64) x.region)
  let other := decide (v ≠ x.version)
  let mirror := r.create && decide (x.partner ≠ 0xFFFFF)
  let y := { x with st := if mirror then .torn else .committed, version := v, b1t := at0 4 4, b2t := at0 8 4, restore := none, next := 0,
                    consts := [], rubColl := none, mirrorBad := false, layers := x.layers.map (fun l => { l with terms := [] }),
                    ticket := if other then none else x.ticket, later := if other then [] else x.later,
                    ready := if other && x.ticket.isSome then [] else x.ready,
                    rebind := if mirror then some { fid := x.partner, idx := x.idx, ticket := r.ticket, create := true } else x.rebind }
  let s := if other && x.ticket.isSome then s.dropWork x.skein (isSliceOf h) else s
  let s := ((s.setShard h y).writeCopies y ((v + 2 ^ 32 - 1) % 2 ^ 32)).bump .upd x.skein ucRestore
  let s := if other then s.finishAll (x.ticket.toList ++ x.later) .epoch else s
  let s := s.resendRebind h
  if mirror then s else (s.stepExpert x.expert v).finish r.ticket .ok [uf 4 v, uf 8 s.time.pip]

/-- A restore all of whose bytes have come ends once no run of the shard's expert is in progress (11 R341). -/
def State.tryRestore (s : State) (h : Nat) : State :=
  match s.shard? h with
  | none => s
  | some x =>
    match x.restore with
    | none => s
    | some r =>
      if decide (r.stage = 1) && decide (r.left = 0) && decide (r.pos ≥ 64 + x.region) && (x.expert.map s.expertQuiet).getD true then
        s.finishRestore h x r
      else s

/-- An answer to a read of a restore. -/
def State.restoreAnswer (s : State) (h : Nat) (ans : Except Status (Nat × List Byte)) : State :=
  match s.shard? h with
  | none => s
  | some x =>
    match x.restore, ans with
    | none, _ => s
    | some _, .error e => s.endRestore h e
    | some r, .ok p =>
      let r := { r with bytes := memPutAll r.bytes p.1 p.2, left := r.left - 1 }
      let s := s.setShard h { x with restore := some r }
      if r.stage = 0 then
        if leNat (memGetAll r.bytes (r.far + 12) 4) ≠ x.n ∨ leNat (memGetAll r.bytes (r.far + 16) 1) ≠ x.b ∨
           leNat (memGetAll r.bytes (r.far + 17) 1) ≠ 1 then s.endRestore h .badDesc
        else (s.setShard h { x with restore := some { r with stage := 1 } }).askRestore h 64
      else
        (s.askRestore h 1).tryRestore h

/-! ### The partner (R383, R386, R388, 19 R533) -/

/-- Answers to MIRROR frames that wait to be sent. -/
def State.mirrorAnswers (s : State) : Nat :=
  let is (f : Frame) : Bool := f.ty == 11 && fieldAt f.cells 4 1 == 8
  s.buf.frames.countP (fun q => is q.f) + s.buf.wait.countP (fun w => is w.q.f)

/-- Answer a MIRROR frame. -/
def State.answerMirror (s : State) (q : QFrame) (st : Status) : State :=
  (s.bump .upd q.skein (ucPartner + st.code)).sendSkein q.skein (s.errCompl q.f (fieldAt q.f.cells 8 4) st)

/-- Fields of a MIRROR frame that must be zero or as Table 13-4 says. -/
def mirrorFieldBad (f : Frame) (m : Mirror) : Bool :=
  let h := f.cells
  let kind := fieldAt h 0 1
  let k := fieldAt h 8 4
  let common := fieldAt h 1 1 != m.b || fieldAt h 2 2 != 0 || fieldAt h 32 32 != 0 || bits f.spec 0 14 != 0
  if kind = 1 then
    let cnt := min 512 (m.n - 512 * k)
    common || fieldAt h 16 16 != 0 || decide (512 * k ≥ m.n) || fieldAt h 12 4 != cnt || f.n != 1 + (cnt * m.b + 63) / 64
  else common || kind != 2 || k != 0xFFFFFFFF || fieldAt h 12 4 != 0 || fieldAt h 24 4 != m.n ||
    fieldAt h 28 4 != (m.n + 511) / 512

/-- The refusal of R386. -/
def State.mirrorStatus (s : State) (f : Frame) : Except Status Mirror :=
  match tabGet? s.upd.mirrors (bits f.spec 14 10) with
  | none => .error .badDesc
  | some m =>
    let v := fieldAt f.cells 4 4
    if m.fid ≠ f.src then .error .badDesc
    else if mirrorFieldBad f m then .error .badField
    else match m.sealed with
      | some (x, _) => if v = x ∨ v = (x + 1) % 2 ^ 32 then .ok m else .error .epoch
      | none => .ok m

/-- Write a chunk into the receiving slot: its part of each array. -/
def State.putChunk (s : State) (m : Mirror) (k : Nat) (data : List Byte) : State × Bool :=
  let cnt := min 512 (m.n - 512 * k)
  let r := (m.widths.zip (arrayOffs m.n m.widths (m.slot m.recvSlot + 64))).foldl
    (fun (a : State × Bool × List Byte) w =>
      let x := a.1.store (dramKey (w.2 + 512 * k * w.1)) (a.2.2.take (cnt * w.1))
      (x.1, a.2.1 || x.2, a.2.2.drop (cnt * w.1))) (s, false, data)
  (r.1, r.2.1)

/-- Replace a mirror entry. -/
def State.setMirror (s : State) (i : Nat) (m : Mirror) : State := s.setUpd { s.upd with mirrors := tabPut s.upd.mirrors i m }

/-- A MIRROR frame at the head of an ingress's queue, of a kind: nothing while 4,096 answers wait. -/
def State.mirrorRow (s : State) (ing : Nat) (mine : Nat → Bool) (f : State → QFrame → Mirror → State) :
    Host.Outcome State Fault Refusal :=
  match s.localHead ing 4 8 with
  | none => .next s
  | some q =>
    if !mine (fieldAt q.f.cells 0 1) || decide (s.mirrorAnswers ≥ 4096) then .next s
    else
      let r := s.mirrorStatus q.f
      let s := s.charge q.skein clsUpdate 0 (moveEu (64 * (q.f.n - 1)))
      match r with
      | .error e => .next ((s.consume q).answerMirror q e)
      | .ok m => .next (f (s.consume q) q m)

/-- MIRROR_DATA (R386, R388, R533): a frame of kind DATA, or of no kind of Table 13-4. -/
def execMirrorData (ing : Nat) (s : State) : Host.Outcome State Fault Refusal :=
  s.mirrorRow ing (fun k => k != 2) (fun s q m =>
    let i := bits q.f.spec 14 10
    let v := fieldAt q.f.cells 4 4
    let k := fieldAt q.f.cells 8 4
    let new := m.recv != some v
    let m := if new then { m with recv := some v, chunks := [] } else m
    let u := if new then s.store (dramKey (m.slot m.recvSlot + 17)) [0] else (s, false)
    let r := u.1.putChunk m k (q.f.cells.drop 64)
    if u.2 || r.2 then (r.1.setMirror i m).answerMirror q .integrity
    else (r.1.setMirror i { m with chunks := addNew m.chunks k }).answerMirror q .ok)

/-- MIRROR_SEAL (R386): every chunk received, the seal record is written and the slot holds the new v_s. -/
def rowMirrorSeal (ing : Nat) (s : State) : Host.Outcome State Fault Refusal :=
  s.mirrorRow ing (fun k => k == 2) (fun s q m =>
    let i := bits q.f.spec 14 10
    let h := q.f.cells
    let v := fieldAt h 4 4
    let k := q.skein
    if s.commitTorn k (1024 + i) then s.commitCritical k (1024 + i)
    else if m.recv = some v && decide (m.chunks.length ≥ (m.n + 511) / 512) then
      let rec_ := padTo 64 (leBytes 4 v ++ leBytes 4 (fieldAt h 16 4) ++ leBytes 4 (fieldAt h 20 4) ++ leBytes 4 m.n ++
        leBytes 1 m.b ++ [1])
      let w := s.store (dramKey (m.slot m.recvSlot)) rec_
      if w.2 then w.1.answerMirror q .integrity
      else (w.1.setMirror i { m with sealed := some (v, m.recvSlot), recv := none, chunks := [] }).answerMirror q .ok
    else if m.recv = none && (m.sealed.map (·.1)) == some v then s.answerMirror q .ok
    else s.answerMirror q .badDesc)

/-! ### Commands (R374, R375, R379, R394, R395, R398) -/

/-- Opcode rows of shards. -/
def State.shardChks (s : State) (o : Origin) (h : Nat) : List Chk :=
  [badFld 0 (decide (h / 1024 ≠ 0)), s.ownChk o resUpd, ⟨(s.shard? h).isNone, .badDesc, some 0⟩]

/-- Parameters that R375 refuses: one marked +0 that is not +0. -/
def paramsBad (opt : Nat) (p : List Nat) : Bool :=
  opt != 2 && (List.range 4).any (fun i => p.getD (4 + i) 0 != 0)

/-- The eight values of a params block. -/
def parseParams (b : List Byte) : List Nat := (List.range 8).map (fun i => fieldAt b (4 * i) 4)

/-- A copy entry and whether a field is outside its table. -/
def parseCopy (b : List Byte) : Copy × Bool :=
  let c : Copy := { handle := fieldAt b 0 2, role := fieldAt b 2 1, mode := fieldAt b 3 1 }
  (c, decide (bits c.handle 12 2 ≠ 0) || decide (c.role > 1) || decide (c.mode > 2) || decide (fieldAt b 4 12 ≠ 0))

/-- A layer entry. -/
def parseRatio (b : List Byte) : Ratio := { first := fieldAt b 0 4, count := fieldAt b 4 4, lo := fieldAt b 8 4, hi := fieldAt b 12 4 }

/-- The shard of a descriptor (Table 13-2). -/
def parseShard (b : List Byte) : Shard :=
  let nc := fieldAt b 5 1
  let nl := fieldAt b 6 1
  { kind := fieldAt b 1 1, opt := fieldAt b 2 1, fmts := fieldAt b 3 1, skein := fieldAt b 4 1,
    copies := (List.range nc).map (fun i => (parseCopy ((b.drop (128 + 16 * i)).take 16)).1),
    layers := (List.range nl).map (fun i => parseRatio ((b.drop (128 + 16 * (nc + i))).take 16)),
    mirrorCh := fieldAt b 7 1, rows := fieldAt b 8 4, cols := fieldAt b 12 4, version := fieldAt b 16 4,
    seed := fieldAt b 24 8, addr := fieldAt b 32 8, partner := fieldAt b 40 4, idx := fieldAt b 44 2, window := fieldAt b 46 2,
    timeout := fieldAt b 48 4, params := parseParams ((b.drop 64).take 32),
    unprotected := decide (fieldAt b 40 4 = 0xFFFFF) }

/-- A field of a shard descriptor outside its table (ST_BAD_FIELD). -/
def shardFieldBad (b : List Byte) (x : Shard) : Bool :=
  decide (fieldAt b 0 1 ≠ 1) || decide (x.kind > 2) || decide (x.opt > 2) || decide (x.fmts > 15) || (bit x.fmts 1 && !bit x.fmts 0) ||
  decide (x.skein > 3) || decide (fieldAt b 5 1 > 16) || !inRange 1 64 (fieldAt b 6 1) || !inRange 1 8 x.mirrorCh ||
  !inRange 1 (2 ^ 28) x.n || decide (fieldAt b 20 4 ≠ 0) || decide (x.addr % 64 ≠ 0) || decide (x.addr ≥ 2 ^ 37) ||
  decide (x.partner ≥ 2 ^ 20) || decide (x.idx ≥ 1024) || !inRange 1 1024 x.window || !inRange (2 ^ 12) (2 ^ 30) x.timeout ||
  decide (fieldAt b 52 12 ≠ 0) || decide (fieldAt b 96 32 ≠ 0) || paramsBad x.opt x.params ||
  (List.range (fieldAt b 5 1)).any (fun i => (parseCopy ((b.drop (128 + 16 * i)).take 16)).2)

/-- Layer entries that overlap or pass element n. -/
def layersBad (n : Nat) : List Ratio → Bool
  | [] => false
  | l :: r => decide (l.first + l.count > n) || r.any (fun m => overlaps l.first l.count m.first m.count) || layersBad n r

/-- The conditions of R374 answered with ST_BAD_DESC. -/
def State.shardDescBad (s : State) (x : Shard) : Bool :=
  x.copies.any (fun c => (s.copyDesc x c).isNone) || layersBad x.n x.layers ||
  (decide (x.kind = 1) && (match x.copies with | c :: _ => decide (c.role ≠ 0) | [] => true)) ||
  (decide (x.kind = 2) && bit x.fmts 3) || decide (x.partner = s.devFid ∧ x.partner ≠ 0xFFFFF) || s.dramDenied x.addr x.region ||
  decide (x.addr / 2 ^ 35 ≠ x.skein) || decide ((x.addr + x.region - 1) / 2 ^ 35 ≠ x.skein)

/-- A working copy would lie in DRAM that is reserved (01 R28; 09 R275). -/
def State.copiesDenied (s : State) (x : Shard) (cs : List Copy) : Bool :=
  cs.any (fun c => match s.copyDesc x c with
    | some d => s.copyHeld x d || (descRegions d).any (fun r => s.dramDenied r.1 r.2)
    | none => false)

/-- A far address parameter: space 0b10, naming a FID. -/
def farBad (a : Nat) : Bool := addrSpace a != 2 || bits a 42 20 == 0xFFFFF

/-- UPD_SHARD_CREATE (R372, R374, R377, R395, R398): with source 1 the shard is restored from the partner's slot. -/
def execUpdShardCreate (o : Origin) (handle addr len source far : Nat) (s : State) : Host.Outcome State Fault Refusal :=
  let b0 := s.read (dramKey addr) 128
  let n := 128 + 16 * (min 16 (fieldAt b0 5 1) + min 64 (fieldAt b0 6 1))
  let b := s.read (dramKey addr) n
  let x := parseShard b
  s.loading o 0x0901 [handle, addr, len, source, far] addr len
    (s.addrChks 1 addr len 1 ++
     [badFld 0 (decide (handle / 1024 ≠ 0) || decide (handle = 0)), badFld 1 (shardFieldBad b x), badFld 3 (decide (source > 1)),
      badFld 4 (decide (source = 1) && farBad far), s.ownChk o resUpd,
      ⟨(s.shard? handle).isSome, .badDesc, some 0⟩, ⟨decide (len ≠ n), .badDesc, some 2⟩, ⟨s.shardDescBad x, .badDesc, none⟩,
      ⟨s.copiesDenied x x.copies, .denied, none⟩])
    (fun t s =>
      if source = 1 then
        let r : Restore := { far := far, ticket := t, create := true }
        ((s.setShard handle { x with st := .torn, restore := some r }).askRestore handle 1, .later)
      else match s.masterUe x with
        | some u => (s.logUe u, .done .integrity [])
        | none =>
          ((s.setShard handle x).writeCopies x ((x.version + 2 ^ 32 - 1) % 2 ^ 32), .done .ok [uf 4 x.version, uf 8 s.time.pip]))

/-- A condition on the shard of a handle. -/
def State.onShard (s : State) (h : Nat) (f : Shard → Bool) : Bool := match s.shard? h with | some x => f x | none => false

/-- A shard ends: UPD_APPLY and what else waits complete with ST_ABORTED. -/
def State.endShard (s : State) (h : Nat) (x : Shard) : State :=
  let s := (s.dropAsks h).dropWork x.skein (isSliceOf h)
  let s := s.setUpd { s.upd with shards := tabDel s.upd.shards h }
  (x.ticket.toList ++ x.later ++ (x.rebind.map (·.ticket)).toList ++ (x.restore.map (·.ticket)).toList).foldl (fun s t => s.finish t .aborted []) s

/-- UPD_SHARD_DESTROY (R398): a rebind, a restore or an UPD_APPLY that waits ends with ST_ABORTED. -/
def execUpdShardDestroy (o : Origin) (handle : Nat) (s : State) : Host.Outcome State Fault Refusal :=
  let named := s.coll.any (fun g => g.2.rub == some handle) || s.onShard handle (fun x => x.expert.isSome)
  s.update o 0x0902 [handle]
    (s.shardChks o handle ++
     [⟨named || s.onShard handle (fun x => decide (x.st = .opened) || decide (x.st = .sealing)), .busy, none⟩])
    (fun s => match s.shard? handle with | some x => s.endShard handle x | none => s) (fun _ => [])

/-- UPD_APPLY (R390, R394, R398): every slice of the tensor becomes ready; the command completes at the commit. One more
while another of the same version waits finds its version gone when that one commits. -/
def execUpdApply (o : Origin) (handle addr version : Nat) (s : State) : Host.Outcome State Fault Refusal :=
  let len := match s.shard? handle with | some x => x.n * (x.gradFmt.width / 8) | none => 0
  s.command o 0x0903 [handle, addr, version]
    (s.addrChks 1 addr len 1 ++ s.shardChks o handle ++
     [⟨s.onShard handle (fun x => decide (x.kind ≠ 0)), .badDesc, some 0⟩,
      ⟨s.onShard handle (fun x => decide (x.st ≠ .committed)), .busy, none⟩,
      ⟨s.onShard handle (fun x => decide (x.version ≠ version)), .epoch, none⟩])
    (fun t s => match s.shard? handle with
      | none => (s, .done .ok [])
      | some x =>
        if x.ticket.isSome then (s.setShard handle { x with later := x.later ++ [t] }, .later) else
        let s := s.setShard handle { x with ticket := some t, src := addr }
        ((List.range x.sliceNum).foldl (fun s i => s.sliceReady handle { s := i } {}) s, .later))

/-- UPD_PARAMS_SET (R375, R379). -/
def execUpdParamsSet (o : Origin) (handle fromX : Nat) (params : List Byte) (s : State) : Host.Outcome State Fault Refusal :=
  let p := parseParams params
  s.update o 0x0904 [handle, fromX, leNat params]
    (s.shardChks o handle ++
     [badFld 2 (s.onShard handle (fun x => paramsBad x.opt p)),
      ⟨s.onShard handle (fun x => decide (verDiff fromX x.version < 0) ||
        (decide (fromX = x.version) && decide (x.st ≠ .committed))), .late, none⟩])
    (fun s => match s.shard? handle with
      | some x => s.setShard handle { x with staged := some (fromX, p) }
      | none => s) (fun _ => [])

/-- UPD_SHARD_STATUS (R387, R398). -/
def rowUpdShardStatus (o : Origin) (handle clear : Nat) (s : State) : Host.Outcome State Fault Refusal :=
  s.command o 0x0905 [handle, clear]
    ([badFld 0 (decide (handle / 1024 ≠ 0)), ⟨(s.shard? handle).isNone, .badDesc, some 0⟩] ++ clearChks o 1 clear)
    (fun _ s => match s.shard? handle with
      | none => (s, .done .ok [])
      | some x =>
        if s.commitTorn x.skein handle then (s.commitCritical x.skein handle, .done .integrity [])
        else
          let st := x.staged.getD (0, [])
          let res := [uf 1 x.st.code, uf 4 x.version, uf 4 x.b1t, uf 4 x.b2t, uf 4 x.sent, uf 4 x.acked, uf 4 x.partner, uf 2 x.idx,
            uf 1 (b2n x.unprotected), bf 32 (leNat (st.2.flatMap (leBytes 4))), uf 4 st.1] ++
            listFlds (x.layers.map (fun l => [uf 4 l.q, uf 4 l.excursions])) ++ [uf 4 x.sat, uf 4 x.inv]
          (if clear = 1 then s.setShard handle { x with sat := 0, inv := 0, layers := x.layers.map (fun l => { l with excursions := 0 }) }
           else s, .done .ok res))

/-- UPD_SHARD_REBIND (R395, R398): a full mirror of the present state to a new partner; a rebind in progress ends with ST_ABORTED. -/
def execUpdShardRebind (o : Origin) (handle fid index : Nat) (s : State) : Host.Outcome State Fault Refusal :=
  s.command o 0x0906 [handle, fid, index]
    (s.shardChks o handle ++
     [badFld 1 (decide (fid ≥ 0xFFFFF)), badFld 2 (decide (index ≥ 1024)), ⟨decide (fid = s.devFid), .badDesc, some 1⟩,
      ⟨s.onShard handle (fun x => decide (x.st = .opened) || decide (x.st = .sealing) || decide (x.st = .torn)), .busy, none⟩])
    (fun t s => match s.shard? handle with
      | none => (s, .done .ok [])
      | some x =>
        ((s.finishAll (x.rebind.map (·.ticket)).toList .aborted).setShard handle
          { x with rebind := some { fid := fid, idx := index, ticket := t } } |>.resendRebind handle, .later))

/-- UPD_SHARD_RESTORE (R395, R398): a restore in progress ends with ST_ABORTED. -/
def execUpdShardRestore (o : Origin) (handle far : Nat) (s : State) : Host.Outcome State Fault Refusal :=
  s.command o 0x0907 [handle, far]
    (s.shardChks o handle ++
     [badFld 1 (farBad far),
      ⟨s.onShard handle (fun x => decide (x.st = .opened) || decide (x.st = .sealing)), .busy, none⟩])
    (fun t s => match s.shard? handle with
      | none => (s, .done .ok [])
      | some x =>
        let old := x.restore.map (·.ticket)
        let s := (s.dropAskers (fun a => match a with | .restore y _ => y == handle | _ => false)).finishAll old.toList .aborted
        ((s.setShard handle { x with restore := some { far := far, ticket := t, create := (x.restore.map (·.create)).getD false } }).askRestore
          handle 1, .later))

/-- UPD_COMMIT_FORCE (R398): the loss of redundancy is accepted. -/
def rowUpdCommitForce (o : Origin) (handle version : Nat) (s : State) : Host.Outcome State Fault Refusal :=
  s.update o 0x0908 [handle, version]
    (s.shardChks o handle ++
     [badFld 1 (s.onShard handle (fun x => decide (version ≠ (x.version + 1) % 2 ^ 32))),
      ⟨s.onShard handle (fun x => decide (x.st ≠ .lost)), .busy, none⟩])
    (fun s => s.commitShard handle true s.time.pip) (fun s => [uf 8 s.time.pip])

/-- UPD_COPY_ADD (R374, R377, R398). -/
def execUpdCopyAdd (o : Origin) (handle : Nat) (entry : List Byte) (s : State) : Host.Outcome State Fault Refusal :=
  let c := parseCopy entry
  s.command o 0x0909 [handle, leNat entry]
    (s.shardChks o handle ++
     [badFld 1 c.2, ⟨s.onShard handle (fun x => (s.copyDesc x c.1).isNone), .badDesc, some 1⟩,
      ⟨s.onShard handle (fun x => s.copiesDenied x [c.1]), .denied, none⟩,
      ⟨s.onShard handle (fun x => decide (x.copies.length ≥ 16)), .capacity, none⟩,
      ⟨s.onShard handle (fun x => decide (x.st ≠ .committed)), .busy, none⟩])
    (fun _ s => match s.shard? handle with
      | none => (s, .done .ok [])
      | some x =>
        match s.masterUe x with
        | some u => (s.logUe u, .done .integrity [])
        | none =>
          ((s.setShard handle { x with copies := x.copies ++ [c.1] }).writeCopy x ((x.version + 2 ^ 32 - 1) % 2 ^ 32) c.1,
           .done .ok [uf 1 x.copies.length]))

/-- UPD_COPY_DROP (R398). -/
def execUpdCopyDrop (o : Origin) (handle copy : Nat) (s : State) : Host.Outcome State Fault Refusal :=
  s.update o 0x090A [handle, copy]
    (s.shardChks o handle ++
     [badFld 1 (s.onShard handle (fun x => decide (copy ≥ x.copies.length) || (decide (x.kind = 1) && copy == 0))),
      ⟨s.onShard handle (fun x => decide (x.st ≠ .committed)), .busy, none⟩])
    (fun s => match s.shard? handle with
      | some x => s.setShard handle { x with copies := x.copies.eraseIdx copy }
      | none => s) (fun _ => [])

/-- A slot address out of the address space. -/
def slotBad (a n : Nat) : Bool := decide (a + n > 2 ^ 37)

/-- UPD_MIRROR_CREATE (R383, R398). -/
def execUpdMirrorCreate (o : Origin) (index fid handle n b slot0 slot1 : Nat) (s : State) : Host.Outcome State Fault Refusal :=
  let m : Mirror := { fid := fid, handle := handle, n := n, b := b, slot0 := slot0, slot1 := slot1 }
  s.update o 0x090B [index, fid, handle, n, b, slot0, slot1]
    [badFld 0 (decide (index > 1023)), badFld 1 (decide (fid ≥ 0xFFFFF)), badFld 2 (!inRange 1 1023 handle), badFld 3 (!inRange 1 (2 ^ 28) n),
     badFld 4 (!inRange 4 12 b), badFld 5 (slotBad slot0 m.slotLen), badFld 6 (slotBad slot1 m.slotLen), s.ownChk o resUpd,
     ⟨(tabGet? s.upd.mirrors index).isSome, .badDesc, some 0⟩, ⟨s.dramDenied slot0 m.slotLen, .badDesc, some 5⟩,
     ⟨s.dramDenied slot1 m.slotLen || overlaps slot0 m.slotLen slot1 m.slotLen, .badDesc, some 6⟩]
    (fun s => s.setMirror index m) (fun _ => [])

/-- The refusals of a mirror index. -/
def State.mirrorChks (s : State) (i : Nat) : List Chk :=
  [badFld 0 (decide (i > 1023)), ⟨(tabGet? s.upd.mirrors i).isNone, .badDesc, some 0⟩]

/-- UPD_MIRROR_BIND (R398): the slots are kept. -/
def execUpdMirrorBind (o : Origin) (index fid handle : Nat) (s : State) : Host.Outcome State Fault Refusal :=
  s.update o 0x090C [index, fid, handle]
    (s.mirrorChks index ++ [badFld 1 (decide (fid ≥ 0xFFFFF)), badFld 2 (!inRange 1 1023 handle), s.ownChk o resUpd])
    (fun s => match tabGet? s.upd.mirrors index with
      | some m => s.setMirror index { m with fid := fid, handle := handle }
      | none => s) (fun _ => [])

/-- UPD_MIRROR_DESTROY (R398). -/
def execUpdMirrorDestroy (o : Origin) (index : Nat) (s : State) : Host.Outcome State Fault Refusal :=
  s.update o 0x090D [index] (s.ownChk o resUpd :: s.mirrorChks index)
    (fun s => s.setUpd { s.upd with mirrors := tabDel s.upd.mirrors index }) (fun _ => [])

/-- UPD_MIRROR_STATUS (R398): a FRESH entry has version and address 0. -/
def rowUpdMirrorStatus (o : Origin) (index : Nat) (s : State) : Host.Outcome State Fault Refusal :=
  s.command o 0x090E [index] (s.mirrorChks index) (fun _ s => match tabGet? s.upd.mirrors index with
    | none => (s, .done .ok [])
    | some m =>
      if s.commitTorn (s.mirrorSkein index) (1024 + index) then (s.commitCritical (s.mirrorSkein index) (1024 + index), .done .integrity [])
      else
        let v := m.sealed.getD (0, 0)
        let far := if m.sealed.isSome then 2 ^ 63 + s.devFid * 2 ^ 42 + m.slot v.2 else 0
        (s, .done .ok [uf 4 v.1, uf 8 far, uf 4 (m.recv.getD 0), uf 4 m.chunks.length]))

/-- UPD_COUNTERS (R398). -/
def execUpdCounters (o : Origin) (skein clear : Nat) (s : State) : Host.Outcome State Fault Refusal :=
  s.command o 0x090F [skein, clear] (badFld 0 (decide (skein > 3)) :: clearChks o 1 clear) (fun _ s =>
    let c (i : Nat) : Fld := uf 4 (s.count .upd skein i)
    (s.clearIf clear .upd skein, .done .ok ([ucElems, ucCommit, ucForce, ucRestore, ucSent, ucAnswered].map c ++
      (List.range 17).map (fun i => c (ucFailed + i)) ++ (List.range 17).map (fun i => c (ucPartner + i)))))

/-! ### The end of a Skein's shards (R396) -/

/-- A reset of a Skein ends its shards and the mirror entries whose slots lie there; RUB collectives of those shards fail
with ST_ABORTED and the roots are released. -/
def State.endSkeinShards (s : State) (k : Nat) : State :=
  let gone := s.upd.shards.filter (fun e => e.2.skein == k)
  let s := gone.foldl (fun s e => s.endShard e.1 e.2) s
  let s := s.coll.foldl (fun s g => match g.2.rub with
    | some h =>
      if gone.any (fun e => e.1 == h) then
        let s := (g.2.colls.filter (fun c => chRub c.hdr)).foldl (fun s c => s.failColl g.1 c .aborted [(0, g.2.n)] false false) s
        (s.flowGroup g.1).withGroup g.1 (fun g => { g with rub := none })
      else s
    | none => s) s
  s.setUpd { s.upd with mirrors := s.upd.mirrors.filter (fun e =>
    !(overlaps (k * 2 ^ 35) (2 ^ 35) e.2.slot0 e.2.slotLen || overlaps (k * 2 ^ 35) (2 ^ 35) e.2.slot1 e.2.slotLen)) }

end Sys2Proof.Machine
end

