-- ==== Sys2Proof/Machine/Ladder.lean ====
section
/-! DEFINITION. Ladder engines: streams, batches, operations, output, commands (14). -/

namespace Sys2Proof.Machine

open Sys2Proof

/-! ### Descriptors (Table 14-1) -/

/-- A field of a stream's descriptor. -/
def Stream.f (x : Stream) (o n : Nat) : Nat := fieldAt x.d o n
def Stream.op (x : Stream) : Nat := x.f 1 1
def Stream.size (x : Stream) : Nat := x.f 12 2
def Stream.wait (x : Stream) : Nat := x.f 16 4
def Stream.memory (x : Stream) : Bool := x.f 20 1 == 1
def Stream.nSrc (x : Stream) : Nat := x.f 21 1
def Stream.inAddr (x : Stream) : Nat := x.f 24 8
def Stream.inCount (x : Stream) : Nat := x.f 32 4
def Stream.outBase (x : Stream) : Nat := x.f 36 8
def Stream.stride (x : Stream) : Nat := x.f 44 4
def Stream.ring (x : Stream) : Nat := x.f 48 1
def Stream.table (x : Stream) : Nat := x.f 52 8
def Stream.rows (x : Stream) : Nat := x.f 60 4
def Stream.rowBytes (x : Stream) : Nat := x.f 64 2
/-- The FIDs of the sources, in rank order. -/
def Stream.sources (x : Stream) : List Nat := (List.range x.nSrc).map (fun i => x.f (128 + 4 * i) 4)
/-- Records of a full batch a MEMORY stream still has from batch b on. -/
def Stream.memLeft (x : Stream) (b : Nat) : Nat := x.inCount - b * x.size
/-- Length of the table. -/
def Stream.tableLen (x : Stream) : Nat := if x.op = 4 then x.rows * x.rowBytes else if x.op = 5 then 4 * x.rows else 0

/-- The largest output of a batch (Table 14-2). -/
def Stream.maxOut (x : Stream) : Nat :=
  match x.op with | 2 => 8 * x.f 14 2 | 4 => x.rowBytes * x.size | 5 => 0 | _ => 8 * x.size

/-- The key of a stream: 16 × die + number. -/
def ladKey (die stream : Nat) : Nat := 16 * die + stream
/-- A stream by its key. -/
def State.stream? (s : State) (k : Nat) : Option Stream := tabGet? s.lad.streams k
/-- Replace a stream. -/
def State.setStream (s : State) (k : Nat) (x : Stream) : State := s.setLad { s.lad with streams := tabPut s.lad.streams k x }

/-- Counters of a Ladder (Table 14-4): 2n and 2n + 1 records in and out of stream n, 32 + status refusals,
64 + 32 × cause + status batches, then bad indices and headers not delivered. -/
def lnIn (n : Nat) := 2 * n
def lnOut (n : Nat) := 2 * n + 1
def lnRefused := 32
def lnBatch := 64
def lnBad := 240
def lnHeader := 242

/-- Log a Ladder event for which Table 17-4 gives no code: code and detail are free values (DESIGN CHOICE: entry LADLOG). -/
def State.ladLog (s : State) (die status : Nat) : State :=
  let a := s.fresh
  let b := a.2.fresh
  b.2.logRaise (a.1 % 2 ^ 16) 2 status (srcOf 7 (32 + die)) 0 (b.1 % 2 ^ 64)

/-! ### Input and batches (R401 to R404) -/

/-- Records of a frame: its data after the prefix. -/
def Frame.records (f : Frame) : Nat := (f.dataLen - 16) / 8

/-- Records of a batch's frames. -/
def Batch.count (b : Batch) : Nat := (b.frames.map (fun p => p.2.2.f.records)).sum

/-- The open batch closes: it takes the next number and waits to be loaded (R403, R404). -/
def State.closeBatch (s : State) (k : Nat) (close cause : Nat) : State :=
  match s.stream? k with
  | none => s
  | some x =>
    match x.cur with
    | none => s
    | some b =>
      let s := s.setStream k { x with cur := none, nextBatch := x.nextBatch + 1 }
      s.setLad { s.lad with closed := s.lad.closed ++ [(k, x.nextBatch, { b with close := close, cause := cause })] }

/-- The refusal of a frame addressed to a stream (R402, R403). -/
def Stream.refuses (x : Stream) (f : Frame) : Option Status :=
  if (f.dataLen - 16) % 8 ≠ 0 ∨ f.dataLen < 16 ∨ f.ch ≥ 8 ∨ f.records > x.size ∨ f.prefixBad then some .badField
  else if !x.sources.contains f.src then some .denied else none

/-- Put an accepted frame into the open batch, opening one at its stamp; the last-flag rule closes it. -/
def State.joinBatch (s : State) (k : Nat) (q : QFrame) : State :=
  match s.stream? k with
  | none => s
  | some x =>
    let rank := (x.sources.findIdx? (· == q.f.src)).getD 0
    let seq := tabGet x.seqs 0 rank
    let b := x.cur.getD { t0 := q.stamp }
    let b := { b with frames := b.frames ++ [(rank, seq, q)], lasts := if q.f.last then addNew b.lasts rank else b.lasts }
    let s := s.setStream k { x with cur := some b, seqs := tabPut x.seqs rank ((seq + q.f.records) % 2 ^ 32) }
    if (List.range x.nSrc).all (fun r => b.lasts.contains r) then s.closeBatch k q.stamp 1 else s

/-- LADDER_STREAM_INPUT (R401 to R403): a DATA frame for a stream, taken from its queue; its hanks stay charged to its
account until its batch is loaded. -/
def State.ladderInput (s : State) (k : Nat) (q : QFrame) : State :=
  match s.stream? k with
  | none => s
  | some x =>
    let die := k / 16
    match x.refuses q.f with
    | some st =>
      let s := ((s.consume q).bump .lad die (lnRefused + st.code)).bump .local q.die lcLadder
      if q.f.ackReq then s.sendFrom die 2 (s.errCompl q.f q.f.cookie st) else s
    | none =>
      let s := s.dropQueued q
      let s := match x.cur with
        | none => s
        | some b =>
          if b.t0 + x.wait ≤ q.stamp then s.closeBatch k (b.t0 + x.wait) 2
          else if b.count + q.f.records > x.size then s.closeBatch k q.stamp 0 else s
      let s := s.joinBatch k q
      if q.f.ackReq then s.sendFrom die 2 (s.errCompl q.f q.f.cookie .ok) else s

/-- A frame for a stream, stamped before a pip, that the engine has not taken yet (R52). -/
def State.streamFrameBefore (s : State) (k pip : Nat) : Bool :=
  s.buf.frames.any (fun q => decide (q.dest = .ladder) && decide (q.f.ty = 0) && decide (q.stamp < pip) &&
    s.ladderKey q.f.offset == some k)

/-- LADDER_BATCH_DEADLINE (R403): the counter reaches t0 + batch_wait, frames stamped earlier being taken first (R52). -/
def execLadderBatchDeadline (die stream : Nat) (s : State) : Host.Outcome State Fault Refusal :=
  match s.stream? (ladKey die stream) with
  | none => .next s
  | some x =>
    match x.cur with
    | none => .next s
    | some b => if b.t0 + x.wait ≤ s.time.pip && !s.streamFrameBefore (ladKey die stream) (b.t0 + x.wait) then .next (s.closeBatch (ladKey die stream) (b.t0 + x.wait) 2) else .next s

/-- The next batch of a MEMORY stream stands to be loaded (R403). -/
def State.formMemory (s : State) (k : Nat) : State :=
  match s.stream? k with
  | none => s
  | some x =>
    if !x.memory || x.memLeft x.nextBatch = 0 then s
    else
      let b : Batch := { t0 := s.time.pip, close := s.time.pip, cause := if x.memLeft x.nextBatch ≤ x.size then 4 else 0 }
      let s := s.setStream k { x with nextBatch := x.nextBatch + 1 }
      s.setLad { s.lad with closed := s.lad.closed ++ [(k, x.nextBatch, b)] }

/-! ### Order and predicates (R405, R406) -/

/-- ord (R405). -/
def ladOrd (x kind : Nat) : Nat :=
  if kind = 0 then x
  else if kind = 1 then x ^^^ 0x80000000
  else if bit x 31 then 0xFFFFFFFF - x
  else x ^^^ 0x80000000

/-- Whether a record passes the predicate (R406). -/
def Stream.passes (x : Stream) (key pay : Nat) : Bool :=
  let p := x.f 3 1
  let kind := x.f 2 1 % 4
  let o (v : Nat) : Nat := if bit p 6 then v else ladOrd v kind
  let v := if bit p 6 then pay else key
  let a := x.f 4 4
  let b := x.f 8 4
  let t := match bits p 0 3 with
    | 1 => (match bits p 3 3 with
      | 0 => o v == o a | 1 => o v != o a | 2 => decide (o v < o a) | 3 => decide (o v ≤ o a) | 4 => decide (o a < o v)
      | _ => decide (o a ≤ o v))
    | 2 => decide (o a ≤ o v) && decide (o v < o b)
    | _ => v &&& a == b
  bits p 0 3 == 0 || (t != bit p 7)

/-- Sort order (R405): ord(key) in the stream's direction, then rank, then sequence. -/
def Stream.before (x : Stream) (a b : Rec) : Bool :=
  let kind := x.f 2 1 % 4
  let oa := ladOrd a.key kind
  let ob := ladOrd b.key kind
  if oa ≠ ob then (if bit (x.f 2 1) 2 then decide (ob < oa) else decide (oa < ob))
  else if a.rank ≠ b.rank then decide (a.rank < b.rank) else decide (a.seq ≤ b.seq)

/-- Insert a record in sort order. -/
def Stream.insert (x : Stream) (r : Rec) : List Rec → List Rec
  | [] => [r]
  | q :: l => if x.before r q then r :: q :: l else q :: x.insert r l

/-- The records in sort order. -/
def Stream.sort (x : Stream) (l : List Rec) : List Rec := l.foldr x.insert []

/-- The first record of each run of equal keys. -/
def firstOfRuns : List Rec → List Rec
  | [] => []
  | [a] => [a]
  | a :: b :: r => let t := firstOfRuns (b :: r); if a.key = b.key then a :: t.tail else a :: t

/-! ### Loading (R404, R406) -/

/-- Of waiting batches of a die, the one that closed first, ties by R191 over the stream number (R404). -/
def State.nextClosed (s : State) (die : Nat) : Option (Nat × Nat × Batch) :=
  (s.lad.closed.filter (fun c => c.1 / 16 == die)).foldl (fun a c => match a with
    | none => some c
    | some b => if c.2.2.close < b.2.2.close ∨ (c.2.2.close = b.2.2.close ∧ tieWins s.time.pip (c.1 % 16) (b.1 % 16)) then some c
                else some b) none

/-- The records of frames, numbered under R402. -/
def batchRecs (b : Batch) : List Rec :=
  b.frames.flatMap (fun p => (List.range p.2.2.f.records).map (fun i =>
    { key := fieldAt p.2.2.f.cells (16 + 8 * i) 4, pay := fieldAt p.2.2.f.cells (20 + 8 * i) 4, rank := p.1, seq := (p.2.1 + i) % 2 ^ 32 }))

/-- DRAM that a Ladder reaches now over the bridge to the Skein that holds it: neither that bridge nor a channel arbiter is frozen
(06 R193), no refresh holds a channel (R409; 06 R194). -/
def State.ladOpen (s : State) (die a n : Nat) : Bool :=
  (granules a n).all (fun g =>
    let ch := channelOf g
    !s.frozenOn [arbKey 2 ch 0, dieBridge die (ch / 64) 0, dieBridge die (ch / 64) 1] && !s.refreshing ch)

/-- The array of a MEMORY batch: address and records. -/
def Stream.arrayOf (x : Stream) (b : Nat) : Nat × Nat := (x.inAddr + 8 * b * x.size, min x.size (x.memLeft b))

/-- What a batch is loaded from is reached now: the record array, or the cells of frames over the transit path from their port die
(R401; 06 R193). -/
def State.loadOpen (s : State) (x : Stream) (c : Nat × Nat × Batch) : Bool :=
  let die := c.1 / 16
  if x.memory then s.ladOpen die (x.arrayOf c.2.1).1 (8 * (x.arrayOf c.2.1).2)
  else c.2.2.frames.all (fun p =>
    let ks := transitPath p.2.2.die die (s.hashOf p.2.2.f / 2 ^ 15 % 2)
    !s.frozenOn (if ks.isEmpty then [] else bridgesFrom p.2.2.die ks ++ [dieBridge die (ks.getLast?.getD 0) 1]))

/-- The records of a MEMORY batch; `error none` where the array lies in a reserved region (09 R275), else the first uncorrectable
word. -/
def State.memRecs (s : State) (x : Stream) (b : Nat) : Except (Option Nat) (List Rec) :=
  let a := (x.arrayOf b).1
  let n := (x.arrayOf b).2
  if s.dramDenied a (8 * n) then .error none
  else match s.firstUe (dramKey a) (8 * n) with
  | some u => .error (some u)
  | none => .ok ((List.range n).map (fun i =>
      { key := s.readNat (dramKey (a + 8 * i)) 4, pay := s.readNat (dramKey (a + 8 * i + 4)) 4, rank := 0, seq := b * x.size + i }))

/-- A batch enters a buffer: the frames' hanks are released, the records that fail the predicate leave. -/
def State.loadBatch (s : State) (slot : Nat) (c : Nat × Nat × Batch) (x : Stream) : State :=
  let die := c.1 / 16
  let b := c.2.2
  let s := s.setLad { s.lad with closed := s.lad.closed.erase c }
  let s := b.frames.foldl (fun s p => s.freeFrame p.2.2) s
  let m := if x.memory then s.memRecs x c.2.1 else .ok (batchRecs b)
  let r := match m with | .ok l => l | .error _ => []
  let s := match m with | .error (some u) => s.logUe u | _ => s
  let n := if x.memory then (x.arrayOf c.2.1).2 else r.length
  let kept := r.filter (fun r => x.passes r.key r.pay)
  let buf : LBuf := { stream := c.1, batch := c.2.1, recs := kept, inRecs := n, t0 := b.t0, close := b.close, cause := b.cause,
                      filtered := r.length - kept.length,
                      status := match m with | .ok _ => .ok | .error none => .denied | .error _ => .integrity }
  let s := s.setLad { s.lad with bufs := tabPut s.lad.bufs slot buf }
  let s := (s.charge (4 + die) clsThreads n n).bumpBy .lad die (lnIn (c.1 % 16)) n
  s.formMemory c.1

/-- LADDER_BATCH_LOAD (R404, R406, R426): the first closed batch enters a free buffer; held while the threads class is, or while it
cannot be reached. -/
def execLadderBatchLoad (die : Nat) (s : State) : Host.Outcome State Fault Refusal :=
  match [2 * die, 2 * die + 1].find? (fun i => (tabGet? s.lad.bufs i).isNone), s.nextClosed die with
  | some slot, some c =>
    (match s.stream? c.1 with
     | none => .next s
     | some x =>
       if decide (die > 3) then .next s
       else if !s.mayIssue (4 + die) clsThreads then .next (s.noteHold (4 + die) clsThreads)
       else if !s.loadOpen x c then .next s
       else .next (s.loadBatch slot c x))
  | _, _ => .next s

/-! ### Output (R407 to R413) -/

/-- The bytes of records. -/
def recBytesOf (l : List Rec) : List Byte := l.flatMap (fun r => leBytes 4 r.key ++ leBytes 4 r.pay)

/-- Rows of a GATHER: bytes, rows, keys past the table, and the first uncorrectable word, which stops the output (R407,
R412). -/
def State.gather (s : State) (x : Stream) : List Rec → List Byte × Nat × Nat × Option Nat
  | [] => ([], 0, 0, none)
  | r :: l =>
    let far := decide (r.key ≥ x.rows)
    let a := dramKey (x.table + r.key * x.rowBytes)
    match (if far then none else s.firstUe a x.rowBytes) with
    | some u => ([], 0, 0, some u)
    | none =>
      let t := s.gather x l
      ((if far then List.replicate x.rowBytes 0 else s.read a x.rowBytes) ++ t.1, t.2.1 + 1, t.2.2.1 + b2n far, t.2.2.2)

/-- SCATTER_ADD (R408): adds in batch order; an uncorrectable element ends it. -/
def State.scatter (s : State) (x : Stream) : List Rec → State × Nat × Bool
  | [] => (s, 0, true)
  | r :: l =>
    if r.key ≥ x.rows then
      let t := s.scatter x l
      (t.1, t.2.1 + 1, t.2.2)
    else
      let a := s.atomic (dramKey (x.table + 4 * r.key)) (if x.f 23 1 = 0 then 1 else 3) r.pay
      match a.2 with
      | .error _ => (a.1, 0, false)
      | .ok _ => a.1.scatter x l

/-- What a batch writes: the state after table accesses, the bytes, the records or rows written, bad keys and the status. -/
def State.batchOut (s : State) (x : Stream) (b : LBuf) : State × List Byte × LBuf :=
  let recs (l : List Rec) : State × List Byte × LBuf := (s, recBytesOf l, { b with out := l.length })
  match x.op with
  | 0 => recs b.recs
  | 1 => recs (x.sort b.recs)
  | 2 => recs ((x.sort b.recs).take (x.f 14 2))
  | 3 => recs (firstOfRuns (x.sort b.recs))
  | 4 =>
    let g := s.gather x b.recs
    (match g.2.2.2 with
     | some u => (s.logUe u, g.1, { b with out := g.2.1, bad := g.2.2.1, status := .integrity })
     | none => (s, g.1, { b with out := g.2.1, bad := g.2.2.1 }))
  | _ =>
    let t := s.scatter x b.recs
    (t.1, [], { b with bad := t.2.1, status := if t.2.2 then .ok else .integrity })

/-- The ring entry of a batch. -/
def Stream.entry (x : Stream) (b : Nat) : Nat := x.outBase + b % (x.ring + 1) * x.stride

/-- The header of Table 14-3. -/
def LBuf.header (b : LBuf) : List Byte :=
  padTo 64 (leBytes 4 b.batch ++ leBytes 4 b.inRecs ++ leBytes 4 b.out ++ leBytes 4 b.filtered ++
    leBytes 4 b.bad ++ leBytes 1 b.status.code ++ leBytes 1 b.cause ++ leBytes 2 0 ++ leBytes 8 b.t0 ++ leBytes 8 b.close)

/-- Send DATA frames of output from a die (R411). -/
def State.ladFrames (s : State) (die : Nat) (who : Asker) (ch a : Nat) (bs : List Byte) : State × Nat :=
  let ps := pieces 8176 (bs.length / 8176 + 1) a bs.length
  (ps.foldl (fun s p =>
    let d := prefixBytes (bits p.1 0 42) ++ (bs.drop (p.1 - a)).take p.2
    s.request { unit := 4 + die, who := who, addr := p.1, len := 0,
                f := { ty := 0, vc := chVc ch, ch := ch, dst := bits a 42 20, src := s.devFid, ackReq := true,
                       spec := dataSpec d.length, cells := dataCells d } }) s, ps.length)

/-- The asker of a header whose answer nothing but the log waits for. -/
def headerAsker (die : Nat) : Asker := .ladder die 2

/-- Write a batch's header: to DRAM, or as a frame (R411). One that cannot be written is logged and counted (R412). -/
def State.writeHeader (s : State) (x : Stream) (b : LBuf) : State :=
  let die := b.stream / 16
  let a := x.entry b.batch
  if addrSpace a = 2 then (s.ladFrames die (headerAsker die) (x.f 22 1 % 16) a b.header).1
  else match s.localStatus a 64 with
    | some st => (s.bump .lad die lnHeader).ladLog die st.code
    | none => (s.store (memKey a) b.header).1

/-- A stream has batches to come, waiting or loaded. -/
def State.batchesLeft (s : State) (k : Nat) (x : Stream) : Bool :=
  decide (x.memLeft x.nextBatch ≠ 0) || s.lad.closed.any (fun c => c.1 == k) || s.lad.bufs.any (fun e => e.2.stream == k)

/-- A batch is over: its header goes, its buffer is free; a MEMORY stream ends after its last header (R411, R413). -/
def State.endBatch (s : State) (slot : Nat) (b : LBuf) : State :=
  match s.stream? b.stream with
  | none => s.setLad { s.lad with bufs := tabDel s.lad.bufs slot }
  | some x =>
    let die := b.stream / 16
    let s := (s.setLad { s.lad with bufs := tabDel s.lad.bufs slot }).writeHeader x b
    let s := ((s.bump .lad die (lnBatch + 32 * b.cause + b.status.code)).bumpBy .lad die lnBad b.bad).bumpBy .lad die
      (lnOut (b.stream % 16)) b.out
    let x := { x with headers := (x.headers ++ [b.header]).drop (x.headers.length + 1 - 4),
                      status := if x.status = .ok then b.status else x.status }
    if x.memory && !s.batchesLeft b.stream x then
      let s := s.setLad { s.lad with streams := tabDel s.lad.streams b.stream }
      match x.ticket with | some t => s.finish t x.status [uf 8 s.time.pip] | none => s
    else s.setStream b.stream x

/-- The rows or elements of a batch's table are reached now (R409). -/
def State.tableOpen (s : State) (x : Stream) (b : LBuf) : Bool :=
  let w := if x.op = 4 then x.rowBytes else 4
  decide (x.op < 4) || b.recs.all (fun r => decide (r.key ≥ x.rows) || s.ladOpen (b.stream / 16) (x.table + r.key * w) w)

/-- The ring entry of a batch is reached now for its header and n bytes of output; a far one is sent. -/
def State.ringOpen (s : State) (x : Stream) (b : LBuf) (n : Nat) : Bool :=
  addrSpace (x.entry b.batch) != 0 || s.ladOpen (b.stream / 16) (bits (x.entry b.batch) 0 37) (64 + n)

/-- LADDER_BATCH_OUTPUT (R405, R407 to R412): the operation on a loaded batch, once what it reads and writes is reached; far output
waits for its answers. -/
def execLadderBatchOutput (die buf : Nat) (s : State) : Host.Outcome State Fault Refusal :=
  let slot := 2 * die + buf
  match tabGet? s.lad.bufs slot with
  | none => .next s
  | some b =>
    if decide (buf > 1) || b.sent then .next s
    else match s.stream? b.stream with
      | none => .next s
      | some x =>
        let a := x.entry b.batch + 64
        if b.status ≠ .ok then .next (if s.ringOpen x b 0 then s.endBatch slot b else s)
        else if decide (x.op ≥ 4) && !s.mayIssue (4 + die) clsThreads then .next (s.noteHold (4 + die) clsThreads)
        else if !s.tableOpen x b || !s.ringOpen x b (s.batchOut x b).2.1.length then .next s
        else if (x.tableLen ≠ 0 ∧ s.dramDenied x.table x.tableLen) then .next (s.endBatch slot { b with status := .denied })
        else if addrSpace a = 2 && !s.tagsFree [(a, x.maxOut)] then .next s
        else
          let r := s.batchOut x b
          let s := if x.op ≥ 4 then r.1.charge (4 + die) clsThreads b.recs.length
            (moveEu (b.recs.length * (if x.op = 4 then x.rowBytes else 8))) else r.1
          if addrSpace a = 2 then
            let f := s.ladFrames die (.ladder die buf) (x.f 22 1 % 16) a r.2.1
            if f.2 = 0 then .next (f.1.endBatch slot r.2.2)
            else .next (f.1.setLad { f.1.lad with bufs := tabPut f.1.lad.bufs slot { r.2.2 with sent := true, left := f.2 } })
          else match s.localStatus a r.2.1.length with
            | some st => .next (s.endBatch slot { r.2.2 with status := st, out := 0 })
            | none =>
              let w := (s.fabricAccess a r.2.1.length).firstBy incoming (fun s => s.storeBy incoming (memKey a) r.2.1)
              .next (w.1.endBatch slot (if w.2 then { r.2.2 with status := .integrity } else r.2.2))

/-- Requests of a Ladder's buffer are forgotten. -/
def State.dropLadAsks (s : State) (die buf : Nat) : State :=
  s.dropAskers (fun a => decide (a = .ladder die buf))

/-- An answer to far output, or its timeout (R411, R412). -/
def State.ladderAnswer (s : State) (die buf : Nat) (st : Status) : State :=
  if buf ≥ 2 then (if st = .ok then s else (s.bump .lad die lnHeader).ladLog die st.code)
  else match tabGet? s.lad.bufs (2 * die + buf) with
    | none => s
    | some b =>
      if st ≠ .ok then (s.dropLadAsks die buf).endBatch (2 * die + buf) { b with status := st }
      else if b.left ≤ 1 then s.endBatch (2 * die + buf) { b with left := 0 }
      else s.setLad { s.lad with bufs := tabPut s.lad.bufs (2 * die + buf) { b with left := b.left - 1 } }

/-! ### Ending streams (R413, R414) -/

/-- A stream ends: its waiting batches are discarded and their hanks released, a loaded batch stops with ST_ABORTED in its
header. Answers how many records were discarded. -/
def State.endStream (s : State) (k : Nat) (st : Status) : State × Nat :=
  match s.stream? k with
  | none => (s, 0)
  | some x =>
    let mine := (s.lad.closed.filter (fun c => c.1 == k)).map (·.2.2) ++ x.cur.toList
    let s := s.setLad { s.lad with closed := s.lad.closed.filter (fun c => c.1 != k), streams := tabPut s.lad.streams k { x with ticket := none } }
    let s := mine.foldl (fun s b => b.frames.foldl (fun s p => (s.freeFrame p.2.2).bump .local p.2.2.die lcLadder) s) s
    let s := [0, 1].foldl (fun s i => match tabGet? s.lad.bufs (2 * (k / 16) + i) with
      | some b => if b.stream = k then (s.dropLadAsks (k / 16) i).endBatch (2 * (k / 16) + i) { b with status := .aborted } else s
      | none => s) s
    let s := s.setLad { s.lad with streams := tabDel s.lad.streams k }
    ((match x.ticket with | some t => s.finish t st [] | none => s), (mine.map Batch.count).sum)

/-- A reset at PORT scope or wider of a die (R414): its streams go. Their frames are lost: those in the buffer of another die release
their hanks there, those of its own go with its buffer (04 R137). -/
def State.endDieStreams (s : State) (die : Nat) : State :=
  let mine := s.lad.streams.filter (fun e => e.1 / 16 == die)
  let held := (s.lad.closed.filter (fun c => c.1 / 16 == die)).flatMap (fun c => c.2.2.frames) ++ mine.flatMap (fun e => (e.2.cur.map (·.frames)).getD [])
  let s := held.foldl (fun s p => if p.2.2.die = die then s else s.freeFrame p.2.2) s
  let s := s.setLad { s.lad with
                      streams := s.lad.streams.filter (fun e => e.1 / 16 != die),
                      closed := s.lad.closed.filter (fun c => c.1 / 16 != die),
                      bufs := s.lad.bufs.filter (fun b => b.1 / 2 != die) }
  let s := s.dropAskers (fun a => match a with | .ladder d _ => d == die | _ => false)
  mine.foldl (fun s e => match e.2.ticket with | some t => s.finish t .aborted [] | none => s) s

/-- Whether a stream uses DRAM of a Skein. -/
def Stream.on (x : Stream) (k : Nat) : Bool :=
  let held (a n : Nat) : Bool := overlaps (k * 2 ^ 35) (2 ^ 35) a n
  held x.inAddr (if x.memory then 8 * x.inCount else 64) ||
  (addrSpace x.outBase == 0 && held x.outBase ((x.ring + 1) * x.stride)) || held x.table x.tableLen

/-- A reset at SKEIN scope or wider (R414): streams that use the Skein end as under R413, and the removal is logged. -/
def State.endSkeinStreams (s : State) (k : Nat) : State :=
  (s.lad.streams.filter (fun e => e.2.on k)).foldl (fun s e => ((s.endStream e.1 .aborted).1).ladLog (e.1 / 16) Status.aborted.code) s

/-- A reset wider than SKEIN ends every stream as a SKEIN reset does, and its LAD_STREAM_CREATE as the reset ends commands (R414; 16). -/
def State.endStreams (s : State) : State :=
  let s := s.setLad { s.lad with streams := tabMap s.lad.streams (fun _ x => { x with ticket := none }) }
  [0, 1, 2, 3].foldl State.endSkeinStreams s

/-- Frames in the buffer of a die leave the batches that hold them (R414; 04 R137). -/
def State.loseDieFrames (s : State) (d : Nat) : State :=
  let rest (b : Batch) : Batch := { b with frames := b.frames.filter (fun p => p.2.2.die != d) }
  s.setLad { s.lad with closed := s.lad.closed.map (fun c => (c.1, c.2.1, rest c.2.2)),
                        streams := tabMap s.lad.streams (fun _ x => { x with cur := x.cur.map rest }) }

/-! ### Commands (R399, R400, R413, R415, R416) -/

/-- The conditions of every LAD command. -/
def State.ladChks (s : State) (die stream : Nat) : List Chk :=
  [badFld 0 (decide (die > 3)), badFld 1 (decide (stream > 15)), ⟨decide (s.sec.grade = .b), .unitAbsent, none⟩]

/-- An address with an end out of device DRAM. -/
def dramOut (a n : Nat) : Bool := decide (a + n > 2 ^ 37)

/-- A field of a stream descriptor outside Table 14-1. -/
def streamFieldBad (x : Stream) : Bool :=
  let ga := decide (x.op = 4)
  let sc := decide (x.op = 5)
  let outLen := (x.ring + 1) * x.stride
  decide (x.f 0 1 ≠ 1) || decide (x.op > 5) || decide (x.f 2 1 > 7) || decide (x.f 2 1 % 4 = 3) || decide (x.f 3 1 % 8 > 3) ||
  decide (bits (x.f 3 1) 3 3 > 5) || !inRange 1 4096 x.size ||
  (if x.op = 2 then !inRange 1 4096 (x.f 14 2) else x.f 14 2 != 0) || !inRange (2 ^ 8) (2 ^ 24) x.wait || decide (x.f 20 1 > 1) ||
  (if x.memory then x.nSrc != 0 || x.inCount == 0 || dramOut x.inAddr (8 * x.inCount)
   else !inRange 1 64 x.nSrc || x.inCount != 0 || dramOut x.inAddr 64 || x.inAddr % 64 != 0) ||
  decide (x.f 22 1 > 15) || (if sc then decide (x.f 23 1 > 1) else x.f 23 1 != 0) || decide (x.outBase % 64 ≠ 0) ||
  (if addrSpace x.outBase = 2 then farBad x.outBase || decide (bits x.outBase 0 42 + outLen > 2 ^ 42) else dramOut x.outBase outLen) ||
  decide (x.stride % 64 ≠ 0) || decide (x.stride < 128) || decide (x.f 49 3 ≠ 0) || decide (x.f 66 62 ≠ 0) ||
  (if ga || sc then x.rows == 0 || dramOut x.table 1 else x.table != 0 || x.rows != 0) ||
  (if ga then !inRange 8 8176 x.rowBytes || x.rowBytes % 8 != 0 else if sc then x.rowBytes != 4 else x.rowBytes != 0) ||
  (List.range 64).any (fun i => let e := x.f (128 + 4 * i) 4; if i < x.nSrc then decide (e ≥ 2 ^ 20) else e != 0)

/-- Equal entries in a list. -/
def hasTwice : List Nat → Bool
  | [] => false
  | a :: r => r.contains a || hasTwice r

/-- A range of DRAM lies on Skeins that the die touches. -/
def dieReaches (die a n : Nat) : Bool := touches die (a / 2 ^ 35) && touches die ((a + n - 1) / 2 ^ 35)

/-- The conditions of R400. -/
def State.streamDescBad (s : State) (die : Nat) (x : Stream) : Bool :=
  let inLen := if x.memory then 8 * x.inCount else 64
  hasTwice x.sources || s.lad.streams.any (fun e => e.2.inAddr == x.inAddr) || !dieReaches die x.inAddr inLen ||
  (addrSpace x.outBase == 0 && !dieReaches die x.outBase ((x.ring + 1) * x.stride)) ||
  (x.tableLen != 0 && (!dieReaches die x.table x.tableLen || decide (x.table / 2 ^ 35 ≠ (x.table + x.tableLen - 1) / 2 ^ 35))) ||
  decide (x.maxOut > x.stride - 64)

/-- LAD_STREAM_CREATE (R399, R400, R413, R416). -/
def execLadStreamCreate (o : Origin) (die stream addr : Nat) (s : State) : Host.Outcome State Fault Refusal :=
  let x : Stream := { d := s.read (dramKey addr) 384 }
  let k := ladKey die stream
  s.loading o 0x0704 [die, stream, addr] addr 384
    (s.ladChks die stream ++ s.addrChks 2 addr 384 64 ++
     [badFld 2 (streamFieldBad x), s.ownChk o resLad,
      ⟨(s.stream? k).isSome, .badDesc, some 1⟩, ⟨s.streamDescBad die x, .badDesc, none⟩])
    (fun t s =>
      if x.memory then ((s.setStream k { x with ticket := some t }).formMemory k, .later)
      else (s.setStream k x, .done .ok [uf 8 s.time.pip]))

/-- The refusal of a stream number without a stream. -/
def State.noStream (s : State) (die stream : Nat) : Chk := ⟨(s.stream? (ladKey die stream)).isNone, .badDesc, some 1⟩

/-- LAD_STREAM_DESTROY (R413). -/
def execLadStreamDestroy (o : Origin) (die stream : Nat) (s : State) : Host.Outcome State Fault Refusal :=
  s.command o 0x0705 [die, stream] (s.ladChks die stream ++ [s.ownChk o resLad, s.noStream die stream])
    (fun _ s => let r := s.endStream (ladKey die stream) .aborted; (r.1, .done .ok [uf 4 r.2]))

/-- LAD_FLUSH (R403): the number of the batch closed, all ones where none was open. -/
def execLadFlush (o : Origin) (die stream : Nat) (s : State) : Host.Outcome State Fault Refusal :=
  let k := ladKey die stream
  s.command o 0x0706 [die, stream]
    (s.ladChks die stream ++ [s.ownChk o resLad, s.noStream die stream,
      ⟨match s.stream? k with | some x => x.memory | none => false, .badDesc, some 1⟩])
    (fun _ s =>
      let no := match s.stream? k with | some x => if x.cur.isSome then x.nextBatch else 0xFFFFFFFF | none => 0xFFFFFFFF
      (s.closeBatch k s.time.pip 3, .done .ok [uf 4 no]))

/-- LAD_STREAM_STATUS (R416). -/
def execLadStreamStatus (o : Origin) (die stream : Nat) (s : State) : Host.Outcome State Fault Refusal :=
  s.query o 0x0707 [die, stream] (s.ladChks die stream ++ [s.noStream die stream]) (fun s =>
    match s.stream? (ladKey die stream) with
    | none => []
    | some x =>
      let b := x.cur.getD { t0 := 0 }
      [bf 384 (leNat x.d), uf 2 b.count, uf 8 b.t0, uf 4 x.nextBatch] ++
      listFlds ((List.range x.nSrc).map (fun r => [uf 4 (tabGet x.seqs 0 r), uf 1 (b2n (b.lasts.contains r))])) ++
      listFlds (x.headers.map (fun h => [bf 64 (leNat h)])))

/-- LAD_COUNTERS (R416). -/
def execLadCounters (o : Origin) (die clear : Nat) (s : State) : Host.Outcome State Fault Refusal :=
  s.command o 0x0708 [die, clear]
    ([badFld 0 (decide (die > 3)), ⟨decide (s.sec.grade = .b), .unitAbsent, none⟩] ++ clearChks o 1 clear) (fun _ s =>
    let c (i : Nat) : Fld := uf 4 (s.count .lad die i)
    ((if clear = 1 then s.setLad { s.lad with held := tabPut s.lad.held die 0 } else s).clearIf clear .lad die, .done .ok ((List.range 32).map c ++ (List.range 17).map (fun i => c (lnRefused + i)) ++
      (List.range 5).flatMap (fun z => (List.range 17).map (fun i => c (lnBatch + 32 * z + i))) ++ [c lnBad, uf 4 (min cMax (tabGet s.lad.held 0 die / 1000))])))

/-! ### Delivery of data and answers (09 R278, R279; 05 R152) -/

/-- DATA frame (R279, R401): to a Ladder stream, or written to memory word by word. -/
def execDataFrame (ing vc : Nat) (s : State) : Host.Outcome State Fault Refusal :=
  match s.localHead ing vc 0 with
  | none => .next s
  | some q =>
    match (if q.dest = .ladder then s.ladderKey q.f.offset else none) with
    | some k => .next (s.ladderInput k q)
    | none =>
      let n := q.f.dataLen - 16
      let bad := if q.f.dataLen < 16 then some .badField else s.fabricStatus q.f n
      match bad with
      | some st =>
        let s := (s.consume q).bump .local q.die lcRefused
        .next (if q.f.ackReq then s.answerErr q st else s)
      | none =>
        let a := offsetAddr q.f.offset
        if !s.memReady q.skein a n then .next s
        else
          let w := ((s.consume q).fabricAccess a n).firstBy incoming (fun s => s.storeBy incoming (memKey a) ((q.f.cells.drop 16).take n))
          let s := if w.2 then w.1.bump .local q.die lcMerge else w.1
          .next (if q.f.ackReq then s.answerErr q (if w.2 then .integrity else .ok) else s)

/-- An answer received at pip `tc` reaches the unit that asked (R152). -/
def State.answered (s : State) (r : Request) (ans : Except Status (List Byte)) (tc : Nat) : State :=
  let s := s.delReq r
  let st : Status := match ans with | .ok _ => .ok | .error e => e
  match r.who with
  | .engine st' id | .slot st' id => s.opAnswer st' id (match ans with
    | .error e => .error e
    | .ok bs => .ok (if bs.isEmpty then none else some (r.addr, bs)))
  | .mirror h k => s.mirrorAnswer h k false st tc
  | .seal h => s.mirrorAnswer h 0xFFFFFFFF true st tc
  | .restore h _ => s.restoreAnswer h (match ans with | .error e => .error e | .ok bs => .ok (r.addr, bs))
  | .ladder d b => s.ladderAnswer d b st

/-- A response matched to its request, or, late or with none, discarded and counted (R152, R165; 02 R52). -/
def State.responseRow (s : State) (ing ty : Nat) (ans : Frame → Except Status (List Byte)) : Host.Outcome State Fault Refusal :=
  match s.localHead ing 2 ty with
  | none => .next s
  | some q =>
    let s := s.consume q
    match s.reqFor q.f with
    | none => .next (s.bump .route q.die rcLate)
    | some r => if s.inTime r q then .next (s.answered r (ans q.f) q.stamp) else .next (s.bump .route q.die rcLate)

/-- READ_RSP (R278): the data of a request. -/
def execReadRsp (ing : Nat) (s : State) : Host.Outcome State Fault Refusal :=
  s.responseRow ing 2 (fun f => .ok (f.cells.take f.dataLen))

/-- ERR_COMPL (R278, R385, R390, R411): the status of a request; a code of no row counts as ST_ABORTED. -/
def rowErrCompl (ing : Nat) (s : State) : Host.Outcome State Fault Refusal :=
  s.responseRow ing 11 (fun f =>
    match (Status.ofCode (bits f.spec 0 8)).getD .aborted with | .ok => .ok [] | e => .error e)

/-- FAR_TIMEOUT (R278, R287, R412; 02 R52): no answer stamped within far_timeout. -/
def execFarTimeout (dst seq : Nat) (s : State) : Host.Outcome State Fault Refusal :=
  match s.route.reqs.find? (fun r => r.dst == dst && r.seq == seq) with
  | none => .next s
  | some r =>
    if r.far ∧ (s.due r).any (· ≤ s.time.pip) ∧ s.answerWaits r = false then .next (s.answered r (.error .timeout) s.time.pip)
    else .next s

end Sys2Proof.Machine
end

