-- ==== Sys2Proof/Machine/ExpBase.lean ====
section
/-! DEFINITION. Experts: descriptors, the directory, token frames, returns, tiles (11 R326 to R337, R343). -/

namespace Sys2Proof.Machine

open Sys2Proof

/-! ### Descriptors (Table 11-4). A pass is 0 forward or 1 backward. -/

/-- A field of an expert's descriptor. -/
def Expert.f (x : Expert) (o n : Nat) : Nat := fieldAt x.d o n
def Expert.bwd (x : Expert) : Bool := bit (x.f 1 1) 0
def Expert.isKeyed (x : Expert) : Bool := bit (x.f 1 1) 1
/-- The format byte of a pass's input and output. -/
def Expert.inByte (x : Expert) (pass : Nat) : Nat := x.f (4 + 2 * pass) 1
def Expert.outByte (x : Expert) (pass : Nat) : Nat := x.f (5 + 2 * pass) 1
/-- Elements of a pass's input and output. -/
def Expert.dIn (x : Expert) (pass : Nat) : Nat := x.f (8 + 2 * pass) 2
def Expert.dOut (x : Expert) (pass : Nat) : Nat := x.f (10 - 2 * pass) 2
def Expert.patId (x : Expert) (pass : Nat) : Nat := x.f (12 + pass) 1
def Expert.slotsPer (x : Expert) : Nat := x.f 14 1
def Expert.runTiles (x : Expert) : Nat := x.f 15 1
def Expert.entryWord (x : Expert) (pass area : Nat) : Nat := x.f (16 + 4 * pass + 2 * area) 2
def Expert.tileWait (x : Expert) : Nat := x.f 24 4
def Expert.cap (x : Expert) : Nat := x.f 28 4
def Expert.stashSlots (x : Expert) : Nat := x.f 32 4
def Expert.stBytes (x : Expert) : Nat := x.f 36 4
def Expert.runLimit (x : Expert) : Nat := x.f 40 4
def Expert.maskBase (x : Expert) : Nat := x.f 44 1 % 16
def Expert.maskUnits (x : Expert) : Nat := x.f 44 1 / 16
def Expert.shardH (x : Expert) : Nat := x.f 46 2
def Expert.stageTokens (x : Expert) : Nat := x.f 48 4
def Expert.bwdLimit (x : Expert) : Nat := x.f 52 4
def Expert.gradH (x : Expert) : Nat := x.f 56 2
/-- The regions of an area: 0 in_data, 1 in_scale, 2 out_data, 3 out_scale, 4 meta, 5 stash. -/
def Expert.areaOff (x : Expert) (area i : Nat) : Nat := x.f (64 + 24 * area + 4 * i) 4
def Expert.stashAddr (x : Expert) : Nat := x.f 112 8
def Expert.stageAddr (x : Expert) : Nat := x.f 120 8
/-- The Stitches of replica 0. -/
def Expert.map0 (x : Expert) : List Nat := mapStitches (x.f 128 128)
/-- The home Skein: that of the first replica (R334). -/
def Expert.home (x : Expert) : Nat := x.map0.headD 0 / 256
/-- Rows of a run area. -/
def Expert.areaRows (x : Expert) : Nat := 64 * x.runTiles

/-- The format and block size of a format byte. -/
def byteFmt (b : Nat) : Fmt := (Fmt.ofCode (b % 16)).getD .f32
def byteBlock (b : Nat) : Nat := blockSize (bits b 4 2)

/-- A format byte out of range: a code of no format, a block code for a format that is not narrow, reserved bits. -/
def fmtByteBad (b : Nat) : Bool :=
  match Fmt.ofCode (b % 16) with
  | none => true
  | some f => decide (b ≥ 64) || (!f.narrow && decide (b ≥ 16))

/-- Bytes of n elements, and of their scales. -/
def dataLenOf (b n : Nat) : Nat := (n * (byteFmt b).width + 7) / 8
def scaleLenOf (b n : Nat) : Nat := if (byteFmt b).narrow then (n + byteBlock b - 1) / byteBlock b else 0
/-- The length of the stash region (R345). -/
def Expert.stashLen (x : Expert) : Nat := x.stashSlots * (16 + x.stBytes * x.map0.length)
/-- The bytes of an entry of the stage region (R348): the spec counts its entries and gives an entry no size; one holds a header cell
and a token record in whole cells (DESIGN CHOICE: entry STAGELEN). -/
def Expert.stageUnit (x : Expert) : Nat :=
  64 + alignUp (dataLenOf (x.inByte 1) (x.dIn 1) + scaleLenOf (x.inByte 1) (x.dIn 1)) 64
/-- The length of the stage region. -/
def Expert.stageLen (x : Expert) : Nat := x.stageTokens * x.stageUnit
/-- The DRAM byte where an entry of the stage region begins. -/
def Expert.stageKey (x : Expert) (i : Nat) : Nat := dramKey (x.stageAddr + i * x.stageUnit)
/-- The DRAM that an expert writes outside its descriptors: stash and stage regions. -/
def Expert.extents (x : Expert) : List (Nat × Nat) :=
  [(x.stashAddr, x.stashLen), (x.stageAddr, x.stageLen)].filter (fun r => r.2 != 0)

/-! ### Entries -/

/-- A hosted expert. -/
def State.expert? (s : State) (id : Nat) : Option Expert :=
  match tabGet? s.exp.exact id with | some (.here x) => some x | _ => none
/-- Replace a hosted expert. -/
def State.setExpert (s : State) (id : Nat) (x : Expert) : State :=
  s.setExp { s.exp with exact := tabPut s.exp.exact id (.here x) }
/-- Replace the tokens in assembly. -/
def State.setToks (s : State) (l : List Tok) : State := s.setExp { s.exp with toks := l }

/-- What the directory says of an expert ID (R327). -/
inductive Found
  | hosted (x : Expert)
  | owner (fid : Nat)
  | nobody
  deriving DecidableEq, Repr

/-- The lookup: an exact entry, else the lowest range entry that contains the ID. -/
def State.lookupExpert (s : State) (id : Nat) : Found :=
  match tabGet? s.exp.exact id with
  | some (.here x) => .hosted x
  | some (.remote f) => .owner f
  | none =>
    match s.exp.ranges.find? (fun r => decide (r.2.1 ≤ id) && decide (id ≤ r.2.2.1)) with
    | some r => .owner r.2.2.2
    | none => .nobody

/-! ### Counters of a die, or of the controllers as unit 4 (Table 11-5) -/

def ecForward := 0
def ecNotice := 1
def ecRuns := 3
def ecRows := 4
def ecDiscard := 5
def ecOpen := 6
def ecStage := 7
def ecReturn := 8

/-- Raise a peak. -/
def State.peak (s : State) (u i n : Nat) : State :=
  s.setCnt (tabPut s.cnt (cKey .exp u i) (max (s.count .exp u i) (min cMax n)))

/-- A frame of no token: discarded and counted. -/
def State.discardTok (s : State) (q : QFrame) : State := ((s.consume q).bump .exp q.die ecDiscard).bump .local q.die lcToken

/-! ### Header cells (Table 11-1) -/

def Tok.h (t : Tok) (o n : Nat) : Nat := fieldAt t.hdr o n
def Tok.expert (t : Tok) : Nat := t.h 0 2
def Tok.pass (t : Tok) : Nat := t.h 2 1 % 2
def Tok.step (t : Tok) : Nat := t.h 16 4
def Tok.origin (t : Tok) : Nat := t.h 20 4 % 2 ^ 20
def Tok.tid (t : Tok) : Nat := t.h 12 4
def Tok.d (t : Tok) : Nat := t.h 10 2
/-- Segment of a token frame. -/
def Frame.segOff (f : Frame) : Nat := fieldAt f.cells 24 2 % 2 ^ 15
def Frame.segElems (f : Frame) : Nat := fieldAt f.cells 26 2

/-- A failure of ST_BAD_FIELD in a token frame (R330, R331, R333). -/
def tokFrameBad (f : Frame) : Bool :=
  let h (o n : Nat) : Nat := fieldAt f.cells o n
  let b := h 3 1
  let d := h 10 2
  let n := f.segElems
  let rec_ := dataLenOf b n + scaleLenOf b n
  decide (f.spec ≠ 0) || decide (h 2 1 ≥ 2) || fmtByteBad b || (!(byteFmt b).scaled && h 4 1 != 127) ||
  decide (h 5 3 ≠ 0) || !inRange 1 16384 d || decide (h 20 4 ≥ 2 ^ 20) || decide (h 24 2 ≥ 2 ^ 15) || decide (h 28 4 ≠ 0) ||
  decide (h 32 8 ≥ 2 ^ 42) || decide (h 44 20 ≠ 0) || ((byteFmt b).narrow && d % byteBlock b != 0) ||
  decide (f.segOff % 128 ≠ 0) || decide (f.segOff + n > d) || (decide (n % 128 ≠ 0) && f.segOff + n != d) ||
  decide (rec_ > 8128) || f.n != 1 + (rec_ + 63) / 64 || (f.cells.drop (64 + rec_)).any (· ≠ 0)

/-- A failure of ST_BAD_DESC against the entry (R333). -/
def Expert.refuses (x : Expert) (hdr : List Byte) : Bool :=
  let pass := fieldAt hdr 2 1 % 2
  fieldAt hdr 3 1 != x.inByte pass || fieldAt hdr 10 2 != x.dIn pass || (pass == 1 && !x.bwd)

/-! ### Returns (R343) -/

/-- The TOKEN_RES frame of a header cell and record. -/
def State.tokRes (s : State) (ch dst : Nat) (cells : List Byte) : Frame :=
  { ty := 7, vc := 6, ch := ch, dst := dst, src := s.devFid, cells := cells }

/-- The header cell of an unprocessed return. -/
def returnCell (hdr : List Byte) (st : Status) : List Byte :=
  padTo 64 (putBytes (putBytes (putBytes hdr 5 1 1) 6 1 st.code) 24 4 0)

/-- The frames of a token as they are read for a copy, and whether every word could be read: those of the overflow region are read
back first, and an uncorrectable word ends the reading; `none` while a read-back waits for its hanks or its bridge (04 R135, R138,
R141, R142). -/
def readFrames : List QFrame → State → Option (State × List QFrame × Bool)
  | [], s => some (s, [], true)
  | q :: r, s =>
    if s.frameUe q then some (s.logFrameUe q, q :: r, false)
    else if !q.ovf then (readFrames r s).map (fun a => (a.1, q :: a.2.1, a.2.2))
    else if s.readShut q.die || !s.mayDraw (rdbk q.die) q.hanks.length then none
    else match s.badHank q with
      | some h => some (s.noteBadHank q h, q :: r, false)
      | none =>
        let b := (s.chargeAlloc q.die 7).moveBack q
        (readFrames r b.2).map (fun a => (a.1, b.1 :: a.2.1, a.2.2))

/-- Read a token for a copy and release its hanks (R334); answers whether it could be read. One that could not is lost, and its operation
ends by its own timeout (04 R138, R142). -/
def State.takeTok (s : State) (t : Tok) : Option (State × Bool) :=
  (readFrames t.frames s).map (fun a => (a.2.1.foldl State.freeFrame a.1, a.2.2))

/-- Read tokens for a copy, each as its hanks allow; answers those that are lost. -/
def takeToks : List Tok → State → Option (State × List Tok)
  | [], s => some (s, [])
  | t :: r, s =>
    match s.takeTok t with
    | none => none
    | some a => (takeToks r a.1).map (fun b => (b.1, if a.2 then b.2 else t :: b.2))

/-- The bridges from a token's port die to a Skein, over which its notice and its cells go (R334), are open (06 R193). -/
def State.wayOpen (s : State) (k : Nat) (t : Tok) : Bool :=
  t.frames.isEmpty || !s.frozenOn (bridgesFrom t.die (skeinRoute t.die k))

/-- Return a token unprocessed from a Skein: its hanks are released when the return is sent (04 R138); `u` counts it. -/
def State.returnTok (s : State) (k u : Nat) (t : Tok) (st : Status) : State :=
  (s.bump .exp u (ecReturn + st.code)).sendSkeinWith k (t.frames.map QFrame.chain)
    (s.tokRes t.ch t.origin (returnCell t.hdr st))

/-- Return tokens. -/
def State.returnAll (s : State) (k u : Nat) (ts : List Tok) (st : Status) : State :=
  ts.foldl (fun s t => s.returnTok k u t st) s

/-! ### Arrival at the directory (R327, R328, R332, R333) -/

/-- The key of a token in assembly. -/
def Tok.keyOf (t : Tok) (q : QFrame) : Bool :=
  t.die == q.die && t.ing == q.ing && t.src == q.f.src && t.ch == q.f.ch && t.pass == fieldAt q.f.cells 2 1 % 2

/-- The token that a frame opens. -/
def tokOf (q : QFrame) : Tok :=
  { die := q.die, ing := q.ing, src := q.f.src, ch := q.f.ch, hdr := q.f.cells.take 64, first := q.stamp, stamp := q.stamp }

/-- Forward a frame to an owner (R328): it keeps its hanks and takes the queue of its egress, by store-and-forward where 04 R125 asks for
that egress. -/
def State.forwardTok (s : State) (q : QFrame) (owner : Nat) : State :=
  let f := { q.f with dst := owner, hops := q.f.hops + 1 }
  match s.routeUnicast q.die q.ing f with
  | .to lk h _ _ =>
    let path := s.pathFor q.die lk f h
    let s := s.dropQueued q
    let store := if q.store = 3 then 3 else s.portStore q.ing (q.store == 2) (.link lk) f.vc
    s.setFrames (s.buf.frames ++ [{ q with f := f, dest := .link lk, path := path, head := none, store := store }])
  | .discard c => (s.consume q).routeDiscard q.die q.ing c f
  | .torn l => (s.consume q).critical rowRoute q.die l 4 q.die (srcOf 3 q.die)
  | .many _ _ => s.consume q

/-- The Skein whose account takes a return made at a port die: the lower one it touches (DEDUCED: entry TOKRET). -/
def dieReturn (die : Nat) : Nat := (dieSkeins die).1

/-- The payload of token frames in order: elements, scales. -/
def framePayload (b : Nat) (qs : List QFrame) : List Byte × List Byte :=
  (qs.flatMap (fun q => (q.f.cells.drop 64).take (dataLenOf b q.f.segElems)),
   qs.flatMap (fun q => (q.f.cells.drop (64 + dataLenOf b q.f.segElems)).take (scaleLenOf b q.f.segElems)))

/-- A complete token is checked again and its notice goes to its expert's controller (R333, R334). -/
def State.completeTok (s : State) (t : Tok) : State :=
  match s.expert? t.expert with
  | none => s.returnTok (dieReturn t.die) t.die t .aborted
  | some x =>
    if t.frames.any (fun q => tokFrameBad q.f) then s.returnTok (dieReturn t.die) t.die t .badField
    else if t.frames.any (fun q => x.refuses (q.f.cells.take 64)) then s.returnTok (dieReturn t.die) t.die t .badDesc
    else (s.setExpert t.expert { x with notices := x.notices ++ [t] }).bump .exp 4 (ecNotice + t.pass)

/-- A frame that a token expects next: forwarded, or kept in its hanks. -/
def State.joinTok (s : State) (t : Tok) (q : QFrame) : State :=
  let next := q.f.segOff + q.f.segElems
  let rest := s.exp.toks.filter (· ≠ t)
  match t.fwd with
  | some owner =>
    let t := { t with next := next, stamp := q.stamp }
    let s := s.setToks (if next ≥ t.d then rest else rest ++ [t])
    s.forwardTok q owner
  | none =>
    let t := { t with next := next, stamp := q.stamp, frames := t.frames ++ [q] }
    if next = t.d then ((s.dropQueued q).setToks rest).completeTok t
    else (s.dropQueued q).setToks (rest ++ [t])

/-- The first frame of a token: capacity, the directory's decision, the first checks (R327, R332, R333). -/
def State.openTok (s : State) (q : QFrame) : State :=
  let t := tokOf q
  let fail (st : Status) : State := (s.dropQueued q).returnTok (dieReturn q.die) q.die { t with frames := [q] } st
  let open_ := (s.exp.toks.filter (fun t => t.die == q.die)).length
  if open_ ≥ 1024 then fail .capacity
  else
    let s1 := (s.setToks (s.exp.toks ++ [t])).peak q.die ecOpen (open_ + 1)
    match s.lookupExpert t.expert with
    | .owner fid =>
      let t' := { t with fwd := some fid }
      ((s.setToks (s.exp.toks ++ [t'])).peak q.die ecOpen (open_ + 1)).bump .exp q.die ecForward |>.joinTok t' q
    | .nobody => if tokFrameBad q.f then fail .badField else fail .badDesc
    | .hosted x =>
      if tokFrameBad q.f then fail .badField
      else if x.refuses t.hdr then fail .badDesc
      else s1.joinTok t q

/-- The stamp at which a token in assembly has failed (R332; 02 R52). -/
def State.asmEnd (s : State) (t : Tok) : Nat := t.first + s.setting idAsmLimit 0

/-- A token that is not complete in time is returned (R332). -/
def State.asmFail (s : State) (t : Tok) : State :=
  let s := s.setToks (s.exp.toks.filter (· ≠ t))
  if t.fwd.isSome then s else s.returnTok (dieReturn t.die) t.die t .timeout

/-- A TOKEN frame at the head of its ingress's queue toward the directory; one stamped at the limit of its token comes late. -/
def State.tokenIn (s : State) (q : QFrame) : State :=
  let s := match s.exp.toks.find? (fun t => t.keyOf q && decide (s.asmEnd t ≤ q.stamp)) with
    | some t => s.asmFail t
    | none => s
  let first (s : State) : State := if q.f.segOff = 0 then s.openTok q else s.discardTok q
  match s.exp.toks.find? (fun t => t.keyOf q) with
  | none => first s
  | some t =>
    if q.f.segOff = t.next then s.joinTok t q
    else
      let s := s.setToks (s.exp.toks.filter (· ≠ t))
      first (if t.fwd.isSome then s else s.returnTok (dieReturn t.die) t.die t .badField)

/-- TOKEN (R327, R328, R330 to R334). -/
def execToken (ing : Nat) (s : State) : Host.Outcome State Fault Refusal :=
  match s.localHead ing 5 6 with
  | none => .next s
  | some q => .next (s.tokenIn q)

/-- The TOKEN frames that have arrived are looked up before the directory changes: a change applies to tokens whose first
frame is stamped afterwards (R327). -/
def takeTokens : Nat → State → State
  | 0, s => s
  | fuel + 1, s =>
    match s.heads.find? (fun q => decide (q.dest = .directory)) with
    | none => s
    | some q => takeTokens fuel (s.tokenIn q)

/-- Every waiting TOKEN frame has been looked up. -/
def State.settleTokens (s : State) : State :=
  takeTokens (s.buf.frames.filter (fun q => decide (q.dest = .directory))).length s

/-- TOKEN_RES (05 R151, R165): an Oluac originates no tokens, so the frame is discarded and counted with the responses that match no
request. -/
def execTokenRes (ing : Nat) (s : State) : Host.Outcome State Fault Refusal :=
  match s.localHead ing 6 7 with
  | none => .next s
  | some q => .next ((s.consume q).bump .route q.die rcLate)

/-- ASM_LIMIT_EXPIRY (R332): a token that is not complete in time is returned; a frame of it stamped before the limit that still waits
for the directory goes first. -/
def execAsmLimitExpiry (ing src channel pass : Nat) (s : State) : Host.Outcome State Fault Refusal :=
  match s.exp.toks.find? (fun t => t.ing == ing && t.src == src && t.ch == channel && t.pass == pass) with
  | none => .next s
  | some t =>
    let waits := s.buf.frames.any (fun q => decide (q.dest = .directory) && t.keyOf q && decide (q.stamp < s.asmEnd t))
    if s.asmEnd t ≤ s.time.pip ∧ waits = false then .next (s.asmFail t) else .next s

/-! ### Tiles (R335, R336) -/

/-- A replica that may take runs. -/
def Replica.active (r : Replica) : Bool := !r.suspended && r.drop.isNone

/-- The open tile of a pass. -/
def Expert.tile (x : Expert) (pass : Nat) : Option Tile := if pass = 0 then x.openF else x.openB
/-- Replace it. -/
def Expert.setTile (x : Expert) (pass : Nat) (t : Option Tile) : Expert :=
  if pass = 0 then { x with openF := t } else { x with openB := t }

/-- Tokens of a run's tiles. -/
def Run.toks (r : Run) : List Tok := r.rows.filterMap id

/-- Tiles that no active replica can run are returned with ST_ABORTED (R340): the closed ones, those loaded in areas whose
run has not started, and keyed ones. -/
def State.dropTiles (s : State) (id : Nat) : State :=
  match s.expert? id with
  | none => s
  | some x =>
    if x.reps.any (fun r => r.2.active) then s
    else
      let idle (a : Option Run) : List Tok := match a with | some r => if r.running then [] else r.toks | none => []
      let keep (a : Option Run) : Option Run := match a with | some r => if r.running then a else none | none => none
      let ts := x.closed.flatMap (·.2.toks) ++
        x.reps.flatMap (fun r => idle r.2.a0 ++ idle r.2.a1 ++ r.2.keyed.flatMap (·.toks))
      let ks := (x.reps.map (fun r => r.2.sts.headD 0 / 256)).foldl addNew []
      let s := s.setExpert id { x with closed := [],
                                       reps := tabMap x.reps (fun _ r => { r with a0 := keep r.a0, a1 := keep r.a1, keyed := [] }) }
      let s := ks.foldl (fun s k => s.dropWork k (fun w => match w with | .run e _ _ => e == id | _ => false)) s
      s.returnAll x.home 4 ts .aborted

/-- Close the open tile of a pass. -/
def State.closeTile (s : State) (id pass : Nat) : State :=
  match s.expert? id with
  | none => s
  | some x =>
    match x.tile pass with
    | none => s
    | some t => (s.setExpert id ({ x with closed := x.closed ++ [(pass, t)] }.setTile pass none)).dropTiles id

/-- A token takes the next row of the open tile of its pass. -/
def State.placeTok (s : State) (id : Nat) (t : Tok) : State :=
  let s := match s.expert? id with
    | some x => (match x.tile t.pass with
      | some o => if o.t0 + x.tileWait ≤ t.stamp then s.closeTile id t.pass else s
      | none => s)
    | none => s
  match s.expert? id with
  | none => s
  | some x =>
    let o := (x.tile t.pass).getD { t0 := t.stamp, toks := [] }
    let o := { o with toks := o.toks ++ [t] }
    let s := s.setExpert id (x.setTile t.pass (some o))
    if o.toks.length ≥ 64 then s.closeTile id t.pass else s

/-- Staged tokens and those of keyed tiles that still hold a stage entry (R348). -/
def Expert.stagedNum (x : Expert) : Nat :=
  x.staged.length + (x.reps.map (fun r => (r.2.keyed.map (fun t => t.toks.countP (·.entry.isSome))).sum)).sum

/-- The lowest stage entry that no token holds. -/
def Expert.freeEntry (x : Expert) : Nat :=
  let used := (x.staged ++ x.reps.flatMap (fun r => r.2.keyed.flatMap (·.toks))).filterMap (·.entry)
  firstFree used (used.length + 1) 0

/-- A token with its payload copied and its hanks released. -/
def Tok.copied (t : Tok) : Tok :=
  if t.frames.isEmpty then t
  else
    let p := framePayload (t.h 3 1) t.frames
    { t with frames := [], data := p.1, scales := p.2 }

/-- The first notice in stamp order, ties by R191 over the ingress index (R335). -/
def firstNotice (pip : Nat) (l : List Tok) : Option Tok :=
  l.foldl (fun a t => match a with
    | none => some t
    | some b => if t.stamp < b.stamp ∨ (t.stamp = b.stamp ∧ tieWins pip t.ing b.ing) then some t else some b) none

/-- TILE_WAIT_EXPIRY (R336): a notice stamped before the expiry is placed first. -/
def execTileWaitExpiry (expert pass : Nat) (s : State) : Host.Outcome State Fault Refusal :=
  match s.expert? expert with
  | none => .next s
  | some x =>
    match x.tile pass with
    | none => .next s
    | some t =>
      if decide (t.t0 + x.tileWait ≤ s.time.pip) && decide (pass < 2) && x.notices.all (fun n => decide (t.t0 + x.tileWait ≤ n.stamp)) then
        .next (s.closeTile expert pass)
      else .next s

end Sys2Proof.Machine
end

