-- ==== Sys2Proof/Machine/Experts.lean ====
section
/-! DEFINITION. Experts: runs, gradients, replicas, commands (11 R337 to R353). -/

namespace Sys2Proof.Machine

open Sys2Proof

/-- The key of the launch record of a replica's run: runs take keys from 1,024 on. -/
def runKey (id r : Nat) : Nat := 1024 + 8 * id + r

/-- A replica of an expert. -/
def Expert.rep (x : Expert) (r : Nat) : Option Replica := tabGet? x.reps r
/-- Replace a replica. -/
def Expert.setRep (x : Expert) (r : Nat) (p : Replica) : Expert := { x with reps := tabPut x.reps r p }
/-- Replace a replica of an expert of the state. -/
def State.setRep (s : State) (id r : Nat) (p : Replica) : State :=
  match s.expert? id with | some x => s.setExpert id (x.setRep r p) | none => s

/-- An area of a replica. -/
def Replica.area (p : Replica) (a : Nat) : Option Run := if a = 0 then p.a0 else p.a1
/-- Replace an area. -/
def Replica.setArea (p : Replica) (a : Nat) (r : Option Run) : Replica := if a = 0 then { p with a0 := r } else { p with a1 := r }
/-- The run in progress and its area. -/
def Replica.running (p : Replica) : Option (Nat × Run) :=
  match p.a0, p.a1 with
  | some r, b => if r.running then some (0, r) else (match b with | some q => if q.running then some (1, q) else none | none => none)
  | none, some q => if q.running then some (1, q) else none
  | none, none => none

/-- The Skein of a replica, and its lead Stitch. -/
def Replica.lead (p : Replica) : Nat := p.sts.headD 0
def Replica.skein (p : Replica) : Nat := p.lead / 256

/-- The Dealer's key of a run: expert, pass, tile count (15 R428). -/
def keyRun (id : Nat) (r : Run) : List Nat := [1, id, r.pass, r.tiles.length]

/-- The item of a run. -/
def runItem (id r a : Nat) : Work := .run id r a

/-- The areas of a replica in the order in which they were loaded. -/
def Replica.order (p : Replica) : List Nat := if p.last = 0 then [1, 0] else [0, 1]

/-- An item stands in queue E of a Dealer, or has been started and not taken up. -/
def State.inDealer (s : State) (k : Nat) (w : Work) : Bool :=
  (s.dealer k).e.any (fun r => r.work == w) || (s.dealer k).started.contains w

/-- Loaded areas become ready items while the replica is free, in the order in which they were loaded; an item that is ready already
keeps its place (R348; 15 R428). -/
def State.queueRuns (s : State) (id r : Nat) (p : Replica) : State :=
  if p.running.isSome then s
  else p.order.foldl (fun (s : State) a => match p.area a with
    | some run => if s.inDealer p.skein (runItem id r a) then s else s.queueE p.skein (runItem id r a) (keyRun id run)
    | none => s) s

/-! ### Stashes (R345) -/

/-- The place of a stash slot and its tag: token_id, origin, step, generation (16 bytes; entry STASHTAG). -/
def Expert.stashPlace (x : Expert) (g slot : Nat) : Nat := x.stashAddr + slot * (16 + x.stBytes * g)
def stashTag (t : Tok) (gen : Nat) : List Byte :=
  leBytes 4 t.tid ++ leBytes 4 t.origin ++ leBytes 4 t.step ++ leBytes 4 gen

/-- Why a backward token's stash cannot be restored, if it cannot. -/
def State.stashBad (s : State) (x : Expert) (g : Nat) (t : Tok) : Option Status :=
  let ref := t.h 40 4
  let a := x.stashPlace g (ref % 2 ^ 24)
  if ref % 2 ^ 24 ≥ x.stashSlots then some .badDesc
  else if (s.firstUe (dramKey a) (16 + x.stBytes * g)).isSome then some .integrity
  else if s.read (dramKey a) 16 ≠ stashTag t (ref / 2 ^ 24) then some .badDesc else none

/-- An uncorrectable word of a token's stash is logged (17 Table 17-2). -/
def State.logStashUe (s : State) (x : Expert) (g : Nat) (t : Tok) : State :=
  if s.stashBad x g t ≠ some .integrity then s
  else match s.firstUe (dramKey (x.stashPlace g (t.h 40 4 % 2 ^ 24))) (16 + x.stBytes * g) with
    | some u => s.logUe u
    | none => s

/-! ### Gradients (R347, R348) -/

/-- The sum of the replicas' buffers at an element, each read under 07 R206, in ascending replica index, rounded to F32 at each
addition; and what is counted. -/
def State.gradSum (s : State) (x : Expert) (e : Nat) : Nat × Cnts :=
  let vals := x.reps.filterMap (fun r => (s.desc r.2.grad).d.map (fun d => readF32 (s.elemNum [] d 0 (e / d.cols) (e % d.cols))))
  match vals with
  | [] => (0, {})
  | v :: r =>
    let y := r.foldl (fun (a : Num × Cnts) b => let z := add32 .rn a.1 b.1; (z.1, (a.2.add b.2).add z.2)) v
    (Fmt.encode .f32 y.1, y.2)

/-- The first uncorrectable word of a slice of the replicas' buffers (13 R394). -/
def State.gradUe (s : State) (x : Expert) (n i : Nat) : Option Nat :=
  x.reps.findSome? (fun r => match (s.desc r.2.grad).d with
    | none => none
    | some d => (List.range (min 1024 (n - 1024 * i))).findSome? (fun j =>
        let e := 1024 * i + j
        s.rangesUe (({ handle := r.2.grad, gen := 0, d := d, row := e / d.cols, col := e % d.cols } : LatOp).ranges 0 1 1)))

/-- A slice of the summed gradient for a shard, and what is counted. -/
def State.gradSlice (s : State) (x : Expert) (y : Shard) (i : Nat) : List Nat × Cnts :=
  let vs := (List.range (min 1024 (y.n - 1024 * i))).map (fun j => s.gradSum x (1024 * i + j))
  (vs.map (fun v => v.1), sumCnts (vs.map (fun v => v.2)))

/-- No backward run of an expert is loaded, in progress or to come. -/
def Expert.backDone (x : Expert) : Bool :=
  let idle (a : Option Run) : Bool := match a with | some r => r.pass == 0 | none => true
  x.reps.all (fun r => idle r.2.a0 && idle r.2.a1 && r.2.keyed.isEmpty)

/-- Once the backward runs of a closed gradient have ended, it passes to the pipes of the shard, slice by slice. -/
def State.passGrad (s : State) (id : Nat) : State :=
  match s.expert? id with
  | none => s
  | some x =>
    if x.grad ≠ 1 || !x.backDone then s
    else
      let s := match s.shard? x.shardH with
        | some y =>
          if x.shardH = 0 then s
          else (List.range y.sliceNum).foldl (fun t i =>
            let r := s.gradSlice x y i
            let u := s.gradUe x y.n i
            (match u with | some u => t.logUe u | none => t).sliceReady x.shardH { s := i, g := r.1, bad := u.isSome } r.2) s
        | none => s
      let s := s.setExpert id { x with grad := 2, gradTicket := [] }
      x.gradTicket.foldl (fun s t => s.finish t .ok []) s

/-- Order of staged tokens: origin, then token_id (R348). -/
def insertStaged (t : Tok) : List Tok → List Tok
  | [] => [t]
  | u :: r => if t.origin < u.origin ∨ (t.origin = u.origin ∧ t.tid ≤ u.tid) then t :: u :: r else u :: insertStaged t r

/-- Tiles of 64. -/
def tilesOf : Nat → List Tok → List Tile
  | 0, _ => []
  | fuel + 1, l => if l.isEmpty then [] else { t0 := 0, toks := l.take 64 } :: tilesOf fuel (l.drop 64)

/-- The gradient closes (R347): with keyed = 1 the staged tokens form tiles, tile j on the j mod r-th active replica. -/
def State.closeGrad (s : State) (id : Nat) : State :=
  match s.expert? id with
  | none => s
  | some x =>
    if x.grad ≠ 0 then s
    else
      let act := (x.reps.filter (fun r => r.2.active)).map (·.1)
      let ts := tilesOf x.staged.length (x.staged.foldr insertStaged [])
      let mine (r : Nat) : List Tile :=
        (ts.zipIdx.filter (fun t => act[t.2 % act.length]? == some r)).map (fun t => { t.1 with t0 := t.2 })
      let y := { x with grad := 1, staged := [], reps := tabMap x.reps (fun r p => { p with keyed := p.keyed ++ mine r }) }
      let s := s.setExpert id y
      let s := if act.isEmpty then s.returnAll x.home 4 x.staged .aborted else s
      s.passGrad id

/-- Take a notice (R335 rules 1 to 5); one stamped at bwd_limit or later finds the gradient closed (R347; 02 R52). A staged token is
written into its entry of the stage region (R348); `none` while its reading waits. -/
def State.takeNotice (s : State) (id : Nat) (x : Expert) (t : Tok) : Option State :=
  let x := { x with notices := x.notices.erase t }
  let s := s.setExpert id x
  let ret (st : Status) : State := s.returnTok x.home 4 t st
  if t.step ≠ x.wstep then some (ret .epoch)
  else if t.pass = 0 then
    if x.fwd ≥ x.cap then some (ret .capacity)
    else some ((s.setExpert id { x with fwd := x.fwd + 1 }).placeTok id t)
  else if x.grad ≠ 0 then some (ret .late)
  else if x.firstBwd.any (fun f => decide (f + x.bwdLimit ≤ t.stamp)) then some ((s.closeGrad id).returnTok x.home 4 t .late)
  else
    let x := { x with firstBwd := some (x.firstBwd.getD t.stamp) }
    let s := s.setExpert id x
    if !x.isKeyed then some (s.placeTok id t)
    else if x.stagedNum ≥ x.stageTokens then some (s.returnTok x.home 4 t .capacity)
    else match s.takeTok t with
      | none => none
      | some (s, false) => some s
      | some (s, true) =>
        let c := t.copied
        let e := x.freeEntry
        let s := s.write (x.stageKey e) (padTo x.stageUnit (t.hdr ++ c.data ++ c.scales))
        let s := s.charge x.home clsExpert 0 (moveEu x.stageUnit)
        let c := { c with data := [], scales := [], entry := some e }
        some ((s.setExpert id { x with staged := x.staged ++ [c] }).peak 4 ecStage (x.stagedNum + 1))

/-- TOKEN_NOTICE (R334 to R336, R348; 15 R426): it waits for the bridges from the token's port die, and a staging for its class. -/
def execTokenNotice (expert : Nat) (s : State) : Host.Outcome State Fault Refusal :=
  match s.expert? expert with
  | none => .next s
  | some x =>
    match firstNotice s.time.pip x.notices with
    | none => .next s
    | some t =>
      if !s.wayOpen x.home t then .next s
      else if x.isKeyed && t.pass == 1 && !s.mayIssue x.home clsExpert then .next (s.noteHold x.home clsExpert)
      else .next ((s.takeNotice expert x t).getD s)

/-- BWD_LIMIT_EXPIRY (R347): notices stamped before the limit are taken first (02 R52). -/
def execBwdLimitExpiry (expert : Nat) (s : State) : Host.Outcome State Fault Refusal :=
  match s.expert? expert with
  | none => .next s
  | some x =>
    match x.firstBwd with
    | some t =>
      if decide (x.grad = 0) && decide (t + x.bwdLimit ≤ s.time.pip) && x.notices.all (fun n => decide (t + x.bwdLimit ≤ n.stamp)) then
        .next (s.closeGrad expert)
      else .next s
    | none => .next s

/-! ### Loading (R337, R339 steps 1, R345) -/

/-- The uncorrectable word of a token's stage entry (17 Table 17-2). -/
def State.stageUe (s : State) (x : Expert) (t : Tok) : Option Nat :=
  match t.entry with | some e => s.firstUe (x.stageKey e) x.stageUnit | none => none

/-- A token that may not be loaded: of another step, without its stash, or with an uncorrectable word in its stage entry. -/
def State.loadBad (s : State) (x : Expert) (g : Nat) (t : Tok) : Option Status :=
  if t.step ≠ x.wstep then some .epoch
  else if (s.stageUe x t).isSome then some .integrity
  else if t.pass = 1 then s.stashBad x g t else none

/-- A token with the payload that is loaded: that of its stage entry, or of its frames (R339, R348). -/
def State.loadTok (s : State) (x : Expert) (t : Tok) : Tok :=
  match t.entry with
  | none => t.copied
  | some e =>
    let dl := dataLenOf (t.h 3 1) t.d
    { t with data := s.read (x.stageKey e + 64) dl, scales := s.read (x.stageKey e + 64 + dl) (scaleLenOf (t.h 3 1) t.d), entry := none }

/-- Bytes of rows: those of valid rows, zeros elsewhere, up to the rows of the area. -/
def rowBytes (n rows : Nat) (f : Tok → List Byte) (l : List (Option Tok)) : List Byte :=
  (List.range rows).flatMap (fun i => match l.getD i none with
    | some t => padTo n (f t)
    | none => List.replicate n 0)

/-- Write the area of one Stitch, the i-th of the group (Table 11-2). -/
def State.fillArea (s : State) (x : Expert) (area pass g i st : Nat) (rows : List (Option Tok)) : State :=
  let b := x.inByte pass
  let d := x.dIn pass
  let off (j : Nat) : Nat := spadKey st (x.areaOff area j)
  let n := x.areaRows
  let s := s.write (off 0) (rowBytes (dataLenOf b d) n (·.data) rows)
  let s := if (byteFmt b).narrow then s.write (off 1) (rowBytes (scaleLenOf b d) n (·.scales) rows) else s
  let s := s.write (off 4) (rowBytes 8 n (fun t => leBytes 2 (t.h 8 2) ++ [1]) rows)
  if pass = 0 then s
  else rows.zipIdx.foldl (fun s p => match p.1 with
    | some t => s.write (off 5 + p.2 * x.stBytes)
        (s.read (dramKey (x.stashPlace g (t.h 40 4 % 2 ^ 24) + 16 + i * x.stBytes)) x.stBytes)
    | none => s) s

/-- The Stitches of a group leave HOLD when the controller works on them (15 R434). -/
def State.wakeGroup (s : State) (sts : List Nat) : State :=
  sts.foldl (fun s st =>
    let t := s.tile st
    let s := if t.power = .hold then s.setTile st { t with power := .active } else s
    let t := s.tile st
    s.setTile st { t with idle := tabPut t.idle 32 s.time.pip }) s

/-- The scratchpads of a group can be accessed: no bank of the area is in retention (R267). -/
def State.groupReady (s : State) (sts : List Nat) : Bool :=
  sts.all (fun st => decide ((s.tile st).awake = 0xFFFFFFFF#32) && decide ((s.tile st).power ≠ .retain))

/-- Load tiles into an area: tokens that may not be loaded are returned, the rest fill the area of every Stitch, but for those that
an uncorrectable word loses; `none` while the reading of a token waits. -/
def State.loadTiles (s : State) (id r area pass : Nat) (p : Replica) (tiles : List Tile) : Option State :=
  match s.expert? id with
  | none => some s
  | some x =>
    let g := p.sts.length
    let ts := tiles.flatMap (·.toks)
    let bad := ts.filterMap (fun t => (s.loadBad x g t).map (fun st => (t, st)))
    let before := s
    let s := bad.foldl (fun s b =>
      ((match s.stageUe x b.1 with | some u => s.logUe u | none => s).logStashUe x g b.1).returnTok x.home 4 b.1 b.2) s
    (takeToks (ts.filter (fun t => (before.loadBad x g t).isNone)) s).map (fun a =>
    let s := a.1
    let ok (t : Tok) : Bool := (before.loadBad x g t).isNone && !a.2.contains t
    let good := ts.filter ok
    let rows : List (Option Tok) := ts.map (fun t => if ok t then some (before.loadTok x t) else none)
    if good.isEmpty then s
    else
      let s := s.wakeGroup p.sts
      let s := p.sts.zipIdx.foldl (fun s q => s.fillArea x area pass g q.2 q.1 rows) s
      let b := x.inByte pass
      let bytes := g * x.areaRows * (dataLenOf b (x.dIn pass) + scaleLenOf b (x.dIn pass) + 8) +
        (if pass = 1 then g * good.length * x.stBytes else 0)
      let s := s.charge p.skein clsExpert 0 (moveEu bytes)
      let kept : List Tile := (tiles.map (fun t => { t with toks := (t.toks.filter ok).map (before.loadTok x) })).filter
        (fun t => !t.toks.isEmpty)
      let p := { p.setArea area (some { pass := pass, rows := rows, tiles := kept, start := s.time.pip, step := x.wstep }) with last := area }
      (s.setRep id r p).queueRuns id r p)

/-- The oldest closed tiles of one pass, at most n, and those left. Tiles of a step whose gradient has closed are
passed over (R347). -/
def Expert.nextTiles (x : Expert) : Option (Nat × List Tile × List (Nat × Tile)) :=
  let may (c : Nat × Tile) : Bool := x.grad == 0 || c.2.toks.any (fun t => t.step != x.wstep)
  match x.closed.find? may with
  | none => none
  | some c =>
    let mine := (x.closed.filter (fun d => may d && d.1 == c.1)).take x.runTiles
    some (c.1, mine.map (·.2), mine.foldl (fun l d => l.erase d) x.closed)

/-- The first free area of an active replica (R337). -/
def Expert.freeArea (x : Expert) : Option (Nat × Nat) :=
  (x.reps.filter (fun r => r.2.active)).findSome? (fun r =>
    if r.2.a0.isNone then some (r.1, 0) else if r.2.a1.isNone then some (r.1, 1) else none)

/-- The first free area of one replica. -/
def Replica.firstArea (p : Replica) : Option Nat := if p.a0.isNone then some 0 else if p.a1.isNone then some 1 else none

/-- RUN_LOAD (R334, R337, R339, R345, R348): a keyed tile of the replica first, else the oldest closed tiles. It waits while a bridge from
the port die of a token is frozen (06 R193), or the reading of a token waits. -/
def execRunLoad (expert replica area : Nat) (s : State) : Host.Outcome State Fault Refusal :=
  match s.expert? expert with
  | none => .next s
  | some x =>
    match x.rep replica with
    | none => .next s
    | some p =>
      if !p.active || !s.groupReady p.sts then .next s
      else
        let held (ts : List Tile) (t : Option State) : State :=
          if !(ts.flatMap (·.toks)).all (s.wayOpen p.skein) then s
          else if s.mayIssue p.skein clsExpert then t.getD s else s.noteHold p.skein clsExpert
        match p.keyed with
        | t :: rest =>
          if p.firstArea ≠ some area then .next s
          else .next ((held [t] ((s.setRep expert replica { p with keyed := rest }).loadTiles expert replica area 1 { p with keyed := rest } [t])).passGrad expert)
        | [] =>
          if x.freeArea ≠ some (replica, area) then .next s
          else match x.nextTiles with
            | none => .next s
            | some (pass, ts, rest) =>
              .next (held ts ((s.setExpert expert { x with closed := rest }).loadTiles expert replica area pass p ts))

/-! ### Starting (R339 steps 2 and 3, R346, R347) -/

/-- The elements of a gradient buffer's rows as byte ranges. -/
def Desc.rowRanges (d : Desc) : List (Nat × Nat) :=
  (List.range d.rows).map (fun r => (d.data + r * d.pitch, (d.cols * d.fmt.width + 7) / 8))

/-- Clear a replica's gradient buffer to +0; rows in DRAM that the device reserves are left (09 R275). -/
def State.clearGrad (s : State) (p : Replica) : State :=
  match (s.desc p.grad).d with
  | none => s
  | some d => d.rowRanges.foldl (fun s r =>
      if addrSpace r.1 == 0 && s.dramDenied (bits r.1 0 37) r.2 then s else s.write (memKey r.1) (List.replicate r.2 0)) s

/-- Every gradient buffer that is not clear is cleared before the first backward run of a step. -/
def State.clearGrads (s : State) (id : Nat) : State :=
  match s.expert? id with
  | none => s
  | some x =>
    let s := (x.reps.filter (fun r => !r.2.fresh)).foldl (fun s r => s.clearGrad r.2) s
    s.setExpert id { x with reps := tabMap x.reps (fun _ r => { r with fresh := true }) }

/-- Write the mask counters of every Stitch of a group (R346). -/
def State.writeMasks (s : State) (x : Expert) (p : Replica) : State :=
  p.sts.zipIdx.foldl (fun s q => (List.range x.maskUnits).foldl (fun s j =>
    s.writeCntr q.1 (x.maskBase + j) (b2n (bit (p.masks.getD q.2 0) j))) s) s

/-- The shard lets runs start: its update is neither open nor pending, and no restore of it runs (R341; 13 R390). -/
def State.shardQuiet (s : State) (x : Expert) : Bool :=
  if x.shardH = 0 then true
  else match s.shard? x.shardH with | some y => decide (y.st = .committed) && y.ready.isEmpty && y.restore.isNone | none => true

/-- The run of a started item begins. -/
def State.startRun (s : State) (id r area : Nat) (x : Expert) (p : Replica) (run : Run) : State :=
  let key := runKey id r
  let l : Launch := { st := .running, pat := x.patId run.pass, slots := p.slots, entry := x.entryWord run.pass area,
                      target := s.time.pip, runLimit := x.runLimit, step := x.wstep, arg0 := run.toks.length, arg1 := x.wstep,
                      start := s.time.pip }
  let s := if run.pass = 1 then (s.clearGrads id).writeMasks x p else s
  let s := s.setLaunch key l
  let p := match s.expert? id with | some y => (y.rep r).getD p | none => p
  let p := p.setArea area (some { run with running := true, start := s.time.pip })
  let s := (s.setRep id r p).dropWork p.skein (fun w => w == runItem id r 0 || w == runItem id r 1)
  let s := (s.bump .exp 4 ecRuns).bumpBy .exp 4 ecRows run.toks.length
  let s := (s.wakeGroup p.sts).startSlots key l
  if (s.patternOf l).isNone then p.slots.foldl (fun s q => s.slotFault q.1 q.2 .badDesc 0 l.entry false s.time.pip) s else s

/-- A forward run of a step whose gradient has closed starts no more (R347), but for one that stands in the way of keyed tiles that
have still to run. -/
def Expert.runOver (x : Expert) (p : Replica) (run : Run) : Bool :=
  run.pass == 0 && x.grad != 0 && run.step == x.wstep && (p.keyed.isEmpty || p.firstArea.isSome)

/-- RUN_START (R339, R341, R347; 15 R426, R428): an item that the Dealer started. A run whose step is over is returned instead. -/
def execRunStart (expert replica area : Nat) (s : State) : Host.Outcome State Fault Refusal :=
  match s.expert? expert with
  | none => .next s
  | some x =>
    match x.rep replica with
    | none => .next s
    | some p =>
      match p.area area with
      | none => .next s
      | some run =>
        if decide (area > 1) || p.running.isSome || !p.active || !(s.dealer p.skein).started.contains (runItem expert replica area) ||
           !s.shardQuiet x || x.runOver p run then .next s
        else if !s.mayIssue p.skein clsExpert then .next (s.noteHold p.skein clsExpert)
        else if run.step ≠ x.wstep then
          let s := s.takeUp p.skein (runItem expert replica area)
          .next (((s.setRep expert replica (p.setArea area none)).returnAll x.home 4 run.toks .epoch).passGrad expert)
        else .next (s.startRun expert replica area x p run)

/-! ### Results (R342, R345) -/

/-- Elements of the largest segment of a format: a multiple of 128 whose record fits in 8,128 bytes. -/
def segMax (b : Nat) : Nat := 128 * (8128 / (dataLenOf b 128 + scaleLenOf b 128))

/-- The header cell of a result segment. -/
def resultCell (x : Expert) (t : Tok) (pscale ref off n : Nat) : List Byte :=
  let h := putBytes (putBytes (putBytes t.hdr 3 1 (x.outByte t.pass)) 4 1 pscale) 5 2 0
  let h := putBytes (putBytes (putBytes h 10 2 (x.dOut t.pass)) 24 2 off) 26 2 n
  padTo 64 (putBytes h 40 4 ref)

/-- Send a row's result from a Skein. -/
def State.sendResult (s : State) (k : Nat) (x : Expert) (t : Tok) (ref : Nat) (data scales : List Byte) : State :=
  let b := x.outByte t.pass
  let f := byteFmt b
  let r := s.fresh
  let pscale := if f.scaled then r.1 % 256 else 127
  let segs := pieces (segMax b) (x.dOut t.pass / segMax b + 1) 0 (x.dOut t.pass)
  segs.foldl (fun s p =>
    let rec_ := (data.drop (p.1 * f.width / 8)).take (dataLenOf b p.2) ++
      (if f.narrow then (scales.drop (p.1 / byteBlock b)).take (scaleLenOf b p.2) else [])
    s.sendSkein k (s.tokRes t.ch t.origin (resultCell x t pscale ref p.1 p.2 ++ dataCells rec_))) r.2

/-- The statistics of R214 that a result's elements give: no conversion is made, so only amax and NaN blocks count
(DEDUCED: entry TOKSTAT). -/
def resultStats (b d : Nat) (data scales : List Byte) : Stats :=
  let f := byteFmt b
  let x := leNat data
  let elem (i : Nat) : Num :=
    loadElem f (if f.narrow then (scales.getD (i / byteBlock b) 0).toNat else 127) 127 (packGet f x i)
  { amax := (List.range d).foldl (fun a i => max a (amaxOf (elem i))) 0,
    nanblk := if f.narrow then scales.countP (· == 0xFF#8) else 0 }

/-- One valid row of a run that ended well: its stash is saved, its result sent; an uncorrectable word returns it. Answers
whether it was computed with ST_OK. -/
def State.endRow (s : State) (id : Nat) (p : Replica) (area row : Nat) (t : Tok) : State × Bool :=
  match s.expert? id with
  | none => (s, false)
  | some x =>
    let b := x.outByte t.pass
    let d := x.dOut t.pass
    let dl := dataLenOf b d
    let sl := scaleLenOf b d
    let a := spadKey p.lead (x.areaOff area 2 + row * dl)
    let c := spadKey p.lead (x.areaOff area 3 + row * sl)
    let stashed := t.pass == 0 && x.bwd
    let srcs := if stashed then p.sts.map (fun st => spadKey st (x.areaOff area 5 + row * x.stBytes)) else []
    let ue := match s.firstUe a dl with
      | some u => some u
      | none => match s.firstUe c sl with
        | some u => some u
        | none => srcs.findSome? (fun k => s.firstUe k x.stBytes)
    match ue with
    | some u => ((s.logUe u).returnTok p.skein 4 t .integrity, false)
    | none =>
      let data := s.read a dl
      let scales := s.read c sl
      let slot := x.stash % x.stashSlots
      let gen := x.stash / x.stashSlots % 256
      let ref := if t.pass = 1 then t.h 40 4 else if stashed then gen * 2 ^ 24 + slot else 0
      let s := if stashed then
          (s.write (dramKey (x.stashPlace p.sts.length slot)) (stashTag t gen ++ srcs.flatMap (fun k => s.read k x.stBytes)))
        else s
      let x' := { x with stash := if stashed then x.stash + 1 else x.stash, stats := x.stats.add (resultStats b d data scales) }
      let s := s.setExpert id x'
      let s := s.charge p.skein clsExpert 0 (moveEu (dl + sl + srcs.length * x.stBytes))
      (s.sendResult p.skein x t ref data scales, true)

/-! ### The end of a run (R339 step 4, R340, R344, R347) -/

/-- Suspend a replica: the trouble-log entry carries the fault record (R340). -/
def State.suspendRep (s : State) (id r : Nat) (st : Status) (f : Option FaultRec) : State :=
  match s.expert? id with
  | none => s
  | some x =>
    match x.rep r with
    | none => s
    | some p =>
      let s := s.setExpert id (x.setRep r { p with suspended := true, fault := match f with | some y => some y | none => p.fault })
      let s := s.logRaise 0x0B01 2 st.code (srcOf 2 ((f.map (·.st)).getD p.lead)) ((f.map (·.tag)).getD 0) (id + r * 2 ^ 16)
      s.dropTiles id

/-- The tiles of the loaded areas of a replica, in the order in which they were loaded. -/
def Replica.loaded (p : Replica) : List (Nat × Tile) :=
  p.order.flatMap (fun a => match p.area a with | some q => q.tiles.map (fun u => (q.pass, u)) | none => [])

/-- A keyed tile takes its place among others, in ascending j (R348). -/
def insertKeyed (t : Tile) : List Tile → List Tile
  | [] => [t]
  | u :: r => if t.t0 ≤ u.t0 then t :: u :: r else u :: insertKeyed t r

/-- A drop completes (R344): slots are released, loaded tiles go back in front in their order; keyed ones (R348), loaded or not, go to the
first other active replica, which runs them with its own in ascending j. -/
def State.finishDrop (s : State) (id r : Nat) : State :=
  match s.expert? id with
  | none => s
  | some x =>
    match x.rep r with
    | none => s
    | some p =>
      match p.drop with
      | none => s
      | some t =>
        let back := p.loaded
        let own := if x.isKeyed then (back.filter (fun c => c.1 == 1)).map (·.2) ++ p.keyed else p.keyed
        let rest := tabDel x.reps r
        let heir := (rest.find? (fun e => e.2.active)).map (·.1)
        let x' := { x with closed := back.filter (fun c => !(x.isKeyed && c.1 == 1)) ++ x.closed,
                           reps := tabMap rest (fun k q => if some k = heir then { q with keyed := own.foldr insertKeyed q.keyed } else q) }
        let s := (s.setExpert id x').unreserve (runKey id r) p.slots
        let s := s.dropWork p.skein (fun w => w == runItem id r 0 || w == runItem id r 1)
        let s := if heir.isNone then s.returnAll x.home 4 (own.flatMap (·.toks)) .aborted else s
        ((s.dropTiles id).finish t .ok []).passGrad id

/-- The rows of a run that ended: results, or returns with the run's status. -/
def State.endRows (s : State) (id : Nat) (_ : Expert) (p : Replica) (area : Nat) (run : Run) (l : Launch) : State × Nat :=
  if l.fault.isSome then (s.returnAll p.skein 4 run.toks l.status, 0)
  else run.rows.zipIdx.foldl (fun a q => match q.1 with
    | some t => let b := a.1.endRow id p area q.2 t; (b.1, a.2 + b2n b.2)
    | none => a) (s, 0)

/-- Count the rows computed with ST_OK for the present step; equal counts close the gradient (R347). -/
def State.countRows (s : State) (id : Nat) (run : Run) (n : Nat) : State :=
  match s.expert? id with
  | none => s
  | some x =>
    if run.step ≠ x.wstep then s
    else if run.pass = 0 then s.setExpert id { x with okF := x.okF + n }
    else
      let y := { x with okB := x.okB + n }
      let s := s.setExpert id y
      if n ≠ 0 ∧ y.okB = y.okF then s.closeGrad id else s

/-- The run in progress of a replica ends. -/
def State.endRun (s : State) (id r : Nat) (x : Expert) (p : Replica) (area : Nat) (run : Run) (l : Launch) : State :=
  let e := s.endRows id x p area run l
  let s := e.1.setPat { e.1.pat with launches := tabDel e.1.pat.launches (runKey id r) }
  let s := s.noteEst p.skein (keyRun id run) l.energy
  let p := p.setArea area none
  let s := s.setRep id r p
  let s := if l.fault.isSome then s.suspendRep id r l.status l.fault else s
  let s := (s.countRows id run e.2).passGrad id
  match (s.expert? id).bind (fun y => y.rep r) with
  | none => s
  | some q => if q.drop.isSome then s.finishDrop id r else if q.suspended then s else s.queueRuns id r q

/-- RUN_END (R339, R340, R342, R345, R347): results and stashes are controller moves, which wait for their class (15 R426); a run with a
fault has none. -/
def execRunEnd (expert replica : Nat) (s : State) : Host.Outcome State Fault Refusal :=
  match s.expert? expert with
  | none => .next s
  | some x =>
    match x.rep replica with
    | none => .next s
    | some p =>
      match p.running, s.launch (runKey expert replica) with
      | some (area, run), some l =>
        if l.slots.all (s.slotOver (runKey expert replica)) && s.groupReady p.sts then
          if l.fault.isNone && !s.mayIssue p.skein clsExpert then .next (s.noteHold p.skein clsExpert)
          else .next ((s.endRun expert replica x p area run l).tryRestore x.shardH)
        else .next s
      | _, _ => .next s

/-- Stop the run in progress of a replica (R323). -/
def State.stopRun (s : State) (id r : Nat) (st : Status) : State :=
  match s.launch (runKey id r) with
  | none => s
  | some l => l.slots.foldl (fun s q => s.stopRunning (runKey id r) q st) s

/-- RUN_LIMIT_EXPIRY (R340): the run is stopped; RUN_END returns its rows and suspends the replica. -/
def execRunLimitExpiry (expert replica : Nat) (s : State) : Host.Outcome State Fault Refusal :=
  match s.expert? expert with
  | none => .next s
  | some x =>
    match (x.rep replica).bind Replica.running with
    | none => .next s
    | some (_, run) =>
      if decide (x.runLimit ≠ 0) && decide (run.start + x.runLimit ≤ s.time.pip) then .next (s.stopRun expert replica .timeout)
      else .next s

/-! ### Removal and resets (R350, R353) -/

/-- Tokens that an expert's controller holds. -/
def Expert.held (x : Expert) : List Tok :=
  let area (a : Option Run) : List Tok := match a with | some r => r.toks | none => []
  x.notices ++ (x.openF.map (·.toks)).getD [] ++ (x.openB.map (·.toks)).getD [] ++ x.closed.flatMap (·.2.toks) ++ x.staged ++
  x.reps.flatMap (fun r => area r.2.a0 ++ area r.2.a1 ++ r.2.keyed.flatMap (·.toks))

/-- Tokens that wait in the queues of an expert: those noticed and not loaded, and those in assembly (R334, R352). -/
def State.queuedToks (s : State) (id : Nat) (x : Expert) : List Tok :=
  s.exp.toks.filter (fun t => t.fwd.isNone && t.expert == id) ++ x.waitToks

/-- Bind or unbind the shard of an expert. -/
def State.bindShard (s : State) (h : Nat) (e : Option Nat) : State :=
  if h = 0 then s else match s.shard? h with | some y => s.setShard h { y with expert := e } | none => s

/-- Remove a hosted expert: its runs are stopped, its tokens returned, its slots released. Answers how many tokens. -/
def State.removeExpert (s : State) (id : Nat) (x : Expert) : State × Nat :=
  let asm := s.exp.toks.filter (fun t => t.fwd.isNone && t.expert == id)
  let ts := asm ++ x.held
  let s := s.setToks (s.exp.toks.filter (fun t => !(t.fwd.isNone && t.expert == id)))
  let s := x.reps.foldl (fun s r =>
    let s := (s.stopRun id r.1 .aborted).unreserve (runKey id r.1) r.2.slots
    let s := s.setPat { s.pat with launches := tabDel s.pat.launches (runKey id r.1) }
    let s := s.dropWork r.2.skein (fun w => match w with | .run e _ _ => e == id | _ => false)
    match r.2.drop with | some t => s.finish t .aborted [] | none => s) s
  let s := x.gradTicket.foldl (fun s t => s.finish t .aborted []) s
  let s := (s.setExp { s.exp with exact := tabDel s.exp.exact id, index := tabDel s.exp.index id }).bindShard x.shardH none
  (s.returnAll x.home 4 ts .aborted, ts.length)

/-- A reset at SKEIN scope or wider (R350): replicas on the Skein are suspended, their runs end with ST_ABORTED; an expert
whose home it is returns what it has noticed and not loaded, and loses its staged tokens. The Stitches themselves are reset
by the caller. -/
def State.resetExperts (s : State) (k : Nat) : State :=
  let hit := s.exp.exact.filterMap (fun e => match e.2 with
    | .here x => if x.home == k || x.reps.any (fun r => r.2.skein == k) then some e.1 else none
    | _ => none)
  hit.foldl (fun (s : State) id =>
    match s.expert? id with
    | none => s
    | some x =>
      let s := if x.home ≠ k then s else
        let ts := x.notices ++ (x.openF.map (·.toks)).getD [] ++ (x.openB.map (·.toks)).getD [] ++ x.closed.flatMap (·.2.toks)
        let s := s.setExpert id { x with notices := [], openF := none, openB := none, closed := [], staged := [],
                                         reps := tabMap x.reps (fun _ r => { r with keyed := [] }) }
        (s.returnAll k 4 ts .aborted).bumpBy .exp 4 ecDiscard x.stagedNum
      (x.reps.filter (fun r => r.2.skein == k)).foldl (fun (s : State) r =>
        match (s.expert? id).bind (fun y => y.rep r.1) with
        | none => s
        | some p =>
          let area (a : Option Run) : List Tok := match a with | some q => q.toks | none => []
          let f := (s.launch (runKey id r.1)).bind (·.fault)
          let s := s.returnAll k 4 (area p.a0 ++ area p.a1) .aborted
          let s := s.setPat { s.pat with launches := tabDel s.pat.launches (runKey id r.1) }
          let s := s.setRep id r.1 { p with a0 := none, a1 := none }
          let s := s.dropWork k (fun w => match w with | .run e _ _ => e == id | _ => false)
          let s := s.suspendRep id r.1 .aborted f
          (s.finishDrop id r.1).passGrad id) s) s

/-- A reset at PORT scope or wider empties the buffer of a die: the tokens in its hanks are lost (R350). -/
def State.resetDieTokens (s : State) (die : Nat) : State :=
  let keep (t : Tok) : Bool := t.die != die || t.frames.isEmpty
  let tile (t : Tile) : Tile := { t with toks := t.toks.filter keep }
  s.setExp { s.exp with
    toks := s.exp.toks.filter (fun t => t.die != die),
    exact := tabMap s.exp.exact (fun _ e => match e with
      | .here x => .here { x with notices := x.notices.filter keep, openF := x.openF.map tile, openB := x.openB.map tile,
                                  closed := x.closed.map (fun c => (c.1, tile c.2)) }
      | e => e) }

/-! ### Commands (R351 to R353) -/

/-- A field of a descriptor outside Table 11-4. -/
def expertFieldBad (x : Expert) : Bool :=
  let b := x.bwd
  let mult (byte n : Nat) : Bool := (byteFmt byte).narrow && n % byteBlock byte != 0
  decide (x.f 0 1 ≠ 1) || decide (x.f 1 1 ≥ 4) || fmtByteBad (x.inByte 0) || fmtByteBad (x.outByte 0) ||
  (if b then fmtByteBad (x.inByte 1) || fmtByteBad (x.outByte 1) else x.inByte 1 != 0 || x.outByte 1 != 0) ||
  !inRange 1 16384 (x.dIn 0) || !inRange 1 16384 (x.dOut 0) || mult (x.inByte 0) (x.dIn 0) || mult (x.outByte 0) (x.dOut 0) ||
  (b && (mult (x.inByte 1) (x.dIn 1) || mult (x.outByte 1) (x.dOut 1))) ||
  !inRange 1 64 x.slotsPer || !inRange 1 4 x.runTiles || (x.isKeyed && x.runTiles != 1) ||
  !inRange (2 ^ 8) (2 ^ 24) x.tileWait || !inRange 1 (2 ^ 24) x.cap || decide (x.stashSlots > 2 ^ 24) ||
  (!b && x.stashSlots != 0) || decide (x.stBytes > 65536) || decide (x.stBytes % 64 ≠ 0) ||
  (x.runLimit != 0 && !inRange (2 ^ 12) (2 ^ 30) x.runLimit) || decide (x.maskUnits > 8) || decide (x.f 45 1 ≠ 0) ||
  (if x.isKeyed then !inRange 1 (2 ^ 24) x.stageTokens else x.stageTokens != 0 || x.stageAddr != 0) ||
  !inRange (2 ^ 12) (2 ^ 30) x.bwdLimit || decide (x.f 58 6 ≠ 0) || decide (bits x.gradH 12 2 ≠ 0) ||
  decide (bits x.shardH 10 6 ≠ 0) || decide (x.stashAddr % 64 ≠ 0) ||
  decide (x.stageAddr % 64 ≠ 0) ||
  dramOut x.stashAddr x.stashLen || dramOut x.stageAddr x.stageLen || decide (x.stageAddr ≥ 2 ^ 37)

/-- The regions of an area with their lengths (Table 11-2): the larger of the passes. -/
def Expert.regions (x : Expert) (area : Nat) : List (Nat × Nat) :=
  let r := x.areaRows
  let dm := max (x.dIn 0) (x.dOut 0)
  let byPass (f : Nat → Nat) : Nat := max (f 0) (if x.bwd then f 1 else 0)
  let len (i : Nat) : Nat := match i with
    | 0 => byPass (fun p => r * dataLenOf (x.inByte p) dm)
    | 1 => byPass (fun p => r * scaleLenOf (x.inByte p) (x.dIn p))
    | 2 => byPass (fun p => r * dataLenOf (x.outByte p) dm)
    | 3 => byPass (fun p => r * scaleLenOf (x.outByte p) (x.dOut p))
    | 4 => r * 8
    | _ => r * x.stBytes
  ((List.range 6).map (fun i => (x.areaOff area i, len i))).filter (fun e => e.2 != 0)

/-- Two of the ranges meet. -/
def anyOverlap : List (Nat × Nat) → Bool
  | [] => false
  | a :: r => r.any (fun b => overlaps a.1 a.2 b.1 b.2) || anyOverlap r

/-- The conditions of R338 on a descriptor and on a replica's Stitches. -/
def Expert.placeBad (x : Expert) : Bool :=
  let rs := x.regions 0 ++ x.regions 1
  rs.any (fun r => decide (r.1 + r.2 > 2 ^ 19)) || anyOverlap rs || decide (x.maskBase + x.maskUnits > 16)
def groupBad (sts : List Nat) (g : Nat) : Bool :=
  sts.isEmpty || sts.any (fun st => st / 256 != sts.headD 0 / 256) || sts.length != g

/-- A Pattern that is not loaded, or an entry word beyond it. -/
def State.expPatBad (s : State) (x : Expert) (pass : Nat) : Bool :=
  match tabGet? s.pat.pats (x.patId pass) with
  | none => true
  | some p => decide (x.entryWord pass 0 ≥ p.count) || decide (x.entryWord pass 1 ≥ p.count)

/-- A new replica with its slots reserved. -/
def State.addReplica (s : State) (id r grad : Nat) (sts : List Nat) (slots : List (Nat × Nat)) : State :=
  let s := s.reserveSlots (runKey id r) slots
  s.setRep id r { sts := sts, grad := grad, slots := slots }

/-- EXP_PLACE (R326, R329, R338, R351, R352): stash and stage regions are no DRAM that the device reserves (01 R28; 09 R275). -/
def execExpPlace (o : Origin) (addr : Nat) (s : State) : Host.Outcome State Fault Refusal :=
  let x : Expert := { d := s.read (dramKey addr) 256 }
  let id := x.f 2 2
  let sts := x.map0
  let slots := s.takeAll sts x.slotsPer
  let shardBad := x.shardH != 0 && (match s.shard? x.shardH with | some y => y.kind != 2 | none => true)
  s.loading o 0x0801 [addr] addr 256
    (s.addrChks 0 addr 256 1 ++ [badFld 0 (expertFieldBad x), s.ownChk o resExp, ⟨decide (s.sec.grade = .n), .unitAbsent, none⟩] ++
     s.stitchChks sts ++
     [⟨x.extents.any (fun r => s.dramDenied r.1 r.2), .denied, none⟩,
      ⟨(tabGet? s.exp.exact id).isSome || s.expPatBad x 0 || (x.bwd && s.expPatBad x 1) || shardBad ||
        (x.bwd && (s.desc x.gradH).d.isNone) || (x.bwd && decide (x.stashSlots < x.cap)) || x.placeBad || groupBad sts sts.length,
        .badDesc, none⟩,
      ⟨decide (s.exp.exact.length ≥ 2048), .capacity, none⟩, ⟨slots.isNone, .busy, none⟩])
    (fun _ s =>
      let s := s.settleTokens
      let idx := firstFree (s.exp.index.map (·.2)) 2049 0
      let s := s.setExp { s.exp with exact := tabPut s.exp.exact id (.here x), index := tabPut s.exp.index id idx }
      let s := (s.bindShard x.shardH (some id)).addReplica id 0 x.gradH sts (slots.getD [])
      let s := match s.shard? x.shardH, s.expert? id with
        | some y, some z => if x.shardH = 0 then s else s.setExpert id { z with wstep := y.version }
        | _, _ => s
      (s, .done .ok [uf 2 idx, uf 4 (slots.getD []).length, uf 8 s.time.pip]))

/-- The refusal of an expert without an exact entry; of one that is not hosted here. -/
def State.noEntry (s : State) (id : Nat) : Chk := ⟨(tabGet? s.exp.exact id).isNone, .badDesc, some 0⟩
def State.notHosted (s : State) (id : Nat) : Chk := ⟨(s.expert? id).isNone, .badDesc, some 0⟩
/-- The refusal of a replica that is not present. -/
def State.noReplica (s : State) (id r : Nat) : Chk := badFld 1 ((s.expert? id).isSome && ((s.expert? id).bind (fun x => x.rep r)).isNone)

/-- EXP_REMOVE (R353). -/
def execExpRemove (o : Origin) (expert : Nat) (s : State) : Host.Outcome State Fault Refusal :=
  s.command o 0x0802 [expert] [s.ownChk o resExp, s.noEntry expert] (fun _ s =>
    let s := s.settleTokens
    let r : State × Nat := match s.expert? expert with
      | some x => s.removeExpert expert x
      | none => (s.setExp { s.exp with exact := tabDel s.exp.exact expert, index := tabDel s.exp.index expert }, 0)
    (r.1, .done .ok [uf 4 r.2, uf 8 s.time.pip]))

/-- EXP_REPLICA_ADD (R338, R344). -/
def execExpReplicaAdd (o : Origin) (expert map grad : Nat) (s : State) : Host.Outcome State Fault Refusal :=
  let sts := mapStitches (s.readNat (dramKey map) 128)
  let x := s.expert? expert
  let g := match x with | some x => ((x.reps.head?).map (fun r => r.2.sts.length)).getD x.map0.length | none => 0
  let slots := s.takeAll sts ((x.map Expert.slotsPer).getD 1)
  s.loading o 0x0803 [expert, map, grad] map 128
    (s.addrChks 1 map 128 1 ++ [badFld 2 (decide (bits grad 12 2 ≠ 0)), s.ownChk o resExp, ⟨decide (s.sec.grade = .n), .unitAbsent, none⟩] ++ s.stitchChks sts ++
     [s.notHosted expert,
      ⟨groupBad sts g, .badDesc, none⟩,
      ⟨match x with | some x => decide (x.reps.length ≥ 8) | none => false, .capacity, none⟩, ⟨slots.isNone, .busy, none⟩])
    (fun _ s =>
      let r := match s.expert? expert with | some x => firstFree (x.reps.map (·.1)) 9 0 | none => 0
      (s.addReplica expert r grad sts (slots.getD []), .done .ok [uf 1 r]))

/-- EXP_REPLICA_DROP (R344): it completes when a run in progress has ended. -/
def execExpReplicaDrop (o : Origin) (expert replica : Nat) (s : State) : Host.Outcome State Fault Refusal :=
  let last := match s.expert? expert with | some x => decide (x.reps.length = 1) && !(s.queuedToks expert x).isEmpty | none => false
  s.command o 0x0804 [expert, replica]
    [s.noReplica expert replica, s.ownChk o resExp, s.notHosted expert, ⟨last, .badDesc, some 1⟩]
    (fun t s =>
      match s.expert? expert with
      | none => (s, .done .ok [])
      | some x => match x.rep replica with
        | none => (s, .done .ok [])
        | some p =>
          let s := match p.drop with | some u => s.finish u .aborted [] | none => s
          let s := s.setExpert expert (x.setRep replica { p with drop := some t })
          (if p.running.isSome then s else s.finishDrop expert replica, .later))

/-- EXP_REMOTE_SET (R326, R328, R353). -/
def execExpRemoteSet (o : Origin) (kind index lo hi owner remove : Nat) (s : State) : Host.Outcome State Fault Refusal :=
  let here := (s.expert? lo).isSome
  s.command o 0x0805 [kind, index, lo, hi, owner, remove]
    [badFld 0 (decide (kind > 1)), badFld 1 (decide (index > 63)), badFld 4 (decide (owner ≥ 2 ^ 20)), badFld 5 (decide (remove > 1)),
     s.ownChk o resExp,
     ⟨remove == 0 && (owner == s.devFid || owner == 0xFFFFF), .badDesc, some 4⟩, ⟨kind == 0 && here, .badDesc, some 2⟩,
     ⟨kind == 0 && remove == 0 && (tabGet? s.exp.exact lo).isNone && decide (s.exp.exact.length ≥ 2048), .capacity, none⟩]
    (fun _ s =>
      let s := s.settleTokens
      let e := s.exp
      let idx := (tabGet? e.index lo).getD (firstFree (e.index.map (·.2)) 2049 0)
      let e := if kind = 1 then
          { e with ranges := if remove = 1 then tabDel e.ranges index else tabPut e.ranges index (lo, hi, owner) }
        else if remove = 1 then { e with exact := tabDel e.exact lo, index := tabDel e.index lo }
        else { e with exact := tabPut e.exact lo (.remote owner), index := tabPut e.index lo idx }
      (s.setExp e, .done .ok []))

/-- EXP_MASK_SET (R346): bit i × mask_units + j of the operand is bit j of the i-th Stitch. -/
def execExpMaskSet (o : Origin) (expert replica addr : Nat) (s : State) : Host.Outcome State Fault Refusal :=
  let x := s.expert? expert
  let g := ((x.bind (fun x => x.rep replica)).map (fun p => p.sts.length)).getD 0
  let u := (x.map Expert.maskUnits).getD 0
  let n := (g * u + 7) / 8
  s.loading o 0x0806 [expert, replica, addr] addr n
    (s.addrChks 2 addr n 1 ++ [s.noReplica expert replica, s.ownChk o resExp, s.notHosted expert])
    (fun _ s =>
      let m := s.readNat (dramKey addr) n
      match s.expert? expert with
      | none => (s, .done .ok [])
      | some x => match x.rep replica with
        | none => (s, .done .ok [])
        | some p => (s.setExpert expert (x.setRep replica { p with masks := (List.range g).map (fun i => bits m (i * u) u) }),
                       .done .ok []))

/-- EXP_STEP_SET (R335): an entry without a shard; a gradient close that waits ends with ST_ABORTED. -/
def execExpStepSet (o : Origin) (expert step : Nat) (s : State) : Host.Outcome State Fault Refusal :=
  s.command o 0x0807 [expert, step]
    [s.ownChk o resExp, s.notHosted expert,
     ⟨match s.expert? expert with | some x => x.shardH != 0 | none => false, .badDesc, some 0⟩]
    (fun _ s => match s.expert? expert with
      | none => (s, .done .ok [])
      | some x =>
        let s := s.setExpert expert { x.advance step with gradTicket := [] }
        (x.gradTicket.foldl (fun s t => s.finish t .aborted []) s, .done .ok [uf 4 x.wstep]))

/-- EXP_GRAD_CLOSE (R347): it completes when the gradient has passed. -/
def execExpGradClose (o : Origin) (expert step : Nat) (s : State) : Host.Outcome State Fault Refusal :=
  s.command o 0x0808 [expert, step]
    [s.ownChk o resExp, s.notHosted expert,
     ⟨match s.expert? expert with | some x => !x.bwd | none => false, .badDesc, some 0⟩,
     ⟨match s.expert? expert with | some x => x.wstep != step | none => false, .badDesc, some 1⟩]
    (fun t s => match s.expert? expert with
      | none => (s, .done .ok [])
      | some x =>
        if x.grad = 2 then (s, .done .ok [])
        else
          let s := s.setExpert expert { x with gradTicket := x.gradTicket ++ [t] }
          (if x.grad = 0 then s.closeGrad expert else s.passGrad expert, .later))

/-- The fields of a replica in a status. -/
def repFlds (e : Nat × Replica) : List Fld :=
  let p := e.2
  let st (a : Option Run) : Nat := match a with | none => 0 | some r => if r.running then 2 else 1
  let start := match p.running with | some (_, r) => r.start | none => 0
  [uf 1 (if p.suspended then 1 else if p.drop.isSome then 2 else 0), uf 1 (st p.a0), uf 1 (st p.a1), uf 8 start] ++
  faultFlds p.fault

/-- EXP_STATUS (R352). -/
def execExpStatus (o : Origin) (expert clear : Nat) (s : State) : Host.Outcome State Fault Refusal :=
  s.command o 0x0809 [expert, clear] (clearChks o 1 clear ++ [s.noEntry expert]) (fun _ s =>
    match s.expert? expert with
    | none => (s, .done .ok ([uf 1 1, uf 4 0, uf 4 0, uf 1 0] ++ (List.range 4).map (fun _ => uf 4 0) ++ listFlds [] ++
        (List.range 4).map (fun _ => uf 4 0)))
    | some x =>
      let cl (pass : Nat) : Nat := x.closed.countP (fun c => c.1 == pass)
      let keyed := (x.reps.map (fun r => r.2.keyed.length)).sum
      let res := [uf 1 0, uf 4 x.wstep, uf 4 x.fwd, uf 1 x.grad, uf 4 (b2n x.openF.isSome), uf 4 (cl 0),
          uf 4 (b2n x.openB.isSome), uf 4 (cl 1 + keyed)] ++
        listFlds (x.reps.map repFlds) ++ [uf 4 x.stats.amax, uf 4 x.stats.sat, uf 4 x.stats.inv, uf 4 x.stats.nanblk]
      (if clear = 1 then s.setExpert expert { x with stats := {} } else s, .done .ok res))

/-- EXP_COUNTERS (R352). -/
def execExpCounters (o : Origin) (die clear : Nat) (s : State) : Host.Outcome State Fault Refusal :=
  s.command o 0x080A [die, clear] (badFld 0 (decide (die > 4)) :: clearChks o 1 clear) (fun _ s =>
    let c (i : Nat) : Fld := uf 4 (s.count .exp die i)
    (s.clearIf clear .exp die, .done .ok ([c ecForward, c ecNotice, c (ecNotice + 1), c ecRuns, c ecRows] ++
      (List.range 17).map (fun i => c (ecReturn + i)) ++ [c ecDiscard, c ecOpen, c ecStage])))

/-- EXP_RESUME (R340). -/
def execExpResume (o : Origin) (expert replica : Nat) (s : State) : Host.Outcome State Fault Refusal :=
  let p := (s.expert? expert).bind (fun x => x.rep replica)
  s.command o 0x080B [expert, replica]
    [s.noReplica expert replica, s.ownChk o resExp, s.notHosted expert,
     ⟨match p with | some p => !p.suspended | none => false, .busy, none⟩]
    (fun _ s => match s.expert? expert with
      | none => (s, .done .ok [])
      | some x => match x.rep replica with
        | none => (s, .done .ok [])
        | some p =>
          let s := p.slots.foldl (fun s q =>
            let y := s.slot q.1 q.2
            if y.st = .faulted then s.setSlot q.1 q.2 { reserved := y.reserved, mem := y.mem, held := y.held } else s) s
          let p := { p with suspended := false }
          ((s.setExpert expert (x.setRep replica p)).queueRuns expert replica p, .done .ok []))

end Sys2Proof.Machine
end

