-- ==== Sys2Proof/Machine/Power.lean ====
section
/-! DEFINITION. Power: sensors, grants, holds, the Dealer, clocks and voltage, emergencies, Stitch power states, commands
(15). -/

namespace Sys2Proof.Machine

open Sys2Proof

/-! ### Sensors (R421, R422, R432) -/

/-- The level of Table 15-3: 0 normal, 1 from 95 °C, 2 emergency until it is left, 3 thermal trip. -/
def State.levelOf (s : State) (x : Nat) : Nat :=
  if atLeast (s.tAct x) 105 then 3 else if (s.dom x).emergency then 2 else if atLeast (s.tAct x) 95 then 1 else 0

/-- Levels follow the temperatures; a change sets IRQ_STATUS bit 2 (16 Table 16-4). -/
def State.relevel (s : State) : State :=
  (List.range 8).foldl (fun s x =>
    let l := s.levelOf x
    if (s.dom x).level = l then s else ((s.setDom x { s.dom x with level := l }).irqAll 2).sbAlert 1) s

/-- The source of a sensor's log entries (17 Table 17-5). -/
def sensorSrc (i : Nat) : Nat := srcOf 9 (16 + i)

/-- SENSOR_SAMPLE (R421, R422): a reading in °C × 64 and whether its halves agree, for each sensor in TELEM order. A reading
outside −40 to 150 °C or torn makes the sensor invalid until the next cold reset. After a thermal trip, the pip since which
all read below 95 °C is kept (18 R503). -/
def execSensorSample (readings : List (Nat × Bool)) (s : State) : Host.Outcome State Fault Refusal :=
  let s := (readings.take 352).zipIdx.foldl (fun (s : State) p =>
    let v : Int := toInt 16 p.1.1
    let good := p.1.2 && decide (-2560 ≤ v) && decide (v ≤ 9600)
    if s.pwr.badSensors.contains p.2 then s
    else if good then s.setPwr { s.pwr with sensors := tabPut s.pwr.sensors p.2 v }
    else (s.setPwr { s.pwr with badSensors := s.pwr.badSensors ++ [p.2] }).logRaise 0x0F01 2 0 (sensorSrc p.2) 0 0) s
  let cool := (List.range 352).all (fun i => !atLeast (s.reading i) 95)
  let since := if s.boot.tripped.isSome && cool then some (s.boot.coolSince.getD s.time.pip) else none
  .next (s.setBoot { s.boot with coolSince := since }).relevel

/-! ### Telemetry (R420 to R422) -/

/-- The Table 01-9 figure of a domain in watts. -/
def figureW (x : Nat) : Nat := if x < 4 then 760 else 140

/-- A power setting in force at the start of the present Turn (R436). -/
def State.psetting (s : State) (id scope : Nat) : Nat := s.settingOf s.pwr.vals id scope

/-- A power setting as the clock decisions at the start of the present Turn read it: in force at the start of the Turn
before (R436). -/
def State.csetting (s : State) (id scope : Nat) : Nat := s.settingOf s.pwr.vals0 id scope

/-- The policy is FIXED for a domain: FIXED, and not suspended there by an emergency (R435). -/
def State.fixedIn (s : State) (x : Nat) : Bool := s.psetting idPolicy 0 == 1 && !(s.dom x).emergency

/-- The same for a clock decision. -/
def State.fixedClkIn (s : State) (x : Nat) : Bool := s.csetting idPolicy 0 == 1 && !(s.dom x).emergency

/-- The source of a domain's log entries. -/
def domSrc (x : Nat) : Nat := if x < 4 then srcOf 1 x else srcOf 3 (x - 4)

/-- TELEMETRY_READ (R420 to R422): a read of a rail, its voltage in mV and current in 1/16 A, or a failed one; without a good
read for 16 Turns P_meas is the figure of Table 01-9. κ follows the ratio of measured to charged energy; where nothing was
charged the ratio is unstated and κ a free value within its bounds. -/
def execTelemetryRead (domain mv amps16 : Nat) (ok : Bool) (s : State) : Host.Outcome State Fault Refusal :=
  let d := s.dom domain
  if domain > 7 then .next s
  else if ok then
    let dt := s.time.pip - d.since
    let r := s.fresh
    let k := if d.charged = 0 then 128 + r.1 % 385
      else min 512 (max 128 ((7 * d.kappa * d.charged * 1000 + 256 * mv * amps16 * dt) / (8 * d.charged * 1000)))
    let k := if s.setting idPolicy 0 = 1 then 256 else k
    .next (r.2.setDom domain { d with readMv := mv, amps := amps16, pmeas := mv * amps16 / 16000, readAt := some s.time.pip,
                                      lost := false, charged := 0, since := s.time.pip, kappa := k })
  else if !d.lost && decide (s.time.pip ≥ d.readAt.getD 0 + 16 * 4096) then
    .next ((s.setDom domain { d with lost := true, pmeas := figureW domain }).logRaise 0x0F01 2 0 (domSrc domain) 0 1)
  else .next s

/-- The readings of TELEM: 16 bits each, 0x8000 for an invalid sensor (16 R445). -/
def State.telemReading (s : State) (i : Nat) : Nat := match s.reading i with | some v => ofInt 16 v | none => 0x8000

/-- T_hot as reported: 0x8000 where no sensor is valid. -/
def State.tHotField (s : State) (x : Nat) : Nat := match s.tHot x with | some v => ofInt 16 v | none => 0x8000

/-- TELEM_REFRESH (16 R445): once per Turn, under the sequence word. -/
def execTelemRefresh (s : State) : Host.Outcome State Fault Refusal :=
  if s.host.telemSeq ≠ 0 ∧ s.time.pip / 4096 ≤ s.host.telemPip / 4096 then .next s
  else .next (s.setHost { s.host with
    telemSeq := (s.host.telemSeq + 2) % 2 ^ 32, telemPip := s.time.pip,
    telemSensors := (List.range 352).map (fun i => (i, s.telemReading i)),
    telemDomains := (List.range 8).map (fun x => (x, ((s.dom x).readMv, (s.dom x).amps, (s.dom x).pmeas, s.tHotField x))) })

/-! ### Grants (R423 to R425, R435, R436) -/

/-- The envelope range and default of the grade (Table 01-10). -/
def envRange (g : Grade) : Nat × Nat × Nat :=
  match g with | .a => (2800, 4200, 3600) | .b => (2600, 3800, 3400) | .n => (1800, 2600, 2400)

/-- The envelope that the grants of a Turn use. -/
def State.envelopeAt (s : State) (n : Nat) : Nat :=
  let dflt := (envRange s.sec.grade).2.2
  if s.pwr.envFrom ≤ n then s.pwr.envelope.getD dflt else s.pwr.envPrev.getD dflt

/-- w(P) of a whole number of watts, as an integer. -/
def wInt (p : Nat) : Int := (watts p : Int)

/-- cap(k): the thermal allowance, or fixed_sk_w under FIXED. -/
def State.capSk (s : State) (k : Nat) : Int :=
  let d := s.dom k
  if s.fixedIn k then wInt (s.psetting idFixedSkW k)
  else max (wInt (s.psetting idSkMin k))
    (wInt d.pSnap + (s.psetting idThermGain 0 : Int) * (95 * 65536 - d.tSnap * 1024))

/-- g(k) of the four Skeins. -/
def State.skGrants (s : State) (env : Nat) : List Int :=
  let pd := ((List.range 4).map (fun d => s.psetting idPdWatts d)).sum
  let e : Int := wInt env - wInt 512 - wInt pd
  let w (k : Nat) : Nat := s.psetting idSkWeight k
  let all := ((List.range 4).map w).sum
  let g0 (k : Nat) : Int := min (e * w k / all) (s.capSk k)
  let left : Int := e - ((List.range 4).map g0).foldl (· + ·) 0
  let open_ := (List.range 4).filter (fun k => decide (g0 k < s.capSk k))
  let ow := (open_.map w).sum
  (List.range 4).map (fun k => if open_.contains k then g0 k + min (s.capSk k - g0 k) (left * w k / ow) else g0 k)

/-- g(x) of a domain. -/
def State.domGrant (s : State) (env x : Nat) : Int :=
  if x < 4 then (s.skGrants env).getD x 0
  else
    let fwd := s.psetting idFwdW (x - 4)
    wInt (s.psetting idPdWatts (x - 4)) - wInt fwd - ((tabGet (s.dom x).spent 0 clsForward - watts fwd : Nat) : Int)

/-- The classes of a domain that receive grants. -/
def grantClasses (x : Nat) : List Nat := (domClasses x).filter (· != clsForward)

/-- What of this Turn's overdraw is not yet debt. -/
def State.newDebt (s : State) (x c : Nat) : Nat :=
  (tabGet (s.dom x).spent 0 c - s.grantE x c) - tabGet (s.dom x).booked 0 c

/-- The grants of the next Turn for a domain; overdraws so far become debt, and debt is paid from the grants (R424, R426). -/
def State.grantDomain (s : State) (env x : Nat) : State :=
  let d := s.dom x
  let g := s.domGrant env x
  let cls := grantClasses x
  let floor_ (c : Nat) : Int := wInt (s.psetting idFloorW (domCls x c))
  let rest := g - (cls.map floor_).foldl (· + ·) 0
  let wt (c : Nat) : Nat := s.psetting idClsWeight (domCls x c)
  let act := if s.fixedIn x then cls.filter (fun c => wt c != 0) else cls.filter (fun c => d.acted.contains c)
  let sum := (act.map wt).sum
  let a0 (c : Nat) : Int := floor_ c + (if act.contains c ∧ sum ≠ 0 then rest * wt c / sum else 0)
  let owed (c : Nat) : Nat := tabGet d.debt 0 c + s.newDebt x c
  let a (c : Nat) : Nat := (a0 c - owed c).toNat
  let paid (c : Nat) : Nat := min (owed c) (a0 c).toNat
  let cyc (c : Nat) : Nat := s.psetting idCycShare (domCls x c) * s.unitCycles x / 256
  s.setDom x { d with
    next := some { g := g.toNat, energy := cls.map (fun c => (c, a c)), cycles := cls.map (fun c => (c, cyc c)) },
    booked := cls.foldl (fun b c => tabPut b c (tabGet b 0 c + s.newDebt x c)) d.booked,
    debt := cls.foldl (fun t c => tabPut t c (owed c - paid c)) d.debt }

/-- GRANT_COMPUTE (R423 to R425, R435, R436): the grants of Turn n, published once, by pip 4,096n − 1,024. -/
def execGrantCompute (s : State) : Host.Outcome State Fault Refusal :=
  let n := s.pwr.turn + 1
  if s.pwr.granted ≥ n ∨ s.time.pip + 1024 > 4096 * n then .next s
  else
    let s := (List.range 8).foldl (fun s x => s.grantDomain (s.envelopeAt n) x) s
    .next (s.setPwr { s.pwr with granted := n })

/-- Counters of a domain when its Turn ends: classes held, overdraws. -/
def State.countTurn (s : State) (x : Nat) : State :=
  let d := s.dom x
  (grantClasses x).foldl (fun s c =>
    let s := if d.heldE.contains c then s.bump .pwr x (4 * c) else s
    let s := if d.heldC.contains c then s.bump .pwr x (4 * c + 1) else s
    let spill := tabGet d.spent 0 c - s.grantE x c
    if spill > 0 then (s.bump .pwr x (4 * c + 2)).bumpBy .pwr x (4 * c + 3) spill else s) s

/-- A domain passes to the next Turn: its new grants, debts, the ramp limit, the runs of R430 and R432. Where no sensor is
valid, T_hot is a free value. -/
def State.turnDomain (s : State) (x : Nat) : State :=
  let s := s.countTurn x
  let d := s.dom x
  let r := s.fresh
  let t := s.tHot x
  let total := (d.cycles.map (·.2)).sum
  let ramp := if x < 4 then some (total + s.psetting idRamp x * s.unitCycles x / 256) else none
  let d' := { d with
    debt := (grantClasses x).foldl (fun b c => tabPut b c (tabGet d.debt 0 c + s.newDebt x c)) d.debt,
    now := d.next.getD d.now, next := none, lastGrants := d.now, lastSpent := d.spent, lastCycles := d.cycles,
    lastUnits := s.unitCycles x, cycLimit := ramp,
    spent := [], cycles := [], booked := [], acted := [], heldE := [], heldC := [],
    pSnap := d.pmeas, tSnap := match t with | some v => v | none => toInt 16 r.1,
    hotRun := if atLeast (s.tAct x) 95 then d.hotRun + 1 else 0,
    coolRun := if !atLeast (s.tAct x) 92 && d.heldE.isEmpty then d.coolRun + 1 else 0,
    heldRun := if d.heldE.isEmpty then 0 else d.heldRun + 1,
    belowRun := if atLeast (s.tAct x) 95 then 0 else d.belowRun + 1 }
  (if t.isSome then s else r.2).setDom x d'

/-- Entry 0x0F02: event 0 step abandoned, 1 emergency, 2 FIXED suspended, with T_hot. -/
def State.logPower (s : State) (x ev : Nat) : State := s.logRaise 0x0F02 0 0 (domSrc x) 0 (ev + s.tHotField x * 2 ^ 16)

/-- An emergency suspends FIXED in its domain, once (R435). -/
def State.suspendFixed (s : State) (x : Nat) : State :=
  if (s.dom x).emergency && s.setting idPolicy 0 == 1 && !s.pwr.fixedSusp.contains x then
    (s.setPwr { s.pwr with fixedSusp := addNew s.pwr.fixedSusp x, fixedFlag := true }).logPower x 2
  else s

/-- TURN_BOUNDARY (R423, R426, R435, R436): once the counter reaches 4,096n, after the commits due by then. -/
def execTurnBoundary (s : State) : Host.Outcome State Fault Refusal :=
  let n := s.time.pip / 4096
  if n ≤ s.pwr.turn ∨ s.cfg.commits.any (fun c => decide (c.pip ≤ 4096 * n)) then .next s
  else
    let s := (List.range 8).foldl State.turnDomain s
    let s := s.setPwr { s.pwr with turn := n, vals0 := s.pwr.vals, vals := tabKeep s.cfg.vals (fun k => decide (k / 2 ^ 40 = 0x0A)) }
    .next ((List.range 8).foldl State.suspendFixed s)

/-! ### The Dealer (R428, R429) -/

/-- Whether a queued item is still ready: a slice of an open update, a run whose area is loaded and whose replica is free, a check
with a witness, a Swatch item. -/
def State.itemReady (s : State) (k : Nat) (w : Work) : Bool :=
  match w with
  | .slice h i =>
    (match s.shard? h with
     | some x => decide (x.st = .opened) && x.ready.any (fun r => r.s == i && r.coll == x.rubColl) | none => false)
  | .run id r a =>
    (match (s.expert? id) with
     | some x => s.shardQuiet x && (match x.rep r with
       | some p => p.active && p.running.isNone && (p.area a).isSome &&
           (s.dealer k).started.all (fun v => match v with | .run j q _ => !(j == id && q == r) | _ => true)
       | none => false)
     | none => false)
  | .check id => ((s.integ.checks.find? (fun c => c.id == id)).bind (·.witness)).isSome
  | .swatch _ => true

/-- Whether the units of a ready item are free: a pipe for a slice, the run area of a run, the matrix unit of a witness, the
engines of a Swatch target (`swatch` numbers a Stitch, or 2^16 and a pipe). -/
def State.unitsFree (s : State) (k : Nat) (w : Work) : Bool :=
  match w with
  | .slice _ _ => (s.dealer k).started.countP (fun v => match v with | .slice _ _ => true | _ => false) < 4
  | .run _ _ _ => true
  | .check id =>
    (match (s.integ.checks.find? (fun c => c.id == id)).bind (·.witness) with
     | some j => ((s.tile j).ops 0).isEmpty | none => false)
  | .swatch u =>
    if u < 2 ^ 16 then ((s.tile u).ops 0).isEmpty && ((s.tile u).ops 1).isEmpty
    else (s.dealer k).started.countP (fun v => match v with | .slice _ _ => true | _ => false) < 4

/-- The class of a queue's items. -/
def queueClass (q : Nat) : Nat := match q with | 0 => clsUpdate | 1 => clsExpert | _ => clsSentinel

/-- The heads of the queues U, E, S, each its first item that is ready, whose units are free, with their queue's number. -/
def State.dealHeads (s : State) (k : Nat) : List (Nat × Ready) :=
  let d := s.dealer k
  [(0, d.u), (1, d.e), (2, d.s)].filterMap (fun q =>
    ((q.2.find? (fun r => s.itemReady k r.work)).filter (fun r => s.unitsFree k r.work)).map (fun r => (q.1, r)))

/-- The head that has waited longest, when it has waited long enough; ties by R191 over the queue order. -/
def State.agedHead (s : State) (k : Nat) (l : List (Nat × Ready)) : Option (Nat × Ready) :=
  let old := l.filter (fun h => decide (h.2.since + 4096 * s.setting idDealerAge k ≤ s.time.pip))
  old.foldl (fun a h => match a with
    | none => some h
    | some b => if h.2.since < b.2.since ∨ (h.2.since = b.2.since ∧ tieWins s.time.pip h.1 b.1) then some h else some b) none

/-- g(k); before the first grants the sum of the floors. -/
def State.grantOf (s : State) (k : Nat) : Nat :=
  if (s.dom k).now.energy.isEmpty then ((grantClasses k).map (s.grantE k)).sum else (s.dom k).now.g

/-- Whether a head may start (R428). -/
def State.mayDeal (s : State) (k : Nat) (h : Nat × Ready) : Bool :=
  let d := s.dom k
  let c := queueClass h.1
  let est := ((s.dealer k).est.find? (fun e => e.1 == h.2.key)).map (·.2) |>.getD 0
  let used := tabGet d.spent 0 c
  let all := (d.spent.map (·.2)).sum
  (decide (est + used ≤ s.grantE k c) && decide (est + all ≤ s.grantOf k)) || (used == 0 && all == 0)

/-- DEALER_DECIDE (R428). -/
def execDealerDecide (skein : Nat) (s : State) : Host.Outcome State Fault Refusal :=
  let l := s.dealHeads skein
  let aged := s.agedHead skein l
  let l := match aged with | some h => h :: l.erase h | none => l
  match l.find? (s.mayDeal skein) with
  | none => .next s
  | some h =>
    let d := s.dealer skein
    let s := s.setDealer skein { d with u := d.u.erase h.2, e := d.e.erase h.2, s := d.s.erase h.2,
                                        started := d.started ++ [h.2.work] }
    let s := s.bump .pwr skein (pwStart + h.1)
    .next (if aged == some h then s.bump .pwr skein pwAged else s)

/-! ### Clocks and voltage (R422, R430, R431, R435; 01 R23, R25; 17 R485) -/

/-- A link of a port die is up. -/
def State.dieUp (s : State) (die : Nat) : Bool := s.links.any (fun l => linkDie l.1 == die && l.2.carries)

/-- The bounds of a domain's clock: clk_min, at least 1.05 GHz on a port die with a port up; clk_max, at most the derate cap;
at clk_min itself with too many invalid sensors. -/
def State.clockBounds (s : State) (x : Nat) : Nat × Nat :=
  let lo := s.csetting idClkMin x
  let lo := if x ≥ 4 && s.dieUp (x - 4) then max lo 1050 else lo
  let bad := (domSensors x).countP (fun i => s.pwr.badSensors.contains i)
  if decide (bad > (if x < 4 then 8 else 4)) then (lo, lo)
  else (lo, max lo (min (s.csetting idClkMax x) (s.maxClock - 50 * (s.dom x).derate)))

/-- Set a domain's clock with its voltage; the issue-cycle grants, those published for the next Turn and the ramp limit of the Turn
follow the new clock (R425, R431). -/
def State.setClock (s : State) (x f mv : Nat) : State :=
  let d := s.dom x
  let s := s.setDom x { d with clock := f, mv := mv, step := none }
  let cyc (c : Nat) : Nat := s.csetting idCycShare (domCls x c) * s.unitCycles x / 256
  let now := (s.dom x).now
  s.setDom x { s.dom x with
    now := { now with cycles := now.cycles.map (fun e => (e.1, cyc e.1)) },
    next := d.next.map (fun g => { g with cycles := g.cycles.map (fun e => (e.1, s.psetting idCycShare (domCls x e.1) * s.unitCycles x / 256)) }),
    cycLimit := d.cycLimit.map (fun _ => (d.lastCycles.map (·.2)).sum + s.csetting idRamp x * s.unitCycles x / 256) }

/-- Begin a step up: the rail is raised first. -/
def State.raise (s : State) (x f : Nat) : State :=
  let d := s.dom x
  s.setDom x { d with mv := Config.railMv f, step := some { target := f, raisedAt := s.time.pip } }

/-- Move toward a clock: down at once, up by a raise. -/
def State.moveClock (s : State) (x f : Nat) : State :=
  let d := s.dom x
  if f < d.clock then (s.setClock x f (Config.railMv f)).bump .pwr x pwDown
  else if f > d.clock ∧ d.step.isNone ∧ s.time.pip ≥ d.noUpUntil then s.raise x f else s

/-- The clock that R430 wants next for a domain under the dynamic policy: one step, at most one in 16 Turns; the bounds of
R422, R25 and R485 hold at once, but for a Skein in an emergency, which stays at 0.95 GHz (Table 15-3). -/
def State.nextClock (s : State) (x : Nat) : Nat :=
  let d := s.dom x
  let b := s.clockBounds x
  let rested := match d.lastStep with | none => true | some t => decide (t + 16 ≤ s.pwr.turn)
  if d.emergency && decide (x < 4) then d.clock
  else if d.clock > b.2 then b.2
  else if d.clock < b.1 then b.1
  else if !rested then d.clock
  else if decide (d.hotRun ≥ 4) || (decide (x < 4) && decide (d.heldRun ≥ 8)) then max b.1 (d.clock - 50)
  else if d.coolRun ≥ 64 && !d.emergency then min b.2 (d.clock + 50)
  else d.clock

/-- The clock that a domain is to have next, under either policy. -/
def State.wantedClock (s : State) (x : Nat) : Nat :=
  let b := s.clockBounds x
  if s.fixedClkIn x then max b.1 (min b.2 (s.csetting idFixedClk x)) else s.nextClock x

/-- A step down, which a raise that has not reached regulation does not hold up. -/
def State.stepDown (s : State) (x f : Nat) : State :=
  (s.setDom x { s.dom x with lastStep := some s.pwr.turn }).moveClock x f

/-- CLOCK_STEP (R422, R430, R431, R435): the decision of a domain at a Turn boundary, once a Turn; a raise in regulation before this
boundary takes effect, and counts as the step of this Turn. Under FIXED the bounds of R25, R422 and R485 still hold (DEDUCED: entry FIXEDCLK). -/
def execClockStep (domain : Nat) (s : State) : Host.Outcome State Fault Refusal :=
  let d := s.dom domain
  if decide (domain > 7) || decide (s.pwr.turn ≤ d.stepTurn) || decide (s.time.pip / 4096 ≠ s.pwr.turn) then .next s
  else
    let s := s.setDom domain { d with stepTurn := s.pwr.turn }
    match d.step with
    | some j =>
      (match j.regAt.filter (fun p => decide (p < 4096 * s.pwr.turn)) with
       | some _ =>
         let b := s.clockBounds domain
         let f := min b.2 j.target
         if f < b.1 then .next (s.raise domain b.1)
         else
           let s := (s.setClock domain f (Config.railMv f)).bump .pwr domain pwUp
           .next (s.setDom domain { s.dom domain with lastStep := some s.pwr.turn })
       | none => let f := s.wantedClock domain; .next (if f < d.clock then s.stepDown domain f else s))
    | none =>
      let f := s.wantedClock domain
      .next (if f = d.clock then s else if f < d.clock then s.stepDown domain f else s.moveClock domain f)

/-- VOLTAGE_REGULATED (R431): the frequency rises at the next Turn boundary. -/
def execVoltageRegulated (domain : Nat) (s : State) : Host.Outcome State Fault Refusal :=
  let d := s.dom domain
  match d.step with
  | some j => if j.regAt.isNone then .next (s.setDom domain { d with step := some { j with regAt := some s.time.pip } }) else .next s
  | none => .next s

/-- VOLTAGE_RAISE_TIMEOUT (R431): 200 µs after the raise. -/
def execVoltageRaiseTimeout (domain : Nat) (s : State) : Host.Outcome State Fault Refusal :=
  let d := s.dom domain
  match d.step with
  | some j =>
    if j.regAt.isNone && decide (j.raisedAt + 200000 ≤ s.time.pip) then
      let s := s.setDom domain { d with mv := Config.railMv d.clock, step := none, noUpUntil := s.time.pip + 2 ^ 20 }
      .next ((s.bump .pwr domain pwAbandon).logPower domain 0)
    else .next s
  | none => .next s

/-! ### Emergencies (R432, R435) -/

/-- THERMAL_EMERGENCY (Table 15-3): at 100 °C every class but forwarding and management is held, and a Skein goes to 0.95 GHz
at once; FIXED is suspended in the domain. -/
def execThermalEmergency (domain : Nat) (s : State) : Host.Outcome State Fault Refusal :=
  let d := s.dom domain
  if decide (domain > 7) || d.emergency || !atLeast (s.tAct domain) 100 then .next s
  else
    let s := (s.setDom domain { d with emergency := true, belowRun := 0 }).bump .pwr domain pwEmerg
    let s := if domain < 4 then s.setClock domain 950 (Config.railMv 950) else s
    let s := s.setPwr { s.pwr with fixedSusp := s.pwr.fixedSusp.filter (· != domain) }
    .next ((s.logPower domain 1).suspendFixed domain).relevel

/-- EMERGENCY_EXIT (Table 15-3): below 95 °C for 16 Turns. -/
def execEmergencyExit (domain : Nat) (s : State) : Host.Outcome State Fault Refusal :=
  let d := s.dom domain
  if !d.emergency || decide (d.belowRun < 16) then .next s
  else
    let s := s.setDom domain { d with emergency := false }
    .next (s.setPwr { s.pwr with fixedSusp := s.pwr.fixedSusp.filter (· != domain) }).relevel

/-! ### Stitch power states (R433, R434) -/

/-- STITCH_HOLD_ENTRY (R434): 256 core cycles without a live slot, a busy engine or an access. -/
def execStitchHoldEntry (st : Nat) (s : State) : Host.Outcome State Fault Refusal :=
  let t := s.tile st
  if decide (t.power ≠ .active) || s.absent st || t.slots.any (fun x => decide (x.2.st = .live) || !x.2.mem.isEmpty) ||
     t.eng.any (fun e => !e.2.isEmpty) || s.stitchPending st || decide (s.time.pip < tabGet t.idle 0 32 + s.cyclesPips (st / 256) 256) then .next s
  else .next (s.setTile st { t with power := .hold })

/-- STITCH_WAKE (R434): work or an access arrives at a Stitch in HOLD or RETAIN. From RETAIN the instruction cache starts
empty (Table 15-4). -/
def execStitchWake (st : Nat) (s : State) : Host.Outcome State Fault Refusal :=
  let t := s.tile st
  match t.power with
  | .hold => .next (s.setTile st { t with power := .active, idle := tabPut t.idle 32 s.time.pip })
  | .retain => .next (s.setTile st { t with power := .active, icache := [], awake := 0xFFFFFFFF#32, idle := tabPut t.idle 32 s.time.pip })
  | _ => .next s

/-- The accumulator words of a Stitch that is switched off are not kept: free values. -/
def State.loseAcc (s : State) (st : Nat) : State :=
  let base := s.free
  (s.setTile st { s.tile st with acc := (List.range 8192).map (fun i => (i, Config.freeNat (base + i) % 2 ^ 32)) }).setFree (base + 8192)

/-- The scratchpad of a Stitch reads 0. -/
def State.clearPad (s : State) (st : Nat) : State :=
  let mine (a : Nat) : Bool := decide (spadKey st 0 ≤ a) && decide (a < spadKey st 0 + 2 ^ 19)
  (s.setMem (s.mem.filter (fun c => !mine c.1))).setUeWords (s.ueWords.filter (fun w => !mine (w * 8)))

/-- Move a Stitch to a power state: 0 ACTIVE, 1 RETAIN, 2 DARK. -/
def State.setPower (s : State) (st code : Nat) : State :=
  let t := s.tile st
  match code with
  | 0 => s.setTile st { t with power := .active, icache := if t.power = .retain ∨ t.power = .dark then [] else t.icache,
                               awake := if t.power = .retain ∨ t.power = .dark then 0xFFFFFFFF#32 else t.awake,
                               idle := tabPut t.idle 32 s.time.pip }
  | 1 => if t.power = .retain then s else
      let s := s.loseAcc st
      s.setTile st { s.tile st with power := .retain, icache := [], awake := 0 }
  | _ => if t.power = .dark then s else
      let s := (s.loseAcc st).clearPad st
      s.setTile st { s.tile st with power := .dark, icache := [], flags := 0, cnts := [], retain := 0, awake := 0xFFFFFFFF#32 }

/-- PWR_STITCH_STATE (R31, R433, R434, R437). -/
def execPwrStitchState (o : Origin) (map state : Nat) (s : State) : Host.Outcome State Fault Refusal :=
  let sts := mapStitches (s.readNat (dramKey map) 128)
  let used (st : Nat) : Bool := (s.tile st).slots.any (fun x => decide (x.2.st ≠ .free) || x.2.reserved.isSome)
  s.loading o 0x0A04 [map, state] map 128
    (s.addrChks 0 map 128 1 ++ [badFld 1 (decide (state > 2)), s.ownChk o resPwr, ⟨sts.any s.absent, .unitAbsent, none⟩,
      ⟨sts.any s.isRetired, .retired, none⟩, ⟨sts.any used, .busy, none⟩])
    (fun _ s => (sts.foldl (fun s st => s.setPower st state) s, .done .ok []))

/-! ### Commands (R435 to R437) -/

/-- The relations of R435 broken by a configuration and envelope under policy FIXED. -/
def State.fixedBad (s : State) (vals : Tab Nat) (env : Nat) : Bool :=
  let v (id x : Nat) : Nat := s.settingOf vals id x
  v idPolicy 0 == 1 &&
  (decide (((List.range 4).map (v idFixedSkW)).sum + 512 + ((List.range 4).map (v idPdWatts)).sum > env) ||
   (List.range 8).any (fun x => decide (v idFixedClk x < v idClkMin x) || decide (v idFixedClk x > v idClkMax x)) ||
   (List.range 4).any (fun k => decide (v idFixedSkW k < v idSkMin k)))

/-- The envelope last set. -/
def State.envelope (s : State) : Nat := s.pwr.envelope.getD (envRange s.sec.grade).2.2

/-- PWR_ENVELOPE_SET (01 R35; R435, R437): the first Turn is the first whose grants are not yet published. -/
def execPwrEnvelopeSet (o : Origin) (watts : Nat) (s : State) : Host.Outcome State Fault Refusal :=
  let r := envRange s.sec.grade
  let first := max s.pwr.turn s.pwr.granted + 1
  s.update o 0x0A01 [watts]
    [badFld 0 (!inRange r.1 r.2.1 watts), s.ownChk o resPwr, ⟨s.fixedBad s.cfg.vals watts, .badDesc, some 0⟩]
    (fun s => s.setPwr { s.pwr with envPrev := some (s.envelopeAt (first - 1)), envelope := some watts, envFrom := first })
    (fun _ => [uf 8 first])

/-- The fields of a domain in PWR_STATUS. -/
def State.domFlds (s : State) (x : Nat) : List Fld :=
  let d := s.dom x
  let cls := domClasses x
  [uf 2 d.clock, uf 2 d.mv, uf 2 (s.tHotField x), uf 4 d.pmeas, uf 2 (s.kappaOf x), uf 1 d.level] ++
  cls.map (fun c => uf 4 (tabGet d.lastGrants.energy 0 c)) ++ cls.map (fun c => uf 4 (tabGet d.lastGrants.cycles 0 c)) ++
  cls.map (fun c => uf 4 (tabGet d.lastSpent 0 c)) ++ cls.map (fun c => uf 4 (tabGet d.lastCycles 0 c)) ++
  cls.map (fun c => uf 4 (tabGet d.debt 0 c))

/-- PWR_STATUS (R437). -/
def execPwrStatus (o : Origin) (clear : Nat) (s : State) : Host.Outcome State Fault Refusal :=
  s.command o 0x0A02 [clear] (clearChks o 0 clear) (fun _ s =>
    let res := listFlds ((List.range 8).map s.domFlds) ++ [uf 1 (s.setting idPolicy 0), uf 1 (b2n s.pwr.fixedFlag)]
    (if clear = 1 then s.setPwr { s.pwr with fixedFlag := false } else s, .done .ok res))

/-- PWR_TELEMETRY (R437). -/
def execPwrTelemetry (o : Origin) (s : State) : Host.Outcome State Fault Refusal :=
  s.query o 0x0A03 [] [] (fun s =>
    listFlds ((List.range 352).map (fun i => [uf 2 (s.telemReading i), uf 1 (b2n (s.reading i).isSome)])) ++
    listFlds ((List.range 8).map (fun x => let d := s.dom x; [uf 2 d.readMv, uf 2 d.amps, uf 8 (d.readAt.getD 0)])))

/-- PWR_COUNTERS (R437). -/
def execPwrCounters (o : Origin) (domain clear : Nat) (s : State) : Host.Outcome State Fault Refusal :=
  s.command o 0x0A05 [domain, clear] (badFld 0 (decide (domain > 7)) :: clearChks o 1 clear) (fun _ s =>
    let c (i : Nat) : Fld := uf 4 (s.count .pwr domain i)
    (s.clearIf clear .pwr domain, .done .ok
      (listFlds ((grantClasses domain).map (fun k => (List.range 4).map (fun j => c (4 * k + j)))) ++
       (List.range 9).map (fun j => c (pwStart + j)))))

end Sys2Proof.Machine
end

