-- ==== Sys2Proof/Machine/Sentinel.lean ====
section
/-! DEFINITION. The sentinel, retirements, the patrol scrub and the counters of correctable errors (17 R478 to R486, R497; 18
R516). -/

namespace Sys2Proof.Machine

open Sys2Proof

/-! ### Derating and retiring (R485, R486) -/

/-- Entry 0x1105: a derate step or a retirement, the derate steps now. -/
def State.logDerate (s : State) (source k : Nat) (retired fused : Bool) (status : Nat) : State :=
  s.logRaise 0x1105 0 status source 0 (b2n retired + b2n fused * 2 + (s.dom k).derate % 16 * 4)

/-- Lower the derate cap of a Skein by one step, down to its limit (R485). -/
def State.derateStep (s : State) (k : Nat) : State :=
  let d := s.dom k
  if d.derate < (s.sentSet k).derateMax then
    (s.setDom k { d with derate := d.derate + 1 }).logDerate (srcOf 1 k) k false false 0
  else s

/-- Records of retirements of a Skein in the ledger (18 R516). -/
def State.retireRecs (s : State) (k : Nat) : Nat := (s.sec.fusedRetired.filter (fun r => r.key / 256 == k)).length

/-- Write the fuse record of a retirement. -/
def State.fuseRetire (s : State) (st : Nat) : State :=
  (s.setSec { s.sec with fusedRetired := s.sec.fusedRetired ++ [{ key := st, val := 1 }] }).logFuse 2 st

/-- End the slots in use on a Stitch with a status (10 R324). -/
def State.endSlots (s : State) (st : Nat) (status : Status) : State :=
  let used := (s.tile st).slots.filterMap (fun x => match x.2.st, x.2.owner with | .live, some key => some (x.1, key) | _, _ => none)
  let s := used.foldl (fun s p => s.stopRunning p.2 (st, p.1) status) s
  (used.map (·.2)).eraseDups.foldl (fun s key => s.endLaunch key) s

/-! ### Swatch items of a Skein (R487) -/

/-- The number under which the Dealer knows a target. -/
def swNo (kind unit : Nat) : Nat := if kind = 0 then unit else 2 ^ 16 + unit

/-- The Skein whose Dealer takes an item; Tally engines take theirs directly. -/
def SwItem.skein (i : SwItem) : Option Nat :=
  match i.kind with | 0 => some (i.unit / 256) | 2 => some (i.unit / 4) | _ => none

/-- The domain and class to which an item is charged (15 Table 15-1): sentinel on a Skein, Tally computation on a port die. -/
def SwItem.class (i : SwItem) : Nat × Nat :=
  match i.skein with | some k => (k, clsSentinel) | none => (4 + i.unit / 4, clsReduce)

/-- An item of the Dealer is a Swatch item. -/
def isSwatch (w : Work) : Bool := match w with | .swatch _ => true | _ => false

/-- The next item of a Skein enters queue S, when none of its Skein is there or started. -/
def State.feedSwatch (s : State) (k : Nat) : State :=
  let d := s.dealer k
  match s.integ.run with
  | none => s
  | some r =>
    if d.s.any (fun x => isSwatch x.work) || d.started.any isSwatch then s
    else match r.todo.find? (fun i => decide (i.skein = some k)) with
      | some i => s.queueS k (.swatch (swNo i.kind i.unit)) keySwatch
      | none => s

/-- The fields of a Swatch result (Table 17-6). -/
def swFlds (r : SwResult) : List Fld :=
  [uf 4 r.run, uf 4 r.passed, uf 4 r.failed, uf 4 r.absent, uf 4 r.malformed, uf 4 (r.firstFail.getD cMax), uf 8 r.start,
   uf 8 r.stop]

/-- A Swatch run ends (R487, R488). -/
def State.endSwatch (s : State) (status : Status) : State :=
  match s.integ.run with
  | none => s
  | some r =>
    let res := { r.res with stop := s.time.pip }
    let i := { s.integ with run := none }
    let i := match r.slot with
      | some n => (match tabGet? i.scheds n with
        | some c => { i with scheds := tabPut i.scheds n { c with last := some res } } | none => i)
      | none => { i with lastRun := some res }
    let s := (List.range 4).foldl (fun s k => s.dropWork k isSwatch) (s.setInteg i)
    match r.ticket with | some t => s.finish t status (swFlds res) | none => s

/-- The run after items are done or dropped: it ends when nothing is left, and otherwise the Dealers get their next items. -/
def State.stepSwatch (s : State) : State :=
  match s.integ.run with
  | none => s
  | some r => if r.todo.isEmpty then s.endSwatch .ok else (List.range 4).foldl State.feedSwatch s

/-- A unit runs no further record. -/
def State.dropTarget (s : State) (kind unit : Nat) : State :=
  match s.integ.run with
  | none => s
  | some r =>
    let todo := r.todo.filter (fun i => !(i.kind == kind && i.unit == unit))
    let s := s.setInteg { s.integ with run := some { r with todo := todo } }
    let k := if kind = 0 then unit / 256 else unit / 4
    (s.dropWork k (fun w => decide (w = .swatch (swNo kind unit)))).stepSwatch

/-! ### Checks and verdicts (R482 to R484) -/

/-- Remove a check; its slot is free and the Dealer forgets it. -/
def State.freeCheck (s : State) (c : Check) : State :=
  (s.setInteg { s.integ with checks := s.integ.checks.filter (·.id != c.id) }).dropWork (c.primary / 256)
    (fun w => decide (w = .check c.id))

/-- Entry 0x1103 of a verdict. The issue cycles are those of the Turn before. -/
def State.logVerdict (s : State) (c : Check) (v : Nat) : State :=
  let k := c.primary / 256
  let d := s.dom k
  let u := d.lastUnits
  s.logRaise 0x1103 2 0 (srcOf 2 c.primary) c.tag
    (s.tHotField k + d.mv % 2 ^ 12 * 2 ^ 16 + (d.clock - 950) / 50 % 32 * 2 ^ 28 +
     (if u = 0 then 0 else min 7 (8 * (d.lastCycles.map (·.2)).sum / u)) * 2 ^ 33 + c.witness.getD 0 % 2 ^ 10 * 2 ^ 36 +
     c.third.getD 0x3FF % 2 ^ 10 * 2 ^ 46 + v % 4 * 2 ^ 56)

/-- A check whose witness is retired or reset before it runs is skipped (R482). -/
def State.lostWitness (s : State) (st : Nat) : State :=
  (s.integ.checks.filter (fun c => c.witness == some st && c.third.isNone)).foldl
    (fun s c => (s.freeCheck c).sentSkip c.primary 2) s

/-- Retire a Stitch (R486): its slots end, it witnesses nothing, its Swatch items go; with `fuse` a record is written too when
the ledger allows it. -/
def State.retireStitch (s : State) (st : Nat) (fuse : Bool) : State :=
  let k := st / 256
  let s := (s.setInteg { s.integ with retired := addNew s.integ.retired st }).endSlots st .retired
  let s := ((s.lostWitness st).dropTarget 0 st).profileChanged
  if !fuse then s.logDerate (srcOf 2 st) k true false 0
  else if s.retireRecs k ≥ 8 then s.logDerate (srcOf 2 st) k true false Status.fuseExhausted.code
  else if s.fuseBusy then s.logDerate (srcOf 2 st) k true false Status.busy.code
  else (s.fuseRetire st).logDerate (srcOf 2 st) k true true 0

/-- Increase a suspect count by 1; at its limits the Skein is derated and the Stitch retired (R483 to R486). -/
def State.suspect (s : State) (st : Nat) : State :=
  let n := tabGet s.integ.suspects 0 st
  if n ≥ 65535 then s
  else
    let z := s.sentSet (st / 256)
    let s := s.setInteg { s.integ with suspects := tabPut s.integ.suspects st (n + 1) }
    let s := if n + 1 ≥ z.derateAt then s.derateStep (st / 256) else s
    if n + 1 ≥ z.retireAt && !s.isRetired st then s.retireStitch st (decide (z.fuse = 1)) else s

/-- A verdict (R483): counted, logged, its Stitches suspected, the slot free. -/
def State.verdict (s : State) (c : Check) (v : Nat) : State :=
  let s := ((s.freeCheck c).bump .sent (c.primary / 256) (snVerdict + v)).logVerdict c v
  let named := match v with
    | 0 => [c.primary] | 1 => c.witness.toList | 2 => c.primary :: (c.witness.toList ++ c.third.toList)
    | _ => c.primary :: c.witness.toList
  named.foldl State.suspect s

/-- A Stitch is switched off. -/
def State.isDark (s : State) (st : Nat) : Bool := decide ((s.tile st).power = .dark)

/-- The matrix unit of a Stitch has an operation: no check runs on it (R482). -/
def State.matrixBusy (s : State) (st : Nat) : Bool := !((s.tile st).ops 0).isEmpty

/-- Charge a check to the sentinel class of its Skein (R482). -/
def State.chargeCheck (s : State) (c : Check) : State :=
  let k := c.primary / 256
  (s.charge k clsSentinel c.cycles c.eu).noteEst k keyCheck (s.energyOf k c.eu)

/-- WITNESS_CHECK (R482, R483): the check that the Dealer started first runs on its witness; `same` says whether the two
results agree in every bit. A mismatch goes to the next Stitch of the rule, and without one the verdict is 3. A witness made
DARK since runs nothing, and the check is skipped (R434). It waits while the witness's matrix unit has an operation and while its class is
held (15 R426). -/
def execWitnessCheck (skein : Nat) (same : Bool) (s : State) : Host.Outcome State Fault Refusal :=
  match s.integ.checks.find? (fun c => c.third.isNone && c.primary / 256 == skein &&
      (s.dealer skein).started.contains (.check c.id)) with
  | none => .next s
  | some c =>
    if (c.witness.map s.isDark).getD true then .next ((s.freeCheck c).sentSkip c.primary 2)
    else if (c.witness.map s.matrixBusy).getD false then .next s
    else if !s.mayIssue skein clsSentinel then .next (s.noteHold skein clsSentinel)
    else
    let s := (s.chargeCheck c).bump .sent skein snRun
    if same then .next (s.freeCheck c)
    else match s.witnessFor c.primary (c.primary :: c.witness.toList) with
      | none => .next (s.verdict c 3)
      | some t => .next (s.setInteg { s.integ with checks := s.integ.checks.map (fun x =>
          if x.id = c.id then { x with third := some t } else x) })

/-- SENTINEL_TIEBREAK (R483): the third Stitch's result against the other two; it cannot equal both, which differ. A third Stitch
retired or DARK since runs nothing: verdict 3. -/
def execSentinelTiebreak (skein : Nat) (eqPrimary eqWitness : Bool) (s : State) : Host.Outcome State Fault Refusal :=
  match s.integ.checks.find? (fun c => c.third.isSome && c.primary / 256 == skein) with
  | none => .next s
  | some c =>
    if (c.third.map (fun j => s.isRetired j || s.isDark j)).getD true then .next (s.verdict { c with third := none } 3)
    else if eqPrimary && eqWitness || (c.third.map s.matrixBusy).getD false then .next s
    else if !s.mayIssue skein clsSentinel then .next (s.noteHold skein clsSentinel)
    else .next ((s.chargeCheck c).verdict c (if eqWitness then 0 else if eqPrimary then 1 else 2))

/-- SUSPECT_DECAY (R484): every 2^40 pips each nonzero count falls by 1. -/
def execSuspectDecay (s : State) : Host.Outcome State Fault Refusal :=
  if s.time.pip < s.integ.decayAt then .next s
  else .next (s.setInteg { s.integ with
    suspects := (tabMap s.integ.suspects (fun _ n => n - 1)).filter (fun e => e.2 != 0), decayAt := s.integ.decayAt + 2 ^ 40 })

/-! ### Patrol scrub and correctable errors (R478, R479) -/

/-- The device address of granule p of a channel (09 R281): the channel number fixes the low bits. -/
def granuleAddr (channel p : Nat) : Nat :=
  let up := p * 64
  let low := (channel % 64) ^^^ bits up 6 6 ^^^ bits up 12 6 ^^^ bits up 18 6
  (channel / 64) * 2 ^ 35 + (up + low % 64) * 256

/-- PATROL_SCRUB (R478): the next 256 bytes of a channel are read, corrected and written back; an uncorrectable word stays and
is logged. -/
def execPatrolScrub (channel : Nat) (s : State) : Host.Outcome State Fault Refusal :=
  if channel ≥ 256 then .next s
  else
    let p := tabGet s.integ.patrol 0 channel
    let a := granuleAddr channel p
    let bad := s.ueWords.filter (fun w => decide (a ≤ w * 8) && decide (w * 8 < a + 256))
    let s := bad.foldl (fun s w => s.logUe (w * 8)) s
    .next (s.setInteg { s.integ with patrol := tabPut s.integ.patrol channel ((p + 1) % 2 ^ 21) })

/-- Index of the corrected words among the counters of a DRAM channel or SRAM array. -/
def ccCorrected := 2

/-- The counters of correctable errors: DRAM channels, and SRAM arrays, one per Stitch (its scratchpad and tiles) and one per
port die. -/
def corrUnits : List (Fam × Nat × Nat) :=
  (List.range 256).map (fun c => (.dram, c, srcOf 6 c)) ++ (List.range 1024).map (fun i => (.sram, i, srcOf 2 i)) ++
  (List.range 4).map (fun d => (.sram, 1024 + d, srcOf 3 d))

/-- CORRECTABLE_WINDOW (R479): at the end of a window of 2^30 pips, each counter that grew by more than 1,024 raises an
entry. -/
def execCorrectableWindow (s : State) : Host.Outcome State Fault Refusal :=
  if s.time.pip < s.integ.corrFrom + 2 ^ 30 then .next s
  else
    let now (u : Fam × Nat × Nat) : Nat := s.count u.1 u.2.1 ccCorrected
    let key (u : Fam × Nat × Nat) : Nat := cKey u.1 u.2.1 ccCorrected
    let s' := corrUnits.foldl (fun s u =>
      let grown := now u - tabGet s.integ.corrBase 0 (key u)
      if grown > 1024 then s.logRaise 0x1102 1 0 u.2.2 0 grown else s) s
    let base := (corrUnits.map (fun u => (key u, now u))).filter (fun e => e.2 != 0)
    .next (s'.setInteg { s'.integ with corrFrom := s.integ.corrFrom + 2 ^ 30, corrBase := base })

/-! ### Commands (R497) -/

/-- SENT_STATUS. -/
def execSentStatus (o : Origin) (skein clear : Nat) (s : State) : Host.Outcome State Fault Refusal :=
  s.command o 0x0B05 [skein, clear] (badFld 0 (decide (skein > 3)) :: clearChks o 1 clear) (fun _ s =>
    let z := s.sentSet skein
    let c (i : Nat) : Fld := uf 4 (s.count .sent skein i)
    let tiles := (List.range 256).map (fun i =>
      let st := stitchNo skein i
      [uf 2 (tabGet s.integ.suspects 0 st), uf 1 (b2n (s.isRetired st)), uf 1 (b2n (s.fusedRetired st))])
    (s.clearIf clear .sent skein, .done .ok
      ([uf 1 z.enable, uf 1 z.k, uf 1 z.offset, uf 2 z.derateAt, uf 2 z.retireAt, uf 1 z.derateMax, uf 1 z.fuse,
        uf 1 (s.dom skein).derate] ++ listFlds tiles ++
       [c snSelected, c snRun] ++ (List.range 3).map (fun i => c (snSkip + i)) ++ (List.range 4).map (fun i => c (snVerdict + i)))))

/-- SENT_SET: at the completion stamp; the cap never lies below its new limit, and clear_derate lifts it. -/
def execSentSet (o : Origin) (a : SentArgs) (s : State) : Host.Outcome State Fault Refusal :=
  let z : SentSet := { enable := a.enable, k := a.k, offset := a.offset, derateAt := a.derateAt, retireAt := a.retireAt,
                       derateMax := a.derateMax, fuse := a.fuse }
  s.update o 0x0B06 [a.mask, a.enable, a.k, a.offset, a.derateAt, a.retireAt, a.derateMax, a.fuse, a.clear]
    [badFld 0 (!inRange 1 15 a.mask), badFld 1 (decide (a.enable > 1)), badFld 2 (!inRange 4 20 a.k),
     badFld 3 (!inRange 1 255 a.offset), badFld 4 (!inRange 1 65535 a.derateAt), badFld 5 (!inRange a.derateAt 65535 a.retireAt),
     badFld 6 (decide (a.derateMax > 18)), badFld 7 (decide (a.fuse > 1)), badFld 8 (decide (a.clear > 1)), s.ownChk o resTest]
    (fun s => ((List.range 4).filter (fun k => bit a.mask k)).foldl (fun s k =>
      let s := s.setInteg { s.integ with sent := tabPut s.integ.sent k z }
      let d := s.dom k
      s.setDom k { d with derate := if a.clear = 1 then 0 else min d.derate a.derateMax }) s.profileChanged)
    (fun _ => [])

/-- STITCH_RETIRE (R31, R486, R497): a volatile retirement, or its end. Retiring a retired Stitch changes nothing. -/
def execStitchRetire (o : Origin) (skein index action : Nat) (s : State) : Host.Outcome State Fault Refusal :=
  let st := stitchNo skein index
  s.update o 0x0B07 [skein, index, action]
    [badFld 0 (decide (skein > 3)), badFld 2 (decide (action > 1)), s.ownChk o resTest, ⟨s.absent st, .unitAbsent, none⟩,
     ⟨decide (action = 1) && s.fusedRetired st, .denied, none⟩, ⟨decide (action = 1) && !s.isRetired st, .badDesc, some 0⟩]
    (fun s =>
      if action = 0 then (if s.isRetired st then s else s.retireStitch st false)
      else (s.setInteg { s.integ with retired := s.integ.retired.filter (· != st) }).profileChanged)
    (fun _ => [])

end Sys2Proof.Machine
end

