-- ==== Sys2Proof/Machine/Swatch.lean ====
section
/-! DEFINITION. Swatch self-tests: sets and records, what the arithmetic gives for a record, runs and schedules (07 R222, Table
07-4; 17 R487, R488, R497). -/

namespace Sys2Proof.Machine

open Sys2Proof

/-! ### Records (Table 07-4) -/

/-- A field of the record at an address. -/
def State.swField (s : State) (a off n : Nat) : Nat := s.readNat (dramKey (a + off)) n

/-- The bytes of n elements of a format with their scale bytes; a code that names no format has none. -/
def swSize (code block n : Nat) : Nat :=
  match Fmt.ofCode code with
  | none => 0
  | some f => (n * f.width + 7) / 8 + (if f.narrow then (n + blockSize block - 1) / blockSize block else 0)

/-- The output elements of an op: one of a group or a product, else one per input element. -/
def swOuts (op n : Nat) : Nat := if op = 2 ∨ op = 4 ∨ op = 5 then 1 else n

/-- The regions of data that a record names, by offset and length: inputs a and b, the r values, the expected bytes. The third operand
of a multiply-add follows the second in b's region (DEDUCED: entry SWATCHSET). -/
def State.swRegions (s : State) (a : Nat) : List (Nat × Nat) :=
  let n := s.swField a 8 4
  let op := s.swField a 0 2
  let f (o : Nat) : Nat := s.swField a o 4
  let blk := s.swField a 6 1 % 4
  [(f 16, swSize (s.swField a 2 1) blk n)] ++
  (if f 20 = 0 then [] else [(f 20, swSize (s.swField a 3 1) blk n * (if op = 3 then 2 else 1))]) ++
  (if f 24 = 0 then [] else [(f 24, 4 * swOuts op n)]) ++ [(f 28, f 32)]

/-- The length of a record with its data. -/
def State.swLen (s : State) (a : Nat) : Nat := ((s.swRegions a).map (fun r => r.1 + r.2)).foldl max 64

/-- The records of a set, each starting at the next multiple of 64 bytes after the one before (DEDUCED: entry SWATCHSET), and whether
the length ends inside one. -/
def State.swRecords (s : State) (stop : Nat) : Nat → Nat → List Nat × Bool
  | 0, _ => ([], false)
  | fuel + 1, a =>
    if a ≥ stop then ([], false)
    else
      let n := s.swLen a
      if a + n > stop then ([], true)
      else
        let r := s.swRecords stop fuel (a + alignUp n 64)
        (a :: r.1, r.2)

/-- The set at an address. -/
def State.swSet (s : State) (addr len : Nat) : List Nat × Bool := s.swRecords (addr + len) (len / 64 + 1) addr

/-- Malformed (R487): the CRC over the record and its data, the arithmetic revision, a pre-scale against R203, a format code of no
format (07 R197), a nonzero reserved field (00 R8), a rounding that the op does not have (07 R208). -/
def State.swMalformed (s : State) (a : Nat) : Bool :=
  let data := (s.swRegions a).flatMap (fun r => s.read (dramKey (a + r.1)) r.2)
  let f (o : Nat) : Nat := s.swField a o 1
  let mode := f 5 % 4
  decide (crc32 (s.read (dramKey a) 60 ++ data) ≠ s.swField a 60 4) || decide (s.swField a 12 4 ≠ Config.arithRev) ||
  (match Fmt.ofCode (f 4) with | some x => !x.scaled && decide (f 7 ≠ 127) | none => true) ||
  (Fmt.ofCode (f 2)).isNone || (decide (f 3 ≠ 0xFF) && (Fmt.ofCode (f 3)).isNone) ||
  decide (f 5 ≥ 4) || decide (f 6 ≥ 16) || decide (s.swField a 52 8 ≠ 0) || decide (mode = 3) ||
  (decide (mode = 2) && decide (s.swField a 0 2 ≠ 1) && decide (s.swField a 0 2 < 0x20))

/-- Needs a unit absent in the grade (R221): the matrix units on OL20-N. -/
def State.swAbsent (s : State) (op : Nat) : Bool := decide (s.sec.grade = .n) && [2, 4, 5].contains op

/-- The kind of unit that runs an op (R487). -/
def swKind (op : Nat) : Option Nat :=
  if 1 ≤ op ∧ op ≤ 5 then some 0 else if 0x10 ≤ op ∧ op ≤ 0x16 then some 1 else if 0x20 ≤ op ∧ op ≤ 0x2F then some 2 else none

/-- The units of a kind among targets, in order. -/
def unitsOf (t : Targets) (kind : Nat) : List Nat :=
  match kind with
  | 0 => (List.range 1024).filter (fun i => t.map.getLsbD i)
  | 1 => (List.range 16).filter (fun i => t.tally.getLsbD i)
  | _ => (List.range 16).filter (fun i => t.pipes.getLsbD i)

/-! ### What a record gives -/

/-- The values of n elements at an offset from their scale bytes, which follow n elements. -/
def State.swInput (s : State) (a off : Nat) (f : Fmt) (block n : Nat) : List Num :=
  let w := (n * f.width + 7) / 8
  let x := s.swField a off w
  (List.range n).map (fun i =>
    loadElem f (if f.narrow then s.swField a (off + w + i / blockSize block) 1 else 127) 127 (packGet f x i))

/-- The rounding of output element i. -/
def State.swMode (s : State) (a i : Nat) : Mode :=
  match s.swField a 5 1 % 4 with
  | 0 => .rn | 1 => .rz
  | _ => .rs (s.swField a (s.swField a 24 4 + 4 * i) 4 % 2 ^ 24)

/-- Values stored in the output format of a record, in blocks with their scale bytes after them (R204, R205). -/
def State.swStore (s : State) (a : Nat) (fo : Fmt) (vs : List (Num × Cnts)) : List Byte × Stats :=
  let r := storeBlocks fo (s.swField a 6 1 / 4 % 4) (s.swField a 7 1) (vs.zipIdx.map (fun v => (v.1.1, s.swMode a v.2)))
  (r.1 ++ r.2.1, r.2.2.add (vs.foldl (fun c v => c.add v.2) ({} : Cnts)).stats)

/-- A read into the intermediate of an op (R206). -/
def swRead (int : Bool) (v : Num) : Num × Cnts := if int then (v, {}) else readF32 v

/-- A matrix group (R216, R217): the sum from +0 of the groups of all elements; `none` for a pair that the matrix unit does not take. -/
def swGroup (fa fb : Fmt) (block n : Nat) (xa xb : List Num) : Option (Num × Cnts) :=
  if fa = .i8 ∧ fb = .i8 then
    let r := accIntGroups ((List.range n).zip ((xa.zip xb).map (fun p => p.1.toInt * p.2.toInt))) 16 0 0 ((n + 15) / 16)
    some (Num.ofInt r.1, { sat := r.2 })
  else if (fa.narrow && fb.narrow) || (decide (fa = fb) && (decide (fa = .b16) || decide (fa = .h16))) then
    let gl := if fa.narrow then blockSize block else 16
    let ra := xa.map readF32
    let rb := xb.map readF32
    let r := accGroups ((List.range n).zip ((ra.zip rb).map (fun p => prodOf p.1.1 p.2.1))) gl Num.zero 0 ((n + gl - 1) / gl)
    some (r.1, (sumCnts ((ra ++ rb).map (·.2))).add r.2)
  else none

/-- The header cell of a collective of a Tally record, of which both inputs are members. -/
def State.swHeader (s : State) (a op : Nat) : List Byte :=
  let f (o : Nat) : Nat := s.swField a o 1
  leBytes 1 1 ++ leBytes 1 op ++ leBytes 1 (f 2) ++ leBytes 1 (f 2) ++ leBytes 1 (f 6) ++ leBytes 1 (f 4) ++ leBytes 1 (f 5) ++
    leBytes 1 127 ++ leBytes 8 0 ++ leBytes 4 (s.swField a 8 4) ++ leBytes 24 0 ++ leBytes 1 (f 7) ++ leBytes 19 0

/-- One Tally operation at a node (08 R233, R242): the inputs as two members' contributions, combined and converted. -/
def State.swTally (s : State) (a op : Nat) (fa : Fmt) : List Byte × Stats :=
  let h := s.swHeader a op
  match collFmt h with
  | none => ([], {})
  | some pf =>
    let n := s.swField a 8 4
    let blk := s.swField a 6 1 % 4
    let w := (n * fa.width + 7) / 8
    let ins (off : Nat) : List ((Nat × Nat) × Cnts) :=
      let x := s.swField a off w
      (List.range n).map (fun i =>
        readElem h pf fa (if fa.narrow then s.swField a (off + w + i / blockSize blk) 1 else 127) 127 (packGet fa x i) none)
    let xa := ins (s.swField a 16 4)
    let xb := ins (s.swField a 20 4)
    let c := combineVals h (xa.map (·.1)) (xb.map (·.1))
    let r := resultData h c.1
    (r.1, r.2.add ((sumCnts ((xa ++ xb).map (·.2))).add c.2).stats)

/-- The output bytes and statistics of a record on its unit (R221, R222). Inputs that the op does not take give none; the optimizers'
parameters and moments, which the record does not give, make theirs a free value of the record and its inputs. -/
def State.swResult (s : State) (a : Nat) : List Byte × Stats :=
  let op := s.swField a 0 2
  let n := s.swField a 8 4
  let blk := s.swField a 6 1 % 4
  match Fmt.ofCode (s.swField a 2 1), Fmt.ofCode (s.swField a 4 1) with
  | some fa, some fo =>
    let fb := Fmt.ofCode (s.swField a 3 1)
    let oa := s.swField a 16 4
    let ob := s.swField a 20 4
    let xa := s.swInput a oa fa blk n
    if op = 1 then s.swStore a fo (xa.map (swRead (fa.int && fo.int)))
    else if 0x20 ≤ op then
      let r := Config.optimizerOut (s.read (dramKey a) 28 ++ (s.swRegions a).dropLast.flatMap (fun r => s.read (dramKey (a + r.1)) r.2))
      (r.1, { amax := r.2.1, sat := r.2.2.1, inv := r.2.2.2.1, nanblk := r.2.2.2.2 })
    else match fb with
      | none => ([], {})
      | some fb =>
        let xb := s.swInput a ob fb blk n
        if op = 2 then (match swGroup fa fb blk n xa xb with | some v => s.swStore a fo [v] | none => ([], {}))
        else if op = 3 then
          let xc := s.swInput a (ob + swSize (fmtCode fb) blk n) fb blk n
          let int := fa.int && fb.int
          s.swStore a fo (((xa.zip xb).zip xc).map (fun p =>
            let x := swRead int p.1.1; let y := swRead int p.1.2; let z := swRead int p.2
            let r := if int then laneInt 0 x.1.toInt y.1.toInt z.1.toInt else laneF32 0 (laneMode (s.swField a 5 1 % 4)) x.1 y.1 z.1
            (r.1, ((x.2.add y.2).add z.2).add r.2)))
        else if op = 4 ∨ op = 5 then
          (if fa = .f32 ∧ fb = .f32 then s.swStore a fo [emulated (decide (op = 5)) xa xb] else ([], {}))
        else if fa = fb then s.swTally a (op - 0x10) fa else ([], {})
  | _, _ => ([], {})

/-- Whether a record passes (R487): its output bytes and statistics are those expected. -/
def State.swPass (s : State) (a : Nat) : Bool :=
  let r := s.swResult a
  let f (o : Nat) : Nat := s.swField a o 4
  decide (s.read (dramKey (a + f 28)) (f 32) = r.1) && decide (r.2 = { amax := f 36, sat := f 40, inv := f 44, nanblk := f 48 })

/-! ### Runs -/

/-- Begin a run: the set is read, records malformed or for absent units are counted, the others wait for each of their units. An
uncorrectable word of the set ends it with ST_INTEGRITY (Table 17-2). -/
def State.startSwatch (s : State) (addr len : Nat) (t : Targets) (limit : Nat) (ticket slot : Option Nat) : State :=
  let recs := ((s.swSet addr len).1).zipIdx
  let bad := recs.filter (fun r => s.swMalformed r.1)
  let good := recs.filter (fun r => !s.swMalformed r.1)
  let absent := good.filter (fun r => s.swAbsent (s.swField r.1 0 2))
  let todo := (good.filter (fun r => !s.swAbsent (s.swField r.1 0 2))).flatMap (fun r =>
    match swKind (s.swField r.1 0 2) with
    | some k => ((unitsOf t k).filter (fun u => k != 0 || (s.stitchStatus u).isNone)).map (fun u =>
        ({ addr := r.1, index := r.2, kind := k, unit := u } : SwItem))
    | none => [])
  let run : SwRun := { limit := limit, todo := todo, ticket := ticket, slot := slot,
                       res := { start := s.time.pip, absent := absent.length, malformed := bad.length } }
  let s := s.setInteg { s.integ with run := some run }
  match s.firstUe (dramKey addr) len with
  | some u => (s.logUe u).endSwatch .integrity
  | none => s.stepSwatch

/-- Charge a record to its class: its elements as one issue each way, on a Tally engine as additions (17 R487; 15 Table 15-2). -/
def State.chargeSwatch (s : State) (i : SwItem) : State :=
  let n := s.swField i.addr 8 4
  let x := i.class
  let eu := moveEu (s.swLen i.addr) + (match i.kind with | 0 => 1 | 1 => (n + 15) / 16 | _ => 1 + n)
  let t := s.charge x.1 x.2 1 eu
  if i.skein.isSome then t.noteEst x.1 keySwatch (s.energyOf x.1 eu) else t

/-- One record on one unit. -/
def State.runSwatchItem (s : State) (r : SwRun) (i : SwItem) : State :=
  let s := s.chargeSwatch i
  let p := s.swPass i.addr
  let res := { r.res with run := r.res.run + 1, passed := r.res.passed + b2n p, failed := r.res.failed + b2n !p,
                          firstFail := if p then r.res.firstFail else some (r.res.firstFail.getD i.index) }
  let s := s.setInteg { s.integ with run := some { r with todo := r.todo.erase i, res := res } }
  let s := match i.skein with | some k => s.takeUp k (.swatch (swNo i.kind i.unit)) | none => s
  let src := match i.kind with | 0 => srcOf 2 i.unit | 1 => srcOf 7 i.unit | _ => srcOf 7 (16 + i.unit)
  let s := if p then s else
    let s := s.logRaise 0x1104 2 0 src 0 (i.index % 2 ^ 32 + s.swField i.addr 0 2 * 2 ^ 32)
    if i.kind = 0 then s.suspect i.unit else s
  s.stepSwatch

/-- SWATCH_RECORD (R487): the next record of a unit, started by its Dealer, or taken by a Tally engine between its slices; it waits while
its class is held (15 R426). One that would run at the run's limit or later is late (02 R52). -/
def execSwatchRecord (kind unit : Nat) (s : State) : Host.Outcome State Fault Refusal :=
  match s.integ.run with
  | none => .next s
  | some r =>
    match r.todo.find? (fun i => i.kind == kind && i.unit == unit) with
    | none => .next s
    | some i =>
      let started := match i.skein with
        | some k => (s.dealer k).started.contains (.swatch (swNo kind unit)) | none => true
      if r.res.start + r.limit ≤ s.time.pip then .next (s.endSwatch .timeout)
      else if !started || (decide (kind = 0) && (s.stitchStatus unit).isSome) then .next s
      else if !s.mayIssue i.class.1 i.class.2 then .next (s.noteHold i.class.1 i.class.2)
      else match s.firstUe (dramKey i.addr) (s.swLen i.addr) with
        | some u => .next ((s.logUe u).endSwatch .integrity)
        | none => .next (s.runSwatchItem r i)

/-- SWATCH_RUN_LIMIT (R488): a run not complete at its start plus run_limit ends with ST_TIMEOUT. -/
def execSwatchRunLimit (s : State) : Host.Outcome State Fault Refusal :=
  match s.integ.run with
  | none => .next s
  | some r => if r.res.start + r.limit ≤ s.time.pip then .next (s.endSwatch .timeout) else .next s

/-- The pip at which the occurrence that a schedule is at fell or falls due. -/
def SwSched.dueAt (c : SwSched) : Nat := if c.waiting then c.next - c.period else c.next

/-- An occurrence of another slot comes first: it is due earlier, or at the same pip and its command was accepted earlier (02 R61). -/
def State.swAhead (s : State) (slot : Nat) (c : SwSched) : Bool :=
  s.integ.scheds.any (fun e => e.1 != slot && e.2.armed && (e.2.waiting || decide (e.2.next ≤ s.time.pip)) &&
    (decide (e.2.dueAt < c.dueAt) || (e.2.dueAt == c.dueAt && decide (e.2.order < c.order))))

/-- SWATCH_OCCURRENCE (R488; 02 R61): an occurrence of a slot falls due, after the commits due by then. It starts a run, or
waits for the one in progress; one that still waits when the next falls due is skipped and counted. -/
def execSwatchOccurrence (slot : Nat) (s : State) : Host.Outcome State Fault Refusal :=
  match tabGet? s.integ.scheds slot with
  | none => .next s
  | some c =>
    let due := c.armed && decide (c.next ≤ s.time.pip) && (!c.waiting || decide (c.period ≠ 0)) &&
      !s.cfg.commits.any (fun m => decide (m.pip ≤ c.next))
    let put (c : SwSched) : State := s.setInteg { s.integ with scheds := tabPut s.integ.scheds slot c }
    if s.integ.run.isSome then
      if !due then .next s
      else .next (put { c with waiting := true, skipped := c.skipped + b2n c.waiting, next := c.next + c.period })
    else if (due || (c.armed && c.waiting)) && !s.swAhead slot c then
      let c' := if due then { c with next := c.next + c.period, skipped := c.skipped + b2n c.waiting } else c
      .next ((put { c' with waiting := false, armed := decide (c.period ≠ 0) }).startSwatch c.addr c.len c.t c.limit none (some slot))
    else .next s

/-! ### Commands (R497) -/

/-- The refusals of a set, its targets and its limit, at parameter i on. -/
def State.swChks (s : State) (o : Origin) (i addr len : Nat) (t : Targets) (li limit : Nat) : List Chk :=
  s.addrChks i addr len 64 ++ s.stitchChks (unitsOf t 0) ++
  [badFld li (!inRange (2 ^ 12) (2 ^ 40) limit), s.ownChk o resTest,
   ⟨t.map == 0 && t.tally == 0 && t.pipes == 0, .badDesc, some (i + 2)⟩, ⟨(s.swSet addr len).2, .badDesc, some (i + 1)⟩]

/-- SWATCH_RUN. -/
def execSwatchRun (o : Origin) (addr len : Nat) (t : Targets) (limit : Nat) (s : State) : Host.Outcome State Fault Refusal :=
  s.command o 0x0C01 [addr, len, t.map.toNat, t.tally.toNat, t.pipes.toNat, limit]
    (⟨s.integ.run.isSome, .busy, none⟩ :: s.swChks o 0 addr len t 5 limit)
    (fun tk s => (s.startSwatch addr len t limit (some tk) none, .later))

/-- SWATCH_SCHEDULE_AT (02 R54, R55): arms a slot, or removes its schedule. -/
def execSwatchScheduleAt (o : Origin) (slot remove target late period addr len : Nat) (t : Targets) (limit : Nat) (s : State) :
    Host.Outcome State Fault Refusal :=
  let at0 := scheduled s.time.pip target late
  let old := tabGet? s.integ.scheds slot
  s.update o 0x0C02 [slot, remove, target, late, period, addr, len, t.map.toNat, t.tally.toNat, t.pipes.toNat, limit]
    ([badFld 0 (decide (slot > 3)), badFld 1 (decide (remove > 1)), badFld 3 (decide (late > 1)), s.ownChk o resTest] ++
     ⟨decide (s.time.state = .unlocked), .busy, none⟩ ::
     (if remove = 1 then [] else
      [badFld 4 (period != 0 && !inRange (2 ^ 24) (2 ^ 44) period), ⟨at0.isNone, .late, none⟩,
       ⟨(match old with | some c => c.armed | none => false), .busy, none⟩] ++
      s.swChks o 5 addr len t 10 limit))
    (fun s =>
      let last := old.bind (·.last)
      let c : SwSched := if remove = 1 then
          { (old.getD { next := 0, period := 0, addr := 0, len := 0, t := t, limit := 0 }) with armed := false, waiting := false }
        else { next := at0.getD 0, period := period, addr := addr, len := len, t := t, limit := limit, last := last,
               order := 1 + (s.integ.scheds.map (·.2.order)).foldl max 0 }
      if remove = 1 ∧ old.isNone then s else s.setInteg { s.integ with scheds := tabPut s.integ.scheds slot c })
    (fun _ => [uf 8 (if remove = 1 then 0 else at0.getD 0)])

/-- SWATCH_STATUS: the schedule of a slot with its next pip; the last run; occurrences skipped. Slot 4 is the last SWATCH_RUN. -/
def execSwatchStatus (o : Origin) (slot : Nat) (s : State) : Host.Outcome State Fault Refusal :=
  s.query o 0x0C03 [slot] [badFld 0 (decide (slot > 4))] (fun s =>
    let c := tabGet? s.integ.scheds slot
    let last := if slot = 4 then s.integ.lastRun else c.bind (·.last)
    let g (f : SwSched → Nat) : Nat := (c.map f).getD 0
    [uf 1 (g (fun x => b2n x.armed)), uf 8 (g (·.next)), uf 8 (g (·.period)), uf 8 (g (·.addr)), uf 8 (g (·.len)),
     bf 128 (g (·.t.map.toNat)), uf 2 (g (·.t.tally.toNat)), uf 2 (g (·.t.pipes.toNat)), uf 8 (g (·.limit)),
     uf 1 (b2n last.isSome)] ++ swFlds (last.getD {}) ++ [uf 4 (g (·.skipped))])

end Sys2Proof.Machine
end

