-- ==== Sys2Proof/Machine/CfgCmds.lean ====
section
/-! DEFINITION. Staged configuration: stage sets, commits, how a commit applies (16 R466 to R472; 02 R40, R62, R64; 03 R116;
05 R162, R164, R172; 06 R182, R189; 15 R435, R436; 20 R556). -/

namespace Sys2Proof.Machine

open Sys2Proof

/-! ### Stage sets (R466, R467) -/

/-- A host's stage set. -/
def CfgSt.stage (c : CfgSt) : HostId → List Setting | .h0 => c.stage0 | .h1 => c.stage1

/-- Replace a host's stage set. -/
def CfgSt.setStage (c : CfgSt) (h : HostId) (l : List Setting) : CfgSt :=
  match h with | .h0 => { c with stage0 := l } | .h1 => { c with stage1 := l }

/-- Stage an item; it replaces one of the same ID and scope. -/
def stageItem (l : List Setting) (x : Setting) : List Setting :=
  l.filter (fun y => !(y.id == x.id && y.scope == x.scope)) ++ [x]

/-- The settings of a command's items. -/
def settingsOf (items : List Item) : List Setting := items.map (fun i => { id := i.id, scope := i.scope, val := i.val })

/-- The refusals of item `i` of CFG_STAGE (R467). -/
def State.itemChks (s : State) (o : Origin) (i : Nat) (x : Item) : List Chk :=
  let k := scopeKind x.id
  [badFld (4 * i + 1) k.isNone, badFld (4 * i + 2) (x.rsv != 0),
   badFld (4 * i + 3) (match k with | some k => !scopeOk k x.scope | none => false),
   badFld (4 * i + 4) (!rangeOk s.maxClock x.id x.scope x.val), s.ownChk o (resourceOf x.id x.scope)]

/-- CFG_STAGE (R461, R466, R467): every item or none. -/
def execCfgStage (o : Origin) (items : List Item) (s : State) : Host.Outcome State Fault Refusal :=
  let new := (settingsOf items).foldl stageItem (s.cfg.stage (Origin.hostD o))
  s.update o 0x0201 (items.length :: items.flatMap (fun x => [x.id, x.rsv, x.scope, x.val]))
    (badFld 0 (!inRange 1 64 items.length) :: (items.zipIdx.flatMap (fun p => s.itemChks o p.2 p.1) ++
      [⟨decide (new.length > 4096), .capacity, none⟩]))
    (fun s => s.setCfg (s.cfg.setStage (Origin.hostD o) new)) (fun _ => [uf 4 new.length])

/-- CFG_STAGE_CLEAR (R472): answers the items removed. -/
def execCfgStageClear (o : Origin) (s : State) : Host.Outcome State Fault Refusal :=
  s.update o 0x0202 [] [] (fun s => s.setCfg (s.cfg.setStage (Origin.hostD o) [])) (fun _ => [uf 4 (s.cfg.stage (Origin.hostD o)).length])

/-! ### What a commit touches (Table 16-11a) -/

/-- A setting of kind freeze. -/
def isFreeze (x : Setting) : Bool := x.id == idArbWeight || x.id == idPoolMode
/-- A setting of kind link drain. -/
def isDrain (x : Setting) : Bool := x.id == idAdmin || x.id == idPortMode || x.id == idFecMode
/-- A setting of a meter (06 R182). -/
def isMeter (x : Setting) : Bool := [idCir, idPir, idCbs, idPbs, idMeterMode, idMeterEn].contains x.id
/-- A setting of a shaper (06 R189). -/
def isShaper (x : Setting) : Bool := [idShapeEn, idShapeRate, idShapeBurst].contains x.id
/-- A setting that bears on credits (04 R149). -/
def isAcct (x : Setting) : Bool := [idAcctMin, idAcctMax, idPoolMode].contains x.id

/-- The arbiter that an item of kind freeze names. -/
def frozenArb (x : Setting) : Nat :=
  if x.id = idPoolMode then arbKey 3 x.scope 0 else arbKey (bits x.scope 16 8) (bits x.scope 8 8) (bits x.scope 7 1)

/-- The items whose value differs from a configuration's. -/
def State.changedIn (s : State) (vals : Tab Nat) (items : List Setting) : List Setting :=
  items.filter (fun x => s.settingOf vals x.id x.scope != x.val)

/-- The links of the present port modes that items of kind link drain take out of service, which change what a configuration has
(03 R116). -/
def State.drainLinks (s : State) (vals : Tab Nat) (items : List Setting) : List Nat :=
  (((s.changedIn vals items).filter isDrain).flatMap (fun x =>
    if x.id = idFecMode then [linkOfPh x.scope] else [2 * x.scope, 2 * x.scope + 1])).eraseDups.filter
    (fun lk => s.linkNums.contains lk)

/-! ### CFG_COMMIT_AT (R468) -/

/-- The half that an item's scope names, with its port. -/
def scopeHalf (x : Setting) : Option Nat :=
  match scopeKind x.id with
  | some .half => some x.scope
  | some .linkVc | some .linkClass17 => some (bits x.scope 0 8)
  | some .account | some .accountOvf => if acctKind x.scope = 0 then some (acctPort x.scope) else none
  | _ => none

/-- The limits of the buffer accounts under a configuration (04 R133). -/
def State.acctChks (s : State) (vals : Tab Nat) : List Chk :=
  let t := s.setCfg { s.cfg with vals := vals }
  let mn (a : Nat) : Nat := t.setting idAcctMin a
  let mx (a : Nat) : Nat := t.setting idAcctMax a
  let all := (List.range 4).flatMap t.dieAccts
  [⟨all.any (fun a => decide (mx a < mn a) || (acctKind a == 0 && decide (mn a < 65))), .badField, none⟩,
   ⟨decide (s.sec.grade = .b) && all.any (fun a => acctKind a == 2 && (mn a != 0 || mx a != 0)), .unitAbsent, none⟩,
   ⟨(List.range 4).any (fun d =>
      let l := t.dieAccts d
      if t.setting idPoolMode d = 0 then decide ((l.map mn).sum > 131072)
      else decide (65 * (l.filter (fun a => acctKind a == 0)).length > 131072)), .badDesc, none⟩]

/-- The extents of a Skein's DRAM that are taken (01 R28): what units and experts hold, below the regions at its top. -/
def State.takenExtents (s : State) : List (Nat × Nat) :=
  s.unitExtents ++ s.exp.exact.flatMap (fun e => match e.2 with | .here x => x.extents | _ => [])

/-- A free extent for the overflow region of a die: the configured place where it is free, else the first one of the Skein that
starts at its first byte or after an extent that is taken (04 R144; DESIGN CHOICE: entry OVFBASE). -/
def State.freeBase (s : State) (die n : Nat) : Option Nat :=
  let k := ovfSkein die
  let taken := s.takenExtents
  let places := [Config.ovfBase die, k * 2 ^ 35] ++ taken.map (fun r => alignUp (r.1 + r.2) 512)
  places.find? (fun b => decide (k * 2 ^ 35 ≤ b) && decide (b + n ≤ sentRegion k) && !taken.any (fun r => overlaps b n r.1 r.2))

/-- An overflow region takes its place when its size changes. -/
def State.placeRegion (s : State) (x : Setting) : State :=
  let b := (s.freeBase x.scope x.val).getD (ovfSkein x.scope * 2 ^ 35)
  if x.id ≠ idOvfSize then s
  else if x.val = 0 then s.setBuf { s.buf with bases := tabDel s.buf.bases x.scope }
  else s.setBuf { s.buf with bases := tabPut s.buf.bases x.scope b }

/-- A change of an overflow region's size (04 R144; 01 R28): the accounts of the configuration in force, the frames it
holds, and a free extent of the Skein's DRAM. -/
def State.ovfChks (s : State) (vals : Tab Nat) (set : List Setting) : List Chk :=
  let xs := (s.changedIn vals set).filter (fun x => x.id == idOvfSize)
  [⟨xs.any (fun x => (s.dieAccts x.scope).any (fun a => s.setting idOvfEnable a == 1) || s.regionUsed x.scope != 0), .busy, none⟩,
   ⟨xs.any (fun x => x.val != 0 && (s.freeBase x.scope x.val).isNone), .capacity, none⟩]

/-- The routing epochs (05 R162, R164, R172); `eff` is the effective pip. -/
def State.epochChks (s : State) (vals : Tab Nat) (set : List Setting) (eff : Nat) : List Chk :=
  let stamped := s.settingOf vals idStampEpoch 0
  let staged (id : Nat) : Option Nat := (set.find? (fun x => x.id == id)).map (·.val)
  let drops (l : List Setting) (e : Nat) : Bool := l.any (fun x => x.id == idDropEpoch && x.val == e)
  let anyPort := (List.range 64).any (fun p => s.settingOf vals idPortDir p == 2)
  let cert (e : Nat) : Bool := match s.bankOf e with
    | some b => decide ((s.route.bank b).cert = some (s.portDirDigest vals)) | none => false
  let noBank (e : Nat) (before : Commit → Bool) : Bool :=
    (s.bankOf e).isNone || s.cfg.commits.any (fun c => before c && drops c.items e)
  [⟨match staged idStampEpoch with
    | some e => e != noneVal && (noBank e (fun c => decide (c.pip ≤ eff)) || drops set e) | none => false, .badDesc, none⟩,
   ⟨match staged idDropEpoch with
    | some e => e != noneVal && (e == stamped || noBank e (fun c => decide (c.pip < eff))) | none => false, .badDesc, none⟩,
   ⟨set.any (fun x => x.id == idStampEpoch || x.id == idPortDir) && stamped != noneVal && anyPort && !cert stamped,
    .badDesc, none⟩]

/-- Meters, privileged classes and power under a configuration (06 R189, R195; 15 R435, R436). -/
def State.limitChks (s : State) (vals : Tab Nat) (set : List Setting) : List Chk :=
  let v (id x : Nat) : Nat := s.settingOf vals id x
  let priv (x : Setting) : Nat :=
    ((List.range 8).filter (fun c => c != 0 && v idPrivileged (c * 256 + x.scope % 256) == 1)).length
  [⟨set.any (fun x => isMeter x && (decide (v idPir x.scope < v idCir x.scope) || decide (v idPbs x.scope < v idCbs x.scope))),
    .badDesc, none⟩,
   ⟨set.any (fun x => x.id == idPrivileged && decide (priv x > 2)), .badDesc, none⟩,
   ⟨(List.range 4).any (fun d => decide (v idFwdW d + 10 > v idPdWatts d)) ||
    (List.range 8).any (fun x => decide (v idClkMin x > v idClkMax x)) || s.fixedBad vals s.envelope, .badDesc, none⟩]

/-- The configuration that would be in force before this set: every pending commit applied in order. -/
def State.pendingVals (s : State) : Tab Nat := s.cfg.commits.foldl (fun v c => applyItems v c.items) s.cfg.vals

/-- The effective pip of a commit (R468 steps 4 and 5; 02 R54), or `none` when its target has passed. -/
def State.commitPip (s : State) (set : List Setting) (target late drain : Nat) : Option Nat :=
  let first := s.time.pip + 2048 + (if set.any isDrain then drain else 0)
  if first ≤ target then some target else if late = 1 then some first else none

/-- The first refusal of CFG_COMMIT_AT in the order of R468. -/
def State.commitRefusal (s : State) (h : HostId) (target late drain : Nat) : Option Status :=
  let set := s.cfg.stage h
  let vals := applyItems s.pendingVals set
  let eff := s.commitPip set target late drain
  let halves : Chk := ⟨set.any (fun x => match scopeHalf x with | some ph => !s.halfFits vals ph | none => false), .badDesc, none⟩
  if set.isEmpty then some .badDesc
  else if set.any (fun x => s.otherHolds h (resourceOf x.id x.scope)) then some .notOwner
  else match firstRefusal (halves :: (s.acctChks vals ++ s.ovfChks s.pendingVals set ++ s.epochChks vals set (eff.getD target) ++
      s.limitChks vals set)) with
  | some c => some c.st
  | none =>
    match eff with
    | none => some .late
    | some e =>
      if s.cfg.commits.any (fun c => decide (e < c.pip)) then some .busy
      else if s.cfg.commits.length ≥ 8 then some .capacity
      else none

/-- A commit id that no pending commit has. -/
def CfgSt.freeId (c : CfgSt) : Nat :=
  ((((List.range 256).map (fun i => (c.nextId + i) % 256)).find? (fun i => !c.commits.any (fun m => m.id == i)))).getD 0

/-- CFG_COMMIT_AT (R468): the stage set becomes a pending commit; the command completes when it applies. -/
def execCfgCommitAt (o : Origin) (target late drain : Nat) (s : State) : Host.Outcome State Fault Refusal :=
  let h := Origin.hostD o
  s.command o 0x0203 [target, late, drain]
    ([badFld 1 (decide (late > 1)), badFld 2 (!inRange (2 ^ 12) (2 ^ 24) drain)] ++
     (match s.commitRefusal h target late drain with | some st => [⟨true, st, none⟩] | none => []))
    (fun t s =>
      let set := s.cfg.stage h
      let id := s.cfg.freeId
      let c : Commit := { id := id, pip := (s.commitPip set target late drain).getD target, host := h, items := set,
                          drainLead := drain, ticket := t }
      let cfg := s.cfg.setStage h []
      (s.setCfg { cfg with commits := cfg.commits ++ [c], nextId := (id + 1) % 256 }, .later))

/-! ### CFG_CANCEL, CFG_READ, CFG_STATUS -/

/-- A pending commit. -/
def CfgSt.commit (c : CfgSt) (id : Nat) : Option Commit := c.commits.find? (fun m => m.id == id)

/-- CFG_CANCEL (R471): the cancelled CFG_COMMIT_AT ends with ST_ABORTED. -/
def execCfgCancel (o : Origin) (id : Nat) (s : State) : Host.Outcome State Fault Refusal :=
  let c := s.cfg.commit id
  let has (p : Commit → Bool) : Bool := match c with | some m => p m | none => false
  s.update o 0x0204 [id]
    [⟨c.isNone, .badDesc, some 0⟩, ⟨has (fun m => m.host != (Origin.hostD o)), .denied, none⟩,
     ⟨has (fun m => m.frozen || m.drained || decide (m.pip ≤ s.time.pip)), .late, none⟩,
     ⟨has (fun m => s.cfg.commits.getLast? != some m), .busy, none⟩]
    (fun s => match c with
      | none => s
      | some m => (s.setCfg { s.cfg with commits := s.cfg.commits.filter (fun x => x.id != id) }).finish m.ticket .aborted [])
    (fun _ => [])

/-- CFG_READ (R472): the value in force, that of the caller's stage set, and each pending one with its pip. -/
def execCfgRead (o : Origin) (id scope : Nat) (s : State) : Host.Outcome State Fault Refusal :=
  let k := scopeKind id
  let here (x : Setting) : Bool := x.id == id && x.scope == scope
  s.query o 0x0205 [id, scope]
    [badFld 0 k.isNone, badFld 1 (match k with | some k => !scopeOk k scope | none => false)]
    (fun s =>
      let staged := match Origin.host? o with
        | some h => (((s.cfg.stage h).find? here).map (·.val)).getD noneVal | none => noneVal
      [uf 8 (s.setting id scope), uf 8 staged] ++
      listFlds (s.cfg.commits.flatMap (fun c => (c.items.filter here).map (fun x => [uf 8 x.val, uf 8 c.pip]))))

/-- CFG_STATUS (R472). -/
def execCfgStatus (o : Origin) (s : State) : Host.Outcome State Fault Refusal :=
  s.query o 0x0206 [] [] (fun s =>
    uf 4 s.cfg.epoch :: (listFlds (s.cfg.commits.map (fun c =>
      [uf 1 c.id, uf 8 c.pip, uf 1 c.host.num, uf 4 c.items.length, uf 1 (b2n (c.frozen || c.drained))])) ++
    [uf 4 s.cfg.stage0.length, uf 4 s.cfg.stage1.length]))

/-! ### Freezing and draining (R468, R469; 03 R116) -/

/-- Replace a pending commit. -/
def CfgSt.setCommit (c : CfgSt) (m : Commit) : CfgSt :=
  { c with commits := c.commits.map (fun x => if x.id = m.id then m else x) }

/-- Set or clear the freeze bit of an arbiter; when it clears, every s(i) is 0. -/
def State.freeze (s : State) (k : Nat) (on : Bool) : State :=
  let a := s.arb k
  let a := if on then { a with frozen := true }
           else { a with frozen := false, reqs := tabMap a.reqs (fun _ r => { r with s := 0 }) }
  s.setTraf { s.traf with arbs := tabPut s.traf.arbs k a }

/-- The arbiters that items of kind freeze name. -/
def frozenArbs (items : List Setting) : List Nat := ((items.filter isFreeze).map frozenArb).eraseDups

/-- CFG_FREEZE_BEGIN (R468): from C − 16. -/
def execCfgFreezeBegin (id : Nat) (s : State) : Host.Outcome State Fault Refusal :=
  match s.cfg.commit id with
  | none => .next s
  | some c =>
    if c.frozen || !c.items.any isFreeze || decide (s.time.pip + 16 < c.pip) then .next s
    else .next ((frozenArbs c.items).foldl (fun s k => s.freeze k true) (s.setCfg (s.cfg.setCommit { c with frozen := true })))

/-- The configuration that a pending commit will find: every earlier one applied. -/
def State.valsBefore (s : State) (id : Nat) : Tab Nat :=
  (s.cfg.commits.takeWhile (fun x => x.id != id)).foldl (fun v c => applyItems v c.items) s.cfg.vals

/-- The links that drain for the pending commits whose drain has begun (03 R116). -/
def State.drainSet (s : State) : List Nat :=
  (s.cfg.commits.filter (·.drained)).flatMap (fun c => s.drainLinks (s.valsBefore c.id) c.items)

/-- Exactly those links start no new frames (03 R116). -/
def State.enforceDrain (s : State) : State :=
  let d := s.drainSet
  d.foldl (fun s lk => s.setLink lk { s.link lk with draining := true })
    (s.setLinks (tabMap s.links (fun lk l => if l.draining && !d.contains lk then { l with draining := false } else l)))

/-- LINK_DRAIN_BEGIN (R468; 03 R116): from C − drain_lead no new frame starts on a link that the commit changes. -/
def execLinkDrainBegin (id : Nat) (s : State) : Host.Outcome State Fault Refusal :=
  match s.cfg.commit id with
  | none => .next s
  | some c =>
    if c.drained || !c.items.any isDrain || decide (s.time.pip + c.drainLead < c.pip) then .next s
    else .next (s.setCfg (s.cfg.setCommit { c with drained := true })).enforceDrain

/-! ### CFG_COMMIT_APPLY -/

/-- LASER_EN_N after cast-on: high for a module whose 8 ports are all DARK under admin (20 R555, R556). -/
def State.laserPins (s : State) : BitVec 8 :=
  BitVec.ofNat 8 (((List.range 8).map (fun m =>
    if (List.range 8).all (fun i => s.setting idAdmin (8 * m + i) = 0) then 2 ^ m else 0)).sum)

/-- A link that a commit changes leaves UP with GOING_DARK and is dark (03 R116; 16 R469). -/
def State.goDark (s : State) (lk : Nat) : State :=
  let s := if (s.link lk).carries then s.sendLinkState lk (linkStateWord 2 0) else s
  let s := s.leave lk .dark
  s.setLink lk { s.link lk with attempts := 0 }

/-- Arming after a commit: the links of ARMED ports begin to train, unless their lasers were off (20 R556). -/
def State.armLinks (s : State) (off : BitVec 8) (ports : List Nat) : State :=
  (s.linkNums.filter (fun lk => ports.contains (lk / 2) && s.setting idAdmin (lk / 2) == 1)).foldl
    (fun s lk => if off.getLsbD (lk / 16) || (s.link lk).state != .dark then s else s.startTraining lk) s

/-- A new time role (02 R40, R64): MASTER and FREE are LOCKED at once; a device that becomes FOLLOWER is UNLOCKED, and what
was armed for later ends with ST_ABORTED. -/
def State.changeRole (s : State) (old pip : Nat) : State :=
  let new := s.timeRole
  if new = old then s
  else if new ≠ 1 then
    s.setTime { s.time with state := .locked, parent := none, lockRun := 0, slew := 0 }
  else
    let s := s.setTime { s.time with state := .unlocked, parent := none, lockRun := 0, stepped := false, slew := 0 }
    let s := s.pat.launches.foldl (fun s e => match s.launch e.1 with
      | some l => if l.st = .armed ∧ l.target > pip then s.dropLaunch e.1 l .aborted else s
      | none => s) s
    s.setInteg { s.integ with scheds := tabMap s.integ.scheds (fun _ c =>
      if c.armed && decide (c.next > pip) then { c with armed := false, waiting := false } else c) }

/-- The classes of an egress that lose their privilege while empty take f(i) := v (06 R189). -/
def State.losePrivilege (s : State) (old : Tab Nat) (x : Setting) : State :=
  let lk := linkOfPh (bits x.scope 0 8)
  let cls := bits x.scope 8 3
  if x.id = idPrivileged ∧ s.settingOf old x.id x.scope = 1 ∧ x.val = 0 ∧ s.depth lk cls = 0 then
    let d := s.sched lk
    s.setSched lk { d with tags := tabPut d.tags cls d.v }
  else s

/-- Bring the shaper buckets of every link to this pip under the values in force (06 R187, R189). -/
def State.settleShapers (s : State) : State :=
  s.linkNums.foldl (fun t lk => t.setSched lk
    { t.sched lk with buckets := (List.range 8).map (fun c => (c, s.shaper lk c)), last := s.time.pip }) s

/-- A bank becomes EMPTY (05 R164). -/
def State.dropBank (s : State) (x : Setting) : State :=
  if x.id = idDropEpoch ∧ x.val ≠ noneVal then
    match s.bankOf x.val with
    | some b => (s.setRoute (s.route.setBank b {})).refreshEpoch
    | none => s
  else s

/-- A queued frame, or a profile of a link, that was stamped before a pip: it is still handled under the values before it (02 R62). -/
def State.stampedBefore (s : State) (pip : Nat) : Bool :=
  s.buf.frames.any (fun q => decide (q.stamp < pip)) ||
  s.links.any (fun e => e.2.profStamp.any (fun t => decide (t < pip)) || e.2.profPend.any (fun p => decide (p.1 < pip)))

/-- The replaced values that events may still be governed by, after a commit at a pip (02 R62). -/
def State.keptPast (s : State) (pip : Nat) : List (Nat × Tab Nat) :=
  (s.cfg.past ++ [(pip, s.cfg.vals)]).filter (fun p => s.stampedBefore p.1)

/-- The effects of the values of a commit at its pip, on everything but the links it takes out of service. -/
def State.applyValues (s : State) (c : Commit) : State :=
  let old := s.cfg.vals
  let ch := s.changedIn old c.items
  let role := s.timeRole
  let prof := s.profileFields
  let s := if ch.any isShaper then s.settleShapers else s
  let s := s.setCfg { s.cfg with vals := applyItems old c.items, past := s.keptPast c.pip }
  let s := (frozenArbs c.items).foldl (fun s k => s.freeze k false) s
  let modes := (ch.filter (fun x => x.id == idPortMode)).map (·.scope)
  let s := s.setTraf { s.traf with meters := tabKeep s.traf.meters (fun k =>
    !modes.contains (k / 16) && !(ch.filter isMeter).any (fun x => meterKey (linkOfPh (bits x.scope 0 8)) (bits x.scope 8 3) == k)) }
  let s := ch.foldl (fun s x => s.losePrivilege old x) s
  let s := ch.foldl State.placeRegion s
  let s := c.items.foldl State.dropBank s
  let s := if ch.any (fun x => x.id == idStampEpoch) then s.setCfg { s.cfg with stampSince := some c.pip } else s
  let s := s.changeRole role c.pip
  let thawed := (List.range 4).filter (fun d => (frozenArbs c.items).contains (arbKey 3 d 0))
  let dies := ((ch.filter isAcct).map (fun x => if x.id = idPoolMode then x.scope else acctDie x.scope) ++ thawed).eraseDups
  let s := dies.foldl (fun s d => (s.dieAccts d).foldl State.advertise s) s
  let s := s.reparent
  if prof = s.profileFields then s else s.profileChanged

/-- Apply the oldest pending commit whole if its pip has come (R468, R470). -/
def State.applyFirst (s : State) : State :=
  match s.cfg.commits with
  | [] => s
  | c :: rest =>
    if s.time.pip < c.pip then s
    else
      let links := s.drainLinks s.cfg.vals c.items
      let off := s.pins.laserEn
      let s := links.foldl State.goDark s
      let s := s.setCfg { s.cfg with commits := rest, epoch := (s.cfg.epoch + 1) % 2 ^ 32 }
      let s := (s.applyValues c).enforceDrain
      let s := s.setPins { s.pins with laserEn := s.laserPins }
      let s := s.armLinks off ((links.map (· / 2)).eraseDups)
      (s.irqAll 6).finish c.ticket .ok [uf 8 c.pip, uf 1 c.id, uf 4 s.cfg.epoch]

/-- CFG_COMMIT_APPLY (R62, R468, R470). -/
def execCfgCommitApply (s : State) : Host.Outcome State Fault Refusal := .next s.applyFirst

/-- Apply every pending commit whose pip has come, in their order, at most `n`: events of this pip run under them (02 R55, R62). -/
def State.applyDue : Nat → State → State
  | 0, s => s
  | n + 1, s => s.applyFirst.applyDue n

end Sys2Proof.Machine
end

