-- ==== Sys2Proof/Machine/Reset.lean ====
section
/-! DEFINITION. Resets: their scopes, sources and ends (18 R498 to R503, R509, R510, R518, R519; 17 R475, R476; 20 R542, R543). -/

namespace Sys2Proof.Machine

open Sys2Proof

/-! ### COLD and WARM (Table 18-2) -/

/-- COLD: everything returns to State.reset but the fuses and the boot flash; the PERST# pins stand as the board drives them.
The model's own record and queue stay. -/
def State.coldReset (s : State) : State :=
  let c := s.sec
  let sec : SecSt := { grade := c.grade, disabled := c.disabled, rollback := c.rollback, rollbackTorn := c.rollbackTorn,
                       spares := c.spares, fusedRetired := c.fusedRetired, revoked := c.revoked, pinMap := c.pinMap, flash := c.flash }
  let host : HostSt := { h0 := { perst := s.host.h0.perst }, h1 := { perst := s.host.h1.perst } }
  { State.reset with sec := sec, host := host, out := s.out, free := s.free, pending := s.pending }

/-- What is raised and held back goes into the log, while a Needle cluster runs (17 R475, R495): the periods of R492 count from
a pip count that restarts, so they end here (DESIGN CHOICE: entry SUPPRESSWARM). -/
def State.closeLog (s : State) : State :=
  if !s.needleRuns then s
  else
    let s := s.logFlush
    let held := s.log.suppress.filter (fun p => p.held != 0)
    held.foldl (fun s p => s.logNow 0x1106 0 0 s.needle 0 (p.code + p.source * 2 ^ 16 + p.held * 2 ^ 32))
      (s.setLog { s.log with suppress := [] })

/-- What a host port keeps at WARM: its link, RW registers and mailboxes; W1C registers are 0 (R499, R502). -/
def HostPort.warm (p : HostPort) : HostPort := { p with pipHiLatch := 0, launchEnd := 0, mbDone := 0, irqStatus := 0, raced := {} }

/-- A command that came through a mailbox. -/
def Origin.isMb (o : Origin) : Bool := match o with | .mb _ _ => true | .fab _ _ => false

/-- WARM (Table 18-2, R499 to R502): every die; the log and its policy, suspect counts, derate caps, volatile retirements,
invalid sensors, fuse values, device DRAM, the slot override and the host links stay. Narrower resets due or in progress are
absorbed (17 R476). Mailboxes POSTED or TAKEN wait for the boot ROM. -/
def State.warmReset (s : State) (source : Nat) : State :=
  let s := s.endStreams.closeLog
  let inner := s.boot.jobs.filter (fun j => decide (j.scope ≥ 2) && (j.begun || decide (j.due ≤ s.time.pip)))
  let later := (s.boot.jobs.filter (fun j => j.scope == 0 && !j.begun)).map (fun j => { j with due := j.due - s.time.pip })
  let boot : BootSt := { coldRun := false, rstcfg := s.boot.rstcfg, clusterB := s.boot.clusterB, override := s.boot.override,
                         jobs := later,
                         pendingEntries := (source, 1) :: inner.map (fun j => (j.source, j.scope)) ++ s.boot.pendingEntries }
  let host : HostSt := { h0 := s.host.h0.warm, h1 := s.host.h1.warm, primary := s.host.primary,
                         order := s.host.order.filter (fun p => Origin.isMb p.o),
                         taken := s.host.taken.filter (fun t => Origin.isMb t.o), nextTicket := s.host.nextTicket }
  let pwr : PwrSt := { doms := (tabMap s.pwr.doms (fun _ d => ({ derate := d.derate } : Domain))).filter (fun e => e.2.derate != 0),
                       sensors := s.pwr.sensors, badSensors := s.pwr.badSensors }
  let sec := { s.sec with meas := [], measCount := 0, measDigest := 0, debugLevel := 0, nonce := none }
  { State.reset with
    sec := sec, boot := boot, host := host, log := s.log, pwr := pwr,
    integ := { ueSites := s.integ.ueSites.filter UeSite.inLog, suspects := s.integ.suspects, retired := s.integ.retired },
    mem := s.mem.filter (fun c => decide (c.1 < 2 ^ 62)), ueWords := s.ueWords.filter (fun w => decide (w * 8 < 2 ^ 62)),
    out := s.out, free := s.free, pending := s.pending }

/-! ### STITCH and SKEIN -/

/-- An asker of a Stitch. -/
def Asker.onStitch (a : Asker) (st : Nat) : Bool := match a with | .engine t _ | .slot t _ => t == st | _ => false

/-- What a reset leaves of a slot: one that it stopped, or that had faulted before, stays FAULTED with its record, and a reservation
stays (10 R313, R323, R324). -/
def Slot.afterReset (x : Slot) : Slot :=
  if x.st = .faulted then { st := .faulted, fault := x.fault, reserved := x.reserved } else { reserved := x.reserved }

/-- A Stitch after a reset ends its slots with ST_ABORTED, as an abort leaves them, and takes a new record (10 R323, R324). -/
def State.clearStitch (s : State) (st : Nat) (f : Stitch → Stitch) : State :=
  let keys := ((s.tile st).slots.filterMap (fun x => x.2.owner)).eraseDups
  let s := s.endSlots st .aborted
  let t := s.tile st
  let kept := (t.slots.map (fun x => (x.1, x.2.afterReset))).filter (fun x => decide (x.2 ≠ {}))
  let s := s.setTile st { f t with slots := kept, flags := 0, cnts := [], icache := [], eng := [], words := 0 }
  let s := s.dropAskers (fun a => a.onStitch st)
  keys.foldl State.endLaunch (s.lostWitness st)

/-- STITCH (Table 18-2): slots, flags, counters, instruction cache, sentinel numbering; the scratchpad stays. -/
def State.resetStitch (s : State) (st : Nat) : State := s.clearStitch st id

/-- Tokens whose hanks are lost go from the assembly, the notices and the tiles; their frames are released (11 R350). -/
def State.dropTokens (s : State) (gone : QFrame → Bool) : State :=
  let bad (t : Tok) : Bool := t.frames.any gone
  let tile (t : Tile) : Tile := { t with toks := t.toks.filter (fun x => !bad x) }
  let exp (x : Expert) : Expert :=
    { x with notices := x.notices.filter (fun t => !bad t), openF := x.openF.map tile, openB := x.openB.map tile,
             closed := x.closed.map (fun c => (c.1, tile c.2)) }
  let held := s.exp.toks ++ s.exp.exact.flatMap (fun e => match e.2 with
    | .here x => x.notices ++ (x.openF.map (·.toks)).getD [] ++ (x.openB.map (·.toks)).getD [] ++ x.closed.flatMap (·.2.toks)
    | _ => [])
  let s := s.setExp { s.exp with
    toks := s.exp.toks.filter (fun t => !bad t),
    exact := tabMap s.exp.exact (fun _ e => match e with | .here x => .here (exp x) | e => e) }
  (held.filter bad).foldl (fun s t => t.frames.foldl State.freeFrame s) s

/-- SKEIN (Table 18-2): Stitches with their scratchpads, pipes, predictor, layer and descriptor tables, shards, mirror entries,
experts, sentinel slots, streams (14 R414) and the frames of an overflow region there (04 R143). -/
def State.resetSkein (s : State) (k : Nat) : State :=
  let s := ((s.resetExperts k).endSkeinShards k).endSkeinStreams k
  let lost := s.buf.frames.filter (fun q => q.ovf && ovfSkein q.die == k)
  let s := lost.foldl (fun s q => (s.bump .buf q.die bcLostRegion).consume q) s
  let away (q : QFrame) : Bool := q.ovf && ovfSkein q.die == k
  let s := ((s.tokFrames.filter away).foldl (fun (s : State) q => s.bump .buf q.die bcLostRegion) s).dropTokens away
  let s := (s.integ.checks.filter (fun c => c.primary / 256 == k)).foldl State.freeCheck s
  let sts := (s.tiles.map (·.1)).filter (fun st => st / 256 == k)
  let s := sts.foldl (fun s st => s.clearStitch st (fun t => { nextOp := t.nextOp })) s
  let mine (a : Nat) : Bool := decide (spadKey (256 * k) 0 ≤ a) && decide (a < spadKey (256 * k) 0 + 2 ^ 27)
  let s := (s.setMem (s.mem.filter (fun c => !mine c.1))).setUeWords (s.ueWords.filter (fun w => !mine (w * 8)))
  let s := s.setDescs (tabMap s.descs (fun i e => if i / 4096 = k then { e with d := none } else e))
  let s := s.setLayers (tabKeep s.layers (fun i => i / 256 != k))
  (s.setDealer k {}).feedSwatch k

/-! ### PORT -/

/-- A frame of a port account of port p. -/
def ofPort (p : Nat) (q : QFrame) : Bool := acctKind q.acct == 0 && bits q.acct 0 6 == p

/-- Collectives with slots on a die fail with ST_ABORTED, every rank of the device named (08 R251). -/
def State.failSlots (s : State) (d : Nat) : State :=
  s.coll.foldl (fun s g =>
    ((g.2.colls.filter (fun c => c.slices.any (fun x => x.2.dies.contains d))).foldl
      (fun s c => s.failColl g.1 c .aborted [(g.2.lo, g.2.cnt)] false false) s).flowGroup g.1) s

/-- The entries of groups that have slots on a die go with a reset of it (08 R255). -/
def State.killGroups (s : State) (d : Nat) : State :=
  (s.coll.filter (fun g => g.2.dies.contains d && !g.2.dead)).foldl (fun s g => s.killGroup g.1 g.2) s

/-- A link's state, replay buffer, counts and calibration at reset; frames queued for it stay. -/
def State.resetLink (s : State) (lk : Nat) : State :=
  let s := s.leave lk .dark
  let l := s.link lk
  s.setLink lk { since := l.since, downSince := l.downSince }

/-- The meters, schedulers and shapers of a port (Table 18-2). -/
def State.resetTraffic (s : State) (p : Nat) : State :=
  s.setTraf { s.traf with meters := tabKeep s.traf.meters (fun k => k / 16 != p), scheds := tabKeep s.traf.scheds (fun k => k / 2 != p) }

/-- The links of a port under the modes in force. -/
def State.portLinks (s : State) (p : Nat) : List Nat := s.linkNums.filter (fun lk => lk / 2 == p)

/-- PORT (Table 18-2): links, replay buffers, credits and the frames of the port's accounts; the Tally slots of its die are emptied
(08 R251). -/
def State.resetPort (s : State) (p : Nat) : State :=
  let s := s.failSlots (p / 16)
  let s := s.dropTokens (ofPort p)
  let s := (s.buf.frames.filter (ofPort p)).foldl State.consume s
  ((s.portLinks p).foldl State.resetLink s).resetTraffic p

/-- The buffer of a port die is emptied: frames, replicas, waiting frames, hanks with their errors, and accounts (04 R137). -/
def State.emptyPool (s : State) (d : Nat) : State :=
  let s := (s.loseDieFrames d).setColl (tabMap s.coll (fun _ g => { g with colls := g.colls.map (fun c =>
    { c with slices := tabMap c.slices (fun _ x => { x with frames := x.frames.filter (fun f => f.2.die != d) }) }) }))
  let gone := (s.buf.frames ++ s.buf.wait.map (·.q)).filter (fun q => q.die == d)
  let rest (q : QFrame) : QFrame := { q with rel := q.rel.filter (fun c => c.die != d) }
  let s := s.setFrames ((s.buf.frames.filter (fun q => q.die != d)).map rest)
  let s := (gone.flatMap (·.rel)).foldl (fun s c => if c.die = d then s else s.freeChain c) s
  let s := s.setBuf { s.buf with
    repl := s.buf.repl.filter (fun r => r.die != d),
    wait := (s.buf.wait.filter (fun w => w.die != d)).map (fun w => { w with q := rest w.q }),
    hanks := tabKeep s.buf.hanks (fun k => k / 2 ^ 24 != d && k / 2 ^ 24 != 8 + d),
    accts := tabKeep s.buf.accts (fun a => acctDie a != d), ueHanks := s.buf.ueHanks.filter (fun k => k / 2 ^ 24 != d) }
  s

/-- PORT, die (Table 18-2): every port, the pool, Tally slots, Ladder streams, token assembly. The bank copy is reloaded from
another die's (17 R475): the model holds the banks once. -/
def State.resetDie (s : State) (d : Nat) : State :=
  let s := ((s.endDieStreams d).resetDieTokens d).emptyPool d
  let ports := (List.range 16).map (fun i => 16 * d + i)
  let s := ports.foldl (fun s p => ((s.portLinks p).foldl State.resetLink s).resetTraffic p) s
  s.killGroups d

/-! ### Beginning a reset (17 R475, R476) -/

/-- A reset of one scope and unit takes in another. -/
def covers (scope unit sc u : Nat) : Bool :=
  (scope == sc && unit == u) || (scope == 4 && sc == 3 && u / 16 == unit) || (scope == 2 && sc == 5 && u / 256 == unit)

/-- Entry 0x0003 (R501): source and scope. -/
def State.logReset (s : State) (source scope : Nat) : State := s.logRaise 3 0 0 s.needle 0 (source + scope * 2 ^ 8)

/-- A reset absorbed by a wider one: it is logged, and a DEV_RESET for it ends with ST_ABORTED (R476, R519). -/
def State.absorbReset (s : State) (j : ResetJob) : State :=
  let s := s.logReset j.source j.scope
  match j.ticket with | some t => s.finish t .aborted [] | none => s

/-- Begin a reset. One narrower than WARM stays in `jobs`, begun, until RESET_END. -/
def State.beginReset (s : State) (j : ResetJob) : State :=
  match j.scope with
  | 0 => s.coldReset
  | 1 => s.warmReset j.source
  | _ =>
    let s := if s.needleRuns then s.logFlush else s
    if s.boot.jobs.any (fun x => x.begun && covers x.scope x.unit j.scope j.unit) then s.absorbReset j
    else
      let under (x : ResetJob) : Bool := x.begun && covers j.scope j.unit x.scope x.unit
      let inner := s.boot.jobs.filter under
      let jobs := s.boot.jobs.filter (fun x => !under x) ++ [{ j with begun := true, due := s.time.pip }]
      let s := inner.foldl State.absorbReset (s.setBoot { s.boot with jobs := jobs })
      match j.scope with
      | 2 => s.resetSkein j.unit
      | 3 => s.resetPort j.unit
      | 4 => s.resetDie j.unit
      | 5 => s.resetStitch j.unit
      | _ => s

/-- A reset of an error that is due and not begun (source codes 6 and 7). -/
def ResetJob.dueError (j : ResetJob) (pip : Nat) : Bool := !j.begun && (j.source == 6 || j.source == 7) && decide (j.due ≤ pip)

/-- Begin the resets that critical-state and fatal errors made due (R12, R475, R476): with one of WARM scope all others are
absorbed. -/
def State.settle (s : State) : State :=
  let due := s.boot.jobs.filter (fun j => j.dueError s.time.pip)
  if due.isEmpty then s
  else match due.find? (fun j => decide (j.scope ≤ 1)) with
  | some j => (s.setBoot { s.boot with jobs := s.boot.jobs.erase j }).beginReset j
  | none => due.foldl State.beginReset (s.setBoot { s.boot with jobs := s.boot.jobs.filter (fun j => !j.dueError s.time.pip) })

/-- An outcome after which the resets of errors begin. -/
def settled (r : Host.Outcome State Fault Refusal) : Host.Outcome State Fault Refusal :=
  match r with | .next s => .next s.settle | r => r

/-! ### Rows -/

/-- The ports of a reset. -/
def resetPorts (scope unit : Nat) : List Nat :=
  if scope = 3 then [unit] else if scope = 4 then (List.range 16).map (fun i => 16 * unit + i) else []

/-- DEV_RESET (R508, R519): COLD and WARM begin 100 µs after the done stamp; a narrower one completes at its end. In RECOVERY
and HALTED only COLD and WARM are accepted. -/
def execDevReset (o : Origin) (scope unit : Nat) (s : State) : Host.Outcome State Fault Refusal :=
  let lim := match scope with | 2 => 3 | 3 => 63 | 4 => 3 | 5 => 1023 | _ => 65535
  s.command o 0x0106 [scope, unit]
    ([badFld 0 (decide (scope > 5)), badFld 1 (decide (unit > lim)), s.ownChk o resDevice,
      ⟨decide (scope = 5) && s.absent unit, .unitAbsent, none⟩, ⟨decide (scope = 5) && s.isRetired unit, .retired, none⟩,
      ⟨decide (scope ≥ 2) && (decide (s.boot.phase = .recovery) || decide (s.boot.phase = .halted)), .busy, none⟩] ++
     (resetPorts scope unit).map (fun p => s.ownChk o (resPort p)))
    (fun t s =>
      let j : ResetJob := { scope := scope, unit := unit, source := 9, due := s.time.pip, ticket := some t }
      if scope ≤ 1 then
        (s.setBoot { s.boot with jobs := s.boot.jobs ++ [{ j with unit := 0, due := s.time.pip + 100000, ticket := none }] },
         .done .ok [])
      else (s.beginReset j, .later))

/-- DEV_RESET_BEGIN (R519). -/
def execDevResetBegin (s : State) : Host.Outcome State Fault Refusal :=
  match s.boot.jobs.find? (fun j => !j.begun && j.source == 9 && decide (j.scope ≤ 1) && decide (j.due ≤ s.time.pip)) with
  | none => .next s
  | some j => .next ((s.setBoot { s.boot with jobs := s.boot.jobs.erase j }).beginReset j)

/-- RESET_END (R501, R519): the unit is back in service; entry 0x0003 follows, a DEV_RESET completes, ARMED ports train. -/
def execResetEnd (scope unit : Nat) (s : State) : Host.Outcome State Fault Refusal :=
  match s.boot.jobs.find? (fun j => j.begun && j.scope == scope && j.unit == unit) with
  | none => .next s
  | some j =>
    let s := s.setBoot { s.boot with jobs := s.boot.jobs.erase j }
    let s := (s.logReset j.source scope).armLinks s.pins.laserEn (resetPorts scope unit)
    .next (match j.ticket with | some t => s.finish t .ok [] | none => s)

/-- WATCHDOG_EXPIRY (R510, R459): the standby takes over and every TAKEN command ends with ST_ABORTED; without one, or at a
second takeover within 2^30 pips, a WARM reset. -/
def execWatchdogExpiry (s : State) : Host.Outcome State Fault Refusal :=
  if !s.needleRuns then .next s
  else
    let again := match s.boot.lastTakeover with | some t => decide (s.time.pip < t + 2 ^ 30) | none => false
    if !s.boot.standbyReady || again then .next (s.warmReset 5)
    else
      let s := s.setBoot { s.boot with clusterB := !s.boot.clusterB, standbyReady := false, lastTakeover := some s.time.pip }
      let s := s.host.taken.foldl (fun s t => s.finish t.ticket .aborted []) s
      .next (((s.logReset 5 7).logRaise 0x1204 3 0 s.needle 0 (b2n s.boot.clusterB)).hostChanged)

/-- STANDBY_RESTART (R510): after a takeover the failed cluster becomes standby when it passes its self-check. -/
def execStandbyRestart (pass : Bool) (s : State) : Host.Outcome State Fault Refusal :=
  if s.needleRuns && s.boot.lastTakeover.isSome && !s.boot.standbyReady then .next (s.setBoot { s.boot with standbyReady := pass })
  else .next s

/-- POWER_ON_RESET (20 R543): a rail below its threshold for more than 2 µs. -/
def execPowerOnReset (rail lowNs : Nat) (s : State) : Host.Outcome State Fault Refusal :=
  if rail < 23 ∧ lowNs > 2000 then .next s.coldReset else .next s

/-- RESET_N (R498; 20 R539, R542): low for at least 10 µs; cast-on starts when it rises. -/
def execResetN (lowNs : Nat) (s : State) : Host.Outcome State Fault Refusal :=
  if lowNs ≥ 10000 then .next s.coldReset else .next s

/-- THERMAL_TRIP (R503; 20 R556): a valid sensor reads 105 °C or more. Clocks stop, lasers go off, THERMTRIP_N is low; the entry
is written and the device waits in phase RESET. -/
def execThermalTrip (sensor reading : Nat) (s : State) : Host.Outcome State Fault Refusal :=
  if decide (sensor ≥ 352) || s.pwr.badSensors.contains sensor || decide (toInt 16 reading < 6720) || s.boot.tripped.isSome then .next s
  else
    let s := if s.needleRuns then s.logFlush.logNow 0x1207 4 0 s.needle 0 (sensor + reading % 2 ^ 16 * 2 ^ 16) else s
    let s := s.warmReset 8
    let s := s.setBoot { s.boot with phase := .reset, tripped := some (sensor, reading) }
    .next ((s.setPins { s.pins with thermtripN := false }).sbAlert 2)

/-- THERMAL_TRIP_RELEASE (R503): every valid sensor has read below 95 °C for 1 s. -/
def execThermalTripRelease (s : State) : Host.Outcome State Fault Refusal :=
  match s.boot.tripped, s.boot.coolSince with
  | some _, some t =>
    if t + 1000000000 ≤ s.time.pip then
      let s := s.setBoot { s.boot with phase := .strap, phaseSince := s.time.pip, tripped := none, coolSince := none }
      .next (s.setPins { s.pins with thermtripN := true })
    else .next s
  | _, _ => .next s

/-- EXTEST_EXIT (R518): EXTEST operates from level SCAN on; leaving it resets WARM. Table 18-1 gives this reset no source code:
a free value (DESIGN CHOICE: entry EXTSRC). -/
def execExtestExit (s : State) : Host.Outcome State Fault Refusal :=
  if s.sec.debugLevel = 0 then .next s
  else
    let r := s.fresh
    .next (r.2.warmReset (r.1 % 256))

end Sys2Proof.Machine
end

