-- ==== Sys2Proof/Machine/Security.lean ====
section
/-! DEFINITION. Identity, firmware slots, attestation, the fuse ledger and debug (18 R511 to R519). -/

namespace Sys2Proof.Machine

open Sys2Proof

/-! ### Firmware slots (Table 18-6, R511, R512) -/

/-- Bytes of a slot and of the certificate region. -/
def slotBytes : Nat := 0x1800000
def certBytes : Nat := 0x100000

/-- A byte of the boot flash; `flash` keeps it inverted, so that an erased byte, 0xFF, is not listed (PRESUMED: entry FLASH). -/
def State.flashByte (s : State) (a : Nat) : Byte := memGet s.sec.flash a ^^^ 0xFF#8

/-- Bytes of a firmware slot. -/
def State.slotRead (s : State) (slot off n : Nat) : List Byte := (List.range n).map (fun i => s.flashByte (slot * slotBytes + off + i))

/-- Write bytes of a slot. -/
def State.slotWrite (s : State) (slot off : Nat) (data : List Byte) : State :=
  s.setSec { s.sec with flash := memPutAll s.sec.flash (slot * slotBytes + off) (data.map (· ^^^ 0xFF#8)) }

/-- Erase a slot. -/
def State.slotErase (s : State) (slot : Nat) : State :=
  s.setSec { s.sec with flash := s.sec.flash.filter (fun c => c.1 / slotBytes != slot) }

/-- A 384-bit digest as its 48 bytes. -/
def digestBytes (d : BitVec 384) : List Byte := beBytes 48 d.toNat

/-- The first condition of R511, from 1, that a slot fails: 1 magic, format and reserved fields, 2 major version 3, 3 the key's
digest, 4 the signature, 5 the body's digest, 6 the security version. -/
def State.imageFault (s : State) (slot : Nat) : Option Nat :=
  let h := s.slotRead slot 0 512
  let zero (off n : Nat) : Bool := ((h.drop off).take n).all (· == 0)
  let key := (h.drop 64).take 97
  let len := fieldAt h 12 4
  if fieldAt h 0 4 != 0x57534C4F || fieldAt h 4 1 != 1 || !zero 6 2 || !zero 161 95 || !zero 352 160 then some 1
  else if fieldAt h 8 4 / 2 ^ 24 ≠ 3 then some 2
  else if Config.sha384 key ≠ Config.fwKeyDigest then some 3
  else if !Config.verify key ((h.drop 256).take 96) (h.take 256) then some 4
  else if len % 64 ≠ 0 ∨ len > 25165312 ∨ digestBytes (Config.sha384 (s.slotRead slot 512 len)) ≠ (h.drop 16).take 48 then some 5
  else if fieldAt h 5 1 < s.sec.rollback then some 6
  else none

/-- FW_SLOT_WRITE (R512): erase, write or verify a slot; never the running one but to verify it. -/
def execFwSlotWrite (o : Origin) (slot op off len : Nat) (data : List Byte) (s : State) : Host.Outcome State Fault Refusal :=
  if data.length ≠ len then .next s
  else s.command o 0x0104 [slot, op, off, len, leNat data]
    [badFld 0 (decide (slot > 1)), badFld 1 (decide (op > 2)),
     badFld 2 (decide (off % 64 ≠ 0) || (op == 1 && decide (off + len > slotBytes))), badFld 3 (decide (len > 1920)),
     ⟨op != 2 && s.boot.runSlot == some slot, .denied, none⟩]
    (fun _ s => match op with
      | 0 => (s.slotErase slot, .done .ok [])
      | 1 => (s.slotWrite slot off data, .done .ok [uf 4 len])
      | _ => (s, .done .ok [uf 1 ((s.imageFault slot).getD 0)]))

/-- FW_SLOT_SELECT (R511): the override of the next cast-on. -/
def execFwSlotSelect (o : Origin) (slot : Nat) (s : State) : Host.Outcome State Fault Refusal :=
  s.update o 0x0105 [slot] [badFld 0 (decide (slot > 1)), ⟨(s.imageFault slot).isSome, .badDesc, some 0⟩]
    (fun s => s.setBoot { s.boot with override := some slot }) (fun _ => [])

/-! ### Identity and attestation (R513 to R515) -/

/-- A key slot is revoked. -/
def State.revokedKey (s : State) (k : Nat) : Bool := s.sec.revoked.any (fun r => r.key == k && !r.torn)

/-- The active attestation key slot: the lowest not revoked. -/
def State.activeKey (s : State) : Option Nat := (List.range 4).find? (fun k => !s.revokedKey k)

/-- A bitmap of Stitches. -/
def stitchMap (p : Nat → Bool) : Nat := ((List.range 1024).filter p).foldl (fun a i => a + 2 ^ i) 0

/-- DEV_IDENTITY (R2, R30, R519, R521): identity, or bytes of the certificate region. A missing slot reads 0xFF. -/
def execDevIdentity (o : Origin) (part off : Nat) (s : State) : Host.Outcome State Fault Refusal :=
  s.query o 0x0101 [part, off]
    [badFld 0 (decide (part > 1)), badFld 1 (decide (part = 1) && decide (off ≥ certBytes))]
    (fun s =>
      if part = 0 then
        let k := s.activeKey
        [uf 4 s.devIdent, uf 8 Config.serial.toNat, uf 1 Config.arithRev, bf 128 s.sec.disabled.toNat, uf 8 s.unitMapDigest,
         bf 128 (stitchMap s.fusedRetired), bf 128 (stitchMap (fun i => s.integ.retired.contains i)),
         uf 1 (s.boot.runSlot.getD 0xFF), uf 4 s.boot.fwVersion, uf 1 s.boot.runSv, uf 1 (k.getD 0xFF),
         bf 97 (match k with | some k => leNat (padTo 97 (Config.publicKey k)) | none => 0), uf 1 s.sec.debugLevel,
         uf 1 s.boot.rstcfg, uf 1 (b2n s.boot.strapFault)]
      else
        let n := min 1920 (certBytes - off)
        [bf n (leNat ((List.range n).map (fun i => Config.certByte (off + i))))])

/-- Bytes 0 to 127 of a quote (Table 18-7). -/
def State.quoteBody (s : State) (key : Nat) (nonce : BitVec 256) : List Byte :=
  leBytes 1 1 ++ leBytes 1 key ++ leBytes 1 s.sec.debugLevel ++ leBytes 1 s.time.state.code ++ leBytes 4 s.boot.fwVersion ++
  leBytes 1 s.boot.runSv ++ leBytes 1 s.sec.rollback ++ leBytes 2 0 ++ leBytes 4 s.sec.measCount ++ leBytes 8 Config.serial.toNat ++
  leBytes 8 s.time.pip ++ leBytes 32 nonce.toNat ++ digestBytes s.sec.measDigest ++ leBytes 8 s.profileDigest ++
  leBytes 8 s.unitMapDigest

/-- DEV_ATTEST_QUOTE (R515). -/
def execDevAttestQuote (o : Origin) (nonce : BitVec 256) (s : State) : Host.Outcome State Fault Refusal :=
  s.query o 0x0102 [nonce.toNat] [⟨s.activeKey.isNone, .denied, none⟩] (fun s =>
    let k := s.activeKey.getD 0
    let b := s.quoteBody k nonce
    [bf 224 (leNat (b ++ beBytes 96 (Config.sign k b).toNat))])

/-- DEV_MEASURE_LOG (R514, R519): entries by index, from 1, and how many were counted but not stored. -/
def execDevMeasureLog (o : Origin) (first count : Nat) (s : State) : Host.Outcome State Fault Refusal :=
  s.query o 0x0103 [first, count]
    [badFld 0 (!inRange 1 s.sec.meas.length first), badFld 1 (!inRange 1 26 count)]
    (fun s => listFlds (((s.sec.meas.drop (first - 1)).take count).map (fun e => [bf 72 e.toNat])) ++
      [uf 4 (s.sec.measCount - s.sec.meas.length)])

/-! ### The fuse ledger (R516) -/

/-- The paired ledger copy is checked at each FUSE command and each read (17 Table 17-1): an unpaired one is a critical-state
error of WARM scope. -/
def State.ledgerTorn (s : State) : Bool := s.torn rowFuse 0 0

/-- A FUSE row: the check of the ledger copy, then the command. -/
def State.fuseRow (s : State) (r : Host.Outcome State Fault Refusal) : Host.Outcome State Fault Refusal :=
  if s.ledgerTorn then .next (s.critical rowFuse 0 0 1 0 s.needle).settle else r

/-- FUSE_LEDGER_READ (R519). -/
def execFuseLedgerRead (o : Origin) (s : State) : Host.Outcome State Fault Refusal :=
  s.fuseRow (s.query o 0x0D01 [] [] (fun s =>
    let torn := s.sec.rollbackTorn + ((s.sec.spares ++ s.sec.fusedRetired ++ s.sec.revoked).filter (·.torn)).length
    uf 1 s.sec.rollback :: (List.range 64).flatMap (fun p => [uf 1 (s.spareRecs p), uf 1 (s.fusePos p 0), uf 1 (s.fusePos p 1)]) ++
    (List.range 4).flatMap (fun k => listFlds ((s.sec.fusedRetired.filter (fun r => r.key / 256 == k && !r.torn)).map
      (fun r => [uf 1 (r.key % 256)]))) ++
    [uf 1 (((List.range 4).filter s.revokedKey).foldl (fun a k => a + 2 ^ k) 0), uf 2 torn]))

/-- FUSE_ROLLBACK_ADVANCE (R516): one increment for each step of the counter, logged each. -/
def execFuseRollbackAdvance (o : Origin) (target : Nat) (s : State) : Host.Outcome State Fault Refusal :=
  let n := target - s.sec.rollback
  s.fuseRow (s.update o 0x0D02 [target]
    [badFld 0 (decide (target > 96)), ⟨decide (target ≤ s.sec.rollback) || decide (target > s.boot.runSv), .badDesc, some 0⟩,
     ⟨decide (s.sec.rollback + s.sec.rollbackTorn + n > 96), .fuseExhausted, none⟩, ⟨s.fuseBusy, .busy, none⟩]
    (fun s => (List.replicate n 0).foldl (fun s _ => s.logFuse 0 0) (s.setSec { s.sec with rollback := target }))
    (fun s => [uf 1 s.sec.rollback]))

/-- FUSE_STITCH_RETIRE (R516; 10 R324): the Stitch is retired at the completion stamp. -/
def execFuseStitchRetire (o : Origin) (skein index : Nat) (s : State) : Host.Outcome State Fault Refusal :=
  let st := 256 * skein + index
  s.fuseRow (s.update o 0x0D03 [skein, index]
    [badFld 0 (decide (skein > 3)), badFld 1 (decide (index > 255)), ⟨s.absent st, .unitAbsent, none⟩,
     ⟨s.fusedRetired st, .badDesc, some 0⟩, ⟨decide (s.retireRecs skein ≥ 8), .fuseExhausted, none⟩, ⟨s.fuseBusy, .busy, none⟩]
    (fun s => ((((s.fuseRetire st).endSlots st .retired).lostWitness st).dropTarget 0 st).profileChanged)
    (fun s => [uf 1 (8 - s.retireRecs skein)]))

/-- FUSE_KEY_REVOKE (R513, R516). -/
def execFuseKeyRevoke (o : Origin) (slot : Nat) (s : State) : Host.Outcome State Fault Refusal :=
  s.fuseRow (s.update o 0x0D04 [slot]
    [badFld 0 (decide (slot > 3)), ⟨s.sec.revoked.any (fun r => r.key == slot), .fuseExhausted, none⟩, ⟨s.fuseBusy, .busy, none⟩]
    (fun s => (s.setSec { s.sec with revoked := s.sec.revoked ++ [{ key := slot, val := 1 }] }).logFuse 3 slot)
    (fun s => [uf 1 (s.activeKey.getD 0xFF)]))

/-! ### Debug (R518) -/

/-- DEBUG_CHALLENGE: a fresh nonce; it replaces an earlier one. -/
def execDebugChallenge (o : Origin) (level : Nat) (s : State) : Host.Outcome State Fault Refusal :=
  s.update o 0x0107 [level] [badFld 0 (!inRange 1 2 level)]
    (fun s => (s.setSec { s.sec with nonce := some { val := Config.nonce s.free, stamp := s.time.pip, host := Origin.hostD o } }).setFree
      (s.free + 1))
    (fun s => [bf 32 ((s.sec.nonce.map (fun n => n.val.toNat)).getD 0)])

/-- Whether a nonce, key and signature unlock a level (R518). -/
def State.unlocks (s : State) (o : Origin) (level : Nat) (key sig : List Byte) : Bool :=
  match s.sec.nonce with
  | none => false
  | some n =>
    decide (Config.sha384 key = Config.dbgKeyDigest) && n.host == Origin.hostD o && decide (s.time.pip ≤ n.stamp + 2 ^ 30) &&
    Config.verify key sig (leBytes 32 n.val.toNat ++ leBytes 8 Config.serial.toNat ++ leBytes 1 level)

/-- A changed debug level is logged (0x1205). -/
def State.setDebug (s : State) (o : Origin) (level : Nat) : State :=
  if s.sec.debugLevel = level then s
  else (s.setSec { s.sec with debugLevel := level }).logRaise 0x1205 0 0 s.needle 0 (level + (Origin.hostD o).num * 2 ^ 8)

/-- DEBUG_UNLOCK (R518): level 0 locks; another level needs a signed nonce, used once. Unlocks are measured (R514). -/
def execDebugUnlock (o : Origin) (level : Nat) (key sig : List Byte) (s : State) : Host.Outcome State Fault Refusal :=
  if key.length ≠ 97 ∨ sig.length ≠ 96 then .next s
  else s.update o 0x0108 [level, leNat key, leNat sig]
    [badFld 0 (decide (level > 2)), ⟨decide (level ≠ 0) && !s.unlocks o level key sig, .denied, none⟩]
    (fun s =>
      if level = 0 then s.setDebug o 0
      else ((s.setSec { s.sec with nonce := none }).setDebug o level).measure 3 level (Config.sha384 key))
    (fun s => [uf 1 s.sec.debugLevel])

/-! ### Pins and the JTAG port (R506, R517; 20 R538) -/

/-- The state of a pin that its fuse entry or a unit gives it (R506). -/
inductive PinDrive | highZ | pullDown | pullUp | low | high
  deriving DecidableEq, Repr

/-- The state of a code of the fuse map; 5 to 7 are treated as 0. -/
def pinCode : Nat → PinDrive | 1 => .pullDown | 2 => .pullUp | 3 => .low | 4 => .high | _ => .highZ

/-- The phase in which a pin's unit configures it (Table 18-4). -/
def Pin.phase : Pin → Option Phase
  | .devReady => some .ready
  | .laserEnN _ => some .lasers
  | .spiClk | .spiCsN | .spiIo _ | .smbClk | .smbDat | .smbAlertN => some .rom
  | .avsClk | .avsMdata => some .rails
  | _ => none

/-- A pin's unit has configured it: its phase has come, or a later one. -/
def State.pinConfigured (s : State) (p : Pin) : Bool :=
  match p.phase with | some f => decide (f.code ≤ s.boot.phase.code) | none => false

/-- The fuse entry of a pin. -/
def State.pinEntry (s : State) (p : Pin) : Nat := ((s.sec.pinMap.find? (fun e => decide (e.1 = p))).map (·.2)).getD 0

/-- What stands on a pin: by its fuse entry in reset and until its unit configures it, then what the unit drives, `none` for a bus that
its protocol drives. THERMTRIP_N and SMB_ALERT_N are open drain (Table 18-4; R503; 20 R551, R556). -/
def State.pinDrive (s : State) (p : Pin) : Option PinDrive :=
  if p = .thermtripN then some (if s.pins.thermtripN then .highZ else .low)
  else if s.pinConfigured p then match p with
    | .devReady => some (if s.pins.devReady then .high else .low)
    | .laserEnN m => some (if s.pins.laserEn.getLsbD m then .high else .low)
    | .smbAlertN => some (if s.pins.smbAlertN then .highZ else .low)
    | _ => none
  else if s.boot.phase = .reset then some (pinCode (bits (s.pinEntry p) 0 3))
  else some (pinCode (bits (s.pinEntry p) 3 3))

/-- The IDCODE that the JTAG port reads (R517): stepping, the Device ID of DEV_IDENT, 0x3D5, 1. -/
def State.idcode (s : State) : BitVec 32 :=
  BitVec.ofNat 32 (Config.stepping * 2 ^ 28 + bits s.devIdent 16 16 * 2 ^ 12 + 0x3D5 * 2 + 1)

end Sys2Proof.Machine
end

