-- ==== Sys2Proof/Machine/CastOn.lean ====
section
/-! DEFINITION. Cast-on, phase by phase (18 R504 to R511, Table 18-5; 20 R555, R556), and lasers in service. -/

namespace Sys2Proof.Machine

open Sys2Proof

/-- Enter a phase. -/
def State.toPhase (s : State) (p : Phase) : State := s.setBoot { s.boot with phase := p, phaseSince := s.time.pip }

/-- Cast-on stops (Table 18-5, 0x1201): the entry names the phase and the cause; SB_ALERT bit 3 is set. -/
def State.halt (s : State) (cause : Nat) : State :=
  ((s.logRaise 0x1201 4 0 s.needle 0 (s.boot.phase.code + cause * 2 ^ 8)).toPhase .halted).sbAlert 3

/-- A row of one phase. -/
def State.inPhase (s : State) (p : Phase) (r : State) : Host.Outcome State Fault Refusal := if s.boot.phase = p then .next r else .next s

/-- CAST_ON_STRAP (R504, R505): four sample codes, 16 or more for one out of range. A fault gives code 0. -/
def execCastOnStrap (samples : List Nat) (s : State) : Host.Outcome State Fault Refusal :=
  let c := samples.headD 16
  let bad := decide (samples.length ≠ 4) || samples.any (fun x => x != c || decide (x ≥ 16))
  let code := if bad then 0 else c
  let s' := s.setBoot { s.boot with rstcfg := code, strapFault := bad, samples := samples }
  let s' := s'.setHost { s'.host with primary := if bit code 0 then .h1 else .h0 }
  s.inPhase .strap (s'.toPhase (if s.boot.coldRun then .fuses else .rom))

/-- CAST_ON_FUSES (R2, Table 18-5): a bad CRC leaves the device in this phase. -/
def execCastOnFuses (crcOk : Bool) (s : State) : Host.Outcome State Fault Refusal :=
  s.inPhase .fuses (if crcOk then s.toPhase .rom else s)

/-- Mailboxes POSTED or TAKEN at a WARM reset end with ST_ABORTED (R502). -/
def State.abortMailboxes (s : State) : State :=
  let s := s.host.order.foldl (fun s p => (s.accept p).2) s
  s.host.taken.foldl (fun s t => s.finish t.ticket .aborted []) s

/-- Entries of phase ROM: 0x0003 of the WARM reset and of what it absorbed, then a strap fault (R501, R505). -/
def State.romEntries (s : State) : State :=
  let s := s.boot.pendingEntries.foldl (fun s e => s.logNow 3 0 0 s.needle 0 (e.1 + e.2 * 2 ^ 8)) s
  let s := s.setBoot { s.boot with pendingEntries := [] }
  let d := (s.boot.samples.zipIdx.map (fun p => min p.1 255 * 2 ^ (8 * p.2))).sum
  if s.boot.strapFault then s.logNow 0x1203 0 0 s.needle 0 (d % 2 ^ 32) else s

/-- CAST_ON_ROM (R40, R501, R502, R509): the active cluster is chosen; after a WARM reset waiting and TAKEN mailboxes are completed. -/
def execCastOnRom (aPass bPass : Bool) (s : State) : Host.Outcome State Fault Refusal :=
  let preferB := !s.boot.coldRun && s.boot.clusterB
  let b := if preferB then bPass || !aPass else !aPass
  let s' := s.setBoot { s.boot with clusterB := b, standbyReady := aPass && bPass }
  let s' := (s'.toPhase .verify).romEntries
  let s' := (if s.boot.coldRun then s' else s'.abortMailboxes).watchPrimary
  s.inPhase .rom (if aPass || bPass then s' else s.halt 1)

/-- The running image (R511, R514): VERIFY measures it as entry 1 by its body digest. -/
def State.runImage (s : State) (slot : Nat) : State :=
  let h := s.slotRead slot 0 512
  (s.setBoot { s.boot with runSlot := some slot, runSv := fieldAt h 5 1, fwVersion := fieldAt h 8 4 }).measure 1 slot
    (BitVec.ofNat 384 (beNat ((h.drop 16).take 48)))

/-- A slot that fails (0x1202). -/
def State.logSlot (s : State) (slot cond : Nat) : State := s.logRaise 0x1202 3 0 s.needle 0 (slot + cond * 16)

/-- CAST_ON_VERIFY (R511): the preferred slot, then the other; RECOVERY when neither verifies. The override is used up. -/
def execCastOnVerify (s : State) : Host.Outcome State Fault Refusal :=
  let first := s.boot.override.getD (bits s.boot.rstcfg 1 1)
  let t := s.setBoot { s.boot with override := none }
  s.inPhase .verify (match t.imageFault first with
    | none => (t.runImage first).toPhase .dram
    | some c =>
      let t := t.logSlot first c
      match t.imageFault (1 - first) with
      | none => (t.runImage (1 - first)).toPhase .dram
      | some c => ((t.logSlot (1 - first) c).toPhase .recovery).sbAlert 3)

/-- CAST_ON_DRAM and CAST_ON_BRIDGES (Table 18-5). -/
def execCastOnDram (ok : Bool) (s : State) : Host.Outcome State Fault Refusal :=
  s.inPhase .dram (if ok then s.toPhase .bridges else s.halt 1)
def execCastOnBridges (ok : Bool) (s : State) : Host.Outcome State Fault Refusal :=
  s.inPhase .bridges (if ok then s.toPhase .skeins else s.halt 1)

/-- CAST_ON_SKEINS (Table 18-5; 17 R485; 20 R556): LASERS begins with every LASER_EN_N low; clocks go to the maximum less the derate steps; Stitches, scratchpads and tables are
clear; a Stitch that fails its self-test is retired without fusing. -/
def execCastOnSkeins (failing : List Nat) (s : State) : Host.Outcome State Fault Refusal :=
  let s' := (List.range 8).foldl (fun (s : State) x =>
    let d := s.dom x
    let f := max 950 (s.maxClock - 50 * d.derate)
    s.setDom x { d with clock := f, mv := Config.railMv f }) s
  let s' := ((s'.setTiles []).setDescs []).setLayers []
  let s' := (s'.setMem (s'.mem.filter (fun c => decide (c.1 < 2 ^ 62)))).setUeWords (s'.ueWords.filter (fun w => decide (w * 8 < 2 ^ 62)))
  let s' := (failing.filter (fun st => !s.absent st && !s.isRetired st)).eraseDups.foldl (fun s st => s.retireStitch st false) s'
  s.inPhase .skeins ((s'.setPins { s'.pins with laserEn := 0 }).toPhase .lasers)

/-- Log a dark laser fibre (R507; 03 R110): a lost spare on each of its 8 ports, or another position by its engine (the spec
gives no code: 0x0302 with event 3, entry DARKFIBRE). -/
def State.logDark (s : State) (x : Nat) : State :=
  if x % 5 = 4 then (List.range 8).foldl (fun s i => s.logLane (2 * (8 * (x / 5) + i)) 2 0 4) s
  else s.logRaise 0x0302 1 0 (srcOf 9 (x / 10)) 0 (3 + x % 5 % 4 * 4 + x % 5 * 16)

/-- Record which fibres of modules are dark, and log those newly so. -/
def State.setDark (s : State) (mods : List Nat) (lit : Nat → Bool) : State :=
  let dark := ((mods.flatMap (fun m => (List.range 5).map (5 * m + ·))).filter (fun x => !lit x))
  let old := s.boot.darkFibres
  let s := s.setBoot { s.boot with darkFibres := old.filter (fun x => !mods.contains (x / 5)) ++ dark }
  (dark.filter (fun x => !old.contains x)).foldl State.logDark s

/-- CAST_ON_LASERS (20 R555, R556): all 40 fibres are measured; modules whose 8 ports are all DARK go off again. -/
def execCastOnLasers (lit : List Bool) (s : State) : Host.Outcome State Fault Refusal :=
  let s' := s.setDark (List.range 8) (fun x => lit.getD x false)
  s.inPhase .lasers ((s'.setPins { s'.pins with laserEn := s'.laserPins }).toPhase .links)

/-- CAST_ON_LINKS (03 R74, R76): ARMED ports begin training. -/
def execCastOnLinks (s : State) : Host.Outcome State Fault Refusal :=
  s.inPhase .links ((s.armLinks s.pins.laserEn (List.range 64)).toPhase .profile)

/-- CAST_ON_PROFILE (Table 18-5; 19 R520, R521): the wait ends when every ARMED port is UP, NARROW or FAILED, or after 300 ms. -/
def execCastOnProfile (s : State) : Host.Outcome State Fault Refusal :=
  let settledLink (lk : Nat) : Bool :=
    s.setting idAdmin (lk / 2) != 1 || (s.link lk).carries || decide ((s.link lk).state = .failed)
  if s.boot.phase = .profile ∧ (s.linkNums.all settledLink = true ∨ s.boot.phaseSince + 300 * ms ≤ s.time.pip) then
    .next (s.setBoot { s.boot with profileDone := true })
  else .next s

/-- CAST_ON_READY (Table 18-5): DEV_READY is high. -/
def execCastOnReady (s : State) : Host.Outcome State Fault Refusal :=
  if s.boot.phase = .profile ∧ s.boot.profileDone = true then
    .next ((s.toPhase .ready).setPins { s.pins with devReady := true })
  else .next s

/-- LASER_READY (20 R556): the ports of a module that was off, armed since, begin SIGNAL once all five fibres are lit, or 50 ms
after they were armed; `lit` are the readings of its five fibres. -/
def execLaserReady (mod : Nat) (lit : List Bool) (s : State) : Host.Outcome State Fault Refusal :=
  let all := (List.range 5).all (fun i => lit.getD i false)
  let waits (lk : Nat) : Bool :=
    let l := s.link lk
    lk / 16 == mod && s.setting idAdmin (lk / 2) == 1 && decide (l.state = .dark) && l.offSince.isNone &&
    (all || decide (l.since + 50 * ms ≤ s.time.pip))
  let go := s.linkNums.filter waits
  if s.boot.phase = .ready ∧ s.pins.laserEn.getLsbD mod = false ∧ go ≠ [] then
    .next (go.foldl State.startTraining (s.setDark [mod] (fun x => lit.getD (x % 5) false)))
  else .next s

/-- The refreshes of a channel that an interval of 64 µs can still meet together with one that begins now. -/
def State.recentRefreshes (s : State) (channel : Nat) : List Nat :=
  (tabGet s.integ.refreshes [] channel).filter (fun b => decide (s.time.pip < b + 64000 + 350))

/-- DRAM_REFRESH (06 R194; 09 R282): refresh takes a channel for 350 ns. A hold in progress is not made longer, and at most
seven holds, 2,450 ns, meet any 64 µs: under 4% of them. -/
def execDramRefresh (channel : Nat) (s : State) : Host.Outcome State Fault Refusal :=
  if channel < 256 && !s.refreshing channel && decide ((s.recentRefreshes channel).length < 7) then
    .next (s.setInteg { s.integ with refresh := tabPut s.integ.refresh channel (s.time.pip + 350),
                                     refreshes := tabPut s.integ.refreshes channel (s.recentRefreshes channel ++ [s.time.pip]) })
  else .next s

end Sys2Proof.Machine
end

