-- ==== Sys2Proof/Machine/Receive.lean ====
section
/-! DEFINITION. FRAME_RECEIVE: what a receiver does with a frame (03 R82 to R86, R97 to R99; 04 R119 to R131, R147, R562; 05 R151 to
R165; 06 R177 to R181; 08 R226). -/

namespace Sys2Proof.Machine

open Sys2Proof

/-- Write a frame received on a link into its port die's buffer (R119, R131). -/
def State.enqueuePort (s : State) (lk : Nat) (nakWindow : Bool) (q : QFrame) (job : Option ReplJob) : State :=
  (s.enqueue { q with store := s.portStore lk nakWindow q.dest q.f.vc }).postJob job

/-- A frame as this side takes it: one from an endpoint carries no epoch (R82). -/
def State.arrived (s : State) (lk : Nat) (f : Frame) : Frame :=
  if (s.link lk).peerRole = 0 then { f with epoch := 0, epochSet := false } else f

/-- An endpoint's frame whose src_fid is not the endpoint's (R83). -/
def State.wrongSource (s : State) (lk : Nat) (f : Frame) : Bool :=
  decide ((s.link lk).peerRole = 0) && decide (f.src ≠ (s.link lk).peerFid)

/-- A collective frame that is not addressed to this device is never routed (08 R226). -/
def State.strayColl (s : State) (f : Frame) : Bool := (f.ty == 4 || f.ty == 5) && !s.forSelf f

/-- A frame of VC7 that is red after its meter is discarded at its header (06 R181). One that R82, R83 or R84 discards too is counted under
those only (DESIGN CHOICE: entry METER3). -/
def State.redDrop (s : State) (lk : Nat) (f : Frame) : Bool :=
  typeAllowed (s.arrived lk f) && f.hops != 15 && f.ty != 10 && !s.wrongSource lk f && f.vc == 7 && f.colour == 2

/-- A frame that goes on to its egress with one hop more (R82; 05 R162). -/
def State.onward (s : State) (lk : Nat) (f : Frame) : QFrame :=
  let g := s.stamp f
  { die := linkDie lk, ing := lk, dest := .needle, f := { g with hops := g.hops + 1 }, stamp := s.pipOn (linkDie lk),
    acct := portAcct (s.phOf lk) f.vc, hanks := [] }

/-- What becomes of the content of an accepted frame (R82 to R84; 05 R151 to R165; 06 R179 to R181; 08 R226). -/
def State.acceptContent (s : State) (lk : Nat) (nakWindow : Bool) (f0 : Frame) : State :=
  let l := s.link lk
  let die := linkDie lk
  let f := s.arrived lk f0
  if !typeAllowed f then s.bump .port lk pcR84
  else if f.hops = 15 then ((s.bump .port lk pcR82).bump .route die (8 * lk + 4)).logDiscard lk 0 f
  else if f.ty = 10 then s.setLink lk { l with profPend := l.profPend ++ [(s.pipOn die, f.cells)] }
  else if s.wrongSource lk f then (s.bump .port lk pcR83).logDiscard lk 1 f
  else if s.redDrop lk f0 then s
  else if s.strayColl f then s.noteForeign die f
  else
    let g := s.stamp f
    let q := s.onward lk f
    let s := s.countStamp die f g
    if s.forSelf g then s.enqueuePort lk nakWindow { q with f := g, dest := s.localDest die g } none
    else s.place q (s.routeAt die lk g) (fun s q job => s.enqueuePort lk nakWindow q job)

/-- Whether an egress could have begun a frame before its trailer came: cut-through, nothing else to send, and every condition of a
start (R92, R123, R125; 06 R183, R187, R193). -/
def State.couldBegin (s : State) (e : Nat) (q : QFrame) (nakWindow : Bool) : Bool :=
  s.portStore q.ing nakWindow q.dest q.f.vc == 0 && s.maySend e && (s.link e).resendFrom.isNone && (s.winner e).isNone &&
  s.roomFor e q.f.vc q.f.n && s.shaperOk e q.f.vc && (q.f.vc == 0 || !s.vcBlocked e) && !s.frozenOn q.bridges

/-- A frame that is not accepted may have left in part by cut-through: that copy ends with stomp = 1 (R86; 04 R147). Whether its
egress had begun it is a free value (DEDUCED: entry FRAMESTEP). -/
def State.stompCopy (s : State) (lk : Nat) (nakWindow : Bool) (f0 : Frame) : State :=
  let f := s.arrived lk f0
  let q := s.onward lk f
  if !typeAllowed f || f.hops == 15 || f.ty == 10 || s.wrongSource lk f || s.redDrop lk f0 || s.strayColl f ||
      s.forSelf (s.stamp f) then s
  else
    let out : Option (Nat × Nat) := match s.routeAt (linkDie lk) lk (s.stamp f) with
      | .to e h _ _ => some (e, h) | .many (.link e :: _) h => some (e, h) | _ => none
    match out with
    | none => s
    | some (e, h) =>
      let q := { q with dest := .link e, path := s.pathFor q.die e q.f h }
      if !s.couldBegin e q nakWindow then s
      else
        let x := s.fresh
        if x.1 % 2 = 0 then x.2
        else
          let g := x.2.markEcnAt e q.f (x.2.depth e q.f.vc + hanksFor q.f.n)
          let s := ((x.2.tagHead e q.f.vc q.f.n (decide (x.2.depth e q.f.vc = 0))).flush e).chargeStart e g q.f.ecn
          (s.bump .port e pcStompSent).transmit e g true

/-- A frame accepted under R97 rule 1: its credits are consumed unless it came beyond them (R562), a stomped
one is dropped, and the account advertises again (R131). -/
def State.acceptFrame (s : State) (lk : Nat) (f : Frame) (stomp past : Bool) : State :=
  let l := s.link lk
  let window := l.nakOut
  let s := (s.bump .port lk pcAccepted).setLink lk
    { l with expected := (l.expected + 1) % 2 ^ 24, nakOut := false, ackDue := true }
  if past then s
  else
    let a := portAcct (s.phOf lk) f.vc
    let x := s.acct a
    let s := s.setAcct a { x with o := x.o - (f.n + 1) }
    let s := if stomp then (s.bump .port lk pcStompRecv).stompCopy lk window f else s.acceptContent lk window f
    s.advertise a

/-- FRAME_RECEIVE (R97 and what it leads to): the frame's header, cells and trailer have crossed the ingress MAC. One sent beyond the
credits advertised is counted and logged whatever its trailer says, and never stored (R562); the spec does not say whether it is metered,
and the model meters none (DESIGN CHOICE: entry METER3). -/
def rowFrameReceive (lk : Nat) (hdr : BitVec 128) (cells : List Byte) (trl : BitVec 64) (s : State) :
    Host.Outcome State Fault Refusal :=
  let l := s.link lk
  if !l.live || !l.delin then .next s
  else match s.linkTorn lk with
  | some row => .next (s.linkCritical lk row)
  | none =>
    if !headerGood hdr then .next (s.loseDelin lk)
    else
      let f := Frame.ofHeader hdr cells
      let lsn := bits trl.toNat 32 24
      let past := decide (f.n + 1 > (s.acct (portAcct (s.phOf lk) f.vc)).o)
      let m := if past then ((s.bump .port lk pcR562).logDiscard lk 4 f, f) else s.meterFrame lk f
      let s := if !past && m.1.redDrop lk m.2 then m.1.bump .meter (meterKey lk 7) 8 else m.1
      let lost := if past then s else s.stompCopy lk l.nakOut m.2
      if !trailerGood hdr cells trl then .next ((lost.bump .port lk pcCrcFail).nak lk 0)
      else
        let d := lsnDiff lsn l.expected
        if d < 0 then .next lost
        else if d > 0 then .next (lost.nak lk 1)
        else .next (s.acceptFrame lk m.2 (bit trl.toNat 63) past)

end Sys2Proof.Machine
end

