-- ==== Sys2Proof/Machine/Sideband.lean ====
section
/-! DEFINITION. The SMBus sideband (20 R549 to R551, Table 20-4) and the blocks of BAR0 that it reads (16 Tables 16-1 to 16-3,
R445, R490). -/

namespace Sys2Proof.Machine

open Sys2Proof

/-- Registers laid at their offsets over a block of zeros. -/
def layRegs (len : Nat) (regs : List (Nat × List Byte)) : List Byte :=
  regs.foldl (fun b r => b.take r.1 ++ r.2 ++ b.drop (r.1 + r.2.length)) (List.replicate len 0)

/-- DEV_STATUS at a port (Table 16-2). -/
def State.devStatus (s : State) (h : HostId) : Nat :=
  s.boot.phase.code * 16 + b2n s.ready * 8 + b2n s.boot.clusterB * 4 + b2n (s.host.primary == h) * 2 + b2n (s.host.port h.other).up

/-- DEV_INFO at a port (Table 16-2). -/
def State.devInfo (s : State) (h : HostId) : List Byte :=
  let p := s.host.port h
  layRegs 256 [(0x00, leBytes 4 s.devIdent), (0x04, leBytes 4 s.boot.fwVersion), (0x08, leBytes 4 (s.devStatus h)),
    (0x0C, leBytes 4 s.cfg.epoch), (0x10, leBytes 4 s.devFid),
    (0x14, leBytes 4 (p.width % 32 * 2 ^ 8 + p.gen % 16 * 2 ^ 4 + h.num)),
    (0x20, leBytes 16 (s.claims.of h).toNat), (0x30, leBytes 16 (s.claims.of h.other).toNat), (0x40, leBytes 8 p.bar2Base)]

/-- TIME at a port (Table 16-3). -/
def State.timeBlock (s : State) (h : HostId) : List Byte :=
  layRegs 256 [(0x00, leBytes 8 (s.pipOn h.num)), (0x08, leBytes 4 (s.host.port h).pipHiLatch.toNat),
    (0x10, leBytes 4 ((s.time.parent.getD 0xFF) * 2 ^ 8 + s.stratum % 16 * 4 + s.time.state.code))]

/-- TELEM (R445). -/
def State.telemBlock (s : State) : List Byte :=
  layRegs 4096 [(0x000, leBytes 4 s.host.telemSeq), (0x008, leBytes 8 s.host.telemPip),
    (0x100, (List.range 352).flatMap (fun i => leBytes 2 (tabGet s.host.telemSensors 0 i))),
    (0x400, (List.range 8).flatMap (fun x =>
      let r := tabGet s.host.telemDomains (0, 0, 0, 0) x
      leBytes 2 r.1 ++ leBytes 2 r.2.1 ++ leBytes 2 r.2.2.1 ++ leBytes 2 r.2.2.2))]

/-- The block that an offset of SB_WINDOW lies in: start and length; `none` for an offset it does not accept (R550). -/
def sbBlock (off : Nat) : Option (Nat × Nat) :=
  if off < 0x100 then some (0, 0x100)
  else if off < 0x200 then some (0x100, 0x100)
  else if 0x100000 ≤ off ∧ off < 0x180000 then some (0x100000, 0x80000)
  else if 0x200000 ≤ off ∧ off < 0x201000 then some (0x200000, 0x1000)
  else none

/-- The uncorrectable words of a log slot, of its four of 8 bytes (17 R496). -/
def State.logUeWords (s : State) (slot : Nat) : List Nat :=
  [0, 1, 2, 3].filter (fun w => s.siteUe (.log (bits (tabGet s.log.slots 0 slot).toNat 96 32) w))

/-- The bytes of a log slot as they are read: 0xFF in every byte of an uncorrectable word (17 R496). -/
def State.logBytes (s : State) (slot : Nat) : List Byte :=
  (s.logUeWords slot).foldl (fun b w => b.take (8 * w) ++ List.replicate 8 0xFF ++ b.drop (8 * w + 8))
    (leBytes 32 (tabGet s.log.slots 0 slot).toNat)

/-- SB_STATUS and SB_IDENT (Table 20-4). -/
def State.sbStatus (s : State) : Nat := s.boot.phase.code * 16 + b2n s.ready * 8 + b2n s.boot.clusterB * 4 + s.time.state.code
def State.sbIdent (s : State) : Nat := s.devIdent

/-- 32 bytes at an offset of BAR0, as H0's window shows them (the spec names no port for the sideband: entry SBVIEW). -/
def State.sbBytes (s : State) (off : Nat) : List Byte :=
  if off < 0x100 then ((s.devInfo .h0).drop off).take 32
  else if off < 0x200 then ((s.timeBlock .h0).drop (off - 0x100)).take 32
  else if off < 0x180000 then s.logBytes ((off - 0x100000) / 32)
  else (s.telemBlock.drop (off - 0x200000)).take 32

/-- SB_DATA_READ (R550): 32 bytes at SB_WINDOW, which advances by 32 and wraps at the end of its block; nothing of the log changes, its
counters neither. -/
def execSbDataRead (s : State) : Host.Outcome State Fault Refusal :=
  let off := s.side.window.toNat
  if !s.sidebandUp then .next s
  else match sbBlock off with
  | none => .next s
  | some b =>
    let next := if off + 32 ≥ b.1 + b.2 then b.1 else off + 32
    .next ((s.setSide { s.side with window := BitVec.ofNat 32 next }).emit (.sideband (s.sbBytes off)))

/-- SB_WINDOW_WRITE (R550): reserved bits are ignored; an offset outside the four blocks leaves SB_WINDOW as it is. -/
def execSbWindowWrite (w : BitVec 32) (s : State) : Host.Outcome State Fault Refusal :=
  let off := bits w.toNat 5 19 * 32
  if s.sidebandUp && (sbBlock off).isSome then .next (s.setSide { s.side with window := BitVec.ofNat 32 off }) else .next s

/-- SMBUS_ALERT_RESPONSE (R551): the target answers with its address, 0x4A, while it drives SMB_ALERT_N low. -/
def execSmbusAlertResponse (s : State) : Host.Outcome State Fault Refusal :=
  if s.sidebandUp && !s.pins.smbAlertN then .next (s.emit (.alertResponse 0x4A)) else .next s

end Sys2Proof.Machine
end

