-- ==== Sys2Proof/Machine/Rows.lean ====
section
/-! DEFINITION. The rows that check paired values or can meet a fatal error: the step of the row, and then the resets that it made
due (00 R12; 17 R474 to R476). Among them the control words, each a row over the issue of a word of its kind (10). -/

namespace Sys2Proof.Machine

open Sys2Proof

/-- FRAME_RECEIVE (03 R97 to R102). -/
def execFrameReceive (lk : Nat) (hdr : BitVec 128) (cells : List Byte) (trl : BitVec 64) (s : State) :
    Host.Outcome State Fault Refusal :=
  settled (rowFrameReceive lk hdr cells trl s)

/-- CREDIT (03 R91 to R94). -/
def execCredit (lk : Nat) (w : BitVec 64) (s : State) : Host.Outcome State Fault Refusal :=
  settled (rowCreditTick lk w s)

/-- EGRESS_FRAME_START (04 R123; 06 R184). -/
def execEgressFrameStart (lk : Nat) (s : State) : Host.Outcome State Fault Refusal :=
  settled (rowEgressFrameStart lk s)

/-- BRIDGE_FLIT_RETRY (01 R17, R18): a flit that fails after 8 retries is fatal, and the WARM reset begins. -/
def execBridgeFlitRetry (bridge dir : Nat) (s : State) : Host.Outcome State Fault Refusal :=
  settled (rowBridgeFlitRetry bridge dir s)

/-- TALLY_ADMIT (08). -/
def execTallyAdmit (ing : Nat) (s : State) : Host.Outcome State Fault Refusal :=
  settled (rowTallyAdmit ing s)

/-- UPDATE_OPEN (13). -/
def execUpdateOpen (handle : Nat) (s : State) : Host.Outcome State Fault Refusal :=
  settled (rowUpdateOpen handle s)

/-- PIPE_SLICE (13). -/
def execPipeSlice (handle : Nat) (s : State) : Host.Outcome State Fault Refusal :=
  settled (rowPipeSlice handle s)

/-- MIRROR_SEAL (13). -/
def execMirrorSeal (ing : Nat) (s : State) : Host.Outcome State Fault Refusal :=
  settled (rowMirrorSeal ing s)

/-- UPD_SHARD_STATUS (13). -/
def execUpdShardStatus (o : Origin) (handle clear : Nat) (s : State) : Host.Outcome State Fault Refusal :=
  settled (rowUpdShardStatus o handle clear s)

/-- UPD_MIRROR_STATUS (13). -/
def execUpdMirrorStatus (o : Origin) (index : Nat) (s : State) : Host.Outcome State Fault Refusal :=
  settled (rowUpdMirrorStatus o index s)

/-- UPD_COMMIT_FORCE (13). -/
def execUpdCommitForce (o : Origin) (handle version : Nat) (s : State) : Host.Outcome State Fault Refusal :=
  settled (rowUpdCommitForce o handle version s)

/-- ERR_COMPL (05 R152). -/
def execErrCompl (ing : Nat) (s : State) : Host.Outcome State Fault Refusal :=
  settled (rowErrCompl ing s)

/-- SIGNAL_FLAG (09). -/
def execSignalFlag (ing : Nat) (s : State) : Host.Outcome State Fault Refusal :=
  settled (rowSignalFlag ing s)

/-- SIGNAL_CNT (09). -/
def execSignalCnt (ing : Nat) (s : State) : Host.Outcome State Fault Refusal :=
  settled (rowSignalCnt ing s)

/-- OPERATION_COMPLETE (10). -/
def execOperationComplete (st engine : Nat) (s : State) : Host.Outcome State Fault Refusal :=
  settled (rowOperationComplete st engine s)

/-! ### Control words -/

/-- CTRL: waits, signals and loops only. -/
def execCtrl (st slot : Nat) (s : State) : Host.Outcome State Fault Refusal := settled (s.wordRow st slot (fun w => wForm w == 0))
/-- MMA, dense or RLZ (R300, R216). -/
def execMma (st slot : Nat) (s : State) : Host.Outcome State Fault Refusal := settled (s.wordRow st slot (fun w => isMatrix 0 0 w || isMatrix 0 1 w))
/-- MMA_ZERO, dense or RLZ. -/
def execMmaZero (st slot : Nat) (s : State) : Host.Outcome State Fault Refusal := settled (s.wordRow st slot (fun w => isMatrix 1 0 w || isMatrix 1 1 w))
/-- LOAD_ACC. -/
def execLoadAcc (st slot : Nat) (s : State) : Host.Outcome State Fault Refusal := settled (s.wordRow st slot (isMatrix 2 0))
/-- DRAIN. -/
def execDrain (st slot : Nat) (s : State) : Host.Outcome State Fault Refusal := settled (s.wordRow st slot (isMatrix 3 0))
/-- PREDICT (12 R363). -/
def execPredict (st slot : Nat) (s : State) : Host.Outcome State Fault Refusal := settled (s.wordRow st slot (isMatrix 1 2))
/-- MASK_N (12 R365). -/
def execMaskN (st slot : Nat) (s : State) : Host.Outcome State Fault Refusal := settled (s.wordRow st slot (fun w => isMatrix 0 3 w || isMatrix 1 3 w))
/-- MASK_K (12 R365). -/
def execMaskK (st slot : Nat) (s : State) : Host.Outcome State Fault Refusal := settled (s.wordRow st slot (fun w => isMatrix 0 4 w || isMatrix 1 4 w))
/-- FMA. -/
def execVectorFma (st slot : Nat) (s : State) : Host.Outcome State Fault Refusal := settled (s.wordRow st slot (isVector 0))
/-- ADD. -/
def execVectorAdd (st slot : Nat) (s : State) : Host.Outcome State Fault Refusal := settled (s.wordRow st slot (isVector 1))
/-- MUL. -/
def execVectorMul (st slot : Nat) (s : State) : Host.Outcome State Fault Refusal := settled (s.wordRow st slot (isVector 2))
/-- MAX. -/
def execVectorMax (st slot : Nat) (s : State) : Host.Outcome State Fault Refusal := settled (s.wordRow st slot (isVector 3))
/-- MIN. -/
def execVectorMin (st slot : Nat) (s : State) : Host.Outcome State Fault Refusal := settled (s.wordRow st slot (isVector 4))
/-- CMP_EQ. -/
def execVectorCmpEq (st slot : Nat) (s : State) : Host.Outcome State Fault Refusal := settled (s.wordRow st slot (isVector 5))
/-- CMP_LT. -/
def execVectorCmpLt (st slot : Nat) (s : State) : Host.Outcome State Fault Refusal := settled (s.wordRow st slot (isVector 6))
/-- CMP_LE. -/
def execVectorCmpLe (st slot : Nat) (s : State) : Host.Outcome State Fault Refusal := settled (s.wordRow st slot (isVector 7))
/-- AND. -/
def execVectorAnd (st slot : Nat) (s : State) : Host.Outcome State Fault Refusal := settled (s.wordRow st slot (isVector 8))
/-- OR. -/
def execVectorOr (st slot : Nat) (s : State) : Host.Outcome State Fault Refusal := settled (s.wordRow st slot (isVector 9))
/-- XOR. -/
def execVectorXor (st slot : Nat) (s : State) : Host.Outcome State Fault Refusal := settled (s.wordRow st slot (isVector 10))
/-- CVT. -/
def execVectorCvt (st slot : Nat) (s : State) : Host.Outcome State Fault Refusal := settled (s.wordRow st slot (isVector 11))
/-- DMA (R303). -/
def execDma (st slot : Nat) (s : State) : Host.Outcome State Fault Refusal := settled (s.wordRow st slot (fun w => wForm w == 3))
/-- COPY (R304). -/
def execCopy (st slot : Nat) (s : State) : Host.Outcome State Fault Refusal := settled (s.wordRow st slot (isMem 0))
/-- GATHER (R304). -/
def execGather (st slot : Nat) (s : State) : Host.Outcome State Fault Refusal := settled (s.wordRow st slot (isMem 1))
/-- ATOMIC of a MEM word (R304). -/
def execMemAtomic (st slot : Nat) (s : State) : Host.Outcome State Fault Refusal := settled (s.wordRow st slot (isMem 2))
/-- SIG_REMOTE (R304). -/
def execSigRemote (st slot : Nat) (s : State) : Host.Outcome State Fault Refusal := settled (s.wordRow st slot (isMem 3))
/-- AGSET BASE. -/
def execAgsetBase (st slot : Nat) (s : State) : Host.Outcome State Fault Refusal := settled (s.wordRow st slot (isAg 0))
/-- AGSET STRIDE. -/
def execAgsetStride (st slot : Nat) (s : State) : Host.Outcome State Fault Refusal := settled (s.wordRow st slot (isAg 1))
/-- AGSET ADD. -/
def execAgsetAdd (st slot : Nat) (s : State) : Host.Outcome State Fault Refusal := settled (s.wordRow st slot (isAg 2))
/-- CMP_SET. -/
def execCmpSet (st slot : Nat) (s : State) : Host.Outcome State Fault Refusal := settled (s.wordRow st slot (isScalar 0))
/-- CMP_ADD. -/
def execCmpAdd (st slot : Nat) (s : State) : Host.Outcome State Fault Refusal := settled (s.wordRow st slot (isScalar 1))
/-- LC_SET (R297). -/
def execLcSet (st slot : Nat) (s : State) : Host.Outcome State Fault Refusal := settled (s.wordRow st slot (isScalar 2))
/-- CNT_WRITE (R305). -/
def execCntWrite (st slot : Nat) (s : State) : Host.Outcome State Fault Refusal := settled (s.wordRow st slot (isScalar 3))
/-- TEST. -/
def execTestWord (st slot : Nat) (s : State) : Host.Outcome State Fault Refusal := settled (s.wordRow st slot (isScalar 4))
/-- PRED_SET. -/
def execPredSet (st slot : Nat) (s : State) : Host.Outcome State Fault Refusal := settled (s.wordRow st slot (isScalar 5))
/-- DESC (R306). -/
def execDescWord (st slot : Nat) (s : State) : Host.Outcome State Fault Refusal := settled (s.wordRow st slot (fun w => wForm w == 7))
/-- END (R307). -/
def execEndWord (st slot : Nat) (s : State) : Host.Outcome State Fault Refusal := settled (s.wordRow st slot (fun w => wForm w == 15))

end Sys2Proof.Machine
end

