-- ==== Sys2Proof/Machine/Dispatch.lean ====
section
/-! DEFINITION. The dispatcher: one arm for each command and event. -/

namespace Sys2Proof.Machine

open Sys2Proof

/-- The effect of a command or event on everything but the queue. -/
def exec (i : Instr) (s : State) : Host.Outcome State Fault Refusal :=
  match i with
  | .devIdentity o part off => Sys2Proof.Machine.execDevIdentity o part off s
  | .devAttestQuote o nonce => Sys2Proof.Machine.execDevAttestQuote o nonce s
  | .devMeasureLog o first count => Sys2Proof.Machine.execDevMeasureLog o first count s
  | .fwSlotWrite o slot op off len data => Sys2Proof.Machine.execFwSlotWrite o slot op off len data s
  | .fwSlotSelect o slot => Sys2Proof.Machine.execFwSlotSelect o slot s
  | .devReset o scope unit => Sys2Proof.Machine.execDevReset o scope unit s
  | .devResetBegin => Sys2Proof.Machine.execDevResetBegin s
  | .debugChallenge o level => Sys2Proof.Machine.execDebugChallenge o level s
  | .debugUnlock o level key sig => Sys2Proof.Machine.execDebugUnlock o level key sig s
  | .cfgStage o items => Sys2Proof.Machine.execCfgStage o items s
  | .cfgStageClear o => Sys2Proof.Machine.execCfgStageClear o s
  | .cfgCommitAt o target late drain => Sys2Proof.Machine.execCfgCommitAt o target late drain s
  | .cfgCancel o id => Sys2Proof.Machine.execCfgCancel o id s
  | .cfgRead o id scope => Sys2Proof.Machine.execCfgRead o id scope s
  | .cfgStatus o => Sys2Proof.Machine.execCfgStatus o s
  | .cfgFreezeBegin id => Sys2Proof.Machine.execCfgFreezeBegin id s
  | .linkDrainBegin id => Sys2Proof.Machine.execLinkDrainBegin id s
  | .cfgCommitApply => Sys2Proof.Machine.execCfgCommitApply s
  | .portStatus o port half => Sys2Proof.Machine.execPortStatus o port half s
  | .portCounters o port half clear => Sys2Proof.Machine.execPortCounters o port half clear s
  | .portProfileRead o port half => Sys2Proof.Machine.execPortProfileRead o port half s
  | .portRetrain o port half => Sys2Proof.Machine.execPortRetrain o port half s
  | .portSpareSwap o port half lane => Sys2Proof.Machine.execPortSpareSwap o port half lane s
  | .portSpareFuse o port dir pos => Sys2Proof.Machine.execPortSpareFuse o port dir pos s
  | .portBufStatus o die acct => Sys2Proof.Machine.execPortBufStatus o die acct s
  | .portBufCounters o die clear => Sys2Proof.Machine.execPortBufCounters o die clear s
  | .portMeterRead o port half vc clear => Sys2Proof.Machine.execPortMeterRead o port half vc clear s
  | .portSchedRead o port half clear => Sys2Proof.Machine.execPortSchedRead o port half clear s
  | .arbStatus o kind index dir clear => Sys2Proof.Machine.execArbStatus o kind index dir clear s
  | .routeLoad o addr => Sys2Proof.Machine.execRouteLoad o addr s
  | .routeLoadComplete => Sys2Proof.Machine.execRouteLoadComplete s
  | .routeCheck o addr len => Sys2Proof.Machine.execRouteCheck o addr len s
  | .routeCheckComplete => Sys2Proof.Machine.execRouteCheckComplete s
  | .routeStatus o => Sys2Proof.Machine.execRouteStatus o s
  | .routeLookup o epoch src dst channel vc mcast port half => Sys2Proof.Machine.execRouteLookup o epoch src dst channel vc mcast port half s
  | .routeCounters o die clear => Sys2Proof.Machine.execRouteCounters o die clear s
  | .collGroupCreate o addr len => Sys2Proof.Machine.execCollGroupCreate o addr len s
  | .collGroupDestroy o group => Sys2Proof.Machine.execCollGroupDestroy o group s
  | .collGroupStatus o group clear => Sys2Proof.Machine.execCollGroupStatus o group clear s
  | .collStragglers o group => Sys2Proof.Machine.execCollStragglers o group s
  | .collCounters o die clear => Sys2Proof.Machine.execCollCounters o die clear s
  | .collAbort o group seq => Sys2Proof.Machine.execCollAbort o group seq s
  | .patLoad o addr len => Sys2Proof.Machine.execPatLoad o addr len s
  | .patUnload o pat => Sys2Proof.Machine.execPatUnload o pat s
  | .patLaunchAt o a => Sys2Proof.Machine.execPatLaunchAt o a s
  | .patStatus o launch => Sys2Proof.Machine.execPatStatus o launch s
  | .patAbort o launch => Sys2Proof.Machine.execPatAbort o launch s
  | .patFaultRead o skein index slot => Sys2Proof.Machine.execPatFaultRead o skein index slot s
  | .patTraceSet o mask lo hi events ring size wrap => Sys2Proof.Machine.execPatTraceSet o mask lo hi events ring size wrap s
  | .predLayerSet o skein index addr => Sys2Proof.Machine.execPredLayerSet o skein index addr s
  | .predLayerClear o skein index => Sys2Proof.Machine.execPredLayerClear o skein index s
  | .predLayerStatus o skein index clear => Sys2Proof.Machine.execPredLayerStatus o skein index clear s
  | .descLoad o handle count addr => Sys2Proof.Machine.execDescLoad o handle count addr s
  | .descRead o handle => Sys2Proof.Machine.execDescRead o handle s
  | .descClear o handle count => Sys2Proof.Machine.execDescClear o handle count s
  | .ladStreamCreate o die stream addr => Sys2Proof.Machine.execLadStreamCreate o die stream addr s
  | .ladStreamDestroy o die stream => Sys2Proof.Machine.execLadStreamDestroy o die stream s
  | .ladFlush o die stream => Sys2Proof.Machine.execLadFlush o die stream s
  | .ladStreamStatus o die stream => Sys2Proof.Machine.execLadStreamStatus o die stream s
  | .ladCounters o die clear => Sys2Proof.Machine.execLadCounters o die clear s
  | .expPlace o addr => Sys2Proof.Machine.execExpPlace o addr s
  | .expRemove o expert => Sys2Proof.Machine.execExpRemove o expert s
  | .expReplicaAdd o expert map grad => Sys2Proof.Machine.execExpReplicaAdd o expert map grad s
  | .expReplicaDrop o expert replica => Sys2Proof.Machine.execExpReplicaDrop o expert replica s
  | .expRemoteSet o kind index lo hi owner remove => Sys2Proof.Machine.execExpRemoteSet o kind index lo hi owner remove s
  | .expMaskSet o expert replica addr => Sys2Proof.Machine.execExpMaskSet o expert replica addr s
  | .expStepSet o expert step => Sys2Proof.Machine.execExpStepSet o expert step s
  | .expGradClose o expert step => Sys2Proof.Machine.execExpGradClose o expert step s
  | .expStatus o expert clear => Sys2Proof.Machine.execExpStatus o expert clear s
  | .expCounters o die clear => Sys2Proof.Machine.execExpCounters o die clear s
  | .expResume o expert replica => Sys2Proof.Machine.execExpResume o expert replica s
  | .updShardCreate o handle addr len source far => Sys2Proof.Machine.execUpdShardCreate o handle addr len source far s
  | .updShardDestroy o handle => Sys2Proof.Machine.execUpdShardDestroy o handle s
  | .updApply o handle addr version => Sys2Proof.Machine.execUpdApply o handle addr version s
  | .updParamsSet o handle fromX params => Sys2Proof.Machine.execUpdParamsSet o handle fromX params s
  | .updShardStatus o handle clear => Sys2Proof.Machine.execUpdShardStatus o handle clear s
  | .updShardRebind o handle fid index => Sys2Proof.Machine.execUpdShardRebind o handle fid index s
  | .updShardRestore o handle far => Sys2Proof.Machine.execUpdShardRestore o handle far s
  | .updCommitForce o handle version => Sys2Proof.Machine.execUpdCommitForce o handle version s
  | .updCopyAdd o handle entry => Sys2Proof.Machine.execUpdCopyAdd o handle entry s
  | .updCopyDrop o handle copy => Sys2Proof.Machine.execUpdCopyDrop o handle copy s
  | .updMirrorCreate o index fid handle n b slot0 slot1 => Sys2Proof.Machine.execUpdMirrorCreate o index fid handle n b slot0 slot1 s
  | .updMirrorBind o index fid handle => Sys2Proof.Machine.execUpdMirrorBind o index fid handle s
  | .updMirrorDestroy o index => Sys2Proof.Machine.execUpdMirrorDestroy o index s
  | .updMirrorStatus o index => Sys2Proof.Machine.execUpdMirrorStatus o index s
  | .updCounters o skein clear => Sys2Proof.Machine.execUpdCounters o skein clear s
  | .pwrEnvelopeSet o watts => Sys2Proof.Machine.execPwrEnvelopeSet o watts s
  | .pwrStatus o clear => Sys2Proof.Machine.execPwrStatus o clear s
  | .pwrTelemetry o => Sys2Proof.Machine.execPwrTelemetry o s
  | .pwrStitchState o map state => Sys2Proof.Machine.execPwrStitchState o map state s
  | .pwrCounters o domain clear => Sys2Proof.Machine.execPwrCounters o domain clear s
  | .logStatus o => Sys2Proof.Machine.execLogStatus o s
  | .logMark o value => Sys2Proof.Machine.execLogMark o value s
  | .logClear o upTo => Sys2Proof.Machine.execLogClear o upTo s
  | .logPolicy o policy => Sys2Proof.Machine.execLogPolicy o policy s
  | .sentStatus o skein clear => Sys2Proof.Machine.execSentStatus o skein clear s
  | .sentSet o a => Sys2Proof.Machine.execSentSet o a s
  | .stitchRetire o skein index action => Sys2Proof.Machine.execStitchRetire o skein index action s
  | .swatchRun o addr len t limit => Sys2Proof.Machine.execSwatchRun o addr len t limit s
  | .swatchScheduleAt o slot remove target late period addr len t limit => Sys2Proof.Machine.execSwatchScheduleAt o slot remove target late period addr len t limit s
  | .swatchStatus o slot => Sys2Proof.Machine.execSwatchStatus o slot s
  | .fuseLedgerRead o => Sys2Proof.Machine.execFuseLedgerRead o s
  | .fuseRollbackAdvance o target => Sys2Proof.Machine.execFuseRollbackAdvance o target s
  | .fuseStitchRetire o skein index => Sys2Proof.Machine.execFuseStitchRetire o skein index s
  | .fuseKeyRevoke o slot => Sys2Proof.Machine.execFuseKeyRevoke o slot s
  | .hostClaim o mask force => Sys2Proof.Machine.execHostClaim o mask force s
  | .hostRelease o mask => Sys2Proof.Machine.execHostRelease o mask s
  | .hostStatus o => Sys2Proof.Machine.execHostStatus o s
  | .hostRoleSwap o => Sys2Proof.Machine.execHostRoleSwap o s
  | .mbStateWrite h m w => Sys2Proof.Machine.execMbStateWrite h m w s
  | .mailboxCmdWrite h m off data => Sys2Proof.Machine.execMailboxCmdWrite h m off data s
  | .pipRead h width => Sys2Proof.Machine.execPipRead h width s
  | .bar2Read h off len => Sys2Proof.Machine.execBar2Read h off len s
  | .bar2Write h off data => Sys2Proof.Machine.execBar2Write h off data s
  | .spadRetainWrite st w => Sys2Proof.Machine.execSpadRetainWrite st w s
  | .registerWrite t data => Sys2Proof.Machine.execRegisterWrite t data s
  | .sbDataRead => Sys2Proof.Machine.execSbDataRead s
  | .sbWindowWrite w => Sys2Proof.Machine.execSbWindowWrite w s
  | .smbusAlertResponse => Sys2Proof.Machine.execSmbusAlertResponse s
  | .hostLinkTrain h gen width => Sys2Proof.Machine.execHostLinkTrain h gen width s
  | .perstAssert h => Sys2Proof.Machine.execPerstAssert h s
  | .failoverWaitExpiry => Sys2Proof.Machine.execFailoverWaitExpiry s
  | .watchdogExpiry => Sys2Proof.Machine.execWatchdogExpiry s
  | .mgmtRequest ing => Sys2Proof.Machine.execMgmtRequest ing s
  | .mgmtResponse ing => Sys2Proof.Machine.execMgmtResponse ing s
  | .frameReceive lk hdr cells trl => Sys2Proof.Machine.execFrameReceive lk hdr cells trl s
  | .profileFrame lk => Sys2Proof.Machine.execProfileFrame lk s
  | .dataFrame ing vc => Sys2Proof.Machine.execDataFrame ing vc s
  | .readReq ing vc => Sys2Proof.Machine.execReadReq ing vc s
  | .readRsp ing => Sys2Proof.Machine.execReadRsp ing s
  | .errCompl ing => Sys2Proof.Machine.execErrCompl ing s
  | .addI32 ing => Sys2Proof.Machine.execAddI32 ing s
  | .addI64 ing => Sys2Proof.Machine.execAddI64 ing s
  | .addF32 ing => Sys2Proof.Machine.execAddF32 ing s
  | .addF32x8 ing => Sys2Proof.Machine.execAddF32x8 ing s
  | .maxI32 ing => Sys2Proof.Machine.execMaxI32 ing s
  | .minI32 ing => Sys2Proof.Machine.execMinI32 ing s
  | .maxF32 ing => Sys2Proof.Machine.execMaxF32 ing s
  | .minF32 ing => Sys2Proof.Machine.execMinF32 ing s
  | .and64 ing => Sys2Proof.Machine.execAnd64 ing s
  | .or64 ing => Sys2Proof.Machine.execOr64 ing s
  | .xor64 ing => Sys2Proof.Machine.execXor64 ing s
  | .swap64 ing => Sys2Proof.Machine.execSwap64 ing s
  | .cas64 ing => Sys2Proof.Machine.execCas64 ing s
  | .signalFlag ing => Sys2Proof.Machine.execSignalFlag ing s
  | .signalCnt ing => Sys2Proof.Machine.execSignalCnt ing s
  | .contrib ing => Sys2Proof.Machine.execContrib ing s
  | .partialFrame ing => Sys2Proof.Machine.execPartialFrame ing s
  | .resultFrame ing => Sys2Proof.Machine.execResultFrame ing s
  | .doneFrame ing => Sys2Proof.Machine.execDoneFrame ing s
  | .failFrame ing => Sys2Proof.Machine.execFailFrame ing s
  | .errorFrame ing => Sys2Proof.Machine.execErrorFrame ing s
  | .tallyAdmit ing => Sys2Proof.Machine.execTallyAdmit ing s
  | .collTimeout group seq => Sys2Proof.Machine.execCollTimeout group seq s
  | .collBackstopTimeout group seq => Sys2Proof.Machine.execCollBackstopTimeout group seq s
  | .token ing => Sys2Proof.Machine.execToken ing s
  | .tokenRes ing => Sys2Proof.Machine.execTokenRes ing s
  | .asmLimitExpiry ing src channel pass => Sys2Proof.Machine.execAsmLimitExpiry ing src channel pass s
  | .tokenNotice expert => Sys2Proof.Machine.execTokenNotice expert s
  | .tileWaitExpiry expert pass => Sys2Proof.Machine.execTileWaitExpiry expert pass s
  | .runLoad expert replica area => Sys2Proof.Machine.execRunLoad expert replica area s
  | .runStart expert replica area => Sys2Proof.Machine.execRunStart expert replica area s
  | .runEnd expert replica => Sys2Proof.Machine.execRunEnd expert replica s
  | .runLimitExpiry expert replica => Sys2Proof.Machine.execRunLimitExpiry expert replica s
  | .bwdLimitExpiry expert => Sys2Proof.Machine.execBwdLimitExpiry expert s
  | .mirrorData ing => Sys2Proof.Machine.execMirrorData ing s
  | .mirrorSeal ing => Sys2Proof.Machine.execMirrorSeal ing s
  | .updateOpen handle => Sys2Proof.Machine.execUpdateOpen handle s
  | .pipeSlice handle => Sys2Proof.Machine.execPipeSlice handle s
  | .mirrorChunkSend handle => Sys2Proof.Machine.execMirrorChunkSend handle s
  | .mirrorTimeout dst seq => Sys2Proof.Machine.execMirrorTimeout dst seq s
  | .rubCommitTimeout group seq => Sys2Proof.Machine.execRubCommitTimeout group seq s
  | .ladderBatchDeadline die stream => Sys2Proof.Machine.execLadderBatchDeadline die stream s
  | .ladderBatchLoad die => Sys2Proof.Machine.execLadderBatchLoad die s
  | .ladderBatchOutput die buf => Sys2Proof.Machine.execLadderBatchOutput die buf s
  | .pipMark lk w => Sys2Proof.Machine.execPipMark lk w s
  | .pipMarkSend lk => Sys2Proof.Machine.execPipMarkSend lk s
  | .holdoverEnter => Sys2Proof.Machine.execHoldoverEnter s
  | .credit lk w => Sys2Proof.Machine.execCredit lk w s
  | .ack lk w => Sys2Proof.Machine.execAck lk w s
  | .nak lk w => Sys2Proof.Machine.execNak lk w s
  | .skip lk w => Sys2Proof.Machine.execSkip lk w s
  | .laneSwapReq lk w => Sys2Proof.Machine.execLaneSwapReq lk w s
  | .laneSwapDone lk w => Sys2Proof.Machine.execLaneSwapDone lk w s
  | .barrier lk w => Sys2Proof.Machine.execBarrier lk w s
  | .train lk w locked ber => Sys2Proof.Machine.execTrain lk w locked ber s
  | .retrainReq lk w => Sys2Proof.Machine.execRetrainReq lk w s
  | .goingDark lk w => Sys2Proof.Machine.execGoingDark lk w s
  | .narrow lk w => Sys2Proof.Machine.execNarrow lk w s
  | .idle lk w => Sys2Proof.Machine.execIdle lk w s
  | .reservedTick lk w => Sys2Proof.Machine.execReservedTick lk w s
  | .alignmentMarker lk block skewNs => Sys2Proof.Machine.execAlignmentMarker lk block skewNs s
  | .alignmentMarkerSend lk => Sys2Proof.Machine.execAlignmentMarkerSend lk s
  | .ackSend lk => Sys2Proof.Machine.execAckSend lk s
  | .creditSend lk => Sys2Proof.Machine.execCreditSend lk s
  | .egressFrameStart lk => Sys2Proof.Machine.execEgressFrameStart lk s
  | .cutThroughUnderrun lk => Sys2Proof.Machine.execCutThroughUnderrun lk s
  | .replayTimeout lk => Sys2Proof.Machine.execReplayTimeout lk s
  | .linkHoldExpiry lk ing vc => Sys2Proof.Machine.execLinkHoldExpiry lk ing vc s
  | .trainingLimitExpiry lk => Sys2Proof.Machine.execTrainingLimitExpiry lk s
  | .trainingRestart lk => Sys2Proof.Machine.execTrainingRestart lk s
  | .laneSignalLoss lk lane => Sys2Proof.Machine.execLaneSignalLoss lk lane s
  | .laneBerWindow lk lane berExp counts => Sys2Proof.Machine.execLaneBerWindow lk lane berExp counts s
  | .swapRefusedTimeout lk => Sys2Proof.Machine.execSwapRefusedTimeout lk s
  | .lostLaneHoldExpiry lk => Sys2Proof.Machine.execLostLaneHoldExpiry lk s
  | .profileSend lk => Sys2Proof.Machine.execProfileSend lk s
  | .profileLoss lk => Sys2Proof.Machine.execProfileLoss lk s
  | .laserReady mod lit => Sys2Proof.Machine.execLaserReady mod lit s
  | .overflowSpill die ing vc => Sys2Proof.Machine.execOverflowSpill die ing vc s
  | .overflowReadback die ing vc => Sys2Proof.Machine.execOverflowReadback die ing vc s
  | .multicastReplica die => Sys2Proof.Machine.execMulticastReplica die s
  | .arbiterDecide kind index dir raised => Sys2Proof.Machine.execArbiterDecide kind index dir raised s
  | .bridgeFlitRetry bridge dir => Sys2Proof.Machine.execBridgeFlitRetry bridge dir s
  | .launchStart launch => Sys2Proof.Machine.execLaunchStart launch s
  | .barrierStart launch => Sys2Proof.Machine.execBarrierStart launch s
  | .barrierRootTimeout launch => Sys2Proof.Machine.execBarrierRootTimeout launch s
  | .barrierMemberTimeout launch => Sys2Proof.Machine.execBarrierMemberTimeout launch s
  | .launchRunLimit launch => Sys2Proof.Machine.execLaunchRunLimit launch s
  | .ctrl st slot => Sys2Proof.Machine.execCtrl st slot s
  | .mma st slot => Sys2Proof.Machine.execMma st slot s
  | .mmaZero st slot => Sys2Proof.Machine.execMmaZero st slot s
  | .loadAcc st slot => Sys2Proof.Machine.execLoadAcc st slot s
  | .drain st slot => Sys2Proof.Machine.execDrain st slot s
  | .predict st slot => Sys2Proof.Machine.execPredict st slot s
  | .maskN st slot => Sys2Proof.Machine.execMaskN st slot s
  | .maskK st slot => Sys2Proof.Machine.execMaskK st slot s
  | .vectorFma st slot => Sys2Proof.Machine.execVectorFma st slot s
  | .vectorAdd st slot => Sys2Proof.Machine.execVectorAdd st slot s
  | .vectorMul st slot => Sys2Proof.Machine.execVectorMul st slot s
  | .vectorMax st slot => Sys2Proof.Machine.execVectorMax st slot s
  | .vectorMin st slot => Sys2Proof.Machine.execVectorMin st slot s
  | .vectorCmpEq st slot => Sys2Proof.Machine.execVectorCmpEq st slot s
  | .vectorCmpLt st slot => Sys2Proof.Machine.execVectorCmpLt st slot s
  | .vectorCmpLe st slot => Sys2Proof.Machine.execVectorCmpLe st slot s
  | .vectorAnd st slot => Sys2Proof.Machine.execVectorAnd st slot s
  | .vectorOr st slot => Sys2Proof.Machine.execVectorOr st slot s
  | .vectorXor st slot => Sys2Proof.Machine.execVectorXor st slot s
  | .vectorCvt st slot => Sys2Proof.Machine.execVectorCvt st slot s
  | .dma st slot => Sys2Proof.Machine.execDma st slot s
  | .copy st slot => Sys2Proof.Machine.execCopy st slot s
  | .gather st slot => Sys2Proof.Machine.execGather st slot s
  | .memAtomic st slot => Sys2Proof.Machine.execMemAtomic st slot s
  | .sigRemote st slot => Sys2Proof.Machine.execSigRemote st slot s
  | .agsetBase st slot => Sys2Proof.Machine.execAgsetBase st slot s
  | .agsetStride st slot => Sys2Proof.Machine.execAgsetStride st slot s
  | .agsetAdd st slot => Sys2Proof.Machine.execAgsetAdd st slot s
  | .cmpSet st slot => Sys2Proof.Machine.execCmpSet st slot s
  | .cmpAdd st slot => Sys2Proof.Machine.execCmpAdd st slot s
  | .lcSet st slot => Sys2Proof.Machine.execLcSet st slot s
  | .cntWrite st slot => Sys2Proof.Machine.execCntWrite st slot s
  | .testWord st slot => Sys2Proof.Machine.execTestWord st slot s
  | .predSet st slot => Sys2Proof.Machine.execPredSet st slot s
  | .descWord st slot => Sys2Proof.Machine.execDescWord st slot s
  | .endWord st slot => Sys2Proof.Machine.execEndWord st slot s
  | .operationComplete st engine => Sys2Proof.Machine.execOperationComplete st engine s
  | .farTimeout dst seq => Sys2Proof.Machine.execFarTimeout dst seq s
  | .icacheFill st slot => Sys2Proof.Machine.execIcacheFill st slot s
  | .bankWake st bank => Sys2Proof.Machine.execBankWake st bank s
  | .bankRetentionEntry st bank => Sys2Proof.Machine.execBankRetentionEntry st bank s
  | .stitchHoldEntry st => Sys2Proof.Machine.execStitchHoldEntry st s
  | .stitchWake st => Sys2Proof.Machine.execStitchWake st s
  | .turnBoundary => Sys2Proof.Machine.execTurnBoundary s
  | .grantCompute => Sys2Proof.Machine.execGrantCompute s
  | .telemetryRead domain mv amps16 ok => Sys2Proof.Machine.execTelemetryRead domain mv amps16 ok s
  | .sensorSample readings => Sys2Proof.Machine.execSensorSample readings s
  | .telemRefresh => Sys2Proof.Machine.execTelemRefresh s
  | .clockStep domain => Sys2Proof.Machine.execClockStep domain s
  | .voltageRegulated domain => Sys2Proof.Machine.execVoltageRegulated domain s
  | .voltageRaiseTimeout domain => Sys2Proof.Machine.execVoltageRaiseTimeout domain s
  | .thermalEmergency domain => Sys2Proof.Machine.execThermalEmergency domain s
  | .emergencyExit domain => Sys2Proof.Machine.execEmergencyExit domain s
  | .dealerDecide skein => Sys2Proof.Machine.execDealerDecide skein s
  | .witnessCheck skein same => Sys2Proof.Machine.execWitnessCheck skein same s
  | .sentinelTiebreak skein eqPrimary eqWitness => Sys2Proof.Machine.execSentinelTiebreak skein eqPrimary eqWitness s
  | .suspectDecay => Sys2Proof.Machine.execSuspectDecay s
  | .swatchOccurrence slot => Sys2Proof.Machine.execSwatchOccurrence slot s
  | .swatchRunLimit => Sys2Proof.Machine.execSwatchRunLimit s
  | .patrolScrub channel => Sys2Proof.Machine.execPatrolScrub channel s
  | .correctableWindow => Sys2Proof.Machine.execCorrectableWindow s
  | .logEntryWrite => Sys2Proof.Machine.execLogEntryWrite s
  | .logSuppressEnd code src => Sys2Proof.Machine.execLogSuppressEnd code src s
  | .powerOnReset rail lowNs => Sys2Proof.Machine.execPowerOnReset rail lowNs s
  | .resetN lowNs => Sys2Proof.Machine.execResetN lowNs s
  | .thermalTrip sensor reading => Sys2Proof.Machine.execThermalTrip sensor reading s
  | .thermalTripRelease => Sys2Proof.Machine.execThermalTripRelease s
  | .extestExit => Sys2Proof.Machine.execExtestExit s
  | .castOnStrap samples => Sys2Proof.Machine.execCastOnStrap samples s
  | .castOnFuses crcOk => Sys2Proof.Machine.execCastOnFuses crcOk s
  | .castOnRom aPass bPass => Sys2Proof.Machine.execCastOnRom aPass bPass s
  | .castOnVerify => Sys2Proof.Machine.execCastOnVerify s
  | .castOnDram ok => Sys2Proof.Machine.execCastOnDram ok s
  | .castOnBridges ok => Sys2Proof.Machine.execCastOnBridges ok s
  | .castOnSkeins failing => Sys2Proof.Machine.execCastOnSkeins failing s
  | .castOnLasers lit => Sys2Proof.Machine.execCastOnLasers lit s
  | .castOnLinks => Sys2Proof.Machine.execCastOnLinks s
  | .castOnProfile => Sys2Proof.Machine.execCastOnProfile s
  | .castOnReady => Sys2Proof.Machine.execCastOnReady s
  | .barrierArrive launch => Sys2Proof.Machine.execBarrierArrive launch s
  | .swatchRecord kind unit => Sys2Proof.Machine.execSwatchRecord kind unit s
  | .hostLinkDown h => Sys2Proof.Machine.execHostLinkDown h s
  | .resetEnd scope unit => Sys2Proof.Machine.execResetEnd scope unit s
  | .standbyRestart pass => Sys2Proof.Machine.execStandbyRestart pass s
  | .dramRefresh channel => Sys2Proof.Machine.execDramRefresh channel s

end Sys2Proof.Machine
end

