-- ==== Sys2Proof/Machine/Tick.lean ====
section
/-! DEFINITION. What a pip brings whatever is commanded: the count, barrier slots, due commits, counts of core cycles (02 R36, R55,
R60, R62; 06 R196; 08 R255). -/

namespace Sys2Proof.Machine

open Sys2Proof

/-- The core cycles of a port die in one pip, in thousandths. -/
def State.dieCycles (s : State) (die : Nat) : Nat := (s.dom (4 + die)).clock

/-- The classes of links for which frames are queued. -/
def State.busyClasses (s : State) : List (Nat × Nat) :=
  (s.buf.frames.filterMap (fun q => match q.dest with | .link lk => some (lk, q.f.vc) | _ => none)).eraseDups

/-- Count the core cycles of a pip in which the head of a class is blocked on credits and on its shaper (06 R196). -/
def State.countBlocked (s : State) (c : Nat × Nat) : State :=
  match s.classHead c.1 c.2 with
  | none => s
  | some q =>
    let l := s.link c.1
    let x := s.sched c.1
    let more (t : Tab Nat) (blocked : Bool) : Tab Nat :=
      if blocked then tabPut t c.2 (tabGet t 0 c.2 + s.dieCycles (linkDie c.1)) else t
    s.setSched c.1 { x with noCredit := more x.noCredit (decide (l.allowance c.2 = 0) || decide (l.credits c.2 < q.f.n + 1)),
                            noShape := more x.noShape (!s.shaperOk c.1 c.2) }

/-- The head of a queue of a die waits for a slot (08 R236, R237). -/
def State.headWaits (s : State) (die : Nat) : Bool :=
  s.heads.any (fun q => q.die == die && decide (q.dest = .tally) && q.f.vc == 3 && q.note.isSome &&
    (match tabGet? s.coll q.f.group with
     | some g => !s.slotOk q.f.group g q.die (chSeq q.f.head) (chSlice q.f.head) | none => false))

/-- Count the core cycles of a pip in which a queue head of a die waits for admission (08, Table 08-7). -/
def State.countWaits (s : State) (die : Nat) : State :=
  if s.headWaits die then
    s.setTraf { s.traf with waits := tabPut s.traf.waits die (tabGet s.traf.waits 0 die + s.dieCycles die) }
  else s

/-- A Ladder has a batch to load or a table to read or add to, and its threads class is held (14 R409, R416). -/
def State.ladderHeld (s : State) (die : Nat) : Bool :=
  !s.mayIssue (4 + die) clsThreads &&
  (([2 * die, 2 * die + 1].any (fun i => (tabGet? s.lad.bufs i).isNone) && (s.nextClosed die).isSome) ||
   [2 * die, 2 * die + 1].any (fun i => match tabGet? s.lad.bufs i with
     | some b => !b.sent && decide (b.status = .ok) && (match s.stream? b.stream with | some x => decide (x.op ≥ 4) | none => false)
     | none => false))

/-- Count the core cycles of a pip in which a Ladder is held (14 R416). -/
def State.countHeld (s : State) (die : Nat) : State :=
  if s.ladderHeld die then s.setLad { s.lad with held := tabPut s.lad.held die (tabGet s.lad.held 0 die + s.dieCycles die) } else s

/-- Discard what would be read from a packet buffer and meets an uncorrectable word: frames at the head of a unit's queue, and frames
of tokens (04 R138; 17 Table 17-2). -/
def State.dropFrameUes (s : State) : State :=
  if s.buf.ueHanks.isEmpty then s
  else (s.heads.filter (fun q => q.local && s.frameUe q) ++ s.tokFrames.filter s.frameUe).foldl State.discardUe s

/-- Log the loss of an entry or array (0x1101): its unit, the row of Table 17-2 and its place. -/
def State.logLoss (s : State) (src store loc : Nat) : State := s.logRaise 0x1101 2 0xD src 0 (loc % 2 ^ 48 + store * 2 ^ 48)

/-- The row of Table 17-2 for an entry or array that lost a word: an entry of a table is not valid from here and an open collective of a
group ends with ST_INTEGRITY (08 R251); a shard being updated is torn (13 R394), a Ladder's batch ends with ST_INTEGRITY (14 R412), and
Needle state is fatal (00 R12). -/
def State.loseSite (s : State) (x : UeSite) : State :=
  match x with
  | .desc k => match tabGet? s.descs k with
    | some e => (s.logLoss (srcOf 1 (k / 4096)) 5 k).setDescs (tabPut s.descs k { e with d := none })
    | none => s
  | .layer k => if (tabGet? s.layers k).isSome then (s.logLoss (srcOf 1 (k / 256)) 5 k).setLayers (tabDel s.layers k) else s
  | .expert id => match tabGet? s.exp.exact id with
    | some (.here e) => ((s.logLoss (srcOf 1 e.home) 5 id).removeExpert id e).1
    | some (.remote _) =>
      (s.logLoss (srcOf 3 s.needleDie) 5 id).setExp { s.exp with exact := tabDel s.exp.exact id, index := tabDel s.exp.index id }
    | none => s
  | .group no => match tabGet? s.coll no with
    | some g =>
      let s := (s.openColls g).foldl (fun s c => s.failColl no c .integrity [(g.lo, g.cnt)] false false)
        (s.logLoss (srcOf 3 g.home) 5 no)
      let s := s.giveBack no g
      s.setColl (tabDel s.coll no)
    | none => s
  | .pipe h => match s.shard? h with
    | some y => if y.st = .opened then (s.logLoss (srcOf 7 (16 + 4 * y.skein)) 6 h).tear h else s
    | none => s
  | .ladder slot => match tabGet? s.lad.bufs slot with
    | some b =>
      if b.sent then s
      else (s.logLoss (srcOf 7 (32 + slot / 2)) 6 slot).setLad { s.lad with bufs := tabPut s.lad.bufs slot { b with status := .integrity } }
    | none => s
  | .needle => s.fatal 0x1101 s.needle (7 * 2 ^ 48)
  | .replay _ _ | .word _ _ | .log _ _ => s

/-- Whether an uncorrectable word stays until what holds it is read: a frame in a replay buffer, a cached word, an entry of the log. -/
def State.siteStays (s : State) : UeSite → Bool
  | .replay lk lsn => (s.link lk).replay.any (·.lsn == lsn)
  | .word st k => (s.tile st).icache.contains (k / 8)
  | .log seq _ => decide (s.log.nextSeq ≤ seq + logSize)
  | _ => false

/-- Uncorrectable words of tables and working SRAM take effect (DESIGN CHOICE for when they are met: entry UPSETS). -/
def State.sweepSites (s : State) : State :=
  let l := s.integ.ueSites
  if l.isEmpty then s
  else (l.filter (fun x => !s.siteStays x)).foldl State.loseSite (s.setInteg { s.integ with ueSites := l.filter s.siteStays })

/-- The die that a die's pip replica is reloaded from (17 R475; DESIGN CHOICE: entry PIPCHECK), and the scope, unit and source of the reset
of Table 17-1: SKEIN for a Skein or DRAM die, every port of the die for a port die or photonic engine. -/
def pipHome (die : Nat) : Nat × Nat × Nat × Nat :=
  if die < 4 then (4 + (dieSkeins die).1, 4, die, srcOf 3 die)
  else if die < 8 then ((skeinDies (die - 4)).1, 2, die - 4, srcOf 1 (die - 4))
  else if die < 16 then (4 + (die - 8) / 2, 2, (die - 8) / 2, srcOf 1 ((die - 8) / 2))
  else (die - 16, 4, die - 16, srcOf 9 (die - 16))

/-- Each pip every replica of the pip counter is checked: one whose halves disagree is a critical-state error, and it is reloaded from an
adjacent die's; the time state stays (17 Table 17-1, R475). -/
def State.checkPips (s : State) : State :=
  if s.mismatch.isEmpty then s
  else (List.range 20).foldl (fun s die =>
    if s.torn rowPip die 0 then
      let h := pipHome die
      let s := s.critical rowPip die 0 h.2.1 h.2.2.1 h.2.2.2
      s.setTime { s.time with skews := tabPut s.time.skews die (tabGet s.time.skews 0 h.1) }
    else s) s

/-- One pip with no command waiting (DESIGN CHOICE: entry IDLE): core cycles are counted, the count goes on by one, barrier slots note
their excluded links, due commits apply, replicas of the count are checked, frames and entries lost to uncorrectable words go, slices that waited for a slot or a bridge flow on, and
commands whose frames have left end. -/
def State.nextPip (s : State) : State :=
  let s := s.busyClasses.foldl State.countBlocked s
  let s := [0, 1, 2, 3].foldl (fun s d => (s.countWaits d).countHeld d) s
  let s := (s.setTime { s.time with pip := s.time.pip + 1 }).noteBarred
  (((((s.applyDue s.cfg.commits.length).checkPips).dropFrameUes).sweepSites).flowAll).finishSent

end Sys2Proof.Machine
end

