-- ==== Sys2Proof/Machine/Step.lean ====
section
/-! DEFINITION. One step: the command at the front of the queue, or one pip of idling. -/

namespace Sys2Proof.Machine

open Sys2Proof

/-- Take the command at the front of the queue and give it its effect on the state with the queue's rest. With no
command waiting one pip passes (02 R36; DESIGN CHOICE: entry IDLE) and resets of errors that are due begin. -/
def step (s : State) : Host.Outcome State Fault Refusal :=
  match s.pending with
  | [] => .next s.nextPip.settle
  | i :: rest => exec i (s.setPending rest)

/-- The state with the command that a word spells put at the front of its queue; the state itself where the word
spells none. -/
def State.withFetchWord (s : State) (nbits w : Nat) : State :=
  match decodeTableWord nbits w with
  | none => s
  | some i => s.setPending (i :: s.pending)

end Sys2Proof.Machine
end

