-- ==== Sys2Proof/Laws/State.lean ====
section
/-! SUPPORT. One lemma for each field and each setter of the state. -/

namespace Sys2Proof.Machine

variable (s : State)

@[simp] theorem setSec_sec (x : SecSt) : (s.setSec x).sec = x := rfl
@[simp] theorem setSec_boot (x : SecSt) : (s.setSec x).boot = s.boot := rfl
@[simp] theorem setSec_pins (x : SecSt) : (s.setSec x).pins = s.pins := rfl
@[simp] theorem setSec_time (x : SecSt) : (s.setSec x).time = s.time := rfl
@[simp] theorem setSec_host (x : SecSt) : (s.setSec x).host = s.host := rfl
@[simp] theorem setSec_claims (x : SecSt) : (s.setSec x).claims = s.claims := rfl
@[simp] theorem setSec_cfg (x : SecSt) : (s.setSec x).cfg = s.cfg := rfl
@[simp] theorem setSec_log (x : SecSt) : (s.setSec x).log = s.log := rfl
@[simp] theorem setSec_side (x : SecSt) : (s.setSec x).side = s.side := rfl
@[simp] theorem setSec_links (x : SecSt) : (s.setSec x).links = s.links := rfl
@[simp] theorem setSec_buf (x : SecSt) : (s.setSec x).buf = s.buf := rfl
@[simp] theorem setSec_route (x : SecSt) : (s.setSec x).route = s.route := rfl
@[simp] theorem setSec_traf (x : SecSt) : (s.setSec x).traf = s.traf := rfl
@[simp] theorem setSec_tiles (x : SecSt) : (s.setSec x).tiles = s.tiles := rfl
@[simp] theorem setSec_descs (x : SecSt) : (s.setSec x).descs = s.descs := rfl
@[simp] theorem setSec_layers (x : SecSt) : (s.setSec x).layers = s.layers := rfl
@[simp] theorem setSec_pat (x : SecSt) : (s.setSec x).pat = s.pat := rfl
@[simp] theorem setSec_coll (x : SecSt) : (s.setSec x).coll = s.coll := rfl
@[simp] theorem setSec_exp (x : SecSt) : (s.setSec x).exp = s.exp := rfl
@[simp] theorem setSec_upd (x : SecSt) : (s.setSec x).upd = s.upd := rfl
@[simp] theorem setSec_lad (x : SecSt) : (s.setSec x).lad = s.lad := rfl
@[simp] theorem setSec_pwr (x : SecSt) : (s.setSec x).pwr = s.pwr := rfl
@[simp] theorem setSec_integ (x : SecSt) : (s.setSec x).integ = s.integ := rfl
@[simp] theorem setSec_mem (x : SecSt) : (s.setSec x).mem = s.mem := rfl
@[simp] theorem setSec_mismatch (x : SecSt) : (s.setSec x).mismatch = s.mismatch := rfl
@[simp] theorem setSec_ueWords (x : SecSt) : (s.setSec x).ueWords = s.ueWords := rfl
@[simp] theorem setSec_cnt (x : SecSt) : (s.setSec x).cnt = s.cnt := rfl
@[simp] theorem setSec_out (x : SecSt) : (s.setSec x).out = s.out := rfl
@[simp] theorem setSec_free (x : SecSt) : (s.setSec x).free = s.free := rfl
@[simp] theorem setSec_pending (x : SecSt) : (s.setSec x).pending = s.pending := rfl
@[simp] theorem setBoot_sec (x : BootSt) : (s.setBoot x).sec = s.sec := rfl
@[simp] theorem setBoot_boot (x : BootSt) : (s.setBoot x).boot = x := rfl
@[simp] theorem setBoot_pins (x : BootSt) : (s.setBoot x).pins = s.pins := rfl
@[simp] theorem setBoot_time (x : BootSt) : (s.setBoot x).time = s.time := rfl
@[simp] theorem setBoot_host (x : BootSt) : (s.setBoot x).host = s.host := rfl
@[simp] theorem setBoot_claims (x : BootSt) : (s.setBoot x).claims = s.claims := rfl
@[simp] theorem setBoot_cfg (x : BootSt) : (s.setBoot x).cfg = s.cfg := rfl
@[simp] theorem setBoot_log (x : BootSt) : (s.setBoot x).log = s.log := rfl
@[simp] theorem setBoot_side (x : BootSt) : (s.setBoot x).side = s.side := rfl
@[simp] theorem setBoot_links (x : BootSt) : (s.setBoot x).links = s.links := rfl
@[simp] theorem setBoot_buf (x : BootSt) : (s.setBoot x).buf = s.buf := rfl
@[simp] theorem setBoot_route (x : BootSt) : (s.setBoot x).route = s.route := rfl
@[simp] theorem setBoot_traf (x : BootSt) : (s.setBoot x).traf = s.traf := rfl
@[simp] theorem setBoot_tiles (x : BootSt) : (s.setBoot x).tiles = s.tiles := rfl
@[simp] theorem setBoot_descs (x : BootSt) : (s.setBoot x).descs = s.descs := rfl
@[simp] theorem setBoot_layers (x : BootSt) : (s.setBoot x).layers = s.layers := rfl
@[simp] theorem setBoot_pat (x : BootSt) : (s.setBoot x).pat = s.pat := rfl
@[simp] theorem setBoot_coll (x : BootSt) : (s.setBoot x).coll = s.coll := rfl
@[simp] theorem setBoot_exp (x : BootSt) : (s.setBoot x).exp = s.exp := rfl
@[simp] theorem setBoot_upd (x : BootSt) : (s.setBoot x).upd = s.upd := rfl
@[simp] theorem setBoot_lad (x : BootSt) : (s.setBoot x).lad = s.lad := rfl
@[simp] theorem setBoot_pwr (x : BootSt) : (s.setBoot x).pwr = s.pwr := rfl
@[simp] theorem setBoot_integ (x : BootSt) : (s.setBoot x).integ = s.integ := rfl
@[simp] theorem setBoot_mem (x : BootSt) : (s.setBoot x).mem = s.mem := rfl
@[simp] theorem setBoot_mismatch (x : BootSt) : (s.setBoot x).mismatch = s.mismatch := rfl
@[simp] theorem setBoot_ueWords (x : BootSt) : (s.setBoot x).ueWords = s.ueWords := rfl
@[simp] theorem setBoot_cnt (x : BootSt) : (s.setBoot x).cnt = s.cnt := rfl
@[simp] theorem setBoot_out (x : BootSt) : (s.setBoot x).out = s.out := rfl
@[simp] theorem setBoot_free (x : BootSt) : (s.setBoot x).free = s.free := rfl
@[simp] theorem setBoot_pending (x : BootSt) : (s.setBoot x).pending = s.pending := rfl
@[simp] theorem setPins_sec (x : PinSt) : (s.setPins x).sec = s.sec := rfl
@[simp] theorem setPins_boot (x : PinSt) : (s.setPins x).boot = s.boot := rfl
@[simp] theorem setPins_pins (x : PinSt) : (s.setPins x).pins = x := rfl
@[simp] theorem setPins_time (x : PinSt) : (s.setPins x).time = s.time := rfl
@[simp] theorem setPins_host (x : PinSt) : (s.setPins x).host = s.host := rfl
@[simp] theorem setPins_claims (x : PinSt) : (s.setPins x).claims = s.claims := rfl
@[simp] theorem setPins_cfg (x : PinSt) : (s.setPins x).cfg = s.cfg := rfl
@[simp] theorem setPins_log (x : PinSt) : (s.setPins x).log = s.log := rfl
@[simp] theorem setPins_side (x : PinSt) : (s.setPins x).side = s.side := rfl
@[simp] theorem setPins_links (x : PinSt) : (s.setPins x).links = s.links := rfl
@[simp] theorem setPins_buf (x : PinSt) : (s.setPins x).buf = s.buf := rfl
@[simp] theorem setPins_route (x : PinSt) : (s.setPins x).route = s.route := rfl
@[simp] theorem setPins_traf (x : PinSt) : (s.setPins x).traf = s.traf := rfl
@[simp] theorem setPins_tiles (x : PinSt) : (s.setPins x).tiles = s.tiles := rfl
@[simp] theorem setPins_descs (x : PinSt) : (s.setPins x).descs = s.descs := rfl
@[simp] theorem setPins_layers (x : PinSt) : (s.setPins x).layers = s.layers := rfl
@[simp] theorem setPins_pat (x : PinSt) : (s.setPins x).pat = s.pat := rfl
@[simp] theorem setPins_coll (x : PinSt) : (s.setPins x).coll = s.coll := rfl
@[simp] theorem setPins_exp (x : PinSt) : (s.setPins x).exp = s.exp := rfl
@[simp] theorem setPins_upd (x : PinSt) : (s.setPins x).upd = s.upd := rfl
@[simp] theorem setPins_lad (x : PinSt) : (s.setPins x).lad = s.lad := rfl
@[simp] theorem setPins_pwr (x : PinSt) : (s.setPins x).pwr = s.pwr := rfl
@[simp] theorem setPins_integ (x : PinSt) : (s.setPins x).integ = s.integ := rfl
@[simp] theorem setPins_mem (x : PinSt) : (s.setPins x).mem = s.mem := rfl
@[simp] theorem setPins_mismatch (x : PinSt) : (s.setPins x).mismatch = s.mismatch := rfl
@[simp] theorem setPins_ueWords (x : PinSt) : (s.setPins x).ueWords = s.ueWords := rfl
@[simp] theorem setPins_cnt (x : PinSt) : (s.setPins x).cnt = s.cnt := rfl
@[simp] theorem setPins_out (x : PinSt) : (s.setPins x).out = s.out := rfl
@[simp] theorem setPins_free (x : PinSt) : (s.setPins x).free = s.free := rfl
@[simp] theorem setPins_pending (x : PinSt) : (s.setPins x).pending = s.pending := rfl
@[simp] theorem setTime_sec (x : TimeSt) : (s.setTime x).sec = s.sec := rfl
@[simp] theorem setTime_boot (x : TimeSt) : (s.setTime x).boot = s.boot := rfl
@[simp] theorem setTime_pins (x : TimeSt) : (s.setTime x).pins = s.pins := rfl
@[simp] theorem setTime_time (x : TimeSt) : (s.setTime x).time = x := rfl
@[simp] theorem setTime_host (x : TimeSt) : (s.setTime x).host = s.host := rfl
@[simp] theorem setTime_claims (x : TimeSt) : (s.setTime x).claims = s.claims := rfl
@[simp] theorem setTime_cfg (x : TimeSt) : (s.setTime x).cfg = s.cfg := rfl
@[simp] theorem setTime_log (x : TimeSt) : (s.setTime x).log = s.log := rfl
@[simp] theorem setTime_side (x : TimeSt) : (s.setTime x).side = s.side := rfl
@[simp] theorem setTime_links (x : TimeSt) : (s.setTime x).links = s.links := rfl
@[simp] theorem setTime_buf (x : TimeSt) : (s.setTime x).buf = s.buf := rfl
@[simp] theorem setTime_route (x : TimeSt) : (s.setTime x).route = s.route := rfl
@[simp] theorem setTime_traf (x : TimeSt) : (s.setTime x).traf = s.traf := rfl
@[simp] theorem setTime_tiles (x : TimeSt) : (s.setTime x).tiles = s.tiles := rfl
@[simp] theorem setTime_descs (x : TimeSt) : (s.setTime x).descs = s.descs := rfl
@[simp] theorem setTime_layers (x : TimeSt) : (s.setTime x).layers = s.layers := rfl
@[simp] theorem setTime_pat (x : TimeSt) : (s.setTime x).pat = s.pat := rfl
@[simp] theorem setTime_coll (x : TimeSt) : (s.setTime x).coll = s.coll := rfl
@[simp] theorem setTime_exp (x : TimeSt) : (s.setTime x).exp = s.exp := rfl
@[simp] theorem setTime_upd (x : TimeSt) : (s.setTime x).upd = s.upd := rfl
@[simp] theorem setTime_lad (x : TimeSt) : (s.setTime x).lad = s.lad := rfl
@[simp] theorem setTime_pwr (x : TimeSt) : (s.setTime x).pwr = s.pwr := rfl
@[simp] theorem setTime_integ (x : TimeSt) : (s.setTime x).integ = s.integ := rfl
@[simp] theorem setTime_mem (x : TimeSt) : (s.setTime x).mem = s.mem := rfl
@[simp] theorem setTime_mismatch (x : TimeSt) : (s.setTime x).mismatch = s.mismatch := rfl
@[simp] theorem setTime_ueWords (x : TimeSt) : (s.setTime x).ueWords = s.ueWords := rfl
@[simp] theorem setTime_cnt (x : TimeSt) : (s.setTime x).cnt = s.cnt := rfl
@[simp] theorem setTime_out (x : TimeSt) : (s.setTime x).out = s.out := rfl
@[simp] theorem setTime_free (x : TimeSt) : (s.setTime x).free = s.free := rfl
@[simp] theorem setTime_pending (x : TimeSt) : (s.setTime x).pending = s.pending := rfl
@[simp] theorem setHost_sec (x : HostSt) : (s.setHost x).sec = s.sec := rfl
@[simp] theorem setHost_boot (x : HostSt) : (s.setHost x).boot = s.boot := rfl
@[simp] theorem setHost_pins (x : HostSt) : (s.setHost x).pins = s.pins := rfl
@[simp] theorem setHost_time (x : HostSt) : (s.setHost x).time = s.time := rfl
@[simp] theorem setHost_host (x : HostSt) : (s.setHost x).host = x := rfl
@[simp] theorem setHost_claims (x : HostSt) : (s.setHost x).claims = s.claims := rfl
@[simp] theorem setHost_cfg (x : HostSt) : (s.setHost x).cfg = s.cfg := rfl
@[simp] theorem setHost_log (x : HostSt) : (s.setHost x).log = s.log := rfl
@[simp] theorem setHost_side (x : HostSt) : (s.setHost x).side = s.side := rfl
@[simp] theorem setHost_links (x : HostSt) : (s.setHost x).links = s.links := rfl
@[simp] theorem setHost_buf (x : HostSt) : (s.setHost x).buf = s.buf := rfl
@[simp] theorem setHost_route (x : HostSt) : (s.setHost x).route = s.route := rfl
@[simp] theorem setHost_traf (x : HostSt) : (s.setHost x).traf = s.traf := rfl
@[simp] theorem setHost_tiles (x : HostSt) : (s.setHost x).tiles = s.tiles := rfl
@[simp] theorem setHost_descs (x : HostSt) : (s.setHost x).descs = s.descs := rfl
@[simp] theorem setHost_layers (x : HostSt) : (s.setHost x).layers = s.layers := rfl
@[simp] theorem setHost_pat (x : HostSt) : (s.setHost x).pat = s.pat := rfl
@[simp] theorem setHost_coll (x : HostSt) : (s.setHost x).coll = s.coll := rfl
@[simp] theorem setHost_exp (x : HostSt) : (s.setHost x).exp = s.exp := rfl
@[simp] theorem setHost_upd (x : HostSt) : (s.setHost x).upd = s.upd := rfl
@[simp] theorem setHost_lad (x : HostSt) : (s.setHost x).lad = s.lad := rfl
@[simp] theorem setHost_pwr (x : HostSt) : (s.setHost x).pwr = s.pwr := rfl
@[simp] theorem setHost_integ (x : HostSt) : (s.setHost x).integ = s.integ := rfl
@[simp] theorem setHost_mem (x : HostSt) : (s.setHost x).mem = s.mem := rfl
@[simp] theorem setHost_mismatch (x : HostSt) : (s.setHost x).mismatch = s.mismatch := rfl
@[simp] theorem setHost_ueWords (x : HostSt) : (s.setHost x).ueWords = s.ueWords := rfl
@[simp] theorem setHost_cnt (x : HostSt) : (s.setHost x).cnt = s.cnt := rfl
@[simp] theorem setHost_out (x : HostSt) : (s.setHost x).out = s.out := rfl
@[simp] theorem setHost_free (x : HostSt) : (s.setHost x).free = s.free := rfl
@[simp] theorem setHost_pending (x : HostSt) : (s.setHost x).pending = s.pending := rfl
@[simp] theorem setClaims_sec (x : Claims) : (s.setClaims x).sec = s.sec := rfl
@[simp] theorem setClaims_boot (x : Claims) : (s.setClaims x).boot = s.boot := rfl
@[simp] theorem setClaims_pins (x : Claims) : (s.setClaims x).pins = s.pins := rfl
@[simp] theorem setClaims_time (x : Claims) : (s.setClaims x).time = s.time := rfl
@[simp] theorem setClaims_host (x : Claims) : (s.setClaims x).host = s.host := rfl
@[simp] theorem setClaims_claims (x : Claims) : (s.setClaims x).claims = x := rfl
@[simp] theorem setClaims_cfg (x : Claims) : (s.setClaims x).cfg = s.cfg := rfl
@[simp] theorem setClaims_log (x : Claims) : (s.setClaims x).log = s.log := rfl
@[simp] theorem setClaims_side (x : Claims) : (s.setClaims x).side = s.side := rfl
@[simp] theorem setClaims_links (x : Claims) : (s.setClaims x).links = s.links := rfl
@[simp] theorem setClaims_buf (x : Claims) : (s.setClaims x).buf = s.buf := rfl
@[simp] theorem setClaims_route (x : Claims) : (s.setClaims x).route = s.route := rfl
@[simp] theorem setClaims_traf (x : Claims) : (s.setClaims x).traf = s.traf := rfl
@[simp] theorem setClaims_tiles (x : Claims) : (s.setClaims x).tiles = s.tiles := rfl
@[simp] theorem setClaims_descs (x : Claims) : (s.setClaims x).descs = s.descs := rfl
@[simp] theorem setClaims_layers (x : Claims) : (s.setClaims x).layers = s.layers := rfl
@[simp] theorem setClaims_pat (x : Claims) : (s.setClaims x).pat = s.pat := rfl
@[simp] theorem setClaims_coll (x : Claims) : (s.setClaims x).coll = s.coll := rfl
@[simp] theorem setClaims_exp (x : Claims) : (s.setClaims x).exp = s.exp := rfl
@[simp] theorem setClaims_upd (x : Claims) : (s.setClaims x).upd = s.upd := rfl
@[simp] theorem setClaims_lad (x : Claims) : (s.setClaims x).lad = s.lad := rfl
@[simp] theorem setClaims_pwr (x : Claims) : (s.setClaims x).pwr = s.pwr := rfl
@[simp] theorem setClaims_integ (x : Claims) : (s.setClaims x).integ = s.integ := rfl
@[simp] theorem setClaims_mem (x : Claims) : (s.setClaims x).mem = s.mem := rfl
@[simp] theorem setClaims_mismatch (x : Claims) : (s.setClaims x).mismatch = s.mismatch := rfl
@[simp] theorem setClaims_ueWords (x : Claims) : (s.setClaims x).ueWords = s.ueWords := rfl
@[simp] theorem setClaims_cnt (x : Claims) : (s.setClaims x).cnt = s.cnt := rfl
@[simp] theorem setClaims_out (x : Claims) : (s.setClaims x).out = s.out := rfl
@[simp] theorem setClaims_free (x : Claims) : (s.setClaims x).free = s.free := rfl
@[simp] theorem setClaims_pending (x : Claims) : (s.setClaims x).pending = s.pending := rfl
@[simp] theorem setCfg_sec (x : CfgSt) : (s.setCfg x).sec = s.sec := rfl
@[simp] theorem setCfg_boot (x : CfgSt) : (s.setCfg x).boot = s.boot := rfl
@[simp] theorem setCfg_pins (x : CfgSt) : (s.setCfg x).pins = s.pins := rfl
@[simp] theorem setCfg_time (x : CfgSt) : (s.setCfg x).time = s.time := rfl
@[simp] theorem setCfg_host (x : CfgSt) : (s.setCfg x).host = s.host := rfl
@[simp] theorem setCfg_claims (x : CfgSt) : (s.setCfg x).claims = s.claims := rfl
@[simp] theorem setCfg_cfg (x : CfgSt) : (s.setCfg x).cfg = x := rfl
@[simp] theorem setCfg_log (x : CfgSt) : (s.setCfg x).log = s.log := rfl
@[simp] theorem setCfg_side (x : CfgSt) : (s.setCfg x).side = s.side := rfl
@[simp] theorem setCfg_links (x : CfgSt) : (s.setCfg x).links = s.links := rfl
@[simp] theorem setCfg_buf (x : CfgSt) : (s.setCfg x).buf = s.buf := rfl
@[simp] theorem setCfg_route (x : CfgSt) : (s.setCfg x).route = s.route := rfl
@[simp] theorem setCfg_traf (x : CfgSt) : (s.setCfg x).traf = s.traf := rfl
@[simp] theorem setCfg_tiles (x : CfgSt) : (s.setCfg x).tiles = s.tiles := rfl
@[simp] theorem setCfg_descs (x : CfgSt) : (s.setCfg x).descs = s.descs := rfl
@[simp] theorem setCfg_layers (x : CfgSt) : (s.setCfg x).layers = s.layers := rfl
@[simp] theorem setCfg_pat (x : CfgSt) : (s.setCfg x).pat = s.pat := rfl
@[simp] theorem setCfg_coll (x : CfgSt) : (s.setCfg x).coll = s.coll := rfl
@[simp] theorem setCfg_exp (x : CfgSt) : (s.setCfg x).exp = s.exp := rfl
@[simp] theorem setCfg_upd (x : CfgSt) : (s.setCfg x).upd = s.upd := rfl
@[simp] theorem setCfg_lad (x : CfgSt) : (s.setCfg x).lad = s.lad := rfl
@[simp] theorem setCfg_pwr (x : CfgSt) : (s.setCfg x).pwr = s.pwr := rfl
@[simp] theorem setCfg_integ (x : CfgSt) : (s.setCfg x).integ = s.integ := rfl
@[simp] theorem setCfg_mem (x : CfgSt) : (s.setCfg x).mem = s.mem := rfl
@[simp] theorem setCfg_mismatch (x : CfgSt) : (s.setCfg x).mismatch = s.mismatch := rfl
@[simp] theorem setCfg_ueWords (x : CfgSt) : (s.setCfg x).ueWords = s.ueWords := rfl
@[simp] theorem setCfg_cnt (x : CfgSt) : (s.setCfg x).cnt = s.cnt := rfl
@[simp] theorem setCfg_out (x : CfgSt) : (s.setCfg x).out = s.out := rfl
@[simp] theorem setCfg_free (x : CfgSt) : (s.setCfg x).free = s.free := rfl
@[simp] theorem setCfg_pending (x : CfgSt) : (s.setCfg x).pending = s.pending := rfl
@[simp] theorem setLog_sec (x : LogSt) : (s.setLog x).sec = s.sec := rfl
@[simp] theorem setLog_boot (x : LogSt) : (s.setLog x).boot = s.boot := rfl
@[simp] theorem setLog_pins (x : LogSt) : (s.setLog x).pins = s.pins := rfl
@[simp] theorem setLog_time (x : LogSt) : (s.setLog x).time = s.time := rfl
@[simp] theorem setLog_host (x : LogSt) : (s.setLog x).host = s.host := rfl
@[simp] theorem setLog_claims (x : LogSt) : (s.setLog x).claims = s.claims := rfl
@[simp] theorem setLog_cfg (x : LogSt) : (s.setLog x).cfg = s.cfg := rfl
@[simp] theorem setLog_log (x : LogSt) : (s.setLog x).log = x := rfl
@[simp] theorem setLog_side (x : LogSt) : (s.setLog x).side = s.side := rfl
@[simp] theorem setLog_links (x : LogSt) : (s.setLog x).links = s.links := rfl
@[simp] theorem setLog_buf (x : LogSt) : (s.setLog x).buf = s.buf := rfl
@[simp] theorem setLog_route (x : LogSt) : (s.setLog x).route = s.route := rfl
@[simp] theorem setLog_traf (x : LogSt) : (s.setLog x).traf = s.traf := rfl
@[simp] theorem setLog_tiles (x : LogSt) : (s.setLog x).tiles = s.tiles := rfl
@[simp] theorem setLog_descs (x : LogSt) : (s.setLog x).descs = s.descs := rfl
@[simp] theorem setLog_layers (x : LogSt) : (s.setLog x).layers = s.layers := rfl
@[simp] theorem setLog_pat (x : LogSt) : (s.setLog x).pat = s.pat := rfl
@[simp] theorem setLog_coll (x : LogSt) : (s.setLog x).coll = s.coll := rfl
@[simp] theorem setLog_exp (x : LogSt) : (s.setLog x).exp = s.exp := rfl
@[simp] theorem setLog_upd (x : LogSt) : (s.setLog x).upd = s.upd := rfl
@[simp] theorem setLog_lad (x : LogSt) : (s.setLog x).lad = s.lad := rfl
@[simp] theorem setLog_pwr (x : LogSt) : (s.setLog x).pwr = s.pwr := rfl
@[simp] theorem setLog_integ (x : LogSt) : (s.setLog x).integ = s.integ := rfl
@[simp] theorem setLog_mem (x : LogSt) : (s.setLog x).mem = s.mem := rfl
@[simp] theorem setLog_mismatch (x : LogSt) : (s.setLog x).mismatch = s.mismatch := rfl
@[simp] theorem setLog_ueWords (x : LogSt) : (s.setLog x).ueWords = s.ueWords := rfl
@[simp] theorem setLog_cnt (x : LogSt) : (s.setLog x).cnt = s.cnt := rfl
@[simp] theorem setLog_out (x : LogSt) : (s.setLog x).out = s.out := rfl
@[simp] theorem setLog_free (x : LogSt) : (s.setLog x).free = s.free := rfl
@[simp] theorem setLog_pending (x : LogSt) : (s.setLog x).pending = s.pending := rfl
@[simp] theorem setSide_sec (x : SideSt) : (s.setSide x).sec = s.sec := rfl
@[simp] theorem setSide_boot (x : SideSt) : (s.setSide x).boot = s.boot := rfl
@[simp] theorem setSide_pins (x : SideSt) : (s.setSide x).pins = s.pins := rfl
@[simp] theorem setSide_time (x : SideSt) : (s.setSide x).time = s.time := rfl
@[simp] theorem setSide_host (x : SideSt) : (s.setSide x).host = s.host := rfl
@[simp] theorem setSide_claims (x : SideSt) : (s.setSide x).claims = s.claims := rfl
@[simp] theorem setSide_cfg (x : SideSt) : (s.setSide x).cfg = s.cfg := rfl
@[simp] theorem setSide_log (x : SideSt) : (s.setSide x).log = s.log := rfl
@[simp] theorem setSide_side (x : SideSt) : (s.setSide x).side = x := rfl
@[simp] theorem setSide_links (x : SideSt) : (s.setSide x).links = s.links := rfl
@[simp] theorem setSide_buf (x : SideSt) : (s.setSide x).buf = s.buf := rfl
@[simp] theorem setSide_route (x : SideSt) : (s.setSide x).route = s.route := rfl
@[simp] theorem setSide_traf (x : SideSt) : (s.setSide x).traf = s.traf := rfl
@[simp] theorem setSide_tiles (x : SideSt) : (s.setSide x).tiles = s.tiles := rfl
@[simp] theorem setSide_descs (x : SideSt) : (s.setSide x).descs = s.descs := rfl
@[simp] theorem setSide_layers (x : SideSt) : (s.setSide x).layers = s.layers := rfl
@[simp] theorem setSide_pat (x : SideSt) : (s.setSide x).pat = s.pat := rfl
@[simp] theorem setSide_coll (x : SideSt) : (s.setSide x).coll = s.coll := rfl
@[simp] theorem setSide_exp (x : SideSt) : (s.setSide x).exp = s.exp := rfl
@[simp] theorem setSide_upd (x : SideSt) : (s.setSide x).upd = s.upd := rfl
@[simp] theorem setSide_lad (x : SideSt) : (s.setSide x).lad = s.lad := rfl
@[simp] theorem setSide_pwr (x : SideSt) : (s.setSide x).pwr = s.pwr := rfl
@[simp] theorem setSide_integ (x : SideSt) : (s.setSide x).integ = s.integ := rfl
@[simp] theorem setSide_mem (x : SideSt) : (s.setSide x).mem = s.mem := rfl
@[simp] theorem setSide_mismatch (x : SideSt) : (s.setSide x).mismatch = s.mismatch := rfl
@[simp] theorem setSide_ueWords (x : SideSt) : (s.setSide x).ueWords = s.ueWords := rfl
@[simp] theorem setSide_cnt (x : SideSt) : (s.setSide x).cnt = s.cnt := rfl
@[simp] theorem setSide_out (x : SideSt) : (s.setSide x).out = s.out := rfl
@[simp] theorem setSide_free (x : SideSt) : (s.setSide x).free = s.free := rfl
@[simp] theorem setSide_pending (x : SideSt) : (s.setSide x).pending = s.pending := rfl
@[simp] theorem setLinks_sec (x : Tab Link) : (s.setLinks x).sec = s.sec := rfl
@[simp] theorem setLinks_boot (x : Tab Link) : (s.setLinks x).boot = s.boot := rfl
@[simp] theorem setLinks_pins (x : Tab Link) : (s.setLinks x).pins = s.pins := rfl
@[simp] theorem setLinks_time (x : Tab Link) : (s.setLinks x).time = s.time := rfl
@[simp] theorem setLinks_host (x : Tab Link) : (s.setLinks x).host = s.host := rfl
@[simp] theorem setLinks_claims (x : Tab Link) : (s.setLinks x).claims = s.claims := rfl
@[simp] theorem setLinks_cfg (x : Tab Link) : (s.setLinks x).cfg = s.cfg := rfl
@[simp] theorem setLinks_log (x : Tab Link) : (s.setLinks x).log = s.log := rfl
@[simp] theorem setLinks_side (x : Tab Link) : (s.setLinks x).side = s.side := rfl
@[simp] theorem setLinks_links (x : Tab Link) : (s.setLinks x).links = x := rfl
@[simp] theorem setLinks_buf (x : Tab Link) : (s.setLinks x).buf = s.buf := rfl
@[simp] theorem setLinks_route (x : Tab Link) : (s.setLinks x).route = s.route := rfl
@[simp] theorem setLinks_traf (x : Tab Link) : (s.setLinks x).traf = s.traf := rfl
@[simp] theorem setLinks_tiles (x : Tab Link) : (s.setLinks x).tiles = s.tiles := rfl
@[simp] theorem setLinks_descs (x : Tab Link) : (s.setLinks x).descs = s.descs := rfl
@[simp] theorem setLinks_layers (x : Tab Link) : (s.setLinks x).layers = s.layers := rfl
@[simp] theorem setLinks_pat (x : Tab Link) : (s.setLinks x).pat = s.pat := rfl
@[simp] theorem setLinks_coll (x : Tab Link) : (s.setLinks x).coll = s.coll := rfl
@[simp] theorem setLinks_exp (x : Tab Link) : (s.setLinks x).exp = s.exp := rfl
@[simp] theorem setLinks_upd (x : Tab Link) : (s.setLinks x).upd = s.upd := rfl
@[simp] theorem setLinks_lad (x : Tab Link) : (s.setLinks x).lad = s.lad := rfl
@[simp] theorem setLinks_pwr (x : Tab Link) : (s.setLinks x).pwr = s.pwr := rfl
@[simp] theorem setLinks_integ (x : Tab Link) : (s.setLinks x).integ = s.integ := rfl
@[simp] theorem setLinks_mem (x : Tab Link) : (s.setLinks x).mem = s.mem := rfl
@[simp] theorem setLinks_mismatch (x : Tab Link) : (s.setLinks x).mismatch = s.mismatch := rfl
@[simp] theorem setLinks_ueWords (x : Tab Link) : (s.setLinks x).ueWords = s.ueWords := rfl
@[simp] theorem setLinks_cnt (x : Tab Link) : (s.setLinks x).cnt = s.cnt := rfl
@[simp] theorem setLinks_out (x : Tab Link) : (s.setLinks x).out = s.out := rfl
@[simp] theorem setLinks_free (x : Tab Link) : (s.setLinks x).free = s.free := rfl
@[simp] theorem setLinks_pending (x : Tab Link) : (s.setLinks x).pending = s.pending := rfl
@[simp] theorem setBuf_sec (x : BufSt) : (s.setBuf x).sec = s.sec := rfl
@[simp] theorem setBuf_boot (x : BufSt) : (s.setBuf x).boot = s.boot := rfl
@[simp] theorem setBuf_pins (x : BufSt) : (s.setBuf x).pins = s.pins := rfl
@[simp] theorem setBuf_time (x : BufSt) : (s.setBuf x).time = s.time := rfl
@[simp] theorem setBuf_host (x : BufSt) : (s.setBuf x).host = s.host := rfl
@[simp] theorem setBuf_claims (x : BufSt) : (s.setBuf x).claims = s.claims := rfl
@[simp] theorem setBuf_cfg (x : BufSt) : (s.setBuf x).cfg = s.cfg := rfl
@[simp] theorem setBuf_log (x : BufSt) : (s.setBuf x).log = s.log := rfl
@[simp] theorem setBuf_side (x : BufSt) : (s.setBuf x).side = s.side := rfl
@[simp] theorem setBuf_links (x : BufSt) : (s.setBuf x).links = s.links := rfl
@[simp] theorem setBuf_buf (x : BufSt) : (s.setBuf x).buf = x := rfl
@[simp] theorem setBuf_route (x : BufSt) : (s.setBuf x).route = s.route := rfl
@[simp] theorem setBuf_traf (x : BufSt) : (s.setBuf x).traf = s.traf := rfl
@[simp] theorem setBuf_tiles (x : BufSt) : (s.setBuf x).tiles = s.tiles := rfl
@[simp] theorem setBuf_descs (x : BufSt) : (s.setBuf x).descs = s.descs := rfl
@[simp] theorem setBuf_layers (x : BufSt) : (s.setBuf x).layers = s.layers := rfl
@[simp] theorem setBuf_pat (x : BufSt) : (s.setBuf x).pat = s.pat := rfl
@[simp] theorem setBuf_coll (x : BufSt) : (s.setBuf x).coll = s.coll := rfl
@[simp] theorem setBuf_exp (x : BufSt) : (s.setBuf x).exp = s.exp := rfl
@[simp] theorem setBuf_upd (x : BufSt) : (s.setBuf x).upd = s.upd := rfl
@[simp] theorem setBuf_lad (x : BufSt) : (s.setBuf x).lad = s.lad := rfl
@[simp] theorem setBuf_pwr (x : BufSt) : (s.setBuf x).pwr = s.pwr := rfl
@[simp] theorem setBuf_integ (x : BufSt) : (s.setBuf x).integ = s.integ := rfl
@[simp] theorem setBuf_mem (x : BufSt) : (s.setBuf x).mem = s.mem := rfl
@[simp] theorem setBuf_mismatch (x : BufSt) : (s.setBuf x).mismatch = s.mismatch := rfl
@[simp] theorem setBuf_ueWords (x : BufSt) : (s.setBuf x).ueWords = s.ueWords := rfl
@[simp] theorem setBuf_cnt (x : BufSt) : (s.setBuf x).cnt = s.cnt := rfl
@[simp] theorem setBuf_out (x : BufSt) : (s.setBuf x).out = s.out := rfl
@[simp] theorem setBuf_free (x : BufSt) : (s.setBuf x).free = s.free := rfl
@[simp] theorem setBuf_pending (x : BufSt) : (s.setBuf x).pending = s.pending := rfl
@[simp] theorem setRoute_sec (x : RouteSt) : (s.setRoute x).sec = s.sec := rfl
@[simp] theorem setRoute_boot (x : RouteSt) : (s.setRoute x).boot = s.boot := rfl
@[simp] theorem setRoute_pins (x : RouteSt) : (s.setRoute x).pins = s.pins := rfl
@[simp] theorem setRoute_time (x : RouteSt) : (s.setRoute x).time = s.time := rfl
@[simp] theorem setRoute_host (x : RouteSt) : (s.setRoute x).host = s.host := rfl
@[simp] theorem setRoute_claims (x : RouteSt) : (s.setRoute x).claims = s.claims := rfl
@[simp] theorem setRoute_cfg (x : RouteSt) : (s.setRoute x).cfg = s.cfg := rfl
@[simp] theorem setRoute_log (x : RouteSt) : (s.setRoute x).log = s.log := rfl
@[simp] theorem setRoute_side (x : RouteSt) : (s.setRoute x).side = s.side := rfl
@[simp] theorem setRoute_links (x : RouteSt) : (s.setRoute x).links = s.links := rfl
@[simp] theorem setRoute_buf (x : RouteSt) : (s.setRoute x).buf = s.buf := rfl
@[simp] theorem setRoute_route (x : RouteSt) : (s.setRoute x).route = x := rfl
@[simp] theorem setRoute_traf (x : RouteSt) : (s.setRoute x).traf = s.traf := rfl
@[simp] theorem setRoute_tiles (x : RouteSt) : (s.setRoute x).tiles = s.tiles := rfl
@[simp] theorem setRoute_descs (x : RouteSt) : (s.setRoute x).descs = s.descs := rfl
@[simp] theorem setRoute_layers (x : RouteSt) : (s.setRoute x).layers = s.layers := rfl
@[simp] theorem setRoute_pat (x : RouteSt) : (s.setRoute x).pat = s.pat := rfl
@[simp] theorem setRoute_coll (x : RouteSt) : (s.setRoute x).coll = s.coll := rfl
@[simp] theorem setRoute_exp (x : RouteSt) : (s.setRoute x).exp = s.exp := rfl
@[simp] theorem setRoute_upd (x : RouteSt) : (s.setRoute x).upd = s.upd := rfl
@[simp] theorem setRoute_lad (x : RouteSt) : (s.setRoute x).lad = s.lad := rfl
@[simp] theorem setRoute_pwr (x : RouteSt) : (s.setRoute x).pwr = s.pwr := rfl
@[simp] theorem setRoute_integ (x : RouteSt) : (s.setRoute x).integ = s.integ := rfl
@[simp] theorem setRoute_mem (x : RouteSt) : (s.setRoute x).mem = s.mem := rfl
@[simp] theorem setRoute_mismatch (x : RouteSt) : (s.setRoute x).mismatch = s.mismatch := rfl
@[simp] theorem setRoute_ueWords (x : RouteSt) : (s.setRoute x).ueWords = s.ueWords := rfl
@[simp] theorem setRoute_cnt (x : RouteSt) : (s.setRoute x).cnt = s.cnt := rfl
@[simp] theorem setRoute_out (x : RouteSt) : (s.setRoute x).out = s.out := rfl
@[simp] theorem setRoute_free (x : RouteSt) : (s.setRoute x).free = s.free := rfl
@[simp] theorem setRoute_pending (x : RouteSt) : (s.setRoute x).pending = s.pending := rfl
@[simp] theorem setTraf_sec (x : TrafSt) : (s.setTraf x).sec = s.sec := rfl
@[simp] theorem setTraf_boot (x : TrafSt) : (s.setTraf x).boot = s.boot := rfl
@[simp] theorem setTraf_pins (x : TrafSt) : (s.setTraf x).pins = s.pins := rfl
@[simp] theorem setTraf_time (x : TrafSt) : (s.setTraf x).time = s.time := rfl
@[simp] theorem setTraf_host (x : TrafSt) : (s.setTraf x).host = s.host := rfl
@[simp] theorem setTraf_claims (x : TrafSt) : (s.setTraf x).claims = s.claims := rfl
@[simp] theorem setTraf_cfg (x : TrafSt) : (s.setTraf x).cfg = s.cfg := rfl
@[simp] theorem setTraf_log (x : TrafSt) : (s.setTraf x).log = s.log := rfl
@[simp] theorem setTraf_side (x : TrafSt) : (s.setTraf x).side = s.side := rfl
@[simp] theorem setTraf_links (x : TrafSt) : (s.setTraf x).links = s.links := rfl
@[simp] theorem setTraf_buf (x : TrafSt) : (s.setTraf x).buf = s.buf := rfl
@[simp] theorem setTraf_route (x : TrafSt) : (s.setTraf x).route = s.route := rfl
@[simp] theorem setTraf_traf (x : TrafSt) : (s.setTraf x).traf = x := rfl
@[simp] theorem setTraf_tiles (x : TrafSt) : (s.setTraf x).tiles = s.tiles := rfl
@[simp] theorem setTraf_descs (x : TrafSt) : (s.setTraf x).descs = s.descs := rfl
@[simp] theorem setTraf_layers (x : TrafSt) : (s.setTraf x).layers = s.layers := rfl
@[simp] theorem setTraf_pat (x : TrafSt) : (s.setTraf x).pat = s.pat := rfl
@[simp] theorem setTraf_coll (x : TrafSt) : (s.setTraf x).coll = s.coll := rfl
@[simp] theorem setTraf_exp (x : TrafSt) : (s.setTraf x).exp = s.exp := rfl
@[simp] theorem setTraf_upd (x : TrafSt) : (s.setTraf x).upd = s.upd := rfl
@[simp] theorem setTraf_lad (x : TrafSt) : (s.setTraf x).lad = s.lad := rfl
@[simp] theorem setTraf_pwr (x : TrafSt) : (s.setTraf x).pwr = s.pwr := rfl
@[simp] theorem setTraf_integ (x : TrafSt) : (s.setTraf x).integ = s.integ := rfl
@[simp] theorem setTraf_mem (x : TrafSt) : (s.setTraf x).mem = s.mem := rfl
@[simp] theorem setTraf_mismatch (x : TrafSt) : (s.setTraf x).mismatch = s.mismatch := rfl
@[simp] theorem setTraf_ueWords (x : TrafSt) : (s.setTraf x).ueWords = s.ueWords := rfl
@[simp] theorem setTraf_cnt (x : TrafSt) : (s.setTraf x).cnt = s.cnt := rfl
@[simp] theorem setTraf_out (x : TrafSt) : (s.setTraf x).out = s.out := rfl
@[simp] theorem setTraf_free (x : TrafSt) : (s.setTraf x).free = s.free := rfl
@[simp] theorem setTraf_pending (x : TrafSt) : (s.setTraf x).pending = s.pending := rfl
@[simp] theorem setTiles_sec (x : Tab Stitch) : (s.setTiles x).sec = s.sec := rfl
@[simp] theorem setTiles_boot (x : Tab Stitch) : (s.setTiles x).boot = s.boot := rfl
@[simp] theorem setTiles_pins (x : Tab Stitch) : (s.setTiles x).pins = s.pins := rfl
@[simp] theorem setTiles_time (x : Tab Stitch) : (s.setTiles x).time = s.time := rfl
@[simp] theorem setTiles_host (x : Tab Stitch) : (s.setTiles x).host = s.host := rfl
@[simp] theorem setTiles_claims (x : Tab Stitch) : (s.setTiles x).claims = s.claims := rfl
@[simp] theorem setTiles_cfg (x : Tab Stitch) : (s.setTiles x).cfg = s.cfg := rfl
@[simp] theorem setTiles_log (x : Tab Stitch) : (s.setTiles x).log = s.log := rfl
@[simp] theorem setTiles_side (x : Tab Stitch) : (s.setTiles x).side = s.side := rfl
@[simp] theorem setTiles_links (x : Tab Stitch) : (s.setTiles x).links = s.links := rfl
@[simp] theorem setTiles_buf (x : Tab Stitch) : (s.setTiles x).buf = s.buf := rfl
@[simp] theorem setTiles_route (x : Tab Stitch) : (s.setTiles x).route = s.route := rfl
@[simp] theorem setTiles_traf (x : Tab Stitch) : (s.setTiles x).traf = s.traf := rfl
@[simp] theorem setTiles_tiles (x : Tab Stitch) : (s.setTiles x).tiles = x := rfl
@[simp] theorem setTiles_descs (x : Tab Stitch) : (s.setTiles x).descs = s.descs := rfl
@[simp] theorem setTiles_layers (x : Tab Stitch) : (s.setTiles x).layers = s.layers := rfl
@[simp] theorem setTiles_pat (x : Tab Stitch) : (s.setTiles x).pat = s.pat := rfl
@[simp] theorem setTiles_coll (x : Tab Stitch) : (s.setTiles x).coll = s.coll := rfl
@[simp] theorem setTiles_exp (x : Tab Stitch) : (s.setTiles x).exp = s.exp := rfl
@[simp] theorem setTiles_upd (x : Tab Stitch) : (s.setTiles x).upd = s.upd := rfl
@[simp] theorem setTiles_lad (x : Tab Stitch) : (s.setTiles x).lad = s.lad := rfl
@[simp] theorem setTiles_pwr (x : Tab Stitch) : (s.setTiles x).pwr = s.pwr := rfl
@[simp] theorem setTiles_integ (x : Tab Stitch) : (s.setTiles x).integ = s.integ := rfl
@[simp] theorem setTiles_mem (x : Tab Stitch) : (s.setTiles x).mem = s.mem := rfl
@[simp] theorem setTiles_mismatch (x : Tab Stitch) : (s.setTiles x).mismatch = s.mismatch := rfl
@[simp] theorem setTiles_ueWords (x : Tab Stitch) : (s.setTiles x).ueWords = s.ueWords := rfl
@[simp] theorem setTiles_cnt (x : Tab Stitch) : (s.setTiles x).cnt = s.cnt := rfl
@[simp] theorem setTiles_out (x : Tab Stitch) : (s.setTiles x).out = s.out := rfl
@[simp] theorem setTiles_free (x : Tab Stitch) : (s.setTiles x).free = s.free := rfl
@[simp] theorem setTiles_pending (x : Tab Stitch) : (s.setTiles x).pending = s.pending := rfl
@[simp] theorem setDescs_sec (x : Tab DescEntry) : (s.setDescs x).sec = s.sec := rfl
@[simp] theorem setDescs_boot (x : Tab DescEntry) : (s.setDescs x).boot = s.boot := rfl
@[simp] theorem setDescs_pins (x : Tab DescEntry) : (s.setDescs x).pins = s.pins := rfl
@[simp] theorem setDescs_time (x : Tab DescEntry) : (s.setDescs x).time = s.time := rfl
@[simp] theorem setDescs_host (x : Tab DescEntry) : (s.setDescs x).host = s.host := rfl
@[simp] theorem setDescs_claims (x : Tab DescEntry) : (s.setDescs x).claims = s.claims := rfl
@[simp] theorem setDescs_cfg (x : Tab DescEntry) : (s.setDescs x).cfg = s.cfg := rfl
@[simp] theorem setDescs_log (x : Tab DescEntry) : (s.setDescs x).log = s.log := rfl
@[simp] theorem setDescs_side (x : Tab DescEntry) : (s.setDescs x).side = s.side := rfl
@[simp] theorem setDescs_links (x : Tab DescEntry) : (s.setDescs x).links = s.links := rfl
@[simp] theorem setDescs_buf (x : Tab DescEntry) : (s.setDescs x).buf = s.buf := rfl
@[simp] theorem setDescs_route (x : Tab DescEntry) : (s.setDescs x).route = s.route := rfl
@[simp] theorem setDescs_traf (x : Tab DescEntry) : (s.setDescs x).traf = s.traf := rfl
@[simp] theorem setDescs_tiles (x : Tab DescEntry) : (s.setDescs x).tiles = s.tiles := rfl
@[simp] theorem setDescs_descs (x : Tab DescEntry) : (s.setDescs x).descs = x := rfl
@[simp] theorem setDescs_layers (x : Tab DescEntry) : (s.setDescs x).layers = s.layers := rfl
@[simp] theorem setDescs_pat (x : Tab DescEntry) : (s.setDescs x).pat = s.pat := rfl
@[simp] theorem setDescs_coll (x : Tab DescEntry) : (s.setDescs x).coll = s.coll := rfl
@[simp] theorem setDescs_exp (x : Tab DescEntry) : (s.setDescs x).exp = s.exp := rfl
@[simp] theorem setDescs_upd (x : Tab DescEntry) : (s.setDescs x).upd = s.upd := rfl
@[simp] theorem setDescs_lad (x : Tab DescEntry) : (s.setDescs x).lad = s.lad := rfl
@[simp] theorem setDescs_pwr (x : Tab DescEntry) : (s.setDescs x).pwr = s.pwr := rfl
@[simp] theorem setDescs_integ (x : Tab DescEntry) : (s.setDescs x).integ = s.integ := rfl
@[simp] theorem setDescs_mem (x : Tab DescEntry) : (s.setDescs x).mem = s.mem := rfl
@[simp] theorem setDescs_mismatch (x : Tab DescEntry) : (s.setDescs x).mismatch = s.mismatch := rfl
@[simp] theorem setDescs_ueWords (x : Tab DescEntry) : (s.setDescs x).ueWords = s.ueWords := rfl
@[simp] theorem setDescs_cnt (x : Tab DescEntry) : (s.setDescs x).cnt = s.cnt := rfl
@[simp] theorem setDescs_out (x : Tab DescEntry) : (s.setDescs x).out = s.out := rfl
@[simp] theorem setDescs_free (x : Tab DescEntry) : (s.setDescs x).free = s.free := rfl
@[simp] theorem setDescs_pending (x : Tab DescEntry) : (s.setDescs x).pending = s.pending := rfl
@[simp] theorem setLayers_sec (x : Tab LayerEntry) : (s.setLayers x).sec = s.sec := rfl
@[simp] theorem setLayers_boot (x : Tab LayerEntry) : (s.setLayers x).boot = s.boot := rfl
@[simp] theorem setLayers_pins (x : Tab LayerEntry) : (s.setLayers x).pins = s.pins := rfl
@[simp] theorem setLayers_time (x : Tab LayerEntry) : (s.setLayers x).time = s.time := rfl
@[simp] theorem setLayers_host (x : Tab LayerEntry) : (s.setLayers x).host = s.host := rfl
@[simp] theorem setLayers_claims (x : Tab LayerEntry) : (s.setLayers x).claims = s.claims := rfl
@[simp] theorem setLayers_cfg (x : Tab LayerEntry) : (s.setLayers x).cfg = s.cfg := rfl
@[simp] theorem setLayers_log (x : Tab LayerEntry) : (s.setLayers x).log = s.log := rfl
@[simp] theorem setLayers_side (x : Tab LayerEntry) : (s.setLayers x).side = s.side := rfl
@[simp] theorem setLayers_links (x : Tab LayerEntry) : (s.setLayers x).links = s.links := rfl
@[simp] theorem setLayers_buf (x : Tab LayerEntry) : (s.setLayers x).buf = s.buf := rfl
@[simp] theorem setLayers_route (x : Tab LayerEntry) : (s.setLayers x).route = s.route := rfl
@[simp] theorem setLayers_traf (x : Tab LayerEntry) : (s.setLayers x).traf = s.traf := rfl
@[simp] theorem setLayers_tiles (x : Tab LayerEntry) : (s.setLayers x).tiles = s.tiles := rfl
@[simp] theorem setLayers_descs (x : Tab LayerEntry) : (s.setLayers x).descs = s.descs := rfl
@[simp] theorem setLayers_layers (x : Tab LayerEntry) : (s.setLayers x).layers = x := rfl
@[simp] theorem setLayers_pat (x : Tab LayerEntry) : (s.setLayers x).pat = s.pat := rfl
@[simp] theorem setLayers_coll (x : Tab LayerEntry) : (s.setLayers x).coll = s.coll := rfl
@[simp] theorem setLayers_exp (x : Tab LayerEntry) : (s.setLayers x).exp = s.exp := rfl
@[simp] theorem setLayers_upd (x : Tab LayerEntry) : (s.setLayers x).upd = s.upd := rfl
@[simp] theorem setLayers_lad (x : Tab LayerEntry) : (s.setLayers x).lad = s.lad := rfl
@[simp] theorem setLayers_pwr (x : Tab LayerEntry) : (s.setLayers x).pwr = s.pwr := rfl
@[simp] theorem setLayers_integ (x : Tab LayerEntry) : (s.setLayers x).integ = s.integ := rfl
@[simp] theorem setLayers_mem (x : Tab LayerEntry) : (s.setLayers x).mem = s.mem := rfl
@[simp] theorem setLayers_mismatch (x : Tab LayerEntry) : (s.setLayers x).mismatch = s.mismatch := rfl
@[simp] theorem setLayers_ueWords (x : Tab LayerEntry) : (s.setLayers x).ueWords = s.ueWords := rfl
@[simp] theorem setLayers_cnt (x : Tab LayerEntry) : (s.setLayers x).cnt = s.cnt := rfl
@[simp] theorem setLayers_out (x : Tab LayerEntry) : (s.setLayers x).out = s.out := rfl
@[simp] theorem setLayers_free (x : Tab LayerEntry) : (s.setLayers x).free = s.free := rfl
@[simp] theorem setLayers_pending (x : Tab LayerEntry) : (s.setLayers x).pending = s.pending := rfl
@[simp] theorem setPat_sec (x : PatSt) : (s.setPat x).sec = s.sec := rfl
@[simp] theorem setPat_boot (x : PatSt) : (s.setPat x).boot = s.boot := rfl
@[simp] theorem setPat_pins (x : PatSt) : (s.setPat x).pins = s.pins := rfl
@[simp] theorem setPat_time (x : PatSt) : (s.setPat x).time = s.time := rfl
@[simp] theorem setPat_host (x : PatSt) : (s.setPat x).host = s.host := rfl
@[simp] theorem setPat_claims (x : PatSt) : (s.setPat x).claims = s.claims := rfl
@[simp] theorem setPat_cfg (x : PatSt) : (s.setPat x).cfg = s.cfg := rfl
@[simp] theorem setPat_log (x : PatSt) : (s.setPat x).log = s.log := rfl
@[simp] theorem setPat_side (x : PatSt) : (s.setPat x).side = s.side := rfl
@[simp] theorem setPat_links (x : PatSt) : (s.setPat x).links = s.links := rfl
@[simp] theorem setPat_buf (x : PatSt) : (s.setPat x).buf = s.buf := rfl
@[simp] theorem setPat_route (x : PatSt) : (s.setPat x).route = s.route := rfl
@[simp] theorem setPat_traf (x : PatSt) : (s.setPat x).traf = s.traf := rfl
@[simp] theorem setPat_tiles (x : PatSt) : (s.setPat x).tiles = s.tiles := rfl
@[simp] theorem setPat_descs (x : PatSt) : (s.setPat x).descs = s.descs := rfl
@[simp] theorem setPat_layers (x : PatSt) : (s.setPat x).layers = s.layers := rfl
@[simp] theorem setPat_pat (x : PatSt) : (s.setPat x).pat = x := rfl
@[simp] theorem setPat_coll (x : PatSt) : (s.setPat x).coll = s.coll := rfl
@[simp] theorem setPat_exp (x : PatSt) : (s.setPat x).exp = s.exp := rfl
@[simp] theorem setPat_upd (x : PatSt) : (s.setPat x).upd = s.upd := rfl
@[simp] theorem setPat_lad (x : PatSt) : (s.setPat x).lad = s.lad := rfl
@[simp] theorem setPat_pwr (x : PatSt) : (s.setPat x).pwr = s.pwr := rfl
@[simp] theorem setPat_integ (x : PatSt) : (s.setPat x).integ = s.integ := rfl
@[simp] theorem setPat_mem (x : PatSt) : (s.setPat x).mem = s.mem := rfl
@[simp] theorem setPat_mismatch (x : PatSt) : (s.setPat x).mismatch = s.mismatch := rfl
@[simp] theorem setPat_ueWords (x : PatSt) : (s.setPat x).ueWords = s.ueWords := rfl
@[simp] theorem setPat_cnt (x : PatSt) : (s.setPat x).cnt = s.cnt := rfl
@[simp] theorem setPat_out (x : PatSt) : (s.setPat x).out = s.out := rfl
@[simp] theorem setPat_free (x : PatSt) : (s.setPat x).free = s.free := rfl
@[simp] theorem setPat_pending (x : PatSt) : (s.setPat x).pending = s.pending := rfl
@[simp] theorem setColl_sec (x : Tab Group) : (s.setColl x).sec = s.sec := rfl
@[simp] theorem setColl_boot (x : Tab Group) : (s.setColl x).boot = s.boot := rfl
@[simp] theorem setColl_pins (x : Tab Group) : (s.setColl x).pins = s.pins := rfl
@[simp] theorem setColl_time (x : Tab Group) : (s.setColl x).time = s.time := rfl
@[simp] theorem setColl_host (x : Tab Group) : (s.setColl x).host = s.host := rfl
@[simp] theorem setColl_claims (x : Tab Group) : (s.setColl x).claims = s.claims := rfl
@[simp] theorem setColl_cfg (x : Tab Group) : (s.setColl x).cfg = s.cfg := rfl
@[simp] theorem setColl_log (x : Tab Group) : (s.setColl x).log = s.log := rfl
@[simp] theorem setColl_side (x : Tab Group) : (s.setColl x).side = s.side := rfl
@[simp] theorem setColl_links (x : Tab Group) : (s.setColl x).links = s.links := rfl
@[simp] theorem setColl_buf (x : Tab Group) : (s.setColl x).buf = s.buf := rfl
@[simp] theorem setColl_route (x : Tab Group) : (s.setColl x).route = s.route := rfl
@[simp] theorem setColl_traf (x : Tab Group) : (s.setColl x).traf = s.traf := rfl
@[simp] theorem setColl_tiles (x : Tab Group) : (s.setColl x).tiles = s.tiles := rfl
@[simp] theorem setColl_descs (x : Tab Group) : (s.setColl x).descs = s.descs := rfl
@[simp] theorem setColl_layers (x : Tab Group) : (s.setColl x).layers = s.layers := rfl
@[simp] theorem setColl_pat (x : Tab Group) : (s.setColl x).pat = s.pat := rfl
@[simp] theorem setColl_coll (x : Tab Group) : (s.setColl x).coll = x := rfl
@[simp] theorem setColl_exp (x : Tab Group) : (s.setColl x).exp = s.exp := rfl
@[simp] theorem setColl_upd (x : Tab Group) : (s.setColl x).upd = s.upd := rfl
@[simp] theorem setColl_lad (x : Tab Group) : (s.setColl x).lad = s.lad := rfl
@[simp] theorem setColl_pwr (x : Tab Group) : (s.setColl x).pwr = s.pwr := rfl
@[simp] theorem setColl_integ (x : Tab Group) : (s.setColl x).integ = s.integ := rfl
@[simp] theorem setColl_mem (x : Tab Group) : (s.setColl x).mem = s.mem := rfl
@[simp] theorem setColl_mismatch (x : Tab Group) : (s.setColl x).mismatch = s.mismatch := rfl
@[simp] theorem setColl_ueWords (x : Tab Group) : (s.setColl x).ueWords = s.ueWords := rfl
@[simp] theorem setColl_cnt (x : Tab Group) : (s.setColl x).cnt = s.cnt := rfl
@[simp] theorem setColl_out (x : Tab Group) : (s.setColl x).out = s.out := rfl
@[simp] theorem setColl_free (x : Tab Group) : (s.setColl x).free = s.free := rfl
@[simp] theorem setColl_pending (x : Tab Group) : (s.setColl x).pending = s.pending := rfl
@[simp] theorem setExp_sec (x : ExpSt) : (s.setExp x).sec = s.sec := rfl
@[simp] theorem setExp_boot (x : ExpSt) : (s.setExp x).boot = s.boot := rfl
@[simp] theorem setExp_pins (x : ExpSt) : (s.setExp x).pins = s.pins := rfl
@[simp] theorem setExp_time (x : ExpSt) : (s.setExp x).time = s.time := rfl
@[simp] theorem setExp_host (x : ExpSt) : (s.setExp x).host = s.host := rfl
@[simp] theorem setExp_claims (x : ExpSt) : (s.setExp x).claims = s.claims := rfl
@[simp] theorem setExp_cfg (x : ExpSt) : (s.setExp x).cfg = s.cfg := rfl
@[simp] theorem setExp_log (x : ExpSt) : (s.setExp x).log = s.log := rfl
@[simp] theorem setExp_side (x : ExpSt) : (s.setExp x).side = s.side := rfl
@[simp] theorem setExp_links (x : ExpSt) : (s.setExp x).links = s.links := rfl
@[simp] theorem setExp_buf (x : ExpSt) : (s.setExp x).buf = s.buf := rfl
@[simp] theorem setExp_route (x : ExpSt) : (s.setExp x).route = s.route := rfl
@[simp] theorem setExp_traf (x : ExpSt) : (s.setExp x).traf = s.traf := rfl
@[simp] theorem setExp_tiles (x : ExpSt) : (s.setExp x).tiles = s.tiles := rfl
@[simp] theorem setExp_descs (x : ExpSt) : (s.setExp x).descs = s.descs := rfl
@[simp] theorem setExp_layers (x : ExpSt) : (s.setExp x).layers = s.layers := rfl
@[simp] theorem setExp_pat (x : ExpSt) : (s.setExp x).pat = s.pat := rfl
@[simp] theorem setExp_coll (x : ExpSt) : (s.setExp x).coll = s.coll := rfl
@[simp] theorem setExp_exp (x : ExpSt) : (s.setExp x).exp = x := rfl
@[simp] theorem setExp_upd (x : ExpSt) : (s.setExp x).upd = s.upd := rfl
@[simp] theorem setExp_lad (x : ExpSt) : (s.setExp x).lad = s.lad := rfl
@[simp] theorem setExp_pwr (x : ExpSt) : (s.setExp x).pwr = s.pwr := rfl
@[simp] theorem setExp_integ (x : ExpSt) : (s.setExp x).integ = s.integ := rfl
@[simp] theorem setExp_mem (x : ExpSt) : (s.setExp x).mem = s.mem := rfl
@[simp] theorem setExp_mismatch (x : ExpSt) : (s.setExp x).mismatch = s.mismatch := rfl
@[simp] theorem setExp_ueWords (x : ExpSt) : (s.setExp x).ueWords = s.ueWords := rfl
@[simp] theorem setExp_cnt (x : ExpSt) : (s.setExp x).cnt = s.cnt := rfl
@[simp] theorem setExp_out (x : ExpSt) : (s.setExp x).out = s.out := rfl
@[simp] theorem setExp_free (x : ExpSt) : (s.setExp x).free = s.free := rfl
@[simp] theorem setExp_pending (x : ExpSt) : (s.setExp x).pending = s.pending := rfl
@[simp] theorem setUpd_sec (x : UpdSt) : (s.setUpd x).sec = s.sec := rfl
@[simp] theorem setUpd_boot (x : UpdSt) : (s.setUpd x).boot = s.boot := rfl
@[simp] theorem setUpd_pins (x : UpdSt) : (s.setUpd x).pins = s.pins := rfl
@[simp] theorem setUpd_time (x : UpdSt) : (s.setUpd x).time = s.time := rfl
@[simp] theorem setUpd_host (x : UpdSt) : (s.setUpd x).host = s.host := rfl
@[simp] theorem setUpd_claims (x : UpdSt) : (s.setUpd x).claims = s.claims := rfl
@[simp] theorem setUpd_cfg (x : UpdSt) : (s.setUpd x).cfg = s.cfg := rfl
@[simp] theorem setUpd_log (x : UpdSt) : (s.setUpd x).log = s.log := rfl
@[simp] theorem setUpd_side (x : UpdSt) : (s.setUpd x).side = s.side := rfl
@[simp] theorem setUpd_links (x : UpdSt) : (s.setUpd x).links = s.links := rfl
@[simp] theorem setUpd_buf (x : UpdSt) : (s.setUpd x).buf = s.buf := rfl
@[simp] theorem setUpd_route (x : UpdSt) : (s.setUpd x).route = s.route := rfl
@[simp] theorem setUpd_traf (x : UpdSt) : (s.setUpd x).traf = s.traf := rfl
@[simp] theorem setUpd_tiles (x : UpdSt) : (s.setUpd x).tiles = s.tiles := rfl
@[simp] theorem setUpd_descs (x : UpdSt) : (s.setUpd x).descs = s.descs := rfl
@[simp] theorem setUpd_layers (x : UpdSt) : (s.setUpd x).layers = s.layers := rfl
@[simp] theorem setUpd_pat (x : UpdSt) : (s.setUpd x).pat = s.pat := rfl
@[simp] theorem setUpd_coll (x : UpdSt) : (s.setUpd x).coll = s.coll := rfl
@[simp] theorem setUpd_exp (x : UpdSt) : (s.setUpd x).exp = s.exp := rfl
@[simp] theorem setUpd_upd (x : UpdSt) : (s.setUpd x).upd = x := rfl
@[simp] theorem setUpd_lad (x : UpdSt) : (s.setUpd x).lad = s.lad := rfl
@[simp] theorem setUpd_pwr (x : UpdSt) : (s.setUpd x).pwr = s.pwr := rfl
@[simp] theorem setUpd_integ (x : UpdSt) : (s.setUpd x).integ = s.integ := rfl
@[simp] theorem setUpd_mem (x : UpdSt) : (s.setUpd x).mem = s.mem := rfl
@[simp] theorem setUpd_mismatch (x : UpdSt) : (s.setUpd x).mismatch = s.mismatch := rfl
@[simp] theorem setUpd_ueWords (x : UpdSt) : (s.setUpd x).ueWords = s.ueWords := rfl
@[simp] theorem setUpd_cnt (x : UpdSt) : (s.setUpd x).cnt = s.cnt := rfl
@[simp] theorem setUpd_out (x : UpdSt) : (s.setUpd x).out = s.out := rfl
@[simp] theorem setUpd_free (x : UpdSt) : (s.setUpd x).free = s.free := rfl
@[simp] theorem setUpd_pending (x : UpdSt) : (s.setUpd x).pending = s.pending := rfl
@[simp] theorem setLad_sec (x : LadSt) : (s.setLad x).sec = s.sec := rfl
@[simp] theorem setLad_boot (x : LadSt) : (s.setLad x).boot = s.boot := rfl
@[simp] theorem setLad_pins (x : LadSt) : (s.setLad x).pins = s.pins := rfl
@[simp] theorem setLad_time (x : LadSt) : (s.setLad x).time = s.time := rfl
@[simp] theorem setLad_host (x : LadSt) : (s.setLad x).host = s.host := rfl
@[simp] theorem setLad_claims (x : LadSt) : (s.setLad x).claims = s.claims := rfl
@[simp] theorem setLad_cfg (x : LadSt) : (s.setLad x).cfg = s.cfg := rfl
@[simp] theorem setLad_log (x : LadSt) : (s.setLad x).log = s.log := rfl
@[simp] theorem setLad_side (x : LadSt) : (s.setLad x).side = s.side := rfl
@[simp] theorem setLad_links (x : LadSt) : (s.setLad x).links = s.links := rfl
@[simp] theorem setLad_buf (x : LadSt) : (s.setLad x).buf = s.buf := rfl
@[simp] theorem setLad_route (x : LadSt) : (s.setLad x).route = s.route := rfl
@[simp] theorem setLad_traf (x : LadSt) : (s.setLad x).traf = s.traf := rfl
@[simp] theorem setLad_tiles (x : LadSt) : (s.setLad x).tiles = s.tiles := rfl
@[simp] theorem setLad_descs (x : LadSt) : (s.setLad x).descs = s.descs := rfl
@[simp] theorem setLad_layers (x : LadSt) : (s.setLad x).layers = s.layers := rfl
@[simp] theorem setLad_pat (x : LadSt) : (s.setLad x).pat = s.pat := rfl
@[simp] theorem setLad_coll (x : LadSt) : (s.setLad x).coll = s.coll := rfl
@[simp] theorem setLad_exp (x : LadSt) : (s.setLad x).exp = s.exp := rfl
@[simp] theorem setLad_upd (x : LadSt) : (s.setLad x).upd = s.upd := rfl
@[simp] theorem setLad_lad (x : LadSt) : (s.setLad x).lad = x := rfl
@[simp] theorem setLad_pwr (x : LadSt) : (s.setLad x).pwr = s.pwr := rfl
@[simp] theorem setLad_integ (x : LadSt) : (s.setLad x).integ = s.integ := rfl
@[simp] theorem setLad_mem (x : LadSt) : (s.setLad x).mem = s.mem := rfl
@[simp] theorem setLad_mismatch (x : LadSt) : (s.setLad x).mismatch = s.mismatch := rfl
@[simp] theorem setLad_ueWords (x : LadSt) : (s.setLad x).ueWords = s.ueWords := rfl
@[simp] theorem setLad_cnt (x : LadSt) : (s.setLad x).cnt = s.cnt := rfl
@[simp] theorem setLad_out (x : LadSt) : (s.setLad x).out = s.out := rfl
@[simp] theorem setLad_free (x : LadSt) : (s.setLad x).free = s.free := rfl
@[simp] theorem setLad_pending (x : LadSt) : (s.setLad x).pending = s.pending := rfl
@[simp] theorem setPwr_sec (x : PwrSt) : (s.setPwr x).sec = s.sec := rfl
@[simp] theorem setPwr_boot (x : PwrSt) : (s.setPwr x).boot = s.boot := rfl
@[simp] theorem setPwr_pins (x : PwrSt) : (s.setPwr x).pins = s.pins := rfl
@[simp] theorem setPwr_time (x : PwrSt) : (s.setPwr x).time = s.time := rfl
@[simp] theorem setPwr_host (x : PwrSt) : (s.setPwr x).host = s.host := rfl
@[simp] theorem setPwr_claims (x : PwrSt) : (s.setPwr x).claims = s.claims := rfl
@[simp] theorem setPwr_cfg (x : PwrSt) : (s.setPwr x).cfg = s.cfg := rfl
@[simp] theorem setPwr_log (x : PwrSt) : (s.setPwr x).log = s.log := rfl
@[simp] theorem setPwr_side (x : PwrSt) : (s.setPwr x).side = s.side := rfl
@[simp] theorem setPwr_links (x : PwrSt) : (s.setPwr x).links = s.links := rfl
@[simp] theorem setPwr_buf (x : PwrSt) : (s.setPwr x).buf = s.buf := rfl
@[simp] theorem setPwr_route (x : PwrSt) : (s.setPwr x).route = s.route := rfl
@[simp] theorem setPwr_traf (x : PwrSt) : (s.setPwr x).traf = s.traf := rfl
@[simp] theorem setPwr_tiles (x : PwrSt) : (s.setPwr x).tiles = s.tiles := rfl
@[simp] theorem setPwr_descs (x : PwrSt) : (s.setPwr x).descs = s.descs := rfl
@[simp] theorem setPwr_layers (x : PwrSt) : (s.setPwr x).layers = s.layers := rfl
@[simp] theorem setPwr_pat (x : PwrSt) : (s.setPwr x).pat = s.pat := rfl
@[simp] theorem setPwr_coll (x : PwrSt) : (s.setPwr x).coll = s.coll := rfl
@[simp] theorem setPwr_exp (x : PwrSt) : (s.setPwr x).exp = s.exp := rfl
@[simp] theorem setPwr_upd (x : PwrSt) : (s.setPwr x).upd = s.upd := rfl
@[simp] theorem setPwr_lad (x : PwrSt) : (s.setPwr x).lad = s.lad := rfl
@[simp] theorem setPwr_pwr (x : PwrSt) : (s.setPwr x).pwr = x := rfl
@[simp] theorem setPwr_integ (x : PwrSt) : (s.setPwr x).integ = s.integ := rfl
@[simp] theorem setPwr_mem (x : PwrSt) : (s.setPwr x).mem = s.mem := rfl
@[simp] theorem setPwr_mismatch (x : PwrSt) : (s.setPwr x).mismatch = s.mismatch := rfl
@[simp] theorem setPwr_ueWords (x : PwrSt) : (s.setPwr x).ueWords = s.ueWords := rfl
@[simp] theorem setPwr_cnt (x : PwrSt) : (s.setPwr x).cnt = s.cnt := rfl
@[simp] theorem setPwr_out (x : PwrSt) : (s.setPwr x).out = s.out := rfl
@[simp] theorem setPwr_free (x : PwrSt) : (s.setPwr x).free = s.free := rfl
@[simp] theorem setPwr_pending (x : PwrSt) : (s.setPwr x).pending = s.pending := rfl
@[simp] theorem setInteg_sec (x : IntegSt) : (s.setInteg x).sec = s.sec := rfl
@[simp] theorem setInteg_boot (x : IntegSt) : (s.setInteg x).boot = s.boot := rfl
@[simp] theorem setInteg_pins (x : IntegSt) : (s.setInteg x).pins = s.pins := rfl
@[simp] theorem setInteg_time (x : IntegSt) : (s.setInteg x).time = s.time := rfl
@[simp] theorem setInteg_host (x : IntegSt) : (s.setInteg x).host = s.host := rfl
@[simp] theorem setInteg_claims (x : IntegSt) : (s.setInteg x).claims = s.claims := rfl
@[simp] theorem setInteg_cfg (x : IntegSt) : (s.setInteg x).cfg = s.cfg := rfl
@[simp] theorem setInteg_log (x : IntegSt) : (s.setInteg x).log = s.log := rfl
@[simp] theorem setInteg_side (x : IntegSt) : (s.setInteg x).side = s.side := rfl
@[simp] theorem setInteg_links (x : IntegSt) : (s.setInteg x).links = s.links := rfl
@[simp] theorem setInteg_buf (x : IntegSt) : (s.setInteg x).buf = s.buf := rfl
@[simp] theorem setInteg_route (x : IntegSt) : (s.setInteg x).route = s.route := rfl
@[simp] theorem setInteg_traf (x : IntegSt) : (s.setInteg x).traf = s.traf := rfl
@[simp] theorem setInteg_tiles (x : IntegSt) : (s.setInteg x).tiles = s.tiles := rfl
@[simp] theorem setInteg_descs (x : IntegSt) : (s.setInteg x).descs = s.descs := rfl
@[simp] theorem setInteg_layers (x : IntegSt) : (s.setInteg x).layers = s.layers := rfl
@[simp] theorem setInteg_pat (x : IntegSt) : (s.setInteg x).pat = s.pat := rfl
@[simp] theorem setInteg_coll (x : IntegSt) : (s.setInteg x).coll = s.coll := rfl
@[simp] theorem setInteg_exp (x : IntegSt) : (s.setInteg x).exp = s.exp := rfl
@[simp] theorem setInteg_upd (x : IntegSt) : (s.setInteg x).upd = s.upd := rfl
@[simp] theorem setInteg_lad (x : IntegSt) : (s.setInteg x).lad = s.lad := rfl
@[simp] theorem setInteg_pwr (x : IntegSt) : (s.setInteg x).pwr = s.pwr := rfl
@[simp] theorem setInteg_integ (x : IntegSt) : (s.setInteg x).integ = x := rfl
@[simp] theorem setInteg_mem (x : IntegSt) : (s.setInteg x).mem = s.mem := rfl
@[simp] theorem setInteg_mismatch (x : IntegSt) : (s.setInteg x).mismatch = s.mismatch := rfl
@[simp] theorem setInteg_ueWords (x : IntegSt) : (s.setInteg x).ueWords = s.ueWords := rfl
@[simp] theorem setInteg_cnt (x : IntegSt) : (s.setInteg x).cnt = s.cnt := rfl
@[simp] theorem setInteg_out (x : IntegSt) : (s.setInteg x).out = s.out := rfl
@[simp] theorem setInteg_free (x : IntegSt) : (s.setInteg x).free = s.free := rfl
@[simp] theorem setInteg_pending (x : IntegSt) : (s.setInteg x).pending = s.pending := rfl
@[simp] theorem setMem_sec (x : List Host.Cell) : (s.setMem x).sec = s.sec := rfl
@[simp] theorem setMem_boot (x : List Host.Cell) : (s.setMem x).boot = s.boot := rfl
@[simp] theorem setMem_pins (x : List Host.Cell) : (s.setMem x).pins = s.pins := rfl
@[simp] theorem setMem_time (x : List Host.Cell) : (s.setMem x).time = s.time := rfl
@[simp] theorem setMem_host (x : List Host.Cell) : (s.setMem x).host = s.host := rfl
@[simp] theorem setMem_claims (x : List Host.Cell) : (s.setMem x).claims = s.claims := rfl
@[simp] theorem setMem_cfg (x : List Host.Cell) : (s.setMem x).cfg = s.cfg := rfl
@[simp] theorem setMem_log (x : List Host.Cell) : (s.setMem x).log = s.log := rfl
@[simp] theorem setMem_side (x : List Host.Cell) : (s.setMem x).side = s.side := rfl
@[simp] theorem setMem_links (x : List Host.Cell) : (s.setMem x).links = s.links := rfl
@[simp] theorem setMem_buf (x : List Host.Cell) : (s.setMem x).buf = s.buf := rfl
@[simp] theorem setMem_route (x : List Host.Cell) : (s.setMem x).route = s.route := rfl
@[simp] theorem setMem_traf (x : List Host.Cell) : (s.setMem x).traf = s.traf := rfl
@[simp] theorem setMem_tiles (x : List Host.Cell) : (s.setMem x).tiles = s.tiles := rfl
@[simp] theorem setMem_descs (x : List Host.Cell) : (s.setMem x).descs = s.descs := rfl
@[simp] theorem setMem_layers (x : List Host.Cell) : (s.setMem x).layers = s.layers := rfl
@[simp] theorem setMem_pat (x : List Host.Cell) : (s.setMem x).pat = s.pat := rfl
@[simp] theorem setMem_coll (x : List Host.Cell) : (s.setMem x).coll = s.coll := rfl
@[simp] theorem setMem_exp (x : List Host.Cell) : (s.setMem x).exp = s.exp := rfl
@[simp] theorem setMem_upd (x : List Host.Cell) : (s.setMem x).upd = s.upd := rfl
@[simp] theorem setMem_lad (x : List Host.Cell) : (s.setMem x).lad = s.lad := rfl
@[simp] theorem setMem_pwr (x : List Host.Cell) : (s.setMem x).pwr = s.pwr := rfl
@[simp] theorem setMem_integ (x : List Host.Cell) : (s.setMem x).integ = s.integ := rfl
@[simp] theorem setMem_mem (x : List Host.Cell) : (s.setMem x).mem = x := rfl
@[simp] theorem setMem_mismatch (x : List Host.Cell) : (s.setMem x).mismatch = s.mismatch := rfl
@[simp] theorem setMem_ueWords (x : List Host.Cell) : (s.setMem x).ueWords = s.ueWords := rfl
@[simp] theorem setMem_cnt (x : List Host.Cell) : (s.setMem x).cnt = s.cnt := rfl
@[simp] theorem setMem_out (x : List Host.Cell) : (s.setMem x).out = s.out := rfl
@[simp] theorem setMem_free (x : List Host.Cell) : (s.setMem x).free = s.free := rfl
@[simp] theorem setMem_pending (x : List Host.Cell) : (s.setMem x).pending = s.pending := rfl
@[simp] theorem setMismatch_sec (x : List Nat) : (s.setMismatch x).sec = s.sec := rfl
@[simp] theorem setMismatch_boot (x : List Nat) : (s.setMismatch x).boot = s.boot := rfl
@[simp] theorem setMismatch_pins (x : List Nat) : (s.setMismatch x).pins = s.pins := rfl
@[simp] theorem setMismatch_time (x : List Nat) : (s.setMismatch x).time = s.time := rfl
@[simp] theorem setMismatch_host (x : List Nat) : (s.setMismatch x).host = s.host := rfl
@[simp] theorem setMismatch_claims (x : List Nat) : (s.setMismatch x).claims = s.claims := rfl
@[simp] theorem setMismatch_cfg (x : List Nat) : (s.setMismatch x).cfg = s.cfg := rfl
@[simp] theorem setMismatch_log (x : List Nat) : (s.setMismatch x).log = s.log := rfl
@[simp] theorem setMismatch_side (x : List Nat) : (s.setMismatch x).side = s.side := rfl
@[simp] theorem setMismatch_links (x : List Nat) : (s.setMismatch x).links = s.links := rfl
@[simp] theorem setMismatch_buf (x : List Nat) : (s.setMismatch x).buf = s.buf := rfl
@[simp] theorem setMismatch_route (x : List Nat) : (s.setMismatch x).route = s.route := rfl
@[simp] theorem setMismatch_traf (x : List Nat) : (s.setMismatch x).traf = s.traf := rfl
@[simp] theorem setMismatch_tiles (x : List Nat) : (s.setMismatch x).tiles = s.tiles := rfl
@[simp] theorem setMismatch_descs (x : List Nat) : (s.setMismatch x).descs = s.descs := rfl
@[simp] theorem setMismatch_layers (x : List Nat) : (s.setMismatch x).layers = s.layers := rfl
@[simp] theorem setMismatch_pat (x : List Nat) : (s.setMismatch x).pat = s.pat := rfl
@[simp] theorem setMismatch_coll (x : List Nat) : (s.setMismatch x).coll = s.coll := rfl
@[simp] theorem setMismatch_exp (x : List Nat) : (s.setMismatch x).exp = s.exp := rfl
@[simp] theorem setMismatch_upd (x : List Nat) : (s.setMismatch x).upd = s.upd := rfl
@[simp] theorem setMismatch_lad (x : List Nat) : (s.setMismatch x).lad = s.lad := rfl
@[simp] theorem setMismatch_pwr (x : List Nat) : (s.setMismatch x).pwr = s.pwr := rfl
@[simp] theorem setMismatch_integ (x : List Nat) : (s.setMismatch x).integ = s.integ := rfl
@[simp] theorem setMismatch_mem (x : List Nat) : (s.setMismatch x).mem = s.mem := rfl
@[simp] theorem setMismatch_mismatch (x : List Nat) : (s.setMismatch x).mismatch = x := rfl
@[simp] theorem setMismatch_ueWords (x : List Nat) : (s.setMismatch x).ueWords = s.ueWords := rfl
@[simp] theorem setMismatch_cnt (x : List Nat) : (s.setMismatch x).cnt = s.cnt := rfl
@[simp] theorem setMismatch_out (x : List Nat) : (s.setMismatch x).out = s.out := rfl
@[simp] theorem setMismatch_free (x : List Nat) : (s.setMismatch x).free = s.free := rfl
@[simp] theorem setMismatch_pending (x : List Nat) : (s.setMismatch x).pending = s.pending := rfl
@[simp] theorem setUeWords_sec (x : List Nat) : (s.setUeWords x).sec = s.sec := rfl
@[simp] theorem setUeWords_boot (x : List Nat) : (s.setUeWords x).boot = s.boot := rfl
@[simp] theorem setUeWords_pins (x : List Nat) : (s.setUeWords x).pins = s.pins := rfl
@[simp] theorem setUeWords_time (x : List Nat) : (s.setUeWords x).time = s.time := rfl
@[simp] theorem setUeWords_host (x : List Nat) : (s.setUeWords x).host = s.host := rfl
@[simp] theorem setUeWords_claims (x : List Nat) : (s.setUeWords x).claims = s.claims := rfl
@[simp] theorem setUeWords_cfg (x : List Nat) : (s.setUeWords x).cfg = s.cfg := rfl
@[simp] theorem setUeWords_log (x : List Nat) : (s.setUeWords x).log = s.log := rfl
@[simp] theorem setUeWords_side (x : List Nat) : (s.setUeWords x).side = s.side := rfl
@[simp] theorem setUeWords_links (x : List Nat) : (s.setUeWords x).links = s.links := rfl
@[simp] theorem setUeWords_buf (x : List Nat) : (s.setUeWords x).buf = s.buf := rfl
@[simp] theorem setUeWords_route (x : List Nat) : (s.setUeWords x).route = s.route := rfl
@[simp] theorem setUeWords_traf (x : List Nat) : (s.setUeWords x).traf = s.traf := rfl
@[simp] theorem setUeWords_tiles (x : List Nat) : (s.setUeWords x).tiles = s.tiles := rfl
@[simp] theorem setUeWords_descs (x : List Nat) : (s.setUeWords x).descs = s.descs := rfl
@[simp] theorem setUeWords_layers (x : List Nat) : (s.setUeWords x).layers = s.layers := rfl
@[simp] theorem setUeWords_pat (x : List Nat) : (s.setUeWords x).pat = s.pat := rfl
@[simp] theorem setUeWords_coll (x : List Nat) : (s.setUeWords x).coll = s.coll := rfl
@[simp] theorem setUeWords_exp (x : List Nat) : (s.setUeWords x).exp = s.exp := rfl
@[simp] theorem setUeWords_upd (x : List Nat) : (s.setUeWords x).upd = s.upd := rfl
@[simp] theorem setUeWords_lad (x : List Nat) : (s.setUeWords x).lad = s.lad := rfl
@[simp] theorem setUeWords_pwr (x : List Nat) : (s.setUeWords x).pwr = s.pwr := rfl
@[simp] theorem setUeWords_integ (x : List Nat) : (s.setUeWords x).integ = s.integ := rfl
@[simp] theorem setUeWords_mem (x : List Nat) : (s.setUeWords x).mem = s.mem := rfl
@[simp] theorem setUeWords_mismatch (x : List Nat) : (s.setUeWords x).mismatch = s.mismatch := rfl
@[simp] theorem setUeWords_ueWords (x : List Nat) : (s.setUeWords x).ueWords = x := rfl
@[simp] theorem setUeWords_cnt (x : List Nat) : (s.setUeWords x).cnt = s.cnt := rfl
@[simp] theorem setUeWords_out (x : List Nat) : (s.setUeWords x).out = s.out := rfl
@[simp] theorem setUeWords_free (x : List Nat) : (s.setUeWords x).free = s.free := rfl
@[simp] theorem setUeWords_pending (x : List Nat) : (s.setUeWords x).pending = s.pending := rfl
@[simp] theorem setCnt_sec (x : Tab Nat) : (s.setCnt x).sec = s.sec := rfl
@[simp] theorem setCnt_boot (x : Tab Nat) : (s.setCnt x).boot = s.boot := rfl
@[simp] theorem setCnt_pins (x : Tab Nat) : (s.setCnt x).pins = s.pins := rfl
@[simp] theorem setCnt_time (x : Tab Nat) : (s.setCnt x).time = s.time := rfl
@[simp] theorem setCnt_host (x : Tab Nat) : (s.setCnt x).host = s.host := rfl
@[simp] theorem setCnt_claims (x : Tab Nat) : (s.setCnt x).claims = s.claims := rfl
@[simp] theorem setCnt_cfg (x : Tab Nat) : (s.setCnt x).cfg = s.cfg := rfl
@[simp] theorem setCnt_log (x : Tab Nat) : (s.setCnt x).log = s.log := rfl
@[simp] theorem setCnt_side (x : Tab Nat) : (s.setCnt x).side = s.side := rfl
@[simp] theorem setCnt_links (x : Tab Nat) : (s.setCnt x).links = s.links := rfl
@[simp] theorem setCnt_buf (x : Tab Nat) : (s.setCnt x).buf = s.buf := rfl
@[simp] theorem setCnt_route (x : Tab Nat) : (s.setCnt x).route = s.route := rfl
@[simp] theorem setCnt_traf (x : Tab Nat) : (s.setCnt x).traf = s.traf := rfl
@[simp] theorem setCnt_tiles (x : Tab Nat) : (s.setCnt x).tiles = s.tiles := rfl
@[simp] theorem setCnt_descs (x : Tab Nat) : (s.setCnt x).descs = s.descs := rfl
@[simp] theorem setCnt_layers (x : Tab Nat) : (s.setCnt x).layers = s.layers := rfl
@[simp] theorem setCnt_pat (x : Tab Nat) : (s.setCnt x).pat = s.pat := rfl
@[simp] theorem setCnt_coll (x : Tab Nat) : (s.setCnt x).coll = s.coll := rfl
@[simp] theorem setCnt_exp (x : Tab Nat) : (s.setCnt x).exp = s.exp := rfl
@[simp] theorem setCnt_upd (x : Tab Nat) : (s.setCnt x).upd = s.upd := rfl
@[simp] theorem setCnt_lad (x : Tab Nat) : (s.setCnt x).lad = s.lad := rfl
@[simp] theorem setCnt_pwr (x : Tab Nat) : (s.setCnt x).pwr = s.pwr := rfl
@[simp] theorem setCnt_integ (x : Tab Nat) : (s.setCnt x).integ = s.integ := rfl
@[simp] theorem setCnt_mem (x : Tab Nat) : (s.setCnt x).mem = s.mem := rfl
@[simp] theorem setCnt_mismatch (x : Tab Nat) : (s.setCnt x).mismatch = s.mismatch := rfl
@[simp] theorem setCnt_ueWords (x : Tab Nat) : (s.setCnt x).ueWords = s.ueWords := rfl
@[simp] theorem setCnt_cnt (x : Tab Nat) : (s.setCnt x).cnt = x := rfl
@[simp] theorem setCnt_out (x : Tab Nat) : (s.setCnt x).out = s.out := rfl
@[simp] theorem setCnt_free (x : Tab Nat) : (s.setCnt x).free = s.free := rfl
@[simp] theorem setCnt_pending (x : Tab Nat) : (s.setCnt x).pending = s.pending := rfl
@[simp] theorem setOut_sec (x : List Out) : (s.setOut x).sec = s.sec := rfl
@[simp] theorem setOut_boot (x : List Out) : (s.setOut x).boot = s.boot := rfl
@[simp] theorem setOut_pins (x : List Out) : (s.setOut x).pins = s.pins := rfl
@[simp] theorem setOut_time (x : List Out) : (s.setOut x).time = s.time := rfl
@[simp] theorem setOut_host (x : List Out) : (s.setOut x).host = s.host := rfl
@[simp] theorem setOut_claims (x : List Out) : (s.setOut x).claims = s.claims := rfl
@[simp] theorem setOut_cfg (x : List Out) : (s.setOut x).cfg = s.cfg := rfl
@[simp] theorem setOut_log (x : List Out) : (s.setOut x).log = s.log := rfl
@[simp] theorem setOut_side (x : List Out) : (s.setOut x).side = s.side := rfl
@[simp] theorem setOut_links (x : List Out) : (s.setOut x).links = s.links := rfl
@[simp] theorem setOut_buf (x : List Out) : (s.setOut x).buf = s.buf := rfl
@[simp] theorem setOut_route (x : List Out) : (s.setOut x).route = s.route := rfl
@[simp] theorem setOut_traf (x : List Out) : (s.setOut x).traf = s.traf := rfl
@[simp] theorem setOut_tiles (x : List Out) : (s.setOut x).tiles = s.tiles := rfl
@[simp] theorem setOut_descs (x : List Out) : (s.setOut x).descs = s.descs := rfl
@[simp] theorem setOut_layers (x : List Out) : (s.setOut x).layers = s.layers := rfl
@[simp] theorem setOut_pat (x : List Out) : (s.setOut x).pat = s.pat := rfl
@[simp] theorem setOut_coll (x : List Out) : (s.setOut x).coll = s.coll := rfl
@[simp] theorem setOut_exp (x : List Out) : (s.setOut x).exp = s.exp := rfl
@[simp] theorem setOut_upd (x : List Out) : (s.setOut x).upd = s.upd := rfl
@[simp] theorem setOut_lad (x : List Out) : (s.setOut x).lad = s.lad := rfl
@[simp] theorem setOut_pwr (x : List Out) : (s.setOut x).pwr = s.pwr := rfl
@[simp] theorem setOut_integ (x : List Out) : (s.setOut x).integ = s.integ := rfl
@[simp] theorem setOut_mem (x : List Out) : (s.setOut x).mem = s.mem := rfl
@[simp] theorem setOut_mismatch (x : List Out) : (s.setOut x).mismatch = s.mismatch := rfl
@[simp] theorem setOut_ueWords (x : List Out) : (s.setOut x).ueWords = s.ueWords := rfl
@[simp] theorem setOut_cnt (x : List Out) : (s.setOut x).cnt = s.cnt := rfl
@[simp] theorem setOut_out (x : List Out) : (s.setOut x).out = x := rfl
@[simp] theorem setOut_free (x : List Out) : (s.setOut x).free = s.free := rfl
@[simp] theorem setOut_pending (x : List Out) : (s.setOut x).pending = s.pending := rfl
@[simp] theorem setFree_sec (x : Nat) : (s.setFree x).sec = s.sec := rfl
@[simp] theorem setFree_boot (x : Nat) : (s.setFree x).boot = s.boot := rfl
@[simp] theorem setFree_pins (x : Nat) : (s.setFree x).pins = s.pins := rfl
@[simp] theorem setFree_time (x : Nat) : (s.setFree x).time = s.time := rfl
@[simp] theorem setFree_host (x : Nat) : (s.setFree x).host = s.host := rfl
@[simp] theorem setFree_claims (x : Nat) : (s.setFree x).claims = s.claims := rfl
@[simp] theorem setFree_cfg (x : Nat) : (s.setFree x).cfg = s.cfg := rfl
@[simp] theorem setFree_log (x : Nat) : (s.setFree x).log = s.log := rfl
@[simp] theorem setFree_side (x : Nat) : (s.setFree x).side = s.side := rfl
@[simp] theorem setFree_links (x : Nat) : (s.setFree x).links = s.links := rfl
@[simp] theorem setFree_buf (x : Nat) : (s.setFree x).buf = s.buf := rfl
@[simp] theorem setFree_route (x : Nat) : (s.setFree x).route = s.route := rfl
@[simp] theorem setFree_traf (x : Nat) : (s.setFree x).traf = s.traf := rfl
@[simp] theorem setFree_tiles (x : Nat) : (s.setFree x).tiles = s.tiles := rfl
@[simp] theorem setFree_descs (x : Nat) : (s.setFree x).descs = s.descs := rfl
@[simp] theorem setFree_layers (x : Nat) : (s.setFree x).layers = s.layers := rfl
@[simp] theorem setFree_pat (x : Nat) : (s.setFree x).pat = s.pat := rfl
@[simp] theorem setFree_coll (x : Nat) : (s.setFree x).coll = s.coll := rfl
@[simp] theorem setFree_exp (x : Nat) : (s.setFree x).exp = s.exp := rfl
@[simp] theorem setFree_upd (x : Nat) : (s.setFree x).upd = s.upd := rfl
@[simp] theorem setFree_lad (x : Nat) : (s.setFree x).lad = s.lad := rfl
@[simp] theorem setFree_pwr (x : Nat) : (s.setFree x).pwr = s.pwr := rfl
@[simp] theorem setFree_integ (x : Nat) : (s.setFree x).integ = s.integ := rfl
@[simp] theorem setFree_mem (x : Nat) : (s.setFree x).mem = s.mem := rfl
@[simp] theorem setFree_mismatch (x : Nat) : (s.setFree x).mismatch = s.mismatch := rfl
@[simp] theorem setFree_ueWords (x : Nat) : (s.setFree x).ueWords = s.ueWords := rfl
@[simp] theorem setFree_cnt (x : Nat) : (s.setFree x).cnt = s.cnt := rfl
@[simp] theorem setFree_out (x : Nat) : (s.setFree x).out = s.out := rfl
@[simp] theorem setFree_free (x : Nat) : (s.setFree x).free = x := rfl
@[simp] theorem setFree_pending (x : Nat) : (s.setFree x).pending = s.pending := rfl
@[simp] theorem setPending_sec (x : List Instr) : (s.setPending x).sec = s.sec := rfl
@[simp] theorem setPending_boot (x : List Instr) : (s.setPending x).boot = s.boot := rfl
@[simp] theorem setPending_pins (x : List Instr) : (s.setPending x).pins = s.pins := rfl
@[simp] theorem setPending_time (x : List Instr) : (s.setPending x).time = s.time := rfl
@[simp] theorem setPending_host (x : List Instr) : (s.setPending x).host = s.host := rfl
@[simp] theorem setPending_claims (x : List Instr) : (s.setPending x).claims = s.claims := rfl
@[simp] theorem setPending_cfg (x : List Instr) : (s.setPending x).cfg = s.cfg := rfl
@[simp] theorem setPending_log (x : List Instr) : (s.setPending x).log = s.log := rfl
@[simp] theorem setPending_side (x : List Instr) : (s.setPending x).side = s.side := rfl
@[simp] theorem setPending_links (x : List Instr) : (s.setPending x).links = s.links := rfl
@[simp] theorem setPending_buf (x : List Instr) : (s.setPending x).buf = s.buf := rfl
@[simp] theorem setPending_route (x : List Instr) : (s.setPending x).route = s.route := rfl
@[simp] theorem setPending_traf (x : List Instr) : (s.setPending x).traf = s.traf := rfl
@[simp] theorem setPending_tiles (x : List Instr) : (s.setPending x).tiles = s.tiles := rfl
@[simp] theorem setPending_descs (x : List Instr) : (s.setPending x).descs = s.descs := rfl
@[simp] theorem setPending_layers (x : List Instr) : (s.setPending x).layers = s.layers := rfl
@[simp] theorem setPending_pat (x : List Instr) : (s.setPending x).pat = s.pat := rfl
@[simp] theorem setPending_coll (x : List Instr) : (s.setPending x).coll = s.coll := rfl
@[simp] theorem setPending_exp (x : List Instr) : (s.setPending x).exp = s.exp := rfl
@[simp] theorem setPending_upd (x : List Instr) : (s.setPending x).upd = s.upd := rfl
@[simp] theorem setPending_lad (x : List Instr) : (s.setPending x).lad = s.lad := rfl
@[simp] theorem setPending_pwr (x : List Instr) : (s.setPending x).pwr = s.pwr := rfl
@[simp] theorem setPending_integ (x : List Instr) : (s.setPending x).integ = s.integ := rfl
@[simp] theorem setPending_mem (x : List Instr) : (s.setPending x).mem = s.mem := rfl
@[simp] theorem setPending_mismatch (x : List Instr) : (s.setPending x).mismatch = s.mismatch := rfl
@[simp] theorem setPending_ueWords (x : List Instr) : (s.setPending x).ueWords = s.ueWords := rfl
@[simp] theorem setPending_cnt (x : List Instr) : (s.setPending x).cnt = s.cnt := rfl
@[simp] theorem setPending_out (x : List Instr) : (s.setPending x).out = s.out := rfl
@[simp] theorem setPending_free (x : List Instr) : (s.setPending x).free = s.free := rfl
@[simp] theorem setPending_pending (x : List Instr) : (s.setPending x).pending = x := rfl

end Sys2Proof.Machine
end

