-- ==== Sys2Proof/Safety.lean ====
section
/-! DEFINITION. What statements speak of: safe states, the invariant, and how a host command is taken and ended. -/

namespace Sys2Proof.Machine

open Sys2Proof

/-- The next step of the state is no fault and no refusal. -/
def State.Safe (s : State) : Prop := ∃ t, step s = .next t

/-- No resource is held by both hosts (16 R461). -/
def State.ClaimsApart (s : State) : Prop := s.claims.c0 &&& s.claims.c1 = 0

/-- Memory is in its canonical form. -/
def State.MemOk (s : State) : Prop := memWf s.mem = true

/-- What every step keeps. -/
structure State.Inv (s : State) : Prop where
  claims : s.ClaimsApart
  mem : s.MemOk

/-- The origin may send the opcode: P opcodes come from the primary host, fabric requests come from a FID of mgmt_fids and carry F
opcodes (16 R460, R465, Table 16-12). -/
def State.MaySend (s : State) (o : Origin) (op : Nat) : Prop :=
  match o with
  | .mb h _ => ((marksOf op).getD {}).p = true → h = s.host.primary
  | .fab fid _ => s.mgmtAllowed fid = true ∧ ((marksOf op).getD {}).f = true

/-- The other host holds no claim of resource `r` that binds the origin (16 R461, R465). -/
def State.Owns (s : State) (o : Origin) (r : Nat) : Prop := (s.ownChk o r).bad = false

/-- A clear parameter that the origin may give (R465). -/
def clearOk (o : Origin) (clear : Nat) : Prop :=
  match o with
  | .mb _ _ => clear ≤ 1
  | .fab _ _ => clear = 0

/-- The state after the waiting command `p` is accepted, has the effect `f` and is answered with a result taken from the
state at acceptance (16 R453, R457, R459); heads of the order that need no meaning are then refused (R456, R473, R508). -/
def State.concluded (s : State) (p : Posted) (f : State → State) (st : Status) (res : State → List Fld) : State :=
  let a := s.accept p
  ((f a.2).finish a.1 st (res a.2)).drainHeads

/-- The state after the waiting command `p` is accepted and refused with a status and the parameter at fault (R10,
R11). -/
def State.turnedAway (s : State) (p : Posted) (st : Status) (off : Nat) : State :=
  let a := s.accept p
  (a.2.finishAt a.1 st off []).drainHeads

/-- The state after the waiting command `p` is accepted and stays TAKEN, `f` giving what begins (R459). -/
def State.begun (s : State) (p : Posted) (f : Nat → State → State) : State :=
  let a := s.accept p
  (f a.1 a.2).drainHeads

/-- Memory as an access from the fabric or a host observes it: without the writes of the same core cycle that it precedes (09 R265). -/
def State.seenBy (s : State) (a n : Nat) : State :=
  (s.fabricAccess a n).putMet ((s.fabricAccess a n).yielding incoming).reverse

/-- A byte that a requester whom such an access precedes has written in the same core cycle: it ends with that write (09 R265). -/
def State.overtaken (s : State) (a n k : Nat) : Bool :=
  ((s.fabricAccess a n).yielding incoming).any (fun m =>
    decide (padKey m.1 m.2.off ≤ k) && decide (k < padKey m.1 m.2.off + m.2.old.length))

/-- A routing that met no entry whose halves disagree. -/
def Routed.whole (r : Routed) : Bool := match r with | .torn _ => false | _ => true

/-- The frame at the head of an ingress's Tally queue is a well-formed COLL frame of the member at a position of a group
(08 R226, R227, R252), not yet checked, that came in time (R250; 02 R52). -/
structure State.TallyHead (s : State) (ing : Nat) (q : QFrame) (g : Group) (m : Nat) : Prop where
  head : s.localHead ing 3 4 = some q
  note : q.note = none
  group : s.groupFor q = some g
  sender : s.senderOf q g = some m
  sound : badReserved q = false
  live : g.late (chSeq q.f.head) = false
  inTime : g.pastLimit (chSeq q.f.head) q.stamp = none

/-- The frame at the head of an ingress's downward Tally queue is a well-formed COLL_RES frame of the parent of a group
(08 R226, R227) that came in time (R250; 02 R52). -/
structure State.TallyDown (s : State) (ing : Nat) (q : QFrame) (g : Group) : Prop where
  head : s.localHead ing 4 5 = some q
  group : s.groupFor q = some g
  parent : g.parent = some q.ing ∧ q.f.src = g.parentFid ∧ q.f.dst = s.fidAt q.stamp
  sound : badReserved q = false
  inTime : g.pastBackstop (chSeq q.f.head) q.stamp = none

end Sys2Proof.Machine
end

