-- ==== Sys2Proof/WellFormed.lean ====
section
/-! DEFINITION. Well-formed commands: operands within the fields that carry them (16 R455) and units that the package has. -/

namespace Sys2Proof

/-- Each value fits the bytes of its field. -/
def fits (l : List (Nat × Nat)) : Bool := l.all (fun p => decide (p.2 < 2 ^ (8 * p.1)))

/-- A mailbox of a host, or a fabric requester (16 R443, R464). -/
def originOk (o : Origin) : Bool :=
  match o with
  | .mb _ m => decide (m < 32)
  | .fab fid seq => decide (fid < 2 ^ 20) && decide (seq < 2 ^ 16)

/-- A well-formed command or event. -/
def wellFormed (i : Instr) : Bool :=
  match i with
  | .devIdentity o part off => originOk o && fits [(1, part), (4, off)]
  | .devAttestQuote o _ => originOk o
  | .devMeasureLog o first count => originOk o && fits [(2, first), (1, count)]
  | .fwSlotWrite o slot op off len data => originOk o && fits [(1, slot), (1, op), (4, off), (8, len)] && decide (data.length = len)
  | .fwSlotSelect o slot => originOk o && fits [(1, slot)]
  | .devReset o scope unit => originOk o && fits [(1, scope), (2, unit)]
  | .devResetBegin => true
  | .debugChallenge o level => originOk o && fits [(1, level)]
  | .debugUnlock o level key sig => originOk o && fits [(1, level)] && decide (key.length = 97) && decide (sig.length = 96)
  | .cfgStage o items => originOk o && decide (items.length < 256) && items.all (fun x => fits [(2, x.id), (2, x.rsv), (4, x.scope), (8, x.val)])
  | .cfgStageClear o => originOk o
  | .cfgCommitAt o target late drain => originOk o && fits [(8, target), (1, late), (4, drain)]
  | .cfgCancel o id => originOk o && fits [(1, id)]
  | .cfgRead o id scope => originOk o && fits [(2, id), (4, scope)]
  | .cfgStatus o => originOk o
  | .cfgFreezeBegin id => decide (id < 256)
  | .linkDrainBegin id => decide (id < 256)
  | .cfgCommitApply => true
  | .portStatus o port half => originOk o && fits [(1, port), (1, half)]
  | .portCounters o port half clear => originOk o && fits [(1, port), (1, half), (1, clear)]
  | .portProfileRead o port half => originOk o && fits [(1, port), (1, half)]
  | .portRetrain o port half => originOk o && fits [(1, port), (1, half)]
  | .portSpareSwap o port half lane => originOk o && fits [(1, port), (1, half), (1, lane)]
  | .portSpareFuse o port dir pos => originOk o && fits [(1, port), (1, dir), (1, pos)]
  | .portBufStatus o die acct => originOk o && fits [(1, die), (4, acct)]
  | .portBufCounters o die clear => originOk o && fits [(1, die), (1, clear)]
  | .portMeterRead o port half vc clear => originOk o && fits [(1, port), (1, half), (1, vc), (1, clear)]
  | .portSchedRead o port half clear => originOk o && fits [(1, port), (1, half), (1, clear)]
  | .arbStatus o kind index dir clear => originOk o && fits [(1, kind), (1, index), (1, dir), (1, clear)]
  | .routeLoad o addr => originOk o && fits [(8, addr)]
  | .routeLoadComplete => true
  | .routeCheck o addr len => originOk o && fits [(8, addr), (8, len)]
  | .routeCheckComplete => true
  | .routeStatus o => originOk o
  | .routeLookup o epoch src dst channel vc mcast port half => originOk o && fits [(1, epoch), (4, src), (4, dst), (1, channel), (1, vc), (1, mcast), (1, port), (1, half)]
  | .routeCounters o die clear => originOk o && fits [(1, die), (1, clear)]
  | .collGroupCreate o addr len => originOk o && fits [(8, addr), (8, len)]
  | .collGroupDestroy o group => originOk o && fits [(2, group)]
  | .collGroupStatus o group clear => originOk o && fits [(2, group), (1, clear)]
  | .collStragglers o group => originOk o && fits [(2, group)]
  | .collCounters o die clear => originOk o && fits [(1, die), (1, clear)]
  | .collAbort o group seq => originOk o && fits [(2, group), (4, seq)]
  | .patLoad o addr len => originOk o && fits [(8, addr), (8, len)]
  | .patUnload o pat => originOk o && fits [(1, pat)]
  | .patLaunchAt o a => originOk o && fits [(2, a.launch), (1, a.pat), (8, a.map), (1, a.slotsPer), (2, a.entry), (8, a.target), (1, a.late), (2, a.group), (8, a.runLimit), (1, a.optStep), (4, a.step), (4, a.arg0), (4, a.arg1)]
  | .patStatus o launch => originOk o && fits [(2, launch)]
  | .patAbort o launch => originOk o && fits [(2, launch)]
  | .patFaultRead o skein index slot => originOk o && fits [(1, skein), (1, index), (1, slot)]
  | .patTraceSet o mask lo hi events ring size wrap => originOk o && fits [(1, mask), (2, lo), (2, hi), (1, events), (8, ring), (8, size), (1, wrap)]
  | .predLayerSet o skein index addr => originOk o && fits [(1, skein), (1, index), (8, addr)]
  | .predLayerClear o skein index => originOk o && fits [(1, skein), (1, index)]
  | .predLayerStatus o skein index clear => originOk o && fits [(1, skein), (1, index), (1, clear)]
  | .descLoad o handle count addr => originOk o && fits [(2, handle), (2, count), (8, addr)]
  | .descRead o handle => originOk o && fits [(2, handle)]
  | .descClear o handle count => originOk o && fits [(2, handle), (2, count)]
  | .ladStreamCreate o die stream addr => originOk o && fits [(1, die), (1, stream), (8, addr)]
  | .ladStreamDestroy o die stream => originOk o && fits [(1, die), (1, stream)]
  | .ladFlush o die stream => originOk o && fits [(1, die), (1, stream)]
  | .ladStreamStatus o die stream => originOk o && fits [(1, die), (1, stream)]
  | .ladCounters o die clear => originOk o && fits [(1, die), (1, clear)]
  | .expPlace o addr => originOk o && fits [(8, addr)]
  | .expRemove o expert => originOk o && fits [(2, expert)]
  | .expReplicaAdd o expert map grad => originOk o && fits [(2, expert), (8, map), (2, grad)]
  | .expReplicaDrop o expert replica => originOk o && fits [(2, expert), (1, replica)]
  | .expRemoteSet o kind index lo hi owner remove => originOk o && fits [(1, kind), (1, index), (2, lo), (2, hi), (4, owner), (1, remove)]
  | .expMaskSet o expert replica addr => originOk o && fits [(2, expert), (1, replica), (8, addr)]
  | .expStepSet o expert step => originOk o && fits [(2, expert), (4, step)]
  | .expGradClose o expert step => originOk o && fits [(2, expert), (4, step)]
  | .expStatus o expert clear => originOk o && fits [(2, expert), (1, clear)]
  | .expCounters o die clear => originOk o && fits [(1, die), (1, clear)]
  | .expResume o expert replica => originOk o && fits [(2, expert), (1, replica)]
  | .updShardCreate o handle addr len source far => originOk o && fits [(2, handle), (8, addr), (8, len), (1, source), (8, far)]
  | .updShardDestroy o handle => originOk o && fits [(2, handle)]
  | .updApply o handle addr version => originOk o && fits [(2, handle), (8, addr), (4, version)]
  | .updParamsSet o handle fromX params => originOk o && fits [(2, handle), (4, fromX)] && decide (params.length = 32)
  | .updShardStatus o handle clear => originOk o && fits [(2, handle), (1, clear)]
  | .updShardRebind o handle fid index => originOk o && fits [(2, handle), (4, fid), (2, index)]
  | .updShardRestore o handle far => originOk o && fits [(2, handle), (8, far)]
  | .updCommitForce o handle version => originOk o && fits [(2, handle), (4, version)]
  | .updCopyAdd o handle entry => originOk o && fits [(2, handle)] && decide (entry.length = 16)
  | .updCopyDrop o handle copy => originOk o && fits [(2, handle), (1, copy)]
  | .updMirrorCreate o index fid handle n b slot0 slot1 => originOk o && fits [(2, index), (4, fid), (2, handle), (4, n), (1, b), (8, slot0), (8, slot1)]
  | .updMirrorBind o index fid handle => originOk o && fits [(2, index), (4, fid), (2, handle)]
  | .updMirrorDestroy o index => originOk o && fits [(2, index)]
  | .updMirrorStatus o index => originOk o && fits [(2, index)]
  | .updCounters o skein clear => originOk o && fits [(1, skein), (1, clear)]
  | .pwrEnvelopeSet o watts => originOk o && fits [(4, watts)]
  | .pwrStatus o clear => originOk o && fits [(1, clear)]
  | .pwrTelemetry o => originOk o
  | .pwrStitchState o map state => originOk o && fits [(8, map), (1, state)]
  | .pwrCounters o domain clear => originOk o && fits [(1, domain), (1, clear)]
  | .logStatus o => originOk o
  | .logMark o value => originOk o && fits [(8, value)]
  | .logClear o upTo => originOk o && fits [(4, upTo)]
  | .logPolicy o policy => originOk o && fits [(1, policy)]
  | .sentStatus o skein clear => originOk o && fits [(1, skein), (1, clear)]
  | .sentSet o a => originOk o && fits [(1, a.mask), (1, a.enable), (1, a.k), (1, a.offset), (2, a.derateAt), (2, a.retireAt), (1, a.derateMax), (1, a.fuse), (1, a.clear)]
  | .stitchRetire o skein index action => originOk o && fits [(1, skein), (1, index), (1, action)]
  | .swatchRun o addr len _ limit => originOk o && fits [(8, addr), (8, len), (8, limit)]
  | .swatchScheduleAt o slot remove target late period addr len _ limit => originOk o && fits [(1, slot), (1, remove), (8, target), (1, late), (8, period), (8, addr), (8, len), (8, limit)]
  | .swatchStatus o slot => originOk o && fits [(1, slot)]
  | .fuseLedgerRead o => originOk o
  | .fuseRollbackAdvance o target => originOk o && fits [(1, target)]
  | .fuseStitchRetire o skein index => originOk o && fits [(1, skein), (1, index)]
  | .fuseKeyRevoke o slot => originOk o && fits [(1, slot)]
  | .hostClaim o _ force => originOk o && fits [(1, force)]
  | .hostRelease o _ => originOk o
  | .hostStatus o => originOk o
  | .hostRoleSwap o => originOk o
  | .mbStateWrite _ m _ => decide (m < 32)
  | .mailboxCmdWrite _ m off data => decide (m < 32) && decide (off + data.length ≤ 4096)
  | .pipRead _ _ => true
  | .bar2Read _ _ _ => true
  | .bar2Write _ _ _ => true
  | .spadRetainWrite st _ => decide (st < 1024)
  | .registerWrite _ data => decide (data.length ≤ 64)
  | .sbDataRead => true
  | .sbWindowWrite _ => true
  | .smbusAlertResponse => true
  | .hostLinkTrain _ _ _ => true
  | .perstAssert _ => true
  | .failoverWaitExpiry => true
  | .watchdogExpiry => true
  | .mgmtRequest ing => decide (ing < 168)
  | .mgmtResponse ing => decide (ing < 168)
  | .frameReceive lk _ cells _ => decide (lk < 128) && decide (cells.length % 64 = 0) && decide (cells.length ≤ 8192)
  | .profileFrame lk => decide (lk < 128)
  | .dataFrame ing vc => decide (ing < 168) && decide (vc < 8)
  | .readReq ing vc => decide (ing < 168) && decide (vc < 8)
  | .readRsp ing => decide (ing < 168)
  | .errCompl ing => decide (ing < 168)
  | .addI32 ing => decide (ing < 168)
  | .addI64 ing => decide (ing < 168)
  | .addF32 ing => decide (ing < 168)
  | .addF32x8 ing => decide (ing < 168)
  | .maxI32 ing => decide (ing < 168)
  | .minI32 ing => decide (ing < 168)
  | .maxF32 ing => decide (ing < 168)
  | .minF32 ing => decide (ing < 168)
  | .and64 ing => decide (ing < 168)
  | .or64 ing => decide (ing < 168)
  | .xor64 ing => decide (ing < 168)
  | .swap64 ing => decide (ing < 168)
  | .cas64 ing => decide (ing < 168)
  | .signalFlag ing => decide (ing < 168)
  | .signalCnt ing => decide (ing < 168)
  | .contrib ing => decide (ing < 168)
  | .partialFrame ing => decide (ing < 168)
  | .resultFrame ing => decide (ing < 168)
  | .doneFrame ing => decide (ing < 168)
  | .failFrame ing => decide (ing < 168)
  | .errorFrame ing => decide (ing < 168)
  | .tallyAdmit ing => decide (ing < 168)
  | .collTimeout group seq => decide (group < 4096) && decide (seq < 2 ^ 32)
  | .collBackstopTimeout group seq => decide (group < 4096) && decide (seq < 2 ^ 32)
  | .token ing => decide (ing < 168)
  | .tokenRes ing => decide (ing < 168)
  | .asmLimitExpiry ing src channel pass => decide (ing < 168) && decide (src < 2 ^ 20) && decide (channel < 256) && decide (pass < 2)
  | .tokenNotice expert => decide (expert < 2 ^ 16)
  | .tileWaitExpiry expert pass => decide (expert < 2 ^ 16) && decide (pass < 2)
  | .runLoad expert replica area => decide (expert < 2 ^ 16) && decide (replica < 8) && decide (area < 2)
  | .runStart expert replica area => decide (expert < 2 ^ 16) && decide (replica < 8) && decide (area < 2)
  | .runEnd expert replica => decide (expert < 2 ^ 16) && decide (replica < 8)
  | .runLimitExpiry expert replica => decide (expert < 2 ^ 16) && decide (replica < 8)
  | .bwdLimitExpiry expert => decide (expert < 2 ^ 16)
  | .mirrorData ing => decide (ing < 168)
  | .mirrorSeal ing => decide (ing < 168)
  | .updateOpen handle => decide (handle < 1024)
  | .pipeSlice handle => decide (handle < 1024)
  | .mirrorChunkSend handle => decide (handle < 1024)
  | .mirrorTimeout dst seq => decide (dst < 2 ^ 20) && decide (seq < 2 ^ 32)
  | .rubCommitTimeout group seq => decide (group < 4096) && decide (seq < 2 ^ 32)
  | .ladderBatchDeadline die stream => decide (die < 4) && decide (stream < 16)
  | .ladderBatchLoad die => decide (die < 4)
  | .ladderBatchOutput die buf => decide (die < 4) && decide (buf < 2)
  | .pipMark lk _ => decide (lk < 128)
  | .pipMarkSend lk => decide (lk < 128)
  | .holdoverEnter => true
  | .credit lk _ => decide (lk < 128)
  | .ack lk _ => decide (lk < 128)
  | .nak lk _ => decide (lk < 128)
  | .skip lk _ => decide (lk < 128)
  | .laneSwapReq lk _ => decide (lk < 128)
  | .laneSwapDone lk _ => decide (lk < 128)
  | .barrier lk _ => decide (lk < 128)
  | .train lk _ _ _ => decide (lk < 128)
  | .retrainReq lk _ => decide (lk < 128)
  | .goingDark lk _ => decide (lk < 128)
  | .narrow lk _ => decide (lk < 128)
  | .idle lk _ => decide (lk < 128)
  | .reservedTick lk _ => decide (lk < 128)
  | .alignmentMarker lk block _ => decide (lk < 128) && decide (block.length = 32)
  | .alignmentMarkerSend lk => decide (lk < 128)
  | .ackSend lk => decide (lk < 128)
  | .creditSend lk => decide (lk < 128)
  | .egressFrameStart lk => decide (lk < 128)
  | .cutThroughUnderrun lk => decide (lk < 128)
  | .replayTimeout lk => decide (lk < 128)
  | .linkHoldExpiry lk ing vc => decide (lk < 128) && decide (ing < 168) && decide (vc < 8)
  | .trainingLimitExpiry lk => decide (lk < 128)
  | .trainingRestart lk => decide (lk < 128)
  | .laneSignalLoss lk lane => decide (lk < 128) && decide (lane < 5)
  | .laneBerWindow lk lane _ _ => decide (lk < 128) && decide (lane < 5)
  | .swapRefusedTimeout lk => decide (lk < 128)
  | .lostLaneHoldExpiry lk => decide (lk < 128)
  | .profileSend lk => decide (lk < 128)
  | .profileLoss lk => decide (lk < 128)
  | .laserReady mod lit => decide (mod < 8) && decide (lit.length = 5)
  | .overflowSpill die ing vc => decide (die < 4) && decide (ing < 168) && decide (vc < 8)
  | .overflowReadback die ing vc => decide (die < 4) && decide (ing < 168) && decide (vc < 8)
  | .multicastReplica die => decide (die < 4)
  | .arbiterDecide kind index dir raised => decide (kind < 4) && decide (index < 256) && decide (dir < 2) && raised.all (fun i => decide (i < 16))
  | .bridgeFlitRetry bridge dir => decide (bridge < 12) && decide (dir < 2)
  | .launchStart launch => decide (launch < 2 ^ 20)
  | .barrierStart launch => decide (launch < 2 ^ 20)
  | .barrierRootTimeout launch => decide (launch < 2 ^ 20)
  | .barrierMemberTimeout launch => decide (launch < 2 ^ 20)
  | .launchRunLimit launch => decide (launch < 2 ^ 20)
  | .ctrl st slot => decide (st < 1024) && decide (slot < 64)
  | .mma st slot => decide (st < 1024) && decide (slot < 64)
  | .mmaZero st slot => decide (st < 1024) && decide (slot < 64)
  | .loadAcc st slot => decide (st < 1024) && decide (slot < 64)
  | .drain st slot => decide (st < 1024) && decide (slot < 64)
  | .predict st slot => decide (st < 1024) && decide (slot < 64)
  | .maskN st slot => decide (st < 1024) && decide (slot < 64)
  | .maskK st slot => decide (st < 1024) && decide (slot < 64)
  | .vectorFma st slot => decide (st < 1024) && decide (slot < 64)
  | .vectorAdd st slot => decide (st < 1024) && decide (slot < 64)
  | .vectorMul st slot => decide (st < 1024) && decide (slot < 64)
  | .vectorMax st slot => decide (st < 1024) && decide (slot < 64)
  | .vectorMin st slot => decide (st < 1024) && decide (slot < 64)
  | .vectorCmpEq st slot => decide (st < 1024) && decide (slot < 64)
  | .vectorCmpLt st slot => decide (st < 1024) && decide (slot < 64)
  | .vectorCmpLe st slot => decide (st < 1024) && decide (slot < 64)
  | .vectorAnd st slot => decide (st < 1024) && decide (slot < 64)
  | .vectorOr st slot => decide (st < 1024) && decide (slot < 64)
  | .vectorXor st slot => decide (st < 1024) && decide (slot < 64)
  | .vectorCvt st slot => decide (st < 1024) && decide (slot < 64)
  | .dma st slot => decide (st < 1024) && decide (slot < 64)
  | .copy st slot => decide (st < 1024) && decide (slot < 64)
  | .gather st slot => decide (st < 1024) && decide (slot < 64)
  | .memAtomic st slot => decide (st < 1024) && decide (slot < 64)
  | .sigRemote st slot => decide (st < 1024) && decide (slot < 64)
  | .agsetBase st slot => decide (st < 1024) && decide (slot < 64)
  | .agsetStride st slot => decide (st < 1024) && decide (slot < 64)
  | .agsetAdd st slot => decide (st < 1024) && decide (slot < 64)
  | .cmpSet st slot => decide (st < 1024) && decide (slot < 64)
  | .cmpAdd st slot => decide (st < 1024) && decide (slot < 64)
  | .lcSet st slot => decide (st < 1024) && decide (slot < 64)
  | .cntWrite st slot => decide (st < 1024) && decide (slot < 64)
  | .testWord st slot => decide (st < 1024) && decide (slot < 64)
  | .predSet st slot => decide (st < 1024) && decide (slot < 64)
  | .descWord st slot => decide (st < 1024) && decide (slot < 64)
  | .endWord st slot => decide (st < 1024) && decide (slot < 64)
  | .operationComplete st engine => decide (st < 1024) && decide (engine < 4)
  | .farTimeout dst seq => decide (dst < 2 ^ 20) && decide (seq < 2 ^ 32)
  | .icacheFill st slot => decide (st < 1024) && decide (slot < 64)
  | .bankWake st bank => decide (st < 1024) && decide (bank < 32)
  | .bankRetentionEntry st bank => decide (st < 1024) && decide (bank < 32)
  | .stitchHoldEntry st => decide (st < 1024)
  | .stitchWake st => decide (st < 1024)
  | .turnBoundary => true
  | .grantCompute => true
  | .telemetryRead domain _ _ _ => decide (domain < 8)
  | .sensorSample readings => decide (readings.length = 352) && readings.all (fun r => decide (r.1 < 2 ^ 16))
  | .telemRefresh => true
  | .clockStep domain => decide (domain < 8)
  | .voltageRegulated domain => decide (domain < 8)
  | .voltageRaiseTimeout domain => decide (domain < 8)
  | .thermalEmergency domain => decide (domain < 8)
  | .emergencyExit domain => decide (domain < 8)
  | .dealerDecide skein => decide (skein < 4)
  | .witnessCheck skein _ => decide (skein < 4)
  | .sentinelTiebreak skein _ _ => decide (skein < 4)
  | .suspectDecay => true
  | .swatchOccurrence slot => decide (slot < 64)
  | .swatchRunLimit => true
  | .patrolScrub channel => decide (channel < 256)
  | .correctableWindow => true
  | .logEntryWrite => true
  | .logSuppressEnd code src => decide (code < 2 ^ 16) && decide (src < 2 ^ 16)
  | .powerOnReset rail _ => decide (rail < 23)
  | .resetN _ => true
  | .thermalTrip sensor reading => decide (sensor < 352) && decide (reading < 2 ^ 16)
  | .thermalTripRelease => true
  | .extestExit => true
  | .castOnStrap samples => decide (samples.length = 4)
  | .castOnFuses _ => true
  | .castOnRom _ _ => true
  | .castOnVerify => true
  | .castOnDram _ => true
  | .castOnBridges _ => true
  | .castOnSkeins failing => failing.all (fun st => decide (st < 1024))
  | .castOnLasers lit => decide (lit.length = 40)
  | .castOnLinks => true
  | .castOnProfile => true
  | .castOnReady => true
  | .barrierArrive launch => decide (launch < 2 ^ 20)
  | .swatchRecord kind unit => decide (kind < 3) && decide (unit < 1024)
  | .hostLinkDown _ => true
  | .resetEnd scope unit => decide (2 ≤ scope) && decide (scope < 7) && decide (unit < 1024)
  | .standbyRestart _ => true
  | .dramRefresh channel => decide (channel < 256)

end Sys2Proof
end

