-- ==== Sys2Proof/Certificates/Slice0/Obligations.lean ====
section
/-! DEFINITION. Statements about the model, each from the rules it names. -/

open Sys2Proof Sys2Proof.Machine

/-- PIP_MARK (02 R43, R44; R46 for the step). θ and d are in half-pips. -/
def Obligations.PipMarkSample : Prop :=
  ∀ (lk a4 : Nat), ∀ (w : BitVec 64), ∀ (s : State), a4 = s.pipOn (linkDie lk) →
    (s.link lk).live = true → (s.link lk).delin = true → tickGood w = true → tickLead w = 14 →
    ∃ t : State, exec (.pipMark lk w) s = .next t ∧
      (t.link lk).time.stratum = bits w.toNat 8 4 ∧
      (t.link lk).time.rxSeq = some (bits w.toNat 56 4) ∧
      (t.link lk).time.rxStamp = a4 ∧
      (∀ a1 d : Int, ∀ k : Nat, tabGet? (s.link lk).time.txStamps (bits w.toNat 28 4) = some k → a1 = k →
        d = (a4 : Int) - a1 - bits w.toNat 12 16 →
        ((s.link lk).time.stale a4 (bits w.toNat 28 4) = false ∧ a4 / 1024 ≤ k / 1024 + 15 ∧ bits w.toNat 12 16 ≠ 0xFFFF ∧ 0 ≤ d + s.asym lk ∧ d + s.asym lk ≤ 14000 →
          (t.link lk).time.theta = 2 * (nearest24 (bits w.toNat 32 24) a4 - a4) + d ∧
          (t.link lk).time.delay = d + s.asym lk ∧ (t.link lk).time.valid = true ∧ (t.link lk).time.age = 0) ∧
        ((s.link lk).time.stale a4 (bits w.toNat 28 4) = true ∨ k / 1024 + 15 < a4 / 1024 ∨ bits w.toNat 12 16 = 0xFFFF ∨ d + s.asym lk < 0 ∨ 14000 < d + s.asym lk →
          (t.link lk).time.theta = (s.link lk).time.theta ∧ (t.link lk).time.delay = (s.link lk).time.delay ∧
          t.time.pip = s.time.pip ∧ t.time.state = s.time.state)) ∧
      (tabGet? (s.link lk).time.txStamps (bits w.toNat 28 4) = none →
        (t.link lk).time.theta = (s.link lk).time.theta ∧ (t.link lk).time.delay = (s.link lk).time.delay ∧
        t.time.pip = s.time.pip ∧ t.time.state = s.time.state) ∧
      (s.time.state ≠ .unlocked → t.time.pip = s.time.pip) ∧
      t = { s with links := t.links, time := t.time, log := t.log }

/-- PIP_MARK_SEND (02 R41, R42; 03 R89). -/
def Obligations.PipMarkSent : Prop :=
  (∀ (lk a1 : Nat), ∀ (s : State), a1 = s.pipOn (linkDie lk) → (s.link lk).sends = true → (s.link lk).time.markNo < s.time.pip / 1024 →
    ∃ t : State, exec (.pipMarkSend lk) s = .next t ∧
      (∃ x, Out.tick lk (markWord (s.link lk).time.markSeq a1 ((s.link lk).time.rxSeq.getD 0)
          (residence a1 (s.link lk).time x) s.stratum) ∈ t.out) ∧
      (t.link lk).ticks = [] ∧
      (t.link lk).time.markNo = s.time.pip / 1024 ∧
      (t.link lk).time.markSeq = ((s.link lk).time.markSeq + 1) % 16 ∧
      tabGet? (t.link lk).time.txStamps ((s.link lk).time.markSeq % 16) = some a1 ∧
      t = { s with links := t.links, buf := t.buf, out := t.out, free := t.free }) ∧
  (∀ (lk : Nat), ∀ (s : State), s.time.pip / 1024 ≤ (s.link lk).time.markNo ∨ (s.link lk).sends = false → exec (.pipMarkSend lk) s = .next s)

/-- HOLDOVER_ENTER (02 R48) and BARRIER (02 R57, R50). -/
def Obligations.HoldoverAndBarrierTicks : Prop :=
  (∀ s : State, s.timeRole = 1 → s.time.state = .locked → (∀ lk ∈ s.linkNums, s.eligible lk = false) →
    ∃ t : State, exec .holdoverEnter s = .next t ∧ t.time.state = .holdover ∧ t.time.pip = s.time.pip ∧
      t.time.parent = none ∧ (∃ e ∈ t.log.raised, e.code = 0x0202 ∧ e.stamp = s.time.pip) ∧
      t = { s with time := t.time, log := t.log, links := t.links }) ∧
  (∀ (lk : Nat), ∀ (w : BitVec 64), ∀ (s : State), ∀ (b : BarrierSlot),
    (s.link lk).live = true → (s.link lk).delin = true → tickIs w 6 = true →
    tabGet? s.time.slots (bits w.toNat 53 3) = some b → (s.link lk).time.excluded = false →
    ∃ t : State, ∃ b', exec (.barrier lk w) s = .next t ∧ tabGet? t.time.slots (bits w.toNat 53 3) = some b' ∧
      b'.kids = b.kids.map (fun k => if k.1 = lk then (lk, bit w.toNat 52) else k) ∧
      (b.busy = true ∧ b.parent = some lk ∧ bit w.toNat 51 = b.phase ∧ b.go = false ∧ b.goAt = none ∧ s.goLate b = false →
        b'.goAt = some s.time.pip ∧
        ∀ c ∈ b.kids, (s.link c.1).time.excluded = false → ∃ q ∈ (t.link c.1).ticks, q.2 = b'.word (bits w.toNat 53 3) ∧ b'.goBit = b.phase) ∧
      (b.parent ≠ some lk ∨ b.busy = false ∨ s.goLate b = true → b'.goAt = b.goAt) ∧
      (b.parent = some lk → b.busy = false → b.quiet ≤ s.time.pip → b'.goBit = bit w.toNat 51 ∧ b'.arriveBit = bit w.toNat 51) ∧
      t = { s with time := t.time, links := t.links }) ∧
  (∀ (lk : Nat), ∀ (w : BitVec 64), ∀ (s : State), (s.link lk).live = true → (s.link lk).delin = true →
    tickIs w 6 = true → (s.link lk).time.excluded = true → exec (.barrier lk w) s = .next s)


/-- FRAME_RECEIVE (03 R97, R87). -/
def Obligations.FrameReceiveRules : Prop :=
  ∀ (lk : Nat), ∀ (hdr : BitVec 128), ∀ (cells : List Byte), ∀ (trl : BitVec 64), ∀ (s : State),
    (s.link lk).live = true → (s.link lk).delin = true → s.linkTorn lk = none →
    (headerGood hdr = false →
      ∃ u : State, exec (.frameReceive lk hdr cells trl) s = .next u.settle ∧ (u.link lk).delin = false ∧
        u = { s with links := u.links, cnt := u.cnt }) ∧
    (headerGood hdr = true → trailerGood hdr cells trl = true →
      lsnDiff (bits trl.toNat 32 24) (s.link lk).expected = 0 →
      ∃ u : State, exec (.frameReceive lk hdr cells trl) s = .next u.settle ∧
        (u.link lk).expected = ((s.link lk).expected + 1) % 2 ^ 24 ∧ (u.link lk).ackDue = true ∧
        (u.link lk).nakOut = false ∧ u.mem = s.mem ∧ u.host = s.host ∧
        (bit trl.toNat 63 = true → u.buf.frames = s.buf.frames)) ∧
    (headerGood hdr = true → trailerGood hdr cells trl = true →
      lsnDiff (bits trl.toNat 32 24) (s.link lk).expected < 0 →
      ∃ u : State, exec (.frameReceive lk hdr cells trl) s = .next u.settle ∧
        u.buf = s.buf ∧ u.mem = s.mem ∧ u.host = s.host ∧ u.link lk = s.link lk) ∧
    (∀ cause, headerGood hdr = true →
      (trailerGood hdr cells trl = false ∧ cause = 0 ∨
        trailerGood hdr cells trl = true ∧ 0 < lsnDiff (bits trl.toNat 32 24) (s.link lk).expected ∧ cause = 1) →
      ∃ u : State, exec (.frameReceive lk hdr cells trl) s = .next u.settle ∧
        (u.link lk).expected = (s.link lk).expected ∧ u.buf = s.buf ∧
        ((s.link lk).nakOut = true → u.link lk = s.link lk) ∧
        ((s.link lk).nakOut = false → (s.link lk).rxSwap = none → (s.link lk).rxHold = none → (u.link lk).nakOut = true ∧
          ∃ q ∈ (u.link lk).ticks, q.2 = nakWord (s.link lk).expected cause))

/-- CREDIT (03 R91), ACK (R96), NAK (R100, R103), REPLAY_TIMEOUT (R102), SKIP (R103), ACK_SEND (R98), CREDIT_SEND (R94), IDLE
(R89), RESERVED_TICK (R88), and the code of every tick (R87). -/
def Obligations.LinkFlowControl : Prop :=
  (∀ lk : Nat, ∀ w, ∀ s : State, (s.link lk).live = true → (s.link lk).delin = true → tickIs w 1 = true → s.torn rowCredit lk 0 = false →
    ∃ u : State, exec (.credit lk w) s = .next u.settle ∧ tabGet (u.link lk).total 0 (bits w.toNat 34 3) = bits w.toNat 18 16 ∧
      (bits w.toNat 53 3 ≠ bits w.toNat 34 3 → tabGet (u.link lk).total 0 (bits w.toNat 53 3) = bits w.toNat 37 16) ∧
      (∀ v, v ≠ bits w.toNat 53 3 → v ≠ bits w.toNat 34 3 →
        tabGet (u.link lk).total 0 v = tabGet (s.link lk).total 0 v ∧
        tabGet (u.link lk).allow 0 v = tabGet (s.link lk).allow 0 v) ∧
      (u.link lk).used = (s.link lk).used ∧ u = { s with links := u.links }) ∧
  (∀ lk : Nat, ∀ w, ∀ s : State, (s.link lk).live = true → (s.link lk).delin = true → tickIs w 2 = true →
    ∃ t : State, exec (.ack lk w) s = .next t ∧
      (t.link lk).replay = (s.link lk).replay.filter (fun x => decide (lsnDiff x.lsn (bits w.toNat 32 24) > 0)) ∧
      ((s.link lk).state = .profile → (s.link lk).profGot = true →
        (∃ n, (s.link lk).profLsn = some n ∧ lsnDiff (bits w.toNat 32 24) n ≥ 0) → (t.link lk).carries = true) ∧
      t.mem = s.mem ∧ t.buf.frames = s.buf.frames ∧ t.buf.accts = s.buf.accts ∧ t.pending = s.pending) ∧
  (∀ lk : Nat, ∀ w, ∀ s : State, ∀ x, (s.link lk).live = true → (s.link lk).delin = true → tickIs w 3 = true → (s.link lk).held = false →
    (s.link lk).replay.find? (·.lsn == bits w.toNat 32 24) = some x → s.siteUe (.replay lk x.lsn) = false →
    ∃ t : State, exec (.nak lk w) s = .next t ∧
      (x.replays < 3 → (t.link lk).resendFrom = some x.lsn ∧
        (t.link lk).replay = (s.link lk).replay.map (fun y => if y.lsn = x.lsn then { y with replays := y.replays + 1 } else y)) ∧
      (3 ≤ x.replays → (t.link lk).replay = (s.link lk).replay.filter (·.lsn != x.lsn) ∧
        ∃ q ∈ (t.link lk).ticks, q.2 = skipWord x.lsn x.f.vc (x.f.n + 1)) ∧
      t = { s with links := t.links, cnt := t.cnt }) ∧
  (∀ lk : Nat, ∀ w, ∀ s : State, ∀ x, (s.link lk).live = true → (s.link lk).delin = true → tickIs w 3 = true → (s.link lk).held = false →
    (s.link lk).replay.find? (·.lsn == bits w.toNat 32 24) = some x → s.siteUe (.replay lk x.lsn) = true →
    ∃ t : State, exec (.nak lk w) s = .next t ∧ (t.link lk).replay = (s.link lk).replay.filter (·.lsn != x.lsn) ∧
      (∃ q ∈ (t.link lk).ticks, q.2 = skipWord x.lsn x.f.vc (x.f.n + 1)) ∧ (∃ e ∈ t.log.raised, e.code = 0x1101)) ∧
  (∀ lk : Nat, ∀ s : State, ∀ x, ∀ r, (s.link lk).live = true → (s.link lk).replay = x :: r → (s.link lk).held = false → x.replays < 3 → s.siteUe (.replay lk x.lsn) = false →
    max x.stamp (s.link lk).adv + s.linkSetting idReplayTo lk * 1000 ≤ s.time.pip →
    ∃ t : State, exec (.replayTimeout lk) s = .next t ∧ (t.link lk).resendFrom = some x.lsn ∧
      (t.link lk).replay.head? = some { x with replays := x.replays + 1 } ∧ t = { s with links := t.links, cnt := t.cnt }) ∧
  (∀ lk : Nat, ∀ w, ∀ s : State, (s.link lk).live = true → (s.link lk).delin = true → tickIs w 4 = true →
    (bits w.toNat 32 24 = (s.link lk).expected →
      ∃ t : State, exec (.skip lk w) s = .next t ∧ (t.link lk).expected = ((s.link lk).expected + 1) % 2 ^ 24 ∧
        t = { s with links := t.links, cnt := t.cnt, buf := t.buf, traf := t.traf }) ∧
    (bits w.toNat 32 24 ≠ (s.link lk).expected → exec (.skip lk w) s = .next s)) ∧
  (∀ lk : Nat, ∀ s : State, (s.link lk).sends = true → (s.link lk).ackDue = true →
    ∃ t : State, exec (.ackSend lk) s = .next t ∧ (t.link lk).ackDue = false ∧ (t.link lk).ticks = [] ∧
      Out.tick lk (ackWord (((s.link lk).expected + 2 ^ 24 - 1) % 2 ^ 24)) ∈ t.out ∧
      t = { s with links := t.links, out := t.out }) ∧
  (∀ lk : Nat, ∀ s : State, ∀ v, (s.link lk).sends = true → v < 8 → (v = 0 ∨ s.vcBlocked lk = false) →
    (s.acct (portAcct (s.phOf lk) v)).freed ≠ 0 →
    ∃ t : State, exec (.creditSend lk) s = .next t ∧ (t.acct (portAcct (s.phOf lk) v)).freed = 0 ∧
      (∃ x, ∃ y, Out.tick lk (creditWord v (s.totalOf lk v) x y) ∈ t.out ∨
        Out.tick lk (creditWord x y v (s.totalOf lk v)) ∈ t.out) ∧
      t = { s with links := t.links, buf := t.buf, out := t.out }) ∧
  (∀ lk : Nat, ∀ w, ∀ s : State, tickIs w 0 = true → exec (.idle lk w) s = .next s) ∧
  (∀ lk : Nat, ∀ w, ∀ s : State, (s.link lk).live = true → (s.link lk).delin = true → tickGood w = true → tickLead w = 15 → 9 ≤ tickKind w →
    exec (.reservedTick lk w) s = .next (s.bump .port lk pcBadTick)) ∧
  (∀ lk : Nat, ∀ w, ∀ s : State, (s.link lk).live = true → (s.link lk).delin = true → tickGood w = false →
    ∃ t : State, exec (.idle lk w) s = .next t ∧ exec (.ack lk w) s = .next t ∧ exec (.nak lk w) s = .next t ∧
      exec (.skip lk w) s = .next t ∧ exec (.pipMark lk w) s = .next t ∧ (t.link lk).delin = false ∧
      t.count .port lk pcTickCrc = min cMax (s.count .port lk pcTickCrc + 1))

/-- TRAIN (03 R74, R78), TRAINING_LIMIT_EXPIRY and TRAINING_RESTART (R75), RETRAIN_REQ, GOING_DARK (R116), PROFILE_FRAME (R113),
PROFILE_SEND (R112), PROFILE_LOSS (R114). -/
def Obligations.TrainingAndProfiles : Prop :=
  (∀ lk : Nat, ∀ w, ∀ ber, ∀ s : State, (s.link lk).delin = true → (s.link lk).state = .signal → tickIs w 7 = true →
    ∃ t : State, exec (.train lk w false ber) s = .next t ∧ (t.link lk).state = .signal ∧
      ∀ k ∈ t.trainPositions lk, Out.tick lk (trainWord 1 k (t.trainBody lk)) ∈ t.out) ∧
  (∀ lk : Nat, ∀ w, ∀ ber, ∀ s : State, (s.link lk).delin = true → tickIs w 7 = true → bit w.toNat 48 = true →
    ((s.link lk).state = .signal →
      ∃ t : State, exec (.train lk w true ber) s = .next t ∧ (t.link lk).state = .equalize ∧ (t.link lk).since = s.time.pip ∧
        t.buf = s.buf ∧ t.mem = s.mem) ∧
    ((s.link lk).state = .equalize → 2 ≤ bits w.toNat 52 4 →
      ∃ t : State, exec (.train lk w true ber) s = .next t ∧ (t.link lk).state = .config ∧ t.buf = s.buf ∧ t.mem = s.mem)) ∧
  (∀ lk : Nat, ∀ w, ∀ locked, ∀ ber, ∀ s : State, (s.link lk).delin = true → tickIs w 7 = true → (s.link lk).state = .config →
    7 ≤ (s.link lk).peer.agreed → 8 ≤ (s.link lk).ownRun → bits w.toNat 52 4 = 3 → s.splitIn s.cfg.vals (lk / 2) = false → bit w.toNat 35 = false →
    { (s.link lk).peer with rxReady := bit w.toNat 48 } =
      ({ rxReady := bit w.toNat 48, fecCap := bits w.toNat 38 2, fecReq := bits w.toNat 36 2, split := bit w.toNat 35,
         spareCap := bit w.toNat 34, txOut := bits w.toNat 31 3, rxOut := bits w.toNat 28 3,
         agreed := (s.link lk).peer.agreed } : Peer) →
    ∃ t : State, exec (.train lk w locked ber) s = .next t ∧ (t.link lk).state = .profile ∧ (t.link lk).profDue = true ∧
      (t.link lk).lsn = 0 ∧ (t.link lk).expected = 0) ∧
  (∀ lk : Nat, ∀ s : State, ∀ n, trainLimit (s.link lk).state = some n → (s.link lk).since + n ≤ s.time.pip →
    ∃ t : State, exec (.trainingLimitExpiry lk) s = .next t ∧ (t.link lk).attempts = (s.link lk).attempts + 1 ∧
      ((s.link lk).attempts < 15 → (t.link lk).state = .dark ∧ (t.link lk).offSince = some s.time.pip) ∧
      (15 ≤ (s.link lk).attempts → (t.link lk).state = .failed ∧
        ∃ e ∈ t.log.raised, e.code = 0x0301 ∧ e.stamp = s.time.pip)) ∧
  (∀ lk : Nat, ∀ s : State, ∀ k, (s.link lk).offSince = some k → k + 1000000 ≤ s.time.pip →
    ∃ t : State, exec (.trainingRestart lk) s = .next t ∧ (t.link lk).state = .signal ∧ (t.link lk).offSince = none ∧
      (t.link lk).attempts = (s.link lk).attempts) ∧
  (∀ lk : Nat, ∀ w, ∀ s : State, (s.link lk).live = true → (s.link lk).delin = true → tickIs w 8 = true → bits w.toNat 52 4 = 1 →
    ∃ t : State, exec (.retrainReq lk w) s = .next t ∧ (t.link lk).state = .signal ∧ (t.link lk).replay = [] ∧
      (∀ v, v < 8 → (t.acct (portAcct (s.phOf lk) v)).o = 0) ∧
      ((s.link lk).rxSwap = none → t.buf.frames = s.buf.frames ∧ t.mem = s.mem)) ∧
  (∀ lk : Nat, ∀ w, ∀ s : State, (s.link lk).live = true → (s.link lk).delin = true → tickIs w 8 = true → bits w.toNat 52 4 = 2 →
    ∃ t : State, exec (.goingDark lk w) s = .next t ∧
      (t.link lk).state = (if s.setting idAdmin (lk / 2) = 1 then .signal else .dark) ∧
      ((s.link lk).rxSwap = none → t.buf.frames = s.buf.frames)) ∧
  (∀ lk : Nat, ∀ s : State, ∀ stamp, ∀ cell, ∀ r, (s.link lk).live = true → (s.link lk).profPend = (stamp, cell) :: r →
    ∃ t : State, exec (.profileFrame lk) s = .next t ∧ (t.link lk).profPend = r ∧ (t.link lk).profCell = cell ∧
      (t.link lk).profStamp = some stamp ∧
      ((s.link lk).state = .profile → (s.link lk).profAcked = true → (t.link lk).carries = true) ∧
      t.mem = s.mem ∧ t.buf.frames = s.buf.frames ∧ t.buf.accts = s.buf.accts) ∧
  (∀ lk : Nat, ∀ s : State, (s.link lk).sends = true → (s.link lk).profDue = true → (s.link lk).held = false → (s.link lk).draining = false →
    (s.link lk).resendFrom = none → s.roomFor lk 0 1 = true → s.shaperOk lk 0 = true →
    ∃ t : State, exec (.profileSend lk) s = .next t ∧ (t.link lk).profDue = false ∧ (t.link lk).profSent = s.time.pip ∧
      (t.link lk).lsn = ((s.link lk).lsn + 1) % 2 ^ 24 ∧
      Out.frame lk (s.link lk).lsn false
        ({ ty := 10, vc := 0, ch := 0, dst := 0xFFFFF, src := s.devFid, cells := s.profileCell } : Frame).header
        s.profileCell (trailerOf ({ ty := 10, vc := 0, ch := 0, dst := 0xFFFFF, src := s.devFid, cells := s.profileCell } : Frame).header
          s.profileCell false (s.link lk).lsn) ∈ t.out ∧
      t.mem = s.mem ∧ t.buf = s.buf ∧ t.host = s.host ∧ ∀ k, k ≠ lk → t.link k = s.link k) ∧
  (∀ lk : Nat, ∀ s : State, ∀ k, (s.link lk).profStamp = some k → (s.link lk).carries = true → k + 3 * 2 ^ 20 ≤ s.time.pip →
    ∃ t : State, exec (.profileLoss lk) s = .next t ∧ (t.link lk).disagree = (s.link lk).disagree ||| 12 ∧
      t = { s with links := t.links, log := t.log })

/-- LANE_SIGNAL_LOSS, LANE_BER_WINDOW (03 R106, R109), LANE_SWAP_REQ, LANE_SWAP_DONE (R107), NARROW (R109),
SWAP_REFUSED_TIMEOUT (R107), LOST_LANE_HOLD_EXPIRY (R108), ALIGNMENT_MARKER_SEND (R72, R107), ALIGNMENT_MARKER (R87, R107); line coding (R68 to R71; symbol order by log entry LINECODE). -/
def Obligations.SpareLanesAndMarkers : Prop :=
  (∀ lk : Nat, ∀ lane, ∀ s : State, (s.link lk).carries = true → s.laneUsed lk lane = true →
    (s.spareFree lk true = true → (s.link lk).peer.spareCap = true →
      ∃ t : State, exec (.laneSignalLoss lk lane) s = .next t ∧
        (t.link lk).rxSwap = some { lane := lane, lost := true, req := s.time.pip } ∧
        (∃ q ∈ (t.link lk).ticks, q.2 = swapWord 1 lane true) ∧ t = { s with links := t.links, cnt := t.cnt }) ∧
    ((s.spareFree lk true = false ∨ (s.link lk).peer.spareCap = false) → s.splitIn s.cfg.vals (lk / 2) = false →
      ∃ t : State, exec (.laneSignalLoss lk lane) s = .next t ∧ lane ∈ (t.link lk).rx.lost ∧
        (∃ q ∈ (t.link lk).ticks, q.2 = linkStateWord 3 (if lane < 2 then 1 else 0)) ∧
        t = { s with links := t.links, cnt := t.cnt, log := t.log })) ∧
  (∀ lk : Nat, ∀ lane, ∀ berExp, ∀ unc, ∀ s : State, (s.link lk).carries = true → s.laneUsed lk lane = true → (s.link lk).rxSwap = none →
    s.spareFree lk true = true → (s.link lk).peer.spareCap = true →
    (16 < unc % 2 ^ 32 ∨ berExp ≤ s.setting (if (s.link lk).fecS then idSwapBerS else idSwapBerL) (lk / 2) ∧
      1 ≤ tabGet (s.link lk).berRun 0 lane) →
    ∃ t : State, exec (.laneBerWindow lk lane berExp unc) s = .next t ∧
      (t.link lk).rxSwap = some { lane := lane, lost := false, req := s.time.pip } ∧
      t = { s with links := t.links, cnt := t.cnt }) ∧
  (∀ lk : Nat, ∀ w, ∀ s : State, (s.link lk).live = true → (s.link lk).delin = true → tickIs w 5 = true → bits w.toNat 52 4 = 1 →
    s.spareFree lk false = true → (s.link lk).peer.spareCap = true →
    ∃ t : State, exec (.laneSwapReq lk w) s = .next t ∧
      (t.link lk).txSwap = some { lane := bits w.toNat 50 2, lost := bit w.toNat 49, req := s.time.pip } ∧
      t = { s with links := t.links }) ∧
  (∀ lk : Nat, ∀ w, ∀ s : State, ∀ x, (s.link lk).live = true → (s.link lk).delin = true → tickIs w 5 = true → bits w.toNat 52 4 = 2 →
    (s.link lk).txSwap = some x → x.lane = bits w.toNat 50 2 →
    ∃ t : State, exec (.laneSwapDone lk w) s = .next t ∧ (t.link lk).txSwap = none ∧ x.lane ∈ (t.link lk).tx.lost ∧
      (t.link lk).tx.moved = some x.lane ∧ t = { s with links := t.links }) ∧
  (∀ lk : Nat, ∀ w, ∀ s : State, (s.link lk).live = true → (s.link lk).delin = true → tickIs w 8 = true → bits w.toNat 52 4 = 3 →
    s.splitIn s.cfg.vals (lk / 2) = false → bits w.toNat 50 2 ≤ 1 →
    ∃ t : State, exec (.narrow lk w) s = .next t ∧ (t.link lk).narrowTo = some (bits w.toNat 50 2 + 1) ∧ (t.link lk).held = true ∧
      (t.link lk).tx = (s.link lk).tx ∧ t = { s with links := t.links, cnt := t.cnt, log := t.log }) ∧
  (∀ lk : Nat, ∀ s : State, ∀ x, (s.link lk).rxSwap = some x → x.ticket = none → x.req + 3 * markerPeriod (s.link lk).fecS ≤ s.time.pip →
    s.splitIn s.cfg.vals (lk / 2) = false →
    ∃ t : State, exec (.swapRefusedTimeout lk) s = .next t ∧ (t.link lk).rxSwap = none ∧ x.lane ∈ (t.link lk).rx.lost ∧
      t = { s with links := t.links, cnt := t.cnt, log := t.log }) ∧
  (∀ lk : Nat, ∀ s : State, ∀ x, (s.link lk).txSwap = some x → x.lost = true → x.req + 4 * markerPeriod (s.link lk).fecS ≤ s.time.pip →
    ∃ t : State, exec (.lostLaneHoldExpiry lk) s = .next t ∧ (t.link lk).txSwap = some { x with lost := false } ∧
      t = { s with links := t.links, cnt := t.cnt }) ∧
  (∀ lk : Nat, ∀ s : State, ∀ w, (s.link lk).carries = true → (s.link lk).narrowTo = some w →
    ∃ t : State, exec (.alignmentMarkerSend lk) s = .next t ∧ (t.link lk).tx.width = w ∧ (t.link lk).narrowTo = none ∧
      (t.link lk).state = .narrow ∧ t.buf = s.buf ∧ t.mem = s.mem) ∧
  (∀ lk : Nat, ∀ s : State, (s.link lk).state = .config → 8 ≤ (s.link lk).peer.agreed → 8 ≤ (s.link lk).ownRun →
    (s.link lk).ownTrain = (trainWord 3 0 { s.trainBody lk with rxReady := false }).toNat →
    s.splitIn s.cfg.vals (lk / 2) = false → (s.link lk).peer.split = false →
    ∃ t : State, exec (.alignmentMarkerSend lk) s = .next t ∧ (t.link lk).state = .profile ∧ (t.link lk).profDue = true ∧
      (t.link lk).amIndex = ((s.link lk).amIndex + 1) % 4096) ∧
  (∀ lk : Nat, ∀ s : State, (s.link lk).state ≠ .dark → (s.link lk).state ≠ .failed → (s.link lk).narrowTo = none →
    ((s.link lk).state ≠ .config ∨ (s.link lk).peer.agreed < 8) →
    ∃ t : State, exec (.alignmentMarkerSend lk) s = .next t ∧ (t.link lk).amIndex = ((s.link lk).amIndex + 1) % 4096 ∧
      (∀ x, (s.link lk).txSwap = some x → x.named = false → x.req + 1000 ≤ s.time.pip → (t.link lk).tx.moved = some x.lane ∧
        (x.lane, 4) ∈ t.lanePositions lk) ∧
      ((s.link lk).live = true → (s.link lk).switchIn < 2 → ∀ k ∈ t.lanePositions lk,
        Out.marker lk (markerBlock k.1 k.2 (s.link lk).amIndex (t.markerWidth lk) (s.link lk).fecS
          (cutWords (s.link lk).sent (s.periodWords lk)).1) ∈ t.out) ∧
      t = { s with links := t.links, out := t.out, free := t.free }) ∧
  (∀ lk : Nat, ∀ block, ∀ skew, ∀ s : State, (s.link lk).carries = true → markerGood block = true →
    ∃ t : State, exec (.alignmentMarker lk block skew) s = .next t ∧ (t.link lk).delin = true ∧
      ((s.link lk).delin = false → (s.link lk).nakOut = false → (s.link lk).rxSwap = none → (s.link lk).rxHold = none → (t.link lk).nakOut = true) ∧
      (∀ x, (s.link lk).rxSwap = some x → fieldAt block 8 1 % 8 = 4 → fieldAt block 8 1 / 16 = x.lane →
        (t.link lk).rxSwap = none ∧ (t.link lk).rx.moved = some x.lane ∧
        ∃ q ∈ (t.link lk).ticks, q.2 = swapWord 2 x.lane false)) ∧
  (pam4 false false = 0 ∧ pam4 false true = 1 ∧ pam4 true true = 2 ∧ pam4 true false = 3) ∧
  (∀ (r : BitVec 31), ∀ (l : List Bool), scramble r (scramble r l) = l) ∧
  (∀ (fecS : Bool), ∀ (msg : List Nat), (rsEncode fecS msg).take msg.length = msg ∧
    (rsEncode fecS msg).length = msg.length + (if fecS then 30 else 8)) ∧
  (∀ i, i < 8 → rsEval (gfPow i) (rsGen 8) = 0) ∧
  (∀ (fecS : Bool), ∀ (ws : List (List Byte)), ∀ (cw : List Nat), cw ∈ codewords fecS ws → cw.length ≤ (if fecS then 544 else 144))

/-- PORT_STATUS, PORT_COUNTERS, PORT_PROFILE_READ, PORT_RETRAIN, PORT_SPARE_SWAP, PORT_SPARE_FUSE (03 R110, R118, Table 03-15). -/
def Obligations.PortCommands : Prop :=
  (∀ o : Origin, ∀ port, ∀ half, ∀ s : State, ∀ p, s.waiting o 0x0301 [port, half] = some p → s.MaySend o 0x0301 → port < 64 → half ≤ 2 →
    s.halfFits s.cfg.vals (half * 64 + port) = true →
    exec (.portStatus o port half) s = .next (s.concluded p id .ok (fun a =>
      let l := a.link (linkOf port half)
      [uf 1 l.state.code, uf 1 (b2n l.fecS), uf 1 l.tx.width, uf 1 (l.tx.moved.getD 7), uf 1 (b2n l.tx.moved.isSome),
       uf 1 l.rx.width, uf 1 (l.rx.moved.getD 7), uf 1 (b2n l.rx.moved.isSome), uf 1 l.attempts, uf 1 l.peerRole,
       uf 4 l.peerFid]))) ∧
  (∀ o : Origin, ∀ port, ∀ half, ∀ clear, ∀ s : State, ∀ p, s.waiting o 0x0302 [port, half, clear] = some p → s.MaySend o 0x0302 → port < 64 → half ≤ 2 →
    s.halfFits s.cfg.vals (half * 64 + port) = true → clearOk o clear →
    exec (.portCounters o port half clear) s =
      .next (s.concluded p (fun a => if clear = 1 then a.clearUnit .port (linkOf port half) else a) .ok
        (fun a => a.portCounterFlds (linkOf port half)))) ∧
  (∀ o : Origin, ∀ port, ∀ half, ∀ s : State, ∀ p, s.waiting o 0x0303 [port, half] = some p → s.MaySend o 0x0303 → port < 64 → half ≤ 2 →
    s.halfFits s.cfg.vals (half * 64 + port) = true → (s.link (linkOf port half)).profStamp ≠ none →
    exec (.portProfileRead o port half) s = .next (s.concluded p id .ok (fun a =>
      let l := a.link (linkOf port half)
      [bf 64 (leNat l.profCell), uf 8 (l.profStamp.getD 0), uf 1 l.disagree.toNat]))) ∧
  (∀ o : Origin, ∀ port, ∀ half, ∀ s : State, ∀ p, s.waiting o 0x0304 [port, half] = some p → s.MaySend o 0x0304 → port < 64 → half ≤ 2 →
    s.halfFits s.cfg.vals (half * 64 + port) = true → s.Owns o (resPort port) → s.commitTouches port half = false →
    s.setting idAdmin port = 1 →
    ∃ f : State → State, exec (.portRetrain o port half) s = .next (s.concluded p f .ok (fun _ => [])) ∧
      ∀ a : State, a.setting idAdmin port = 1 →
        ((f a).link (linkOf port half)).state = .signal ∧ ((f a).link (linkOf port half)).attempts = 0 ∧
        ((a.link (linkOf port half)).rxSwap = none → (f a).buf.frames = a.buf.frames) ∧
        ((a.link (linkOf port half)).carries = true → Out.tick (linkOf port half) (linkStateWord 1 0) ∈ (f a).out)) ∧
  (∀ o : Origin, ∀ port, ∀ half, ∀ lane, ∀ s : State, ∀ p, s.waiting o 0x0305 [port, half, lane] = some p → s.MaySend o 0x0305 → port < 64 → half ≤ 2 →
    s.halfFits s.cfg.vals (half * 64 + port) = true → s.Owns o (resPort port) →
    (half = 0 ∧ lane ≤ 3 ∨ half = 1 ∧ lane ≤ 1 ∨ half = 2 ∧ 2 ≤ lane ∧ lane ≤ 3) →
    (s.link (linkOf port half)).state = .up → s.swapRuns (linkOf port half) = false →
    s.spareTaken (linkOf port half) = false → (s.link (linkOf port half)).peer.spareCap = true →
    exec (.portSpareSwap o port half lane) s =
      .next (s.begun p (fun k a => a.requestSwap (linkOf port half) lane false (some k)))) ∧
  (∀ o : Origin, ∀ port, ∀ dir, ∀ pos, ∀ s : State, ∀ p, s.waiting o 0x0306 [port, dir, pos] = some p → s.MaySend o 0x0306 → port < 64 → dir ≤ 1 →
    (pos ≤ 4 ∨ pos = 7) → s.Owns o (resPort port) →
    (s.spareRecs port < 3 → s.fuseBusy = false →
      ∃ f : State → State, exec (.portSpareFuse o port dir pos) s = .next (s.concluded p f .ok (fun a => [uf 1 (2 - a.spareRecs port)])) ∧
        ∀ a : State, (f a).sec.spares = a.sec.spares ++ [{ key := 2 * port + dir, val := pos }] ∧
          f a = { a with sec := (f a).sec, log := (f a).log }) ∧
    (3 ≤ s.spareRecs port →
      exec (.portSpareFuse o port dir pos) s = .next (s.turnedAway p .fuseExhausted 0xFFFF)))


/-- EGRESS_FRAME_START (03 R89, R92, R100; 04 R122), CUT_THROUGH_UNDERRUN (R127), LINK_HOLD_EXPIRY (R124), OVERFLOW_SPILL (R140,
R141), OVERFLOW_READBACK (R141, R142), MULTICAST_REPLICA (R145, R146). -/
def Obligations.LeavingAQueue : Prop :=
  (∀ lk : Nat, ∀ s : State, ∀ q, s.maySend lk = true → s.linkTorn lk = none → (s.link lk).resendFrom = none →
    (s.flush lk).winner lk = some q → s.hankTorn q = none → s.frameUe q = false →
    ∃ u : State, exec (.egressFrameStart lk) s = .next u.settle ∧ (u.link lk).ticks = [] ∧
      (u.link lk).lsn = ((s.link lk).lsn + 1) % 2 ^ 24 ∧
      tabGet (u.link lk).used 0 q.f.vc = (tabGet (s.link lk).used 0 q.f.vc + q.f.n + 1) % 2 ^ 16 ∧
      (∃ x ∈ (u.link lk).replay, x.lsn = (s.link lk).lsn ∧ x.f.cells = q.f.cells ∧ x.stamp = s.time.pip) ∧
      Out.frame lk (s.link lk).lsn false (((s.flush lk).markEcn lk q.f).header) q.f.cells
        (trailerOf (((s.flush lk).markEcn lk q.f).header) q.f.cells false (s.link lk).lsn) ∈ u.out ∧
      u.buf.frames.length + 1 = s.buf.frames.length ∧ u.mem = s.mem ∧ u.host = s.host) ∧
  (∀ lk : Nat, ∀ s : State, ∀ q, s.maySend lk = true → s.linkTorn lk = none → (s.link lk).resendFrom = none →
    (s.flush lk).winner lk = some q → s.hankTorn q = none → s.frameUe q = true →
    ∃ u : State, exec (.egressFrameStart lk) s = .next u.settle ∧
      Out.frame lk (s.link lk).lsn true (((s.flush lk).markEcn lk q.f).header) q.f.cells
        (trailerOf (((s.flush lk).markEcn lk q.f).header) q.f.cells true (s.link lk).lsn) ∈ u.out ∧
      u.buf.frames.length + 1 = s.buf.frames.length ∧ (∃ e ∈ u.log.raised, e.code = 0x1101 ∧ e.stamp = s.time.pip)) ∧
  (∀ lk : Nat, ∀ s : State, ∀ n, ∀ x, (s.link lk).sends = true → (s.link lk).held = false → s.linkTorn lk = none → (s.link lk).resendFrom = some n →
    (s.link lk).replay.find? (·.lsn == n) = some x →
    ∃ u : State, exec (.egressFrameStart lk) s = .next u.settle ∧ (u.link lk).ticks = [] ∧ (u.link lk).lsn = (s.link lk).lsn ∧
      Out.frame lk n x.stomp x.f.header x.f.cells (trailerOf x.f.header x.f.cells x.stomp n) ∈ u.out ∧ u = { s with links := u.links, out := u.out, pwr := u.pwr }) ∧
  (∀ lk : Nat, ∀ s : State, ∀ q, s.maySend lk = true → (s.link lk).resendFrom = none → s.winner lk = some q → q.store = 0 → q.resend = false →
    ∃ t : State, exec (.cutThroughUnderrun lk) s = .next t ∧
      Out.frame lk (s.link lk).lsn true ((s.markEcn lk q.f).header) q.f.cells
        (trailerOf ((s.markEcn lk q.f).header) q.f.cells true (s.link lk).lsn) ∈ t.out ∧
      (t.link lk).lsn = ((s.link lk).lsn + 1) % 2 ^ 24 ∧
      t.buf.frames.length = s.buf.frames.length ∧
      (∃ x ∈ t.buf.frames, x.f = q.f ∧ x.hanks = q.hanks ∧ x.ing = q.ing ∧ x.resend = true) ∧ t.mem = s.mem) ∧
  (∀ lk : Nat, ∀ ing, ∀ vc, ∀ s : State, ∀ q, s.heads.find? (fun q => decide (q.dest = .link lk) && q.ing == ing && q.f.vc == vc && (s.holdCause lk q).isSome) = some q →
    ∃ t : State, exec (.linkHoldExpiry lk ing vc) s = .next t ∧ t.buf.frames.length + 1 = s.buf.frames.length ∧
      t.count .port lk pcHold = min cMax (s.count .port lk pcHold + 1) ∧
      (∃ e ∈ t.log.raised, e.code = 0x0303 ∧ e.stamp = s.time.pip) ∧ t.links = s.links ∧ t.mem = s.mem) ∧
  (∀ die, ∀ ing, ∀ vc, ∀ d, ∀ s : State, ∀ q, s.buf.frames.filter (fun q => q.die == die && q.ing == ing && q.f.vc == vc) ≠ [] →
    (∀ x ∈ s.buf.frames, x.die = die → x.ing = ing → x.f.vc = vc → x.dest = d) →
    spillFrame (s.buf.frames.filter (fun q => q.die == die && q.ing == ing && q.f.vc == vc)) = some q →
    q.ovf = false → s.frameUe q = false → s.ovfOn q.acct = true →
    s.setting idAcctMax q.acct - s.setting idAcctMax q.acct / 8 < (s.acct q.acct).h →
    s.dramHeld q.acct + hanksFor q.f.n ≤ s.setting idOvfMax q.acct →
    s.regionUsed die + hanksFor q.f.n ≤ s.setting idOvfSize die / 512 → (s.arb (dieBridge die (ovfSkein die) 0)).frozen = false →
    ∃ t : State, exec (.overflowSpill die ing vc) s = .next t ∧ t.buf.frames.length = s.buf.frames.length ∧
      (∃ x ∈ t.buf.frames, x.f = q.f ∧ x.ovf = true ∧ x.store = 3 ∧ x.hanks.length = hanksFor q.f.n) ∧
      t.count .buf die bcSpilled = min cMax (s.count .buf die bcSpilled + 1) ∧ t.links = s.links ∧ t.mem = s.mem) ∧
  (∀ die, ∀ ing, ∀ vc, ∀ s : State, ∀ q, s.ueWords = [] →
    s.middleFrame (fun q => q.die == die && q.ing == ing && q.f.vc == vc) = some q → q ∈ s.buf.frames →
    s.mayDraw (unitAcct die 7 0) q.hanks.length = true → s.readShut die = false →
    ∃ t : State, exec (.overflowReadback die ing vc) s = .next t ∧ t.buf.frames.length = s.buf.frames.length ∧
      (∃ x ∈ t.buf.frames, x.f = q.f ∧ x.ovf = false ∧ x.store = 3 ∧ x.acct = unitAcct die 7 0) ∧
      t.count .buf die bcReadback = min cMax (s.count .buf die bcReadback + 1) ∧ t.links = s.links ∧ t.mem = s.mem) ∧
  (∀ die, ∀ s : State, ∀ j, ∀ d, ∀ r, s.buf.repl.find? (·.die == die) = some j → j.dests = d :: r →
    ((∃ k, d = .skein k) → s.devFid ≠ 0xFFFFF) →
    (s.mayDraw (unitAcct die 6 0) (hanksFor j.f.n) = true →
      ∃ t : State, exec (.multicastReplica die) s = .next t ∧ t.buf.frames.length = s.buf.frames.length + 1 ∧
        (∃ x ∈ t.buf.frames, x.dest = d ∧ x.ing = 133 ∧ x.stamp = j.stamp ∧ x.acct = unitAcct die 6 0 ∧ x.store = 4) ∧
        t.links = s.links ∧ t.mem = s.mem) ∧
    (s.mayDraw (unitAcct die 6 0) (hanksFor j.f.n) = false →
      exec (.multicastReplica die) s = .next (s.bump .buf die bcPause)))

/-- ARBITER_DECIDE (06 R190 to R194), BRIDGE_FLIT_RETRY (01 R17, R18; 00 R12). -/
def Obligations.ArbitersAndBridges : Prop :=
  (∀ (n turn : Nat), ∀ (w : Nat → Nat), ∀ (held : Nat → Bool), ∀ (raised : List Nat), ∀ (a0 : Arb),
    (arbStep n turn w held raised a0).asserted = raised.filter (fun i => !held i) ∧
    (∀ i, a0.granted = [i] → (i ∉ raised ∨ held i = true) →
      (tabGet (arbStep n turn w held raised a0).reqs {} i).stale = (tabGet a0.reqs {} i).stale + 1) ∧
    (a0.frozen = true ∨ (∀ i ∈ a0.asserted, held i = true) →
      (arbStep n turn w held raised a0).granted = [] ∧ (arbStep n turn w held raised a0).g = a0.g ∧
      ∀ i ∈ raised, held i = false → i ∈ a0.asserted →
        (tabGet (arbStep n turn w held raised a0).reqs {} i).c = min 65535 ((tabGet a0.reqs {} i).c + 1)) ∧
    (a0.frozen = false → (∃ i ∈ a0.asserted, held i = false) → 0 < n →
      ∃ i ∈ a0.asserted, held i = false ∧ i ∈ (arbStep n turn w held raised a0).granted ∧
        a0.g < (arbStep n turn w held raised a0).g ∧
        (n = 1 → (arbStep n turn w held raised a0).granted = [i] ∧ (arbStep n turn w held raised a0).g = a0.g + 1 ∧
          (tabGet (arbStep n turn w held raised a0).reqs {} i).c = 0 ∧
          (tabGet (arbStep n turn w held raised a0).reqs {} i).grants = (tabGet a0.reqs {} i).grants + 1))) ∧
  (∀ kind, ∀ index, ∀ dir, ∀ raised, ∀ s : State, index < (arbShape kind).1 → dir < 2 → ((arbShape kind).2.1 = false → dir = 0) →
    (∀ i ∈ raised, i < (arbShape kind).2.2.length) → ¬(kind = 2 ∧ s.refreshing index = true) →
    ∃ t : State, exec (.arbiterDecide kind index dir raised) s = .next t ∧
      t.arb (arbKey kind index dir) =
        { arbStep (arbGrants kind) (s.pipOn (arbDie kind index) / 4096) (s.arbWeight kind index dir) (s.reqHeld kind index) raised (s.arb (arbKey kind index dir)) with frozen := (s.arb (arbKey kind index dir)).frozen } ∧
      (kind ≠ 3 → t = { s with traf := t.traf })) ∧
  (∀ bridge, ∀ dir, ∀ s : State, bridge < 12 → dir < 2 →
    ∃ u : State, exec (.bridgeFlitRetry bridge dir) s = .next u.settle ∧
      tabGet u.traf.retries 0 (bridge * 2 + dir) = tabGet s.traf.retries 0 (bridge * 2 + dir) + 1 ∧
      (tabGet s.traf.retries 0 (bridge * 2 + dir) < 8 → u = { s with traf := u.traf }) ∧
      (8 ≤ tabGet s.traf.retries 0 (bridge * 2 + dir) →
        (∃ e ∈ u.log.raised, e.code = 0x0101 ∧ e.eclass = 4) ∧
        (∃ j ∈ u.boot.jobs, j.scope = 1 ∧ j.due = s.time.pip ∧ j.begun = false) ∧
        u = { s with traf := u.traf, log := u.log, boot := u.boot }))

/-- PORT_BUF_STATUS, PORT_BUF_COUNTERS (04 R150), PORT_METER_READ, PORT_SCHED_READ, ARB_STATUS (06 R196). -/
def Obligations.BufferAndMeterCommands : Prop :=
  (∀ o : Origin, ∀ die, ∀ kind, ∀ port, ∀ half, ∀ vc, ∀ x, ∀ s : State, ∀ p, kind < 256 → port < 256 → half < 256 → vc < 256 →
    s.waiting o 0x0307 [die, kind, port, half, vc] = some p → s.MaySend o 0x0307 →
    (die ≤ 3 → s.selectAcct die kind port half vc = some x →
      ¬(kind = 255 ∧ port = 255 ∧ half = 255 ∧ vc = 255) →
      exec (.portBufStatus o die (kind + port * 2 ^ 8 + half * 2 ^ 16 + vc * 2 ^ 24)) s =
        .next (s.concluded p id .ok (fun a => listFlds [a.acctFlds x] ++
          [uf 4 (a.freeHanks die), uf 4 (a.sharedFree die), uf 4 (a.setting idOvfSize die / 512 - a.regionUsed die),
           uf 1 (a.setting idPoolMode die), uf 1 (b2n (a.regionUsed die == 0))]))) ∧
    (3 < die → exec (.portBufStatus o die (kind + port * 2 ^ 8 + half * 2 ^ 16 + vc * 2 ^ 24)) s =
      .next (s.turnedAway p .badField 0))) ∧
  (∀ o : Origin, ∀ die, ∀ clear, ∀ s : State, ∀ p, s.waiting o 0x0308 [die, clear] = some p → s.MaySend o 0x0308 → die ≤ 3 → clearOk o clear →
    ∃ idx : List Nat, exec (.portBufCounters o die clear) s =
      .next (s.concluded p (fun a => if clear = 1 then a.clearUnit .buf die else a) .ok
        (fun a => idx.map (fun i => uf 4 (a.count .buf die i)))) ∧
      [0, 1, 2, 3, 4, 5, 6, bcResend, bcDoubleFree, bcPause, bcSpilled, bcReadback, bcReadbackBad, bcHold,
        bcLostRegion].all (idx.contains ·) = true) ∧
  (∀ o : Origin, ∀ port, ∀ half, ∀ vc, ∀ clear, ∀ s : State, ∀ p, s.waiting o 0x0309 [port, half, vc, clear] = some p → s.MaySend o 0x0309 →
    port < 64 → half ≤ 2 → s.halfFits s.cfg.vals (half * 64 + port) = true → vc < 8 → clearOk o clear →
    exec (.portMeterRead o port half vc clear) s =
      .next (s.concluded p (fun a => if clear = 1 then a.clearUnit .meter (meterKey (linkOf port half) vc) else a) .ok
        (fun a => a.meterFlds (linkOf port half) vc))) ∧
  (∀ o : Origin, ∀ port, ∀ half, ∀ clear, ∀ s : State, ∀ p, s.waiting o 0x030A [port, half, clear] = some p → s.MaySend o 0x030A →
    port < 64 → half ≤ 2 → s.halfFits s.cfg.vals (half * 64 + port) = true → clearOk o clear →
    ∃ f : State → State, ∃ res, exec (.portSchedRead o port half clear) s = .next (s.concluded p f .ok res) ∧
      (∀ a : State, (res a).head? = some (uf 8 (a.sched (linkOf port half)).v) ∧ (res a).length = 65) ∧
      (clear = 0 → f = id)) ∧
  (∀ o : Origin, ∀ kind, ∀ index, ∀ dir, ∀ clear, ∀ s : State, ∀ p, s.waiting o 0x030B [kind, index, dir, clear] = some p → s.MaySend o 0x030B →
    kind ≤ 3 → index < (arbShape kind).1 → dir ≤ 1 → ((arbShape kind).2.1 = false → dir = 0) → clearOk o clear →
    ∃ f : State → State, exec (.arbStatus o kind index dir clear) s = .next (s.concluded p f .ok (fun a =>
        [uf 1 (b2n (a.arb (arbKey kind index dir)).frozen), uf 4 (a.arb (arbKey kind index dir)).g] ++
          (List.range (arbShape kind).2.2.length).flatMap (a.reqFlds kind index dir))) ∧
      (clear = 0 → f = id) ∧ (∀ a : State, f a = { a with traf := (f a).traf } ∧
        ((f a).arb (arbKey kind index dir)).g = (a.arb (arbKey kind index dir)).g))


/-- Unicast routing (05 R153, R155, R157, R158, R161). -/
def Obligations.UnicastRouting : Prop :=
  (∀ die, ∀ ing, ∀ f0, ∀ s : State, f0.dst = 0xFFFFF → State.routeUnicast s die ing f0 = .discard causeNoRoute) ∧
  (∀ die, ∀ ing, ∀ f0, ∀ s : State, f0.dst ≠ 0xFFFFF → (f0.epochSet = false ∨ State.bankOf s f0.epoch = none) →
    State.routeUnicast s die ing f0 = .discard causeEpoch) ∧
  (∀ die, ∀ ing, ∀ f0, ∀ s : State, ∀ out, ∀ h, ∀ ad, ∀ fb, State.routeUnicast s die ing f0 = .to out h ad fb →
    ∃ bi, s.bankOf f0.epoch = some bi ∧
      h = pairHash (s.route.bank bi).seed f0.src f0.dst f0.ch ∧
      out ∈ entryCands ((s.route.bank bi).entry bi f0.dst).1 ∧ out ≠ ing ∧
      (ing < 128 → s.portDir (ing / 2) = 1 → s.portDir (out / 2) ≠ 1) ∧
      (f0.ch < 8 → out =
        ((entryCands ((s.route.bank bi).entry bi f0.dst).1).filter (s.candOk ing)).getD
          (h % 2 ^ 15 % ((entryCands ((s.route.bank bi).entry bi f0.dst).1).filter (s.candOk ing)).length) 0) ∧
      (8 ≤ f0.ch → ∀ k ∈ (entryCands ((s.route.bank bi).entry bi f0.dst).1).filter (s.candOk ing),
        s.canServe k f0.vc = true → s.canServe out f0.vc = true ∧ s.weighedDepth f0.vc out ≤ s.weighedDepth f0.vc k)) ∧
  (∀ die, ∀ ing, ∀ f0, ∀ s : State, ∀ links, ∀ buf, f0.ch < 8 →
    State.routeUnicast { s with links := links, buf := buf } die ing f0 = State.routeUnicast s die ing f0)

/-- ROUTE_LOAD, ROUTE_LOAD_COMPLETE (05 R163, R174), ROUTE_CHECK, ROUTE_CHECK_COMPLETE (R171), ROUTE_STATUS, ROUTE_LOOKUP,
ROUTE_COUNTERS (R175). -/
def Obligations.RoutingCommands : Prop :=
  (∀ o : Origin, ∀ addr, ∀ s : State, ∀ p, ∀ i, s.waiting o 0x0401 [addr] = some p → s.MaySend o 0x0401 → s.Owns o resRoute →
    s.route.emptyBank = some i → addr % 64 = 0 →
    (∀ h, ∀ pages, ∀ epoch, h = s.readNat (dramKey addr) 64 → pages = bits h 32 8 → epoch = bits h 8 8 →
      addr + imageLen pages ≤ 2 ^ 37 → s.dramDenied addr (imageLen pages) = false → epoch ≤ 3 → pages ≤ 64 →
      bits h 0 8 = 1 → bits h 40 8 = 0 → bits h 48 464 = 0 →
      (s.route.b0.st ≠ .empty → adjacent epoch s.route.b0.epoch = true) →
      (s.route.b1.st ≠ .empty → adjacent epoch s.route.b1.epoch = true) →
      (∀ e ∈ s.imageBlocks addr, entryReserved e = false ∧ s.entryBad pages false e = false) →
      (∀ e ∈ s.imageFines addr pages, entryReserved e = false ∧ s.entryBad pages true e = false) →
      (∀ g ∈ s.imageGroups addr pages, bit g 255 = true → bits g 132 123 = 0) →
      s.firstUe (dramKey addr) (imageLen pages) = none → s.mayIssue (addr / 2 ^ 35 % 4) clsMgmt = true →
      exec (.routeLoad o addr) s = .next (s.begun p (fun k a =>
        (a.chargeLoad addr (imageLen pages)).setRoute { a.route.setBank i ((a.chargeLoad addr (imageLen pages)).bankImage addr) with
          load := a.route.load ++ [{ ticket := k, addr := addr, len := imageLen pages, stamp := a.time.pip, bank := i }] })))) ∧
  (∀ s : State, ∀ addr, (State.bankImage s addr).st = .loading ∧
    (State.bankImage s addr).epoch = bits (s.readNat (dramKey addr) 64) 8 8) ∧
  (∀ s : State, ∀ (j : RouteJob), ∀ (rest : List RouteJob), s.route.load = j :: rest →
    ∃ t : State, exec .routeLoadComplete s = .next t ∧ t.route.load = rest ∧
      t.route.bank j.bank = { s.route.bank j.bank with st := .installed } ∧ t.mem = s.mem ∧ t.pending = s.pending) ∧
  (∀ o : Origin, ∀ addr, ∀ len, ∀ s : State, ∀ p, s.waiting o 0x0402 [addr, len] = some p → s.MaySend o 0x0402 → s.Owns o resRoute →
    addr + len ≤ 2 ^ 37 → s.dramDenied addr len = false → s.route.check = none → s.mayIssue (addr / 2 ^ 35 % 4) clsMgmt = true →
    exec (.routeCheck o addr len) s = .next (if Config.routeVerdict (s.read (dramKey addr) len) s.devFid = 0 then s.turnedAway p .badDesc 0xFFFF
      else if 6 < Config.routeVerdict (s.read (dramKey addr) len) s.devFid then s.turnedAway p .capacity 0xFFFF
      else if s.firstUe (dramKey addr) len ≠ none then
        s.concluded p (fun a => (a.chargeLoad addr len).logUe ((a.firstUe (dramKey addr) len).getD 0)) .integrity (fun _ => [])
      else s.begun p (fun k a =>
        (a.chargeLoad addr len).setRoute { a.route with check := some { ticket := k, addr := addr, len := len, stamp := a.time.pip } }))) ∧
  (∀ s : State, ∀ j, s.route.check = some j →
    ∃ t : State, exec .routeCheckComplete s = .next t ∧ t.route.check = none ∧ t.mem = s.mem ∧ t.pending = s.pending ∧
      (Config.routeVerdict (s.read (dramKey j.addr) j.len) s.devFid = 1 → s.firstUe (dramKey j.addr) j.len = none →
        ∀ i, (s.route.bank i).st = .installed →
          (s.route.bank i).digest = Config.routeDigest (s.read (dramKey j.addr) j.len) s.devFid % 2 ^ 64 →
          (t.route.bank i).cert = some (Config.routeDirs (s.read (dramKey j.addr) j.len) s.devFid)) ∧
      (Config.routeVerdict (s.read (dramKey j.addr) j.len) s.devFid ≠ 1 → t.route.b0 = s.route.b0 ∧ t.route.b1 = s.route.b1)) ∧
  (∀ o : Origin, ∀ s : State, ∀ p, s.waiting o 0x0403 [] = some p → s.MaySend o 0x0403 →
    ∃ res, exec (.routeStatus o) s = .next (s.concluded p id .ok res) ∧
      ∀ a : State, (res a).take 5 = [uf 1 a.route.b0.st.code, uf 1 a.route.b0.epoch, uf 2 a.route.b0.seed.toNat, uf 8 a.route.b0.digest,
        uf 1 (b2n a.route.b0.cert.isSome)] ∧ ((res a).drop 5).take 5 = [uf 1 a.route.b1.st.code, uf 1 a.route.b1.epoch,
        uf 2 a.route.b1.seed.toNat, uf 8 a.route.b1.digest, uf 1 (b2n a.route.b1.cert.isSome)] ∧
        (res a).getLast? = some (uf 1 a.route.routeEpoch)) ∧
  (∀ o : Origin, ∀ epoch, ∀ src, ∀ dst, ∀ channel, ∀ vc, ∀ mcast, ∀ port, ∀ half, ∀ s : State, ∀ p,
    s.waiting o 0x0404 [epoch, src, dst, channel, vc, mcast, port, half] = some p → s.MaySend o 0x0404 →
    epoch ≤ 3 → src ≤ 0xFFFFF → dst ≤ 0xFFFFF → channel ≤ 15 → vc ≤ 7 → mcast ≤ 1 → port < 64 → half ≤ 2 →
    s.halfFits s.cfg.vals (half * 64 + port) = true →
    ∀ (f0 : Frame), ∀ (r : Routed), f0 = { ty := 0, vc := vc, ch := channel, epoch := epoch, epochSet := true, dst := dst, src := src, mcast := decide (mcast = 1) } →
    r = s.routeAt (linkDie (linkOf port half)) (linkOf port half) f0 → r.whole = true →
    exec (.routeLookup o epoch src dst channel vc mcast port half) s = .next (s.concluded p id .ok (fun a =>
      a.lookupFlds f0 (linkOf port half) r))) ∧
  (∀ o : Origin, ∀ die, ∀ clear, ∀ s : State, ∀ p, s.waiting o 0x0405 [die, clear] = some p → s.MaySend o 0x0405 → die ≤ 3 → clearOk o clear →
    ∃ res, exec (.routeCounters o die clear) s =
      .next (s.concluded p (fun a => if clear = 1 then a.clearUnit .route die else a) .ok res) ∧
      ∀ a : State, (res a).getLast? = some (uf 4 (a.count .route die rcLate))) ∧
  (∀ o : Origin, ∀ epoch, ∀ src, ∀ dst, ∀ channel, ∀ vc, ∀ mcast, ∀ port, ∀ half, ∀ s : State, ∀ p,
    s.waiting o 0x0404 [epoch, src, dst, channel, vc, mcast, port, half] = some p → s.MaySend o 0x0404 →
    epoch ≤ 3 → src ≤ 0xFFFFF → dst ≤ 0xFFFFF → channel ≤ 15 → vc ≤ 7 → mcast ≤ 1 → port < 64 → half ≤ 2 →
    s.halfFits s.cfg.vals (half * 64 + port) = true →
    ∀ (f0 : Frame), ∀ loc, ∀ d, f0 = { ty := 0, vc := vc, ch := channel, epoch := epoch, epochSet := true, dst := dst, src := src, mcast := decide (mcast = 1) } →
    d = linkDie (linkOf port half) → s.routeAt d (linkOf port half) f0 = .torn loc →
    exec (.routeLookup o epoch src dst channel vc mcast port half) s =
      .next (s.concluded p (fun a => a.critical rowRoute d loc 4 d (srcOf 3 d)) .integrity (fun _ => [])))

/-- rnd and the encodings of Table 07-1 (07 R197, R207, R209, R210). -/
def Obligations.RoundingAndEncoding : Prop :=
  (∀ (fmt : Fmt), ∀ (mode : Mode), ∀ (neg : Bool), ∀ (m : Nat), ∀ (e : Int), fmt.int = false →
    Num.eqv (fmt.decode (fmt.encode (rnd fmt mode (.fin neg m e)).1)) (rnd fmt mode (.fin neg m e)).1 = true ∧
    (fmt.decode (fmt.encode (rnd fmt mode (.fin neg m e)).1)).neg? = neg ∧
    fmt.encode (rnd fmt mode (.fin neg m e)).1 < 2 ^ fmt.width) ∧
  (∀ (m : Nat), ∀ (e u : Int), ∀ (r : Nat), e < u → r < 2 ^ 24 →
    (2 * (roundTo m e u .rn * 2 ^ (u - e).toNat) ≤ 2 * m + 2 ^ (u - e).toNat ∧
      2 * m ≤ 2 * (roundTo m e u .rn * 2 ^ (u - e).toNat) + 2 ^ (u - e).toNat) ∧
    (roundTo m e u .rz = m / 2 ^ (u - e).toNat) ∧
    (roundTo m e u (.rs r) = m / 2 ^ (u - e).toNat ∨ roundTo m e u (.rs r) = m / 2 ^ (u - e).toNat + 1) ∧
    (m % 2 ^ (u - e).toNat = 0 → roundTo m e u (.rs r) = m / 2 ^ (u - e).toNat)) ∧
  (∀ (fmt : Fmt), ∀ (code : Nat), Fmt.ofCode code = some fmt → code ≤ 9) ∧
  (∀ code : Nat, 10 ≤ code → Fmt.ofCode code = none)


/-- Ordered mode (08 R233, R234). -/
def Obligations.OrderedReduction : Prop :=
  (∀ (h : List Byte), ∀ (n : Nat), ∀ (ms : List (Nat × Nat × Vals)), ∀ (j k b lo : Nat), ∀ (x : Vals),
    b % 2 ^ j = 0 → b < n → j ≤ k → lo % 2 ^ k = 0 → lo ≤ b → b < lo + 2 ^ k →
    (∀ m ∈ ms, m.1 < n) → (∀ m ∈ ms, b ≤ m.1 → m.1 < b + 2 ^ j → m.1 + m.2.1 ≤ b + 2 ^ j) →
    (node h n (ms.filter (fun m => decide (b ≤ m.1) && decide (m.1 < b + 2 ^ j))) j b).1 = some x →
    (node h n (ms.filter (fun m => !(decide (b ≤ m.1) && decide (m.1 < b + 2 ^ j))) ++ [(b, min (2 ^ j) (n - b), x)]) k lo).1 =
      (node h n ms k lo).1) ∧
  (∀ (h : List Byte), ∀ (n : Nat), ∀ (ms ms' : List (Nat × Nat × Vals)), ∀ (k lo : Nat),
    ms.Perm ms' → (ms.map (fun m => (m.1, m.2.1))).Nodup → node h n ms k lo = node h n ms' k lo)

/-- CONTRIB and PARTIAL (08 R224, R226, R236, R249, R250, R252). -/
def Obligations.TallyInputs : Prop :=
  ∀ (ing : Nat), ∀ (s : State), ∀ (c : Instr), c = .contrib ing ∨ c = .partialFrame ing →
    (∀ q, ∀ g, ∀ m, ∀ mb, s.TallyHead ing q g m → g.members[m]? = some mb →
      (c = .contrib ing → chKind q.f.head = 1 ∧ mb.switch = false ∧ mb.cnt = 1) →
      (c = .partialFrame ing → chKind q.f.head = 2) →
      (g.coll? (chSeq q.f.head) = none → chSlice q.f.head = 0 → opsBad q.f.head q.f.n = false →
        s.openFailure g q.f.head = none →
        ∃ u : State, ∃ x, exec c s = .next (u.flowGroup q.f.group) ∧ tabGet? u.coll q.f.group = some (g.putColl x) ∧ x.seq = chSeq q.f.head ∧ x.t0 = q.stamp ∧
          chDigest x.hdr = chDigest q.f.head ∧ (∃ y ∈ u.buf.frames, y.f = q.f ∧ y.note = some m) ∧
          u = { s with coll := u.coll, buf := u.buf, traf := u.traf }) ∧
      (∀ x, ∀ r, g.coll? (chSeq q.f.head) = some x → tabGet? x.firsts m = none → x.firsts ≠ [] →
        (∀ e ∈ x.firsts, e.2.2 < q.stamp) → refMember s.time.pip g.members x.firsts = some r → r.2 ≠ chDigest q.f.head →
        ∃ u : State, ∃ y, ∃ rs, exec c s = .next ((u.failColl q.f.group y .mismatch rs false false).flowGroup q.f.group) ∧
          y.seq = chSeq q.f.head ∧ mb.range ∈ rs ∧ tabGet? u.coll q.f.group = some (g.putColl y) ∧ u.mem = s.mem) ∧
      (∀ x, ∀ st0, g.coll? (chSeq q.f.head) = some x → tabGet? x.firsts m = some (chDigest q.f.head, st0) →
        coveredBytes q.f.head = coveredBytes x.hdr → opsBad q.f.head q.f.n = false →
        m ∈ (tabGet x.slices {} (chSlice q.f.head)).got →
        ∃ u : State, ∃ g', exec c s = .next (u.flowGroup q.f.group) ∧ tabGet? u.coll q.f.group = some g' ∧ g'.oldest = g.oldest ∧
          g'.closed = g.closed ∧ u.mem = s.mem ∧ u.count .coll q.die ccDuplicate = min (2 ^ 32 - 1) (s.count .coll q.die ccDuplicate + 1))) ∧
    (∀ q, s.localHead ing 3 4 = some q → q.note = none →
      (c = .contrib ing → chKind q.f.head = 1) → (c = .partialFrame ing → chKind q.f.head = 2) →
      (s.groupFor q = none → exec c s = .next (s.foreign q) ∧ (s.foreign q).coll = s.coll) ∧
      (∀ g, ∀ m, ∀ mb, s.groupFor q = some g → s.senderOf q g = some m → g.members[m]? = some mb →
        mb.switch = false → mb.cnt = 1 → badReserved q = false → g.late (chSeq q.f.head) = true →
        exec c s = .next (s.late q)) ∧
      (∀ g, ∀ m, ∀ mb, ∀ x, s.groupFor q = some g → s.senderOf q g = some m → g.members[m]? = some mb →
        mb.switch = false → mb.cnt = 1 → badReserved q = false → g.late (chSeq q.f.head) = false →
        g.pastLimit (chSeq q.f.head) q.stamp = some x →
        exec c s = .next (((s.failColl q.f.group x .timeout (g.missing x) false false).late q).flowGroup q.f.group)))

/-- TALLY_ADMIT (08 R236 to R238, R252). -/
def Obligations.TallyAdmission : Prop :=
  ∀ ing, ∀ s : State, ∀ q, ∀ m, ∀ g, s.localHead ing 3 4 = some q → q.note = some m → s.groupFor q = some g →
    (g.coll? (chSeq q.f.head) = none →
      exec (.tallyAdmit ing) s = .next (s.late q)) ∧
    (∀ c, g.coll? (chSeq q.f.head) = some c → g.pastLimit (chSeq q.f.head) q.stamp = none → c.past.contains (pastKey (chSlice q.f.head) q.die) = false →
      m ∉ (tabGet c.slices {} (chSlice q.f.head)).got →
      (s.slotOk q.f.group g q.die (chSeq q.f.head) (chSlice q.f.head) = false →
        exec (.tallyAdmit ing) s = .next s) ∧
      (s.slotOk q.f.group g q.die (chSeq q.f.head) (chSlice q.f.head) = true → s.mayIssue (4 + q.die) clsReduce = false →
        exec (.tallyAdmit ing) s = .next (s.noteHold (4 + q.die) clsReduce)) ∧
      (∀ j, ∀ mj, s.slotOk q.f.group g q.die (chSeq q.f.head) (chSlice q.f.head) = true →
        s.mayIssue (4 + q.die) clsReduce = true → s.torn rowColl q.die q.f.group = false →
        g.arrival = false → g.colls = [c] → c.slices = [] → c.finals = [] → j ≠ m → g.members[j]? = some mj →
        linkDie mj.lk = q.die →
        ∃ t : State, exec (.tallyAdmit ing) s = .next t ∧
          tabGet? t.coll q.f.group = some { g with colls := [{ c with
            slices := [(chSlice q.f.head, { got := [m], frames := [(m, { q with note := none })], dies := [q.die] })],
            finals := [(m, q.stamp)] }] } ∧
          t.mem = s.mem ∧ t.host = s.host))

/-- RESULT (08 R242), DONE (R244), ERROR, FAIL and what a failure does (R247, R252). -/
def Obligations.TallyDownward : Prop :=
  (∀ ing, ∀ s : State, ∀ q, ∀ g, s.TallyDown ing q g →
    (chKind q.f.head = 3 →
      (g.coll? (chSeq q.f.head) = none → exec (.resultFrame ing) s = .next ((s.late q).flowGroup q.f.group)) ∧
      (∀ c, g.coll? (chSeq q.f.head) = some c → opsBad q.f.head q.f.n = false → chRub q.f.head = false →
        exec (.resultFrame ing) s = .next (((s.consume q).sendResults q.f.group g q.f.head (chSeq q.f.head) (chSlice q.f.head)
          (fullRec q.f.head) (q.f.cells.drop 64) false).flowGroup q.f.group))) ∧
    (chKind q.f.head = 4 →
      (g.coll? (chSeq q.f.head) = none → exec (.doneFrame ing) s = .next ((s.late q).flowGroup q.f.group)) ∧
      (∀ c, g.coll? (chSeq q.f.head) = some c → g.closed.length < 2 ^ 30 →
        ∃ u : State, ∃ g', exec (.doneFrame ing) s = .next (u.flowGroup q.f.group) ∧ tabGet? u.coll q.f.group = some g' ∧ g'.late (chSeq q.f.head) = true ∧
          g'.coll? (chSeq q.f.head) = none ∧
          ∀ m ∈ g.members, ∃ fr, ((∃ y ∈ u.buf.frames, y.f = fr ∧ y.dest = .link m.lk) ∨ (∃ w ∈ u.buf.wait, w.q.f = fr ∧ w.todo = .tally m.lk)) ∧
            fr.ty = 5 ∧ fr.vc = 4 ∧ fr.dst = m.fid ∧ fr.cells = headerOf q.f.head 4 (chSeq q.f.head) m.lo m.cnt 0 0)) ∧
    (chKind q.f.head = 6 → g.late (chSeq q.f.head) = false → g.waitErr.contains (chSeq q.f.head) = false →
      g.closed.length < 2 ^ 30 →
      ∃ u : State, ∃ g', exec (.errorFrame ing) s = .next (u.flowGroup q.f.group) ∧ tabGet? u.coll q.f.group = some g' ∧ g'.late (chSeq q.f.head) = true ∧
        g'.coll? (chSeq q.f.head) = none ∧
        ∀ m ∈ g.members, ∃ fr, ((∃ y ∈ u.buf.frames, y.f = fr ∧ y.dest = .link m.lk) ∨ (∃ w ∈ u.buf.wait, w.q.f = fr ∧ w.todo = .tally m.lk)) ∧
          fr.ty = 5 ∧ fr.vc = 4 ∧ fr.dst = m.fid ∧
          fr.cells = headerOf q.f.head 6 (chSeq q.f.head) m.lo m.cnt (chStatus q.f.head) (fieldAt q.f.head 41 1) ++ q.f.cells.drop 64)) ∧
  (∀ ing, ∀ s : State, ∀ q, ∀ g, ∀ x, s.localHead ing 4 5 = some q → s.groupFor q = some g → g.parent = some q.ing → q.f.src = g.parentFid →
    q.f.dst = s.fidAt q.stamp → badReserved q = false → chKind q.f.head = 4 → g.pastBackstop (chSeq q.f.head) q.stamp = some x →
    exec (.doneFrame ing) s = .next (((s.failColl q.f.group x .timeout [(g.lo, g.cnt)] false true).late q).flowGroup q.f.group)) ∧
  (∀ ing, ∀ s : State, ∀ q, ∀ g, ∀ m, ∀ c, ∀ st, s.TallyHead ing q g m → chKind q.f.head = 5 → g.coll? (chSeq q.f.head) = some c →
    Status.ofCode (chStatus q.f.head) = some st →
    exec (.failFrame ing) s = .next ((((s.consume q).bump .coll q.die ccFailRecv).failColl q.f.group (c.withHeader q.f.head) st
      (cellRanges (q.f.cells.drop 64)) (bit (fieldAt q.f.head 41 1) 0) false).flowGroup q.f.group)) ∧
  (∀ no, ∀ c, ∀ st, ∀ rs, ∀ cut, ∀ s : State, ∀ g, tabGet? s.coll no = some g → g.rub = none → g.closed.length < 2 ^ 30 →
    ∃ g', tabGet? (s.failColl no c st rs cut false).coll no = some g' ∧ g'.late c.seq = true ∧ g'.coll? c.seq = none ∧
      (s.failColl no c st rs cut false).mem = s.mem ∧ (s.failColl no c st rs cut false).host = s.host ∧
      (g.parent = none → ∀ m ∈ g.members, ∃ fr,
        ((∃ y ∈ (s.failColl no c st rs cut false).buf.frames, y.f = fr ∧ y.dest = .link m.lk) ∨
          (∃ w ∈ (s.failColl no c st rs cut false).buf.wait, w.q.f = fr ∧ w.todo = .tally m.lk)) ∧
        fr.ty = 5 ∧ fr.vc = 4 ∧ fr.dst = m.fid ∧
        fr.cells = headerOf c.hdr 6 c.seq m.lo m.cnt st.code (b2n ((rangesCell rs).2 || cut)) ++ (rangesCell rs).1) ∧
      (∀ lk : Nat, g.parent = some lk → c.seq ∈ g'.waitErr ∧ ∃ fr,
        ((∃ y ∈ (s.failColl no c st rs cut false).buf.frames, y.f = fr ∧ y.dest = .link lk) ∨
          (∃ w ∈ (s.failColl no c st rs cut false).buf.wait, w.q.f = fr ∧ w.todo = .tally lk)) ∧
        fr.ty = 4 ∧ fr.vc = 3 ∧ fr.dst = g.parentFid ∧
        fr.cells = headerOf c.hdr 5 c.seq g.lo g.cnt st.code (b2n ((rangesCell rs).2 || cut)) ++ (rangesCell rs).1))

/-- COLL_TIMEOUT, COLL_BACKSTOP_TIMEOUT (08 R250), COLL_GROUP_CREATE (R224, R225, R241), COLL_GROUP_DESTROY, COLL_GROUP_STATUS,
COLL_STRAGGLERS, COLL_COUNTERS, COLL_ABORT (R255). -/
def Obligations.CollectiveCommands : Prop :=
  (∀ no, ∀ seq, ∀ s : State, ∀ g, ∀ c, tabGet? s.coll no = some g → g.coll? seq = some c →
    (s.time.pip < c.t0 + g.timeout → exec (.collTimeout no seq) s = .next s) ∧
    (c.t0 + g.timeout ≤ s.time.pip → c.hdr ≠ [] → g.missing c ≠ [] →
      exec (.collTimeout no seq) s = .next ((s.failColl no c .timeout (g.missing c) false false).flowGroup no)) ∧
    (s.time.pip < c.t0 + (g.depth + 1) * g.timeout + 65536 → exec (.collBackstopTimeout no seq) s = .next s) ∧
    (c.t0 + (g.depth + 1) * g.timeout + 65536 ≤ s.time.pip → g.parent ≠ none → c.passed ≠ none →
      exec (.collBackstopTimeout no seq) s = .next ((s.failColl no c .timeout [(g.lo, g.cnt)] false true).flowGroup no))) ∧
  (∀ o : Origin, ∀ addr, ∀ len, ∀ s : State, ∀ p, ∀ b, ∀ g, ∀ res, s.waiting o 0x0501 [addr, len] = some p → s.MaySend o 0x0501 → s.Owns o resColl →
    addr % 64 = 0 → addr + len ≤ 2 ^ 37 → s.dramDenied addr len = false →
    len = 64 + 32 * s.readNat (dramKey (addr + 30)) 2 → b = s.read (dramKey addr) (min len (64 + 32 * 1024)) →
    groupFieldBad b = false → (∀ x ∈ descMembers b, x.2 = false) → g = parseGroup b →
    s.groupDescBad (descGroup b) g = false → res = g.dies.map (fun d => (d, g.need d)) →
    (∀ x ∈ res, s.take (unitAcct x.1 1 3) x.2 = x.2) → s.firstUe (dramKey addr) len = none → s.mayIssue (addr / 2 ^ 35 % 4) clsMgmt = true →
    exec (.collGroupCreate o addr len) s = .next (s.concluded p
      (fun a => (((a.chargeLoad addr len).drawGo { g with reserve := res, born := a.time.pip }).1.setGroup (descGroup b)
        ((a.chargeLoad addr len).drawGo { g with reserve := res, born := a.time.pip }).2).reserveGroup
          ((a.chargeLoad addr len).drawGo { g with reserve := res, born := a.time.pip }).2 true) .ok
      (fun a => [uf 2 (descGroup b), uf 1 g.home] ++ (List.range 4).map (fun d => uf 4 (tabGet res 0 d)) ++ [uf 8 a.time.pip]))) ∧
  (∀ o : Origin, ∀ no, ∀ s : State, ∀ p, ∀ g, s.waiting o 0x0502 [no] = some p → s.MaySend o 0x0502 → s.Owns o resColl → no ≤ 4095 →
    tabGet? s.coll no = some g →
    ∃ res, exec (.collGroupDestroy o no) s = .next (s.concluded p (fun a => a.removeGroup no g) .ok res) ∧
      ∀ a : State, tabGet? (a.removeGroup no g).coll no = none) ∧
  (∀ o : Origin, ∀ no, ∀ clear, ∀ s : State, ∀ p, ∀ g, s.waiting o 0x0503 [no, clear] = some p → s.MaySend o 0x0503 → clearOk o clear → no ≤ 4095 →
    tabGet? s.coll no = some g →
    ∃ res, exec (.collGroupStatus o no clear) s = .next (s.concluded p
      (fun a => if clear = 1 then a.setGroup no { g with stats := {} } else a) .ok res) ∧
      ∀ a : State, (res a).take 2 = [uf 1 (b2n g.arrival), uf 4 g.oldest]) ∧
  (∀ o : Origin, ∀ no, ∀ s : State, ∀ p, ∀ g, s.waiting o 0x0504 [no] = some p → s.MaySend o 0x0504 → no ≤ 4095 → tabGet? s.coll no = some g →
    ∃ res, exec (.collStragglers o no) s = .next (s.concluded p id .ok res) ∧
      res (s.accept p).2 = listFlds (g.members.map (fun m => [uf 4 m.lo, uf 4 (m.cnt % 2 ^ 24), uf 2 m.last, uf 2 m.hist,
        uf 8 m.lag, uf 1 (b2n (decide (popCount m.hist ≥ g.suspectK)))]))) ∧
  (∀ o : Origin, ∀ die, ∀ clear, ∀ s : State, ∀ p, s.waiting o 0x0505 [die, clear] = some p → s.MaySend o 0x0505 → die ≤ 3 → clearOk o clear →
    ∃ res, exec (.collCounters o die clear) s = .next (s.concluded p
      (fun a => if clear = 1 then (a.clearUnit .coll die).setTraf { a.traf with waits := tabPut a.traf.waits die 0 } else a) .ok res) ∧
      ∀ a : State, (res a).head? = some (uf 4 (a.count .coll die ccCompleted))) ∧
  (∀ o : Origin, ∀ no, ∀ seq, ∀ s : State, ∀ p, ∀ g, ∀ c, s.waiting o 0x0506 [no, seq] = some p → s.MaySend o 0x0506 → s.Owns o resColl → no ≤ 4095 →
    tabGet? s.coll no = some g → g.dead = false → s.collAt g seq = some c →
    exec (.collAbort o no seq) s = .next (s.begun p (fun k a =>
      ((a.failColl no c .aborted [(g.lo, g.cnt)] false false).setHost
        { (a.failColl no c .aborted [(g.lo, g.cnt)] false false).host with
          sending := (a.failColl no c .aborted [(g.lo, g.cnt)] false false).host.sending ++
            [(k, ((a.failColl no c .aborted [(g.lo, g.cnt)] false false).failFrames no seq).filter
              (fun f => !(a.failFrames no seq).contains f))] }).flowGroup no))) ∧
  (∀ s : State, ∀ k, ∀ (fs : List (List Byte)), s.host.sending = [(k, fs)] →
    ((∀ q ∈ s.tallyFrames, q.f.cells ∉ fs) →
      s.finishSent = (s.setHost { s.host with sending := [] }).finish k .ok []) ∧
    ((∃ q ∈ s.tallyFrames, q.f.cells ∈ fs) → s.finishSent = s))

/-- READ_REQ and DATA (09 R279, R561, R267). -/
def Obligations.FabricAccesses : Prop :=
  (∀ ing, ∀ vc, ∀ s : State, ∀ q, ∀ n, s.localHead ing vc 1 = some q → n = bits q.f.spec 0 14 →
    (∀ st, (n = 0 ∨ 8192 < n) ∧ st = Status.badField ∨ (0 < n ∧ n ≤ 8192 ∧ s.fabricStatus q.f n = some st) →
      exec (.readReq ing vc) s = .next (((s.consume q).bump .local q.die lcRefused).answerErr q st)) ∧
    (0 < n → n ≤ 8192 → s.fabricStatus q.f n = none →
      (s.memReady q.skein (offsetAddr q.f.offset) n = false → exec (.readReq ing vc) s = .next s) ∧
      (s.memReady q.skein (offsetAddr q.f.offset) n = true → s.firstUe (memKey (offsetAddr q.f.offset)) n = none → s.MemOk →
        ∃ t : State, ∃ u : State, exec (.readReq ing vc) s = .next t ∧ (∀ k : Nat, memGet t.mem k = memGet s.mem k) ∧ t.ueWords = s.ueWords ∧
          t = u.sendSkein q.skein (u.readRspTo q.f
            ((s.seenBy (offsetAddr q.f.offset) n).read (memKey (offsetAddr q.f.offset)) n))))) ∧
  (∀ ing, ∀ vc, ∀ s : State, ∀ q, ∀ n, s.localHead ing vc 0 = some q → q.dest ≠ .ladder → q.f.dataLen = n + 16 →
    (∀ st, s.fabricStatus q.f n = some st →
      ∃ t : State, exec (.dataFrame ing vc) s = .next t ∧ t.mem = s.mem ∧
        (q.f.ackReq = false → t = (s.consume q).bump .local q.die lcRefused) ∧
        (q.f.ackReq = true → t = ((s.consume q).bump .local q.die lcRefused).answerErr q st)) ∧
    (s.fabricStatus q.f n = none → s.memReady q.skein (offsetAddr q.f.offset) n = false → exec (.dataFrame ing vc) s = .next s) ∧
    (s.fabricStatus q.f n = none → s.memReady q.skein (offsetAddr q.f.offset) n = true → s.MemOk →
      (∀ w ∈ s.ueWords, w * 8 + 8 ≤ memKey (offsetAddr q.f.offset) ∨ memKey (offsetAddr q.f.offset) + n ≤ w * 8 ∨
        (memKey (offsetAddr q.f.offset) ≤ w * 8 ∧ w * 8 + 8 ≤ memKey (offsetAddr q.f.offset) + n)) →
      ∃ t : State, ∃ u : State, exec (.dataFrame ing vc) s = .next t ∧
        (∀ k, memGet t.mem k = if memKey (offsetAddr q.f.offset) ≤ k ∧ k < memKey (offsetAddr q.f.offset) + n ∧ s.overtaken (offsetAddr q.f.offset) n k = false then
          ((q.f.cells.drop 16).take n).getD (k - memKey (offsetAddr q.f.offset)) 0 else memGet s.mem k) ∧
        (q.f.ackReq = true → t = u.answerErr q .ok)))

/-- The atomics (09 R284, R286, Table 09-7). -/
def Obligations.Atomics : Prop :=
  (∀ (ing : Nat), ∀ (s : State), ∀ (i : Instr), ∀ (code : Nat), ∀ (q : QFrame),
    (i, code) ∈ [(Instr.addI32 ing, 1), (.addI64 ing, 2), (.addF32 ing, 3), (.addF32x8 ing, 4), (.maxI32 ing, 5), (.minI32 ing, 6),
      (.maxF32 ing, 7), (.minF32 ing, 8), (.and64 ing, 9), (.or64 ing, 10), (.xor64 ing, 11), (.swap64 ing, 12), (.cas64 ing, 13)] →
    s.localHead ing 1 3 = some q → bits q.f.spec 0 8 % 128 = code →
    (∀ st, s.atomicStatus q.f = some st →
      exec i s = .next (((s.consume q).bump .local q.die lcRefused).answerErr q st) ∧
      (((s.consume q).bump .local q.die lcRefused).answerErr q st).mem = s.mem) ∧
    (∀ n : Nat, s.atomicStatus q.f = none → atomSize code = some n → s.memReady q.skein (offsetAddr q.f.offset) n = false →
      exec i s = .next s) ∧
    (∀ (key n : Nat), ∀ (v : Nat × Cnts), s.atomicStatus q.f = none → key = memKey (offsetAddr q.f.offset) → atomSize code = some n →
      s.memReady q.skein (offsetAddr q.f.offset) n = true → s.firstUe key n = none → s.MemOk →
      v = atomApply (bits q.f.spec 0 8) (leNat (s.read key n)) (q.f.operand (atomOperands (bits q.f.spec 0 8))) →
      ∃ t : State, ∃ u : State, exec i s = .next t ∧
        (∀ k, memGet t.mem k = if key ≤ k ∧ k < key + n then (leBytes n v.1).getD (k - key) 0 else memGet s.mem k) ∧
        u = (((s.consume q).write key (leBytes n v.1)).atomCount key v.2) ∧
        t = if bit (bits q.f.spec 0 8) 7 then (if q.f.ackReq then u.answerErr q .ok else u)
            else u.sendSkein q.skein (u.readRspTo q.f (s.read key n)))) ∧
  (∀ (old x : Nat), old < 2 ^ 32 →
    toInt 32 (atomApply 1 old x).1 = max (-2147483648) (min 2147483647 (toInt 32 old + toInt 32 x)) ∧
    ((atomApply 1 old x).2.sat = 0 ↔ -2147483648 ≤ toInt 32 old + toInt 32 x ∧ toInt 32 old + toInt 32 x ≤ 2147483647) ∧
    toInt 32 (atomApply 5 old x).1 = max (toInt 32 old) (toInt 32 x) ∧
    toInt 32 (atomApply 6 old x).1 = min (toInt 32 old) (toInt 32 x)) ∧
  (∀ (old x : Nat), old < 2 ^ 64 → x < 2 ^ 64 →
    (atomApply 2 old x).1 = (old + x) % 2 ^ 64 ∧ (atomApply 9 old x).1 = old &&& x ∧ (atomApply 10 old x).1 = old ||| x ∧
    (atomApply 11 old x).1 = old ^^^ x ∧ (atomApply 12 old x).1 = x) ∧
  (∀ (old c n : Nat), c < 2 ^ 64 → n < 2 ^ 64 → (atomApply 13 old (c + n * 2 ^ 64)).1 = if old = c then n else old)

/-- SIGNAL_FLAG, SIGNAL_CNT (09 R271, R284), SPAD_RETAIN_WRITE, BANK_WAKE, BANK_RETENTION_ENTRY (R267). -/
def Obligations.SignalsAndRetention : Prop :=
  (∀ ing, ∀ s : State, ∀ q, ∀ st, s.localHead ing 1 3 = some q → s.atomicStatus q.f = none → signalStitch (bits q.f.offset 0 32) = some st →
    (s.tile st).power = .active →
    (bits q.f.spec 0 8 % 128 = 0x20 →
      ∃ u : State, exec (.signalFlag ing) s = .next u.settle ∧
        (u.tile st).flags = (s.tile st).flags ||| (1#32 <<< bits (q.f.operand 8) 0 5) ∧ (u.tile st).cnts = (s.tile st).cnts ∧
        u.mem = s.mem ∧ (q.f.ackReq = true → ∃ v : State, u = v.answerErr q .ok)) ∧
    (bits q.f.spec 0 8 % 128 = 0x21 → s.cntTorn st (bits (q.f.operand 8) 32 4) = false →
      ∃ u : State, exec (.signalCnt ing) s = .next u.settle ∧
        (u.tile st).cnt (bits (q.f.operand 8) 32 4) =
          ((s.tile st).cnt (bits (q.f.operand 8) 32 4) + bits (q.f.operand 8) 0 32) % 2 ^ 32 ∧
        (∀ n, n ≠ bits (q.f.operand 8) 32 4 → (u.tile st).cnt n = (s.tile st).cnt n) ∧
        (u.tile st).flags = (s.tile st).flags ∧ u.mem = s.mem ∧ (q.f.ackReq = true → ∃ v : State, u = v.answerErr q .ok))) ∧
  (∀ (st : Nat), ∀ (w : BitVec 32), ∀ (s : State), s.stitchStatus st = none → (s.tile st).power = .active →
    ∃ t : State, exec (.spadRetainWrite st w) s = .next t ∧ (t.tile st).retain = w ∧
      (∀ b, b < 32 → w.getLsbD b = false → (t.tile st).awake.getLsbD b = true) ∧
      (∀ b, w.getLsbD b = true → (t.tile st).awake.getLsbD b = (s.tile st).awake.getLsbD b) ∧
      t = { s with tiles := t.tiles }) ∧
  (∀ st, ∀ bank, ∀ s : State, s.stitchStatus st = none → bank < 32 →
    ((s.tile st).awake.getLsbD bank = false → (s.tile st).power = .active →
      ∃ t : State, exec (.bankWake st bank) s = .next t ∧ (t.tile st).awake = (s.tile st).awake ||| (1#32 <<< bank) ∧
        t = { s with tiles := t.tiles }) ∧
    ((s.tile st).awake.getLsbD bank = true → (s.tile st).retain.getLsbD bank = true →
      (∀ p, tabGet? (s.tile st).idle bank = some p → p + s.cyclesPips (st / 256) 2048 ≤ s.time.pip) → s.bankPending st bank = false →
      ∃ t : State, exec (.bankRetentionEntry st bank) s = .next t ∧ (t.tile st).awake = (s.tile st).awake &&& ~~~(1#32 <<< bank) ∧
        t = { s with tiles := t.tiles }) ∧
    ((s.tile st).retain.getLsbD bank = false → exec (.bankRetentionEntry st bank) s = .next s))

/-- BAR2_READ, BAR2_WRITE (16 R448, R449), REGISTER_WRITE (16 R446; 20 R551; 09 Table 09-5). -/
def Obligations.HostWindow : Prop :=
  (∀ h, ∀ off, ∀ len, ∀ s : State, s.bar2Ok h off len = true →
    (s.localStatus (s.bar2Addr h off) len = none → s.bar2Open h (s.bar2Addr h off) len = true → s.firstUe (memKey (s.bar2Addr h off)) len = none →
      s.MemOk →
      ∃ t : State, exec (.bar2Read h off len) s = .next t ∧
        t.out = s.out ++ [.read h ((s.seenBy (s.bar2Addr h off) len).read (memKey (s.bar2Addr h off)) len)] ∧
        ∀ k : Nat, memGet t.mem k = memGet s.mem k) ∧
    (s.localStatus (s.bar2Addr h off) len ≠ none →
      ∃ t : State, exec (.bar2Read h off len) s = .next t ∧ t.out = s.out ++ [.unsupported h] ∧ t.mem = s.mem ∧
        t.count .host h.num hcBar2 = min cMax (s.count .host h.num hcBar2 + 1))) ∧
  (∀ (h : HostId), ∀ (off : Nat), ∀ (data : List Byte), ∀ (s : State), s.bar2Ok h off data.length = true → data.length ≤ 512 →
    (s.localStatus (s.bar2Addr h off) data.length = none → s.bar2Open h (s.bar2Addr h off) data.length = true → s.MemOk →
      (∀ w ∈ s.ueWords, w * 8 + 8 ≤ memKey (s.bar2Addr h off) ∨ memKey (s.bar2Addr h off) + data.length ≤ w * 8 ∨
        (memKey (s.bar2Addr h off) ≤ w * 8 ∧ w * 8 + 8 ≤ memKey (s.bar2Addr h off) + data.length)) →
      ∃ t : State, exec (.bar2Write h off data) s = .next t ∧
        (∀ k, memGet t.mem k = if memKey (s.bar2Addr h off) ≤ k ∧ k < memKey (s.bar2Addr h off) + data.length ∧
            s.overtaken (s.bar2Addr h off) data.length k = false then
          data.getD (k - memKey (s.bar2Addr h off)) 0 else memGet s.mem k) ∧
        t.out = s.out ∧ t.log = s.log) ∧
    (s.localStatus (s.bar2Addr h off) data.length ≠ none →
      ∃ t : State, exec (.bar2Write h off data) s = .next t ∧ t.mem = s.mem ∧ (∃ e ∈ t.log.raised, e.code = 0x1001))) ∧
  (∀ (h : HostId), ∀ (data : List Byte), ∀ (s : State), (s.host.port h).up = true → data.length = 4 →
    (∃ t : State, exec (.registerWrite (.bar0 h 0x200) data) s = .next t ∧
      (t.host.port h).irqStatus = ((s.host.port h).irqStatus &&& ~~~(BitVec.ofNat 32 (leNat data))) |||
        (BitVec.ofNat 32 (leNat data) &&& (s.racedAt h).irq) ∧ t = { s with host := t.host, out := t.out }) ∧
    (∃ t : State, exec (.registerWrite (.bar0 h 0x204) data) s = .next t ∧
      (t.host.port h).irqEnable = BitVec.ofNat 32 (leNat data % 2 ^ 7) ∧ t = { s with host := t.host })) ∧
  (∀ (b : Byte), ∀ (s : State), s.sidebandUp = true →
    (∃ t : State, exec (.registerWrite (.sb 5) [b]) s = .next t ∧ t.side.alert = (s.side.alert &&& ~~~b) ||| (b &&& s.alertRaced) ∧
      t.side.alertMask = s.side.alertMask ∧ t.pins.smbAlertN = decide (t.side.alert &&& s.side.alertMask = 0)) ∧
    (∃ t : State, exec (.registerWrite (.sb 4) [b]) s = .next t ∧ t.side.alertMask = b ∧ t.side.alert = s.side.alert)) ∧
  (∀ (st : Nat), ∀ (data : List Byte), ∀ (s : State), st < 1024 → s.stitchStatus st = none → (s.tile st).power = .active → data.length = 4 →
    ∃ t : State, exec (.registerWrite (.ctl (3 * 2 ^ 62 + st * 4096 + 0x010)) data) s = .next t ∧
      (t.tile st).flags = ((s.tile st).flags &&& ~~~(BitVec.ofNat 32 (leNat data))) ||| (s.cycleOf st).flags ∧ t = { s with tiles := t.tiles }) ∧
  (∀ (h : HostId), ∀ (data : List Byte), ∀ (s : State), (s.host.port h).up = true → data.length = 4 →
    10 ≤ bits (leNat data) 8 6 → bits (leNat data) 8 6 ≤ 17 →
    ∃ t : State, exec (.registerWrite (.resize h) data) s = .next t ∧ (t.host.port h).bar2Log = bits (leNat data) 8 6 + 20 ∧
      t = { s with host := t.host })

/-- READ_RSP, ERR_COMPL, FAR_TIMEOUT (09 R278, R287; 05 R152, R165). -/
def Obligations.FarRequests : Prop :=
  (∀ ing, ∀ s : State, ∀ q, s.localHead ing 2 2 = some q →
    (∀ r, s.reqFor q.f = some r → s.inTime r q = true →
      exec (.readRsp ing) s = .next ((s.consume q).answered r (.ok (q.f.cells.take q.f.dataLen)) q.stamp)) ∧
    ((∀ r, s.reqFor q.f = some r → s.inTime r q = false) →
      ∃ t : State, exec (.readRsp ing) s = .next t ∧ t.route = s.route ∧ t.mem = s.mem ∧
        t.count .route q.die rcLate = min cMax (s.count .route q.die rcLate + 1))) ∧
  (∀ ing, ∀ s : State, ∀ q, s.localHead ing 2 11 = some q →
    (∀ r, ∀ st, s.reqFor q.f = some r → s.inTime r q = true → Status.ofCode (bits q.f.spec 0 8) = some st →
      ∃ u : State, exec (.errCompl ing) s = .next u.settle ∧
        u = (s.consume q).answered r (if st = .ok then .ok [] else .error st) q.stamp) ∧
    ((∀ r, s.reqFor q.f = some r → s.inTime r q = false) →
      ∃ u : State, exec (.errCompl ing) s = .next u.settle ∧ u.route = s.route ∧ u.mem = s.mem ∧
        u.count .route q.die rcLate = min cMax (s.count .route q.die rcLate + 1))) ∧
  (∀ dst, ∀ seq, ∀ s : State, ∀ r, s.route.reqs.find? (fun x => x.dst == dst && x.seq == seq) = some r →
    ((∀ d, s.due r = some d → s.time.pip < d) ∨ s.answerWaits r = true → exec (.farTimeout dst seq) s = .next s) ∧
    (∀ d, s.due r = some d → d ≤ s.time.pip → s.answerWaits r = false → (∀ h, ∀ k, r.who ≠ .mirror h k) → (∀ h, r.who ≠ .seal h) →
      exec (.farTimeout dst seq) s = .next (s.answered r (.error .timeout) s.time.pip)))


/-- Issue of control words (10 R291, R293; 09 R261). -/
def Obligations.WordIssue : Prop :=
  ∀ (st slot : Nat), ∀ (s : State), ∀ (i : Instr), ∀ (kind : BitVec 256 → Bool), ∀ (c : Checked),
    (i, kind) ∈ [(Instr.ctrl st slot, fun w => wForm w == 0),
      (.mma st slot, fun w => isMatrix 0 0 w || isMatrix 0 1 w), (.mmaZero st slot, fun w => isMatrix 1 0 w || isMatrix 1 1 w),
      (.loadAcc st slot, isMatrix 2 0), (.drain st slot, isMatrix 3 0), (.predict st slot, isMatrix 1 2),
      (.maskN st slot, fun w => isMatrix 0 3 w || isMatrix 1 3 w), (.maskK st slot, fun w => isMatrix 0 4 w || isMatrix 1 4 w),
      (.vectorFma st slot, isVector 0), (.vectorAdd st slot, isVector 1), (.vectorMul st slot, isVector 2),
      (.vectorMax st slot, isVector 3), (.vectorMin st slot, isVector 4), (.vectorCmpEq st slot, isVector 5),
      (.vectorCmpLt st slot, isVector 6), (.vectorCmpLe st slot, isVector 7), (.vectorAnd st slot, isVector 8),
      (.vectorOr st slot, isVector 9), (.vectorXor st slot, isVector 10), (.vectorCvt st slot, isVector 11),
      (.dma st slot, fun w => wForm w == 3), (.copy st slot, isMem 0), (.gather st slot, isMem 1), (.memAtomic st slot, isMem 2),
      (.sigRemote st slot, isMem 3), (.agsetBase st slot, isAg 0), (.agsetStride st slot, isAg 1), (.agsetAdd st slot, isAg 2),
      (.cmpSet st slot, isScalar 0), (.cmpAdd st slot, isScalar 1), (.lcSet st slot, isScalar 2), (.cntWrite st slot, isScalar 3),
      (.testWord st slot, isScalar 4), (.predSet st slot, isScalar 5), (.descWord st slot, fun w => wForm w == 7),
      (.endWord st slot, fun w => wForm w == 15)] →
    (s.slot st slot).next = some c → kind c.w = true → (s.slot st slot).st = .live → (s.slot st slot).ending = false →
    s.waitTorn st c.w = false → s.testTorn st c.w = false → s.torn rowStitch st (loopLoc slot) = false →
    (s.waitOk st slot (s.slot st slot) c.w = true → s.pick st = some slot →
      exec i s = .next (s.issueWord st slot c).settle) ∧
    (s.waitOk st slot (s.slot st slot) c.w = false → (s.slot st slot).waited = true → exec i s = .next s.settle) ∧
    (s.waitOk st slot (s.slot st slot) c.w = false → (s.slot st slot).waited = false →
      ∃ u : State, exec i s = .next u.settle ∧ (u.slot st slot).waited = true ∧ (u.slot st slot).next = some c ∧
        (u.tile st).flags = (s.tile st).flags ∧ (u.tile st).cnts = (s.tile st).cnts)

/-- Hardware loops (10 R296, R297). -/
def Obligations.HardwareLoops : Prop :=
  ∀ (x : Slot), ∀ (w : BitVec 256), ∀ (pc : Nat),
    (wf w 188 187 = 0 → (∀ n, n < 4 → (x.loops.getD n {}).active = true → (x.loops.getD n {}).last ≠ pc) →
      nextPc x w pc = (x.loops, pc + 1)) ∧
    (∀ n, ∀ cnt, wf w 188 187 = 1 → n = wf w 186 185 →
      cnt = (if wf w 184 184 = 0 then wf w 183 168 else x.lc.getD n 0) →
      (0 < cnt → nextPc x w pc = (x.loops.set n
        { active := true, first := pc + 1, last := pc + wf w 167 152, count := cnt, index := 0 }, pc + 1)) ∧
      (cnt = 0 → (∀ m, m < 4 → (x.loops.getD m {}).active = true → (x.loops.getD m {}).last ≠ pc + wf w 167 152) →
        nextPc x w pc = (x.loops, pc + wf w 167 152 + 1))) ∧
    (∀ n, wf w 188 187 = 0 → n < 4 → (x.loops.getD n {}).active = true → (x.loops.getD n {}).last = pc →
      (∀ m, n < m → m < 4 → (x.loops.getD m {}).active = true → (x.loops.getD m {}).last ≠ pc) →
      ((x.loops.getD n {}).index + 1 < (x.loops.getD n {}).count →
        nextPc x w pc = (x.loops.set n { x.loops.getD n {} with index := (x.loops.getD n {}).index + 1 }, (x.loops.getD n {}).first)) ∧
      ((x.loops.getD n {}).count ≤ (x.loops.getD n {}).index + 1 →
        ((nextPc x w pc).1.getD n {}).active = false ∧ ((nextPc x w pc).1.getD n {}).index = 0 ∧
        ((∀ m, m < n → (x.loops.getD m {}).active = true → (x.loops.getD m {}).last ≠ pc) → (nextPc x w pc).2 = pc + 1))) ∧
    (wf w 188 187 = 2 → (x.p.getD (wf w 150 149) false != (wf w 151 151 == 1)) = true →
      ∀ m, wf w 186 185 ≤ m → m < 4 →
        ((nextPc x w pc).1.getD m {}).active = false ∧ ((nextPc x w pc).1.getD m {}).index = 0)

/-- Effects at issue (10 R292, R305 to R307, Tables 10-4, 10-10). -/
def Obligations.WordEffects : Prop :=
  (∀ st, ∀ slot, ∀ s : State, ∀ (c : Checked), (s.slot st slot).st = .live → (s.slot st slot).ending = false →
    guardOk (s.slot st slot) c.w = true →
    (wForm c.w = 6 → wf c.w 127 124 ≠ 3 →
      ((s.issueWord st slot c).slot st slot).cmp = (scalarSet (s.tile st) (s.slot st slot) c.w).cmp ∧
      ((s.issueWord st slot c).slot st slot).lc = (scalarSet (s.tile st) (s.slot st slot) c.w).lc ∧
      ((s.issueWord st slot c).slot st slot).p = (scalarSet (s.tile st) (s.slot st slot) c.w).p ∧
      ((s.issueWord st slot c).slot st slot).ag = (s.slot st slot).ag) ∧
    (wForm c.w = 5 → ((s.issueWord st slot c).slot st slot).ag = (agSet (s.slot st slot) c.w).ag ∧
      ((s.issueWord st slot c).slot st slot).cmp = (s.slot st slot).cmp) ∧
    (wForm c.w = 6 → wf c.w 127 124 = 3 → wf c.w 211 210 = 0 →
      ((s.issueWord st slot c).tile st).cnt (wf c.w 114 111) = wf c.w 31 0) ∧
    (∀ d, wForm c.w = 7 → s.ueAt (wf c.w 63 0) 64 = none → s.pat.traces = [] →
      parseDesc (s.read (memKey (wf c.w 63 0)) 64) = .ok d →
      ((s.desc (wf c.w 127 112)).last = some (s.time.pip, true) → s.time.pip / 4096 % 2 = 1 →
        (s.issueWord st slot c).desc (wf c.w 127 112) = { s.desc (wf c.w 127 112) with gen := (s.desc (wf c.w 127 112)).gen + 1 }) ∧
      ((s.desc (wf c.w 127 112)).last ≠ some (s.time.pip, true) ∨ s.time.pip / 4096 % 2 = 0 →
        (s.issueWord st slot c).desc (wf c.w 127 112) =
          { gen := (s.desc (wf c.w 127 112)).gen + 1, d := some d, last := some (s.time.pip, false) })) ∧
    (wForm c.w = 15 → ((s.tile st).opsOf slot).isEmpty = true →
      ((s.issueWord st slot c).slot st slot).st = .free ∧ ((s.issueWord st slot c).slot st slot).owner = none)) ∧
  (∀ st, ∀ slot, ∀ s : State, ∀ (c : Checked), (s.slot st slot).st = .live → (s.slot st slot).ending = false →
    guardOk (s.slot st slot) c.w = false → wf c.w 235 234 ≠ 2 →
    ((s.issueWord st slot c).slot st slot).cmp = (s.slot st slot).cmp ∧ ((s.issueWord st slot c).slot st slot).lc = (s.slot st slot).lc ∧
    ((s.issueWord st slot c).slot st slot).p = (s.slot st slot).p ∧ ((s.issueWord st slot c).slot st slot).ag = (s.slot st slot).ag ∧
    ((s.issueWord st slot c).tile st).flags = (s.tile st).flags ∧ ((s.issueWord st slot c).tile st).cnts = (s.tile st).cnts ∧
    ((s.issueWord st slot c).tile st).eng = (s.tile st).eng ∧ (s.issueWord st slot c).descs = s.descs)

/-- OPERATION_COMPLETE (10 R294, R323), ICACHE_FILL (R317), the check (R290). -/
def Obligations.OperationsAndCache : Prop :=
  (∀ st, ∀ e, ∀ s : State, ∀ (op : Op), e < 4 → (s.tile st).ops e = [op] → op.begun = true → op.done = true → op.parts = [] → op.snap = none →
    (s.slot st op.slot).mem = [] →
    ∃ u : State, exec (.operationComplete st e) s = .next u.settle ∧ (u.tile st).ops e = [] ∧
      (op.status = .ok → op.mute = false → wf op.c.w 211 210 = 1 →
        (u.tile st).flags = (s.tile st).flags ||| (1#32 <<< wf op.c.w 209 205) ∧ (u.tile st).cnts = (s.tile st).cnts) ∧
      (op.status = .ok → op.mute = false → wf op.c.w 211 210 = 2 → s.cntTorn st (wf op.c.w 209 205) = false →
        (u.tile st).flags = (s.tile st).flags ∧
        (u.tile st).cnt (wf op.c.w 209 205) = ((s.tile st).cnt (wf op.c.w 209 205) + wf op.c.w 204 189) % 2 ^ 32) ∧
      (op.status ≠ .ok ∨ op.mute = true → (u.tile st).flags = (s.tile st).flags ∧ (u.tile st).cnts = (s.tile st).cnts)) ∧
  (∀ st, ∀ e, ∀ s : State, e < 4 → (∀ op ∈ (s.tile st).ops e, op.done = false) → exec (.operationComplete st e) s = .next s.settle) ∧
  (∀ st, ∀ slot, ∀ s : State, ∀ (l : Launch), ∀ (p : Pattern), s.slotLaunch st slot = some l → s.patternOf l = some p → (s.slot st slot).st = .live →
    (s.slot st slot).next = none → (s.slot st slot).ending = false → (s.slot st slot).pc < p.count →
    ∃ t : State, ∃ u : State, exec (.icacheFill st slot) s = .next t ∧ t = u.checkNext st slot l p ∧ u = { s with tiles := u.tiles } ∧
      (u.tile st).icache.head? = some (lineKey p.gen (s.slot st slot).pc) ∧ (u.tile st).icache.length ≤ 256 ∧
      u.slot st slot = s.slot st slot) ∧
  (∀ st, ∀ i, ∀ s : State, ∀ (l : Launch), ∀ (p : Pattern), s.wordUe st p (s.slot st i).pc = false →
    (∀ e, s.checkWord st (s.slot st i) (BitVec.ofNat 256 (s.readNat (wordKey (st / 256) p (s.slot st i).pc) 32)) p.count l.optStep = .error e →
      ((s.checkNext st i l p).slot st i).st = .faulted ∧
      ((s.checkNext st i l p).slot st i).fault.map (·.status) = some e ∧
      ((s.checkNext st i l p).slot st i).next = none) ∧
    (∀ c, s.checkWord st (s.slot st i) (BitVec.ofNat 256 (s.readNat (wordKey (st / 256) p (s.slot st i).pc) 32)) p.count l.optStep = .ok c →
      ∃ d, ((s.checkNext st i l p).slot st i).next = some d ∧ d.w = c.w ∧ d.ops = c.ops ∧
        ((s.checkNext st i l p).slot st i).st = (s.slot st i).st))

/-- MATRIX (10 R300; 12 R365; 09 R257). -/
def Obligations.MatrixTiles : Prop :=
  (∀ st, ∀ s : State, ∀ t : State, ∀ (c : Checked), ∀ (x y : LatOp), ∀ (z : Option LatOp), c.ops = [some x, some y, z] → s.mma st c = (t, none) →
    t.mem = s.mem ∧ t.descs = s.descs ∧ (∀ k, k ≠ st → t.tile k = s.tile k) ∧
    (∀ tile, ∀ i, ∀ j, tile < 2 → i < 64 → j < 64 → (tile ≠ wf c.w 123 123 ∨ wM c.w ≤ i ∨ wN c.w ≤ j) →
      (t.tile st).accAt tile i j = (s.tile st).accAt tile i j) ∧
    (∀ i, ∀ j, ∀ row, i < wM c.w → j < wN c.w → s.aRow st x i (wK c.w) = some row →
      (t.tile st).accAt (wf c.w 123 123) i j = (s.mmaElem st x y row j (groupLen x.d) (wK c.w)
        (if wSpctl c.w = 1 then c.split else 0)
        (if wf c.w 127 124 = 1 then 0 else (s.tile st).accAt (wf c.w 123 123) i j)).1)) ∧
  (∀ st, ∀ s : State, ∀ t : State, ∀ (c : Checked), ∀ (x y z : Option LatOp), c.ops = [x, y, z] → s.loadAcc st c = (t, none) →
    t.mem = s.mem ∧ (∀ k, k ≠ st → t.tile k = s.tile k) ∧
    (∀ tile, ∀ i, ∀ j, tile < 2 → i < 64 → j < 64 → (tile ≠ wf c.w 123 123 ∨ wM c.w ≤ i ∨ wN c.w ≤ j) →
      (t.tile st).accAt tile i j = (s.tile st).accAt tile i j)) ∧
  (∀ st, ∀ s : State, ∀ t : State, ∀ u : State, ∀ (c d : Checked), ∀ (x y : LatOp), ∀ (z : Option LatOp), ∀ (li : Nat), ∀ (l : Layer), ∀ (exact : Bool), ∀ (step : Nat),
    c.ops = [some x, some y, z] → d.ops = c.ops → c.layer = some (li, l, exact) → (l.mode = 2 ∨ exact = true) → x.d.rlz = false →
    wM d.w = wM c.w → wN d.w = wN c.w → wK d.w = wK c.w → wf d.w 123 123 = wf c.w 123 123 → wf d.w 127 124 = wf c.w 127 124 →
    wSpctl d.w = 0 → s.mma st d = (t, none) → (s.maskN st c step = (u, none) ∨ s.maskK st c step = (u, none)) →
    ∀ tile, ∀ i, ∀ j, (u.tile st).accAt tile i j = (t.tile st).accAt tile i j)

/-- LAUNCH_START (02 R56, R61; 10 R320), BARRIER_ARRIVE, BARRIER_START (02 R57), BARRIER_ROOT_TIMEOUT, BARRIER_MEMBER_TIMEOUT
(R59), LAUNCH_RUN_LIMIT (10 R322). -/
def Obligations.Launches : Prop :=
  (∀ n, ∀ s : State, ∀ l, s.launch n = some l →
    (l.st = .armed → l.bslot = none → l.target ≤ s.time.pip → s.earlierDue n l = false →
      exec (.launchStart n) s = .next (s.startLaunch n l)) ∧
    (s.time.pip < l.target ∨ l.st ≠ .armed → exec (.launchStart n) s = .next s) ∧
    (n < 1024 → l.st = .running → l.runLimit ≠ 0 → l.start + l.runLimit ≤ s.time.pip →
      exec (.launchRunLimit n) s = .next (s.abortLaunch n l .timeout)) ∧
    (s.time.pip < l.start + l.runLimit ∨ l.runLimit = 0 → exec (.launchRunLimit n) s = .next s)) ∧
  (∀ n, ∀ s : State, ∀ l, ∃ l', (s.startLaunch n l).launch n = some l' ∧ l'.start = s.time.pip ∧ l'.st ≠ .armed) ∧
  (∀ n, ∀ s : State, ∀ l, ∀ k, ∀ b, s.barrierOf n = some (l, k, b) →
    (s.kindDue l = true → exec (.barrierArrive n) s = .next s ∧ exec (.barrierStart n) s = .next s) ∧
    (s.arrivesAfter n l = false → b.arrived = false → b.goAt = none → (∀ c ∈ b.kids, c.2 = b.phase ∧ c.1 ∉ b.barred) →
      (b.parent = none → s.time.pip + b.span < s.barrierLimit l →
        ∃ t : State, exec (.barrierArrive n) s = .next t ∧
          tabGet? t.time.slots k = some { b with arrived := true, go := true, goAt := some s.time.pip } ∧
          t = { s with time := t.time, links := t.links }) ∧
      (∀ p, b.parent = some p → p ∈ b.barred → exec (.barrierArrive n) s = .next s) ∧
      (∀ p, b.parent = some p → p ∉ b.barred → (s.link p).time.excluded = false →
        ∃ t : State, exec (.barrierArrive n) s = .next t ∧ tabGet? t.time.slots k = some { b with arrived := true } ∧
          (∃ w ∈ (t.link p).ticks, w.2 = ({ b with arrived := true } : BarrierSlot).word k) ∧ t = { s with time := t.time, links := t.links })) ∧
    (∀ g, b.goAt = some g → s.earlierDue n l = false → g + (b.span - b.delay) ≤ s.time.pip →
      exec (.barrierStart n) s = .next ((s.setTime { s.time with slots := tabPut s.time.slots k { b with busy := false } }).startLaunch
        n { l with bslot := none })) ∧
    (b.parent = none → b.goAt = none → s.barrierLimit l ≤ s.time.pip + b.span →
      exec (.barrierRootTimeout n) s = .next (s.dropLaunch n l .timeout)) ∧
    (b.parent ≠ none → b.goAt = none → s.barrierLimit l + 4096 ≤ s.time.pip →
      exec (.barrierMemberTimeout n) s = .next (s.dropLaunch n l .timeout)))

/-- The Pattern commands (10 R316, R319, R323, R325; 02 R54). -/
def Obligations.PatternCommands : Prop :=
  (∀ o : Origin, ∀ addr, ∀ len, ∀ s : State, ∀ p, ∀ id, s.waiting o 0x0601 [addr, len] = some p → s.MaySend o 0x0601 → s.Owns o resPat →
    addr % 64 = 0 → addr + len ≤ 2 ^ 37 → s.dramDenied addr len = false → 1 ≤ s.readNat (dramKey (addr + 4)) 4 →
    s.readNat (dramKey (addr + 4)) 4 ≤ 65536 → bits (s.readNat (dramKey addr) 64) 0 32 = 1 →
    bits (s.readNat (dramKey addr) 64) 64 448 = 0 → len = 64 + 32 * s.readNat (dramKey (addr + 4)) 4 →
    id = firstFree (s.pat.pats.map (·.1)) 257 0 → id < 256 → s.patPlace len + len ≤ 2 ^ 25 → s.firstUe (dramKey addr) len = none → s.mayIssue (addr / 2 ^ 35 % 4) clsMgmt = true →
    ∃ f : State → State, ∃ res, exec (.patLoad o addr len) s = .next (s.concluded p f .ok res) ∧
      ∀ a : State, a.MemOk → (∃ x, tabGet? (f a).pat.pats id = some x ∧ x.count = s.readNat (dramKey (addr + 4)) 4 ∧ x.len = len ∧
          x.digest = Config.sha384 (a.read (dramKey addr) len)) ∧
        (∀ k, k < 4 → (f a).read (dramKey (patStore k + s.patPlace len)) len = a.read (dramKey addr) len)) ∧
  (∀ o : Origin, ∀ pat, ∀ s : State, ∀ p, ∀ x, s.waiting o 0x0602 [pat] = some p → s.MaySend o 0x0602 → s.Owns o resPat → tabGet? s.pat.pats pat = some x →
    s.patBusy pat = false →
    exec (.patUnload o pat) s = .next (s.concluded p (fun a => a.setPat { a.pat with pats := tabDel a.pat.pats pat }) .ok (fun _ => []))) ∧
  (∀ (o : Origin), ∀ (x : LaunchArgs), ∀ (s : State), ∀ (p : Posted), ∀ (y : Pattern), ∀ (sl : List (Nat × Nat)), ∀ (target : Nat),
    s.waiting o 0x0603 [x.launch, x.pat, x.map, x.slotsPer, x.entry, x.target, x.late, x.group, x.runLimit, x.optStep, x.step,
      x.arg0, x.arg1] = some p → s.MaySend o 0x0603 → s.Owns o resPat →
    x.map % 64 = 0 → x.map + 128 ≤ 2 ^ 37 → s.dramDenied x.map 128 = false →
    (∀ st ∈ mapStitches (s.readNat (dramKey x.map) 128), s.stitchStatus st = none) →
    mapStitches (s.readNat (dramKey x.map) 128) ≠ [] → x.launch ≤ 1023 → 1 ≤ x.slotsPer → x.slotsPer ≤ 64 → x.late ≤ 1 →
    x.group = 0xFFFF → x.runLimit = 0 → x.optStep ≤ 1 → tabGet? s.pat.pats x.pat = some y → x.entry < y.count →
    scheduled s.time.pip x.target x.late = some target →
    s.takeAll (mapStitches (s.readNat (dramKey x.map) 128)) x.slotsPer = some sl → (∀ l, s.launch x.launch = some l → l.st = .ended) →
    s.time.state ≠ .unlocked → s.firstUe (dramKey x.map) 128 = none → s.mayIssue (x.map / 2 ^ 35 % 4) clsMgmt = true →
    ∃ ft : Nat → State → State, exec (.patLaunchAt o x) s = .next (s.begun p ft) ∧
      ∀ tk, ∀ a : State, ∃ l, (ft tk a).launch x.launch = some l ∧ l.st = .armed ∧ l.target = target ∧ l.slots = sl ∧ l.ticket = some tk ∧
        ∀ q ∈ sl, ((ft tk a).slot q.1 q.2).reserved = some x.launch) ∧
  (∀ o : Origin, ∀ n, ∀ s : State, ∀ p, ∀ l, s.waiting o 0x0605 [n] = some p → s.MaySend o 0x0605 → s.Owns o resPat → n ≤ 1023 → s.launch n = some l →
    (l.st = .armed → exec (.patAbort o n) s = .next (s.concluded p (fun a => a.dropLaunch n l .aborted) .ok (fun _ => []))) ∧
    (l.st = .running → exec (.patAbort o n) s = .next (s.begun p (fun tk a =>
      (a.setLaunch n { l with abortTickets := l.abortTickets ++ [tk] }).abortLaunch n
        { l with abortTickets := l.abortTickets ++ [tk] } .aborted)))) ∧
  (∀ o : Origin, ∀ n, ∀ s : State, ∀ p, ∀ l, s.waiting o 0x0604 [n] = some p → s.MaySend o 0x0604 → n ≤ 1023 → s.launch n = some l →
    ∃ res, exec (.patStatus o n) s = .next (s.concluded p id .ok res) ∧
      (res (s.accept p).2).take 3 = [uf 1 (match l.st with | .armed => 0 | .running => 1 | .ended => 2), uf 8 l.start, uf 8 l.stop]) ∧
  (∀ o : Origin, ∀ k, ∀ i, ∀ slot, ∀ s : State, ∀ p, s.waiting o 0x0606 [k, i, slot] = some p → s.MaySend o 0x0606 → k ≤ 3 → slot ≤ 63 →
    s.absent (stitchNo k i) = false → s.isRetired (stitchNo k i) = false →
    exec (.patFaultRead o k i slot) s = .next (s.concluded p id .ok (fun a => faultFlds
      (if (a.slot (stitchNo k i) slot).st = .faulted then (a.slot (stitchNo k i) slot).fault else none)))) ∧
  (∀ o : Origin, ∀ mask, ∀ lo, ∀ hi, ∀ events, ∀ ring, ∀ size, ∀ wrap, ∀ s : State, ∀ p, s.waiting o 0x0607 [mask, lo, hi, events, ring, size, wrap] = some p →
    s.MaySend o 0x0607 → s.Owns o resPat → ring % 64 = 0 → ring + size ≤ 2 ^ 37 → s.dramDenied ring size = false → mask ≤ 15 →
    mask ≠ 0 → lo ≤ hi → size % 16 = 0 → size ≠ 0 → wrap ≤ 1 →
    ∃ f : State → State, ∃ res, exec (.patTraceSet o mask lo hi events ring size wrap) s = .next (s.concluded p f .ok res) ∧
      ∀ a : State, (f a).pat.traces.getLast? = some (Trace.mk mask lo hi events ring size (decide (wrap = 1)) 0 0 0) ∧ f a = { a with pat := (f a).pat })

/-- DESC_LOAD, DESC_READ, DESC_CLEAR (10 R308, R310, R311), PRED_LAYER_SET, PRED_LAYER_CLEAR, PRED_LAYER_STATUS (12 R362, R369,
R371). -/
def Obligations.DescriptorCommands : Prop :=
  (∀ (o : Origin), ∀ (handle count addr : Nat), ∀ (s : State), ∀ (p : Posted), ∀ (ds : List Desc),
    s.waiting o 0x0701 [handle, count, addr] = some p → s.MaySend o 0x0701 → s.Owns o resPat →
    handle < 2 ^ 16 → bits handle 12 2 = 0 → handle % 4096 + count ≤ 4096 → 1 ≤ count → count ≤ 4096 → addr % 64 = 0 →
    addr + 64 * count ≤ 2 ^ 37 → s.dramDenied addr (64 * count) = false → s.firstUe (dramKey addr) (64 * count) = none →
    s.descImages addr count = ds.map Except.ok → s.mayIssue (addr / 2 ^ 35 % 4) clsMgmt = true →
    ∃ f : State → State, ∃ res, exec (.descLoad o handle count addr) s = .next (s.concluded p f .ok res) ∧
      ∀ a : State, f a = { a with descs := (f a).descs, pwr := (f a).pwr } ∧ (∀ i, ∀ d, ds[i]? = some d →
        ((a.desc (handle + i)).last = some (a.time.pip, false) → a.time.pip / 4096 % 2 = 0 →
          (f a).desc (handle + i) = { a.desc (handle + i) with gen := (a.desc (handle + i)).gen + 1 }) ∧
        ((a.desc (handle + i)).last ≠ some (a.time.pip, false) ∨ a.time.pip / 4096 % 2 = 1 →
          (f a).desc (handle + i) = { gen := (a.desc (handle + i)).gen + 1, d := some d, last := some (a.time.pip, true) }))) ∧
  (∀ o : Origin, ∀ handle, ∀ s : State, ∀ p, s.waiting o 0x0702 [handle] = some p → s.MaySend o 0x0702 → bits handle 12 2 = 0 →
    exec (.descRead o handle) s = .next (s.concluded p id .ok (fun a => [uf 1 (b2n (a.desc handle).d.isSome), uf 4 (a.desc handle).gen,
      bf 64 (match (a.desc handle).d with | some d => leNat d.bytes | none => 0)]))) ∧
  (∀ o : Origin, ∀ handle, ∀ count, ∀ s : State, ∀ p, s.waiting o 0x0703 [handle, count] = some p → s.MaySend o 0x0703 → s.Owns o resPat →
    handle < 2 ^ 16 → bits handle 12 2 = 0 → handle % 4096 + count ≤ 4096 → 1 ≤ count →
    ∃ f : State → State, exec (.descClear o handle count) s = .next (s.concluded p f .ok (fun _ => [])) ∧
      ∀ a : State, f a = { a with descs := (f a).descs } ∧ (∀ i, i < count → ((f a).desc (handle + i)).d = none ∧
        ((f a).desc (handle + i)).gen = (a.desc (handle + i)).gen)) ∧
  (∀ o : Origin, ∀ k, ∀ i, ∀ addr, ∀ s : State, ∀ p, ∀ l, s.waiting o 0x0608 [k, i, addr] = some p → s.MaySend o 0x0608 → s.Owns o resPat → k ≤ 3 →
    s.sec.grade ≠ .b → addr % 64 = 0 → addr + 64 ≤ 2 ^ 37 → s.dramDenied addr 64 = false →
    parseLayer (s.read (dramKey addr) 64) = (l, false) → s.layerShapes l = true → l.up ≠ l.down → s.handleUsed k i l = false →
    s.firstUe (dramKey addr) 64 = none → s.mayIssue (addr / 2 ^ 35 % 4) clsMgmt = true →
    ∃ f : State → State, exec (.predLayerSet o k i addr) s = .next (s.concluded p f .ok (fun a => [uf 8 a.time.pip])) ∧
      ∀ a : State, (f a).layer k i = some { l := l }) ∧
  (∀ o : Origin, ∀ k, ∀ i, ∀ s : State, ∀ p, ∀ e, s.waiting o 0x0609 [k, i] = some p → s.MaySend o 0x0609 → s.Owns o resPat → k ≤ 3 → s.sec.grade ≠ .b →
    s.layer k i = some e →
    exec (.predLayerClear o k i) s = .next (s.concluded p (fun a => a.setLayers (tabDel a.layers (256 * k + i))) .ok (fun _ => []))) ∧
  (∀ o : Origin, ∀ k, ∀ i, ∀ clear, ∀ s : State, ∀ p, ∀ e, s.waiting o 0x060A [k, i, clear] = some p → s.MaySend o 0x060A → k ≤ 3 → s.sec.grade ≠ .b →
    clearOk o clear → s.layer k i = some e →
    ∃ f : State → State, ∃ res, exec (.predLayerStatus o k i clear) s = .next (s.concluded p f .ok res) ∧ (res (s.accept p).2).length = 12 ∧
      (clear = 0 → f = id) ∧ (clear = 1 → ∀ a : State, (f a).layer k i = some { e with flag := false } ∧
        ∀ n, n < 6 → (f a).count .pred (256 * k + i) n = 0)) ∧
  (∀ o : Origin, ∀ k, ∀ i, ∀ addr, ∀ s : State, ∀ p, s.waiting o 0x0608 [k, i, addr] = some p → s.MaySend o 0x0608 → s.Owns o resPat → s.sec.grade = .b → k ≤ 3 →
    addr % 64 = 0 → addr + 64 ≤ 2 ^ 37 → s.dramDenied addr 64 = false → (parseLayer (s.read (dramKey addr) 64)).2 = false →
    exec (.predLayerSet o k i addr) s = .next (s.turnedAway p .unitAbsent 0xFFFF))


/-- TOKEN (11 R327, R328, R332 to R334), TOKEN_RES, ASM_LIMIT_EXPIRY (R332). -/
def Obligations.TokenArrival : Prop :=
  (∀ ing, ∀ s : State, ∀ q, s.localHead ing 5 6 = some q → s.exp.toks.find? (fun x => x.keyOf q) = none →
    (q.f.segOff ≠ 0 → ∃ t : State, exec (.token ing) s = .next t ∧ t = s.discardTok q ∧ t.exp = s.exp) ∧
    (q.f.segOff = 0 → 1024 ≤ (s.exp.toks.filter (fun x => x.die == q.die)).length →
      exec (.token ing) s = .next ((s.dropQueued q).returnTok (dieReturn q.die) q.die { tokOf q with frames := [q] } .capacity)) ∧
    (∀ fid, q.f.segOff = 0 → (s.exp.toks.filter (fun x => x.die == q.die)).length < 1024 →
      s.lookupExpert (tokOf q).expert = .owner fid →
      ∃ t : State, ∃ u : State, exec (.token ing) s = .next t ∧ t = u.forwardTok q fid ∧ u.buf = s.buf ∧ u.route = s.route) ∧
    (q.f.segOff = 0 → (s.exp.toks.filter (fun x => x.die == q.die)).length < 1024 →
      s.lookupExpert (tokOf q).expert = .nobody → tokFrameBad q.f = false →
      exec (.token ing) s = .next ((s.dropQueued q).returnTok (dieReturn q.die) q.die { tokOf q with frames := [q] } .badDesc)) ∧
    (∀ x, q.f.segOff = 0 → (s.exp.toks.filter (fun x => x.die == q.die)).length < 1024 →
      s.lookupExpert (tokOf q).expert = .hosted x → tokFrameBad q.f = false → x.refuses (tokOf q).hdr = false →
      q.f.segElems = (tokOf q).d →
      ∃ t : State, ∃ y, ∃ k, exec (.token ing) s = .next t ∧ t.expert? (tokOf q).expert = some y ∧ y.notices = x.notices ++ [k] ∧
        k.hdr = q.f.cells.take 64 ∧ k.frames = [q] ∧ k.stamp = q.stamp ∧ t.mem = s.mem)) ∧
  (∀ ing, ∀ s : State, ∀ q, s.localHead ing 6 7 = some q →
    ∃ t : State, exec (.tokenRes ing) s = .next t ∧ t = (s.consume q).bump .route q.die rcLate ∧ t.exp = s.exp ∧ t.mem = s.mem) ∧
  (∀ ing, ∀ src, ∀ ch, ∀ pass, ∀ s : State, ∀ k, s.exp.toks.find? (fun x => x.ing == ing && x.src == src && x.ch == ch && x.pass == pass) = some k →
    (s.time.pip < k.first + s.setting idAsmLimit 0 → exec (.asmLimitExpiry ing src ch pass) s = .next s) ∧
    (k.first + s.setting idAsmLimit 0 ≤ s.time.pip → k.fwd = none →
      (∀ q ∈ s.buf.frames, q.dest = .directory → k.keyOf q = true → k.first + s.setting idAsmLimit 0 ≤ q.stamp) →
      exec (.asmLimitExpiry ing src ch pass) s =
        .next ((s.setToks (s.exp.toks.filter (· ≠ k))).returnTok (dieReturn k.die) k.die k .timeout))) ∧
  (∀ ing, ∀ s : State, ∀ q, ∀ k, s.localHead ing 5 6 = some q → s.exp.toks.find? (fun x => x.keyOf q) = some k →
    (s.exp.toks.filter (· ≠ k)).find? (fun x => x.keyOf q) = none → k.first + s.setting idAsmLimit 0 ≤ q.stamp → q.f.segOff ≠ 0 →
    exec (.token ing) s = .next ((s.asmFail k).discardTok q))

/-- TOKEN_NOTICE, TILE_WAIT_EXPIRY (11 R335, R336). -/
def Obligations.NoticesAndTiles : Prop :=
  (∀ id, ∀ s : State, ∀ x, ∀ k, s.expert? id = some x → firstNotice s.time.pip x.notices = some k → s.wayOpen x.home k = true →
    (x.isKeyed = false ∨ k.pass = 0 ∨ s.mayIssue x.home clsExpert = true) →
    (k.step ≠ x.wstep → exec (.tokenNotice id) s =
      .next ((s.setExpert id { x with notices := x.notices.erase k }).returnTok x.home 4 k .epoch)) ∧
    (k.step = x.wstep → k.pass = 0 → x.cap ≤ x.fwd → exec (.tokenNotice id) s =
      .next ((s.setExpert id { x with notices := x.notices.erase k }).returnTok x.home 4 k .capacity)) ∧
    (k.step = x.wstep → k.pass = 1 → x.grad ≠ 0 → exec (.tokenNotice id) s =
      .next ((s.setExpert id { x with notices := x.notices.erase k }).returnTok x.home 4 k .late)) ∧
    (∀ n, k.step = x.wstep → k.pass = 1 → x.grad = 0 → x.firstBwd = some n → n + x.bwdLimit ≤ k.stamp → exec (.tokenNotice id) s =
      .next (((s.setExpert id { x with notices := x.notices.erase k }).closeGrad id).returnTok x.home 4 k .late)) ∧
    (∀ n, ∀ u : State, k.step = x.wstep → k.pass = 1 → x.grad = 0 → x.firstBwd = some n → k.stamp < n + x.bwdLimit → x.isKeyed = true →
      x.stagedNum < x.stageTokens → (s.setExpert id { x with notices := x.notices.erase k }).takeTok k = some (u, true) →
      ∃ t : State, ∃ c, exec (.tokenNotice id) s = .next t ∧ c.entry = some x.freeEntry ∧ c.hdr = k.hdr ∧
        t.expert? id = some { x with notices := x.notices.erase k, staged := x.staged ++ [c] }) ∧
    (k.step = x.wstep → k.pass = 0 → x.fwd < x.cap → x.openF = none →
      ∃ t : State, exec (.tokenNotice id) s = .next t ∧ t.expert? id = some { x with notices := x.notices.erase k, fwd := x.fwd + 1, openF := some { t0 := k.stamp, toks := [k] } }) ∧
    (∀ y, k.step = x.wstep → k.pass = 0 → x.fwd < x.cap → x.openF = some y → k.stamp < y.t0 + x.tileWait →
      (y.toks.length + 1 < 64 →
        ∃ t : State, exec (.tokenNotice id) s = .next t ∧ t.expert? id = some { x with notices := x.notices.erase k, fwd := x.fwd + 1, openF := some { y with toks := y.toks ++ [k] } }) ∧
      (y.toks.length + 1 = 64 → (∃ r ∈ x.reps, r.2.active = true) →
        ∃ t : State, exec (.tokenNotice id) s = .next t ∧ t.expert? id = some { x with notices := x.notices.erase k, fwd := x.fwd + 1, openF := none, closed := x.closed ++ [(0, { y with toks := y.toks ++ [k] })] }))) ∧
  (∀ id, ∀ pass, ∀ s : State, ∀ x, ∀ y, s.expert? id = some x → x.tile pass = some y → pass < 2 →
    (s.time.pip < y.t0 + x.tileWait → exec (.tileWaitExpiry id pass) s = .next s) ∧
    (y.t0 + x.tileWait ≤ s.time.pip → (∀ n ∈ x.notices, y.t0 + x.tileWait ≤ n.stamp) → (∃ r ∈ x.reps, r.2.active = true) →
      ∃ t : State, ∃ z, exec (.tileWaitExpiry id pass) s = .next t ∧ t.expert? id = some z ∧ z.tile pass = none ∧
        z.closed = x.closed ++ [(pass, y)]))

/-- RUN_LOAD (11 R337, R339), RUN_START (R339, R341), RUN_END (R339, R340), RUN_LIMIT_EXPIRY (R340), BWD_LIMIT_EXPIRY (R347). -/
def Obligations.ExpertRuns : Prop :=
  (∀ id, ∀ r, ∀ area, ∀ s : State, ∀ x, ∀ p, ∀ pass, ∀ ts, ∀ rest, s.expert? id = some x → x.rep r = some p → p.active = true → s.groupReady p.sts = true →
    s.mayIssue p.skein clsExpert = true → p.keyed = [] → x.freeArea = some (r, area) → x.nextTiles = some (pass, ts, rest) →
    (ts.flatMap (·.toks)).all (s.wayOpen p.skein) = true →
    ∀ t : State, (s.setExpert id { x with closed := rest }).loadTiles id r area pass p ts = some t → exec (.runLoad id r area) s = .next t) ∧
  (∀ (id r area pass : Nat), ∀ (s u : State), ∀ (x : Expert), ∀ (p : Replica), ∀ (ts : List Tile), s.expert? id = some x →
    ts.flatMap (·.toks) ≠ [] → (∀ k ∈ ts.flatMap (·.toks), s.loadBad x p.sts.length k = none) →
    takeToks (ts.flatMap (·.toks)) s = some (u, []) →
    ∃ t : State, ∃ y, ∃ q, ∃ run, s.loadTiles id r area pass p ts = some t ∧ t.expert? id = some y ∧ y.rep r = some q ∧ q.area area = some run ∧
      run.pass = pass ∧ run.step = x.wstep ∧ run.running = false ∧ run.rows = (ts.flatMap (·.toks)).map (fun k => some (s.loadTok x k))) ∧
  (∀ id, ∀ r, ∀ area, ∀ s : State, ∀ x, ∀ p, ∀ run, s.expert? id = some x → x.rep r = some p → p.area area = some run → area ≤ 1 → p.running = none →
    p.active = true → (s.dealer p.skein).started.contains (runItem id r area) = true → s.shardQuiet x = true →
    s.mayIssue p.skein clsExpert = true → x.runOver p run = false →
    (run.step = x.wstep →
      exec (.runStart id r area) s = .next (s.startRun id r area x p run) ∧
      ∃ l, (s.startRun id r area x p run).launch (runKey id r) = some l ∧ l.arg0 = run.toks.length ∧ l.arg1 = x.wstep ∧
        l.start = s.time.pip) ∧
    (run.step ≠ x.wstep → exec (.runStart id r area) s = .next ((((s.takeUp p.skein (runItem id r area)).setRep id r
      (p.setArea area none)).returnAll x.home 4 run.toks .epoch).passGrad id))) ∧
  (∀ id, ∀ r, ∀ s : State, ∀ x, ∀ p, ∀ area, ∀ run, ∀ l, s.expert? id = some x → x.rep r = some p → p.running = some (area, run) →
    s.launch (runKey id r) = some l →
    (l.slots.all (s.slotOver (runKey id r)) = true → s.groupReady p.sts = true →
      (l.fault ≠ none ∨ s.mayIssue p.skein clsExpert = true) →
      exec (.runEnd id r) s = .next ((s.endRun id r x p area run l).tryRestore x.shardH)) ∧
    (l.slots.all (s.slotOver (runKey id r)) = false → exec (.runEnd id r) s = .next s) ∧
    (l.fault ≠ none → s.endRows id x p area run l = (s.returnAll p.skein 4 run.toks l.status, 0)) ∧
    (x.runLimit ≠ 0 → run.start + x.runLimit ≤ s.time.pip → exec (.runLimitExpiry id r) s = .next (s.stopRun id r .timeout)) ∧
    (x.runLimit = 0 ∨ s.time.pip < run.start + x.runLimit → exec (.runLimitExpiry id r) s = .next s)) ∧
  (∀ id, ∀ s : State, ∀ x, ∀ n, s.expert? id = some x → x.firstBwd = some n →
    (x.grad = 0 → n + x.bwdLimit ≤ s.time.pip → (∀ k ∈ x.notices, n + x.bwdLimit ≤ k.stamp) → exec (.bwdLimitExpiry id) s = .next (s.closeGrad id)) ∧
    (s.time.pip < n + x.bwdLimit → exec (.bwdLimitExpiry id) s = .next s))

/-- The expert commands (11 R326, R328, R340, R344, R346, R351 to R353). -/
def Obligations.ExpertCommands : Prop :=
  (∀ (o : Origin), ∀ (addr : Nat), ∀ (s : State), ∀ (p : Posted), ∀ (x : Expert), ∀ (sl : List (Nat × Nat)),
    s.waiting o 0x0801 [addr] = some p → s.MaySend o 0x0801 → s.Owns o resExp → addr + 256 ≤ 2 ^ 37 →
    s.dramDenied addr 256 = false → s.firstUe (dramKey addr) 256 = none → x = { d := s.read (dramKey addr) 256 } →
    expertFieldBad x = false → s.sec.grade ≠ .n → (∀ st ∈ x.map0, s.stitchStatus st = none) →
    (∀ r ∈ x.extents, s.dramDenied r.1 r.2 = false) → tabGet? s.exp.exact (x.f 2 2) = none → s.expPatBad x 0 = false → (x.bwd = true → s.expPatBad x 1 = false) →
    (x.bwd = true → (s.desc x.gradH).d ≠ none ∧ x.cap ≤ x.stashSlots) → x.shardH = 0 → x.placeBad = false →
    groupBad x.map0 x.map0.length = false → s.exp.exact.length < 2048 → s.takeAll x.map0 x.slotsPer = some sl → s.mayIssue (addr / 2 ^ 35 % 4) clsMgmt = true →
    ∃ f : State → State, ∃ res, exec (.expPlace o addr) s = .next (s.concluded p f .ok res) ∧
      ∀ a : State, ∃ y, ∃ q, (f a).expert? (x.f 2 2) = some y ∧ y.d = x.d ∧ y.fwd = 0 ∧ y.rep 0 = some q ∧ q.sts = x.map0 ∧ q.slots = sl) ∧
  (∀ o : Origin, ∀ id, ∀ s : State, ∀ p, ∀ e, s.waiting o 0x0802 [id] = some p → s.MaySend o 0x0802 → s.Owns o resExp → tabGet? s.exp.exact id = some e →
    ∃ f : State → State, ∃ res, exec (.expRemove o id) s = .next (s.concluded p f .ok res) ∧ ∀ a : State, tabGet? (f a).exp.exact id = none) ∧
  (∀ (o : Origin), ∀ (id map grad : Nat), ∀ (s : State), ∀ (p : Posted), ∀ (x : Expert), ∀ (sl : List (Nat × Nat)), ∀ (sts : List Nat),
    s.waiting o 0x0803 [id, map, grad] = some p → s.MaySend o 0x0803 → s.Owns o resExp → map + 128 ≤ 2 ^ 37 →
    s.dramDenied map 128 = false → s.firstUe (dramKey map) 128 = none → sts = mapStitches (s.readNat (dramKey map) 128) →
    s.sec.grade ≠ .n → (∀ st ∈ sts, s.stitchStatus st = none) → s.expert? id = some x →
    groupBad sts (((x.reps.head?).map (fun r => r.2.sts.length)).getD x.map0.length) = false →
    bits grad 12 2 = 0 → x.reps.length < 8 → s.takeAll sts x.slotsPer = some sl → s.mayIssue (map / 2 ^ 35 % 4) clsMgmt = true →
    ∃ f : State → State, ∃ res, exec (.expReplicaAdd o id map grad) s = .next (s.concluded p f .ok res) ∧
      ∀ a : State, a.exp = s.exp → ∃ y, ∃ q, (f a).expert? id = some y ∧ y.rep (firstFree (x.reps.map (·.1)) 9 0) = some q ∧ q.sts = sts ∧
        q.slots = sl ∧ q.grad = grad) ∧
  (∀ o : Origin, ∀ id, ∀ r, ∀ s : State, ∀ p, ∀ x, ∀ q, s.waiting o 0x0804 [id, r] = some p → s.MaySend o 0x0804 → s.Owns o resExp → s.expert? id = some x →
    x.rep r = some q → (x.reps.length ≠ 1 ∨ s.queuedToks id x = []) → q.drop = none →
    ∃ ft : Nat → State → State, exec (.expReplicaDrop o id r) s = .next (s.begun p ft) ∧
      (q.running = none → ∀ tk, ∀ a : State, a.exp = s.exp → ((ft tk a).expert? id).bind (fun y => y.rep r) = none) ∧
      (q.running ≠ none → ∀ tk, ∀ a : State, a.exp = s.exp →
        ((ft tk a).expert? id).bind (fun y => y.rep r) = some { q with drop := some tk })) ∧
  (∀ o : Origin, ∀ index, ∀ lo, ∀ hi, ∀ owner, ∀ s : State, ∀ p, s.waiting o 0x0805 [0, index, lo, hi, owner, 0] = some p → s.MaySend o 0x0805 → s.Owns o resExp →
    index ≤ 63 → owner < 2 ^ 20 → owner ≠ s.devFid → owner ≠ 0xFFFFF → s.expert? lo = none → s.exp.exact.length < 2048 →
    ∃ f : State → State, exec (.expRemoteSet o 0 index lo hi owner 0) s = .next (s.concluded p f .ok (fun _ => [])) ∧
      ∀ a : State, tabGet? (f a).exp.exact lo = some (.remote owner)) ∧
  (∀ o : Origin, ∀ id, ∀ r, ∀ addr, ∀ s : State, ∀ p, ∀ x, ∀ q, s.waiting o 0x0806 [id, r, addr] = some p → s.MaySend o 0x0806 → s.Owns o resExp →
    s.expert? id = some x → x.rep r = some q → addr + (q.sts.length * x.maskUnits + 7) / 8 ≤ 2 ^ 37 →
    s.dramDenied addr ((q.sts.length * x.maskUnits + 7) / 8) = false →
    s.firstUe (dramKey addr) ((q.sts.length * x.maskUnits + 7) / 8) = none → s.mayIssue (addr / 2 ^ 35 % 4) clsMgmt = true →
    ∃ f : State → State, exec (.expMaskSet o id r addr) s = .next (s.concluded p f .ok (fun _ => [])) ∧
      ∀ a : State, a.exp = s.exp → ((f a).expert? id).bind (fun y => y.rep r) = some { q with masks := (List.range q.sts.length).map (fun i =>
        bits (a.readNat (dramKey addr) ((q.sts.length * x.maskUnits + 7) / 8)) (i * x.maskUnits) x.maskUnits) }) ∧
  (∀ o : Origin, ∀ id, ∀ step, ∀ s : State, ∀ p, ∀ x, s.waiting o 0x0807 [id, step] = some p → s.MaySend o 0x0807 → s.Owns o resExp → s.expert? id = some x →
    x.shardH = 0 → x.gradTicket = [] →
    ∃ f : State → State, exec (.expStepSet o id step) s = .next (s.concluded p f .ok (fun _ => [uf 4 x.wstep])) ∧
      ∀ a : State, a.exp = s.exp → ∃ y, (f a).expert? id = some y ∧ y.wstep = step ∧ y.fwd = 0) ∧
  (∀ o : Origin, ∀ id, ∀ step, ∀ s : State, ∀ p, ∀ x, s.waiting o 0x0808 [id, step] = some p → s.MaySend o 0x0808 → s.Owns o resExp → s.expert? id = some x →
    x.bwd = true → x.wstep = step →
    (x.grad = 2 → exec (.expGradClose o id step) s = .next (s.concluded p (fun a => a) .ok (fun _ => []))) ∧
    (x.grad = 0 → exec (.expGradClose o id step) s = .next (s.begun p (fun tk a =>
      (a.setExpert id { x with gradTicket := x.gradTicket ++ [tk] }).closeGrad id)))) ∧
  (∀ o : Origin, ∀ id, ∀ clear, ∀ s : State, ∀ p, ∀ x, s.waiting o 0x0809 [id, clear] = some p → s.MaySend o 0x0809 → clearOk o clear → s.expert? id = some x →
    ∃ f : State → State, ∃ res, exec (.expStatus o id clear) s = .next (s.concluded p f .ok res) ∧
      (res (s.accept p).2).take 4 = [uf 1 0, uf 4 x.wstep, uf 4 x.fwd, uf 1 x.grad] ∧
      (clear = 1 → ∀ a : State, (f a).expert? id = some { x with stats := {} })) ∧
  (∀ o : Origin, ∀ die, ∀ clear, ∀ s : State, ∀ p, s.waiting o 0x080A [die, clear] = some p → s.MaySend o 0x080A → die ≤ 4 → clearOk o clear →
    ∃ res, exec (.expCounters o die clear) s = .next (s.concluded p (fun a => a.clearIf clear .exp die) .ok res) ∧
      ∀ a : State, (res a).head? = some (uf 4 (a.count .exp die ecForward))) ∧
  (∀ o : Origin, ∀ id, ∀ r, ∀ s : State, ∀ p, ∀ x, ∀ q, s.waiting o 0x080B [id, r] = some p → s.MaySend o 0x080B → s.Owns o resExp → s.expert? id = some x →
    x.rep r = some q → q.suspended = true →
    ∃ f : State → State, exec (.expResume o id r) s = .next (s.concluded p f .ok (fun _ => [])) ∧
      ∀ a : State, a.exp = s.exp → ((f a).expert? id).bind (fun y => y.rep r) = some { q with suspended := false } ∧
        ∀ w ∈ q.slots, ((f a).slot w.1 w.2).st ≠ .faulted) ∧
  (∀ (o : Origin), ∀ (addr : Nat), ∀ (s : State), ∀ (p : Posted), ∀ (x : Expert),
    s.waiting o 0x0801 [addr] = some p → s.MaySend o 0x0801 → s.Owns o resExp → addr + 256 ≤ 2 ^ 37 →
    x = { d := s.read (dramKey addr) 256 } → expertFieldBad x = false → s.sec.grade ≠ .n →
    (∀ st ∈ x.map0, s.stitchStatus st = none) → s.dramDenied addr 256 = false → (∃ r ∈ x.extents, s.dramDenied r.1 r.2 = true) →
    exec (.expPlace o addr) s = .next (s.turnedAway p .denied 0xFFFF))

/-- UPD_SHARD_CREATE, UPD_SHARD_DESTROY, UPD_APPLY, UPD_PARAMS_SET, UPD_SHARD_STATUS, UPD_COUNTERS (13 Table 13-7). -/
def Obligations.ShardCommands : Prop :=
  (∀ (o : Origin), ∀ (handle addr len source far : Nat), ∀ (s : State), ∀ (p : Posted), ∀ (x : Shard), s.waiting o 0x0901 [handle, addr, len, source, far] = some p →
    s.MaySend o 0x0901 → s.Owns o resUpd → 1 ≤ handle → handle ≤ 1023 → addr + len ≤ 2 ^ 37 → s.dramDenied addr len = false →
    s.firstUe (dramKey addr) len = none →
    len = 128 + 16 * (min 16 (fieldAt (s.read (dramKey addr) 128) 5 1) + min 64 (fieldAt (s.read (dramKey addr) 128) 6 1)) →
    x = parseShard (s.read (dramKey addr) len) → shardFieldBad (s.read (dramKey addr) len) x = false → s.shard? handle = none →
    s.shardDescBad x = false → s.copiesDenied x x.copies = false → s.mayIssue (addr / 2 ^ 35 % 4) clsMgmt = true →
    (source = 0 → s.masterUe x = none → exec (.updShardCreate o handle addr len source far) s =
      .next (s.concluded p (fun a => ((a.chargeLoad addr len).setShard handle x).writeCopies x ((x.version + 2 ^ 32 - 1) % 2 ^ 32)) .ok
        (fun a => [uf 4 x.version, uf 8 a.time.pip]))) ∧
    (source = 1 → addrSpace far = 2 → bits far 42 20 ≠ 0xFFFFF → exec (.updShardCreate o handle addr len source far) s =
      .next (s.begun p (fun tk a => ((a.chargeLoad addr len).setShard handle { x with st := .torn, restore := some { far := far, ticket := tk, create := true } }).askRestore
        handle 1)))) ∧
  (∀ o : Origin, ∀ handle, ∀ s : State, ∀ p, ∀ x, s.waiting o 0x0902 [handle] = some p → s.MaySend o 0x0902 → s.Owns o resUpd → handle ≤ 1023 →
    s.shard? handle = some x → (∀ g ∈ s.coll, g.2.rub ≠ some handle) → x.expert = none → x.st ≠ .opened → x.st ≠ .sealing →
    ∃ f : State → State, exec (.updShardDestroy o handle) s = .next (s.concluded p f .ok (fun _ => [])) ∧
      ∀ a : State, a.upd = s.upd → (f a).shard? handle = none ∧ (f a).mem = a.mem) ∧
  (∀ o : Origin, ∀ handle, ∀ addr, ∀ version, ∀ s : State, ∀ p, ∀ x, s.waiting o 0x0903 [handle, addr, version] = some p → s.MaySend o 0x0903 → s.Owns o resUpd →
    handle ≤ 1023 → s.shard? handle = some x → addr + x.n * (x.gradFmt.width / 8) ≤ 2 ^ 37 →
    s.dramDenied addr (x.n * (x.gradFmt.width / 8)) = false → x.kind = 0 → x.st = .committed →
    (x.version = version → x.ticket.isSome = true → ∃ ft : Nat → State → State, exec (.updApply o handle addr version) s = .next (s.begun p ft) ∧
      ∀ tk, ∀ a : State, a.upd = s.upd → (ft tk a).shard? handle = some { x with later := x.later ++ [tk] }) ∧
    (x.version = version → x.ticket = none → ∃ ft : Nat → State → State, exec (.updApply o handle addr version) s = .next (s.begun p ft) ∧
      ∀ tk, ∀ a : State, a.upd = s.upd → (ft tk a).shard? handle = some { x with ticket := some tk, src := addr, ready := x.ready ++ (List.range x.sliceNum).map (fun i => { s := i }), sat := (if 0 < x.sliceNum then min cMax x.sat else x.sat), inv := (if 0 < x.sliceNum then min cMax x.inv else x.inv) }) ∧
    (x.version ≠ version → exec (.updApply o handle addr version) s = .next (s.turnedAway p .epoch 0xFFFF))) ∧
  (∀ o : Origin, ∀ handle, ∀ fromX, ∀ params, ∀ s : State, ∀ p, ∀ x, s.waiting o 0x0904 [handle, fromX, leNat params] = some p → s.MaySend o 0x0904 → s.Owns o resUpd →
    handle ≤ 1023 → s.shard? handle = some x → paramsBad x.opt (parseParams params) = false →
    (0 ≤ verDiff fromX x.version → (fromX = x.version → x.st = .committed) →
      exec (.updParamsSet o handle fromX params) s = .next (s.concluded p
        (fun a => a.setShard handle { x with staged := some (fromX, parseParams params) }) .ok (fun _ => []))) ∧
    (verDiff fromX x.version < 0 → exec (.updParamsSet o handle fromX params) s = .next (s.turnedAway p .late 0xFFFF))) ∧
  (∀ o : Origin, ∀ handle, ∀ clear, ∀ s : State, ∀ p, ∀ x, s.waiting o 0x0905 [handle, clear] = some p → s.MaySend o 0x0905 → handle ≤ 1023 → clearOk o clear →
    s.shard? handle = some x → s.commitTorn x.skein handle = false →
    ∃ f : State → State, ∃ res, exec (.updShardStatus o handle clear) s = .next (s.concluded p f .ok res).settle ∧
      (res (s.accept p).2).take 4 = [uf 1 x.st.code, uf 4 x.version, uf 4 x.b1t, uf 4 x.b2t] ∧
      (clear = 0 → ∀ a : State, f a = a) ∧ (clear = 1 → ∀ a : State, ∃ y, (f a).shard? handle = some y ∧ y.sat = 0 ∧ y.inv = 0 ∧
        y.version = x.version)) ∧
  (∀ o : Origin, ∀ skein, ∀ clear, ∀ s : State, ∀ p, s.waiting o 0x090F [skein, clear] = some p → s.MaySend o 0x090F → skein ≤ 3 → clearOk o clear →
    ∃ res, exec (.updCounters o skein clear) s = .next (s.concluded p (fun a => a.clearIf clear .upd skein) .ok res) ∧
      ∀ a : State, (res a).head? = some (uf 4 (a.count .upd skein ucElems)))

/-- UPDATE_OPEN, PIPE_SLICE, MIRROR_CHUNK_SEND, MIRROR_TIMEOUT, RUB_COMMIT_TIMEOUT, and the answer to a SEAL (13 R376 to R394). -/
def Obligations.UpdateSteps : Prop :=
  (∀ h, ∀ s : State, ∀ x, ∀ r, ∀ rest, s.shard? h = some x → x.ready = r :: rest →
    (x.st = .committed → x.rebind = none → x.restore = none → (∀ e, x.expert = some e → s.expertQuiet e = true) →
      s.commitTorn x.skein h = false →
      ∃ u : State, ∃ y, exec (.updateOpen h) s = .next u.settle ∧ u.shard? h = some y ∧ u.mem = s.mem ∧ y.st = .opened ∧ y.next = 0 ∧
        y.version = x.version ∧ y.ready = x.ready ∧ y.rubColl = r.coll ∧ y.consts = y.opening.1 ∧
        (x.staged = none → y.params = x.params) ∧
        (∀ v, ∀ b, x.staged = some (v, b) → 0 ≤ verDiff x.version v → y.params = b ∧ y.staged = none) ∧
        (∀ v, ∀ b, x.staged = some (v, b) → verDiff x.version v < 0 → y.params = x.params ∧ y.staged = some (v, b)) ∧
        (x.opt ≠ 2 → y.consts.take 2 = [x.b1t, x.b2t])) ∧
    ((x.st ≠ .committed ∨ x.rebind.isSome = true ∨ x.restore.isSome = true ∨ ∃ e, x.expert = some e ∧ s.expertQuiet e = false) →
      exec (.updateOpen h) s = .next s.settle)) ∧
  (∀ h, ∀ s : State, ∀ x, ∀ r, s.shard? h = some x →
    x.ready.find? (fun r => r.coll == x.rubColl && (s.dealer x.skein).started.contains (.slice h r.s)) = some r →
    x.st = .opened → s.copiesInFlight x = false → s.mayIssue x.skein clsUpdate = true →
    (∀ gs, s.gradOf x r = (s, some gs) → s.sliceUe x r.s gs.length = none → x.next + 1 < x.sliceNum →
      ∃ u : State, ∃ y, exec (.pipeSlice h) s = .next u.settle ∧ u.shard? h = some y ∧ y.st = .opened ∧ y.next = x.next + 1 ∧
        y.ready = x.ready.erase r ∧ y.version = x.version ∧
        ∀ k, (∀ a ∈ x.arrays, k < dramKey (a.1 + 1024 * r.s * (a.2.width / 8)) ∨
          dramKey (a.1 + 1024 * r.s * (a.2.width / 8)) + gs.length * (a.2.width / 8) ≤ k) → memGet u.mem k = memGet s.mem k) ∧
    (∀ gs, ∀ w, s.gradOf x r = (s, some gs) → s.sliceUe x r.s gs.length = some w →
      ∃ u : State, ∃ y, exec (.pipeSlice h) s = .next u.settle ∧ u.shard? h = some y ∧ y.st = .torn ∧ u.mem = s.mem)) ∧
  (∀ h, ∀ s : State, ∀ x, ∀ k, ∀ rest, s.shard? h = some x → x.pend = k :: rest →
    (x.window ≤ x.sent - x.acked → exec (.mirrorChunkSend h) s = .next s) ∧
    (∀ sq, ∀ bad, x.sent - x.acked < x.window → s.freeSeq x.goal.1 = some sq → s.mayIssue x.skein clsUpdate = true → s.chunkUe x k = some bad →
      x.rebind = none → ∃ t : State, ∃ y, exec (.mirrorChunkSend h) s = .next t ∧ t.shard? h = some y ∧ y.st = .torn ∧ t.mem = s.mem) ∧
    (∀ sq, x.sent - x.acked < x.window → s.freeSeq x.goal.1 = some sq → s.mayIssue x.skein clsUpdate = true → s.chunkUe x k = none →
      (rest ≠ [] ∨ x.acked ≠ x.chunkNum) →
      ∃ t : State, exec (.mirrorChunkSend h) s = .next t ∧ t.shard? h = some { x with pend := rest, sent := x.sent + 1 } ∧ t.mem = s.mem ∧
        t.route.reqs = s.route.reqs ++ [{ dst := x.goal.1, seq := sq, who := .mirror h k, addr := 0, len := 0, stamp := s.time.pip, limit := x.timeout }])) ∧
  (∀ dst, ∀ seq, ∀ h, ∀ k, ∀ s : State, ∀ x, ∀ r, s.route.reqs.find? (fun r => r.dst == dst && r.seq == seq) = some r → r.who = .mirror h k →
    s.shard? h = some x →
    ((∀ d, s.due r = some d → s.time.pip < d) ∨ s.answerWaits r = true → exec (.mirrorTimeout dst seq) s = .next s) ∧
    (∀ d, s.due r = some d → d ≤ s.time.pip → s.answerWaits r = false → (∀ b, x.rebind = some b → b.create = false) → ∃ t : State, ∃ y, exec (.mirrorTimeout dst seq) s = .next t ∧ t.shard? h = some y ∧ y.pend = [] ∧
      y.rebind = none ∧ (x.rebind = none → x.st = .opened → y.st = .opened ∧ y.mirrorBad = true) ∧
      (x.rebind = none → x.st = .sealing → y.st = .lost ∧ y.ticket = none))) ∧
  (∀ group, ∀ seq, ∀ s : State, ∀ g, ∀ c, ∀ n, tabGet? s.coll group = some g → g.coll? seq = some c → c.passed = some n → g.parent = none →
    chRub c.hdr = true →
    (n + g.timeout ≤ s.time.pip → (∀ h, g.rub = some h → s.sealAnswered h (n + g.timeout) = false) → exec (.rubCommitTimeout group seq) s = .next (s.failColl group c .timeout [(0, g.n)] false false)) ∧
    (s.time.pip < n + g.timeout ∨ (∃ h, g.rub = some h ∧ s.sealAnswered h (n + g.timeout) = true) → exec (.rubCommitTimeout group seq) s = .next s)) ∧
  (∀ h, ∀ c, ∀ tc, ∀ s : State, ∀ x, s.shard? h = some x → s.commitTorn x.skein h = false → x.rebind = none →
    ∃ y, (s.mirrorAnswer h c true .ok tc).shard? h = some y ∧ y.st = .committed ∧ y.version = (x.version + 1) % 2 ^ 32 ∧
      y.b1t = x.consts.getD 0 x.b1t ∧ y.b2t = x.consts.getD 1 x.b2t ∧ y.ticket = none)

/-- MIRROR_DATA and MIRROR_SEAL at the partner (13 R386, R387). -/
def Obligations.MirrorPartner : Prop :=
  (∀ ing, ∀ s : State, ∀ q, ∀ m, ∀ v, ∀ i, s.MemOk → s.localHead ing 4 8 = some q → s.mirrorStatus q.f = .ok m → m.sealed = some (v, i) → i < 2 → m.n ≤ 2 ^ 28 →
    overlaps m.slot0 m.slotLen m.slot1 m.slotLen = false →
    ∀ c, c = Instr.mirrorData ing ∨ c = Instr.mirrorSeal ing →
      (c = Instr.mirrorData ing → ∃ t : State, exec c s = .next t ∧ ∀ k, dramKey (m.slot i) ≤ k → k < dramKey (m.slot i) + m.slotLen →
        memGet t.mem k = memGet s.mem k) ∧
      (c = Instr.mirrorSeal ing → s.mirrorAnswers < 4096 → fieldAt q.f.cells 0 1 = 2 → s.commitTorn q.skein (1024 + bits q.f.spec 14 10) = false →
        ∃ u : State, exec c s = .next u.settle ∧ ∀ k, dramKey (m.slot i) ≤ k → k < dramKey (m.slot i) + m.slotLen →
        memGet u.mem k = memGet s.mem k)) ∧
  (∀ ing, ∀ s : State, ∀ q, ∀ e, s.localHead ing 4 8 = some q → s.mirrorAnswers < 4096 → s.mirrorStatus q.f = .error e →
    (fieldAt q.f.cells 0 1 ≠ 2 → ∃ t : State, ∃ u : State, exec (.mirrorData ing) s = .next t ∧ t = u.answerMirror q e ∧ t.mem = s.mem ∧ t.upd = s.upd) ∧
    (fieldAt q.f.cells 0 1 = 2 → ∃ t : State, ∃ u : State, exec (.mirrorSeal ing) s = .next t.settle ∧ t = u.answerMirror q e ∧ t.mem = s.mem ∧ t.upd = s.upd)) ∧
  (∀ ing, ∀ s : State, ∀ q, ∀ m, s.localHead ing 4 8 = some q → s.mirrorAnswers < 4096 → s.mirrorStatus q.f = .ok m → s.ueWords = [] →
    fieldAt q.f.cells 0 1 ≠ 2 →
    ∃ t : State, ∃ u : State, exec (.mirrorData ing) s = .next t ∧ t = u.answerMirror q .ok ∧ tabGet? t.upd.mirrors (bits q.f.spec 14 10) =
      some { m with recv := some (fieldAt q.f.cells 4 4), chunks := addNew (if m.recv = some (fieldAt q.f.cells 4 4) then m.chunks else []) (fieldAt q.f.cells 8 4) }) ∧
  (∀ ing, ∀ s : State, ∀ q, ∀ m, s.localHead ing 4 8 = some q → s.mirrorAnswers < 4096 → s.mirrorStatus q.f = .ok m → s.ueWords = [] →
    fieldAt q.f.cells 0 1 = 2 → s.commitTorn q.skein (1024 + bits q.f.spec 14 10) = false → m.recv = some (fieldAt q.f.cells 4 4) →
    ((m.n + 511) / 512 ≤ m.chunks.length →
      ∃ t : State, ∃ u : State, exec (.mirrorSeal ing) s = .next t.settle ∧ t = u.answerMirror q .ok ∧ tabGet? t.upd.mirrors (bits q.f.spec 14 10) =
        some { m with sealed := some (fieldAt q.f.cells 4 4, m.recvSlot), recv := none, chunks := [] }) ∧
    (m.chunks.length < (m.n + 511) / 512 →
      ∃ t : State, ∃ u : State, exec (.mirrorSeal ing) s = .next t.settle ∧ t = u.answerMirror q .badDesc ∧ t.mem = s.mem ∧ t.upd = s.upd))

/-- UPD_SHARD_REBIND, UPD_SHARD_RESTORE, UPD_COMMIT_FORCE, UPD_COPY_ADD, UPD_COPY_DROP, UPD_MIRROR_CREATE, UPD_MIRROR_BIND,
UPD_MIRROR_DESTROY, UPD_MIRROR_STATUS (13 R395, R398). -/
def Obligations.MirrorCommands : Prop :=
  (∀ o : Origin, ∀ handle, ∀ fid, ∀ index, ∀ s : State, ∀ p, ∀ x, s.waiting o 0x0906 [handle, fid, index] = some p → s.MaySend o 0x0906 → s.Owns o resUpd → handle ≤ 1023 →
    s.shard? handle = some x → fid < 0xFFFFF → index < 1024 → fid ≠ s.devFid → (x.st = .committed ∨ x.st = .lost) →
    ∃ ft : Nat → State → State, exec (.updShardRebind o handle fid index) s = .next (s.begun p ft) ∧ ∀ tk, ∀ a : State, a.upd = s.upd → (ft tk a).shard? handle =
      some { x with rebind := some { fid := fid, idx := index, ticket := tk }, pend := List.range x.chunkNum, sent := 0, acked := 0, sealSent := false, mirrorBad := false }) ∧
  (∀ o : Origin, ∀ handle, ∀ far, ∀ s : State, ∀ p, ∀ x, s.waiting o 0x0907 [handle, far] = some p → s.MaySend o 0x0907 → s.Owns o resUpd → handle ≤ 1023 →
    s.shard? handle = some x → addrSpace far = 2 → bits far 42 20 ≠ 0xFFFFF → (x.st = .committed ∨ x.st = .lost ∨ x.st = .torn) →
    ∃ ft : Nat → State → State, exec (.updShardRestore o handle far) s = .next (s.begun p ft) ∧ ∀ tk, ∀ a : State, a.upd = s.upd → ∃ y, ∃ r, (ft tk a).shard? handle = some y ∧
      y.restore = some r ∧ r.far = far ∧ r.ticket = tk ∧ r.stage = 0 ∧ y.st = x.st ∧ y.version = x.version) ∧
  (∀ o : Origin, ∀ handle, ∀ version, ∀ s : State, ∀ p, ∀ x, s.waiting o 0x0908 [handle, version] = some p → s.MaySend o 0x0908 → s.Owns o resUpd → handle ≤ 1023 →
    s.shard? handle = some x → x.st = .lost → version = (x.version + 1) % 2 ^ 32 → s.commitTorn x.skein handle = false →
    ∃ f : State → State, ∃ res, exec (.updCommitForce o handle version) s = .next (s.concluded p f .ok res).settle ∧
      ∀ a : State, a.upd = s.upd → a.mismatch = s.mismatch → ∃ y, (f a).shard? handle = some y ∧ y.st = .committed ∧ y.version = version ∧
        y.unprotected = true) ∧
  (∀ o : Origin, ∀ handle, ∀ entry, ∀ s : State, ∀ p, ∀ x, s.waiting o 0x0909 [handle, leNat entry] = some p → s.MaySend o 0x0909 → s.Owns o resUpd → handle ≤ 1023 →
    s.shard? handle = some x → (parseCopy entry).2 = false → s.copyDesc x (parseCopy entry).1 ≠ none → s.copiesDenied x [(parseCopy entry).1] = false → x.copies.length < 16 →
    x.st = .committed → s.masterUe x = none →
    exec (.updCopyAdd o handle entry) s = .next (s.concluded p (fun a => (a.setShard handle { x with copies := x.copies ++ [(parseCopy entry).1] }).writeCopy x
      ((x.version + 2 ^ 32 - 1) % 2 ^ 32) (parseCopy entry).1) .ok (fun _ => [uf 1 x.copies.length]))) ∧
  (∀ o : Origin, ∀ handle, ∀ copy, ∀ s : State, ∀ p, ∀ x, s.waiting o 0x090A [handle, copy] = some p → s.MaySend o 0x090A → s.Owns o resUpd → handle ≤ 1023 →
    s.shard? handle = some x → copy < x.copies.length → (x.kind = 1 → copy ≠ 0) → x.st = .committed →
    exec (.updCopyDrop o handle copy) s = .next (s.concluded p (fun a => a.setShard handle { x with copies := x.copies.eraseIdx copy }) .ok
      (fun _ => []))) ∧
  (∀ (o : Origin), ∀ (index fid handle n b slot0 slot1 : Nat), ∀ (s : State), ∀ (p : Posted), ∀ (m : Mirror),
    s.waiting o 0x090B [index, fid, handle, n, b, slot0, slot1] = some p → s.MaySend o 0x090B → s.Owns o resUpd →
    m = { fid := fid, handle := handle, n := n, b := b, slot0 := slot0, slot1 := slot1 } → index ≤ 1023 → fid < 0xFFFFF →
    1 ≤ handle → handle ≤ 1023 → 1 ≤ n → n ≤ 2 ^ 28 → 4 ≤ b → b ≤ 12 → slot0 + m.slotLen ≤ 2 ^ 37 → slot1 + m.slotLen ≤ 2 ^ 37 →
    tabGet? s.upd.mirrors index = none → s.dramDenied slot0 m.slotLen = false → s.dramDenied slot1 m.slotLen = false →
    overlaps slot0 m.slotLen slot1 m.slotLen = false →
    exec (.updMirrorCreate o index fid handle n b slot0 slot1) s = .next (s.concluded p (fun a => a.setMirror index m) .ok (fun _ => [])) ∧
      m.sealed = none) ∧
  (∀ o : Origin, ∀ index, ∀ fid, ∀ handle, ∀ s : State, ∀ p, ∀ m, s.waiting o 0x090C [index, fid, handle] = some p → s.MaySend o 0x090C → s.Owns o resUpd → index ≤ 1023 →
    tabGet? s.upd.mirrors index = some m → fid < 0xFFFFF → 1 ≤ handle → handle ≤ 1023 →
    exec (.updMirrorBind o index fid handle) s = .next (s.concluded p (fun a => a.setMirror index { m with fid := fid, handle := handle }) .ok
      (fun _ => []))) ∧
  (∀ o : Origin, ∀ index, ∀ s : State, ∀ p, ∀ m, s.waiting o 0x090D [index] = some p → s.MaySend o 0x090D → s.Owns o resUpd → index ≤ 1023 →
    tabGet? s.upd.mirrors index = some m →
    ∃ f : State → State, exec (.updMirrorDestroy o index) s = .next (s.concluded p f .ok (fun _ => [])) ∧
      ∀ a : State, tabGet? (f a).upd.mirrors index = none ∧ (f a).mem = a.mem) ∧
  (∀ o : Origin, ∀ index, ∀ s : State, ∀ p, ∀ m, s.waiting o 0x090E [index] = some p → s.MaySend o 0x090E → index ≤ 1023 → tabGet? s.upd.mirrors index = some m →
    s.commitTorn (s.mirrorSkein index) (1024 + index) = false →
    ∃ res, exec (.updMirrorStatus o index) s = .next (s.concluded p (fun a => a) .ok res).settle ∧
      ∀ v, ∀ i, m.sealed = some (v, i) → (res (s.accept p).2).take 2 = [uf 4 v, uf 8 (2 ^ 63 + s.devFid * 2 ^ 42 + m.slot i)])

/-- The sort order of Ladder records (14 R405). -/
def Obligations.LadderOrder : Prop :=
  (∀ x : Nat, x < 2 ^ 32 → ladOrd x 0 = x ∧ ladOrd x 1 = x ^^^ 0x80000000 ∧
    (2 ^ 31 ≤ x → ladOrd x 2 = 2 ^ 32 - 1 - x) ∧ (x < 2 ^ 31 → ladOrd x 2 = x + 2 ^ 31)) ∧
  (∀ x y k : Nat, x < 2 ^ 32 → y < 2 ^ 32 → k < 3 → ladOrd x k = ladOrd y k → x = y) ∧
  (∀ (x : Stream), ∀ (l : List Rec), (x.sort l).Perm l ∧
    (x.sort l).Pairwise (fun p q =>
      (ladOrd p.key (x.f 2 1 % 4) ≠ ladOrd q.key (x.f 2 1 % 4) ∧
        (bit (x.f 2 1) 2 = false → ladOrd p.key (x.f 2 1 % 4) < ladOrd q.key (x.f 2 1 % 4)) ∧
        (bit (x.f 2 1) 2 = true → ladOrd q.key (x.f 2 1 % 4) < ladOrd p.key (x.f 2 1 % 4))) ∨
      (ladOrd p.key (x.f 2 1 % 4) = ladOrd q.key (x.f 2 1 % 4) ∧ (p.rank < q.rank ∨ (p.rank = q.rank ∧ p.seq ≤ q.seq))))) ∧
  (∀ (x : Stream), ∀ (key pay : Nat), bits (x.f 3 1) 0 3 = 1 → bit (x.f 3 1) 6 = false →
    x.passes key pay = ((match bits (x.f 3 1) 3 3 with
      | 0 => decide (ladOrd key (x.f 2 1 % 4) = ladOrd (x.f 4 4) (x.f 2 1 % 4))
      | 1 => decide (ladOrd key (x.f 2 1 % 4) ≠ ladOrd (x.f 4 4) (x.f 2 1 % 4))
      | 2 => decide (ladOrd key (x.f 2 1 % 4) < ladOrd (x.f 4 4) (x.f 2 1 % 4))
      | 3 => decide (ladOrd key (x.f 2 1 % 4) ≤ ladOrd (x.f 4 4) (x.f 2 1 % 4))
      | 4 => decide (ladOrd (x.f 4 4) (x.f 2 1 % 4) < ladOrd key (x.f 2 1 % 4))
      | _ => decide (ladOrd (x.f 4 4) (x.f 2 1 % 4) ≤ ladOrd key (x.f 2 1 % 4))) != bit (x.f 3 1) 7)) ∧
  (∀ (x : Stream), ∀ (key pay : Nat), bits (x.f 3 1) 0 3 = 2 → bit (x.f 3 1) 6 = false →
    x.passes key pay = (decide (ladOrd (x.f 4 4) (x.f 2 1 % 4) ≤ ladOrd key (x.f 2 1 % 4) ∧
      ladOrd key (x.f 2 1 % 4) < ladOrd (x.f 8 4) (x.f 2 1 % 4)) != bit (x.f 3 1) 7)) ∧
  ladOrd 0x80000000 2 < ladOrd 0 2 ∧
  (∀ x : Nat, 0xFF800000 < x → x < 2 ^ 32 → ladOrd x 2 < ladOrd 0xFF800000 2) ∧
  (∀ x : Nat, 0x7F800000 < x → x < 2 ^ 31 → ladOrd 0x7F800000 2 < ladOrd x 2)

/-- LADDER_BATCH_DEADLINE, LADDER_BATCH_LOAD, LADDER_BATCH_OUTPUT (14 R403, R404, R411). -/
def Obligations.LadderBatches : Prop :=
  (∀ die, ∀ stream, ∀ s : State, ∀ x, ∀ b, s.stream? (ladKey die stream) = some x → x.cur = some b →
    (s.time.pip < b.t0 + x.wait → exec (.ladderBatchDeadline die stream) s = .next s) ∧
    (b.t0 + x.wait ≤ s.time.pip → s.streamFrameBefore (ladKey die stream) (b.t0 + x.wait) = false → ∃ t : State, exec (.ladderBatchDeadline die stream) s = .next t ∧
      t.stream? (ladKey die stream) = some { x with cur := none, nextBatch := x.nextBatch + 1 } ∧
      t.lad.closed = s.lad.closed ++ [(ladKey die stream, x.nextBatch, { b with close := b.t0 + x.wait, cause := 2 })] ∧
      t.mem = s.mem ∧ t.buf = s.buf)) ∧
  (∀ die, ∀ s : State, ((∃ l, ∃ m, tabGet? s.lad.bufs (2 * die) = some l ∧ tabGet? s.lad.bufs (2 * die + 1) = some m) ∨ s.nextClosed die = none) →
    exec (.ladderBatchLoad die) s = .next s) ∧
  (∀ die, ∀ s : State, ∀ slot, ∀ c, ∀ x, [2 * die, 2 * die + 1].find? (fun i => (tabGet? s.lad.bufs i).isNone) = some slot → s.nextClosed die = some c →
    s.stream? c.1 = some x → die ≤ 3 → s.mayIssue (4 + die) clsThreads = true → x.memory = false → s.loadOpen x c = true →
    ∃ t : State, exec (.ladderBatchLoad die) s = .next t ∧ t.lad.closed = s.lad.closed.erase c ∧ t.mem = s.mem ∧
      tabGet? t.lad.bufs slot = some { stream := c.1, batch := c.2.1, recs := (batchRecs c.2.2).filter (fun r => x.passes r.key r.pay), inRecs := (batchRecs c.2.2).length, t0 := c.2.2.t0, close := c.2.2.close, cause := c.2.2.cause, filtered := (batchRecs c.2.2).length - ((batchRecs c.2.2).filter (fun r => x.passes r.key r.pay)).length }) ∧
  (∀ die, ∀ buf, ∀ s : State, ∀ b, ∀ x, ∀ l, s.MemOk → tabGet? s.lad.bufs (2 * die + buf) = some b → buf ≤ 1 → b.sent = false → b.status = .ok →
    s.stream? b.stream = some x → x.op < 4 → s.ueWords = [] → addrSpace (x.entry b.batch + 64) ≠ 2 →
    addrSpace (x.entry b.batch) ≠ 2 →
    s.localStatus (x.entry b.batch) 64 = none → s.localStatus (x.entry b.batch + 64) (recBytesOf l).length = none →
    (x.op = 0 → l = b.recs) → (x.op = 1 → l = x.sort b.recs) → (x.op = 2 → l = (x.sort b.recs).take (x.f 14 2)) →
    (x.op = 3 → l = firstOfRuns (x.sort b.recs)) → s.ringOpen x b (recBytesOf l).length = true →
    ∃ t : State, exec (.ladderBatchOutput die buf) s = .next t ∧ tabGet? t.lad.bufs (2 * die + buf) = none ∧
      ∀ k, memGet t.mem k =
        if memKey (x.entry b.batch) ≤ k ∧ k < memKey (x.entry b.batch) + 64 then
          ({ b with out := l.length } : LBuf).header.getD (k - memKey (x.entry b.batch)) 0
        else if memKey (x.entry b.batch + 64) ≤ k ∧ k < memKey (x.entry b.batch + 64) + (recBytesOf l).length ∧
            s.overtaken (x.entry b.batch + 64) (recBytesOf l).length k = false then
          (recBytesOf l).getD (k - memKey (x.entry b.batch + 64)) 0
        else memGet s.mem k) ∧
  (∀ die, ∀ buf, ∀ s : State, ∀ b, ∀ x, tabGet? s.lad.bufs (2 * die + buf) = some b → buf ≤ 1 → b.sent = false → b.status ≠ .ok →
    s.stream? b.stream = some x → s.ringOpen x b 0 = true → exec (.ladderBatchOutput die buf) s = .next (s.endBatch (2 * die + buf) b))

/-- The Ladder commands (14 Table 14-4). -/
def Obligations.LadderCommands : Prop :=
  (∀ (o : Origin), ∀ (die stream addr : Nat), ∀ (s : State), ∀ (p : Posted), ∀ (x : Stream), s.waiting o 0x0704 [die, stream, addr] = some p →
    s.MaySend o 0x0704 → s.Owns o resLad → die ≤ 3 → stream ≤ 15 → s.sec.grade ≠ .b → addr % 64 = 0 → addr + 384 ≤ 2 ^ 37 →
    s.dramDenied addr 384 = false → s.firstUe (dramKey addr) 384 = none → x = { d := s.read (dramKey addr) 384 } →
    streamFieldBad x = false → s.stream? (ladKey die stream) = none → s.streamDescBad die x = false → s.mayIssue (addr / 2 ^ 35 % 4) clsMgmt = true →
    (x.memory = false → exec (.ladStreamCreate o die stream addr) s =
      .next (s.concluded p (fun a => (a.chargeLoad addr 384).setStream (ladKey die stream) x) .ok (fun a => [uf 8 a.time.pip]))) ∧
    (x.memory = true → exec (.ladStreamCreate o die stream addr) s =
      .next (s.begun p (fun tk a => ((a.chargeLoad addr 384).setStream (ladKey die stream) { x with ticket := some tk }).formMemory (ladKey die stream))))) ∧
  (∀ o : Origin, ∀ die, ∀ stream, ∀ s : State, ∀ p, ∀ x, s.waiting o 0x0705 [die, stream] = some p → s.MaySend o 0x0705 → s.Owns o resLad → die ≤ 3 → stream ≤ 15 →
    (s.sec.grade = .b → exec (.ladStreamDestroy o die stream) s = .next (s.turnedAway p .unitAbsent 0xFFFF)) ∧
    (s.sec.grade ≠ .b → s.stream? (ladKey die stream) = some x →
      exec (.ladStreamDestroy o die stream) s = .next (s.concluded p (fun a => (a.endStream (ladKey die stream) .aborted).1) .ok
        (fun a => [uf 4 (a.endStream (ladKey die stream) .aborted).2])) ∧
      (s.endStream (ladKey die stream) .aborted).1.stream? (ladKey die stream) = none)) ∧
  (∀ o : Origin, ∀ die, ∀ stream, ∀ s : State, ∀ p, ∀ x, s.waiting o 0x0706 [die, stream] = some p → s.MaySend o 0x0706 → s.Owns o resLad → die ≤ 3 → stream ≤ 15 →
    (s.sec.grade = .b → exec (.ladFlush o die stream) s = .next (s.turnedAway p .unitAbsent 0xFFFF)) ∧
    (s.sec.grade ≠ .b → s.stream? (ladKey die stream) = some x → x.memory = true →
      exec (.ladFlush o die stream) s = .next (s.turnedAway p .badDesc 1)) ∧
    (s.sec.grade ≠ .b → s.stream? (ladKey die stream) = some x → x.memory = false →
      exec (.ladFlush o die stream) s = .next (s.concluded p (fun a => a.closeBatch (ladKey die stream) a.time.pip 3) .ok
        (fun _ => [uf 4 (if x.cur.isSome then x.nextBatch else 0xFFFFFFFF)])))) ∧
  (∀ o : Origin, ∀ die, ∀ stream, ∀ s : State, ∀ p, ∀ x, s.waiting o 0x0707 [die, stream] = some p → s.MaySend o 0x0707 → die ≤ 3 → stream ≤ 15 →
    (s.sec.grade = .b → exec (.ladStreamStatus o die stream) s = .next (s.turnedAway p .unitAbsent 0xFFFF)) ∧
    (s.sec.grade ≠ .b → s.stream? (ladKey die stream) = some x →
      ∃ res, exec (.ladStreamStatus o die stream) s = .next (s.concluded p (fun a => a) .ok res) ∧
        (res (s.accept p).2).take 4 = [bf 384 (leNat x.d), uf 2 (x.cur.getD { t0 := 0 }).count, uf 8 (x.cur.getD { t0 := 0 }).t0, uf 4 x.nextBatch])) ∧
  (∀ o : Origin, ∀ die, ∀ clear, ∀ s : State, ∀ p, s.waiting o 0x0708 [die, clear] = some p → s.MaySend o 0x0708 → die ≤ 3 → clearOk o clear →
    (s.sec.grade = .b → exec (.ladCounters o die clear) s = .next (s.turnedAway p .unitAbsent 0xFFFF)) ∧
    (s.sec.grade ≠ .b → ∃ res, exec (.ladCounters o die clear) s = .next (s.concluded p (fun a => (if clear = 1 then a.setLad { a.lad with held := tabPut a.lad.held die 0 } else a).clearIf clear .lad die) .ok res) ∧
      ∀ a : State, (res a).take 2 = [uf 4 (a.count .lad die (lnIn 0)), uf 4 (a.count .lad die (lnOut 0))]))

/-- TURN_BOUNDARY, GRANT_COMPUTE, DEALER_DECIDE, TELEMETRY_READ, TELEM_REFRESH, SENSOR_SAMPLE (15 R420 to R428). -/
def Obligations.GrantsAndTurns : Prop :=
  (∀ (s : State), ∀ (env : Nat), (∀ k, k < 4 → 1 ≤ s.psetting idSkWeight k) →
    (s.skGrants env).foldl (· + ·) 0 ≤ wInt env - wInt 512 - wInt ((List.range 4).map (fun d => s.psetting idPdWatts d)).sum ∧
    ∀ k, k < 4 → (s.skGrants env).getD k 0 ≤ s.capSk k) ∧
  (∀ s : State, (s.pwr.turn + 1 ≤ s.pwr.granted ∨ 4096 * (s.pwr.turn + 1) < s.time.pip + 1024) → exec .grantCompute s = .next s) ∧
  (∀ s : State, s.pwr.granted < s.pwr.turn + 1 → s.time.pip + 1024 ≤ 4096 * (s.pwr.turn + 1) →
    ∃ t : State, exec .grantCompute s = .next t ∧ t.pwr.granted = s.pwr.turn + 1 ∧ t.pwr.turn = s.pwr.turn ∧ t.mem = s.mem ∧
      ∀ x, x < 8 → ∃ g, (t.dom x).next = some g ∧ (t.dom x).now = (s.dom x).now ∧ (t.dom x).spent = (s.dom x).spent ∧
        ∀ c, c ∈ grantClasses x → tabGet? g.cycles c = some (s.psetting idCycShare (domCls x c) * s.unitCycles x / 256) ∧
          (tabGet? g.energy c).isSome = true) ∧
  (∀ s : State, (s.time.pip / 4096 ≤ s.pwr.turn ∨ ∃ c ∈ s.cfg.commits, c.pip ≤ 4096 * (s.time.pip / 4096)) →
    exec .turnBoundary s = .next s) ∧
  (∀ s : State, s.pwr.turn < s.time.pip / 4096 → (∀ c ∈ s.cfg.commits, 4096 * (s.time.pip / 4096) < c.pip) →
    ∃ t : State, exec .turnBoundary s = .next t ∧ t.pwr.turn = s.time.pip / 4096 ∧ t.mem = s.mem ∧
      ∀ x, x < 8 → (t.dom x).spent = [] ∧ (t.dom x).cycles = [] ∧ (t.dom x).acted = [] ∧ (t.dom x).heldE = [] ∧
        (t.dom x).now = (s.dom x).next.getD (s.dom x).now ∧ (t.dom x).next = none ∧ (t.dom x).lastSpent = (s.dom x).spent ∧
        (t.dom x).clock = (s.dom x).clock ∧ (t.dom x).emergency = (s.dom x).emergency ∧
        ∀ c, c ∈ grantClasses x → tabGet (t.dom x).debt 0 c = tabGet (s.dom x).debt 0 c + s.newDebt x c) ∧
  (∀ k, ∀ s : State, (∀ h ∈ s.dealHeads k, s.mayDeal k h = false) → exec (.dealerDecide k) s = .next s) ∧
  (∀ k, ∀ s : State, ∀ h, s.agedHead k (s.dealHeads k) = none → (s.dealHeads k).find? (s.mayDeal k) = some h →
    ∃ t : State, exec (.dealerDecide k) s = .next t ∧ (t.dealer k).started = (s.dealer k).started ++ [h.2.work] ∧
      (t.dealer k).u = (s.dealer k).u.erase h.2 ∧ (t.dealer k).e = (s.dealer k).e.erase h.2 ∧
      (t.dealer k).s = (s.dealer k).s.erase h.2 ∧ t.mem = s.mem) ∧
  (∀ x, ∀ mv, ∀ amps, ∀ s : State, x < 8 →
    (∃ t : State, exec (.telemetryRead x mv amps true) s = .next t ∧ (t.dom x).readMv = mv ∧ (t.dom x).amps = amps ∧
      (t.dom x).pmeas = mv * amps / 16000 ∧ (t.dom x).readAt = some s.time.pip ∧ (t.dom x).charged = 0 ∧
      128 ≤ (t.dom x).kappa ∧ (t.dom x).kappa ≤ 512 ∧ (s.setting idPolicy 0 = 1 → (t.dom x).kappa = 256) ∧
      (t.dom x).clock = (s.dom x).clock) ∧
    ((s.dom x).lost = false → (s.dom x).readAt.getD 0 + 16 * 4096 ≤ s.time.pip →
      ∃ t : State, exec (.telemetryRead x mv amps false) s = .next t ∧ (t.dom x).lost = true ∧ (t.dom x).pmeas = figureW x) ∧
    (((s.dom x).lost = true ∨ s.time.pip < (s.dom x).readAt.getD 0 + 16 * 4096) →
      exec (.telemetryRead x mv amps false) s = .next s)) ∧
  (∀ s : State, (s.host.telemSeq = 0 ∨ s.host.telemPip / 4096 < s.time.pip / 4096) →
    ∃ t : State, exec .telemRefresh s = .next t ∧ t.host.telemPip = s.time.pip ∧ t.host.telemSeq = (s.host.telemSeq + 2) % 2 ^ 32 ∧
      (∀ i, i < 352 → tabGet? t.host.telemSensors i = some (s.telemReading i)) ∧ t.pwr = s.pwr ∧ t.mem = s.mem) ∧
  (∀ (l : List (Nat × Bool)), ∀ (s : State), l.length ≤ 352 → ∃ t : State, exec (.sensorSample l) s = .next t ∧ t.mem = s.mem ∧
    ∀ i, ∀ r, l[i]? = some r → s.pwr.badSensors.contains i = false →
      (r.2 = true → -2560 ≤ toInt 16 r.1 → toInt 16 r.1 ≤ 9600 → t.reading i = some (toInt 16 r.1)) ∧
      (r.2 = false ∨ toInt 16 r.1 < -2560 ∨ 9600 < toInt 16 r.1 → t.pwr.badSensors.contains i = true ∧ t.reading i = none))

/-- CLOCK_STEP, VOLTAGE_REGULATED, VOLTAGE_RAISE_TIMEOUT, THERMAL_EMERGENCY, EMERGENCY_EXIT, STITCH_HOLD_ENTRY, STITCH_WAKE
(15 R430 to R434). -/
def Obligations.ClocksAndEmergencies : Prop :=
  (∀ x, ∀ s : State, (7 < x ∨ s.pwr.turn ≤ (s.dom x).stepTurn ∨ s.time.pip / 4096 ≠ s.pwr.turn) → exec (.clockStep x) s = .next s) ∧
  (∀ x, ∀ s : State, ∀ v, x < 8 → (s.dom x).stepTurn < s.pwr.turn → s.time.pip / 4096 = s.pwr.turn → (s.dom x).step = none →
    s.fixedClkIn x = false → v = s.nextClock x →
    ∃ t : State, exec (.clockStep x) s = .next t ∧ t.mem = s.mem ∧ (t.dom x).spent = (s.dom x).spent ∧
      (v = (s.dom x).clock → (t.dom x).clock = v ∧ (t.dom x).mv = (s.dom x).mv) ∧
      (v < (s.dom x).clock → (t.dom x).clock = v ∧ (t.dom x).mv = Config.railMv v ∧ (t.dom x).step = none) ∧
      ((s.dom x).clock < v → (s.dom x).noUpUntil ≤ s.time.pip → (t.dom x).clock = (s.dom x).clock ∧ (t.dom x).mv = Config.railMv v ∧
        (t.dom x).step = some { target := v, raisedAt := s.time.pip })) ∧
  (∀ x, ∀ s : State, (s.clockBounds x).1 ≤ (s.dom x).clock → (s.dom x).clock ≤ (s.clockBounds x).2 → (s.dom x).emergency = false →
    ((∀ n, (s.dom x).lastStep = some n → n + 16 ≤ s.pwr.turn) →
      (4 ≤ (s.dom x).hotRun → s.nextClock x = max (s.clockBounds x).1 ((s.dom x).clock - 50)) ∧
      (x < 4 → 8 ≤ (s.dom x).heldRun → s.nextClock x = max (s.clockBounds x).1 ((s.dom x).clock - 50)) ∧
      ((s.dom x).hotRun < 4 → (s.dom x).heldRun < 8 → 64 ≤ (s.dom x).coolRun →
        s.nextClock x = min (s.clockBounds x).2 ((s.dom x).clock + 50))) ∧
    (∀ n, (s.dom x).lastStep = some n → s.pwr.turn < n + 16 → s.nextClock x = (s.dom x).clock)) ∧
  (∀ x, ∀ s : State, ∀ j, x < 8 → (s.dom x).step = some j →
    (j.regAt = none → exec (.voltageRegulated x) s = .next (s.setDom x { s.dom x with step := some { j with regAt := some s.time.pip } })) ∧
    (∀ n, j.regAt = some n → n < 4096 * s.pwr.turn → (s.dom x).stepTurn < s.pwr.turn → s.time.pip / 4096 = s.pwr.turn →
      (s.clockBounds x).1 ≤ j.target → j.target ≤ (s.clockBounds x).2 → ∃ t : State, exec (.clockStep x) s = .next t ∧ (t.dom x).clock = j.target ∧ (t.dom x).step = none) ∧
    (j.regAt = none → j.raisedAt + 200000 ≤ s.time.pip →
      ∃ t : State, exec (.voltageRaiseTimeout x) s = .next t ∧ (t.dom x).step = none ∧ (t.dom x).clock = (s.dom x).clock ∧
        (t.dom x).mv = Config.railMv (s.dom x).clock ∧ (t.dom x).noUpUntil = s.time.pip + 2 ^ 20) ∧
    (s.time.pip < j.raisedAt + 200000 → exec (.voltageRaiseTimeout x) s = .next s)) ∧
  (∀ x, ∀ s : State, ((s.dom x).emergency = true ∨ atLeast (s.tAct x) 100 = false) → exec (.thermalEmergency x) s = .next s) ∧
  (∀ x, ∀ s : State, x < 8 → (s.dom x).emergency = false → atLeast (s.tAct x) 100 = true →
    ∃ t : State, exec (.thermalEmergency x) s = .next t ∧ (t.dom x).emergency = true ∧ (x < 4 → (t.dom x).clock = 950) ∧
      (∀ c, c ≠ clsForward → c ≠ clsMgmt → t.mayIssue x c = false) ∧ t.mayIssue x clsForward = true ∧
      (s.setting idPolicy 0 = 1 → t.pwr.fixedFlag = true ∧ t.pwr.fixedSusp.contains x = true) ∧ t.mem = s.mem) ∧
  (∀ x, ∀ s : State, (s.dom x).emergency = true →
    ((s.dom x).belowRun < 16 → exec (.emergencyExit x) s = .next s) ∧
    (16 ≤ (s.dom x).belowRun → ∃ t : State, exec (.emergencyExit x) s = .next t ∧ (t.dom x).emergency = false ∧
      (t.dom x).clock = (s.dom x).clock ∧ t.pwr.fixedSusp = s.pwr.fixedSusp.filter (· != x))) ∧
  (∀ st, ∀ s : State, (s.tile st).power = .active → s.absent st = false → (∀ x ∈ (s.tile st).slots, x.2.st ≠ .live ∧ x.2.mem = []) →
    (∀ e ∈ (s.tile st).eng, e.2 = []) → s.stitchPending st = false → tabGet (s.tile st).idle 0 32 + s.cyclesPips (st / 256) 256 ≤ s.time.pip →
    exec (.stitchHoldEntry st) s = .next (s.setTile st { s.tile st with power := .hold })) ∧
  (∀ st, ∀ s : State, ((s.tile st).power ≠ .active ∨ (∃ x ∈ (s.tile st).slots, x.2.st = .live) ∨
    s.time.pip < tabGet (s.tile st).idle 0 32 + s.cyclesPips (st / 256) 256) → exec (.stitchHoldEntry st) s = .next s) ∧
  (∀ st, ∀ s : State, ∃ t : State, exec (.stitchWake st) s = .next t ∧ t.mem = s.mem ∧
    ((s.tile st).power = .hold ∨ (s.tile st).power = .retain → (t.tile st).power = .active) ∧
    ((s.tile st).power = .retain → (t.tile st).icache = []) ∧
    ((s.tile st).power = .active ∨ (s.tile st).power = .dark → t = s) ∧
    (t.tile st).flags = (s.tile st).flags ∧ (t.tile st).cnts = (s.tile st).cnts ∧ (t.tile st).acc = (s.tile st).acc)

/-- The power commands (15 Table 15-6). -/
def Obligations.PowerCommands : Prop :=
  (∀ o : Origin, ∀ w, ∀ s : State, ∀ p, s.waiting o 0x0A01 [w] = some p → s.MaySend o 0x0A01 →
    (inRange (envRange s.sec.grade).1 (envRange s.sec.grade).2.1 w = true → s.Owns o resPwr → s.fixedBad s.cfg.vals w = false →
      ∃ f : State → State, exec (.pwrEnvelopeSet o w) s = .next (s.concluded p f .ok (fun _ => [uf 8 (max s.pwr.turn s.pwr.granted + 1)])) ∧
        ∀ a : State, (f a).pwr.envelope = some w ∧ (f a).pwr.envFrom = max s.pwr.turn s.pwr.granted + 1 ∧ (f a).mem = a.mem) ∧
    (inRange (envRange s.sec.grade).1 (envRange s.sec.grade).2.1 w = false →
      ∃ off, exec (.pwrEnvelopeSet o w) s = .next (s.turnedAway p .badField off))) ∧
  (∀ o : Origin, ∀ clear, ∀ s : State, ∀ p, s.waiting o 0x0A02 [clear] = some p → s.MaySend o 0x0A02 → clearOk o clear →
    ∃ f : State → State, ∃ res, exec (.pwrStatus o clear) s = .next (s.concluded p f .ok res) ∧ (clear = 0 → ∀ a : State, f a = a) ∧
      (clear = 1 → ∀ a : State, (f a).pwr.fixedFlag = false) ∧
      ∀ a : State, ∃ l, res a = l ++ [uf 1 (a.setting idPolicy 0), uf 1 (b2n a.pwr.fixedFlag)]) ∧
  (∀ o : Origin, ∀ s : State, ∀ p, s.waiting o 0x0A03 [] = some p → s.MaySend o 0x0A03 →
    ∃ res, exec (.pwrTelemetry o) s = .next (s.concluded p (fun a => a) .ok res) ∧
      ∀ a : State, ∃ l, res a = listFlds ((List.range 352).map (fun i => [uf 2 (a.telemReading i), uf 1 (b2n (a.reading i).isSome)])) ++ l) ∧
  (∀ (o : Origin), ∀ (map code : Nat), ∀ (s : State), ∀ (p : Posted), ∀ (sts : List Nat), s.waiting o 0x0A04 [map, code] = some p → s.MaySend o 0x0A04 →
    s.Owns o resPwr → code ≤ 2 → map + 128 ≤ 2 ^ 37 → s.dramDenied map 128 = false → s.firstUe (dramKey map) 128 = none →
    sts = mapStitches (s.readNat (dramKey map) 128) → (∀ st ∈ sts, s.absent st = false ∧ s.isRetired st = false) →
    (∀ st ∈ sts, ∀ x ∈ (s.tile st).slots, x.2.st = .free ∧ x.2.reserved = none) → s.mayIssue (map / 2 ^ 35 % 4) clsMgmt = true →
    ∃ f : State → State, exec (.pwrStitchState o map code) s = .next (s.concluded p f .ok (fun _ => [])) ∧
      ∀ a : State, ∀ st ∈ sts, ((f a).tile st).power = (match code with | 0 => .active | 1 => .retain | _ => .dark)) ∧
  (∀ o : Origin, ∀ x, ∀ clear, ∀ s : State, ∀ p, s.waiting o 0x0A05 [x, clear] = some p → s.MaySend o 0x0A05 → x ≤ 7 → clearOk o clear →
    ∃ res, exec (.pwrCounters o x clear) s = .next (s.concluded p (fun a => a.clearIf clear .pwr x) .ok res))

/-- The clock floor of a port die (01 R25). -/
def Obligations.PortClockFloor : Prop :=
  ∀ d, ∀ s : State, ∀ t : State, d < 4 → s.dieUp d = true →
    (exec (.clockStep (4 + d)) s = .next t → (t.dom (4 + d)).clock = (s.dom (4 + d)).clock ∨ 1050 ≤ (t.dom (4 + d)).clock) ∧
    (∀ x, exec (.thermalEmergency x) s = .next t → (t.dom (4 + d)).clock = (s.dom (4 + d)).clock)

/-- HOST_LINK_TRAIN, HOST_LINK_DOWN, PERST_ASSERT, FAILOVER_WAIT_EXPIRY, HOST_CLAIM, HOST_RELEASE, HOST_STATUS, HOST_ROLE_SWAP
(16 R438, R442, R460 to R463). -/
def Obligations.HostPorts : Prop :=
  (∀ (h : HostId), ∀ (g w : Nat), ∀ (s : State), s.sidebandUp = true →
    (4 ≤ min g s.maxGen → (w = 4 ∨ w = 8 ∨ w = 16) → ∃ t : State, exec (.hostLinkTrain h g w) s = .next t ∧ (t.host.port h).up = true ∧
      (t.host.port h).gen = min g s.maxGen ∧ (t.host.port h).width = w ∧ t.claims = s.claims ∧ t.mem = s.mem) ∧
    ((min g s.maxGen < 4 ∨ (w ≠ 4 ∧ w ≠ 8 ∧ w ≠ 16)) → ∃ t : State, exec (.hostLinkTrain h g w) s = .next t ∧ (t.host.port h).up = false)) ∧
  (∀ (h : HostId), ∀ (s : State), ((s.host.port h).up = false → exec (.hostLinkDown h) s = .next s) ∧
    ((s.host.port h).up = true → ∃ t : State, exec (.hostLinkDown h) s = .next t ∧ (t.host.port h).up = false ∧ t.claims = s.claims ∧
      (t.host.port h).boxes = (s.host.port h).boxes)) ∧
  (∀ (h : HostId), ∀ (s : State), ∃ t : State, exec (.perstAssert h) s = .next t ∧ (t.host.port h).up = false ∧ (t.host.port h).boxes = [] ∧
    (t.host.port h).mbDone = 0 ∧ (t.host.port h).irqEnable = 0 ∧ (t.host.port h).irqStatus = 0 ∧ t.claims.of h = 0 ∧
    t.claims.of h.other = s.claims.of h.other ∧ (t.host.port h.other).boxes = (s.host.port h.other).boxes ∧
    (∀ p ∈ t.host.order, ∀ m, p.o ≠ .mb h m) ∧ t.mem = s.mem) ∧
  (∀ s : State, (s.host.primaryDownSince = none → exec .failoverWaitExpiry s = .next s) ∧
    ∀ n, s.host.primaryDownSince = some n →
      (s.time.pip < n + s.setting idFailoverWait 0 → exec .failoverWaitExpiry s = .next s) ∧
      (n + s.setting idFailoverWait 0 ≤ s.time.pip → ∃ t : State, exec .failoverWaitExpiry s = .next t ∧
        t.host.primary = s.host.primary.other ∧ t.claims.of s.host.primary = 0 ∧
        t.claims.of s.host.primary.other = s.claims.of s.host.primary.other ∧ t.mem = s.mem)) ∧
  (∀ (h : HostId), ∀ (m : Nat), ∀ (mask : BitVec 128), ∀ (force : Nat), ∀ (s : State), ∀ (p : Posted),
    s.waiting (.mb h m) 0x0E01 [mask.toNat, force] = some p → mask &&& reservedMask = 0 → force ≤ 1 →
    ((s.claims.of h.other &&& mask = 0 ∨ (force = 1 ∧ (s.host.port h.other).up = false)) →
      ∃ f : State → State, ∃ res, exec (.hostClaim (.mb h m) mask force) s = .next (s.concluded p f .ok res) ∧
        ∀ a : State, (f a).claims = a.claims.claim h mask ∧ res a = [bf 16 ((a.claims.claim h mask).of h).toNat]) ∧
    (s.claims.of h.other &&& mask ≠ 0 → (force = 0 ∨ (s.host.port h.other).up = true) →
      exec (.hostClaim (.mb h m) mask force) s = .next (s.turnedAway p .notOwner 0xFFFF))) ∧
  (∀ (h : HostId), ∀ (m : Nat), ∀ (mask : BitVec 128), ∀ (s : State), ∀ (p : Posted),
    s.waiting (.mb h m) 0x0E02 [mask.toNat] = some p → mask &&& reservedMask = 0 →
    ∃ f : State → State, ∃ res, exec (.hostRelease (.mb h m) mask) s = .next (s.concluded p f .ok res) ∧
      ∀ a : State, (f a).claims.of h = a.claims.of h &&& ~~~mask ∧ (f a).claims.of h.other = a.claims.of h.other ∧
        res a = [bf 16 (a.claims.of h &&& ~~~mask).toNat]) ∧
  (∀ o : Origin, ∀ s : State, ∀ p, s.waiting o 0x0E03 [] = some p → s.MaySend o 0x0E03 →
    ∃ res, exec (.hostStatus o) s = .next (s.concluded p (fun a => a) .ok res) ∧
      ∀ a : State, (res a).take 6 = [uf 1 (b2n (decide (a.host.primary = .h0))), uf 1 (b2n (a.host.port .h0).up), uf 1 (b2n (decide (a.host.primary = .h1))), uf 1 (b2n (a.host.port .h1).up), bf 16 a.claims.c0.toNat, bf 16 a.claims.c1.toNat]) ∧
  (∀ (h : HostId), ∀ (m : Nat), ∀ (s : State), ∀ (p : Posted), s.waiting (.mb h m) 0x0E04 [] = some p → h = s.host.primary →
    ((s.host.port h.other).up = true → ∃ f : State → State, exec (.hostRoleSwap (.mb h m)) s = .next (s.concluded p f .ok (fun _ => [])) ∧
      ∀ a : State, (f a).host.primary = h.other ∧ (f a).claims = a.claims) ∧
    ((s.host.port h.other).up = false → exec (.hostRoleSwap (.mb h m)) s = .next (s.turnedAway p .busy 0xFFFF)))

/-- MB_STATE_WRITE, MAILBOX_CMD_WRITE, PIP_READ, MGMT_REQUEST, MGMT_RESPONSE (16 R444, R452 to R454, R464, R465). -/
def Obligations.Mailboxes : Prop :=
  (∀ (h : HostId), ∀ (m : Nat), ∀ (w : BitVec 32), ∀ (s : State), ∀ (b : Mailbox), ∀ (v : Nat), (s.host.port h).up = true → m < 32 →
    b = (s.host.port h).box m → v = bits w.toNat 0 16 →
    (b.paired = false → ∃ t : State, exec (.mbStateWrite h m w) s = .next t ∧ (t.host.port h).boxes = [] ∧ t.claims.of h = 0) ∧
    (b.paired = true → bits w.toNat 16 16 ≠ 0xFFFF - v → ∃ t : State, exec (.mbStateWrite h m w) s = .next t ∧
      (t.host.port h).box m = b ∧ t.count .host h.num hcState = min cMax (s.count .host h.num hcState + 1) ∧ t.host.order = s.host.order) ∧
    (b.paired = true → bits w.toNat 16 16 = 0xFFFF - v →
      ((b.state = 0 ∨ b.state = 3) → mbWritten w = (b.gen + 1) % 256 * 256 + 1 → exec (.mbStateWrite h m w) s =
        .next ((s.setBox h m { b with st := pairWord (mbWritten w) }).postCommand { o := .mb h m, stamp := s.time.pip })) ∧
      (b.state = 3 → mbWritten w = b.gen * 256 → exec (.mbStateWrite h m w) s = .next (s.setBox h m { b with st := pairWord (mbWritten w) })) ∧
      (¬((b.state = 0 ∨ b.state = 3) ∧ mbWritten w = (b.gen + 1) % 256 * 256 + 1) → ¬(b.state = 3 ∧ mbWritten w = b.gen * 256) →
        ∃ t : State, exec (.mbStateWrite h m w) s = .next t ∧ (t.host.port h).box m = b ∧ t.host.order = s.host.order ∧
          t.count .host h.num hcState = min cMax (s.count .host h.num hcState + 1)))) ∧
  (∀ (h : HostId), ∀ (m off : Nat), ∀ (data : List Byte), ∀ (s : State), ∀ (b : Mailbox), (s.host.port h).up = true → m < 32 →
    b = (s.host.port h).box m → 0x40 ≤ off → off < 0x840 → data.length ≤ 512 →
    ((b.state = 1 ∨ b.state = 2) → ∃ t : State, exec (.mailboxCmdWrite h m off data) s = .next t ∧ (t.host.port h).box m = b ∧
      t.count .host h.num hcData = min cMax (s.count .host h.num hcData + 1)) ∧
    (b.state ≠ 1 → b.state ≠ 2 → off + data.length ≤ 0x80 → exec (.mailboxCmdWrite h m off data) s =
      .next (s.setBox h m { b with cmd := BitVec.ofNat 512 (overlay b.cmd.toNat 64 (off - 0x40) data) })) ∧
    (b.state ≠ 1 → b.state ≠ 2 → 0x80 ≤ off → exec (.mailboxCmdWrite h m off data) s =
      .next (s.setBox h m { b with params := BitVec.ofNat 15872 (overlay b.params.toNat 1984 (off - 0x80) data) })) ∧
    (b.state ≠ 1 → b.state ≠ 2 → off < 0x80 → 0x80 < off + data.length → exec (.mailboxCmdWrite h m off data) s =
      .next (s.setBox h m { b with cmd := BitVec.ofNat 512 (overlay b.cmd.toNat 64 (off - 0x40) (data.take (0x80 - off))), params := BitVec.ofNat 15872 (overlay b.params.toNat 1984 0 (data.drop (0x80 - off))) }))) ∧
  (∀ (h : HostId), ∀ (s : State), (s.host.port h).up = true →
    (exec (.pipRead h 8) s = .next (s.emit (.read h (leBytes 8 (s.pipOn h.num))))) ∧
    (∃ t : State, exec (.pipRead h 4) s = .next t ∧ (t.host.port h).pipHiLatch = BitVec.ofNat 32 (s.pipOn h.num / 2 ^ 32) ∧
      t.out = s.out ++ [.read h (leBytes 4 (s.pipOn h.num))])) ∧
  (∀ (ing : Nat), ∀ (s : State), ∀ (q : QFrame), ∀ (hdr : BitVec 512), s.localHead ing 0 9 = some q → bits q.f.spec 22 2 = 0 →
    hdr = BitVec.ofNat 512 (leNat (q.f.cells.take 64)) →
    (16 ≤ (s.consume q).fabInProgress → ∃ t : State, exec (.mgmtRequest ing) s = .next t ∧ t.host.order = s.host.order ∧
      t.count .local q.die lcMgmtReq = min cMax ((s.consume q).count .local q.die lcMgmtReq + 1)) ∧
    ((s.consume q).fabInProgress < 16 → q.f.n ≠ 1 + (cmdLen hdr + 63) / 64 → exec (.mgmtRequest ing) s =
      .next ((s.consume q).answerMgmt q.f hdr (if (marksOf (cmdOp hdr)).isNone then .badOpcode else .badField))) ∧
    ((s.consume q).fabInProgress < 16 → q.f.n = 1 + (cmdLen hdr + 63) / 64 →
      exec (.mgmtRequest ing) s = .next ((s.consume q).postCommand { o := .fab q.f.src q.f.seq, stamp := s.time.pip, cmd := hdr, params := BitVec.ofNat 15872 (leNat (q.f.cells.drop 64)) }))) ∧
  (∀ fid, ∀ seq, ∀ s : State, ∀ p, s.waiting (.fab fid seq) 0x0E03 [] = some p → s.mgmtAllowed fid = false →
    exec (.hostStatus (.fab fid seq)) s = .next (s.turnedAway p .denied 0xFFFF)) ∧
  (∀ ing, ∀ s : State, ∀ q, s.localHead ing 0 9 = some q → bits q.f.spec 22 2 = 1 →
    exec (.mgmtResponse ing) s = .next ((s.consume q).bump .local q.die lcMgmtRsp))

/-- CFG_STAGE, CFG_STAGE_CLEAR, CFG_COMMIT_AT, CFG_CANCEL, CFG_READ, CFG_STATUS, CFG_FREEZE_BEGIN, LINK_DRAIN_BEGIN,
CFG_COMMIT_APPLY (16 R467 to R472). -/
def Obligations.Configuration : Prop :=
  (∀ (h : HostId), ∀ (m : Nat), ∀ (items : List Item), ∀ (s : State), ∀ (p : Posted), ∀ (new : List Setting),
    s.waiting (.mb h m) 0x0201 (items.length :: items.flatMap (fun x => [x.id, x.rsv, x.scope, x.val])) = some p →
    1 ≤ items.length → items.length ≤ 64 → new = (settingsOf items).foldl stageItem (s.cfg.stage h) → new.length ≤ 4096 →
    (∀ x ∈ items, x.rsv = 0 ∧ (∃ k, scopeKind x.id = some k ∧ scopeOk k x.scope = true) ∧
      rangeOk s.maxClock x.id x.scope x.val = true ∧ s.otherHolds h (resourceOf x.id x.scope) = false) →
    exec (.cfgStage (.mb h m) items) s = .next (s.concluded p (fun a => a.setCfg (a.cfg.setStage h new)) .ok (fun _ => [uf 4 new.length]))) ∧
  (∀ (h : HostId), ∀ (m : Nat), ∀ (s : State), ∀ (p : Posted), s.waiting (.mb h m) 0x0202 [] = some p →
    exec (.cfgStageClear (.mb h m)) s = .next (s.concluded p (fun a => a.setCfg (a.cfg.setStage h [])) .ok
      (fun _ => [uf 4 (s.cfg.stage h).length]))) ∧
  (∀ (h : HostId), ∀ (m target late drain : Nat), ∀ (s : State), ∀ (p : Posted), s.waiting (.mb h m) 0x0203 [target, late, drain] = some p →
    late ≤ 1 → 2 ^ 12 ≤ drain → drain ≤ 2 ^ 24 →
    (∀ st, s.commitRefusal h target late drain = some st → ∃ t : State, exec (.cfgCommitAt (.mb h m) target late drain) s = .next t ∧
      t = s.turnedAway p st 0xFFFF ∧ t.cfg = s.cfg) ∧
    (s.commitRefusal h target late drain = none → ∃ ft : Nat → State → State, exec (.cfgCommitAt (.mb h m) target late drain) s = .next (s.begun p ft) ∧
      ∀ tk, ∀ a : State, a.cfg = s.cfg → a.time = s.time → (ft tk a).cfg.stage h = [] ∧ (ft tk a).cfg.vals = s.cfg.vals ∧
        ∃ c, (ft tk a).cfg.commits = s.cfg.commits ++ [c] ∧ c.items = s.cfg.stage h ∧ c.host = h ∧ c.ticket = tk ∧
          some c.pip = s.commitPip (s.cfg.stage h) target late drain)) ∧
  (∀ (h : HostId), ∀ (n id : Nat), ∀ (s : State), ∀ (p : Posted), ∀ (m : Commit), s.waiting (.mb h n) 0x0204 [id] = some p →
    s.cfg.commit id = some m →
    (m.host = h → m.frozen = false → m.drained = false → s.time.pip < m.pip → s.cfg.commits.getLast? = some m →
      ∃ f : State → State, exec (.cfgCancel (.mb h n) id) s = .next (s.concluded p f .ok (fun _ => [])) ∧
        ∀ a : State, (f a).cfg.commits = a.cfg.commits.filter (fun x => x.id != id) ∧ (f a).cfg.vals = a.cfg.vals) ∧
    (m.host ≠ h → exec (.cfgCancel (.mb h n) id) s = .next (s.turnedAway p .denied 0xFFFF))) ∧
  (∀ o : Origin, ∀ id, ∀ scope, ∀ s : State, ∀ p, ∀ k, s.waiting o 0x0205 [id, scope] = some p → s.MaySend o 0x0205 → scopeKind id = some k → scopeOk k scope = true →
    ∃ res, exec (.cfgRead o id scope) s = .next (s.concluded p (fun a => a) .ok res) ∧
      ∀ a : State, (res a).head? = some (uf 8 (a.setting id scope))) ∧
  (∀ o : Origin, ∀ s : State, ∀ p, s.waiting o 0x0206 [] = some p → s.MaySend o 0x0206 →
    ∃ res, exec (.cfgStatus o) s = .next (s.concluded p (fun a => a) .ok res) ∧
      ∀ a : State, (res a).take 2 = [uf 4 a.cfg.epoch, uf 4 a.cfg.commits.length]) ∧
  (∀ id, ∀ s : State, ∀ c, s.cfg.commit id = some c →
    ((c.frozen = true ∨ (∀ x ∈ c.items, isFreeze x = false) ∨ s.time.pip + 16 < c.pip) → exec (.cfgFreezeBegin id) s = .next s) ∧
    (c.frozen = false → (∃ x ∈ c.items, isFreeze x = true) → c.pip ≤ s.time.pip + 16 →
      ∃ t : State, exec (.cfgFreezeBegin id) s = .next t ∧ (∀ x ∈ c.items, isFreeze x = true → (t.arb (frozenArb x)).frozen = true) ∧
        t.cfg.vals = s.cfg.vals ∧ t.mem = s.mem) ∧
    ((c.drained = true ∨ (∀ x ∈ c.items, isDrain x = false) ∨ s.time.pip + c.drainLead < c.pip) →
      exec (.linkDrainBegin id) s = .next s) ∧
    (c.drained = false → (∃ x ∈ c.items, isDrain x = true) → c.pip ≤ s.time.pip + c.drainLead →
      ∃ t : State, exec (.linkDrainBegin id) s = .next t ∧ (∀ lk ∈ s.drainLinks (s.valsBefore id) c.items, (t.link lk).draining = true) ∧
        t.cfg.vals = s.cfg.vals ∧ t.mem = s.mem)) ∧
  (∀ s : State, (s.cfg.commits = [] → exec .cfgCommitApply s = .next s) ∧
    ∀ c, ∀ rest, s.cfg.commits = c :: rest → (s.time.pip < c.pip → exec .cfgCommitApply s = .next s) ∧
      (c.pip ≤ s.time.pip → ∃ t : State, exec .cfgCommitApply s = .next t ∧ t.cfg.commits = rest ∧ t.cfg.epoch = (s.cfg.epoch + 1) % 2 ^ 32 ∧
        t.cfg.vals = applyItems s.cfg.vals c.items ∧ t.mem = s.mem))

/-- LOG_ENTRY_WRITE, LOG_SUPPRESS_END, LOG_STATUS, LOG_MARK, LOG_CLEAR, LOG_POLICY (17 R489 to R494, R497). -/
def Obligations.TroubleLog : Prop :=
  (∀ (l : LogSt), ∀ (c : Nat), (l.wrap = true → l.admits c = true) ∧
    (l.wrap = false → (l.freeSlots = 0 → l.admits c = false) ∧ (0 < l.freeSlots → l.freeSlots ≤ 16 → l.admits c = decide (3 ≤ c)) ∧
      (16 < l.freeSlots → l.admits c = true))) ∧
  (∀ (s : State), ∀ (r : Raised), 3 ≤ r.eclass → s.holder r = none) ∧
  (∀ s : State, (s.log.raised = [] ∨ s.needleRuns = false) → exec .logEntryWrite s = .next s) ∧
  (∀ (s : State), ∀ (r : Raised), ∀ (rest : List Raised), s.log.raised = r :: rest → s.needleRuns = true →
    (∀ p, s.holder r = some p → ∃ t : State, exec .logEntryWrite s = .next t ∧ t.log.raised = rest ∧ t.log.slots = s.log.slots ∧
      t.log.nextSeq = s.log.nextSeq ∧ t.log.suppressed = min cMax (s.log.suppressed + 1) ∧ t.host = s.host) ∧
    (s.holder r = none → s.log.admits r.eclass = true → ∃ t : State, ∃ n, exec .logEntryWrite s = .next t ∧ t.log.raised = rest ∧
      t.log.nextSeq = s.log.nextSeq + 1 ∧ tabGet? t.log.slots ((s.log.nextSeq - 1) % 16384) = some (entryWord r s.log.nextSeq n) ∧
      t.log.dropped = s.log.dropped ∧ (t.host.port .h0).irqStatus.getLsbD 1 = true ∧ (t.host.port .h1).irqStatus.getLsbD 1 = true ∧
      (3 ≤ r.eclass → t.side.alert.getLsbD 0 = true) ∧ t.mem = s.mem) ∧
    (s.holder r = none → s.log.admits r.eclass = false → ∃ t : State, exec .logEntryWrite s = .next t ∧ t.log.raised = rest ∧
      t.log.slots = s.log.slots ∧ t.log.nextSeq = s.log.nextSeq ∧ t.log.dropped = min cMax (s.log.dropped + 1))) ∧
  (∀ code, ∀ src, ∀ s : State, (∀ p ∈ s.log.suppress, p.code = code → p.source = src → s.time.pip < p.till) →
    exec (.logSuppressEnd code src) s = .next s) ∧
  (∀ code, ∀ src, ∀ s : State, ∀ p, s.log.suppress.find? (fun p => p.code == code && p.source == src && decide (p.till ≤ s.time.pip)) = some p →
    ∃ t : State, exec (.logSuppressEnd code src) s = .next t ∧ t.log.suppress = s.log.suppress.erase p ∧
      (p.held = 0 → t.log.nextSeq = s.log.nextSeq) ∧
      (p.held ≠ 0 → s.log.admits 0 = true → t.log.nextSeq = s.log.nextSeq + 1)) ∧
  (∀ o : Origin, ∀ s : State, ∀ p, s.waiting o 0x0B01 [] = some p → s.MaySend o 0x0B01 →
    exec (.logStatus o) s = .next (s.concluded p (fun a => a) .ok (fun a => [uf 1 (b2n a.log.wrap), uf 4 a.log.firstSeq, uf 4 a.log.nextSeq, uf 4 a.log.dropped, uf 4 a.log.suppressed, uf 4 a.log.unreadable]))) ∧
  (∀ o : Origin, ∀ v, ∀ s : State, ∀ p, s.waiting o 0x0B02 [v] = some p → s.MaySend o 0x0B02 →
    (s.log.admits 0 = true → ∃ f : State → State, exec (.logMark o v) s = .next (s.concluded p f .ok (fun a => [uf 4 a.log.nextSeq])) ∧
      ∀ a : State, a.log = s.log → ∃ n, tabGet? (f a).log.slots ((s.log.nextSeq - 1) % 16384) = some (entryWord { stamp := a.time.pip, code := 0x1107, eclass := 0, tstate := a.time.state.code, status := 0, source := a.needle, tag := 0, detail := v } s.log.nextSeq n)) ∧
    (s.log.admits 0 = false → exec (.logMark o v) s = .next (s.turnedAway p .capacity 0xFFFF))) ∧
  (∀ o : Origin, ∀ n, ∀ s : State, ∀ p, s.waiting o 0x0B03 [n] = some p → s.MaySend o 0x0B03 → s.Owns o resLog →
    (n < s.log.nextSeq → exec (.logClear o n) s = .next (s.concluded p
      (fun a => a.setLog { a.log with firstSeq := max a.log.firstSeq (n + 1) }) .ok (fun a => [uf 4 (max a.log.firstSeq (n + 1))]))) ∧
    (s.log.nextSeq ≤ n → exec (.logClear o n) s = .next (s.turnedAway p .badField 0))) ∧
  (∀ o : Origin, ∀ n, ∀ s : State, ∀ p, s.waiting o 0x0B04 [n] = some p → s.MaySend o 0x0B04 → s.Owns o resLog → n ≤ 1 →
    exec (.logPolicy o n) s = .next (s.concluded p (fun a => a.setLog { a.log with wrap := decide (n = 1) }) .ok
      (fun a => [uf 1 (b2n a.log.wrap)])))

/-- WITNESS_CHECK, SENTINEL_TIEBREAK, SUSPECT_DECAY, PATROL_SCRUB, DRAM_REFRESH, CORRECTABLE_WINDOW, SENT_STATUS, SENT_SET,
STITCH_RETIRE (17 R478 to R486, R497; 09 R282). -/
def Obligations.SentinelChecks : Prop :=
  (∀ k, ∀ s : State, ∀ c, s.integ.checks.find? (fun c => c.third.isNone && c.primary / 256 == k && (s.dealer k).started.contains (.check c.id)) = some c →
    c.witness.map s.isDark = some false → c.witness.map s.matrixBusy = some false → s.mayIssue k clsSentinel = true →
    (exec (.witnessCheck k true) s = .next (((s.chargeCheck c).bump .sent k snRun).freeCheck c)) ∧
    (∀ j, s.witnessFor c.primary (c.primary :: c.witness.toList) = some j → ∃ t : State, exec (.witnessCheck k false) s = .next t ∧ t.mem = s.mem ∧
      t.integ.checks = s.integ.checks.map (fun x => if x.id = c.id then { x with third := some j } else x)) ∧
    (s.witnessFor c.primary (c.primary :: c.witness.toList) = none → exec (.witnessCheck k false) s =
      .next (((s.chargeCheck c).bump .sent k snRun).verdict c 3))) ∧
  (∀ k, ∀ s : State, ∀ c, ∀ j, s.integ.checks.find? (fun c => c.third.isSome && c.primary / 256 == k) = some c → c.third = some j → s.isRetired j = false → s.isDark j = false →
    s.matrixBusy j = false → s.mayIssue k clsSentinel = true →
    (exec (.sentinelTiebreak k false true) s = .next ((s.chargeCheck c).verdict c 0)) ∧
    (exec (.sentinelTiebreak k true false) s = .next ((s.chargeCheck c).verdict c 1)) ∧
    (exec (.sentinelTiebreak k false false) s = .next ((s.chargeCheck c).verdict c 2))) ∧
  (∀ s : State, ∀ st, tabGet s.integ.suspects 0 st < 65535 → tabGet (s.suspect st).integ.suspects 0 st = tabGet s.integ.suspects 0 st + 1 ∧
    ((s.sentSet (st / 256)).derateAt ≤ tabGet s.integ.suspects 0 st + 1 → (s.dom (st / 256)).derate < (s.sentSet (st / 256)).derateMax →
      ((s.suspect st).dom (st / 256)).derate = (s.dom (st / 256)).derate + 1) ∧
    ((s.sentSet (st / 256)).retireAt ≤ tabGet s.integ.suspects 0 st + 1 → (s.suspect st).isRetired st = true)) ∧
  (∀ s : State, (s.time.pip < s.integ.decayAt → exec .suspectDecay s = .next s) ∧
    (s.integ.decayAt ≤ s.time.pip → (s.integ.suspects.map (·.1)).Nodup → ∃ t : State, exec .suspectDecay s = .next t ∧
      (∀ st, tabGet t.integ.suspects 0 st = tabGet s.integ.suspects 0 st - 1) ∧ t.integ.decayAt = s.integ.decayAt + 2 ^ 40 ∧
      t.integ.retired = s.integ.retired)) ∧
  (∀ c, ∀ s : State, c < 256 →
    (∃ t : State, exec (.patrolScrub c) s = .next t ∧ t.mem = s.mem ∧ t.ueWords = s.ueWords ∧
      tabGet? t.integ.patrol c = some ((tabGet s.integ.patrol 0 c + 1) % 2 ^ 21)) ∧
    (s.refreshing c = false → (s.recentRefreshes c).length < 7 → ∃ t : State, exec (.dramRefresh c) s = .next t ∧
      (∀ n, n < 350 → (t.setTime { t.time with pip := s.time.pip + n }).refreshing c = true) ∧
      (t.setTime { t.time with pip := s.time.pip + 350 }).refreshing c = false ∧ t.mem = s.mem) ∧
    (s.refreshing c = true ∨ 7 ≤ (s.recentRefreshes c).length → exec (.dramRefresh c) s = .next s)) ∧
  (∀ s : State, (s.time.pip < s.integ.corrFrom + 2 ^ 30 → exec .correctableWindow s = .next s) ∧
    (s.integ.corrFrom + 2 ^ 30 ≤ s.time.pip → ∃ t : State, exec .correctableWindow s = .next t ∧ t.integ.corrFrom = s.integ.corrFrom + 2 ^ 30 ∧
      t.mem = s.mem ∧ t.cnt = s.cnt)) ∧
  (∀ o : Origin, ∀ k, ∀ clear, ∀ s : State, ∀ p, s.waiting o 0x0B05 [k, clear] = some p → s.MaySend o 0x0B05 → k ≤ 3 → clearOk o clear →
    ∃ res, exec (.sentStatus o k clear) s = .next (s.concluded p (fun a => a.clearIf clear .sent k) .ok res) ∧
      ∀ a : State, (res a).take 3 = [uf 1 (a.sentSet k).enable, uf 1 (a.sentSet k).k, uf 1 (a.sentSet k).offset]) ∧
  (∀ (o : Origin), ∀ (z : SentArgs), ∀ (s : State), ∀ (p : Posted),
    s.waiting o 0x0B06 [z.mask, z.enable, z.k, z.offset, z.derateAt, z.retireAt, z.derateMax, z.fuse, z.clear] = some p →
    s.MaySend o 0x0B06 → s.Owns o resTest → 1 ≤ z.mask → z.mask ≤ 15 → z.enable ≤ 1 → 4 ≤ z.k → z.k ≤ 20 → 1 ≤ z.offset → z.offset ≤ 255 →
    1 ≤ z.derateAt → z.derateAt ≤ z.retireAt → z.retireAt ≤ 65535 → z.derateMax ≤ 18 → z.fuse ≤ 1 → z.clear ≤ 1 →
    ∃ f : State → State, exec (.sentSet o z) s = .next (s.concluded p f .ok (fun _ => [])) ∧ ∀ a : State, ∀ k, k < 4 →
      (bit z.mask k = true → (f a).sentSet k = { enable := z.enable, k := z.k, offset := z.offset, derateAt := z.derateAt, retireAt := z.retireAt, derateMax := z.derateMax, fuse := z.fuse } ∧
        ((f a).dom k).derate = if z.clear = 1 then 0 else min (a.dom k).derate z.derateMax) ∧
      (bit z.mask k = false → (f a).sentSet k = a.sentSet k ∧ (f a).dom k = a.dom k)) ∧
  (∀ o : Origin, ∀ k, ∀ i, ∀ action, ∀ s : State, ∀ p, s.waiting o 0x0B07 [k, i, action] = some p → s.MaySend o 0x0B07 → s.Owns o resTest → k ≤ 3 →
    s.absent (stitchNo k i) = false →
    (action = 0 → ∃ f : State → State, exec (.stitchRetire o k i action) s = .next (s.concluded p f .ok (fun _ => [])) ∧
      ∀ a : State, (f a).isRetired (stitchNo k i) = true) ∧
    (action = 1 → s.fusedRetired (stitchNo k i) = true → exec (.stitchRetire o k i action) s = .next (s.turnedAway p .denied 0xFFFF)) ∧
    (action = 1 → s.fusedRetired (stitchNo k i) = false → s.isRetired (stitchNo k i) = true →
      ∃ f : State → State, exec (.stitchRetire o k i action) s = .next (s.concluded p f .ok (fun _ => [])) ∧
        ∀ a : State, a.sec = s.sec → (f a).isRetired (stitchNo k i) = false))

/-- SWATCH_RUN, SWATCH_SCHEDULE_AT, SWATCH_STATUS, SWATCH_RECORD, SWATCH_RUN_LIMIT, SWATCH_OCCURRENCE (17 R487, R488, R497). -/
def Obligations.SwatchRuns : Prop :=
  (∀ (o : Origin), ∀ (addr len : Nat), ∀ (tg : Targets), ∀ (limit : Nat), ∀ (s : State), ∀ (p : Posted),
    s.waiting o 0x0C01 [addr, len, tg.map.toNat, tg.tally.toNat, tg.pipes.toNat, limit] = some p → s.MaySend o 0x0C01 →
    s.Owns o resTest → addr % 64 = 0 → addr + len ≤ 2 ^ 37 → s.dramDenied addr len = false →
    (∀ st ∈ unitsOf tg 0, s.stitchStatus st = none) → 2 ^ 12 ≤ limit → limit ≤ 2 ^ 40 → (tg.map ≠ 0 ∨ tg.tally ≠ 0 ∨ tg.pipes ≠ 0) →
    (s.swSet addr len).2 = false →
    (s.integ.run = none → exec (.swatchRun o addr len tg limit) s =
      .next (s.begun p (fun tk a => a.startSwatch addr len tg limit (some tk) none))) ∧
    (s.integ.run ≠ none → exec (.swatchRun o addr len tg limit) s = .next (s.turnedAway p .busy 0xFFFF))) ∧
  (∀ (o : Origin), ∀ (slot target late period addr len : Nat), ∀ (tg : Targets), ∀ (limit : Nat), ∀ (s : State), ∀ (p : Posted), ∀ (n : Nat),
    s.waiting o 0x0C02 [slot, 0, target, late, period, addr, len, tg.map.toNat, tg.tally.toNat, tg.pipes.toNat, limit] = some p →
    s.MaySend o 0x0C02 → s.Owns o resTest → slot ≤ 3 → late ≤ 1 → (period = 0 ∨ (2 ^ 24 ≤ period ∧ period ≤ 2 ^ 44)) →
    scheduled s.time.pip target late = some n → s.time.state ≠ .unlocked →
    (∀ c, tabGet? s.integ.scheds slot = some c → c.armed = false) → addr % 64 = 0 → addr + len ≤ 2 ^ 37 → s.dramDenied addr len = false →
    (∀ st ∈ unitsOf tg 0, s.stitchStatus st = none) → 2 ^ 12 ≤ limit → limit ≤ 2 ^ 40 → (tg.map ≠ 0 ∨ tg.tally ≠ 0 ∨ tg.pipes ≠ 0) →
    (s.swSet addr len).2 = false →
    ∃ f : State → State, exec (.swatchScheduleAt o slot 0 target late period addr len tg limit) s = .next (s.concluded p f .ok (fun _ => [uf 8 n])) ∧
      ∀ a : State, ∃ c, tabGet? (f a).integ.scheds slot = some c ∧ c.next = n ∧ c.period = period ∧ c.addr = addr ∧ c.len = len ∧ c.t = tg ∧
        c.limit = limit ∧ c.armed = true ∧ c.waiting = false) ∧
  (∀ (o : Origin), ∀ (slot target late period addr len : Nat), ∀ (tg : Targets), ∀ (limit : Nat), ∀ (s : State), ∀ (p : Posted), ∀ (c : SwSched),
    s.waiting o 0x0C02 [slot, 1, target, late, period, addr, len, tg.map.toNat, tg.tally.toNat, tg.pipes.toNat, limit] = some p →
    s.MaySend o 0x0C02 → s.Owns o resTest → slot ≤ 3 → late ≤ 1 → s.time.state ≠ .unlocked → tabGet? s.integ.scheds slot = some c →
    ∃ f : State → State, exec (.swatchScheduleAt o slot 1 target late period addr len tg limit) s = .next (s.concluded p f .ok (fun _ => [uf 8 0])) ∧
      ∀ a : State, tabGet? (f a).integ.scheds slot = some { c with armed := false, waiting := false }) ∧
  (∀ o : Origin, ∀ slot, ∀ s : State, ∀ p, s.waiting o 0x0C03 [slot] = some p → s.MaySend o 0x0C03 → slot ≤ 4 →
    ∃ res, exec (.swatchStatus o slot) s = .next (s.concluded p (fun a => a) .ok res) ∧
      ∀ c, tabGet? s.integ.scheds slot = some c → (res (s.accept p).2).take 2 = [uf 1 (b2n c.armed), uf 8 c.next]) ∧
  (∀ kind, ∀ unit, ∀ s : State, ∀ r, ∀ i, s.integ.run = some r → r.todo.find? (fun i => i.kind == kind && i.unit == unit) = some i →
    (∀ k, i.skein = some k → (s.dealer k).started.contains (.swatch (swNo kind unit)) = true) →
    (kind = 0 → s.stitchStatus unit = none) → s.firstUe (dramKey i.addr) (s.swLen i.addr) = none →
    s.time.pip < r.res.start + r.limit → s.mayIssue i.class.1 i.class.2 = true →
    exec (.swatchRecord kind unit) s = .next (s.runSwatchItem r i) ∧
    (r.todo.erase i ≠ [] → s.swPass i.addr = true → (s.runSwatchItem r i).integ.run =
      some { r with todo := r.todo.erase i, res := { r.res with run := r.res.run + 1, passed := r.res.passed + 1 } })) ∧
  (∀ s : State, ∀ r, s.integ.run = some r → (s.time.pip < r.res.start + r.limit → exec .swatchRunLimit s = .next s) ∧
    (r.res.start + r.limit ≤ s.time.pip → ∃ t : State, exec .swatchRunLimit s = .next t ∧ t.integ.run = none ∧
      (r.slot = none → t.integ.lastRun = some { r.res with stop := s.time.pip }))) ∧
  (∀ slot, ∀ s : State, ∀ c, tabGet? s.integ.scheds slot = some c → c.armed = true →
    (s.time.pip < c.next → c.waiting = false → exec (.swatchOccurrence slot) s = .next s) ∧
    (s.integ.run ≠ none → c.next ≤ s.time.pip → c.period ≠ 0 → (∀ m ∈ s.cfg.commits, c.next < m.pip) →
      ∃ t : State, exec (.swatchOccurrence slot) s = .next t ∧ t.integ.run = s.integ.run ∧ tabGet? t.integ.scheds slot =
        some { c with waiting := true, skipped := c.skipped + b2n c.waiting, next := c.next + c.period }) ∧
    (s.integ.run = none → s.swAhead slot c = true → exec (.swatchOccurrence slot) s = .next s) ∧
    (s.integ.run = none → s.swAhead slot c = false → c.waiting = true → s.time.pip < c.next → ∃ t : State, ∃ u : State, exec (.swatchOccurrence slot) s = .next t ∧
      t = u.startSwatch c.addr c.len c.t c.limit none (some slot) ∧
      tabGet? u.integ.scheds slot = some { c with waiting := false, armed := decide (c.period ≠ 0) }) ∧
    (s.integ.run = none → s.swAhead slot c = false → c.next ≤ s.time.pip → c.waiting = false → (∀ m ∈ s.cfg.commits, c.next < m.pip) →
      ∃ t : State, ∃ u : State, exec (.swatchOccurrence slot) s = .next t ∧ t = u.startSwatch c.addr c.len c.t c.limit none (some slot) ∧
        tabGet? u.integ.scheds slot = some { c with next := c.next + c.period, armed := decide (c.period ≠ 0) }))

/-- POWER_ON_RESET, RESET_N, THERMAL_TRIP, THERMAL_TRIP_RELEASE, DEV_RESET, DEV_RESET_BEGIN, RESET_END, WATCHDOG_EXPIRY,
STANDBY_RESTART, EXTEST_EXIT (18 R498 to R503, R508, R510, R518, R519; 20 R539, R543). -/
def Obligations.Resets : Prop :=
  (∀ s : State, s.coldReset.time = State.reset.time ∧ s.coldReset.cfg = State.reset.cfg ∧ s.coldReset.log = State.reset.log ∧
    s.coldReset.mem = [] ∧ s.coldReset.boot = State.reset.boot ∧ s.coldReset.pins = State.reset.pins ∧
    s.coldReset.integ = State.reset.integ ∧ s.coldReset.sec.fusedRetired = s.sec.fusedRetired ∧
    s.coldReset.sec.rollback = s.sec.rollback ∧ s.coldReset.sec.pinMap = s.sec.pinMap ∧ s.coldReset.sec.flash = s.sec.flash ∧ s.coldReset.sec.debugLevel = 0) ∧
  (∀ rail, ∀ low, ∀ s : State, (rail < 23 → 2000 < low → exec (.powerOnReset rail low) s = .next s.coldReset) ∧
    (low ≤ 2000 → exec (.powerOnReset rail low) s = .next s)) ∧
  (∀ low, ∀ s : State, (10000 ≤ low → exec (.resetN low) s = .next s.coldReset) ∧ (low < 10000 → exec (.resetN low) s = .next s)) ∧
  (∀ (s : State), ∀ (src : Nat), (s.warmReset src).boot.phase = .strap ∧ (s.warmReset src).boot.coldRun = false ∧
    (s.warmReset src).boot.pendingEntries.head? = some (src, 1) ∧ (s.warmReset src).boot.override = s.boot.override ∧
    (s.warmReset src).time.pip = 0 ∧ (s.warmReset src).time.state = .unlocked ∧ (s.warmReset src).cfg = State.reset.cfg ∧
    (s.warmReset src).coll = [] ∧ (s.warmReset src).links = [] ∧ (s.warmReset src).descs = [] ∧ (s.warmReset src).layers = [] ∧
    (s.warmReset src).tiles = [] ∧ (s.warmReset src).route = State.reset.route ∧ (s.warmReset src).upd = State.reset.upd ∧
    (s.warmReset src).lad = State.reset.lad ∧ (s.warmReset src).exp = State.reset.exp ∧ (s.warmReset src).pat = State.reset.pat ∧
    (s.warmReset src).log.wrap = s.log.wrap ∧ (s.warmReset src).integ.suspects = s.integ.suspects ∧
    (s.warmReset src).integ.retired = s.integ.retired ∧ (s.warmReset src).pwr.badSensors = s.pwr.badSensors ∧
    ((s.pwr.doms.map (·.1)).Nodup → ∀ k, ((s.warmReset src).dom k).derate = (s.dom k).derate) ∧
    (s.warmReset src).sec.fusedRetired = s.sec.fusedRetired ∧ (s.warmReset src).sec.debugLevel = 0 ∧
    (s.warmReset src).sec.measCount = 0 ∧ (∀ x, x < 2 ^ 62 → (∀ e, ∀ b, e ∈ s.lad.streams → ¬ (memKey (e.2.entry b) ≤ x ∧ x < memKey (e.2.entry b) + 64)) →
      memGet (s.warmReset src).mem x = memGet s.mem x) ∧
    (∀ h : HostId, ((s.warmReset src).host.port h).boxes = (s.host.port h).boxes ∧
      ((s.warmReset src).host.port h).irqEnable = (s.host.port h).irqEnable ∧
      ((s.warmReset src).host.port h).irqStatus = 0 ∧ ((s.warmReset src).host.port h).mbDone = 0)) ∧
  (∀ sensor, ∀ reading, ∀ s : State, (toInt 16 reading < 6720 → exec (.thermalTrip sensor reading) s = .next s) ∧
    (sensor < 352 → s.pwr.badSensors.contains sensor = false → 6720 ≤ toInt 16 reading → s.boot.tripped = none →
      ∃ t : State, exec (.thermalTrip sensor reading) s = .next t ∧ t.boot.phase = .reset ∧ t.boot.tripped = some (sensor, reading) ∧
        t.pins.thermtripN = false ∧ t.pins.laserEn = 0xFF ∧ t.side.alert.getLsbD 2 = true ∧ t.time.pip = 0 ∧
        ∀ x, x < 2 ^ 62 → (∀ e, ∀ b, e ∈ s.lad.streams → ¬ (memKey (e.2.entry b) ≤ x ∧ x < memKey (e.2.entry b) + 64)) → memGet t.mem x = memGet s.mem x)) ∧
  (∀ s : State, (s.boot.tripped = none ∨ s.boot.coolSince = none → exec .thermalTripRelease s = .next s) ∧
    ∀ x, ∀ c, s.boot.tripped = some x → s.boot.coolSince = some c →
      (s.time.pip < c + 1000000000 → exec .thermalTripRelease s = .next s) ∧
      (c + 1000000000 ≤ s.time.pip → ∃ t : State, exec .thermalTripRelease s = .next t ∧ t.boot.phase = .strap ∧ t.boot.tripped = none ∧
        t.pins.thermtripN = true ∧ t.mem = s.mem ∧ t.log = s.log)) ∧
  (∀ o : Origin, ∀ scope, ∀ unit, ∀ s : State, ∀ p, s.waiting o 0x0106 [scope, unit] = some p → s.MaySend o 0x0106 → s.Owns o resDevice →
    (scope ≤ 1 → unit < 65536 → exec (.devReset o scope unit) s = .next (s.concluded p
      (fun a => a.setBoot { a.boot with jobs := a.boot.jobs ++ [{ scope := scope, unit := 0, source := 9, due := a.time.pip + 100000, ticket := none }] })
      .ok (fun _ => []))) ∧
    (2 ≤ scope → scope ≤ 5 → unit < (match scope with | 2 => 4 | 3 => 64 | 4 => 4 | _ => 1024) → (scope = 5 → s.absent unit = false ∧ s.isRetired unit = false) →
      (∀ q ∈ resetPorts scope unit, s.Owns o (resPort q)) →
      (s.boot.phase ≠ .recovery → s.boot.phase ≠ .halted → exec (.devReset o scope unit) s = .next (s.begun p
        (fun tk a => a.beginReset { scope := scope, unit := unit, source := 9, due := a.time.pip, ticket := some tk }))) ∧
      (s.boot.phase = .recovery ∨ s.boot.phase = .halted → exec (.devReset o scope unit) s = .next (s.turnedAway p .busy 0xFFFF))) ∧
    (5 < scope → unit < 65536 → exec (.devReset o scope unit) s = .next (s.turnedAway p .badField 0))) ∧
  (∀ s : State, ((∀ j ∈ s.boot.jobs, j.begun = false → j.source = 9 → j.scope ≤ 1 → s.time.pip < j.due) → exec .devResetBegin s = .next s) ∧
    ∀ j, s.boot.jobs.find? (fun j => !j.begun && j.source == 9 && decide (j.scope ≤ 1) && decide (j.due ≤ s.time.pip)) = some j →
      exec .devResetBegin s = .next (if j.scope = 0 then (s.setBoot { s.boot with jobs := s.boot.jobs.erase j }).coldReset
        else (s.setBoot { s.boot with jobs := s.boot.jobs.erase j }).warmReset 9)) ∧
  (∀ scope, ∀ unit, ∀ s : State, ((∀ j ∈ s.boot.jobs, j.begun = true → j.scope = scope → j.unit ≠ unit) → exec (.resetEnd scope unit) s = .next s) ∧
    ∀ j, s.boot.jobs.find? (fun j => j.begun && j.scope == scope && j.unit == unit) = some j →
      ∃ t : State, exec (.resetEnd scope unit) s = .next t ∧ t.boot.jobs = s.boot.jobs.erase j ∧ t.mem = s.mem ∧
        ({ stamp := s.time.pip, code := 3, eclass := 0, tstate := s.time.state.code, status := 0, source := s.needle, tag := 0, detail := j.source + scope * 256 } : Raised) ∈ t.log.raised) ∧
  (∀ s : State, (s.needleRuns = false → exec .watchdogExpiry s = .next s) ∧
    (s.needleRuns = true → s.boot.standbyReady = true → (∀ c, s.boot.lastTakeover = some c → c + 2 ^ 30 ≤ s.time.pip) →
      ∃ t : State, exec .watchdogExpiry s = .next t ∧ t.boot.clusterB = !s.boot.clusterB ∧ t.boot.standbyReady = false ∧
        t.boot.lastTakeover = some s.time.pip ∧ t.host.taken = [] ∧ (t.host.port .h0).irqStatus.getLsbD 3 = true ∧
        (t.host.port .h1).irqStatus.getLsbD 3 = true ∧ t.mem = s.mem ∧ t.cfg = s.cfg ∧ t.integ = s.integ) ∧
    (s.needleRuns = true → (s.boot.standbyReady = false ∨ ∃ c, s.boot.lastTakeover = some c ∧ s.time.pip < c + 2 ^ 30) →
      exec .watchdogExpiry s = .next (s.warmReset 5))) ∧
  (∀ pass, ∀ s : State, (s.needleRuns = true → s.boot.lastTakeover ≠ none → s.boot.standbyReady = false →
      exec (.standbyRestart pass) s = .next (s.setBoot { s.boot with standbyReady := pass })) ∧
    (s.boot.standbyReady = true ∨ s.boot.lastTakeover = none → exec (.standbyRestart pass) s = .next s)) ∧
  (∀ s : State, (s.sec.debugLevel = 0 → exec .extestExit s = .next s) ∧
    (s.sec.debugLevel ≠ 0 → ∃ n, exec .extestExit s = .next (s.fresh.2.warmReset n))) ∧
  (∀ (s : State), ∀ (st : Nat), ((s.resetStitch st).tile st).flags = 0 ∧ ((s.resetStitch st).tile st).cnts = [] ∧
    ((s.resetStitch st).tile st).icache = [] ∧ ((s.resetStitch st).tile st).words = 0 ∧ (s.resetStitch st).mem = s.mem) ∧
  (∀ (s : State), ∀ (k : Nat), k < 4 → (∀ x, x < 2 ^ 62 → memGet (s.resetSkein k).mem x = memGet s.mem x) ∧
    (∀ st, ∀ off, st / 256 = k → memGet (s.resetSkein k).mem (spadKey st off) = memDefault) ∧
    (∀ i, i < 256 → (s.resetSkein k).layer k i = none) ∧ (s.resetSkein k).cfg = s.cfg) ∧
  (∀ (s : State), ∀ (p : Nat), (∀ lk ∈ s.portLinks p, ((s.resetPort p).link lk).state = .dark ∧ ((s.resetPort p).link lk).replay = []) ∧
    (s.resetPort p).cfg = s.cfg ∧ (s.resetPort p).mem = s.mem)

/-- CAST_ON_STRAP, CAST_ON_FUSES, CAST_ON_ROM, CAST_ON_VERIFY, CAST_ON_DRAM, CAST_ON_BRIDGES, CAST_ON_SKEINS, CAST_ON_LASERS,
CAST_ON_LINKS, CAST_ON_PROFILE, CAST_ON_READY, LASER_READY, SB_DATA_READ, SB_WINDOW_WRITE, SMBUS_ALERT_RESPONSE (18 R501 to R511;
20 R549 to R551, R556). -/
def Obligations.CastOn : Prop :=
  (∀ (s : State), ∀ (xs : List Nat), s.boot.phase ≠ .strap → exec (.castOnStrap xs) s = .next s) ∧
  (∀ (s : State), ∀ (c : Nat), s.boot.phase = .strap → c < 16 → ∃ t : State, exec (.castOnStrap [c, c, c, c]) s = .next t ∧ t.boot.rstcfg = c ∧
    t.boot.strapFault = false ∧ t.host.primary = (if c % 2 = 1 then .h1 else .h0) ∧
    t.boot.phase = (if s.boot.coldRun then .fuses else .rom) ∧ t.mem = s.mem) ∧
  (∀ (s : State), ∀ (c0 c1 c2 c3 : Nat), s.boot.phase = .strap → (16 ≤ c0 ∨ c1 ≠ c0 ∨ c2 ≠ c0 ∨ c3 ≠ c0) →
    ∃ t : State, exec (.castOnStrap [c0, c1, c2, c3]) s = .next t ∧ t.boot.rstcfg = 0 ∧ t.boot.strapFault = true ∧ t.host.primary = .h0 ∧
      t.boot.phase = (if s.boot.coldRun then .fuses else .rom)) ∧
  (∀ ok, ∀ s : State, (s.boot.phase ≠ .fuses ∨ ok = false → exec (.castOnFuses ok) s = .next s) ∧
    (s.boot.phase = .fuses → exec (.castOnFuses true) s = .next (s.toPhase .rom))) ∧
  (∀ x, ∀ y, ∀ s : State, (s.boot.phase ≠ .rom → exec (.castOnRom x y) s = .next s) ∧
    (s.boot.phase = .rom → exec (.castOnRom false false) s = .next (s.halt 1)) ∧
    (s.boot.phase = .rom → (x = true ∨ y = true) → ∃ t : State, exec (.castOnRom x y) s = .next t ∧ t.boot.phase = .verify ∧
      t.boot.clusterB = (if !s.boot.coldRun && s.boot.clusterB then y || !x else !x) ∧ t.boot.standbyReady = (x && y) ∧
      (s.boot.coldRun = false → t.host.order = [] ∧ t.host.taken = []) ∧ t.boot.pendingEntries = [] ∧ t.mem = s.mem ∧
      (s.boot.strapFault = false → s.boot.pendingEntries.length = 1 → s.log.admits 0 = true → t.log.nextSeq = s.log.nextSeq + 1))) ∧
  (∀ (s : State), ∀ (c : Nat), (s.halt c).boot.phase = .halted ∧ (s.halt c).side.alert.getLsbD 3 = true ∧ (s.halt c).mem = s.mem ∧
    ∃ r ∈ (s.halt c).log.raised, r.code = 0x1201 ∧ r.detail = s.boot.phase.code + c * 256) ∧
  (∀ s : State, (s.boot.phase ≠ .verify → exec .castOnVerify s = .next s) ∧
    ∀ k, s.boot.phase = .verify → s.boot.override.getD (bits s.boot.rstcfg 1 1) = k →
      (s.imageFault k = none → ∃ t : State, exec .castOnVerify s = .next t ∧ t.boot.phase = .dram ∧ t.boot.runSlot = some k ∧
        t.boot.override = none ∧ t.boot.fwVersion = fieldAt (s.slotRead k 0 512) 8 4 ∧ t.sec.measCount = s.sec.measCount + 1) ∧
      (∀ c, s.imageFault k = some c → ∃ t : State, exec .castOnVerify s = .next t ∧ t.boot.override = none ∧
        (∃ r ∈ t.log.raised, r.code = 0x1202 ∧ r.detail = k + c * 16) ∧
        (s.imageFault (1 - k) = none → t.boot.phase = .dram ∧ t.boot.runSlot = some (1 - k)) ∧
        (s.imageFault (1 - k) ≠ none → t.boot.phase = .recovery ∧ t.boot.runSlot = s.boot.runSlot ∧ t.side.alert.getLsbD 3 = true))) ∧
  (∀ ok, ∀ s : State, (s.boot.phase ≠ .dram → exec (.castOnDram ok) s = .next s) ∧
    (s.boot.phase = .dram → exec (.castOnDram ok) s = .next (if ok then s.toPhase .bridges else s.halt 1)) ∧
    (s.boot.phase ≠ .bridges → exec (.castOnBridges ok) s = .next s) ∧
    (s.boot.phase = .bridges → exec (.castOnBridges ok) s = .next (if ok then s.toPhase .skeins else s.halt 1))) ∧
  (∀ (s : State), ∀ (failing : List Nat), (s.boot.phase ≠ .skeins → exec (.castOnSkeins failing) s = .next s) ∧
    (s.boot.phase = .skeins → ∃ t : State, exec (.castOnSkeins failing) s = .next t ∧ t.boot.phase = .lasers ∧ t.pins.laserEn = 0 ∧ t.descs = [] ∧ t.layers = [] ∧
      (∀ x, x < 8 → (t.dom x).clock = max 950 (s.maxClock - 50 * (s.dom x).derate)) ∧
      (∀ x, 2 ^ 62 ≤ x → memGet t.mem x = memDefault) ∧ (∀ x, x < 2 ^ 62 → memGet t.mem x = memGet s.mem x) ∧
      (∀ st ∈ failing, s.absent st = false → t.isRetired st = true))) ∧
  (∀ (s : State), ∀ (lit : List Bool), (s.boot.phase ≠ .lasers → exec (.castOnLasers lit) s = .next s) ∧
    (s.boot.phase = .lasers → ∃ t : State, exec (.castOnLasers lit) s = .next t ∧ t.boot.phase = .links ∧
      (∀ m, m < 8 → (t.pins.laserEn.getLsbD m = true ↔ ∀ i, i < 8 → s.setting idAdmin (8 * m + i) = 0)) ∧
      (∀ x, x < 40 → (x ∈ t.boot.darkFibres ↔ lit.getD x false = false)) ∧ t.mem = s.mem)) ∧
  (∀ s : State, (s.boot.phase ≠ .links → exec .castOnLinks s = .next s) ∧
    (s.boot.phase = .links → ∃ t : State, exec .castOnLinks s = .next t ∧ t.boot.phase = .profile ∧
      (∀ lk ∈ s.linkNums, s.setting idAdmin (lk / 2) = 1 → s.pins.laserEn.getLsbD (lk / 16) = false → (s.link lk).state = .dark →
        (t.link lk).state = .signal))) ∧
  (∀ s : State, (s.boot.phase ≠ .profile → exec .castOnProfile s = .next s ∧ exec .castOnReady s = .next s) ∧
    (s.boot.phase = .profile → s.boot.phaseSince + 300000000 ≤ s.time.pip ∨
        (∀ lk ∈ s.linkNums, s.setting idAdmin (lk / 2) = 1 → (s.link lk).carries = true ∨ (s.link lk).state = .failed) →
      exec .castOnProfile s = .next (s.setBoot { s.boot with profileDone := true })) ∧
    (s.boot.phase = .profile → s.boot.profileDone = true → ∃ t : State, exec .castOnReady s = .next t ∧ t.ready = true ∧ t.pins.devReady = true)) ∧
  (∀ (m : Nat), ∀ (lit : List Bool), ∀ (s : State), (s.boot.phase ≠ .ready → exec (.laserReady m lit) s = .next s) ∧
    (s.boot.phase = .ready → s.pins.laserEn.getLsbD m = false → ∀ lk ∈ s.linkNums, lk / 16 = m → s.setting idAdmin (lk / 2) = 1 →
      (s.link lk).state = .dark → (s.link lk).offSince = none →
      ((∀ i, i < 5 → lit.getD i false = true) ∨ (s.link lk).since + 50000000 ≤ s.time.pip) →
      ∃ t : State, exec (.laserReady m lit) s = .next t ∧ (t.link lk).state = .signal ∧ t.mem = s.mem)) ∧
  (∀ s : State, s.sidebandUp = true → ∀ n, s.side.window = BitVec.ofNat 32 n → n % 32 = 0 →
    (n < 0x1000000 → ∀ b, sbBlock n = some b → ∃ t : State, exec .sbDataRead s = .next t ∧ t.out = s.out ++ [.sideband (s.sbBytes n)] ∧
      t.side.window = BitVec.ofNat 32 (if n + 32 = b.1 + b.2 then b.1 else n + 32) ∧ t.log = s.log ∧ t.mem = s.mem)) ∧
  (∀ (s : State), ∀ (i : Nat), i < 16384 → s.logUeWords i = [] →
    s.sbBytes (0x100000 + 32 * i) = leBytes 32 (tabGet s.log.slots 0 i).toNat) ∧
  (∀ (s : State), ∀ (i w j : Nat), i < 16384 → w ∈ s.logUeWords i → j < 8 → (s.sbBytes (0x100000 + 32 * i)).getD (8 * w + j) 0 = 0xFF) ∧
  (∀ s : State, s.sidebandUp = false → exec .sbDataRead s = .next s ∧ (∀ w, exec (.sbWindowWrite w) s = .next s) ∧
    exec .smbusAlertResponse s = .next s) ∧
  (∀ (w : BitVec 32), ∀ (s : State), s.sidebandUp = true →
    (sbBlock (bits w.toNat 5 19 * 32) ≠ none → ∃ t : State, exec (.sbWindowWrite w) s = .next t ∧
      t.side.window.toNat = bits w.toNat 5 19 * 32 ∧ t.side.alert = s.side.alert) ∧
    (sbBlock (bits w.toNat 5 19 * 32) = none → exec (.sbWindowWrite w) s = .next s)) ∧
  (∀ s : State, s.sidebandUp = true → (s.pins.smbAlertN = true → exec .smbusAlertResponse s = .next s) ∧
    (s.pins.smbAlertN = false → exec .smbusAlertResponse s = .next (s.setOut (s.out ++ [.alertResponse 0x4A]))))

/-- DEV_IDENTITY, DEV_ATTEST_QUOTE, DEV_MEASURE_LOG, FW_SLOT_WRITE, FW_SLOT_SELECT, DEBUG_CHALLENGE, DEBUG_UNLOCK,
FUSE_LEDGER_READ, FUSE_ROLLBACK_ADVANCE, FUSE_STITCH_RETIRE, FUSE_KEY_REVOKE (18 R511 to R519); IDCODE (R517); pins (R506; 20 R538). -/
def Obligations.Security : Prop :=
  (∀ s : State, bits s.idcode.toNat 0 1 = 1 ∧ bits s.idcode.toNat 1 11 = 0x3D5 ∧ bits s.idcode.toNat 12 16 = bits s.devIdent 16 16 ∧
    bits s.idcode.toNat 28 4 = 1) ∧
  (State.reset.pinEntry .avsSdata = 0 ∧ ∀ (s : State), ∀ (pin : Pin), pin ≠ .thermtripN →
    (s.boot.phase = .reset → s.pinDrive pin = some (pinCode (bits (s.pinEntry pin) 0 3))) ∧
    (s.boot.phase ≠ .reset → s.pinConfigured pin = false → s.pinDrive pin = some (pinCode (bits (s.pinEntry pin) 3 3)))) ∧
  (∀ o : Origin, ∀ off, ∀ s : State, ∀ p, s.waiting o 0x0101 [0, off] = some p → s.MaySend o 0x0101 →
    ∃ res, exec (.devIdentity o 0 off) s = .next (s.concluded p (fun a => a) .ok res) ∧
      ∀ a : State, (res a).take 5 = [uf 4 a.devIdent, uf 8 Config.serial.toNat, uf 1 Config.arithRev, bf 128 a.sec.disabled.toNat, uf 8 a.unitMapDigest]) ∧
  (∀ o : Origin, ∀ off, ∀ s : State, ∀ p, s.waiting o 0x0101 [1, off] = some p → s.MaySend o 0x0101 →
    (off < 0x100000 → exec (.devIdentity o 1 off) s = .next (s.concluded p (fun a => a) .ok (fun _ =>
      [bf (min 1920 (0x100000 - off)) (leNat ((List.range (min 1920 (0x100000 - off))).map (fun i => Config.certByte (off + i))))]))) ∧
    (0x100000 ≤ off → exec (.devIdentity o 1 off) s = .next (s.turnedAway p .badField 4))) ∧
  (∀ (o : Origin), ∀ (nonce : BitVec 256), ∀ (s : State), ∀ (p : Posted), s.waiting o 0x0102 [nonce.toNat] = some p → s.MaySend o 0x0102 →
    (∀ k, s.activeKey = some k → exec (.devAttestQuote o nonce) s = .next (s.concluded p (fun a => a) .ok (fun a =>
      [bf 224 (leNat (a.quoteBody k nonce ++ beBytes 96 (Config.sign k (a.quoteBody k nonce)).toNat))]))) ∧
    (s.activeKey = none → exec (.devAttestQuote o nonce) s = .next (s.turnedAway p .denied 0xFFFF))) ∧
  (∀ (s : State), ∀ (k : Nat), s.activeKey = some k → s.revokedKey k = false ∧ ∀ j, j < k → s.revokedKey j = true) ∧
  (∀ o : Origin, ∀ first, ∀ count, ∀ s : State, ∀ p, s.waiting o 0x0103 [first, count] = some p → s.MaySend o 0x0103 → 1 ≤ count → count ≤ 26 →
    (1 ≤ first → first ≤ s.sec.meas.length → exec (.devMeasureLog o first count) s = .next (s.concluded p (fun a => a) .ok (fun a =>
      listFlds (((a.sec.meas.drop (first - 1)).take count).map (fun e => [bf 72 e.toNat])) ++ [uf 4 (a.sec.measCount - a.sec.meas.length)]))) ∧
    (s.sec.meas.length < first → exec (.devMeasureLog o first count) s = .next (s.turnedAway p .badField 0))) ∧
  (∀ (o : Origin), ∀ (slot op off len : Nat), ∀ (data : List Byte), ∀ (s : State), ∀ (p : Posted),
    s.waiting o 0x0104 [slot, op, off, len, leNat data] = some p → s.MaySend o 0x0104 → data.length = len → slot ≤ 1 → op ≤ 2 →
    off % 64 = 0 → len ≤ 1920 → (op = 1 → off + len ≤ slotBytes) →
    (op < 2 → s.boot.runSlot = some slot → exec (.fwSlotWrite o slot op off len data) s = .next (s.turnedAway p .denied 0xFFFF)) ∧
    (op = 0 → s.boot.runSlot ≠ some slot → ∃ f : State → State, exec (.fwSlotWrite o slot op off len data) s = .next (s.concluded p f .ok (fun _ => [])) ∧
      ∀ a : State, ∀ i, (i / slotBytes = slot → (f a).flashByte i = 0xFF#8) ∧ (i / slotBytes ≠ slot → (f a).flashByte i = a.flashByte i)) ∧
    (op = 1 → s.boot.runSlot ≠ some slot → ∃ f : State → State, exec (.fwSlotWrite o slot op off len data) s = .next (s.concluded p f .ok (fun _ => [uf 4 len])) ∧
      ∀ a : State, memWf a.sec.flash = true → (∀ i, i < len → (f a).flashByte (slot * slotBytes + off + i) = data.getD i 0) ∧
        (∀ i, (i < slot * slotBytes + off ∨ slot * slotBytes + off + len ≤ i) → (f a).flashByte i = a.flashByte i)) ∧
    (op = 2 → exec (.fwSlotWrite o slot op off len data) s = .next (s.concluded p (fun a => a) .ok (fun a => [uf 1 ((a.imageFault slot).getD 0)])))) ∧
  (∀ o : Origin, ∀ slot, ∀ s : State, ∀ p, s.waiting o 0x0105 [slot] = some p → s.MaySend o 0x0105 → slot ≤ 1 →
    (s.imageFault slot = none → exec (.fwSlotSelect o slot) s = .next (s.concluded p
      (fun a => a.setBoot { a.boot with override := some slot }) .ok (fun _ => []))) ∧
    (s.imageFault slot ≠ none → exec (.fwSlotSelect o slot) s = .next (s.turnedAway p .badDesc 0))) ∧
  (∀ o : Origin, ∀ level, ∀ s : State, ∀ p, s.waiting o 0x0107 [level] = some p → s.MaySend o 0x0107 → 1 ≤ level → level ≤ 2 →
    ∃ f : State → State, ∃ res, exec (.debugChallenge o level) s = .next (s.concluded p f .ok res) ∧ ∀ a : State, ∃ n,
      (f a).sec.nonce = some { val := n, stamp := a.time.pip, host := Origin.hostD o } ∧ res a = [bf 32 n.toNat]) ∧
  (∀ (s : State), ∀ (o : Origin), ∀ (level : Nat), ∀ (key sig : List Byte), s.unlocks o level key sig = true ↔ ∃ n, s.sec.nonce = some n ∧
    n.host = Origin.hostD o ∧ s.time.pip ≤ n.stamp + 2 ^ 30 ∧ Config.sha384 key = Config.dbgKeyDigest ∧
    Config.verify key sig (leBytes 32 n.val.toNat ++ leBytes 8 Config.serial.toNat ++ leBytes 1 level) = true) ∧
  (∀ (o : Origin), ∀ (level : Nat), ∀ (key sig : List Byte), ∀ (s : State), ∀ (p : Posted), key.length = 97 → sig.length = 96 →
    s.waiting o 0x0108 [level, leNat key, leNat sig] = some p → s.MaySend o 0x0108 →
    (level = 0 → ∃ f : State → State, exec (.debugUnlock o level key sig) s = .next (s.concluded p f .ok (fun _ => [uf 1 0])) ∧ ∀ a : State, (f a).sec.debugLevel = 0) ∧
    (level = 1 ∨ level = 2 → s.unlocks o level key sig = true →
      ∃ f : State → State, exec (.debugUnlock o level key sig) s = .next (s.concluded p f .ok (fun _ => [uf 1 level])) ∧
        ∀ a : State, (f a).sec.debugLevel = level ∧ (f a).sec.nonce = none ∧ (f a).sec.measCount = a.sec.measCount + 1) ∧
    (level = 1 ∨ level = 2 → s.unlocks o level key sig = false →
      exec (.debugUnlock o level key sig) s = .next (s.turnedAway p .denied 0xFFFF))) ∧
  (∀ o : Origin, ∀ s : State, ∀ p, s.ledgerTorn = false → s.waiting o 0x0D01 [] = some p → s.MaySend o 0x0D01 →
    ∃ res, exec (.fuseLedgerRead o) s = .next (s.concluded p (fun a => a) .ok res) ∧ ∀ a : State, (res a).head? = some (uf 1 a.sec.rollback)) ∧
  (∀ o : Origin, ∀ target, ∀ s : State, ∀ p, s.ledgerTorn = false → s.waiting o 0x0D02 [target] = some p → s.MaySend o 0x0D02 → target ≤ 96 →
    (s.sec.rollback < target → target ≤ s.boot.runSv → target + s.sec.rollbackTorn ≤ 96 →
      (s.fuseBusy = false → ∃ f : State → State, exec (.fuseRollbackAdvance o target) s = .next (s.concluded p f .ok (fun _ => [uf 1 target])) ∧
        ∀ a : State, (f a).sec.rollback = target ∧ (f a).mem = a.mem) ∧
      (s.fuseBusy = true → exec (.fuseRollbackAdvance o target) s = .next (s.turnedAway p .busy 0xFFFF))) ∧
    (target ≤ s.sec.rollback ∨ s.boot.runSv < target → exec (.fuseRollbackAdvance o target) s = .next (s.turnedAway p .badDesc 0))) ∧
  (∀ o : Origin, ∀ k, ∀ i, ∀ s : State, ∀ p, s.ledgerTorn = false → s.waiting o 0x0D03 [k, i] = some p → s.MaySend o 0x0D03 → k ≤ 3 → i ≤ 255 →
    s.absent (256 * k + i) = false → s.fusedRetired (256 * k + i) = false →
    (s.retireRecs k < 8 → s.fuseBusy = false → ∃ f : State → State, exec (.fuseStitchRetire o k i) s = .next (s.concluded p f .ok (fun _ => [uf 1 (7 - s.retireRecs k)])) ∧
      ∀ a : State, (f a).fusedRetired (256 * k + i) = true ∧ (f a).isRetired (256 * k + i) = true) ∧
    (8 ≤ s.retireRecs k → exec (.fuseStitchRetire o k i) s = .next (s.turnedAway p .fuseExhausted 0xFFFF))) ∧
  (∀ o : Origin, ∀ slot, ∀ s : State, ∀ p, s.ledgerTorn = false → s.waiting o 0x0D04 [slot] = some p → s.MaySend o 0x0D04 → slot ≤ 3 →
    ((∀ r ∈ s.sec.revoked, r.key ≠ slot) → s.fuseBusy = false → ∃ f : State → State, ∃ res, exec (.fuseKeyRevoke o slot) s = .next (s.concluded p f .ok res) ∧
      ∀ a : State, (f a).revokedKey slot = true ∧ res a = [uf 1 ((f a).activeKey.getD 0xFF)]) ∧
    ((∃ r ∈ s.sec.revoked, r.key = slot) → exec (.fuseKeyRevoke o slot) s = .next (s.turnedAway p .fuseExhausted 0xFFFF)))

/-- The step (in place of 'a step runs the decoded instruction'); idling is the model's choice (entry IDLE). -/
def Obligations.StepRunsFront : Prop :=
  (∀ (c : Instr), ∀ (rest : List Instr), ∀ (s : State), step (s.setPending (c :: rest)) = exec c (s.setPending rest)) ∧
  (∀ s : State, s.pending = [] → step s = .next s.nextPip.settle ∧ s.nextPip.time.pip = s.time.pip + 1 ∧ s.nextPip.pending = [])

/-- State.reset meets State.Inv. -/
def Obligations.InvReset : Prop := State.reset.Inv

/-- State.Inv is kept by every step, and every step completes. -/
def Obligations.InvStep : Prop := ∀ s : State, s.Inv → ∃ t : State, step s = .next t ∧ t.Inv

/-- Packing of parameters and results (16 R455). -/
def Obligations.PackRoundTrip : Prop :=
  (∀ (l : List Shape), ∀ (vs : List Nat), (∀ x ∈ l, 0 < x.align) → vs.length = l.length →
    (∀ i, i < l.length → vs.getD i 0 < 2 ^ (8 * (l.getD i ⟨0, 1⟩).size)) → unpack l (pack l vs) = vs ∧ pack l vs < 2 ^ (8 * layoutLen l)) ∧
  (∀ (l : List Shape), (∀ x ∈ l, 0 < x.align) → layoutLen l % 8 = 0 ∧ (offsets l 0).length = l.length ∧
    (∀ i, i < l.length → (offsets l 0).getD i 0 % (l.getD i ⟨0, 1⟩).align = 0 ∧
      (offsets l 0).getD i 0 + (l.getD i ⟨0, 1⟩).size ≤ layoutLen l) ∧
    (∀ i, i + 1 < l.length → (offsets l 0).getD i 0 + (l.getD i ⟨0, 1⟩).size ≤ (offsets l 0).getD (i + 1) 0)) ∧
  (∀ (op n : Nat), ∀ x ∈ layout op n, 0 < x.align)
end

