-- ==== Sys2Proof/Laws/Command.lean ====
section
/-! SUPPORT. What a command row does: nothing, a refusal, or its effect and its answer (16 R453, R457, R459; 00 R10). -/

namespace Sys2Proof.Machine

open Sys2Proof

/-! ### Refusals -/

theorem firstRefusal_eq_none {cs : List Chk} : firstRefusal cs = none ↔ ∀ c ∈ cs, c.bad = false := by
  induction cs with
  | nil => simp [firstRefusal]
  | cons c r ih =>
    simp only [firstRefusal, List.mem_cons, forall_eq_or_imp]
    cases h : firstRefusal r with
    | none => cases hb : c.bad <;> simp_all
    | some d =>
      have : ¬ ∀ c ∈ r, c.bad = false := fun hr => by simp [ih.mpr hr] at h
      by_cases hc : (c.bad && c.before d) = true <;> simp [hc, this]

/-- The refusal chosen is one of the conditions, and it holds. -/
theorem firstRefusal_mem {cs : List Chk} {c : Chk} (h : firstRefusal cs = some c) : c ∈ cs ∧ c.bad = true := by
  induction cs with
  | nil => simp [firstRefusal] at h
  | cons d r ih =>
    simp only [firstRefusal] at h
    cases hr : firstRefusal r with
    | none =>
      cases hd : d.bad
      · simp [hr, hd] at h
      · simp only [hr, hd, if_true, Option.some.injEq] at h
        exact ⟨by simp [← h], by rw [← h]; exact hd⟩
    | some e =>
      simp only [hr] at h
      by_cases hb : (d.bad && d.before e) = true
      · simp only [hb, if_true, Option.some.injEq] at h
        simp only [Bool.and_eq_true] at hb
        exact ⟨by simp [← h], by rw [← h]; exact hb.1⟩
      · simp only [hb, Bool.false_eq_true, if_false, Option.some.injEq] at h
        have := ih (hr.trans (congrArg some h))
        exact ⟨List.mem_cons_of_mem _ this.1, this.2⟩

/-- Of conditions of which one alone holds, that one is the refusal. -/
theorem firstRefusal_append_left {cs ds : List Chk} (h : ∀ c ∈ cs, c.bad = false) : firstRefusal (cs ++ ds) = firstRefusal ds := by
  induction cs with
  | nil => rfl
  | cons c r ih =>
    have hc : c.bad = false := h c (List.mem_cons_self ..)
    have hr := ih (fun d hd => h d (List.mem_cons_of_mem _ hd))
    simp only [List.cons_append, firstRefusal, hr]
    cases firstRefusal ds <;> simp [hc]

@[simp] theorem firstRefusal_nil : firstRefusal [] = none := rfl

theorem firstRefusal_cons_false {c : Chk} {cs : List Chk} (h : c.bad = false) : firstRefusal (c :: cs) = firstRefusal cs := by
  simp only [firstRefusal]
  cases firstRefusal cs <;> simp [h]

theorem firstRefusal_cons_true {c : Chk} {cs : List Chk} (h : c.bad = true) (hr : firstRefusal cs = none) :
    firstRefusal (c :: cs) = some c := by
  simp [firstRefusal, hr, h]

/-- The marks refuse nothing of an origin that may send the opcode. -/
theorem markChks_ok {s : State} {o : Origin} {op : Nat} (h : s.MaySend o op) : ∀ c ∈ s.markChks o op, c.bad = false := by
  intro c hc
  cases o with
  | mb p m =>
    simp only [State.markChks, List.mem_singleton] at hc
    subst hc
    simp only [State.MaySend] at h
    by_cases hp : ((marksOf op).getD {}).p = true
    · simp [hp, h hp]
    · simp [hp]
  | fab f n =>
    simp only [State.markChks, List.mem_singleton] at hc
    subst hc
    simp only [State.MaySend] at h
    simp [h]

/-! ### Command rows -/

theorem command_idle {s : State} {o : Origin} {op : Nat} {vs : List Nat} {cs : List Chk} {run : Nat → State → State × Reply}
    (h : s.waiting o op vs = none) : s.command o op vs cs run = .next s := by
  simp [State.command, h]

theorem command_refused {s : State} {o : Origin} {op : Nat} {vs : List Nat} {cs : List Chk} {run : Nat → State → State × Reply}
    {p : Posted} {c : Chk} (hw : s.waiting o op vs = some p) (hc : firstRefusal (s.markChks o op ++ cs) = some c) :
    s.command o op vs cs run = .next (s.turnedAway p c.st (fldOffset op (s.posted p).2.toNat c.fld)) := by
  simp [State.command, hw, hc, State.turnedAway]

/-- A command that nothing refuses and that answers at once. -/
theorem update_concluded {s : State} {o : Origin} {op : Nat} {vs : List Nat} {cs : List Chk} {f : State → State}
    {res : State → List Fld} {p : Posted} (hw : s.waiting o op vs = some p) (hm : s.MaySend o op) (hc : ∀ c ∈ cs, c.bad = false) :
    s.update o op vs cs f res = .next (s.concluded p f .ok (fun a => res (f a))) := by
  have h : firstRefusal (s.markChks o op ++ cs) = none := by
    rw [firstRefusal_append_left (markChks_ok hm)]; exact firstRefusal_eq_none.mpr hc
  simp [State.update, State.command, hw, h, State.concluded]

theorem query_concluded {s : State} {o : Origin} {op : Nat} {vs : List Nat} {cs : List Chk} {res : State → List Fld} {p : Posted}
    (hw : s.waiting o op vs = some p) (hm : s.MaySend o op) (hc : ∀ c ∈ cs, c.bad = false) :
    s.query o op vs cs res = .next (s.concluded p (fun a => a) .ok res) := by
  have h : firstRefusal (s.markChks o op ++ cs) = none := by
    rw [firstRefusal_append_left (markChks_ok hm)]; exact firstRefusal_eq_none.mpr hc
  simp [State.query, State.command, hw, h, State.concluded]

/-- A command that nothing refuses: its run on the state at acceptance says what happens. -/
theorem command_run {s : State} {o : Origin} {op : Nat} {vs : List Nat} {cs : List Chk} {run : Nat → State → State × Reply}
    {p : Posted} (hw : s.waiting o op vs = some p) (hm : s.MaySend o op) (hc : ∀ c ∈ cs, c.bad = false) :
    s.command o op vs cs run =
      .next (match (run (s.accept p).1 (s.accept p).2).2 with
        | .done st res => ((run (s.accept p).1 (s.accept p).2).1.finish (s.accept p).1 st res).drainHeads
        | .later => (run (s.accept p).1 (s.accept p).2).1.drainHeads) := by
  have h : firstRefusal (s.markChks o op ++ cs) = none := by
    rw [firstRefusal_append_left (markChks_ok hm)]; exact firstRefusal_eq_none.mpr hc
  simp only [State.command, hw, h]
  cases (run (s.accept p).1 (s.accept p).2).2 <;> rfl

theorem command_begun {s : State} {o : Origin} {op : Nat} {vs : List Nat} {cs : List Chk} {f : Nat → State → State} {p : Posted}
    (hw : s.waiting o op vs = some p) (hm : s.MaySend o op) (hc : ∀ c ∈ cs, c.bad = false) :
    s.command o op vs cs (fun t a => (f t a, .later)) = .next (s.begun p f) := by
  rw [command_run hw hm hc]; rfl

/-- A command row always answers a next state. -/
theorem command_next (s : State) (o : Origin) (op : Nat) (vs : List Nat) (cs : List Chk) (run : Nat → State → State × Reply) :
    ∃ t, s.command o op vs cs run = .next t := by
  unfold State.command
  split
  · exact ⟨_, rfl⟩
  · dsimp only
    split
    · exact ⟨_, rfl⟩
    · split <;> exact ⟨_, rfl⟩

/-! ### Acceptance leaves all but the host interface -/

theorem accept_frame (s : State) (p : Posted) : (s.accept p).2 = s.setHost (s.accept p).2.host := by
  obtain ⟨o, op, c, ps⟩ := p
  cases o with
  | mb h m => cases h <;> rfl
  | fab f n => rfl

@[simp] theorem accept_log (s : State) (p : Posted) : (s.accept p).2.log = s.log := by rw [accept_frame]; rfl
@[simp] theorem accept_sec (s : State) (p : Posted) : (s.accept p).2.sec = s.sec := by rw [accept_frame]; rfl
@[simp] theorem accept_boot (s : State) (p : Posted) : (s.accept p).2.boot = s.boot := by rw [accept_frame]; rfl
@[simp] theorem accept_time (s : State) (p : Posted) : (s.accept p).2.time = s.time := by rw [accept_frame]; rfl
@[simp] theorem accept_cfg (s : State) (p : Posted) : (s.accept p).2.cfg = s.cfg := by rw [accept_frame]; rfl
@[simp] theorem accept_claims (s : State) (p : Posted) : (s.accept p).2.claims = s.claims := by rw [accept_frame]; rfl
@[simp] theorem accept_mem (s : State) (p : Posted) : (s.accept p).2.mem = s.mem := by rw [accept_frame]; rfl
@[simp] theorem accept_integ (s : State) (p : Posted) : (s.accept p).2.integ = s.integ := by rw [accept_frame]; rfl
@[simp] theorem accept_pwr (s : State) (p : Posted) : (s.accept p).2.pwr = s.pwr := by rw [accept_frame]; rfl
@[simp] theorem accept_upd (s : State) (p : Posted) : (s.accept p).2.upd = s.upd := by rw [accept_frame]; rfl
@[simp] theorem accept_exp (s : State) (p : Posted) : (s.accept p).2.exp = s.exp := by rw [accept_frame]; rfl
@[simp] theorem accept_lad (s : State) (p : Posted) : (s.accept p).2.lad = s.lad := by rw [accept_frame]; rfl
@[simp] theorem accept_coll (s : State) (p : Posted) : (s.accept p).2.coll = s.coll := by rw [accept_frame]; rfl
@[simp] theorem accept_pat (s : State) (p : Posted) : (s.accept p).2.pat = s.pat := by rw [accept_frame]; rfl
@[simp] theorem accept_tiles (s : State) (p : Posted) : (s.accept p).2.tiles = s.tiles := by rw [accept_frame]; rfl
@[simp] theorem accept_descs (s : State) (p : Posted) : (s.accept p).2.descs = s.descs := by rw [accept_frame]; rfl
@[simp] theorem accept_layers (s : State) (p : Posted) : (s.accept p).2.layers = s.layers := by rw [accept_frame]; rfl
@[simp] theorem accept_links (s : State) (p : Posted) : (s.accept p).2.links = s.links := by rw [accept_frame]; rfl
@[simp] theorem accept_route (s : State) (p : Posted) : (s.accept p).2.route = s.route := by rw [accept_frame]; rfl
@[simp] theorem accept_cnt (s : State) (p : Posted) : (s.accept p).2.cnt = s.cnt := by rw [accept_frame]; rfl
@[simp] theorem accept_ueWords (s : State) (p : Posted) : (s.accept p).2.ueWords = s.ueWords := by rw [accept_frame]; rfl

/-! ### Rows that may meet an error -/

/-- With no reset of an error due, nothing begins. -/
theorem settle_none {s : State} (h : ∀ j ∈ s.boot.jobs, j.dueError s.time.pip = false) : s.settle = s := by
  have : s.boot.jobs.filter (fun j => j.dueError s.time.pip) = [] := by
    rw [List.filter_eq_nil_iff]; intro j hj; simp [h j hj]
  simp [State.settle, this]

@[simp] theorem settled_next (s : State) : settled (.next s) = .next s.settle := rfl

end Sys2Proof.Machine
end

