-- ==== Sys2Proof/Laws/Memory.lean ====
section
/-! SUPPORT. Memory: reads after writes, and its canonical form, which every operation that changes it keeps. -/

namespace Sys2Proof.Machine

open Sys2Proof

/-- The canonical form said with `List.Pairwise`. -/
theorem memWf_iff (m : List Host.Cell) :
    memWf m = true ↔ m.Pairwise (fun x y => x.1 < y.1) ∧ ∀ c ∈ m, c.2 ≠ memDefault := by
  induction m with
  | nil => simp [memWf]
  | cons c r ih =>
    cases r with
    | nil => simp [memWf]
    | cons d r =>
      obtain ⟨a, b⟩ := c
      obtain ⟨a', b'⟩ := d
      simp only [memWf, Bool.and_eq_true, bne_iff_ne, decide_eq_true_eq, ih, List.pairwise_cons, List.mem_cons]
      constructor
      · rintro ⟨⟨hb, ha⟩, ⟨⟨h1, h2⟩, h3⟩⟩
        refine ⟨⟨?_, h1, h2⟩, ?_⟩
        · rintro x (rfl | hx)
          · exact ha
          · exact lt_trans ha (h1 x hx)
        · rintro x (rfl | hx)
          · exact hb
          · exact h3 x hx
      · rintro ⟨⟨h0, h1, h2⟩, h3⟩
        exact ⟨⟨h3 _ (Or.inl rfl), h0 _ (Or.inl rfl)⟩, ⟨h1, h2⟩, fun x hx => h3 x (Or.inr hx)⟩

@[simp] theorem memWf_nil : memWf [] = true := rfl

theorem memWf_filter {m : List Host.Cell} (p : Host.Cell → Bool) (h : memWf m = true) : memWf (m.filter p) = true := by
  rw [memWf_iff] at h ⊢
  exact ⟨h.1.filter _, fun c hc => h.2 c (List.mem_of_mem_filter hc)⟩

/-- Every key of the memory after a write was there before or is the one written. -/
theorem mem_memPut {m : List Host.Cell} {a : Nat} {b : Byte} {c : Host.Cell} (h : c ∈ memPut m a b) : c ∈ m ∨ c = (a, b) := by
  induction m with
  | nil => simp only [memPut, memCons] at h; split at h <;> simp_all
  | cons d r ih =>
    obtain ⟨k, w⟩ := d
    simp only [memPut, memCons] at h
    split at h
    · split at h <;> simp_all; tauto
    · split at h
      · split at h <;> simp_all; tauto
      · rcases List.mem_cons.mp h with h | h
        · simp [h]
        · rcases ih h with h | h <;> simp [h]

theorem memWf_memPut {m : List Host.Cell} (a : Nat) (b : Byte) (h : memWf m = true) : memWf (memPut m a b) = true := by
  rw [memWf_iff] at h ⊢
  induction m with
  | nil => simp only [memPut, memCons]; split <;> simp_all
  | cons d r ih =>
    obtain ⟨k, w⟩ := d
    obtain ⟨hp, hd⟩ := h
    have hp' := List.pairwise_cons.mp hp
    have ht := ih ⟨hp'.2, fun c hc => hd c (List.mem_cons_of_mem _ hc)⟩
    simp only [memPut, memCons]
    split
    next hlt =>
      split
      · exact ⟨hp, hd⟩
      next hb =>
        refine ⟨List.pairwise_cons.mpr ⟨?_, hp⟩, ?_⟩
        · intro c hc
          rcases List.mem_cons.mp hc with rfl | hc
          · exact hlt
          · exact lt_trans hlt (hp'.1 c hc)
        · intro c hc
          rcases List.mem_cons.mp hc with rfl | hc
          · exact hb
          · exact hd c hc
    next hlt =>
      split
      next heq =>
        subst heq
        split
        · exact ⟨hp'.2, fun c hc => hd c (List.mem_cons_of_mem _ hc)⟩
        next hb =>
          refine ⟨List.pairwise_cons.mpr ⟨hp'.1, hp'.2⟩, ?_⟩
          intro c hc
          rcases List.mem_cons.mp hc with rfl | hc
          · exact hb
          · exact hd c (List.mem_cons_of_mem _ hc)
      next hne =>
        refine ⟨List.pairwise_cons.mpr ⟨?_, ht.1⟩, ?_⟩
        · intro c hc
          rcases mem_memPut hc with hc | rfl
          · exact hp'.1 c hc
          · show k < a; omega
        · intro c hc
          rcases List.mem_cons.mp hc with rfl | hc
          · exact hd _ (List.mem_cons_self ..)
          · exact ht.2 c hc

theorem memWf_memPutAll {m : List Host.Cell} (a : Nat) (bs : List Byte) (h : memWf m = true) : memWf (memPutAll m a bs) = true := by
  induction bs generalizing m a with
  | nil => exact h
  | cons b r ih => exact ih (a + 1) (memWf_memPut a b h)

/-- An address below every key reads as an unlisted one. -/
theorem memGet_below {m : List Host.Cell} {a : Nat} (h : ∀ c ∈ m, a < c.1) : memGet m a = memDefault := by
  induction m with
  | nil => rfl
  | cons c r ih =>
    obtain ⟨k, w⟩ := c
    have hk := h _ (List.mem_cons_self ..)
    have hne : k ≠ a := by simp only at hk; omega
    simp only [memGet, hne, if_false]
    exact ih (fun c hc => h c (List.mem_cons_of_mem _ hc))

theorem memGet_memPut_ne (m : List Host.Cell) {a x : Nat} (b : Byte) (h : x ≠ a) : memGet (memPut m a b) x = memGet m x := by
  have h' : a ≠ x := fun e => h e.symm
  induction m with
  | nil => simp only [memPut, memCons]; split <;> simp [memGet, h']
  | cons d r ih =>
    obtain ⟨k, w⟩ := d
    simp only [memPut, memCons]
    split
    · split <;> simp [memGet, h']
    · split
      next heq => subst heq; split <;> simp [memGet, h']
      · simp only [memGet, ih]

theorem memGet_memPut_self {m : List Host.Cell} (a : Nat) (b : Byte) (h : memWf m = true) : memGet (memPut m a b) a = b := by
  rw [memWf_iff] at h
  induction m with
  | nil => simp only [memPut, memCons]; split <;> simp_all [memGet]
  | cons d r ih =>
    obtain ⟨k, w⟩ := d
    have hp' := List.pairwise_cons.mp h.1
    simp only [memPut, memCons]
    split
    next hlt =>
      split
      next hb =>
        subst hb
        apply memGet_below
        intro c hc
        rcases List.mem_cons.mp hc with rfl | hc
        · exact hlt
        · exact lt_trans hlt (hp'.1 c hc)
      · simp [memGet]
    next hlt =>
      split
      next heq =>
        subst heq
        split
        next hb => subst hb; exact memGet_below hp'.1
        · simp [memGet]
      next hne =>
        have : k ≠ a := fun e => hne e.symm
        simp only [memGet, this, if_false]
        exact ih ⟨hp'.2, fun c hc => h.2 c (List.mem_cons_of_mem _ hc)⟩

theorem memGet_memPutAll_out (m : List Host.Cell) (a : Nat) (bs : List Byte) {x : Nat} (h : x < a ∨ a + bs.length ≤ x) :
    memGet (memPutAll m a bs) x = memGet m x := by
  induction bs generalizing m a with
  | nil => rfl
  | cons b r ih =>
    simp only [memPutAll, List.length_cons] at h ⊢
    rw [ih _ _ (by omega), memGet_memPut_ne _ _ (by omega)]

theorem memGet_memPutAll_in {m : List Host.Cell} (a : Nat) (bs : List Byte) (h : memWf m = true) {i : Nat} (hi : i < bs.length) :
    memGet (memPutAll m a bs) (a + i) = bs.getD i 0 := by
  induction bs generalizing m a i with
  | nil => simp at hi
  | cons b r ih =>
    simp only [memPutAll]
    cases i with
    | zero =>
      rw [memGet_memPutAll_out _ _ _ (by omega)]
      simp [memGet_memPut_self a b h]
    | succ n =>
      have := ih (a + 1) (memWf_memPut a b h) (i := n) (by simpa using hi)
      rw [show a + (n + 1) = a + 1 + n by omega, this]
      simp

theorem memGet_filter_key (m : List Host.Cell) (p : Nat → Bool) (x : Nat) :
    memGet (m.filter (fun c => p c.1)) x = if p x then memGet m x else memDefault := by
  induction m with
  | nil => simp [memGet]
  | cons c r ih =>
    obtain ⟨k, w⟩ := c
    by_cases hk : k = x
    · subst hk
      by_cases hp : p k <;> simp [List.filter_cons, hp, memGet, ih]
    · by_cases hp : p k <;> simp [List.filter_cons, hp, memGet, ih, hk]

/-! ### Operations of the state -/

theorem State.write_mem (s : State) (key : Nat) (bs : List Byte) : (s.write key bs).mem = memPutAll s.mem key bs := by
  unfold State.write; dsimp only; split <;> rfl

/-- A write changes memory and the uncorrectable words, and nothing else. -/
theorem State.write_frame (s : State) (key : Nat) (bs : List Byte) :
    s.write key bs = (s.setMem (memPutAll s.mem key bs)).setUeWords (s.write key bs).ueWords := by
  unfold State.write; dsimp only; split <;> rfl

theorem State.write_memWf (s : State) (key : Nat) (bs : List Byte) (h : memWf s.mem = true) : memWf (s.write key bs).mem = true := by
  rw [State.write_mem]; exact memWf_memPutAll _ _ h

/-- Writing a list of pieces keeps the form. -/
theorem memWf_foldl_write (ps : List (Nat × List Byte)) (s : State) (h : memWf s.mem = true) :
    memWf (ps.foldl (fun s p => s.write p.1 p.2) s).mem = true := by
  induction ps generalizing s with
  | nil => exact h
  | cons p r ih => exact ih _ (State.write_memWf _ _ _ h)

/-- The same for pieces put straight into memory. -/
theorem memWf_foldl_setMem (ps : List (Nat × List Byte)) (s : State) (h : memWf s.mem = true) :
    memWf (ps.foldl (fun t p => t.setMem (memPutAll t.mem p.1 p.2)) s).mem = true := by
  induction ps generalizing s with
  | nil => exact h
  | cons p r ih => exact ih _ (memWf_memPutAll _ _ h)

theorem State.coldReset_mem (s : State) : s.coldReset.mem = [] := rfl

theorem reset_memWf : memWf State.reset.mem = true := rfl

end Sys2Proof.Machine
end

