-- ==== Sys2Proof/Laws/Tab.lean ====
section
/-! SUPPORT. What tables answer after an entry is set, removed, kept or changed. -/

namespace Sys2Proof.Machine

open Sys2Proof

variable {α β : Type}

@[simp] theorem tabGet?_nil (x : Nat) : tabGet? ([] : Tab α) x = none := rfl

@[simp] theorem tabGet_nil (d : α) (x : Nat) : tabGet ([] : Tab α) d x = d := rfl

theorem tabGet?_tabPut (t : Tab α) (x y : Nat) (v : α) :
    tabGet? (tabPut t x v) y = if y = x then some v else tabGet? t y := by
  induction t with
  | nil => simp only [tabPut, tabGet?]; split <;> simp_all [eq_comm]
  | cons e r ih =>
    obtain ⟨k, w⟩ := e
    simp only [tabPut]
    split
    · simp only [tabGet?]; split <;> simp_all [eq_comm]
    · split
      · simp only [tabGet?]; split <;> simp_all [eq_comm]
      · simp only [tabGet?, ih]; split <;> split <;> simp_all

@[simp] theorem tabGet?_tabPut_self (t : Tab α) (x : Nat) (v : α) : tabGet? (tabPut t x v) x = some v := by
  simp [tabGet?_tabPut]

theorem tabGet?_tabPut_ne (t : Tab α) {x y : Nat} (v : α) (h : y ≠ x) : tabGet? (tabPut t x v) y = tabGet? t y := by
  simp [tabGet?_tabPut, h]

@[simp] theorem tabGet_tabPut_self (t : Tab α) (d : α) (x : Nat) (v : α) : tabGet (tabPut t x v) d x = v := by
  simp [tabGet]

theorem tabGet_tabPut_ne (t : Tab α) (d : α) {x y : Nat} (v : α) (h : y ≠ x) : tabGet (tabPut t x v) d y = tabGet t d y := by
  simp [tabGet, tabGet?_tabPut, h]

theorem tabGet?_filter_key (t : Tab α) (p : Nat → Bool) (x : Nat) :
    tabGet? (t.filter (fun e => p e.1)) x = if p x then tabGet? t x else none := by
  induction t with
  | nil => simp
  | cons e r ih =>
    obtain ⟨k, w⟩ := e
    by_cases hk : k = x
    · subst hk
      by_cases hp : p k <;> simp [List.filter_cons, hp, tabGet?, ih]
    · by_cases hp : p k <;> simp [List.filter_cons, hp, tabGet?, ih, hk]

@[simp] theorem tabGet?_tabKeep (t : Tab α) (p : Nat → Bool) (x : Nat) :
    tabGet? (tabKeep t p) x = if p x then tabGet? t x else none := tabGet?_filter_key t p x

theorem tabGet?_tabDel (t : Tab α) (x y : Nat) : tabGet? (tabDel t x) y = if y = x then none else tabGet? t y := by
  have h := tabGet?_filter_key t (fun k => decide (k ≠ x)) y
  simp only [tabDel]
  rw [h]
  split <;> simp_all

@[simp] theorem tabGet?_tabDel_self (t : Tab α) (x : Nat) : tabGet? (tabDel t x) x = none := by simp [tabGet?_tabDel]

@[simp] theorem tabGet?_tabMap (t : Tab α) (f : Nat → α → β) (x : Nat) : tabGet? (tabMap t f) x = (tabGet? t x).map (f x) := by
  induction t with
  | nil => rfl
  | cons e r ih =>
    obtain ⟨k, w⟩ := e
    by_cases hk : k = x
    · subst hk; simp [tabMap, tabGet?]
    · simp only [tabMap, List.map_cons, tabGet?, hk, if_false] at ih ⊢; exact ih

end Sys2Proof.Machine
end

