-- ==== Sys2Proof/Tests/Slice0.lean ====
section
/-! SUPPORT. Tests: the spec's worked examples, ill-formed commands that the check refuses, and for the hypotheses of
each statement states and operands that meet them together. -/

namespace Sys2Proof.Tests

open Sys2Proof Sys2Proof.Machine

-- The many small kernel checks below run one after another, so that they need no thread each.
set_option Elab.async false

/-! ### Small states -/

/-- A host port that is UP. -/
def tPort : HostPort := { perst := false, trained := true, gen := 4, width := 16 }
/-- READY, both hosts UP. -/
def tR : State := { State.reset with boot := { phase := .ready }, host := { h0 := tPort, h1 := tPort } }
/-- At a pip. -/
def tAt (s : State) (n : Nat) : State := { s with time := { s.time with pip := n } }
/-- Link 0 as given. -/
def tL (l : Link) : State := { tR with links := [(0, l)] }
/-- A link that is UP. -/
def tU : Link := { state := .up }
/-- A command waits in mailbox 0 of H0 (`n` is the length that a layout may need). -/
def tC (s : State) (op : Nat) (vs : List Nat) (n : Nat := 0) : State :=
  let l := layout op n
  let b : Mailbox := { st := pairWord 0x101, cmd := BitVec.ofNat 512 (op + layoutLen l * 2 ^ 16),
                       params := BitVec.ofNat 15872 (pack l vs) }
  { s with host := { s.host with h0 := { s.host.h0 with boxes := [(0, b)] }, order := [{ o := .mb .h0 0, stamp := 0 }] } }
/-- Its place in the order. -/
def tP : Posted := { o := .mb .h0 0, stamp := 0 }
/-- Its origin. -/
def tO : Origin := .mb .h0 0
/-- A frame that waits at a unit. -/
def tF (s : State) (q : QFrame) : State := { s with buf := { s.buf with frames := [q] } }
/-- A setting in force. -/
def tS (s : State) (id scope v : Nat) : State := { s with cfg := { s.cfg with vals := tabPut s.cfg.vals (setKey id scope) v } }

def tSpillQ (i : Nat) : QFrame :=
  { die := 0, ing := 2, dest := .link 0, f := { ty := 0, vc := 1, ch := 1, dst := 5, src := i, cells := List.replicate 64 0 },
    stamp := 0, acct := portAcct 65 1, hanks := [(i, 0)] }
/-- Three frames of a port account above its spill level. -/
def tSpill : State :=
  let a := portAcct 65 1
  let s := tS (tS (tS tR idOvfEnable a 1) idOvfMax a 1000) idOvfSize 0 (2 ^ 20)
  { s with buf := { frames := [tSpillQ 0, tSpillQ 1, tSpillQ 2], accts := [(a, { h := 2 ^ 17 })] } }
/-- A multicast frame to be replicated. -/
def tRepl : ReplJob :=
  { die := 0, f := { ty := 0, vc := 1, ch := 1, dst := 5, src := 9, cells := List.replicate 64 0 }, stamp := 0, ing := 2,
    dests := [.link 0] }
/-- A frame in epoch 1. -/
def tRouteF : Frame := { ty := 0, vc := 1, ch := 1, epoch := 1, epochSet := true, dst := 5, src := 9 }
/-- One route entry, to port 2. -/
def tRoute : State :=
  { tR with route := { b0 := { st := .installed, epoch := 1, block := [(0, BitVec.ofNat 128 (2 ^ 127 + 2))] } },
            links := [(4, tU)] }
/-- A header cell of a SUM over F32 in one slice of 16 elements, of collective 3 and rank 0. -/
def tHdr (kind : Nat) : List Byte :=
  let h := padTo 64 ([BitVec.ofNat 8 kind, 0, 7, 7, 0, 7, 0, 127, 3, 0, 0, 0] ++ leBytes 4 0 ++ leBytes 4 16 ++ leBytes 8 0 ++
    [1, 0, 0, 0] ++ List.replicate 12 0 ++ [127])
  h.take 12 ++ leBytes 4 (chDigestOf h) ++ h.drop 16
/-- A group of two endpoints, number 8. -/
def tGroup : Group :=
  { arrival := false, lo := 0, cnt := 2, n := 2, parent := none, parentFid := 0, parentGroup := 0, home := 0, depth := 0,
    timeout := 4096, window := 2, suspectK := 1, rub := none, oldest := 3,
    members := [{ lk := 4, switch := false, lo := 0, cnt := 1, fid := 7, stride := 4096 },
                { lk := 6, switch := false, lo := 1, cnt := 1, fid := 8, stride := 4096 }] }
/-- The frame of member 0 with a header kind. -/
def tQk (kind : Nat) : QFrame :=
  { die := 0, ing := 4, dest := .tally, stamp := 0, acct := portAcct 2 3, hanks := [],
    f := { ty := 4, vc := 3, ch := 0, dst := 0xFFFFF, src := 7, spec := 8 * 4096, cells := tHdr kind ++ List.replicate 64 0 } }
/-- A CONTRIB of member 0. -/
def tQ : QFrame := tQk 1
/-- The state of group 8 with a frame that waits. -/
def tColl (g : Group) (q : QFrame) : State := { tF tR q with coll := [(8, g)] }
/-- Collective 3 is open with these first frames. -/
def tOpen (fs : Tab (Nat × Nat)) : Group := { tGroup with colls := [{ seq := 3, t0 := 0, firsts := fs }] }
/-- Collective 3 has slice 0 of member 0 already. -/
def tDupC : Coll := { seq := 3, t0 := 0, hdr := tHdr 1, firsts := [(0, (chDigest (tHdr 1), 0))], slices := [(0, { got := [0] })] }
def tDup : Group := { tGroup with colls := [tDupC] }
/-- Both slots of die 0 are taken. -/
def tFull : Group :=
  { tGroup with colls := [{ seq := 3, t0 := 0 }, { seq := 4, t0 := 0, slices := [(0, { dies := [0] }), (1, { dies := [0] })] }] }
/-- A group below a parent on link 4. -/
def tDown : Group := { tGroup with parent := some 4, parentFid := 7, depth := 1 }
/-- A downward frame of a kind. -/
def tQd (kind : Nat) : QFrame :=
  { tQk kind with f := { (tQk kind).f with ty := 5, vc := 4 }, acct := portAcct 2 4 }
/-- The descriptor of a root with one endpoint (Tables 08-1, 08-2). -/
def tDesc08 : List Byte :=
  padTo 64 ([1, 0, 8, 0] ++ leBytes 4 0 ++ leBytes 4 1 ++ leBytes 4 1 ++ [0xFF, 0, 0, 0] ++ leBytes 4 0 ++ leBytes 4 4096 ++ [2, 1, 1, 0]) ++
  padTo 32 ([2, 0, 0, 0] ++ leBytes 4 0 ++ leBytes 4 1 ++ leBytes 4 7 ++ leBytes 8 0 ++ leBytes 4 64)
/-- A request cell that names a far offset. -/
def tOff (off : Nat) : List Byte := padTo 64 (leBytes 8 off)
/-- Stitch 0 in HOLD. -/
def tAsleep : State := { tR with tiles := [(0, { power := .hold })] }

/-- The value of a result, or its error. -/
def tOpt {ε α : Type} : Except ε α → Option (ε ⊕ α) | .ok a => some (.inr a) | .error e => some (.inl e)
theorem test_isOk {ε α : Type} {x : Except ε α} {a : α} (h : tOpt x = some (.inr a)) : x = .ok a := by
  cases x <;> simp_all [tOpt]
theorem test_isSome {α : Type} {o : Option α} {d : α} (h : o.isSome = true) : o = some (o.getD d) := by
  cases o with
  | none => cases h
  | some a => rfl
theorem test_isError {ε α : Type} {x : Except ε α} {e : ε} (h : tOpt x = some (.inl e)) : x = .error e := by
  cases x <;> simp_all [tOpt]
/-- Slot 0 of Stitch 0 as given. -/
def tSlot (x : Slot) : State := { tR with tiles := [(0, { slots := [(0, x)] })] }
/-- The image of a dense F32 descriptor of 1 row by 16 columns at DRAM address 0x1000 (Table 10-11). -/
def tDescI : List Byte :=
  padTo 64 ([7, 127, 0, 0] ++ leBytes 4 1 ++ leBytes 4 16 ++ leBytes 4 64 ++ leBytes 8 0x1000)
/-- The descriptor it holds. -/
def tDesc : Desc := match parseDesc tDescI with | .ok d => d | .error _ => {}
/-- An operand at its first element. -/
def tLat : LatOp := { handle := 0, gen := 0, d := tDesc, row := 0, col := 0 }
/-- A layer of 16 by 32. -/
def tLayer : Layer := { up := 0xC001, down := 0xC002, p1 := 0xC003, p2 := 0xC004, dModel := 16, dFf := 32, missLimit := 1 }
/-- Its descriptors and its image at 64. -/
def tLayerS : State :=
  let d (r c : Nat) : DescEntry := { d := some { fmt := .b16, rows := r, cols := c } }
  ({ tR with descs := [(0x3001, d 32 16), (0x3002, d 16 32), (0x3003, d 64 16), (0x3004, d 1 64)] } : State).write 64 tLayer.bytes
/-- A launch of all 64 slots of Stitch 0. -/
def tLaunchA : LaunchArgs :=
  { launch := 1023, pat := 0, map := 0, slotsPer := 64, entry := 0, target := 2048, late := 1, group := 0xFFFF, runLimit := 0,
    optStep := 1, step := 0, arg0 := 0, arg1 := 0 }
def tSlots : List (Nat × Nat) := (List.range 64).map (fun i => (0, i))

/-- PAT_LAUNCH of that launch waits. -/
def tLaunchS : State :=
  tC (({ tR with time := { state := .locked },
                 pat := { pats := [(0, { gen := 0, off := 0, len := 96, count := 1, digest := 0 })] } } : State).write 0 [1]) 0x0603
    [1023, 0, 0, 64, 0, 2048, 1, 0xFFFF, 0, 1, 0, 0, 0]
/-- An expert descriptor (Table 11-4): number 5, F32 of 16 elements, cap 1, Stitch 0; flags and run_limit as given. -/
def tXd (flags runLimit : Nat) : List Byte :=
  let b := if bit flags 0 then 7 else 0
  padTo 64 ([1] ++ leBytes 1 flags ++ leBytes 2 5 ++ [7, 7, b, b] ++ leBytes 2 16 ++ leBytes 2 16 ++ [0, 0, 1, 1] ++
    leBytes 8 0 ++ leBytes 4 256 ++ leBytes 4 1 ++ leBytes 4 0 ++ leBytes 4 0 ++ leBytes 4 runLimit ++ leBytes 4 0 ++
    leBytes 4 0 ++ leBytes 4 4096) ++
  padTo 64 (leBytes 4 0 ++ leBytes 4 0 ++ leBytes 4 4096 ++ leBytes 4 0 ++ leBytes 4 8192 ++ leBytes 4 0 ++
    leBytes 4 12288 ++ leBytes 4 0 ++ leBytes 4 16384 ++ leBytes 4 0 ++ leBytes 4 20480) ++ padTo 128 [1]
/-- A replica on Stitch 0. -/
def tRep : Replica := { sts := [0], grad := 0, slots := [(0, 0)] }
/-- An expert with one replica. -/
def tX : Expert := { d := tXd 0 0, reps := [(0, tRep)] }
/-- Expert 5 as given. -/
def tE (x : Expert) : State := { tR with exp := { exact := [(5, .here x)] } }
/-- The header of a route image, and zeros after it. -/
def tImage : State := tC (tR.write 64 [1, 3, 0, 0, 1]) 0x0401 [64]
theorem test_getAbove (m : List Host.Cell) (a : Nat) (h : ∀ c ∈ m, c.1 < a) : memGet m a = memDefault := by
  induction m with
  | nil => rfl
  | cons c r ih =>
    have hc := h c List.mem_cons_self
    simp only [memGet]
    rw [if_neg (by omega)]
    exact ih (fun d hd => h d (List.mem_cons_of_mem _ hd))
theorem test_zerosAbove (m : List Host.Cell) (n a : Nat) (h : ∀ c ∈ m, c.1 < a) : leNat (memGetAll m a n) = 0 := by
  induction n generalizing a with
  | zero => rfl
  | succ n ih =>
    simp [memGetAll, leNat, test_getAbove m a h, ih (a + 1) (fun c hc => Nat.lt_succ_of_lt (h c hc)), memDefault]
theorem test_imageZero (b i w : Nat) (hb : 128 ≤ b) (h : b + i * w < 2 ^ 37) : tImage.imageEntry b i w = 0 := by
  have hk : dramKey (b + i * w) = b + i * w := Nat.mod_eq_of_lt h
  have hm : tImage.mem = [(64, 1), (65, 3), (68, 1)] := by decide +kernel
  simp only [State.imageEntry, State.readNat, State.read, hk, hm]
  exact test_zerosAbove _ _ _ (by intro c hc; simp at hc; rcases hc with rfl | rfl | rfl <;> omega)
theorem test_imageB : ∀ e ∈ tImage.imageBlocks 64, entryReserved e = false ∧ tImage.entryBad 1 false e = false := by
  intro e he; obtain ⟨i, hi, rfl⟩ := List.mem_map.mp he
  rw [test_imageZero _ _ _ (by decide) (by have := List.mem_range.mp hi; omega)]; decide +kernel
theorem test_imageF : ∀ e ∈ tImage.imageFines 64 1, entryReserved e = false ∧ tImage.entryBad 1 true e = false := by
  intro e he; obtain ⟨i, hi, rfl⟩ := List.mem_map.mp he
  rw [test_imageZero _ _ _ (by decide) (by have := List.mem_range.mp hi; omega)]; decide +kernel
theorem test_imageG : ∀ e ∈ tImage.imageGroups 64 1, bit e 255 = true → bits e 132 123 = 0 := by
  intro e he; obtain ⟨i, hi, rfl⟩ := List.mem_map.mp he
  rw [test_imageZero _ _ _ (by decide) (by have := List.mem_range.mp hi; omega)]; decide +kernel
/-- The header cell of a token for expert 5: pass, step, one F32 segment of 16 elements at an offset. -/
def tTokH (pass step off : Nat) : List Byte :=
  padTo 64 (leBytes 2 5 ++ leBytes 1 pass ++ [7, 127, 0, 0, 0] ++ leBytes 2 0 ++ leBytes 2 16 ++ leBytes 4 1 ++ leBytes 4 step ++
    leBytes 4 9 ++ leBytes 2 off ++ leBytes 2 16)
/-- A token frame at the directory. -/
def tTokQ (off : Nat) : QFrame :=
  { die := 0, ing := 4, dest := .directory, stamp := 0, acct := portAcct 2 5, hanks := [],
    f := { ty := 6, vc := 5, ch := 0, dst := 0xFFFFF, src := 9, cells := tTokH 0 0 off ++ List.replicate 64 0 } }
/-- A token in assembly. -/
def tTok (pass step : Nat) : Tok := { die := 0, ing := 4, src := 9, ch := 0, hdr := tTokH pass step 0, first := 0, stamp := 0 }
/-- A run with one row. -/
def tRun : Run := { pass := 0, rows := [some (tTok 0 0)], tiles := [{ t0 := 0, toks := [tTok 0 0] }] }
/-- A run in progress in area 1. -/
def tRepR : Replica := { tRep with a1 := some { tRun with running := true } }
def tXR (rl : Nat) : Expert := { tX with d := tXd 0 rl, reps := [(0, tRepR)] }
/-- The record of its slots. -/
def tRunL : Launch := { st := .running, pat := 0, slots := [(0, 0)], entry := 0, target := 0 }
def tER (x : Expert) (l : Launch) : State := { tE x with pat := { launches := [(runKey 5 0, l)] } }
/-- Patterns for experts. -/
def tPats (s : State) : State := { s with pat := { pats := [(0, { gen := 0, off := 0, len := 96, count := 1, digest := 0 })] } }

/-- EXP_PLACE of that descriptor waits. -/
def tPlaceS : State := tC ((tPats tR).write 64 (tXd 0 0)) 0x0801 [64]
/-- A descriptor with a stash, which lies in the overflow region of die 0. -/
def tXdS : List Byte := ((tXd 1 0).set 32 1).set 113 0x20
def tPlaceD : State :=
  let s := tS (tPats tR) idOvfSize 0 (2 ^ 20)
  tC (({ s with buf := { s.buf with bases := [(0, 0x2000)] } } : State).write 64 tXdS) 0x0801 [64]

/-- A shard descriptor (Table 13-2): SGD-like optimizer 0, F32, one row of so many columns, no partner. -/
def tShB (cols : Nat) : List Byte :=
  padTo 64 ([1, 0, 0, 0, 0, 0, 1, 1] ++ leBytes 4 1 ++ leBytes 4 cols ++ leBytes 16 0 ++ leBytes 8 0x10000 ++ leBytes 4 0xFFFFF ++
    leBytes 2 0 ++ leBytes 2 1 ++ leBytes 4 4096) ++ padTo 64 [] ++ leBytes 4 0 ++ leBytes 4 cols ++ leBytes 8 0
/-- The shard of 16 elements, and one of 2,048. -/
def tSh : Shard := parseShard (tShB 16)
def tShL : Shard := { parseShard (tShB 2048) with st := .opened, ready := [{ s := 0, g := [0] }] }
/-- Shard 5 as given. -/
def tSS (x : Shard) : State := { tR with upd := { shards := [(5, x)] } }
/-- Its slice 0 has been started. -/
def tSO (x : Shard) : State := { tSS x with pwr := { dealers := [(0, { started := [.slice 5 0] })] } }
/-- Mirror entry 1: one element of 4 bytes from FID 7. -/
def tMir : Mirror := { fid := 7, handle := 3, n := 1, b := 4, slot0 := 0x1000, slot1 := 0x2000 }
/-- Four bytes per element split in one way only, so a slot of one element has 64 + 2 × 64 bytes (R383). -/
theorem test_slotLen (m : Mirror) (hn : m.n = 1) (hb : m.b = 4) : m.slotLen = 192 := by
  simp [Mirror.slotLen, Mirror.widths, hn, hb, splits, Nat.mod_one, arraysEnd, alignUp]
def tMirS : Mirror := { tMir with sealed := some (0, 0) }
/-- A slice with sums of its own has a gradient. -/
theorem test_grad (s : State) (x : Shard) (r : GradSlice) (h : r.g.isEmpty = false) (hb : r.bad = false) :
    s.gradOf x r = (s, some ((s.gradOf x r).2.getD [])) := by
  simp [State.gradOf, h, hb]
def tMS (m : Mirror) : State := { tR with upd := { mirrors := [(1, m)] } }
/-- A MIRROR frame for it: a chunk (kind 1) or a seal (kind 2) of version 0. -/
def tMQ (kind : Nat) : QFrame :=
  { die := 0, ing := 4, dest := .skein 0, stamp := 0, acct := portAcct 2 4, hanks := [],
    f := { ty := 8, vc := 4, ch := 0, dst := 0, src := 7, spec := 1 * 2 ^ 14,
           cells := if kind = 1 then padTo 64 ([1, 4, 0, 0] ++ leBytes 4 0 ++ leBytes 4 0 ++ leBytes 4 1) ++ List.replicate 64 0
                    else padTo 64 ([2, 4, 0, 0] ++ leBytes 4 0 ++ leBytes 4 0xFFFFFFFF ++ leBytes 4 0 ++ leBytes 8 0 ++ leBytes 4 1 ++ leBytes 4 1) } }
/-- A stream descriptor (Table 14-1): an operation, FABRIC with source 9 or MEMORY, batches of 16 records. -/
def tStB (op mem : Nat) : List Byte :=
  padTo 384 (padTo 128 ([1] ++ leBytes 1 op ++ [0, 0] ++ leBytes 8 0 ++ leBytes 2 16 ++ leBytes 2 0 ++ leBytes 4 256 ++
    leBytes 1 mem ++ leBytes 1 (1 - mem) ++ [0, 0] ++ leBytes 8 0x1000 ++ leBytes 4 (16 * mem) ++ leBytes 8 0x2000 ++ leBytes 4 256) ++
    leBytes 4 (9 * (1 - mem)))
def tSt : Stream := { d := tStB 1 0 }
/-- Stream 2 of die 0 as given, on a part that has Ladders. -/
def tLad (l : LadSt) : State := { tR with lad := l, sec := { grade := .a } }
def tStr (x : Stream) : State := tLad { streams := [(2, x)] }
def tGB : State := { tR with sec := { grade := .b } }

/-- A part of grade A with these domains. -/
def tDs (ds : Tab Domain) : State := { tR with sec := { grade := .a }, pwr := { doms := ds } }
/-- The same, in Turn 1. -/
def tDt (d : Domain) : State :=
  { tR with sec := { grade := .a }, pwr := { doms := [(0, d)], turn := 1 }, time := { tR.time with pip := 4096 } }
/-- All active sensors of domain 0 read 110 °C. -/
def tHot : State := { tR with pwr := { sensors := (actSensors 0).map (fun i => (i, 7040)) } }
/-- A slice waits at Dealer 0. -/
def tDeal : State := { tSS tShL with pwr := { dealers := [(0, { u := [{ work := .slice 5 0, since := 0, key := [] }] })] } }
/-- Mailbox 0 of H0 with this low half of MB_STATE, paired. -/
def tBox (v : Nat) : State := { tR with host := { tR.host with h0 := { tPort with boxes := [(0, { st := pairWord v })] } } }
def tBoxM (v : Nat) : Mailbox := { st := pairWord v }
/-- A command frame of a fabric manager of FID 7, with QUERY's header. -/
def tFab : QFrame :=
  { die := 0, ing := 4, dest := .needle, stamp := 0, acct := portAcct 2 0, hanks := [],
    f := { ty := 9, vc := 0, ch := 0, dst := 0, src := 7, spec := 0, cells := padTo 64 (leBytes 4 1) } }
/-- FID 7 may manage. -/
def tMgmt : State := tS (tS tR idMgmtFabric 0 1) idMgmtFids 0 7
/-- A commit of H0 at a pip. -/
def tCm (items : List Setting) (pip : Nat) : Commit := { id := 3, pip := pip, host := .h0, items := items, drainLead := 4096, ticket := 0 }
def tCf (c : Commit) : State := { tR with cfg := { commits := [c] } }

/-- A raised entry of a class. -/
def tRs (c : Nat) : Raised := { stamp := 0, code := 0x0101, eclass := c, tstate := 0, status := 0, source := 5, tag := 0, detail := 0 }
def tLog (l : LogSt) : State := { tR with log := l }
/-- A full log. -/
def tLogF : LogSt := { nextSeq := 1 + logSize }
/-- A check of a word of Stitch 0, started by its Dealer. -/
def tCk (third : Option Nat) : Check := { id := 0, primary := 0, tag := 0, witness := some 5, third := third }
def tCks (third : Option Nat) (power : PowerState) : State :=
  { tR with integ := { checks := [tCk third] }, tiles := [(128, { power := power })],
            pwr := { dealers := [(0, { started := [.check 0] })] } }
/-- All units of the Tallies. -/
def tTg : Targets := { map := 0, tally := 1, pipes := 0 }
/-- Two Tally items of a run over a record that converts nothing. -/
def tItem (u : Nat) : SwItem := { addr := 64, index := 0, kind := 1, unit := u }
def tRunW : SwRun := { limit := 4096, todo := [tItem 0, tItem 1] }
def tSw (r : SwRun) : State := ({ tR with integ := { run := some r } } : State).write 64 (padTo 64 [1, 0, 7, 7, 7, 0, 0, 127])
/-- The same over zeroed records, whose expected bytes and statistics are what comes out. -/
def tSwP : State := { tR with integ := { run := some tRunW } }
def tSc : SwSched := { next := 100, period := 2 ^ 24, addr := 64, len := 64, t := tTg, limit := 4096 }
def tScs (c : SwSched) (r : Option SwRun) : State := { tR with integ := { scheds := [(1, c)], run := r } }
/-- A boot state. -/
def tB (b : BootSt) : State := { tR with boot := b }
def tBp (p : Phase) : State := { tR with boot := { phase := p } }
def tSec (x : SecSt) : State := { tR with sec := x }


/-- Link 0 in CONFIG with eight agreeing ticks of each side. -/
def tCfg : Link := { state := .config, ownRun := 8, peer := { rxReady := true, agreed := 8 } }
/-- The same with the ticks it sends now. -/
def tCfgEnd : State := tL { tCfg with ownTrain := (trainWord 3 0 { (tL tCfg).trainBody 0 with rxReady := false }).toNat }

/-! ### Worked examples of the spec -/

/-- 00 (R5): 0x0123 is written as 0xFEDC_0123, and 16: MB_STATE 0x0801 as 0xF7FE_0801. -/
theorem test_pairedWord : pairWord 0x0123 = 0xFEDC0123 ∧ pairWord 0x0801 = 0xF7FE0801 := by decide

/-- 02: T = 5,000,000 with the acceptance stamp 4,998,100 has passed; with run-if-late it starts at 5,000,148. -/
theorem test_scheduled : scheduled 4998100 5000000 0 = none ∧ scheduled 4998100 5000000 1 = some 5000148 := by decide

/-- 02: the mark of the example gives d = 39 pips and θ = 3 pips, here in half-pips. -/
theorem test_markSample :
    sample { sent := 6, txStamps := [(5, 1048576)] } 1049653 (1049617 % 2 ^ 24) 5 999 0 = some (6, 78) := by decide +kernel

/-- 07: x = 1 + 2^−9 + 2^−10 narrowed to B16 with RS stays 1.0 for r = 0x9F_0000 and goes up for r = 0xA0_0000. -/
theorem test_stochasticRounding :
    [0x9F0000, 0xA00000].map (fun r => Fmt.encode .b16 (rnd .b16 (.rs r) (Fmt.decode .f32 0x3F806000)).1) = [0x3F80, 0x3F81] := by
  decide +kernel

/-- The sixteen values of 07's F4 block, the first as given. -/
def tF4 (x0 : Nat) : List (Machine.Num × Mode) :=
  ([x0, 0xC0466666, 0x3F333333, 0x40200000, 0x3E800000, 0xBF400000, 0x40A00000] ++ List.replicate 9 0).map
    (fun b => (Fmt.decode .f32 b, .rn))
/-- 07: the F4 block with its scale byte, packed elements and amax; with 12.5 in the place of 11.5 the scale is 0x81. -/
theorem test_f4Block :
    (storeBlock .f4 127 (tF4 0x41380000)).1 = 0x80 ∧
    leBytes 8 (packBits .f4 (storeBlock .f4 127 (tF4 0x41380000)).2.1) = [0xB7, 0x21, 0x90, 0x04, 0, 0, 0, 0] ∧
    (storeBlock .f4 127 (tF4 0x41380000)).2.2 = { amax := 0x41380000 } ∧
    (storeBlock .f4 127 (tF4 0x41480000)).1 = 0x81 ∧ (storeBlock .f4 127 (tF4 0x41480000)).2.1.head? = some 5 := by
  decide +kernel

/-- One element of ranks from `lo` on, as parts. -/
def tParts (lo : Nat) (l : List Nat) : List (Nat × Nat × Vals) := l.zipIdx.map (fun p => (lo + p.2, 1, [(p.1, 1)]))
/-- 08: the ordered sum of six ranks: A's part, B's part, the root's, and the same with all endpoints on one device. -/
theorem test_orderedSum :
    (node (tHdr 1) 6 (tParts 0 [0x4B800000, 0x3F800000, 0x3F800000, 0x3F800000]) 2 0).1 = some [(0x4B800001, 1)] ∧
    (node (tHdr 1) 6 (tParts 4 [0x3F800000, 0xCB800000]) 2 4).1 = some [(0xCB7FFFFF, 1)] ∧
    (node (tHdr 1) 6 [(0, 4, [(0x4B800001, 1)]), (4, 2, [(0xCB7FFFFF, 1)])] 3 0).1 = some [(0x40400000, 1)] ∧
    (node (tHdr 1) 6 (tParts 0 [0x4B800000, 0x3F800000, 0x3F800000, 0x3F800000, 0x3F800000, 0xCB800000]) 3 0).1 =
      some [(0x40400000, 1)] := by
  decide +kernel

/-- 09: the device DRAM address 0x12_3456_7880 lies on channel 169. -/
theorem test_channel : channelOf 0x1234567880 = 169 := by decide +kernel

/-- A CTRL word with a loop field: op, level, count source, loop_count, body_len. -/
def tLoopW (op n src cnt body : Nat) : BitVec 256 :=
  BitVec.ofNat 256 (op * 2 ^ 187 + n * 2 ^ 185 + src * 2 ^ 184 + cnt * 2 ^ 168 + body * 2 ^ 152)
/-- The positions after each issue of a program, with LC1 set to 0 by the word at 3. -/
def tTrace (p : List (BitVec 256)) : Nat → Slot → Nat → List Nat
  | 0, _, _ => []
  | k + 1, x, pc =>
    let x := if pc = 3 then { x with lc := x.lc.set 1 0 } else x
    let r := nextPc x (p.getD pc 0) pc
    r.2 :: tTrace p k { x with loops := r.1 } r.2
/-- 10: issues 2 to 12 of the loop example go to 3 after 2, and so on to END at 6. -/
theorem test_loops :
    tTrace [0, tLoopW 1 0 0 2 4, tLoopW 1 1 1 0 2, 0, 0, 0, 0] 11 { lc := [0, 3, 0, 0] } 1 = [2, 3, 4, 3, 4, 3, 4, 5, 2, 5, 6] := by
  decide +kernel

/-- 10: the MATRIX word of the example: its tag, K, M, and bytes 0 to 7. -/
def tMma : BitVec 256 := 0x00421880000840002000000000000000102000050006000000103FFC00000000#256
theorem test_matrixWord :
    wTag tMma = 0x42 ∧ wK tMma = 256 ∧ wM tMma = 64 ∧ leBytes 8 (tMma.toNat % 2 ^ 64) = [0, 0, 0, 0, 0xFC, 0x3F, 0x10, 0] := by
  decide +kernel

/-- The present positions of row 5 in 12's example, and its terms: 0.0625 in group 0, else 0.125. -/
def tRow5 : List Nat := List.range 24 ++ (List.range 8).map (48 + ·)
def tTerms : Terms := tRow5.map (fun p => (p, Fmt.decode .f32 (if p < 16 then 0x3D800000 else 0x3E000000), true))
/-- 12: with split_thr 16 the segments are group 0 and groups 1 to 3, and the row ends as 0x4B80_0001; unsplit as 0x4B80_0000. -/
theorem test_segments :
    rowSegs 16 16 4 tRow5 = [(0, 1), (1, 4)] ∧
    Fmt.encode .f32 (accSegs tTerms 16 (Fmt.decode .f32 0x4B800000) [(0, 1), (1, 4)]).1 = 0x4B800001 ∧
    rowSegs 0 16 4 tRow5 = [(0, 4)] ∧
    Fmt.encode .f32 (accSegs tTerms 16 (Fmt.decode .f32 0x4B800000) [(0, 4)]).1 = 0x4B800000 := by
  decide +kernel

/-- The six records of 14's example in arrival order. -/
def tRecs : List Rec :=
  [⟨0x40000000, 0xA, 1, 0⟩, ⟨0x80000000, 0xB, 0, 0⟩, ⟨0x40000000, 0xC, 1, 1⟩, ⟨0x40000000, 0xD, 0, 1⟩, ⟨0, 0xE, 0, 2⟩,
   ⟨0xBF800000, 0xF, 1, 2⟩]
/-- 14: SORT by F32 keys, descending, writes D, A, C, E, B, F; DEDUP writes D, E, B, F. -/
theorem test_sort :
    ((Stream.sort { d := [1, 1, 6] } tRecs).map (·.pay)) = [0xD, 0xA, 0xC, 0xE, 0xB, 0xF] ∧
    ((firstOfRuns (Stream.sort { d := [1, 1, 6] } tRecs)).map (·.pay)) = [0xD, 0xE, 0xB, 0xF] := by
  decide +kernel

/-- 15's Turn: SK2 measures 640 W at 97.5 °C with expert and update active and a debt, the others 600 W at 90 °C. -/
def tGrant : State :=
  let o : Domain := { pSnap := 600, tSnap := 90 * 64 }
  tDs [(0, o), (1, o),
       (2, { pSnap := 640, tSnap := 6240, acted := [clsExpert, clsUpdate], debt := [(clsExpert, 120000)] }), (3, o)]
/-- 15 (R424): the grants of the Skeins, and SK2's of expert compute, update, threads, sentinel and management. -/
theorem test_grants :
    tGrant.skGrants 3600 = [42336256, 42336256, 38666240, 42336256] ∧
    ((((tGrant.grantDomain 3600 2).dom 2).next.getD {}).energy.map (·.2)) = [18983744, 19103744, 262144, 65536, 131072] := by
  decide +kernel

/-- 17: entry 40,001 lies in slot 7,232, and LOG_CLEAR's example leaves 8,000 slots free. -/
theorem test_logSlots :
    (40001 - 1) % logSize = 7232 ∧ ({ firstSeq := 48001, nextSeq := 56385 } : LogSt).freeSlots = 8000 := by decide

/-- 18 (R504): code 9 gives ports ARMED, PCIe 6.0 and H1 as primary; codes that differ give code 0 and a strap fault. -/
def tStrap (l : List Nat) : Nat × Bool × HostId :=
  match execCastOnStrap l (tBp .strap) with
  | .next s => (s.boot.rstcfg, s.boot.strapFault, s.host.primary)
  | _ => (99, true, .h0)
theorem test_strap : tStrap [9, 9, 9, 9] = (9, false, .h1) ∧ tStrap [9, 9, 8, 9] = (0, true, .h0) := by decide +kernel

/-- A command at the front of the queue is taken, and an empty queue idles one pip. -/
theorem test_step :
    step { tR with pending := [.sbDataRead] } = exec .sbDataRead tR ∧
    (∃ t, step tR = .next t ∧ t.time.pip = tR.time.pip + 1) := ⟨rfl, _, rfl, rfl⟩

/-- The Gray code of R68. -/
theorem test_pam4 : pam4Levels [false, false, false, true, true, true, true, false] = [0, 1, 2, 3] := by decide
/-- The scrambler is additive and starts from all ones: x^31 and x^28 agree for 28 bits (R69). -/
theorem test_scrambler : scramble scrambleReset (List.replicate 29 false) = List.replicate 28 false ++ [true] := by decide +kernel
/-- A codeword of RS(144,136) has the roots of its generator (R71); a short message stands for one with zeros before it. -/
theorem test_codeword : (List.range 8).all (fun i => rsEval (gfPow i) (rsEncode false [1, 2, 1023]) == 0) = true := by decide +kernel
/-- Words go to the streams in turn, symbols of FEC-S to the two lanes of a pair (R70, Table 03-2). -/
theorem test_dealt : dealt 2 1 [[0], [1], [2], [3]] = [[1], [3]] ∧ laneSymbols true 1 [5, 6, 7, 8] = [6, 8] := by decide
/-- IDCODE of an OL20-A: stepping 1, Device ID 0x0A20 (R517, Table 16-2). -/
theorem test_idcode : ({ tR with sec := { grade := .a } } : State).idcode = 0x10A207AB#32 := by decide +kernel
/-- LASER_EN_N is driven high in reset and after it; DEV_READY low (R506, Table 18-4). -/
theorem test_pins : (State.reset.pinDrive (.laserEnN 7) = some .high) ∧ State.reset.pinDrive .devReady = some .low ∧
    State.reset.pinDrive .avsSdata = some .highZ := by decide +kernel

/-! ### Well-formedness

One term per row that the check accepts, and terms it refuses: for each check, one that breaks it alone. -/

theorem test_wellFormed_0 : ([
    .devIdentity (.mb .h0 31) 0 0, .devAttestQuote (.mb .h0 31) 0, .devMeasureLog (.mb .h0 31) 0 0,
    .fwSlotWrite (.mb .h0 31) 0 0 0 0 [], .fwSlotSelect (.mb .h0 31) 0, .devReset (.mb .h0 31) 0 0, .devResetBegin,
    .debugChallenge (.mb .h0 31) 0, .debugUnlock (.mb .h0 31) 0 (List.replicate 97 0) (List.replicate 96 0),
    .cfgStage (.mb .h0 31) [], .cfgStageClear (.mb .h0 31), .cfgCommitAt (.mb .h0 31) 0 0 0, .cfgCancel (.mb .h0 31) 0,
    .cfgRead (.mb .h0 31) 0 0, .cfgStatus (.mb .h0 31), .cfgFreezeBegin 0, .linkDrainBegin 0, .cfgCommitApply,
    .portStatus (.mb .h0 31) 0 0, .portCounters (.mb .h0 31) 0 0 0, .portProfileRead (.mb .h0 31) 0 0,
    .portRetrain (.mb .h0 31) 0 0, .portSpareSwap (.mb .h0 31) 0 0 0, .portSpareFuse (.mb .h0 31) 0 0 0,
    .portBufStatus (.mb .h0 31) 0 0, .portBufCounters (.mb .h0 31) 0 0, .portMeterRead (.mb .h0 31) 0 0 0 0,
    .portSchedRead (.mb .h0 31) 0 0 0, .arbStatus (.mb .h0 31) 0 0 0 0, .routeLoad (.mb .h0 31) 0, .routeLoadComplete,
    .routeCheck (.mb .h0 31) 0 0, .routeCheckComplete, .routeStatus (.mb .h0 31), .routeLookup (.mb .h0 31) 0 0 0 0 0 0 0 0,
    .routeCounters (.mb .h0 31) 0 0, .collGroupCreate (.mb .h0 31) 0 0, .collGroupDestroy (.mb .h0 31) 0,
    .collGroupStatus (.mb .h0 31) 0 0, .collStragglers (.mb .h0 31) 0, .collCounters (.mb .h0 31) 0 0,
    .collAbort (.mb .h0 31) 0 0, .patLoad (.mb .h0 31) 0 0, .patUnload (.mb .h0 31) 0,
    .patLaunchAt (.mb .h0 31) { launch := 0, pat := 0, map := 0, slotsPer := 0, entry := 0, target := 0, late := 0, group := 0, runLimit := 0, optStep := 0, step := 0, arg0 := 0, arg1 := 0 },
    .patStatus (.mb .h0 31) 0, .patAbort (.mb .h0 31) 0, .patFaultRead (.mb .h0 31) 0 0 0,
    .patTraceSet (.mb .h0 31) 0 0 0 0 0 0 0, .predLayerSet (.mb .h0 31) 0 0 0, .predLayerClear (.mb .h0 31) 0 0,
    .predLayerStatus (.mb .h0 31) 0 0 0, .descLoad (.mb .h0 31) 0 0 0, .descRead (.mb .h0 31) 0, .descClear (.mb .h0 31) 0 0,
    .ladStreamCreate (.mb .h0 31) 0 0 0, .ladStreamDestroy (.mb .h0 31) 0 0, .ladFlush (.mb .h0 31) 0 0,
    .ladStreamStatus (.mb .h0 31) 0 0, .ladCounters (.mb .h0 31) 0 0, .expPlace (.mb .h0 31) 0, .expRemove (.mb .h0 31) 0,
    .expReplicaAdd (.mb .h0 31) 0 0 0, .expReplicaDrop (.mb .h0 31) 0 0, .expRemoteSet (.mb .h0 31) 0 0 0 0 0 0,
    .expMaskSet (.mb .h0 31) 0 0 0, .expStepSet (.mb .h0 31) 0 0, .expGradClose (.mb .h0 31) 0 0, .expStatus (.mb .h0 31) 0 0,
    .expCounters (.mb .h0 31) 0 0, .expResume (.mb .h0 31) 0 0, .updShardCreate (.mb .h0 31) 0 0 0 0 0,
    .updShardDestroy (.mb .h0 31) 0, .updApply (.mb .h0 31) 0 0 0, .updParamsSet (.mb .h0 31) 0 0 (List.replicate 32 0),
    .updShardStatus (.mb .h0 31) 0 0] : List Instr).all wellFormed = true := by decide +kernel

theorem test_wellFormed_1 : ([
    .updShardRebind (.mb .h0 31) 0 0 0, .updShardRestore (.mb .h0 31) 0 0, .updCommitForce (.mb .h0 31) 0 0,
    .updCopyAdd (.mb .h0 31) 0 (List.replicate 16 0), .updCopyDrop (.mb .h0 31) 0 0, .updMirrorCreate (.mb .h0 31) 0 0 0 0 0 0 0,
    .updMirrorBind (.mb .h0 31) 0 0 0, .updMirrorDestroy (.mb .h0 31) 0, .updMirrorStatus (.mb .h0 31) 0,
    .updCounters (.mb .h0 31) 0 0, .pwrEnvelopeSet (.mb .h0 31) 0, .pwrStatus (.mb .h0 31) 0, .pwrTelemetry (.mb .h0 31),
    .pwrStitchState (.mb .h0 31) 0 0, .pwrCounters (.mb .h0 31) 0 0, .logStatus (.mb .h0 31), .logMark (.mb .h0 31) 0,
    .logClear (.mb .h0 31) 0, .logPolicy (.mb .h0 31) 0, .sentStatus (.mb .h0 31) 0 0,
    .sentSet (.mb .h0 31) { mask := 0, enable := 0, k := 0, offset := 0, derateAt := 0, retireAt := 0, derateMax := 0, fuse := 0, clear := 0 },
    .stitchRetire (.mb .h0 31) 0 0 0, .swatchRun (.mb .h0 31) 0 0 { map := 0, tally := 0, pipes := 0 } 0,
    .swatchScheduleAt (.mb .h0 31) 0 0 0 0 0 0 0 { map := 0, tally := 0, pipes := 0 } 0, .swatchStatus (.mb .h0 31) 0,
    .fuseLedgerRead (.mb .h0 31), .fuseRollbackAdvance (.mb .h0 31) 0, .fuseStitchRetire (.mb .h0 31) 0 0,
    .fuseKeyRevoke (.mb .h0 31) 0, .hostClaim (.mb .h0 31) 0 0, .hostRelease (.mb .h0 31) 0, .hostStatus (.mb .h0 31),
    .hostRoleSwap (.mb .h0 31), .mbStateWrite .h0 0 0, .mailboxCmdWrite .h0 0 0 [], .pipRead .h0 0, .bar2Read .h0 0 0,
    .bar2Write .h0 0 [], .spadRetainWrite 0 0, .registerWrite (.ctl 0) [], .sbDataRead, .sbWindowWrite 0, .smbusAlertResponse,
    .hostLinkTrain .h0 0 0, .perstAssert .h0, .failoverWaitExpiry, .watchdogExpiry, .mgmtRequest 0, .mgmtResponse 0,
    .frameReceive 0 0 [] 0, .profileFrame 0, .dataFrame 0 0, .readReq 0 0, .readRsp 0, .errCompl 0, .addI32 0, .addI64 0,
    .addF32 0, .addF32x8 0, .maxI32 0, .minI32 0, .maxF32 0, .minF32 0, .and64 0, .or64 0, .xor64 0, .swap64 0, .cas64 0,
    .signalFlag 0, .signalCnt 0, .contrib 0, .partialFrame 0, .resultFrame 0, .doneFrame 0, .failFrame 0, .errorFrame 0] : List Instr).all wellFormed = true := by decide +kernel

theorem test_wellFormed_2 : ([
    .tallyAdmit 0, .collTimeout 0 0, .collBackstopTimeout 0 0, .token 0, .tokenRes 0, .asmLimitExpiry 0 0 0 0, .tokenNotice 0,
    .tileWaitExpiry 0 0, .runLoad 0 0 0, .runStart 0 0 0, .runEnd 0 0, .runLimitExpiry 0 0, .bwdLimitExpiry 0, .mirrorData 0,
    .mirrorSeal 0, .updateOpen 0, .pipeSlice 0, .mirrorChunkSend 0, .mirrorTimeout 0 0, .rubCommitTimeout 0 0,
    .ladderBatchDeadline 0 0, .ladderBatchLoad 0, .ladderBatchOutput 0 0, .pipMark 0 0, .pipMarkSend 0, .holdoverEnter,
    .credit 0 0, .ack 0 0, .nak 0 0, .skip 0 0, .laneSwapReq 0 0, .laneSwapDone 0 0, .barrier 0 0, .train 0 0 true 0,
    .retrainReq 0 0, .goingDark 0 0, .narrow 0 0, .idle 0 0, .reservedTick 0 0, .alignmentMarker 0 (List.replicate 32 0) 0,
    .alignmentMarkerSend 0, .ackSend 0, .creditSend 0, .egressFrameStart 0, .cutThroughUnderrun 0, .replayTimeout 0,
    .linkHoldExpiry 0 0 0, .trainingLimitExpiry 0, .trainingRestart 0, .laneSignalLoss 0 0, .laneBerWindow 0 0 0 0,
    .swapRefusedTimeout 0, .lostLaneHoldExpiry 0, .profileSend 0, .profileLoss 0, .laserReady 0 (List.replicate 5 true),
    .overflowSpill 0 0 0, .overflowReadback 0 0 0, .multicastReplica 0, .arbiterDecide 0 0 0 [], .bridgeFlitRetry 0 0,
    .launchStart 0, .barrierStart 0, .barrierRootTimeout 0, .barrierMemberTimeout 0, .launchRunLimit 0, .ctrl 0 0, .mma 0 0,
    .mmaZero 0 0, .loadAcc 0 0, .drain 0 0, .predict 0 0, .maskN 0 0, .maskK 0 0, .vectorFma 0 0, .vectorAdd 0 0] : List Instr).all wellFormed = true := by decide +kernel

theorem test_wellFormed_3 : ([
    .vectorMul 0 0, .vectorMax 0 0, .vectorMin 0 0, .vectorCmpEq 0 0, .vectorCmpLt 0 0, .vectorCmpLe 0 0, .vectorAnd 0 0,
    .vectorOr 0 0, .vectorXor 0 0, .vectorCvt 0 0, .dma 0 0, .copy 0 0, .gather 0 0, .memAtomic 0 0, .sigRemote 0 0,
    .agsetBase 0 0, .agsetStride 0 0, .agsetAdd 0 0, .cmpSet 0 0, .cmpAdd 0 0, .lcSet 0 0, .cntWrite 0 0, .testWord 0 0,
    .predSet 0 0, .descWord 0 0, .endWord 0 0, .operationComplete 0 0, .farTimeout 0 0, .icacheFill 0 0, .bankWake 0 0,
    .bankRetentionEntry 0 0, .stitchHoldEntry 0, .stitchWake 0, .turnBoundary, .grantCompute, .telemetryRead 0 0 0 true,
    .sensorSample (List.replicate 352 (0, true)), .telemRefresh, .clockStep 0, .voltageRegulated 0, .voltageRaiseTimeout 0,
    .thermalEmergency 0, .emergencyExit 0, .dealerDecide 0, .witnessCheck 0 true, .sentinelTiebreak 0 true true, .suspectDecay,
    .swatchOccurrence 0, .swatchRunLimit, .patrolScrub 0, .correctableWindow, .logEntryWrite, .logSuppressEnd 0 0,
    .powerOnReset 0 0, .resetN 0, .thermalTrip 0 0, .thermalTripRelease, .extestExit, .castOnStrap (List.replicate 4 0),
    .castOnFuses true, .castOnRom true true, .castOnVerify, .castOnDram true, .castOnBridges true, .castOnSkeins [],
    .castOnLasers (List.replicate 40 true), .castOnLinks, .castOnProfile, .castOnReady, .barrierArrive 0, .swatchRecord 0 0,
    .hostLinkDown .h0, .resetEnd 2 0, .standbyRestart true, .dramRefresh 0] : List Instr).all wellFormed = true := by decide +kernel

theorem test_illFormed_0 : ([
    .devIdentity (.mb .h1 32) 0 0, .devIdentity (.fab (2 ^ 20) 0) 0 0, .devIdentity (.fab 0 (2 ^ 16)) 0 0,
    .devIdentity (.mb .h0 31) (2 ^ 8) 0, .devIdentity (.mb .h0 31) 0 (2 ^ 32), .devAttestQuote (.mb .h0 32) 0,
    .devMeasureLog (.mb .h0 32) 0 0, .devMeasureLog (.mb .h0 31) (2 ^ 16) 0, .devMeasureLog (.mb .h0 31) 0 (2 ^ 8),
    .fwSlotWrite (.mb .h0 32) 0 0 0 0 [], .fwSlotWrite (.mb .h0 31) (2 ^ 8) 0 0 0 [], .fwSlotWrite (.mb .h0 31) 0 (2 ^ 8) 0 0 [],
    .fwSlotWrite (.mb .h0 31) 0 0 (2 ^ 32) 0 [], .fwSlotWrite (.mb .h0 31) 0 0 0 (2 ^ 64) [],
    .fwSlotWrite (.mb .h0 31) 0 0 0 1 [], .fwSlotSelect (.mb .h0 32) 0, .fwSlotSelect (.mb .h0 31) (2 ^ 8),
    .devReset (.mb .h0 32) 0 0, .devReset (.mb .h0 31) (2 ^ 8) 0, .devReset (.mb .h0 31) 0 (2 ^ 16),
    .debugChallenge (.mb .h0 32) 0, .debugChallenge (.mb .h0 31) (2 ^ 8),
    .debugUnlock (.mb .h0 32) 0 (List.replicate 97 0) (List.replicate 96 0),
    .debugUnlock (.mb .h0 31) (2 ^ 8) (List.replicate 97 0) (List.replicate 96 0),
    .debugUnlock (.mb .h0 31) 0 [] (List.replicate 96 0), .debugUnlock (.mb .h0 31) 0 (List.replicate 97 0) [],
    .cfgStage (.mb .h0 32) [], .cfgStage (.mb .h0 31) [{ id := 2 ^ 16, rsv := 0, scope := 0, val := 0 }],
    .cfgStage (.mb .h0 31) [{ id := 0, rsv := 2 ^ 16, scope := 0, val := 0 }],
    .cfgStage (.mb .h0 31) [{ id := 0, rsv := 0, scope := 2 ^ 32, val := 0 }],
    .cfgStage (.mb .h0 31) [{ id := 0, rsv := 0, scope := 0, val := 2 ^ 64 }],
    .cfgStage (.mb .h0 31) (List.replicate 256 { id := 0, rsv := 0, scope := 0, val := 0 }), .cfgStageClear (.mb .h0 32),
    .cfgCommitAt (.mb .h0 32) 0 0 0, .cfgCommitAt (.mb .h0 31) (2 ^ 64) 0 0, .cfgCommitAt (.mb .h0 31) 0 (2 ^ 8) 0,
    .cfgCommitAt (.mb .h0 31) 0 0 (2 ^ 32), .cfgCancel (.mb .h0 32) 0, .cfgCancel (.mb .h0 31) (2 ^ 8),
    .cfgRead (.mb .h0 32) 0 0, .cfgRead (.mb .h0 31) (2 ^ 16) 0, .cfgRead (.mb .h0 31) 0 (2 ^ 32), .cfgStatus (.mb .h0 32),
    .cfgFreezeBegin 256, .linkDrainBegin 256, .portStatus (.mb .h0 32) 0 0, .portStatus (.mb .h0 31) (2 ^ 8) 0,
    .portStatus (.mb .h0 31) 0 (2 ^ 8), .portCounters (.mb .h0 32) 0 0 0, .portCounters (.mb .h0 31) (2 ^ 8) 0 0,
    .portCounters (.mb .h0 31) 0 (2 ^ 8) 0, .portCounters (.mb .h0 31) 0 0 (2 ^ 8), .portProfileRead (.mb .h0 32) 0 0,
    .portProfileRead (.mb .h0 31) (2 ^ 8) 0, .portProfileRead (.mb .h0 31) 0 (2 ^ 8), .portRetrain (.mb .h0 32) 0 0,
    .portRetrain (.mb .h0 31) (2 ^ 8) 0, .portRetrain (.mb .h0 31) 0 (2 ^ 8), .portSpareSwap (.mb .h0 32) 0 0 0,
    .portSpareSwap (.mb .h0 31) (2 ^ 8) 0 0, .portSpareSwap (.mb .h0 31) 0 (2 ^ 8) 0, .portSpareSwap (.mb .h0 31) 0 0 (2 ^ 8),
    .portSpareFuse (.mb .h0 32) 0 0 0, .portSpareFuse (.mb .h0 31) (2 ^ 8) 0 0, .portSpareFuse (.mb .h0 31) 0 (2 ^ 8) 0,
    .portSpareFuse (.mb .h0 31) 0 0 (2 ^ 8), .portBufStatus (.mb .h0 32) 0 0, .portBufStatus (.mb .h0 31) (2 ^ 8) 0,
    .portBufStatus (.mb .h0 31) 0 (2 ^ 32), .portBufCounters (.mb .h0 32) 0 0, .portBufCounters (.mb .h0 31) (2 ^ 8) 0,
    .portBufCounters (.mb .h0 31) 0 (2 ^ 8), .portMeterRead (.mb .h0 32) 0 0 0 0, .portMeterRead (.mb .h0 31) (2 ^ 8) 0 0 0,
    .portMeterRead (.mb .h0 31) 0 (2 ^ 8) 0 0, .portMeterRead (.mb .h0 31) 0 0 (2 ^ 8) 0,
    .portMeterRead (.mb .h0 31) 0 0 0 (2 ^ 8), .portSchedRead (.mb .h0 32) 0 0 0, .portSchedRead (.mb .h0 31) (2 ^ 8) 0 0,
    .portSchedRead (.mb .h0 31) 0 (2 ^ 8) 0, .portSchedRead (.mb .h0 31) 0 0 (2 ^ 8), .arbStatus (.mb .h0 32) 0 0 0 0,
    .arbStatus (.mb .h0 31) (2 ^ 8) 0 0 0, .arbStatus (.mb .h0 31) 0 (2 ^ 8) 0 0, .arbStatus (.mb .h0 31) 0 0 (2 ^ 8) 0,
    .arbStatus (.mb .h0 31) 0 0 0 (2 ^ 8), .routeLoad (.mb .h0 32) 0, .routeLoad (.mb .h0 31) (2 ^ 64),
    .routeCheck (.mb .h0 32) 0 0, .routeCheck (.mb .h0 31) (2 ^ 64) 0] : List Instr).any wellFormed = false := by decide +kernel

theorem test_illFormed_1 : ([
    .routeCheck (.mb .h0 31) 0 (2 ^ 64), .routeStatus (.mb .h0 32), .routeLookup (.mb .h0 32) 0 0 0 0 0 0 0 0,
    .routeLookup (.mb .h0 31) (2 ^ 8) 0 0 0 0 0 0 0, .routeLookup (.mb .h0 31) 0 (2 ^ 32) 0 0 0 0 0 0,
    .routeLookup (.mb .h0 31) 0 0 (2 ^ 32) 0 0 0 0 0, .routeLookup (.mb .h0 31) 0 0 0 (2 ^ 8) 0 0 0 0,
    .routeLookup (.mb .h0 31) 0 0 0 0 (2 ^ 8) 0 0 0, .routeLookup (.mb .h0 31) 0 0 0 0 0 (2 ^ 8) 0 0,
    .routeLookup (.mb .h0 31) 0 0 0 0 0 0 (2 ^ 8) 0, .routeLookup (.mb .h0 31) 0 0 0 0 0 0 0 (2 ^ 8),
    .routeCounters (.mb .h0 32) 0 0, .routeCounters (.mb .h0 31) (2 ^ 8) 0, .routeCounters (.mb .h0 31) 0 (2 ^ 8),
    .collGroupCreate (.mb .h0 32) 0 0, .collGroupCreate (.mb .h0 31) (2 ^ 64) 0, .collGroupCreate (.mb .h0 31) 0 (2 ^ 64),
    .collGroupDestroy (.mb .h0 32) 0, .collGroupDestroy (.mb .h0 31) (2 ^ 16), .collGroupStatus (.mb .h0 32) 0 0,
    .collGroupStatus (.mb .h0 31) (2 ^ 16) 0, .collGroupStatus (.mb .h0 31) 0 (2 ^ 8), .collStragglers (.mb .h0 32) 0,
    .collStragglers (.mb .h0 31) (2 ^ 16), .collCounters (.mb .h0 32) 0 0, .collCounters (.mb .h0 31) (2 ^ 8) 0,
    .collCounters (.mb .h0 31) 0 (2 ^ 8), .collAbort (.mb .h0 32) 0 0, .collAbort (.mb .h0 31) (2 ^ 16) 0,
    .collAbort (.mb .h0 31) 0 (2 ^ 32), .patLoad (.mb .h0 32) 0 0, .patLoad (.mb .h0 31) (2 ^ 64) 0,
    .patLoad (.mb .h0 31) 0 (2 ^ 64), .patUnload (.mb .h0 32) 0, .patUnload (.mb .h0 31) (2 ^ 8),
    .patLaunchAt (.mb .h0 32) { launch := 0, pat := 0, map := 0, slotsPer := 0, entry := 0, target := 0, late := 0, group := 0, runLimit := 0, optStep := 0, step := 0, arg0 := 0, arg1 := 0 },
    .patLaunchAt (.mb .h0 31) { launch := 2 ^ 16, pat := 0, map := 0, slotsPer := 0, entry := 0, target := 0, late := 0, group := 0, runLimit := 0, optStep := 0, step := 0, arg0 := 0, arg1 := 0 },
    .patLaunchAt (.mb .h0 31) { launch := 0, pat := 2 ^ 8, map := 0, slotsPer := 0, entry := 0, target := 0, late := 0, group := 0, runLimit := 0, optStep := 0, step := 0, arg0 := 0, arg1 := 0 },
    .patLaunchAt (.mb .h0 31) { launch := 0, pat := 0, map := 2 ^ 64, slotsPer := 0, entry := 0, target := 0, late := 0, group := 0, runLimit := 0, optStep := 0, step := 0, arg0 := 0, arg1 := 0 },
    .patLaunchAt (.mb .h0 31) { launch := 0, pat := 0, map := 0, slotsPer := 2 ^ 8, entry := 0, target := 0, late := 0, group := 0, runLimit := 0, optStep := 0, step := 0, arg0 := 0, arg1 := 0 },
    .patLaunchAt (.mb .h0 31) { launch := 0, pat := 0, map := 0, slotsPer := 0, entry := 2 ^ 16, target := 0, late := 0, group := 0, runLimit := 0, optStep := 0, step := 0, arg0 := 0, arg1 := 0 },
    .patLaunchAt (.mb .h0 31) { launch := 0, pat := 0, map := 0, slotsPer := 0, entry := 0, target := 2 ^ 64, late := 0, group := 0, runLimit := 0, optStep := 0, step := 0, arg0 := 0, arg1 := 0 },
    .patLaunchAt (.mb .h0 31) { launch := 0, pat := 0, map := 0, slotsPer := 0, entry := 0, target := 0, late := 2 ^ 8, group := 0, runLimit := 0, optStep := 0, step := 0, arg0 := 0, arg1 := 0 },
    .patLaunchAt (.mb .h0 31) { launch := 0, pat := 0, map := 0, slotsPer := 0, entry := 0, target := 0, late := 0, group := 2 ^ 16, runLimit := 0, optStep := 0, step := 0, arg0 := 0, arg1 := 0 },
    .patLaunchAt (.mb .h0 31) { launch := 0, pat := 0, map := 0, slotsPer := 0, entry := 0, target := 0, late := 0, group := 0, runLimit := 2 ^ 64, optStep := 0, step := 0, arg0 := 0, arg1 := 0 },
    .patLaunchAt (.mb .h0 31) { launch := 0, pat := 0, map := 0, slotsPer := 0, entry := 0, target := 0, late := 0, group := 0, runLimit := 0, optStep := 2 ^ 8, step := 0, arg0 := 0, arg1 := 0 },
    .patLaunchAt (.mb .h0 31) { launch := 0, pat := 0, map := 0, slotsPer := 0, entry := 0, target := 0, late := 0, group := 0, runLimit := 0, optStep := 0, step := 2 ^ 32, arg0 := 0, arg1 := 0 },
    .patLaunchAt (.mb .h0 31) { launch := 0, pat := 0, map := 0, slotsPer := 0, entry := 0, target := 0, late := 0, group := 0, runLimit := 0, optStep := 0, step := 0, arg0 := 2 ^ 32, arg1 := 0 },
    .patLaunchAt (.mb .h0 31) { launch := 0, pat := 0, map := 0, slotsPer := 0, entry := 0, target := 0, late := 0, group := 0, runLimit := 0, optStep := 0, step := 0, arg0 := 0, arg1 := 2 ^ 32 },
    .patStatus (.mb .h0 32) 0, .patStatus (.mb .h0 31) (2 ^ 16), .patAbort (.mb .h0 32) 0, .patAbort (.mb .h0 31) (2 ^ 16),
    .patFaultRead (.mb .h0 32) 0 0 0, .patFaultRead (.mb .h0 31) (2 ^ 8) 0 0, .patFaultRead (.mb .h0 31) 0 (2 ^ 8) 0,
    .patFaultRead (.mb .h0 31) 0 0 (2 ^ 8), .patTraceSet (.mb .h0 32) 0 0 0 0 0 0 0,
    .patTraceSet (.mb .h0 31) (2 ^ 8) 0 0 0 0 0 0, .patTraceSet (.mb .h0 31) 0 (2 ^ 16) 0 0 0 0 0,
    .patTraceSet (.mb .h0 31) 0 0 (2 ^ 16) 0 0 0 0, .patTraceSet (.mb .h0 31) 0 0 0 (2 ^ 8) 0 0 0,
    .patTraceSet (.mb .h0 31) 0 0 0 0 (2 ^ 64) 0 0, .patTraceSet (.mb .h0 31) 0 0 0 0 0 (2 ^ 64) 0,
    .patTraceSet (.mb .h0 31) 0 0 0 0 0 0 (2 ^ 8), .predLayerSet (.mb .h0 32) 0 0 0, .predLayerSet (.mb .h0 31) (2 ^ 8) 0 0,
    .predLayerSet (.mb .h0 31) 0 (2 ^ 8) 0, .predLayerSet (.mb .h0 31) 0 0 (2 ^ 64), .predLayerClear (.mb .h0 32) 0 0,
    .predLayerClear (.mb .h0 31) (2 ^ 8) 0, .predLayerClear (.mb .h0 31) 0 (2 ^ 8), .predLayerStatus (.mb .h0 32) 0 0 0,
    .predLayerStatus (.mb .h0 31) (2 ^ 8) 0 0, .predLayerStatus (.mb .h0 31) 0 (2 ^ 8) 0,
    .predLayerStatus (.mb .h0 31) 0 0 (2 ^ 8), .descLoad (.mb .h0 32) 0 0 0, .descLoad (.mb .h0 31) (2 ^ 16) 0 0,
    .descLoad (.mb .h0 31) 0 (2 ^ 16) 0, .descLoad (.mb .h0 31) 0 0 (2 ^ 64), .descRead (.mb .h0 32) 0,
    .descRead (.mb .h0 31) (2 ^ 16), .descClear (.mb .h0 32) 0 0, .descClear (.mb .h0 31) (2 ^ 16) 0,
    .descClear (.mb .h0 31) 0 (2 ^ 16), .ladStreamCreate (.mb .h0 32) 0 0 0, .ladStreamCreate (.mb .h0 31) (2 ^ 8) 0 0,
    .ladStreamCreate (.mb .h0 31) 0 (2 ^ 8) 0, .ladStreamCreate (.mb .h0 31) 0 0 (2 ^ 64), .ladStreamDestroy (.mb .h0 32) 0 0] : List Instr).any wellFormed = false := by decide +kernel

theorem test_illFormed_2 : ([
    .ladStreamDestroy (.mb .h0 31) (2 ^ 8) 0, .ladStreamDestroy (.mb .h0 31) 0 (2 ^ 8), .ladFlush (.mb .h0 32) 0 0,
    .ladFlush (.mb .h0 31) (2 ^ 8) 0, .ladFlush (.mb .h0 31) 0 (2 ^ 8), .ladStreamStatus (.mb .h0 32) 0 0,
    .ladStreamStatus (.mb .h0 31) (2 ^ 8) 0, .ladStreamStatus (.mb .h0 31) 0 (2 ^ 8), .ladCounters (.mb .h0 32) 0 0,
    .ladCounters (.mb .h0 31) (2 ^ 8) 0, .ladCounters (.mb .h0 31) 0 (2 ^ 8), .expPlace (.mb .h1 32) 0,
    .expPlace (.fab (2 ^ 20) 0) 0, .expPlace (.fab 0 (2 ^ 16)) 0, .expPlace (.mb .h0 31) (2 ^ 64), .expRemove (.mb .h0 32) 0,
    .expRemove (.mb .h0 31) (2 ^ 16), .expReplicaAdd (.mb .h0 32) 0 0 0, .expReplicaAdd (.mb .h0 31) (2 ^ 16) 0 0,
    .expReplicaAdd (.mb .h0 31) 0 (2 ^ 64) 0, .expReplicaAdd (.mb .h0 31) 0 0 (2 ^ 16), .expReplicaDrop (.mb .h0 32) 0 0,
    .expReplicaDrop (.mb .h0 31) (2 ^ 16) 0, .expReplicaDrop (.mb .h0 31) 0 (2 ^ 8), .expRemoteSet (.mb .h0 32) 0 0 0 0 0 0,
    .expRemoteSet (.mb .h0 31) (2 ^ 8) 0 0 0 0 0, .expRemoteSet (.mb .h0 31) 0 (2 ^ 8) 0 0 0 0,
    .expRemoteSet (.mb .h0 31) 0 0 (2 ^ 16) 0 0 0, .expRemoteSet (.mb .h0 31) 0 0 0 (2 ^ 16) 0 0,
    .expRemoteSet (.mb .h0 31) 0 0 0 0 (2 ^ 32) 0, .expRemoteSet (.mb .h0 31) 0 0 0 0 0 (2 ^ 8), .expMaskSet (.mb .h0 32) 0 0 0,
    .expMaskSet (.mb .h0 31) (2 ^ 16) 0 0, .expMaskSet (.mb .h0 31) 0 (2 ^ 8) 0, .expMaskSet (.mb .h0 31) 0 0 (2 ^ 64),
    .expStepSet (.mb .h0 32) 0 0, .expStepSet (.mb .h0 31) (2 ^ 16) 0, .expStepSet (.mb .h0 31) 0 (2 ^ 32),
    .expGradClose (.mb .h0 32) 0 0, .expGradClose (.mb .h0 31) (2 ^ 16) 0, .expGradClose (.mb .h0 31) 0 (2 ^ 32),
    .expStatus (.mb .h0 32) 0 0, .expStatus (.mb .h0 31) (2 ^ 16) 0, .expStatus (.mb .h0 31) 0 (2 ^ 8),
    .expCounters (.mb .h0 32) 0 0, .expCounters (.mb .h0 31) (2 ^ 8) 0, .expCounters (.mb .h0 31) 0 (2 ^ 8),
    .expResume (.mb .h0 32) 0 0, .expResume (.mb .h0 31) (2 ^ 16) 0, .expResume (.mb .h0 31) 0 (2 ^ 8),
    .updShardCreate (.mb .h0 32) 0 0 0 0 0, .updShardCreate (.mb .h0 31) (2 ^ 16) 0 0 0 0,
    .updShardCreate (.mb .h0 31) 0 (2 ^ 64) 0 0 0, .updShardCreate (.mb .h0 31) 0 0 (2 ^ 64) 0 0,
    .updShardCreate (.mb .h0 31) 0 0 0 (2 ^ 8) 0, .updShardCreate (.mb .h0 31) 0 0 0 0 (2 ^ 64), .updShardDestroy (.mb .h0 32) 0,
    .updShardDestroy (.mb .h0 31) (2 ^ 16), .updApply (.mb .h0 32) 0 0 0, .updApply (.mb .h0 31) (2 ^ 16) 0 0,
    .updApply (.mb .h0 31) 0 (2 ^ 64) 0, .updApply (.mb .h0 31) 0 0 (2 ^ 32),
    .updParamsSet (.mb .h0 32) 0 0 (List.replicate 32 0), .updParamsSet (.mb .h0 31) (2 ^ 16) 0 (List.replicate 32 0),
    .updParamsSet (.mb .h0 31) 0 (2 ^ 32) (List.replicate 32 0), .updParamsSet (.mb .h0 31) 0 0 [],
    .updShardStatus (.mb .h0 32) 0 0, .updShardStatus (.mb .h0 31) (2 ^ 16) 0, .updShardStatus (.mb .h0 31) 0 (2 ^ 8),
    .updShardRebind (.mb .h0 32) 0 0 0, .updShardRebind (.mb .h0 31) (2 ^ 16) 0 0, .updShardRebind (.mb .h0 31) 0 (2 ^ 32) 0,
    .updShardRebind (.mb .h0 31) 0 0 (2 ^ 16), .updShardRestore (.mb .h0 32) 0 0, .updShardRestore (.mb .h0 31) (2 ^ 16) 0,
    .updShardRestore (.mb .h0 31) 0 (2 ^ 64), .updCommitForce (.mb .h0 32) 0 0, .updCommitForce (.mb .h0 31) (2 ^ 16) 0,
    .updCommitForce (.mb .h0 31) 0 (2 ^ 32), .updCopyAdd (.mb .h0 32) 0 (List.replicate 16 0),
    .updCopyAdd (.mb .h0 31) (2 ^ 16) (List.replicate 16 0), .updCopyAdd (.mb .h0 31) 0 [], .updCopyDrop (.mb .h0 32) 0 0,
    .updCopyDrop (.mb .h0 31) (2 ^ 16) 0, .updCopyDrop (.mb .h0 31) 0 (2 ^ 8), .updMirrorCreate (.mb .h0 32) 0 0 0 0 0 0 0,
    .updMirrorCreate (.mb .h0 31) (2 ^ 16) 0 0 0 0 0 0, .updMirrorCreate (.mb .h0 31) 0 (2 ^ 32) 0 0 0 0 0,
    .updMirrorCreate (.mb .h0 31) 0 0 (2 ^ 16) 0 0 0 0, .updMirrorCreate (.mb .h0 31) 0 0 0 (2 ^ 32) 0 0 0] : List Instr).any wellFormed = false := by decide +kernel

theorem test_illFormed_3 : ([
    .updMirrorCreate (.mb .h0 31) 0 0 0 0 (2 ^ 8) 0 0, .updMirrorCreate (.mb .h0 31) 0 0 0 0 0 (2 ^ 64) 0,
    .updMirrorCreate (.mb .h0 31) 0 0 0 0 0 0 (2 ^ 64), .updMirrorBind (.mb .h0 32) 0 0 0,
    .updMirrorBind (.mb .h0 31) (2 ^ 16) 0 0, .updMirrorBind (.mb .h0 31) 0 (2 ^ 32) 0, .updMirrorBind (.mb .h0 31) 0 0 (2 ^ 16),
    .updMirrorDestroy (.mb .h0 32) 0, .updMirrorDestroy (.mb .h0 31) (2 ^ 16), .updMirrorStatus (.mb .h0 32) 0,
    .updMirrorStatus (.mb .h0 31) (2 ^ 16), .updCounters (.mb .h0 32) 0 0, .updCounters (.mb .h0 31) (2 ^ 8) 0,
    .updCounters (.mb .h0 31) 0 (2 ^ 8), .pwrEnvelopeSet (.mb .h0 32) 0, .pwrEnvelopeSet (.mb .h0 31) (2 ^ 32),
    .pwrStatus (.mb .h0 32) 0, .pwrStatus (.mb .h0 31) (2 ^ 8), .pwrTelemetry (.mb .h0 32), .pwrStitchState (.mb .h0 32) 0 0,
    .pwrStitchState (.mb .h0 31) (2 ^ 64) 0, .pwrStitchState (.mb .h0 31) 0 (2 ^ 8), .pwrCounters (.mb .h0 32) 0 0,
    .pwrCounters (.mb .h0 31) (2 ^ 8) 0, .pwrCounters (.mb .h0 31) 0 (2 ^ 8), .logStatus (.mb .h1 32),
    .logStatus (.fab (2 ^ 20) 0), .logStatus (.fab 0 (2 ^ 16)), .logMark (.mb .h0 32) 0, .logMark (.mb .h0 31) (2 ^ 64),
    .logClear (.mb .h0 32) 0, .logClear (.mb .h0 31) (2 ^ 32), .logPolicy (.mb .h0 32) 0, .logPolicy (.mb .h0 31) (2 ^ 8),
    .sentStatus (.mb .h0 32) 0 0, .sentStatus (.mb .h0 31) (2 ^ 8) 0, .sentStatus (.mb .h0 31) 0 (2 ^ 8),
    .sentSet (.mb .h0 32) { mask := 0, enable := 0, k := 0, offset := 0, derateAt := 0, retireAt := 0, derateMax := 0, fuse := 0, clear := 0 },
    .sentSet (.mb .h0 31) { mask := 2 ^ 8, enable := 0, k := 0, offset := 0, derateAt := 0, retireAt := 0, derateMax := 0, fuse := 0, clear := 0 },
    .sentSet (.mb .h0 31) { mask := 0, enable := 2 ^ 8, k := 0, offset := 0, derateAt := 0, retireAt := 0, derateMax := 0, fuse := 0, clear := 0 },
    .sentSet (.mb .h0 31) { mask := 0, enable := 0, k := 2 ^ 8, offset := 0, derateAt := 0, retireAt := 0, derateMax := 0, fuse := 0, clear := 0 },
    .sentSet (.mb .h0 31) { mask := 0, enable := 0, k := 0, offset := 2 ^ 8, derateAt := 0, retireAt := 0, derateMax := 0, fuse := 0, clear := 0 },
    .sentSet (.mb .h0 31) { mask := 0, enable := 0, k := 0, offset := 0, derateAt := 2 ^ 16, retireAt := 0, derateMax := 0, fuse := 0, clear := 0 },
    .sentSet (.mb .h0 31) { mask := 0, enable := 0, k := 0, offset := 0, derateAt := 0, retireAt := 2 ^ 16, derateMax := 0, fuse := 0, clear := 0 },
    .sentSet (.mb .h0 31) { mask := 0, enable := 0, k := 0, offset := 0, derateAt := 0, retireAt := 0, derateMax := 2 ^ 8, fuse := 0, clear := 0 },
    .sentSet (.mb .h0 31) { mask := 0, enable := 0, k := 0, offset := 0, derateAt := 0, retireAt := 0, derateMax := 0, fuse := 2 ^ 8, clear := 0 },
    .sentSet (.mb .h0 31) { mask := 0, enable := 0, k := 0, offset := 0, derateAt := 0, retireAt := 0, derateMax := 0, fuse := 0, clear := 2 ^ 8 },
    .stitchRetire (.mb .h0 32) 0 0 0, .stitchRetire (.mb .h0 31) (2 ^ 8) 0 0, .stitchRetire (.mb .h0 31) 0 (2 ^ 8) 0,
    .stitchRetire (.mb .h0 31) 0 0 (2 ^ 8), .swatchRun (.mb .h0 32) 0 0 { map := 0, tally := 0, pipes := 0 } 0,
    .swatchRun (.mb .h0 31) (2 ^ 64) 0 { map := 0, tally := 0, pipes := 0 } 0,
    .swatchRun (.mb .h0 31) 0 (2 ^ 64) { map := 0, tally := 0, pipes := 0 } 0,
    .swatchRun (.mb .h0 31) 0 0 { map := 0, tally := 0, pipes := 0 } (2 ^ 64),
    .swatchScheduleAt (.mb .h0 32) 0 0 0 0 0 0 0 { map := 0, tally := 0, pipes := 0 } 0,
    .swatchScheduleAt (.mb .h0 31) (2 ^ 8) 0 0 0 0 0 0 { map := 0, tally := 0, pipes := 0 } 0,
    .swatchScheduleAt (.mb .h0 31) 0 (2 ^ 8) 0 0 0 0 0 { map := 0, tally := 0, pipes := 0 } 0,
    .swatchScheduleAt (.mb .h0 31) 0 0 (2 ^ 64) 0 0 0 0 { map := 0, tally := 0, pipes := 0 } 0,
    .swatchScheduleAt (.mb .h0 31) 0 0 0 (2 ^ 8) 0 0 0 { map := 0, tally := 0, pipes := 0 } 0,
    .swatchScheduleAt (.mb .h0 31) 0 0 0 0 (2 ^ 64) 0 0 { map := 0, tally := 0, pipes := 0 } 0,
    .swatchScheduleAt (.mb .h0 31) 0 0 0 0 0 (2 ^ 64) 0 { map := 0, tally := 0, pipes := 0 } 0,
    .swatchScheduleAt (.mb .h0 31) 0 0 0 0 0 0 (2 ^ 64) { map := 0, tally := 0, pipes := 0 } 0,
    .swatchScheduleAt (.mb .h0 31) 0 0 0 0 0 0 0 { map := 0, tally := 0, pipes := 0 } (2 ^ 64), .swatchStatus (.mb .h0 32) 0,
    .swatchStatus (.mb .h0 31) (2 ^ 8), .fuseLedgerRead (.mb .h0 32), .fuseRollbackAdvance (.mb .h0 32) 0,
    .fuseRollbackAdvance (.mb .h0 31) (2 ^ 8), .fuseStitchRetire (.mb .h0 32) 0 0, .fuseStitchRetire (.mb .h0 31) (2 ^ 8) 0,
    .fuseStitchRetire (.mb .h0 31) 0 (2 ^ 8), .fuseKeyRevoke (.mb .h1 32) 0, .fuseKeyRevoke (.fab (2 ^ 20) 0) 0,
    .fuseKeyRevoke (.fab 0 (2 ^ 16)) 0, .fuseKeyRevoke (.mb .h0 31) (2 ^ 8), .hostClaim (.mb .h0 32) 0 0,
    .hostClaim (.mb .h0 31) 0 (2 ^ 8), .hostRelease (.mb .h0 32) 0, .hostStatus (.mb .h0 32), .hostRoleSwap (.mb .h0 32),
    .mbStateWrite .h0 32 0, .mailboxCmdWrite .h0 32 0 [], .mailboxCmdWrite .h0 0 4096 [0], .spadRetainWrite 1024 0,
    .registerWrite (.ctl 0) (List.replicate 65 0), .mgmtRequest 168, .mgmtResponse 168, .frameReceive 128 0 [] 0,
    .frameReceive 0 0 [0] 0] : List Instr).any wellFormed = false := by decide +kernel

theorem test_illFormed_4 : ([
    .frameReceive 0 0 (List.replicate 8256 0) 0, .profileFrame 128, .dataFrame 168 0, .dataFrame 0 8, .readReq 168 0,
    .readReq 0 8, .readRsp 168, .errCompl 168, .addI32 168, .addI64 168, .addF32 168, .addF32x8 168, .maxI32 168, .minI32 168,
    .maxF32 168, .minF32 168, .and64 168, .or64 168, .xor64 168, .swap64 168, .cas64 168, .signalFlag 168, .signalCnt 168,
    .contrib 168, .partialFrame 168, .resultFrame 168, .doneFrame 168, .failFrame 168, .errorFrame 168, .tallyAdmit 168,
    .collTimeout 4096 0, .collTimeout 0 (2 ^ 32), .collBackstopTimeout 4096 0, .collBackstopTimeout 0 (2 ^ 32), .token 168,
    .tokenRes 168, .asmLimitExpiry 168 0 0 0, .asmLimitExpiry 0 (2 ^ 20) 0 0, .asmLimitExpiry 0 0 256 0, .asmLimitExpiry 0 0 0 2,
    .tokenNotice (2 ^ 16), .tileWaitExpiry (2 ^ 16) 0, .tileWaitExpiry 0 2, .runLoad (2 ^ 16) 0 0, .runLoad 0 8 0,
    .runLoad 0 0 2, .runStart (2 ^ 16) 0 0, .runStart 0 8 0, .runStart 0 0 2, .runEnd (2 ^ 16) 0, .runEnd 0 8,
    .runLimitExpiry (2 ^ 16) 0, .runLimitExpiry 0 8, .bwdLimitExpiry (2 ^ 16), .mirrorData 168, .mirrorSeal 168,
    .updateOpen 1024, .pipeSlice 1024, .mirrorChunkSend 1024, .mirrorTimeout (2 ^ 20) 0, .mirrorTimeout 0 (2 ^ 32),
    .rubCommitTimeout 4096 0, .rubCommitTimeout 0 (2 ^ 32), .ladderBatchDeadline 4 0, .ladderBatchDeadline 0 16,
    .ladderBatchLoad 4, .ladderBatchOutput 4 0, .ladderBatchOutput 0 2, .pipMark 128 0, .pipMarkSend 128, .credit 128 0,
    .ack 128 0, .nak 128 0, .skip 128 0, .laneSwapReq 128 0, .laneSwapDone 128 0, .barrier 128 0, .train 128 0 true 0,
    .retrainReq 128 0, .goingDark 128 0, .narrow 128 0, .idle 128 0, .reservedTick 128 0, .alignmentMarker 0 [] 0,
    .alignmentMarker 128 (List.replicate 32 0) 0, .alignmentMarkerSend 128, .ackSend 128, .creditSend 128, .egressFrameStart 128,
    .cutThroughUnderrun 128] : List Instr).any wellFormed = false := by decide +kernel

theorem test_illFormed_5 : ([
    .replayTimeout 128, .linkHoldExpiry 128 0 0, .linkHoldExpiry 0 168 0, .linkHoldExpiry 0 0 8, .trainingLimitExpiry 128,
    .trainingRestart 128, .laneSignalLoss 128 0, .laneSignalLoss 0 5, .laneBerWindow 128 0 0 0, .laneBerWindow 0 5 0 0,
    .swapRefusedTimeout 128, .lostLaneHoldExpiry 128, .profileSend 128, .profileLoss 128, .laserReady 0 [],
    .laserReady 8 (List.replicate 5 true), .overflowSpill 4 0 0, .overflowSpill 0 168 0, .overflowSpill 0 0 8,
    .overflowReadback 4 0 0, .overflowReadback 0 168 0, .overflowReadback 0 0 8, .multicastReplica 4, .arbiterDecide 4 0 0 [],
    .arbiterDecide 0 256 0 [], .arbiterDecide 0 0 2 [], .arbiterDecide 0 0 0 [16], .bridgeFlitRetry 12 0, .bridgeFlitRetry 0 2,
    .launchStart (2 ^ 20), .barrierStart (2 ^ 20), .barrierRootTimeout (2 ^ 20), .barrierMemberTimeout (2 ^ 20),
    .launchRunLimit (2 ^ 20), .ctrl 1024 0, .ctrl 0 64, .mma 1024 0, .mma 0 64, .mmaZero 1024 0, .mmaZero 0 64, .loadAcc 1024 0,
    .loadAcc 0 64, .drain 1024 0, .drain 0 64, .predict 1024 0, .predict 0 64, .maskN 1024 0, .maskN 0 64, .maskK 1024 0,
    .maskK 0 64, .vectorFma 1024 0, .vectorFma 0 64, .vectorAdd 1024 0, .vectorAdd 0 64, .vectorMul 1024 0, .vectorMul 0 64,
    .vectorMax 1024 0, .vectorMax 0 64, .vectorMin 1024 0, .vectorMin 0 64, .vectorCmpEq 1024 0, .vectorCmpEq 0 64,
    .vectorCmpLt 1024 0, .vectorCmpLt 0 64, .vectorCmpLe 1024 0, .vectorCmpLe 0 64, .vectorAnd 1024 0, .vectorAnd 0 64,
    .vectorOr 1024 0, .vectorOr 0 64, .vectorXor 1024 0, .vectorXor 0 64, .vectorCvt 1024 0, .vectorCvt 0 64, .dma 1024 0,
    .dma 0 64, .copy 1024 0, .copy 0 64, .gather 1024 0, .gather 0 64, .memAtomic 1024 0, .memAtomic 0 64, .sigRemote 1024 0,
    .sigRemote 0 64, .agsetBase 1024 0, .agsetBase 0 64, .agsetStride 1024 0, .agsetStride 0 64, .agsetAdd 1024 0, .agsetAdd 0 64] : List Instr).any wellFormed = false := by decide +kernel

theorem test_illFormed_6 : ([
    .cmpSet 1024 0, .cmpSet 0 64, .cmpAdd 1024 0, .cmpAdd 0 64, .lcSet 1024 0, .lcSet 0 64, .cntWrite 1024 0, .cntWrite 0 64,
    .testWord 1024 0, .testWord 0 64, .predSet 1024 0, .predSet 0 64, .descWord 1024 0, .descWord 0 64, .endWord 1024 0,
    .endWord 0 64, .operationComplete 1024 0, .operationComplete 0 4, .farTimeout (2 ^ 20) 0, .farTimeout 0 (2 ^ 32),
    .icacheFill 1024 0, .icacheFill 0 64, .bankWake 1024 0, .bankWake 0 32, .bankRetentionEntry 1024 0, .bankRetentionEntry 0 32,
    .stitchHoldEntry 1024, .stitchWake 1024, .telemetryRead 8 0 0 true, .sensorSample [],
    .sensorSample ((2 ^ 16, true) :: List.replicate 351 (0, true) : List (Nat × Bool)), .clockStep 8, .voltageRegulated 8,
    .voltageRaiseTimeout 8, .thermalEmergency 8, .emergencyExit 8, .dealerDecide 4, .witnessCheck 4 true,
    .sentinelTiebreak 4 true true, .swatchOccurrence 64, .patrolScrub 256, .logSuppressEnd (2 ^ 16) 0,
    .logSuppressEnd 0 (2 ^ 16), .powerOnReset 23 0, .thermalTrip 352 0, .thermalTrip 0 (2 ^ 16), .castOnStrap [],
    .castOnSkeins [1024], .castOnLasers [], .barrierArrive (2 ^ 20), .swatchRecord 3 0, .swatchRecord 0 1024, .resetEnd 7 0,
    .resetEnd 2 1024, .resetEnd 1 0, .dramRefresh 256] : List Instr).any wellFormed = false := by decide +kernel

/-! ### The hypotheses of the statements

`test_hyps_X`: for each case of statement X with hypotheses, operands and a state that meet them all. -/

theorem test_hyps_PipMarkSample :
    ∃ lk : Nat, ∃ a4 : Nat, ∃ w : BitVec 64, ∃ s : State, a4 = s.pipOn (linkDie lk) ∧ (s.link lk).live = true ∧
      (s.link lk).delin = true ∧ tickGood w = true ∧ tickLead w = 14 :=
  ⟨0, (tL tU).pipOn (linkDie 0), markWord 1 2048 0 100 3, tL tU, by decide +kernel⟩

theorem test_hyps_PipMarkSent :
    (∃ lk : Nat, ∃ a1 : Nat, ∃ s : State, a1 = s.pipOn (linkDie lk) ∧ (s.link lk).sends = true ∧
      (s.link lk).time.markNo < s.time.pip / 1024) ∧
    (∃ lk : Nat, ∃ s : State, (s.time.pip / 1024 ≤ (s.link lk).time.markNo ∨ (s.link lk).sends = false)) :=
  ⟨⟨0, (tAt (tL tU) 2048).pipOn (linkDie 0), tAt (tL tU) 2048, by decide +kernel⟩,
   ⟨0, tL tU, by decide +kernel⟩⟩

theorem test_hyps_HoldoverAndBarrierTicks :
    (∃ s : State, s.timeRole = 1 ∧ s.time.state = .locked ∧ ((∀ lk ∈ s.linkNums, s.eligible lk = false))) ∧
    (∃ lk : Nat, ∃ w : BitVec 64, ∃ s : State, ∃ b : BarrierSlot, (s.link lk).live = true ∧ (s.link lk).delin = true ∧
      tickIs w 6 = true ∧ tabGet? s.time.slots (bits w.toNat 53 3) = some b ∧ (s.link lk).time.excluded = false) ∧
    (∃ lk : Nat, ∃ w : BitVec 64, ∃ s : State, (s.link lk).live = true ∧ (s.link lk).delin = true ∧ tickIs w 6 = true ∧
      (s.link lk).time.excluded = true) :=
  ⟨⟨{ tS tR idTimeRole 0 1 with time := { state := .locked } }, by decide +kernel⟩,
   ⟨0, barrierWord 3 true true, { tL tU with time := { slots := [(3, { launch := 5, phase := true, parent := some 0, kids := [(0, false)] })] } },
     { launch := 5, phase := true, parent := some 0, kids := [(0, false)] }, by decide +kernel⟩,
   ⟨0, barrierWord 3 true true, tL { tU with time := { excluded := true } }, by decide +kernel⟩⟩

theorem test_hyps_FrameReceiveRules :
    (∃ lk : Nat, ∃ hdr : BitVec 128, ∃ s : State, (s.link lk).live = true ∧ (s.link lk).delin = true ∧ s.linkTorn lk = none ∧
      headerGood hdr = false) ∧
    (∃ lk : Nat, ∃ hdr : BitVec 128, ∃ cells : List Byte, ∃ trl : BitVec 64, ∃ s : State, (s.link lk).live = true ∧
      (s.link lk).delin = true ∧ s.linkTorn lk = none ∧ headerGood hdr = true ∧ trailerGood hdr cells trl = true ∧
      lsnDiff (bits trl.toNat 32 24) (s.link lk).expected = 0) ∧
    (∃ lk : Nat, ∃ hdr : BitVec 128, ∃ cells : List Byte, ∃ trl : BitVec 64, ∃ s : State, (s.link lk).live = true ∧
      (s.link lk).delin = true ∧ s.linkTorn lk = none ∧ headerGood hdr = true ∧ trailerGood hdr cells trl = true ∧
      lsnDiff (bits trl.toNat 32 24) (s.link lk).expected < 0) ∧
    (∃ lk : Nat, ∃ hdr : BitVec 128, ∃ cells : List Byte, ∃ trl : BitVec 64, ∃ s : State, ∃ cause, (s.link lk).live = true ∧
      (s.link lk).delin = true ∧ s.linkTorn lk = none ∧ headerGood hdr = true ∧ ((trailerGood hdr cells trl = false ∧
      cause = 0 ∨ trailerGood hdr cells trl = true ∧ 0 < lsnDiff (bits trl.toNat 32 24) (s.link lk).expected ∧ cause = 1))) :=
  ⟨⟨0, 0, tL tU, by decide +kernel⟩,
   ⟨0, ({ ty := 0, vc := 0, ch := 1, dst := 5, src := 9, cells := List.replicate 64 0 } : Frame).header, ({ ty := 0, vc := 0, ch := 1, dst := 5, src := 9, cells := List.replicate 64 0 } : Frame).cells,
     trailerOf ({ ty := 0, vc := 0, ch := 1, dst := 5, src := 9, cells := List.replicate 64 0 } : Frame).header ({ ty := 0, vc := 0, ch := 1, dst := 5, src := 9, cells := List.replicate 64 0 } : Frame).cells false 7,
     tL { tU with expected := 7 }, by decide +kernel⟩,
   ⟨0, ({ ty := 0, vc := 0, ch := 1, dst := 5, src := 9, cells := List.replicate 64 0 } : Frame).header, ({ ty := 0, vc := 0, ch := 1, dst := 5, src := 9, cells := List.replicate 64 0 } : Frame).cells,
     trailerOf ({ ty := 0, vc := 0, ch := 1, dst := 5, src := 9, cells := List.replicate 64 0 } : Frame).header ({ ty := 0, vc := 0, ch := 1, dst := 5, src := 9, cells := List.replicate 64 0 } : Frame).cells false 6,
     tL { tU with expected := 7 }, by decide +kernel⟩,
   ⟨0, ({ ty := 0, vc := 0, ch := 1, dst := 5, src := 9, cells := List.replicate 64 0 } : Frame).header, ({ ty := 0, vc := 0, ch := 1, dst := 5, src := 9, cells := List.replicate 64 0 } : Frame).cells,
     trailerOf ({ ty := 0, vc := 0, ch := 1, dst := 5, src := 9, cells := List.replicate 64 0 } : Frame).header ({ ty := 0, vc := 0, ch := 1, dst := 5, src := 9, cells := List.replicate 64 0 } : Frame).cells false 8,
     tL { tU with expected := 7 }, 1, by decide +kernel⟩⟩

theorem test_hyps_LinkFlowControl :
    (∃ lk : Nat, ∃ w, ∃ s : State, (s.link lk).live = true ∧ (s.link lk).delin = true ∧ tickIs w 1 = true ∧
      s.torn rowCredit lk 0 = false) ∧
    (∃ lk : Nat, ∃ w, ∃ s : State, (s.link lk).live = true ∧ (s.link lk).delin = true ∧ tickIs w 2 = true) ∧
    (∃ lk : Nat, ∃ w, ∃ s : State, ∃ x, (s.link lk).live = true ∧ (s.link lk).delin = true ∧ tickIs w 3 = true ∧
      (s.link lk).held = false ∧ (s.link lk).replay.find? (·.lsn == bits w.toNat 32 24) = some x ∧
      s.siteUe (.replay lk x.lsn) = false) ∧
    (∃ lk : Nat, ∃ w, ∃ s : State, ∃ x, (s.link lk).live = true ∧ (s.link lk).delin = true ∧ tickIs w 3 = true ∧
      (s.link lk).held = false ∧ (s.link lk).replay.find? (·.lsn == bits w.toNat 32 24) = some x ∧
      s.siteUe (.replay lk x.lsn) = true) ∧
    (∃ lk : Nat, ∃ s : State, ∃ x, ∃ r, (s.link lk).live = true ∧ (s.link lk).replay = x :: r ∧ (s.link lk).held = false ∧
      x.replays < 3 ∧ s.siteUe (.replay lk x.lsn) = false ∧
      max x.stamp (s.link lk).adv + s.linkSetting idReplayTo lk * 1000 ≤ s.time.pip) ∧
    (∃ lk : Nat, ∃ w, ∃ s : State, (s.link lk).live = true ∧ (s.link lk).delin = true ∧ tickIs w 4 = true ∧
      bits w.toNat 32 24 = (s.link lk).expected) ∧
    (∃ lk : Nat, ∃ w, ∃ s : State, (s.link lk).live = true ∧ (s.link lk).delin = true ∧ tickIs w 4 = true ∧
      bits w.toNat 32 24 ≠ (s.link lk).expected) ∧
    (∃ lk : Nat, ∃ s : State, (s.link lk).sends = true ∧ (s.link lk).ackDue = true) ∧
    (∃ lk : Nat, ∃ s : State, ∃ v, (s.link lk).sends = true ∧ v < 8 ∧ ((v = 0 ∨ s.vcBlocked lk = false)) ∧
      (s.acct (portAcct (s.phOf lk) v)).freed ≠ 0) ∧
    (∃ w, tickIs w 0 = true) ∧
    (∃ lk : Nat, ∃ w, ∃ s : State, (s.link lk).live = true ∧ (s.link lk).delin = true ∧ tickGood w = true ∧ tickLead w = 15 ∧
      9 ≤ tickKind w) ∧
    (∃ lk : Nat, ∃ w, ∃ s : State, (s.link lk).live = true ∧ (s.link lk).delin = true ∧ tickGood w = false) :=
  ⟨⟨0, creditWord 1 5 2 6, tL tU, by decide +kernel⟩,
   ⟨0, ackWord 4, tL tU, by decide +kernel⟩,
   ⟨0, nakWord 4 0, tL { tU with replay := [{ lsn := 4, f := ({ ty := 0, vc := 0, ch := 1, dst := 5, src := 9, cells := List.replicate 64 0 } : Frame), stomp := false, stamp := 0, replays := 2 }] },
     { lsn := 4, f := ({ ty := 0, vc := 0, ch := 1, dst := 5, src := 9, cells := List.replicate 64 0 } : Frame), stomp := false, stamp := 0, replays := 2 },
     by decide +kernel⟩,
   ⟨0, nakWord 4 0, { tL { tU with replay := [{ lsn := 4, f := ({ ty := 0, vc := 0, ch := 1, dst := 5, src := 9, cells := List.replicate 64 0 } : Frame), stomp := false, stamp := 0, replays := 2 }] } with integ := { ueSites := [.replay 0 4] } },
     { lsn := 4, f := ({ ty := 0, vc := 0, ch := 1, dst := 5, src := 9, cells := List.replicate 64 0 } : Frame), stomp := false, stamp := 0, replays := 2 },
     by decide +kernel⟩,
   ⟨0, tAt (tL { tU with replay := [{ lsn := 4, f := ({ ty := 0, vc := 0, ch := 1, dst := 5, src := 9, cells := List.replicate 64 0 } : Frame), stomp := false, stamp := 0, replays := 2 }] }) (2 ^ 40),
     { lsn := 4, f := ({ ty := 0, vc := 0, ch := 1, dst := 5, src := 9, cells := List.replicate 64 0 } : Frame), stomp := false, stamp := 0, replays := 2 },
     [], by decide +kernel⟩,
   ⟨0, skipWord 7 1 3, tL { tU with expected := 7 }, by decide +kernel⟩,
   ⟨0, skipWord 7 1 3, tL { tU with expected := 8 }, by decide +kernel⟩,
   ⟨0, tL { tU with ackDue := true }, by decide +kernel⟩,
   ⟨0, { tL tU with buf := { accts := [(portAcct (tR.phOf 0) 1, { freed := 2 })] } }, 1, by decide +kernel⟩,
   ⟨idleWord, by decide +kernel⟩,
   ⟨0, tickWord 15 9 0, tL tU, by decide +kernel⟩,
   ⟨0, 0, tL tU, by decide +kernel⟩⟩

theorem test_hyps_TrainingAndProfiles :
    (∃ lk : Nat, ∃ w, ∃ s : State, (s.link lk).delin = true ∧ (s.link lk).state = .signal ∧ tickIs w 7 = true) ∧
    (∃ lk : Nat, ∃ w, ∃ s : State, (s.link lk).delin = true ∧ tickIs w 7 = true ∧ bit w.toNat 48 = true ∧
      (s.link lk).state = .signal) ∧
    (∃ lk : Nat, ∃ w, ∃ s : State, (s.link lk).delin = true ∧ tickIs w 7 = true ∧ bit w.toNat 48 = true ∧
      (s.link lk).state = .equalize ∧ 2 ≤ bits w.toNat 52 4) ∧
    (∃ lk : Nat, ∃ w, ∃ s : State, (s.link lk).delin = true ∧ tickIs w 7 = true ∧ (s.link lk).state = .config ∧
      7 ≤ (s.link lk).peer.agreed ∧ 8 ≤ (s.link lk).ownRun ∧ bits w.toNat 52 4 = 3 ∧ s.splitIn s.cfg.vals (lk / 2) = false ∧
      bit w.toNat 35 = false ∧ { (s.link lk).peer with rxReady := bit w.toNat 48 } = ({ rxReady := bit w.toNat 48, fecCap := bits w.toNat 38 2, fecReq := bits w.toNat 36 2, split := bit w.toNat 35, spareCap := bit w.toNat 34, txOut := bits w.toNat 31 3, rxOut := bits w.toNat 28 3, agreed := (s.link lk).peer.agreed } : Peer)) ∧
    (∃ lk : Nat, ∃ s : State, ∃ n, trainLimit (s.link lk).state = some n ∧ (s.link lk).since + n ≤ s.time.pip) ∧
    (∃ lk : Nat, ∃ s : State, ∃ k, (s.link lk).offSince = some k ∧ k + 1000000 ≤ s.time.pip) ∧
    (∃ lk : Nat, ∃ w, ∃ s : State, (s.link lk).live = true ∧ (s.link lk).delin = true ∧ tickIs w 8 = true ∧
      bits w.toNat 52 4 = 1) ∧
    (∃ lk : Nat, ∃ w, ∃ s : State, (s.link lk).live = true ∧ (s.link lk).delin = true ∧ tickIs w 8 = true ∧
      bits w.toNat 52 4 = 2) ∧
    (∃ lk : Nat, ∃ s : State, ∃ stamp, ∃ cell, ∃ r, (s.link lk).live = true ∧ (s.link lk).profPend = (stamp, cell) :: r) ∧
    (∃ lk : Nat, ∃ s : State, (s.link lk).sends = true ∧ (s.link lk).profDue = true ∧ (s.link lk).held = false ∧
      (s.link lk).draining = false ∧ (s.link lk).resendFrom = none ∧ s.roomFor lk 0 1 = true ∧ s.shaperOk lk 0 = true) ∧
    (∃ lk : Nat, ∃ s : State, ∃ k, (s.link lk).profStamp = some k ∧ (s.link lk).carries = true ∧
      k + 3 * 2 ^ 20 ≤ s.time.pip) :=
  ⟨⟨0, tickWord 15 7 (2 ^ 48), tL { state := .signal }, by decide +kernel⟩,
   ⟨0, tickWord 15 7 (2 ^ 48), tL { state := .signal }, by decide +kernel⟩,
   ⟨0, tickWord 15 7 (2 ^ 48 + 2 * 2 ^ 52), tL { state := .equalize }, by decide +kernel⟩,
   ⟨0, tickWord 15 7 (2 ^ 48 + 3 * 2 ^ 52), tL { state := .config, ownRun := 8, peer := { rxReady := true, txOut := 0, rxOut := 0, agreed := 7 } },
     by decide +kernel⟩,
   ⟨0, tAt (tL { state := .signal }) (2 ^ 40), (trainLimit .signal).getD 0, by decide +kernel⟩,
   ⟨0, tAt (tL { state := .dark, offSince := some 0 }) 1000000, 0, by decide +kernel⟩,
   ⟨0, linkStateWord 1 0, tL tU, by decide +kernel⟩,
   ⟨0, linkStateWord 2 0, tL tU, by decide +kernel⟩,
   ⟨0, tL { tU with profPend := [(3, [])] }, 3, [], [], by decide +kernel⟩,
   ⟨0, tL { tU with profDue := true, total := [(0, 200)], allow := [(0, 200)] }, by decide +kernel⟩,
   ⟨0, tAt (tL { tU with profStamp := some 0 }) (3 * 2 ^ 20), 0, by decide +kernel⟩⟩

theorem test_hyps_SpareLanesAndMarkers :
    (∃ lk : Nat, ∃ lane, ∃ s : State, (s.link lk).carries = true ∧ s.laneUsed lk lane = true ∧ s.spareFree lk true = true ∧
      (s.link lk).peer.spareCap = true) ∧
    (∃ lk : Nat, ∃ lane, ∃ s : State, (s.link lk).carries = true ∧ s.laneUsed lk lane = true ∧
      ((s.spareFree lk true = false ∨ (s.link lk).peer.spareCap = false)) ∧ s.splitIn s.cfg.vals (lk / 2) = false) ∧
    (∃ lk : Nat, ∃ lane, ∃ berExp, ∃ unc, ∃ s : State, (s.link lk).carries = true ∧ s.laneUsed lk lane = true ∧
      (s.link lk).rxSwap = none ∧ s.spareFree lk true = true ∧ (s.link lk).peer.spareCap = true ∧
      ((16 < unc % 2 ^ 32 ∨ berExp ≤ s.setting (if (s.link lk).fecS then idSwapBerS else idSwapBerL) (lk / 2) ∧
      1 ≤ tabGet (s.link lk).berRun 0 lane))) ∧
    (∃ lk : Nat, ∃ w, ∃ s : State, (s.link lk).live = true ∧ (s.link lk).delin = true ∧ tickIs w 5 = true ∧
      bits w.toNat 52 4 = 1 ∧ s.spareFree lk false = true ∧ (s.link lk).peer.spareCap = true) ∧
    (∃ lk : Nat, ∃ w, ∃ s : State, ∃ x, (s.link lk).live = true ∧ (s.link lk).delin = true ∧ tickIs w 5 = true ∧
      bits w.toNat 52 4 = 2 ∧ (s.link lk).txSwap = some x ∧ x.lane = bits w.toNat 50 2) ∧
    (∃ lk : Nat, ∃ w, ∃ s : State, (s.link lk).live = true ∧ (s.link lk).delin = true ∧ tickIs w 8 = true ∧
      bits w.toNat 52 4 = 3 ∧ s.splitIn s.cfg.vals (lk / 2) = false ∧ bits w.toNat 50 2 ≤ 1) ∧
    (∃ lk : Nat, ∃ s : State, ∃ x, (s.link lk).rxSwap = some x ∧ x.ticket = none ∧
      x.req + 3 * markerPeriod (s.link lk).fecS ≤ s.time.pip ∧ s.splitIn s.cfg.vals (lk / 2) = false) ∧
    (∃ lk : Nat, ∃ s : State, ∃ x, (s.link lk).txSwap = some x ∧ x.lost = true ∧
      x.req + 4 * markerPeriod (s.link lk).fecS ≤ s.time.pip) ∧
    (∃ lk : Nat, ∃ s : State, ∃ w, (s.link lk).carries = true ∧ (s.link lk).narrowTo = some w) ∧
    (∃ lk : Nat, ∃ s : State, (s.link lk).state = .config ∧ 8 ≤ (s.link lk).peer.agreed ∧ 8 ≤ (s.link lk).ownRun ∧
      (s.link lk).ownTrain = (trainWord 3 0 { s.trainBody lk with rxReady := false }).toNat ∧
      s.splitIn s.cfg.vals (lk / 2) = false ∧ (s.link lk).peer.split = false) ∧
    (∃ lk : Nat, ∃ s : State, (s.link lk).state ≠ .dark ∧ (s.link lk).state ≠ .failed ∧ (s.link lk).narrowTo = none ∧
      (((s.link lk).state ≠ .config ∨ (s.link lk).peer.agreed < 8))) ∧
    (∃ lk : Nat, ∃ block, ∃ s : State, (s.link lk).carries = true ∧ markerGood block = true) ∧
    (∃ i, i < 8) ∧
    (∃ fecS : Bool, ∃ ws : List (List Byte), ∃ cw : List Nat, cw ∈ codewords fecS ws) :=
  ⟨⟨0, 1, tL { tU with peer := { spareCap := true } }, by decide +kernel⟩,
   ⟨0, 1, tL tU, by decide +kernel⟩,
   ⟨0, 1, 0, 17, tL { tU with peer := { spareCap := true } }, by decide +kernel⟩,
   ⟨0, swapWord 1 2 true, tL { tU with peer := { spareCap := true } }, by decide +kernel⟩,
   ⟨0, swapWord 2 1 true, tL { tU with txSwap := some { lane := 1, lost := true, req := 0 } }, { lane := 1, lost := true, req := 0 },
     by decide +kernel⟩,
   ⟨0, linkStateWord 3 1, tL tU, by decide +kernel⟩,
   ⟨0, tAt (tL { tU with rxSwap := some { lane := 1, lost := true, req := 0 } }) (2 ^ 40), { lane := 1, lost := true, req := 0 },
     by decide +kernel⟩,
   ⟨0, tAt (tL { tU with txSwap := some { lane := 1, lost := true, req := 0 } }) (2 ^ 40), { lane := 1, lost := true, req := 0 },
     by decide +kernel⟩,
   ⟨0, tL { tU with narrowTo := some 1 }, 1, by decide +kernel⟩,
   ⟨0, tCfgEnd, by decide +kernel⟩,
   ⟨0, tL tU, by decide +kernel⟩,
   ⟨0, markerBlock 1 4 3 0 false 0, tL tU, by decide +kernel⟩,
   ⟨7, by decide +kernel⟩,
   ⟨false, [[1]], (codewords false [[1]]).headD [], by decide +kernel⟩⟩

theorem test_hyps_PortCommands :
    (∃ o : Origin, ∃ port, ∃ half, ∃ s : State, ∃ p, s.waiting o 0x0301 [port, half] = some p ∧ s.MaySend o 0x0301 ∧
      port < 64 ∧ half ≤ 2 ∧ s.halfFits s.cfg.vals (half * 64 + port) = true) ∧
    (∃ o : Origin, ∃ port, ∃ half, ∃ clear, ∃ s : State, ∃ p, s.waiting o 0x0302 [port, half, clear] = some p ∧
      s.MaySend o 0x0302 ∧ port < 64 ∧ half ≤ 2 ∧ s.halfFits s.cfg.vals (half * 64 + port) = true ∧ clearOk o clear) ∧
    (∃ o : Origin, ∃ port, ∃ half, ∃ s : State, ∃ p, s.waiting o 0x0303 [port, half] = some p ∧ s.MaySend o 0x0303 ∧
      port < 64 ∧ half ≤ 2 ∧ s.halfFits s.cfg.vals (half * 64 + port) = true ∧ (s.link (linkOf port half)).profStamp ≠ none) ∧
    (∃ o : Origin, ∃ port, ∃ half, ∃ s : State, ∃ p, s.waiting o 0x0304 [port, half] = some p ∧ s.MaySend o 0x0304 ∧
      port < 64 ∧ half ≤ 2 ∧ s.halfFits s.cfg.vals (half * 64 + port) = true ∧ s.Owns o (resPort port) ∧
      s.commitTouches port half = false ∧ s.setting idAdmin port = 1) ∧
    (∃ o : Origin, ∃ port, ∃ half, ∃ lane, ∃ s : State, ∃ p, s.waiting o 0x0305 [port, half, lane] = some p ∧
      s.MaySend o 0x0305 ∧ port < 64 ∧ half ≤ 2 ∧ s.halfFits s.cfg.vals (half * 64 + port) = true ∧ s.Owns o (resPort port) ∧
      ((half = 0 ∧ lane ≤ 3 ∨ half = 1 ∧ lane ≤ 1 ∨ half = 2 ∧ 2 ≤ lane ∧ lane ≤ 3)) ∧
      (s.link (linkOf port half)).state = .up ∧ s.swapRuns (linkOf port half) = false ∧
      s.spareTaken (linkOf port half) = false ∧ (s.link (linkOf port half)).peer.spareCap = true) ∧
    (∃ o : Origin, ∃ port, ∃ dir, ∃ pos, ∃ s : State, ∃ p, s.waiting o 0x0306 [port, dir, pos] = some p ∧ s.MaySend o 0x0306 ∧
      port < 64 ∧ dir ≤ 1 ∧ ((pos ≤ 4 ∨ pos = 7)) ∧ s.Owns o (resPort port) ∧ s.spareRecs port < 3 ∧ s.fuseBusy = false) ∧
    (∃ o : Origin, ∃ port, ∃ dir, ∃ pos, ∃ s : State, ∃ p, s.waiting o 0x0306 [port, dir, pos] = some p ∧ s.MaySend o 0x0306 ∧
      port < 64 ∧ dir ≤ 1 ∧ ((pos ≤ 4 ∨ pos = 7)) ∧ s.Owns o (resPort port) ∧ 3 ≤ s.spareRecs port) :=
  ⟨⟨tO, 63, 0, tC (tR) 0x0301 [63, 0] 0, tP, (by decide +kernel), (fun _ => rfl), (by decide +kernel), (by decide +kernel),
    (by decide +kernel)⟩,
   ⟨tO, 63, 0, 1, tC (tR) 0x0302 [63, 0, 1] 0, tP, (by decide +kernel), (fun _ => rfl), (by decide +kernel),
     (by decide +kernel), (by decide +kernel), (by show _ ≤ 1; decide)⟩,
   ⟨tO, 0, 0, tC (tL { tU with profStamp := some 5, peer := { spareCap := true } }) 0x0303 [0, 0] 0, tP, (by decide +kernel),
     (fun _ => rfl), (by decide +kernel), (by decide +kernel), (by decide +kernel), (by decide +kernel)⟩,
   ⟨tO, 0, 0, tC (tS tR idAdmin 0 1) 0x0304 [0, 0] 0, tP, (by decide +kernel), (fun _ => rfl), (by decide +kernel),
     (by decide +kernel), (by decide +kernel), (by unfold State.Owns; decide +kernel), (by decide +kernel),
     (by decide +kernel)⟩,
   ⟨tO, 0, 0, 3, tC (tL { tU with profStamp := some 5, peer := { spareCap := true } }) 0x0305 [0, 0, 3] 0, tP,
     (by decide +kernel), (fun _ => rfl), (by decide +kernel), (by decide +kernel), (by decide +kernel),
     (by unfold State.Owns; decide +kernel), (by decide +kernel), (by decide +kernel), (by decide +kernel),
     (by decide +kernel), (by decide +kernel)⟩,
   ⟨tO, 0, 1, 7, tC (tR) 0x0306 [0, 1, 7] 0, tP, (by decide +kernel), (fun _ => rfl), (by decide +kernel),
     (by decide +kernel), (by decide +kernel), (by unfold State.Owns; decide +kernel), (by decide +kernel),
     (by decide +kernel)⟩,
   ⟨tO, 0, 1, 7, tC ({ tR with sec := { spares := List.replicate 3 { key := 0, val := 1 } } }) 0x0306 [0, 1, 7] 0, tP,
     (by decide +kernel), (fun _ => rfl), (by decide +kernel), (by decide +kernel), (by decide +kernel),
     (by unfold State.Owns; decide +kernel), (by decide +kernel)⟩⟩

theorem test_hyps_LeavingAQueue :
    (∃ lk : Nat, ∃ s : State, ∃ q, s.maySend lk = true ∧ s.linkTorn lk = none ∧ (s.link lk).resendFrom = none ∧
      (s.flush lk).winner lk = some q ∧ s.hankTorn q = none ∧ s.frameUe q = false) ∧
    (∃ lk : Nat, ∃ s : State, ∃ q, s.maySend lk = true ∧ s.linkTorn lk = none ∧ (s.link lk).resendFrom = none ∧
      (s.flush lk).winner lk = some q ∧ s.hankTorn q = none ∧ s.frameUe q = true) ∧
    (∃ lk : Nat, ∃ s : State, ∃ n, ∃ x, (s.link lk).sends = true ∧ (s.link lk).held = false ∧ s.linkTorn lk = none ∧
      (s.link lk).resendFrom = some n ∧ (s.link lk).replay.find? (·.lsn == n) = some x) ∧
    (∃ lk : Nat, ∃ s : State, ∃ q, s.maySend lk = true ∧ (s.link lk).resendFrom = none ∧ s.winner lk = some q ∧ q.store = 0 ∧
      q.resend = false) ∧
    (∃ lk : Nat, ∃ ing, ∃ vc, ∃ s : State, ∃ q,
      s.heads.find? (fun q => decide (q.dest = .link lk) && q.ing == ing && q.f.vc == vc && (s.holdCause lk q).isSome) = some q) ∧
    (∃ die, ∃ ing, ∃ vc, ∃ d, ∃ s : State, ∃ q,
      s.buf.frames.filter (fun q => q.die == die && q.ing == ing && q.f.vc == vc) ≠ [] ∧ ((∀ x ∈ s.buf.frames,
      x.die = die → x.ing = ing → x.f.vc = vc → x.dest = d)) ∧
      spillFrame (s.buf.frames.filter (fun q => q.die == die && q.ing == ing && q.f.vc == vc)) = some q ∧ q.ovf = false ∧
      s.frameUe q = false ∧ s.ovfOn q.acct = true ∧
      s.setting idAcctMax q.acct - s.setting idAcctMax q.acct / 8 < (s.acct q.acct).h ∧
      s.dramHeld q.acct + hanksFor q.f.n ≤ s.setting idOvfMax q.acct ∧
      s.regionUsed die + hanksFor q.f.n ≤ s.setting idOvfSize die / 512 ∧
      (s.arb (dieBridge die (ovfSkein die) 0)).frozen = false) ∧
    (∃ die, ∃ ing, ∃ vc, ∃ s : State, ∃ q, s.ueWords = [] ∧
      s.middleFrame (fun q => q.die == die && q.ing == ing && q.f.vc == vc) = some q ∧ q ∈ s.buf.frames ∧
      s.mayDraw (unitAcct die 7 0) q.hanks.length = true ∧ s.readShut die = false) ∧
    (∃ die, ∃ s : State, ∃ j, ∃ d, ∃ r, s.buf.repl.find? (·.die == die) = some j ∧ j.dests = d :: r ∧ (((∃ k,
      d = .skein k) → s.devFid ≠ 0xFFFFF)) ∧ s.mayDraw (unitAcct die 6 0) (hanksFor j.f.n) = true) ∧
    (∃ die, ∃ s : State, ∃ j, ∃ d, ∃ r, s.buf.repl.find? (·.die == die) = some j ∧ j.dests = d :: r ∧ (((∃ k,
      d = .skein k) → s.devFid ≠ 0xFFFFF)) ∧ s.mayDraw (unitAcct die 6 0) (hanksFor j.f.n) = false) :=
  ⟨⟨0, tF (tL { tU with total := [(1, 300)], allow := [(1, 300)] }) { die := 0, ing := 2, dest := .link 0, f := { ty := 0, vc := 1, ch := 1, dst := 5, src := 9, cells := List.replicate 64 0 }, stamp := 0, acct := portAcct 65 1, hanks := [(0, 0)] },
    { die := 0, ing := 2, dest := .link 0, f := { ty := 0, vc := 1, ch := 1, dst := 5, src := 9, cells := List.replicate 64 0 }, stamp := 0, acct := portAcct 65 1, hanks := [(0, 0)] },
    by decide +kernel⟩,
   ⟨0, { tF (tL { tU with total := [(1, 300)], allow := [(1, 300)] }) { die := 0, ing := 2, dest := .link 0, f := { ty := 0, vc := 1, ch := 1, dst := 5, src := 9, cells := List.replicate 64 0 }, stamp := 0, acct := portAcct 65 1, hanks := [(0, 0)] } with buf := { (tF (tL { tU with total := [(1, 300)], allow := [(1, 300)] }) { die := 0, ing := 2, dest := .link 0, f := { ty := 0, vc := 1, ch := 1, dst := 5, src := 9, cells := List.replicate 64 0 }, stamp := 0, acct := portAcct 65 1, hanks := [(0, 0)] }).buf with ueHanks := [hankKey 0 0] } },
     { die := 0, ing := 2, dest := .link 0, f := { ty := 0, vc := 1, ch := 1, dst := 5, src := 9, cells := List.replicate 64 0 }, stamp := 0, acct := portAcct 65 1, hanks := [(0, 0)] },
     by decide +kernel⟩,
   ⟨0, tL { tU with resendFrom := some 4, replay := [{ lsn := 4, f := ({ ty := 0, vc := 0, ch := 1, dst := 5, src := 9, cells := List.replicate 64 0 } : Frame), stomp := false, stamp := 0, replays := 2 }] },
     4, { lsn := 4, f := ({ ty := 0, vc := 0, ch := 1, dst := 5, src := 9, cells := List.replicate 64 0 } : Frame), stomp := false, stamp := 0, replays := 2 },
     by decide +kernel⟩,
   ⟨0, tF (tL { tU with total := [(1, 300)], allow := [(1, 300)] }) { die := 0, ing := 2, dest := .link 0, f := { ty := 0, vc := 1, ch := 1, dst := 5, src := 9, cells := List.replicate 64 0 }, stamp := 0, acct := portAcct 65 1, hanks := [(0, 0)] },
     { die := 0, ing := 2, dest := .link 0, f := { ty := 0, vc := 1, ch := 1, dst := 5, src := 9, cells := List.replicate 64 0 }, stamp := 0, acct := portAcct 65 1, hanks := [(0, 0)] },
     by decide +kernel⟩,
   ⟨0, 2, 1, tAt (tF (tL tU) { ({ die := 0, ing := 2, dest := .link 0, f := { ty := 0, vc := 1, ch := 1, dst := 5, src := 9, cells := List.replicate 64 0 }, stamp := 0, acct := portAcct 65 1, hanks := [(0, 0)] } : QFrame) with head := some 0 }) (2 ^ 40),
     { ({ die := 0, ing := 2, dest := .link 0, f := { ty := 0, vc := 1, ch := 1, dst := 5, src := 9, cells := List.replicate 64 0 }, stamp := 0, acct := portAcct 65 1, hanks := [(0, 0)] } : QFrame) with head := some 0 },
     by decide +kernel⟩,
   ⟨0, 2, 1, .link 0, tSpill, tSpillQ 2, by decide +kernel⟩,
   ⟨0, 2, 1, tF tR { ({ die := 0, ing := 2, dest := .link 0, f := { ty := 0, vc := 1, ch := 1, dst := 5, src := 9, cells := List.replicate 64 0 }, stamp := 0, acct := portAcct 65 1, hanks := [(0, 0)] } : QFrame) with ovf := true },
     { ({ die := 0, ing := 2, dest := .link 0, f := { ty := 0, vc := 1, ch := 1, dst := 5, src := 9, cells := List.replicate 64 0 }, stamp := 0, acct := portAcct 65 1, hanks := [(0, 0)] } : QFrame) with ovf := true },
     by decide +kernel⟩,
   ⟨0, { tR with buf := { repl := [tRepl] } }, tRepl, .link 0, [], (by decide +kernel), (by decide +kernel),
     (fun h => nomatch h.choose_spec), (by decide +kernel)⟩,
   ⟨0, { tR with buf := { repl := [tRepl], accts := [(unitAcct 0 6 0, { h := 2 ^ 20 })] } }, tRepl, .link 0, [],
     (by decide +kernel), (by decide +kernel), (fun h => nomatch h.choose_spec), (by decide +kernel)⟩⟩

theorem test_hyps_ArbitersAndBridges :
    (∃ held : Nat → Bool, ∃ raised : List Nat, ∃ a0 : Arb, ∃ i, a0.granted = [i] ∧ ((i ∉ raised ∨ held i = true))) ∧
    (∃ (held : Nat → Bool) (a0 : Arb), a0.frozen = true ∨ (∀ i ∈ a0.asserted, held i = true)) ∧
    (∃ (n : Nat) (held : Nat → Bool) (a0 : Arb), a0.frozen = false ∧ (∃ i ∈ a0.asserted, held i = false) ∧ 0 < n) ∧
    (∃ kind, ∃ index, ∃ dir, ∃ raised : List Nat, ∃ s : State, index < (arbShape kind).1 ∧ dir < 2 ∧
      (((arbShape kind).2.1 = false → dir = 0)) ∧ ((∀ i ∈ raised, i < (arbShape kind).2.2.length)) ∧ (¬(kind = 2 ∧
      s.refreshing index = true))) ∧
    (∃ bridge, ∃ dir, bridge < 12 ∧ dir < 2) :=
  ⟨⟨fun _ => false, [], { granted := [1] }, 1, by decide +kernel⟩,
   ⟨fun _ => true, { frozen := true }, Or.inl rfl⟩,
   ⟨2, fun _ => false, { asserted := [1] }, by decide⟩,
   ⟨2, 255, 0, [5], tR, by decide +kernel⟩,
   ⟨11, 1, by decide +kernel⟩⟩

theorem test_hyps_BufferAndMeterCommands :
    (∃ o : Origin, ∃ die, ∃ kind, ∃ port, ∃ half, ∃ vc, ∃ x, ∃ s : State, ∃ p, kind < 256 ∧ port < 256 ∧ half < 256 ∧
      vc < 256 ∧ s.waiting o 0x0307 [die, kind, port, half, vc] = some p ∧ s.MaySend o 0x0307 ∧ die ≤ 3 ∧
      s.selectAcct die kind port half vc = some x ∧ (¬(kind = 255 ∧ port = 255 ∧ half = 255 ∧ vc = 255))) ∧
    (∃ o : Origin, ∃ die, ∃ kind, ∃ port, ∃ half, ∃ vc, ∃ s : State, ∃ p, kind < 256 ∧ port < 256 ∧ half < 256 ∧ vc < 256 ∧
      s.waiting o 0x0307 [die, kind, port, half, vc] = some p ∧ s.MaySend o 0x0307 ∧ 3 < die) ∧
    (∃ o : Origin, ∃ die, ∃ clear, ∃ s : State, ∃ p, s.waiting o 0x0308 [die, clear] = some p ∧ s.MaySend o 0x0308 ∧ die ≤ 3 ∧
      clearOk o clear) ∧
    (∃ o : Origin, ∃ port, ∃ half, ∃ vc, ∃ clear, ∃ s : State, ∃ p, s.waiting o 0x0309 [port, half, vc, clear] = some p ∧
      s.MaySend o 0x0309 ∧ port < 64 ∧ half ≤ 2 ∧ s.halfFits s.cfg.vals (half * 64 + port) = true ∧ vc < 8 ∧
      clearOk o clear) ∧
    (∃ o : Origin, ∃ port, ∃ half, ∃ clear, ∃ s : State, ∃ p, s.waiting o 0x030A [port, half, clear] = some p ∧
      s.MaySend o 0x030A ∧ port < 64 ∧ half ≤ 2 ∧ s.halfFits s.cfg.vals (half * 64 + port) = true ∧ clearOk o clear) ∧
    (∃ o : Origin, ∃ kind, ∃ index, ∃ dir, ∃ clear, ∃ s : State, ∃ p, s.waiting o 0x030B [kind, index, dir, clear] = some p ∧
      s.MaySend o 0x030B ∧ kind ≤ 3 ∧ index < (arbShape kind).1 ∧ dir ≤ 1 ∧ (((arbShape kind).2.1 = false → dir = 0)) ∧
      clearOk o clear) :=
  ⟨⟨tO, 3, 6, 0, 0, 0, unitAcct 3 6 0, tC (tR) 0x0307 [3, 6, 0, 0, 0] 0, tP, (by decide +kernel), (by decide +kernel),
    (by decide +kernel), (by decide +kernel), (by decide +kernel), (fun _ => rfl), (by decide +kernel), (by decide +kernel),
    (by decide +kernel)⟩,
   ⟨tO, 4, 0, 0, 0, 1, tC (tR) 0x0307 [4, 0, 0, 0, 1] 0, tP, (by decide +kernel), (by decide +kernel), (by decide +kernel),
     (by decide +kernel), (by decide +kernel), (fun _ => rfl), (by decide +kernel)⟩,
   ⟨tO, 3, 1, tC (tR) 0x0308 [3, 1] 0, tP, (by decide +kernel), (fun _ => rfl), (by decide +kernel), (by show _ ≤ 1; decide)⟩,
   ⟨tO, 63, 0, 7, 0, tC (tR) 0x0309 [63, 0, 7, 0] 0, tP, (by decide +kernel), (fun _ => rfl), (by decide +kernel),
     (by decide +kernel), (by decide +kernel), (by decide +kernel), (by show _ ≤ 1; decide)⟩,
   ⟨tO, 63, 0, 1, tC (tR) 0x030A [63, 0, 1] 0, tP, (by decide +kernel), (fun _ => rfl), (by decide +kernel),
     (by decide +kernel), (by decide +kernel), (by show _ ≤ 1; decide)⟩,
   ⟨tO, 0, 7, 1, 1, tC (tR) 0x030B [0, 7, 1, 1] 0, tP, (by decide +kernel), (fun _ => rfl), (by decide +kernel),
     (by decide +kernel), (by decide +kernel), (by decide +kernel), (by show _ ≤ 1; decide)⟩⟩

theorem test_hyps_UnicastRouting :
    (∃ f0 : Frame, f0.dst = 0xFFFFF) ∧
    (∃ f0 : Frame, ∃ s : State, f0.dst ≠ 0xFFFFF ∧ ((f0.epochSet = false ∨ State.bankOf s f0.epoch = none))) ∧
    (∃ die, ∃ ing, ∃ f0 : Frame, ∃ s : State, ∃ out, ∃ h, ∃ ad, ∃ fb, State.routeUnicast s die ing f0 = .to out h ad fb) ∧
    (∃ f0 : Frame, f0.ch < 8) :=
  ⟨⟨{ ty := 0, vc := 1, ch := 0, dst := 0xFFFFF, src := 9 }, by decide +kernel⟩,
   ⟨{ ty := 0, vc := 1, ch := 0, dst := 5, src := 9 }, tR, by decide +kernel⟩,
   ⟨0, 0, tRouteF, tRoute, 4, pairHash 0 9 5 1, false, false, by decide +kernel⟩,
   ⟨tRouteF, by decide +kernel⟩⟩

theorem test_hyps_RoutingCommands :
    (∃ o : Origin, ∃ addr, ∃ s : State, ∃ p, ∃ i, ∃ h, ∃ pages, ∃ epoch, s.waiting o 0x0401 [addr] = some p ∧
      s.MaySend o 0x0401 ∧ s.Owns o resRoute ∧ s.route.emptyBank = some i ∧ addr % 64 = 0 ∧ h = s.readNat (dramKey addr) 64 ∧
      pages = bits h 32 8 ∧ epoch = bits h 8 8 ∧ addr + imageLen pages ≤ 2 ^ 37 ∧ s.dramDenied addr (imageLen pages) = false ∧
      epoch ≤ 3 ∧ pages ≤ 64 ∧ bits h 0 8 = 1 ∧ bits h 40 8 = 0 ∧ bits h 48 464 = 0 ∧
      ((s.route.b0.st ≠ .empty → adjacent epoch s.route.b0.epoch = true)) ∧
      ((s.route.b1.st ≠ .empty → adjacent epoch s.route.b1.epoch = true)) ∧ ((∀ e ∈ s.imageBlocks addr,
      entryReserved e = false ∧ s.entryBad pages false e = false)) ∧ ((∀ e ∈ s.imageFines addr pages,
      entryReserved e = false ∧ s.entryBad pages true e = false)) ∧ ((∀ g ∈ s.imageGroups addr pages,
      bit g 255 = true → bits g 132 123 = 0)) ∧ s.firstUe (dramKey addr) (imageLen pages) = none ∧
      s.mayIssue (addr / 2 ^ 35 % 4) clsMgmt = true) ∧
    (∃ s : State, ∃ j : RouteJob, ∃ rest : List RouteJob, s.route.load = j :: rest) ∧
    (∃ o : Origin, ∃ addr, ∃ len, ∃ s : State, ∃ p, s.waiting o 0x0402 [addr, len] = some p ∧ s.MaySend o 0x0402 ∧
      s.Owns o resRoute ∧ addr + len ≤ 2 ^ 37 ∧ s.dramDenied addr len = false ∧ s.route.check = none ∧
      s.mayIssue (addr / 2 ^ 35 % 4) clsMgmt = true) ∧
    (∃ s : State, ∃ j, s.route.check = some j) ∧
    (∃ o : Origin, ∃ s : State, ∃ p, s.waiting o 0x0403 [] = some p ∧ s.MaySend o 0x0403) ∧
    (∃ o : Origin, ∃ epoch, ∃ src, ∃ dst, ∃ channel, ∃ vc, ∃ mcast, ∃ port, ∃ half, ∃ s : State, ∃ p, ∃ f0 : Frame,
      ∃ r : Routed, s.waiting o 0x0404 [epoch, src, dst, channel, vc, mcast, port, half] = some p ∧ s.MaySend o 0x0404 ∧
      epoch ≤ 3 ∧ src ≤ 0xFFFFF ∧ dst ≤ 0xFFFFF ∧ channel ≤ 15 ∧ vc ≤ 7 ∧ mcast ≤ 1 ∧ port < 64 ∧ half ≤ 2 ∧
      s.halfFits s.cfg.vals (half * 64 + port) = true ∧ f0 = { ty := 0, vc := vc, ch := channel, epoch := epoch, epochSet := true, dst := dst, src := src, mcast := decide (mcast = 1) } ∧
      r = s.routeAt (linkDie (linkOf port half)) (linkOf port half) f0 ∧ r.whole = true) ∧
    (∃ o : Origin, ∃ die, ∃ clear, ∃ s : State, ∃ p, s.waiting o 0x0405 [die, clear] = some p ∧ s.MaySend o 0x0405 ∧ die ≤ 3 ∧
      clearOk o clear) ∧
    (∃ o : Origin, ∃ epoch, ∃ src, ∃ dst, ∃ channel, ∃ vc, ∃ mcast, ∃ port, ∃ half, ∃ s : State, ∃ p, ∃ f0 : Frame, ∃ loc,
      ∃ d, s.waiting o 0x0404 [epoch, src, dst, channel, vc, mcast, port, half] = some p ∧ s.MaySend o 0x0404 ∧ epoch ≤ 3 ∧
      src ≤ 0xFFFFF ∧ dst ≤ 0xFFFFF ∧ channel ≤ 15 ∧ vc ≤ 7 ∧ mcast ≤ 1 ∧ port < 64 ∧ half ≤ 2 ∧
      s.halfFits s.cfg.vals (half * 64 + port) = true ∧ f0 = { ty := 0, vc := vc, ch := channel, epoch := epoch, epochSet := true, dst := dst, src := src, mcast := decide (mcast = 1) } ∧
      d = linkDie (linkOf port half) ∧ s.routeAt d (linkOf port half) f0 = .torn loc) :=
  ⟨⟨tO, 64, tImage, tP, 0, 1 + 3 * 2 ^ 8 + 2 ^ 32, 1, 3, (by decide +kernel), (fun _ => rfl),
    (by unfold State.Owns; decide +kernel), (by decide +kernel), (by decide +kernel), (by decide +kernel),
    (by decide +kernel), (by decide +kernel), (by decide +kernel), (by decide +kernel), (by decide +kernel),
    (by decide +kernel), (by decide +kernel), (by decide +kernel), (by decide +kernel), (by decide +kernel),
    (by decide +kernel), test_imageB, test_imageF, test_imageG, (by decide +kernel), (by decide +kernel)⟩,
   ⟨{ tR with route := { load := [{ ticket := 0, addr := 0, len := 0, stamp := 0 }] } }, { ticket := 0, addr := 0, len := 0, stamp := 0 },
     [], by decide +kernel⟩,
   ⟨tO, 64, 1, tC (tR) 0x0402 [64, 1] 0, tP, (by decide +kernel), (fun _ => rfl), (by unfold State.Owns; decide +kernel),
     (by decide +kernel), (by decide +kernel), (by decide +kernel), (by decide +kernel)⟩,
   ⟨{ tR with route := { check := some { ticket := 0, addr := 0, len := 0, stamp := 0 } } }, { ticket := 0, addr := 0, len := 0, stamp := 0 },
     by decide +kernel⟩,
   ⟨tO, tC (tR) 0x0403 [] 0, tP, (by decide +kernel), (fun _ => rfl)⟩,
   ⟨tO, 3, 0xFFFFF, 0, 15, 7, 1, 63, 0, tC (tR) 0x0404 [3, 0xFFFFF, 0, 15, 7, 1, 63, 0] 0, tP, { ty := 0, vc := 7, ch := 15, epoch := 3, epochSet := true, dst := 0, src := 0xFFFFF, mcast := true },
     (tC (tR) 0x0404 [3, 0xFFFFF, 0, 15, 7, 1, 63, 0] 0).routeAt (linkDie (linkOf 63 0)) (linkOf 63 0) { ty := 0, vc := 7, ch := 15, epoch := 3, epochSet := true, dst := 0, src := 0xFFFFF, mcast := true },
     (by decide +kernel), (fun _ => rfl), (by decide +kernel), (by decide +kernel), (by decide +kernel), (by decide +kernel),
     (by decide +kernel), (by decide +kernel), (by decide +kernel), (by decide +kernel), (by decide +kernel),
     (by decide +kernel), (by decide +kernel), (by decide +kernel)⟩,
   ⟨tO, 3, 1, tC (tR) 0x0405 [3, 1] 0, tP, (by decide +kernel), (fun _ => rfl), (by decide +kernel), (by show _ ≤ 1; decide)⟩,
   ⟨tO, 1, 9, 5, 1, 1, 0, 0, 0, tC (({ tRoute with mismatch := [siteOf rowRoute 0 (routeLoc 0 0 0)] })) 0x0404 [1, 9, 5, 1, 1,
     0, 0, 0] 0, tP, { ty := 0, vc := 1, ch := 1, epoch := 1, epochSet := true, dst := 5, src := 9, mcast := false },
     routeLoc 0 0 0, linkDie (linkOf 0 0), (by decide +kernel), (fun _ => rfl), (by decide +kernel), (by decide +kernel),
     (by decide +kernel), (by decide +kernel), (by decide +kernel), (by decide +kernel), (by decide +kernel),
     (by decide +kernel), (by decide +kernel), (by decide +kernel), (by decide +kernel), (by decide +kernel)⟩⟩

theorem test_hyps_RoundingAndEncoding :
    (∃ fmt : Fmt, fmt.int = false) ∧
    (∃ e : Int, ∃ u : Int, ∃ r : Nat, e < u ∧ r < 2 ^ 24) ∧
    (∃ m : Nat, ∃ e : Int, ∃ u : Int, ∃ r : Nat, e < u ∧ r < 2 ^ 24 ∧ m % 2 ^ (u - e).toNat = 0) ∧
    (∃ fmt : Fmt, ∃ code : Nat, Fmt.ofCode code = some fmt) ∧
    (∃ code : Nat, 10 ≤ code) :=
  ⟨⟨.f8a, by decide +kernel⟩,
   ⟨-3, 0, 2 ^ 24 - 1, by decide +kernel⟩,
   ⟨8, -3, 0, 7, by decide +kernel⟩,
   ⟨.i32, 9, by decide +kernel⟩,
   ⟨10, by decide +kernel⟩⟩

theorem test_hyps_OrderedReduction :
    (∃ h : List Byte, ∃ n : Nat, ∃ ms : List (Nat × Nat × Vals), ∃ j : Nat, ∃ k : Nat, ∃ b : Nat, ∃ lo : Nat, ∃ x : Vals,
      b % 2 ^ j = 0 ∧ b < n ∧ j ≤ k ∧ lo % 2 ^ k = 0 ∧ lo ≤ b ∧ b < lo + 2 ^ k ∧ ((∀ m ∈ ms, m.1 < n)) ∧ ((∀ m ∈ ms,
      b ≤ m.1 → m.1 < b + 2 ^ j → m.1 + m.2.1 ≤ b + 2 ^ j)) ∧
      (node h n (ms.filter (fun m => decide (b ≤ m.1) && decide (m.1 < b + 2 ^ j))) j b).1 = some x) ∧
    (∃ ms : List (Nat × Nat × Vals), ∃ ms' : List (Nat × Nat × Vals), ms.Perm ms' ∧ (ms.map (fun m => (m.1, m.2.1))).Nodup) :=
  ⟨⟨[], 4, [(0, 1, [(0x3F800000, 1)]), (2, 1, [(0x40000000, 1)])], 1, 2, 0, 0, [(0x3F800000, 1)], by decide +kernel⟩,
   ⟨[(0, 1, []), (2, 1, [])], [(2, 1, []), (0, 1, [])], by decide +kernel⟩⟩

theorem test_hyps_TallyInputs :
    (∃ ing : Nat, ∃ s : State, ∃ c : Instr, ∃ q, ∃ g, ∃ m, ∃ mb, (c = .contrib ing ∨ c = .partialFrame ing) ∧
      s.TallyHead ing q g m ∧ g.members[m]? = some mb ∧ ((c = .contrib ing → chKind q.f.head = 1 ∧ mb.switch = false ∧
      mb.cnt = 1)) ∧ ((c = .partialFrame ing → chKind q.f.head = 2)) ∧ g.coll? (chSeq q.f.head) = none ∧
      chSlice q.f.head = 0 ∧ opsBad q.f.head q.f.n = false ∧ s.openFailure g q.f.head = none) ∧
    (∃ ing : Nat, ∃ s : State, ∃ c : Instr, ∃ q, ∃ g, ∃ m, ∃ mb, ∃ x, ∃ r, (c = .contrib ing ∨ c = .partialFrame ing) ∧
      s.TallyHead ing q g m ∧ g.members[m]? = some mb ∧ ((c = .contrib ing → chKind q.f.head = 1 ∧ mb.switch = false ∧
      mb.cnt = 1)) ∧ ((c = .partialFrame ing → chKind q.f.head = 2)) ∧ g.coll? (chSeq q.f.head) = some x ∧
      tabGet? x.firsts m = none ∧ x.firsts ≠ [] ∧ ((∀ e ∈ x.firsts, e.2.2 < q.stamp)) ∧
      refMember s.time.pip g.members x.firsts = some r ∧ r.2 ≠ chDigest q.f.head) ∧
    (∃ ing : Nat, ∃ s : State, ∃ c : Instr, ∃ q, ∃ g, ∃ m, ∃ mb, ∃ x, ∃ st0, (c = .contrib ing ∨ c = .partialFrame ing) ∧
      s.TallyHead ing q g m ∧ g.members[m]? = some mb ∧ ((c = .contrib ing → chKind q.f.head = 1 ∧ mb.switch = false ∧
      mb.cnt = 1)) ∧ ((c = .partialFrame ing → chKind q.f.head = 2)) ∧ g.coll? (chSeq q.f.head) = some x ∧
      tabGet? x.firsts m = some (chDigest q.f.head, st0) ∧ coveredBytes q.f.head = coveredBytes x.hdr ∧
      opsBad q.f.head q.f.n = false ∧ m ∈ (tabGet x.slices {} (chSlice q.f.head)).got) ∧
    (∃ ing : Nat, ∃ s : State, ∃ c : Instr, ∃ q, (c = .contrib ing ∨ c = .partialFrame ing) ∧ s.localHead ing 3 4 = some q ∧
      q.note = none ∧ ((c = .contrib ing → chKind q.f.head = 1)) ∧ ((c = .partialFrame ing → chKind q.f.head = 2)) ∧
      s.groupFor q = none) ∧
    (∃ ing : Nat, ∃ s : State, ∃ c : Instr, ∃ q, ∃ g, ∃ m, ∃ mb, (c = .contrib ing ∨ c = .partialFrame ing) ∧
      s.localHead ing 3 4 = some q ∧ q.note = none ∧ ((c = .contrib ing → chKind q.f.head = 1)) ∧
      ((c = .partialFrame ing → chKind q.f.head = 2)) ∧ s.groupFor q = some g ∧ s.senderOf q g = some m ∧
      g.members[m]? = some mb ∧ mb.switch = false ∧ mb.cnt = 1 ∧ badReserved q = false ∧ g.late (chSeq q.f.head) = true) ∧
    (∃ ing : Nat, ∃ s : State, ∃ c : Instr, ∃ q, ∃ g, ∃ m, ∃ mb, ∃ x, (c = .contrib ing ∨ c = .partialFrame ing) ∧
      s.localHead ing 3 4 = some q ∧ q.note = none ∧ ((c = .contrib ing → chKind q.f.head = 1)) ∧
      ((c = .partialFrame ing → chKind q.f.head = 2)) ∧ s.groupFor q = some g ∧ s.senderOf q g = some m ∧
      g.members[m]? = some mb ∧ mb.switch = false ∧ mb.cnt = 1 ∧ badReserved q = false ∧ g.late (chSeq q.f.head) = false ∧
      g.pastLimit (chSeq q.f.head) q.stamp = some x) :=
  ⟨⟨4, tColl tGroup tQ, .contrib 4, tQ, tGroup, 0, { lk := 4, switch := false, lo := 0, cnt := 1, fid := 7, stride := 4096 },
    (by decide +kernel), ⟨by decide +kernel, by decide +kernel, by decide +kernel, by decide +kernel, by decide +kernel,
    by decide +kernel, by decide +kernel⟩, (by decide +kernel), (by decide +kernel), (by decide +kernel), (by decide +kernel),
    (by decide +kernel), (by decide +kernel), (by decide +kernel)⟩,
   ⟨4, tColl (tOpen [(1, (5, 0))]) { tQ with stamp := 9 }, .contrib 4, { tQ with stamp := 9 }, tOpen [(1, (5, 0))], 0,
     { lk := 4, switch := false, lo := 0, cnt := 1, fid := 7, stride := 4096 }, { seq := 3, t0 := 0, firsts := [(1, (5, 0))] },
     (1, 5), (by decide +kernel), ⟨by decide +kernel, by decide +kernel, by decide +kernel, by decide +kernel,
     by decide +kernel, by decide +kernel, by decide +kernel⟩, (by decide +kernel), (by decide +kernel), (by decide +kernel),
     (by decide +kernel), (by decide +kernel), (by decide +kernel), (by decide +kernel), (by decide +kernel),
     (by decide +kernel)⟩,
   ⟨4, tColl (tDup) tQ, .contrib 4, tQ, tDup, 0, { lk := 4, switch := false, lo := 0, cnt := 1, fid := 7, stride := 4096 },
     tDupC, 0, (by decide +kernel), ⟨by decide +kernel, by decide +kernel, by decide +kernel, by decide +kernel,
     by decide +kernel, by decide +kernel, by decide +kernel⟩, (by decide +kernel), (by decide +kernel), (by decide +kernel),
     (by decide +kernel), (by decide +kernel), (by decide +kernel), (by decide +kernel), (by decide +kernel)⟩,
   ⟨4, tF tR tQ, .contrib 4, tQ, by decide +kernel⟩,
   ⟨4, tColl { tGroup with oldest := 4 } tQ, .contrib 4, tQ, { tGroup with oldest := 4 }, 0, { lk := 4, switch := false, lo := 0, cnt := 1, fid := 7, stride := 4096 },
     by decide +kernel⟩,
   ⟨4, tColl ({ tGroup with timeout := 5, colls := [{ seq := 3, t0 := 0, hdr := tHdr 1 }] }) { tQ with stamp := 9 },
     .contrib 4, { tQ with stamp := 9 }, { tGroup with timeout := 5, colls := [{ seq := 3, t0 := 0, hdr := tHdr 1 }] }, 0,
     { lk := 4, switch := false, lo := 0, cnt := 1, fid := 7, stride := 4096 }, { seq := 3, t0 := 0, hdr := tHdr 1 },
     by decide +kernel⟩⟩

theorem test_hyps_TallyAdmission :
    (∃ ing, ∃ s : State, ∃ q, ∃ m, ∃ g, s.localHead ing 3 4 = some q ∧ q.note = some m ∧ s.groupFor q = some g ∧
      g.coll? (chSeq q.f.head) = none) ∧
    (∃ ing, ∃ s : State, ∃ q, ∃ m, ∃ g, ∃ c, s.localHead ing 3 4 = some q ∧ q.note = some m ∧ s.groupFor q = some g ∧
      g.coll? (chSeq q.f.head) = some c ∧ g.pastLimit (chSeq q.f.head) q.stamp = none ∧
      c.past.contains (pastKey (chSlice q.f.head) q.die) = false ∧ m ∉ (tabGet c.slices {} (chSlice q.f.head)).got ∧
      s.slotOk q.f.group g q.die (chSeq q.f.head) (chSlice q.f.head) = false) ∧
    (∃ ing, ∃ s : State, ∃ q, ∃ m, ∃ g, ∃ c, s.localHead ing 3 4 = some q ∧ q.note = some m ∧ s.groupFor q = some g ∧
      g.coll? (chSeq q.f.head) = some c ∧ g.pastLimit (chSeq q.f.head) q.stamp = none ∧
      c.past.contains (pastKey (chSlice q.f.head) q.die) = false ∧ m ∉ (tabGet c.slices {} (chSlice q.f.head)).got ∧
      s.slotOk q.f.group g q.die (chSeq q.f.head) (chSlice q.f.head) = true ∧ s.mayIssue (4 + q.die) clsReduce = false) ∧
    (∃ ing, ∃ s : State, ∃ q, ∃ m, ∃ g, ∃ c, ∃ j, ∃ mj, s.localHead ing 3 4 = some q ∧ q.note = some m ∧
      s.groupFor q = some g ∧ g.coll? (chSeq q.f.head) = some c ∧ g.pastLimit (chSeq q.f.head) q.stamp = none ∧
      c.past.contains (pastKey (chSlice q.f.head) q.die) = false ∧ m ∉ (tabGet c.slices {} (chSlice q.f.head)).got ∧
      s.slotOk q.f.group g q.die (chSeq q.f.head) (chSlice q.f.head) = true ∧ s.mayIssue (4 + q.die) clsReduce = true ∧
      s.torn rowColl q.die q.f.group = false ∧ g.arrival = false ∧ g.colls = [c] ∧ c.slices = [] ∧ c.finals = [] ∧ j ≠ m ∧
      g.members[j]? = some mj ∧ linkDie mj.lk = q.die) :=
  ⟨⟨4, tColl tGroup { tQ with note := some 0 }, { tQ with note := some 0 }, 0, tGroup, by decide +kernel⟩,
   ⟨4, tColl tFull { tQ with note := some 0 }, { tQ with note := some 0 }, 0, tFull, { seq := 3, t0 := 0 },
     by decide +kernel⟩,
   ⟨4, { tColl { tGroup with colls := [{ seq := 3, t0 := 0 }] } { tQ with note := some 0 } with pwr := { doms := [(4, { spent := [(clsReduce, 2 ^ 60)] })] } },
     { tQ with note := some 0 }, 0, { tGroup with colls := [{ seq := 3, t0 := 0 }] }, { seq := 3, t0 := 0 },
     by decide +kernel⟩,
   ⟨4, tColl { tGroup with colls := [{ seq := 3, t0 := 0 }] } { tQ with note := some 0 }, { tQ with note := some 0 }, 0,
     { tGroup with colls := [{ seq := 3, t0 := 0 }] }, { seq := 3, t0 := 0 }, 1, { lk := 6, switch := false, lo := 1, cnt := 1, fid := 8, stride := 4096 },
     by decide +kernel⟩⟩

theorem test_hyps_TallyDownward :
    (∃ ing, ∃ s : State, ∃ q, ∃ g, s.TallyDown ing q g ∧ chKind q.f.head = 3 ∧ g.coll? (chSeq q.f.head) = none) ∧
    (∃ ing, ∃ s : State, ∃ q, ∃ g, ∃ c, s.TallyDown ing q g ∧ chKind q.f.head = 3 ∧ g.coll? (chSeq q.f.head) = some c ∧
      opsBad q.f.head q.f.n = false ∧ chRub q.f.head = false) ∧
    (∃ ing, ∃ s : State, ∃ q, ∃ g, s.TallyDown ing q g ∧ chKind q.f.head = 4 ∧ g.coll? (chSeq q.f.head) = none) ∧
    (∃ ing, ∃ s : State, ∃ q, ∃ g, ∃ c, s.TallyDown ing q g ∧ chKind q.f.head = 4 ∧ g.coll? (chSeq q.f.head) = some c ∧
      g.closed.length < 2 ^ 30) ∧
    (∃ ing, ∃ s : State, ∃ q, ∃ g, s.TallyDown ing q g ∧ chKind q.f.head = 6 ∧ g.late (chSeq q.f.head) = false ∧
      g.waitErr.contains (chSeq q.f.head) = false ∧ g.closed.length < 2 ^ 30) ∧
    (∃ ing, ∃ s : State, ∃ q, ∃ g, ∃ x, s.localHead ing 4 5 = some q ∧ s.groupFor q = some g ∧ g.parent = some q.ing ∧
      q.f.src = g.parentFid ∧ q.f.dst = s.fidAt q.stamp ∧ badReserved q = false ∧ chKind q.f.head = 4 ∧
      g.pastBackstop (chSeq q.f.head) q.stamp = some x) ∧
    (∃ ing, ∃ s : State, ∃ q, ∃ g, ∃ m, ∃ c, ∃ st, s.TallyHead ing q g m ∧ chKind q.f.head = 5 ∧
      g.coll? (chSeq q.f.head) = some c ∧ Status.ofCode (chStatus q.f.head) = some st) ∧
    (∃ no, ∃ s : State, ∃ g, tabGet? s.coll no = some g ∧ g.rub = none ∧ g.closed.length < 2 ^ 30) :=
  ⟨⟨4, tColl tDown (tQd 3), tQd 3, tDown, ⟨by decide +kernel, by decide +kernel, by decide +kernel, by decide +kernel,
    by decide +kernel⟩, (by decide +kernel), (by decide +kernel)⟩,
   ⟨4, tColl ({ tDown with colls := [{ seq := 3, t0 := 0 }] }) (tQd 3), tQd 3, { tDown with colls := [{ seq := 3, t0 := 0 }] },
     { seq := 3, t0 := 0 }, ⟨by decide +kernel, by decide +kernel, by decide +kernel, by decide +kernel, by decide +kernel⟩,
     (by decide +kernel), (by decide +kernel), (by decide +kernel), (by decide +kernel)⟩,
   ⟨4, tColl tDown (tQd 4), tQd 4, tDown, ⟨by decide +kernel, by decide +kernel, by decide +kernel, by decide +kernel,
     by decide +kernel⟩, (by decide +kernel), (by decide +kernel)⟩,
   ⟨4, tColl ({ tDown with colls := [{ seq := 3, t0 := 0 }] }) (tQd 4), tQd 4, { tDown with colls := [{ seq := 3, t0 := 0 }] },
     { seq := 3, t0 := 0 }, ⟨by decide +kernel, by decide +kernel, by decide +kernel, by decide +kernel, by decide +kernel⟩,
     (by decide +kernel), (by decide +kernel), (by decide +kernel)⟩,
   ⟨4, tColl tDown (tQd 6), tQd 6, tDown, ⟨by decide +kernel, by decide +kernel, by decide +kernel, by decide +kernel,
     by decide +kernel⟩, (by decide +kernel), (by decide +kernel), (by decide +kernel), (by decide +kernel)⟩,
   ⟨4, tColl ({ tDown with colls := [{ seq := 3, t0 := 0, passed := some 2 }] }) ({ tQd 4 with stamp := 2 ^ 30 }),
     { tQd 4 with stamp := 2 ^ 30 }, { tDown with colls := [{ seq := 3, t0 := 0, passed := some 2 }] }, { seq := 3, t0 := 0, passed := some 2 },
     by decide +kernel⟩,
   ⟨4, tColl { tGroup with colls := [{ seq := 3, t0 := 0 }] } (tQk 5), tQk 5, { tGroup with colls := [{ seq := 3, t0 := 0 }] },
     0, { seq := 3, t0 := 0 }, .ok, ⟨by decide +kernel, by decide +kernel, by decide +kernel, by decide +kernel,
     by decide +kernel, by decide +kernel, by decide +kernel⟩, (by decide +kernel), (by decide +kernel), (by decide +kernel)⟩,
   ⟨8, tColl tGroup tQ, tGroup, by decide +kernel⟩⟩

theorem test_hyps_CollectiveCommands :
    (∃ no, ∃ seq, ∃ s : State, ∃ g, ∃ c, tabGet? s.coll no = some g ∧ g.coll? seq = some c ∧ s.time.pip < c.t0 + g.timeout) ∧
    (∃ no, ∃ seq, ∃ s : State, ∃ g, ∃ c, tabGet? s.coll no = some g ∧ g.coll? seq = some c ∧ c.t0 + g.timeout ≤ s.time.pip ∧
      c.hdr ≠ [] ∧ g.missing c ≠ []) ∧
    (∃ no, ∃ seq, ∃ s : State, ∃ g, ∃ c, tabGet? s.coll no = some g ∧ g.coll? seq = some c ∧
      s.time.pip < c.t0 + (g.depth + 1) * g.timeout + 65536) ∧
    (∃ no, ∃ seq, ∃ s : State, ∃ g, ∃ c, tabGet? s.coll no = some g ∧ g.coll? seq = some c ∧
      c.t0 + (g.depth + 1) * g.timeout + 65536 ≤ s.time.pip ∧ g.parent ≠ none ∧ c.passed ≠ none) ∧
    (∃ o : Origin, ∃ addr, ∃ len, ∃ s : State, ∃ p, ∃ b, ∃ g, ∃ res, s.waiting o 0x0501 [addr, len] = some p ∧
      s.MaySend o 0x0501 ∧ s.Owns o resColl ∧ addr % 64 = 0 ∧ addr + len ≤ 2 ^ 37 ∧ s.dramDenied addr len = false ∧
      len = 64 + 32 * s.readNat (dramKey (addr + 30)) 2 ∧ b = s.read (dramKey addr) (min len (64 + 32 * 1024)) ∧
      groupFieldBad b = false ∧ ((∀ x ∈ descMembers b, x.2 = false)) ∧ g = parseGroup b ∧
      s.groupDescBad (descGroup b) g = false ∧ res = g.dies.map (fun d => (d, g.need d)) ∧ ((∀ x ∈ res,
      s.take (unitAcct x.1 1 3) x.2 = x.2)) ∧ s.firstUe (dramKey addr) len = none ∧
      s.mayIssue (addr / 2 ^ 35 % 4) clsMgmt = true) ∧
    (∃ o : Origin, ∃ no, ∃ s : State, ∃ p, ∃ g, s.waiting o 0x0502 [no] = some p ∧ s.MaySend o 0x0502 ∧ s.Owns o resColl ∧
      no ≤ 4095 ∧ tabGet? s.coll no = some g) ∧
    (∃ o : Origin, ∃ no, ∃ clear, ∃ s : State, ∃ p, ∃ g, s.waiting o 0x0503 [no, clear] = some p ∧ s.MaySend o 0x0503 ∧
      clearOk o clear ∧ no ≤ 4095 ∧ tabGet? s.coll no = some g) ∧
    (∃ o : Origin, ∃ no, ∃ s : State, ∃ p, ∃ g, s.waiting o 0x0504 [no] = some p ∧ s.MaySend o 0x0504 ∧ no ≤ 4095 ∧
      tabGet? s.coll no = some g) ∧
    (∃ o : Origin, ∃ die, ∃ clear, ∃ s : State, ∃ p, s.waiting o 0x0505 [die, clear] = some p ∧ s.MaySend o 0x0505 ∧ die ≤ 3 ∧
      clearOk o clear) ∧
    (∃ o : Origin, ∃ no, ∃ seq, ∃ s : State, ∃ p, ∃ g, ∃ c, s.waiting o 0x0506 [no, seq] = some p ∧ s.MaySend o 0x0506 ∧
      s.Owns o resColl ∧ no ≤ 4095 ∧ tabGet? s.coll no = some g ∧ g.dead = false ∧ s.collAt g seq = some c) ∧
    (∃ s : State, ∃ k, ∃ fs : List (List Byte), s.host.sending = [(k, fs)] ∧ ((∀ q ∈ s.tallyFrames, q.f.cells ∉ fs))) ∧
    (∃ s : State, ∃ k, ∃ fs : List (List Byte), s.host.sending = [(k, fs)] ∧ ((∃ q ∈ s.tallyFrames, q.f.cells ∈ fs))) :=
  ⟨⟨8, 3, tColl ({ tGroup with colls := [{ seq := 3, t0 := 0, hdr := tHdr 1 }] }) tQ, { tGroup with colls := [{ seq := 3, t0 := 0, hdr := tHdr 1 }] },
    { seq := 3, t0 := 0, hdr := tHdr 1 }, by decide +kernel⟩,
   ⟨8, 3, tAt (tColl ({ tGroup with colls := [{ seq := 3, t0 := 0, hdr := tHdr 1 }] }) tQ) 100000,
     { tGroup with colls := [{ seq := 3, t0 := 0, hdr := tHdr 1 }] }, { seq := 3, t0 := 0, hdr := tHdr 1 },
     by decide +kernel⟩,
   ⟨8, 3, tColl ({ tGroup with colls := [{ seq := 3, t0 := 0, hdr := tHdr 1 }] }) tQ, { tGroup with colls := [{ seq := 3, t0 := 0, hdr := tHdr 1 }] },
     { seq := 3, t0 := 0, hdr := tHdr 1 }, by decide +kernel⟩,
   ⟨8, 3, tAt (tColl ({ tGroup with parent := some 8, colls := [{ seq := 3, t0 := 0, passed := some 2 }] }) tQ) (2 ^ 30),
     { tGroup with parent := some 8, colls := [{ seq := 3, t0 := 0, passed := some 2 }] }, { seq := 3, t0 := 0, passed := some 2 },
     by decide +kernel⟩,
   ⟨tO, 64, 96, tC (tR.write 64 tDesc08) 0x0501 [64, 96] 0, tP, tDesc08, parseGroup tDesc08,
     (parseGroup tDesc08).dies.map (fun d => (d, (parseGroup tDesc08).need d)), (by decide +kernel), (fun _ => rfl),
     (by unfold State.Owns; decide +kernel), (by decide +kernel), (by decide +kernel), (by decide +kernel),
     (by decide +kernel), (by decide +kernel), (by decide +kernel), (by decide +kernel), (by decide +kernel),
     (by decide +kernel), (by decide +kernel), (by decide +kernel), (by decide +kernel), (by decide +kernel)⟩,
   ⟨tO, 8, tC (tColl tGroup tQ) 0x0502 [8] 0, tP, tGroup, (by decide +kernel), (fun _ => rfl),
     (by unfold State.Owns; decide +kernel), (by decide +kernel), (by decide +kernel)⟩,
   ⟨tO, 8, 1, tC (tColl tGroup tQ) 0x0503 [8, 1] 0, tP, tGroup, (by decide +kernel), (fun _ => rfl), (by show _ ≤ 1; decide),
     (by decide +kernel), (by decide +kernel)⟩,
   ⟨tO, 8, tC (tColl tGroup tQ) 0x0504 [8] 0, tP, tGroup, (by decide +kernel), (fun _ => rfl), (by decide +kernel),
     (by decide +kernel)⟩,
   ⟨tO, 3, 0, tC (tR) 0x0505 [3, 0] 0, tP, (by decide +kernel), (fun _ => rfl), (by decide +kernel), (by show _ ≤ 1; decide)⟩,
   ⟨tO, 8, 3, tC (tColl ({ tGroup with colls := [{ seq := 3, t0 := 0, hdr := tHdr 1 }] }) tQ) 0x0506 [8, 3] 0, tP,
     { tGroup with colls := [{ seq := 3, t0 := 0, hdr := tHdr 1 }] }, { seq := 3, t0 := 0, hdr := tHdr 1 },
     (by decide +kernel), (fun _ => rfl), (by unfold State.Owns; decide +kernel), (by decide +kernel), (by decide +kernel),
     (by decide +kernel), (by decide +kernel)⟩,
   ⟨{ tR with host := { tR.host with sending := [(0, [[1]])] } }, 0, [[1]], by decide +kernel⟩,
   ⟨{ tF tR { tQ with dest := .link 6, f := { tQ.f with cells := [1] }, tally := some { no := 8, seq := 3 } } with host := { tR.host with sending := [(0, [[1]])] } },
     0, [[1]], by decide +kernel⟩⟩

theorem test_hyps_FabricAccesses :
    (∃ ing, ∃ vc, ∃ s : State, ∃ q, ∃ n, ∃ st, s.localHead ing vc 1 = some q ∧ n = bits q.f.spec 0 14 ∧ ((n = 0 ∨ 8192 < n) ∧
      st = Status.badField ∨ (0 < n ∧ n ≤ 8192 ∧ s.fabricStatus q.f n = some st))) ∧
    (∃ ing, ∃ vc, ∃ s : State, ∃ q, ∃ n, s.localHead ing vc 1 = some q ∧ n = bits q.f.spec 0 14 ∧ 0 < n ∧ n ≤ 8192 ∧
      s.fabricStatus q.f n = none ∧ s.memReady q.skein (offsetAddr q.f.offset) n = false) ∧
    (∃ ing, ∃ vc, ∃ s : State, ∃ q, ∃ n, s.localHead ing vc 1 = some q ∧ n = bits q.f.spec 0 14 ∧ 0 < n ∧ n ≤ 8192 ∧
      s.fabricStatus q.f n = none ∧ s.memReady q.skein (offsetAddr q.f.offset) n = true ∧
      s.firstUe (memKey (offsetAddr q.f.offset)) n = none ∧ s.MemOk) ∧
    (∃ ing, ∃ vc, ∃ s : State, ∃ q, ∃ n, ∃ st, s.localHead ing vc 0 = some q ∧ q.dest ≠ .ladder ∧ q.f.dataLen = n + 16 ∧
      s.fabricStatus q.f n = some st) ∧
    (∃ ing, ∃ vc, ∃ s : State, ∃ q, ∃ n, s.localHead ing vc 0 = some q ∧ q.dest ≠ .ladder ∧ q.f.dataLen = n + 16 ∧
      s.fabricStatus q.f n = none ∧ s.memReady q.skein (offsetAddr q.f.offset) n = false) ∧
    (∃ ing, ∃ vc, ∃ s : State, ∃ q, ∃ n, s.localHead ing vc 0 = some q ∧ q.dest ≠ .ladder ∧ q.f.dataLen = n + 16 ∧
      s.fabricStatus q.f n = none ∧ s.memReady q.skein (offsetAddr q.f.offset) n = true ∧ s.MemOk ∧ ((∀ w ∈ s.ueWords,
      w * 8 + 8 ≤ memKey (offsetAddr q.f.offset) ∨ memKey (offsetAddr q.f.offset) + n ≤ w * 8 ∨ (memKey (offsetAddr q.f.offset) ≤ w * 8 ∧
      w * 8 + 8 ≤ memKey (offsetAddr q.f.offset) + n)))) :=
  ⟨⟨4, 1, tF tR ({ die := 0, ing := 4, dest := .skein 0, f := { ty := 1, vc := 1, ch := 0, dst := 0, src := 7, spec := 0, cells := tOff 0x1000 }, stamp := 0, acct := portAcct 2 1, hanks := [] }),
    { die := 0, ing := 4, dest := .skein 0, f := { ty := 1, vc := 1, ch := 0, dst := 0, src := 7, spec := 0, cells := tOff 0x1000 }, stamp := 0, acct := portAcct 2 1, hanks := [] },
    0, .badField, by decide +kernel⟩,
   ⟨4, 1, tF tAsleep ({ die := 0, ing := 4, dest := .skein 0, f := { ty := 1, vc := 1, ch := 0, dst := 0, src := 7, spec := 64, cells := tOff (2 ^ 40) }, stamp := 0, acct := portAcct 2 1, hanks := [] }),
     { die := 0, ing := 4, dest := .skein 0, f := { ty := 1, vc := 1, ch := 0, dst := 0, src := 7, spec := 64, cells := tOff (2 ^ 40) }, stamp := 0, acct := portAcct 2 1, hanks := [] },
     64, by decide +kernel⟩,
   ⟨4, 1, tF tR ({ die := 0, ing := 4, dest := .skein 0, f := { ty := 1, vc := 1, ch := 0, dst := 0, src := 7, spec := 64, cells := tOff 0x1000 }, stamp := 0, acct := portAcct 2 1, hanks := [] }),
     { die := 0, ing := 4, dest := .skein 0, f := { ty := 1, vc := 1, ch := 0, dst := 0, src := 7, spec := 64, cells := tOff 0x1000 }, stamp := 0, acct := portAcct 2 1, hanks := [] },
     64, (by decide +kernel), (by decide +kernel), (by decide +kernel), (by decide +kernel), (by decide +kernel),
     (by decide +kernel), (by decide +kernel), (by unfold State.MemOk; decide +kernel)⟩,
   ⟨4, 1, tF tR ({ die := 0, ing := 4, dest := .skein 0, f := { ty := 0, vc := 1, ch := 0, dst := 0, src := 7, spec := 0, cells := tOff (2 ^ 41) ++ List.replicate 64 1 }, stamp := 0, acct := portAcct 2 1, hanks := [] }),
     { die := 0, ing := 4, dest := .skein 0, f := { ty := 0, vc := 1, ch := 0, dst := 0, src := 7, spec := 0, cells := tOff (2 ^ 41) ++ List.replicate 64 1 }, stamp := 0, acct := portAcct 2 1, hanks := [] },
     112, .badField, by decide +kernel⟩,
   ⟨4, 1, tF tAsleep ({ die := 0, ing := 4, dest := .skein 0, f := { ty := 0, vc := 1, ch := 0, dst := 0, src := 7, spec := 0, cells := tOff (2 ^ 40) ++ List.replicate 64 1 }, stamp := 0, acct := portAcct 2 1, hanks := [] }),
     { die := 0, ing := 4, dest := .skein 0, f := { ty := 0, vc := 1, ch := 0, dst := 0, src := 7, spec := 0, cells := tOff (2 ^ 40) ++ List.replicate 64 1 }, stamp := 0, acct := portAcct 2 1, hanks := [] },
     112, by decide +kernel⟩,
   ⟨4, 1, tF tR ({ die := 0, ing := 4, dest := .skein 0, f := { ty := 0, vc := 1, ch := 0, dst := 0, src := 7, spec := 0, cells := tOff 0x1000 ++ List.replicate 64 1 }, stamp := 0, acct := portAcct 2 1, hanks := [] }),
     { die := 0, ing := 4, dest := .skein 0, f := { ty := 0, vc := 1, ch := 0, dst := 0, src := 7, spec := 0, cells := tOff 0x1000 ++ List.replicate 64 1 }, stamp := 0, acct := portAcct 2 1, hanks := [] },
     112, (by decide +kernel), (by decide +kernel), (by decide +kernel), (by decide +kernel), (by decide +kernel),
     (by unfold State.MemOk; decide +kernel), (by decide +kernel)⟩⟩

theorem test_hyps_Atomics :
    (∃ ing : Nat, ∃ s : State, ∃ i : Instr, ∃ code : Nat, ∃ q : QFrame, ∃ st, (i, code) ∈ [(Instr.addI32 ing, 1),
      (.addI64 ing, 2), (.addF32 ing, 3), (.addF32x8 ing, 4), (.maxI32 ing, 5), (.minI32 ing, 6), (.maxF32 ing, 7),
      (.minF32 ing, 8), (.and64 ing, 9), (.or64 ing, 10), (.xor64 ing, 11), (.swap64 ing, 12), (.cas64 ing, 13)] ∧
      s.localHead ing 1 3 = some q ∧ bits q.f.spec 0 8 % 128 = code ∧ s.atomicStatus q.f = some st) ∧
    (∃ ing : Nat, ∃ s : State, ∃ i : Instr, ∃ code : Nat, ∃ q : QFrame, ∃ n : Nat, (i, code) ∈ [(Instr.addI32 ing, 1),
      (.addI64 ing, 2), (.addF32 ing, 3), (.addF32x8 ing, 4), (.maxI32 ing, 5), (.minI32 ing, 6), (.maxF32 ing, 7),
      (.minF32 ing, 8), (.and64 ing, 9), (.or64 ing, 10), (.xor64 ing, 11), (.swap64 ing, 12), (.cas64 ing, 13)] ∧
      s.localHead ing 1 3 = some q ∧ bits q.f.spec 0 8 % 128 = code ∧ s.atomicStatus q.f = none ∧ atomSize code = some n ∧
      s.memReady q.skein (offsetAddr q.f.offset) n = false) ∧
    (∃ ing : Nat, ∃ s : State, ∃ i : Instr, ∃ code : Nat, ∃ q : QFrame, ∃ key : Nat, ∃ n : Nat, ∃ v : Nat × Cnts, (i,
      code) ∈ [(Instr.addI32 ing, 1), (.addI64 ing, 2), (.addF32 ing, 3), (.addF32x8 ing, 4), (.maxI32 ing, 5), (.minI32 ing,
      6), (.maxF32 ing, 7), (.minF32 ing, 8), (.and64 ing, 9), (.or64 ing, 10), (.xor64 ing, 11), (.swap64 ing, 12),
      (.cas64 ing, 13)] ∧ s.localHead ing 1 3 = some q ∧ bits q.f.spec 0 8 % 128 = code ∧ s.atomicStatus q.f = none ∧
      key = memKey (offsetAddr q.f.offset) ∧ atomSize code = some n ∧ s.memReady q.skein (offsetAddr q.f.offset) n = true ∧
      s.firstUe key n = none ∧ s.MemOk ∧
      v = atomApply (bits q.f.spec 0 8) (leNat (s.read key n)) (q.f.operand (atomOperands (bits q.f.spec 0 8)))) ∧
    (∃ old : Nat, old < 2 ^ 32) ∧
    (∃ old : Nat, ∃ x : Nat, old < 2 ^ 64 ∧ x < 2 ^ 64) ∧
    (∃ c : Nat, ∃ n : Nat, c < 2 ^ 64 ∧ n < 2 ^ 64) :=
  ⟨⟨4, tF tR ({ die := 0, ing := 4, dest := .skein 0, f := { ty := 3, vc := 1, ch := 0, dst := 0, src := 7, spec := 1, cells := tOff 0x1001 }, stamp := 0, acct := portAcct 2 1, hanks := [] }),
    .addI32 4, 1, { die := 0, ing := 4, dest := .skein 0, f := { ty := 3, vc := 1, ch := 0, dst := 0, src := 7, spec := 1, cells := tOff 0x1001 }, stamp := 0, acct := portAcct 2 1, hanks := [] },
    .badField, by decide +kernel⟩,
   ⟨4, tF { tR with integ := { refresh := [(channelOf (dramKey 0x1000), 5)] } } ({ die := 0, ing := 4, dest := .skein 0, f := { ty := 3, vc := 1, ch := 0, dst := 0, src := 7, spec := 1, cells := tOff 0x1000 }, stamp := 0, acct := portAcct 2 1, hanks := [] }),
     .addI32 4, 1, { die := 0, ing := 4, dest := .skein 0, f := { ty := 3, vc := 1, ch := 0, dst := 0, src := 7, spec := 1, cells := tOff 0x1000 }, stamp := 0, acct := portAcct 2 1, hanks := [] },
     4, by decide +kernel⟩,
   ⟨4, tF tR ({ die := 0, ing := 4, dest := .skein 0, f := { ty := 3, vc := 1, ch := 0, dst := 0, src := 7, spec := 1, cells := tOff 0x1000 }, stamp := 0, acct := portAcct 2 1, hanks := [] }),
     .addI32 4, 1, { die := 0, ing := 4, dest := .skein 0, f := { ty := 3, vc := 1, ch := 0, dst := 0, src := 7, spec := 1, cells := tOff 0x1000 }, stamp := 0, acct := portAcct 2 1, hanks := [] },
     memKey (offsetAddr 0x1000), 4, atomApply 1 0 0, (by decide +kernel), (by decide +kernel), (by decide +kernel),
     (by decide +kernel), (by decide +kernel), (by decide +kernel), (by decide +kernel), (by decide +kernel),
     (by unfold State.MemOk; decide +kernel), (by decide +kernel)⟩,
   ⟨2 ^ 32 - 1, by decide +kernel⟩,
   ⟨2 ^ 64 - 1, 1, by decide +kernel⟩,
   ⟨5, 6, by decide +kernel⟩⟩

theorem test_hyps_SignalsAndRetention :
    (∃ ing, ∃ s : State, ∃ q, ∃ st, s.localHead ing 1 3 = some q ∧ s.atomicStatus q.f = none ∧
      signalStitch (bits q.f.offset 0 32) = some st ∧ (s.tile st).power = .active ∧ bits q.f.spec 0 8 % 128 = 0x20) ∧
    (∃ ing, ∃ s : State, ∃ q, ∃ st, s.localHead ing 1 3 = some q ∧ s.atomicStatus q.f = none ∧
      signalStitch (bits q.f.offset 0 32) = some st ∧ (s.tile st).power = .active ∧ bits q.f.spec 0 8 % 128 = 0x21 ∧
      s.cntTorn st (bits (q.f.operand 8) 32 4) = false) ∧
    (∃ st : Nat, ∃ s : State, s.stitchStatus st = none ∧ (s.tile st).power = .active) ∧
    (∃ st, ∃ bank, ∃ s : State, s.stitchStatus st = none ∧ bank < 32 ∧ (s.tile st).awake.getLsbD bank = false ∧
      (s.tile st).power = .active) ∧
    (∃ st, ∃ bank, ∃ s : State, s.stitchStatus st = none ∧ bank < 32 ∧ (s.tile st).awake.getLsbD bank = true ∧
      (s.tile st).retain.getLsbD bank = true ∧ ((∀ p,
      tabGet? (s.tile st).idle bank = some p → p + s.cyclesPips (st / 256) 2048 ≤ s.time.pip)) ∧
      s.bankPending st bank = false) ∧
    (∃ st, ∃ bank, ∃ s : State, s.stitchStatus st = none ∧ bank < 32 ∧ (s.tile st).retain.getLsbD bank = false) :=
  ⟨⟨4, tF tR ({ die := 0, ing := 4, dest := .skein 0, f := { ty := 3, vc := 1, ch := 0, dst := 0, src := 7, spec := 0x20, cells := tOff (3 * 2 ^ 40 + 0x100) }, stamp := 0, acct := portAcct 2 1, hanks := [] }),
    { die := 0, ing := 4, dest := .skein 0, f := { ty := 3, vc := 1, ch := 0, dst := 0, src := 7, spec := 0x20, cells := tOff (3 * 2 ^ 40 + 0x100) }, stamp := 0, acct := portAcct 2 1, hanks := [] },
    0, by decide +kernel⟩,
   ⟨4, tF tR ({ die := 0, ing := 4, dest := .skein 0, f := { ty := 3, vc := 1, ch := 0, dst := 0, src := 7, spec := 0x21, cells := tOff (3 * 2 ^ 40 + 0x100) }, stamp := 0, acct := portAcct 2 1, hanks := [] }),
     { die := 0, ing := 4, dest := .skein 0, f := { ty := 3, vc := 1, ch := 0, dst := 0, src := 7, spec := 0x21, cells := tOff (3 * 2 ^ 40 + 0x100) }, stamp := 0, acct := portAcct 2 1, hanks := [] },
     0, by decide +kernel⟩,
   ⟨1023, tR, by decide +kernel⟩,
   ⟨0, 31, { tR with tiles := [(0, { awake := 0 })] }, by decide +kernel⟩,
   ⟨0, 31, tAt { tR with tiles := [(0, { retain := 0xFFFFFFFF#32, idle := [(31, 0)] })] } (2 ^ 30), by decide +kernel⟩,
   ⟨0, 31, tR, by decide +kernel⟩⟩

theorem test_hyps_HostWindow :
    (∃ h, ∃ off, ∃ len, ∃ s : State, s.bar2Ok h off len = true ∧ s.localStatus (s.bar2Addr h off) len = none ∧
      s.bar2Open h (s.bar2Addr h off) len = true ∧ s.firstUe (memKey (s.bar2Addr h off)) len = none ∧ s.MemOk) ∧
    (∃ h, ∃ off, ∃ len, ∃ s : State, s.bar2Ok h off len = true ∧ s.localStatus (s.bar2Addr h off) len ≠ none) ∧
    (∃ h : HostId, ∃ off : Nat, ∃ data : List Byte, ∃ s : State, s.bar2Ok h off data.length = true ∧ data.length ≤ 512 ∧
      s.localStatus (s.bar2Addr h off) data.length = none ∧ s.bar2Open h (s.bar2Addr h off) data.length = true ∧ s.MemOk ∧
      ((∀ w ∈ s.ueWords,
      w * 8 + 8 ≤ memKey (s.bar2Addr h off) ∨ memKey (s.bar2Addr h off) + data.length ≤ w * 8 ∨ (memKey (s.bar2Addr h off) ≤ w * 8 ∧
      w * 8 + 8 ≤ memKey (s.bar2Addr h off) + data.length)))) ∧
    (∃ h : HostId, ∃ off : Nat, ∃ data : List Byte, ∃ s : State, s.bar2Ok h off data.length = true ∧ data.length ≤ 512 ∧
      s.localStatus (s.bar2Addr h off) data.length ≠ none) ∧
    (∃ h : HostId, ∃ data : List Byte, ∃ s : State, (s.host.port h).up = true ∧ data.length = 4) ∧
    (∃ s : State, s.sidebandUp = true) ∧
    (∃ st : Nat, ∃ data : List Byte, ∃ s : State, st < 1024 ∧ s.stitchStatus st = none ∧ (s.tile st).power = .active ∧
      data.length = 4) ∧
    (∃ h : HostId, ∃ data : List Byte, ∃ s : State, (s.host.port h).up = true ∧ data.length = 4 ∧ 10 ≤ bits (leNat data) 8 6 ∧
      bits (leNat data) 8 6 ≤ 17) :=
  ⟨⟨.h0, 4096, 64, tR, (by decide +kernel), (by decide +kernel), (by decide +kernel), (by decide +kernel),
    (by unfold State.MemOk; decide +kernel)⟩,
   ⟨.h1, (2 ^ 36 - 64), 128, tR, by decide +kernel⟩,
   ⟨.h0, 4096, [1, 2], tR, (by decide +kernel), (by decide +kernel), (by decide +kernel), (by decide +kernel),
     (by unfold State.MemOk; decide +kernel), (by decide +kernel)⟩,
   ⟨.h0, (2 ^ 35 - 1), [1, 2], tR, by decide +kernel⟩,
   ⟨.h1, [1, 2, 3, 4], tR, by decide +kernel⟩,
   ⟨tR, by decide +kernel⟩,
   ⟨1023, [1, 2, 3, 4], tR, by decide +kernel⟩,
   ⟨.h1, [0, 0x0A, 0, 0], tR, by decide +kernel⟩⟩

theorem test_hyps_FarRequests :
    (∃ ing, ∃ s : State, ∃ q, ∃ r, s.localHead ing 2 2 = some q ∧ s.reqFor q.f = some r ∧ s.inTime r q = true) ∧
    (∃ ing, ∃ s : State, ∃ q, s.localHead ing 2 2 = some q ∧ ((∀ r, s.reqFor q.f = some r → s.inTime r q = false))) ∧
    (∃ ing, ∃ s : State, ∃ q, ∃ r, ∃ st, s.localHead ing 2 11 = some q ∧ s.reqFor q.f = some r ∧ s.inTime r q = true ∧
      Status.ofCode (bits q.f.spec 0 8) = some st) ∧
    (∃ ing, ∃ s : State, ∃ q, s.localHead ing 2 11 = some q ∧ ((∀ r, s.reqFor q.f = some r → s.inTime r q = false))) ∧
    (∃ dst, ∃ seq, ∃ s : State, ∃ r, s.route.reqs.find? (fun x => x.dst == dst && x.seq == seq) = some r ∧ ((∀ d,
      s.due r = some d → s.time.pip < d) ∨ s.answerWaits r = true)) ∧
    (∃ dst, ∃ seq, ∃ s : State, ∃ r, ∃ d, s.route.reqs.find? (fun x => x.dst == dst && x.seq == seq) = some r ∧
      s.due r = some d ∧ d ≤ s.time.pip ∧ s.answerWaits r = false ∧ ((∀ h, ∀ k, r.who ≠ .mirror h k)) ∧ ((∀ h,
      r.who ≠ .seal h))) :=
  ⟨⟨4, tF { tR with route := { reqs := [{ dst := 7, seq := 0, who := .engine 0 1, addr := 0, len := 64, stamp := 0, limit := 2 ^ 20 }] } } ({ die := 0, ing := 4, dest := .skein 0, f := { ty := 2, vc := 2, ch := 0, dst := 0, src := 7, spec := 0, cells := List.replicate 64 1 }, stamp := 0, acct := portAcct 2 1, hanks := [] }),
    { die := 0, ing := 4, dest := .skein 0, f := { ty := 2, vc := 2, ch := 0, dst := 0, src := 7, spec := 0, cells := List.replicate 64 1 }, stamp := 0, acct := portAcct 2 1, hanks := [] },
    { dst := 7, seq := 0, who := .engine 0 1, addr := 0, len := 64, stamp := 0, limit := 2 ^ 20 }, by decide +kernel⟩,
   ⟨4, tF tR ({ die := 0, ing := 4, dest := .skein 0, f := { ty := 2, vc := 2, ch := 0, dst := 0, src := 7, spec := 0, cells := List.replicate 64 1 }, stamp := 0, acct := portAcct 2 1, hanks := [] }),
     { die := 0, ing := 4, dest := .skein 0, f := { ty := 2, vc := 2, ch := 0, dst := 0, src := 7, spec := 0, cells := List.replicate 64 1 }, stamp := 0, acct := portAcct 2 1, hanks := [] },
     by decide +kernel⟩,
   ⟨4, tF { tR with route := { reqs := [{ dst := 7, seq := 0, who := .engine 0 1, addr := 0, len := 64, stamp := 0, limit := 2 ^ 20 }] } } ({ die := 0, ing := 4, dest := .skein 0, f := { ty := 11, vc := 2, ch := 0, dst := 0, src := 7, spec := 9, cells := List.replicate 64 1 }, stamp := 0, acct := portAcct 2 1, hanks := [] }),
     { die := 0, ing := 4, dest := .skein 0, f := { ty := 11, vc := 2, ch := 0, dst := 0, src := 7, spec := 9, cells := List.replicate 64 1 }, stamp := 0, acct := portAcct 2 1, hanks := [] },
     { dst := 7, seq := 0, who := .engine 0 1, addr := 0, len := 64, stamp := 0, limit := 2 ^ 20 },
     (Status.ofCode 9).getD .ok, by decide +kernel⟩,
   ⟨4, tF tR ({ die := 0, ing := 4, dest := .skein 0, f := { ty := 11, vc := 2, ch := 0, dst := 0, src := 7, spec := 9, cells := List.replicate 64 1 }, stamp := 0, acct := portAcct 2 1, hanks := [] }),
     { die := 0, ing := 4, dest := .skein 0, f := { ty := 11, vc := 2, ch := 0, dst := 0, src := 7, spec := 9, cells := List.replicate 64 1 }, stamp := 0, acct := portAcct 2 1, hanks := [] },
     by decide +kernel⟩,
   ⟨7, 0, { tR with route := { reqs := [{ dst := 7, seq := 0, who := .engine 0 1, addr := 0, len := 64, stamp := 0, limit := 2 ^ 20 }] } },
     { dst := 7, seq := 0, who := .engine 0 1, addr := 0, len := 64, stamp := 0, limit := 2 ^ 20 }, (by decide +kernel),
     (Or.inl (by intro d h; have h2 : some (2 ^ 20) = some d := h; cases h2; decide +kernel))⟩,
   ⟨7, 0, tAt { tR with route := { reqs := [{ dst := 7, seq := 0, who := .engine 0 1, addr := 0, len := 64, stamp := 0, limit := 2 ^ 20 }] } } (2 ^ 40),
     { dst := 7, seq := 0, who := .engine 0 1, addr := 0, len := 64, stamp := 0, limit := 2 ^ 20 }, 2 ^ 20,
     (by decide +kernel), (by decide +kernel), (by decide +kernel), (by decide +kernel), (fun _ _ h => nomatch h),
     (fun _ h => nomatch h)⟩⟩

theorem test_hyps_WordIssue :
    (∃ st : Nat, ∃ slot : Nat, ∃ s : State, ∃ i : Instr, ∃ kind : BitVec 256 → Bool, ∃ c : Checked, (i,
      kind) ∈ [(Instr.ctrl st slot, fun w => wForm w == 0), (.mma st slot, fun w => isMatrix 0 0 w || isMatrix 0 1 w),
      (.mmaZero st slot, fun w => isMatrix 1 0 w || isMatrix 1 1 w), (.loadAcc st slot, isMatrix 2 0), (.drain st slot,
      isMatrix 3 0), (.predict st slot, isMatrix 1 2), (.maskN st slot, fun w => isMatrix 0 3 w || isMatrix 1 3 w),
      (.maskK st slot, fun w => isMatrix 0 4 w || isMatrix 1 4 w), (.vectorFma st slot, isVector 0), (.vectorAdd st slot,
      isVector 1), (.vectorMul st slot, isVector 2), (.vectorMax st slot, isVector 3), (.vectorMin st slot, isVector 4),
      (.vectorCmpEq st slot, isVector 5), (.vectorCmpLt st slot, isVector 6), (.vectorCmpLe st slot, isVector 7),
      (.vectorAnd st slot, isVector 8), (.vectorOr st slot, isVector 9), (.vectorXor st slot, isVector 10),
      (.vectorCvt st slot, isVector 11), (.dma st slot, fun w => wForm w == 3), (.copy st slot, isMem 0), (.gather st slot,
      isMem 1), (.memAtomic st slot, isMem 2), (.sigRemote st slot, isMem 3), (.agsetBase st slot, isAg 0),
      (.agsetStride st slot, isAg 1), (.agsetAdd st slot, isAg 2), (.cmpSet st slot, isScalar 0), (.cmpAdd st slot,
      isScalar 1), (.lcSet st slot, isScalar 2), (.cntWrite st slot, isScalar 3), (.testWord st slot, isScalar 4),
      (.predSet st slot, isScalar 5), (.descWord st slot, fun w => wForm w == 7), (.endWord st slot,
      fun w => wForm w == 15)] ∧ (s.slot st slot).next = some c ∧ kind c.w = true ∧ (s.slot st slot).st = .live ∧
      (s.slot st slot).ending = false ∧ s.waitTorn st c.w = false ∧ s.testTorn st c.w = false ∧
      s.torn rowStitch st (loopLoc slot) = false ∧ s.waitOk st slot (s.slot st slot) c.w = true ∧ s.pick st = some slot) ∧
    (∃ st : Nat, ∃ slot : Nat, ∃ s : State, ∃ i : Instr, ∃ kind : BitVec 256 → Bool, ∃ c : Checked, (i,
      kind) ∈ [(Instr.ctrl st slot, fun w => wForm w == 0), (.mma st slot, fun w => isMatrix 0 0 w || isMatrix 0 1 w),
      (.mmaZero st slot, fun w => isMatrix 1 0 w || isMatrix 1 1 w), (.loadAcc st slot, isMatrix 2 0), (.drain st slot,
      isMatrix 3 0), (.predict st slot, isMatrix 1 2), (.maskN st slot, fun w => isMatrix 0 3 w || isMatrix 1 3 w),
      (.maskK st slot, fun w => isMatrix 0 4 w || isMatrix 1 4 w), (.vectorFma st slot, isVector 0), (.vectorAdd st slot,
      isVector 1), (.vectorMul st slot, isVector 2), (.vectorMax st slot, isVector 3), (.vectorMin st slot, isVector 4),
      (.vectorCmpEq st slot, isVector 5), (.vectorCmpLt st slot, isVector 6), (.vectorCmpLe st slot, isVector 7),
      (.vectorAnd st slot, isVector 8), (.vectorOr st slot, isVector 9), (.vectorXor st slot, isVector 10),
      (.vectorCvt st slot, isVector 11), (.dma st slot, fun w => wForm w == 3), (.copy st slot, isMem 0), (.gather st slot,
      isMem 1), (.memAtomic st slot, isMem 2), (.sigRemote st slot, isMem 3), (.agsetBase st slot, isAg 0),
      (.agsetStride st slot, isAg 1), (.agsetAdd st slot, isAg 2), (.cmpSet st slot, isScalar 0), (.cmpAdd st slot,
      isScalar 1), (.lcSet st slot, isScalar 2), (.cntWrite st slot, isScalar 3), (.testWord st slot, isScalar 4),
      (.predSet st slot, isScalar 5), (.descWord st slot, fun w => wForm w == 7), (.endWord st slot,
      fun w => wForm w == 15)] ∧ (s.slot st slot).next = some c ∧ kind c.w = true ∧ (s.slot st slot).st = .live ∧
      (s.slot st slot).ending = false ∧ s.waitTorn st c.w = false ∧ s.testTorn st c.w = false ∧
      s.torn rowStitch st (loopLoc slot) = false ∧ s.waitOk st slot (s.slot st slot) c.w = false ∧
      (s.slot st slot).waited = true) ∧
    (∃ st : Nat, ∃ slot : Nat, ∃ s : State, ∃ i : Instr, ∃ kind : BitVec 256 → Bool, ∃ c : Checked, (i,
      kind) ∈ [(Instr.ctrl st slot, fun w => wForm w == 0), (.mma st slot, fun w => isMatrix 0 0 w || isMatrix 0 1 w),
      (.mmaZero st slot, fun w => isMatrix 1 0 w || isMatrix 1 1 w), (.loadAcc st slot, isMatrix 2 0), (.drain st slot,
      isMatrix 3 0), (.predict st slot, isMatrix 1 2), (.maskN st slot, fun w => isMatrix 0 3 w || isMatrix 1 3 w),
      (.maskK st slot, fun w => isMatrix 0 4 w || isMatrix 1 4 w), (.vectorFma st slot, isVector 0), (.vectorAdd st slot,
      isVector 1), (.vectorMul st slot, isVector 2), (.vectorMax st slot, isVector 3), (.vectorMin st slot, isVector 4),
      (.vectorCmpEq st slot, isVector 5), (.vectorCmpLt st slot, isVector 6), (.vectorCmpLe st slot, isVector 7),
      (.vectorAnd st slot, isVector 8), (.vectorOr st slot, isVector 9), (.vectorXor st slot, isVector 10),
      (.vectorCvt st slot, isVector 11), (.dma st slot, fun w => wForm w == 3), (.copy st slot, isMem 0), (.gather st slot,
      isMem 1), (.memAtomic st slot, isMem 2), (.sigRemote st slot, isMem 3), (.agsetBase st slot, isAg 0),
      (.agsetStride st slot, isAg 1), (.agsetAdd st slot, isAg 2), (.cmpSet st slot, isScalar 0), (.cmpAdd st slot,
      isScalar 1), (.lcSet st slot, isScalar 2), (.cntWrite st slot, isScalar 3), (.testWord st slot, isScalar 4),
      (.predSet st slot, isScalar 5), (.descWord st slot, fun w => wForm w == 7), (.endWord st slot,
      fun w => wForm w == 15)] ∧ (s.slot st slot).next = some c ∧ kind c.w = true ∧ (s.slot st slot).st = .live ∧
      (s.slot st slot).ending = false ∧ s.waitTorn st c.w = false ∧ s.testTorn st c.w = false ∧
      s.torn rowStitch st (loopLoc slot) = false ∧ s.waitOk st slot (s.slot st slot) c.w = false ∧
      (s.slot st slot).waited = false) :=
  ⟨⟨0, 0, tSlot { st := .live, owner := some 3, next := some { w := BitVec.ofNat 256 (0 * 2 ^ 236 + 0), pc := 0 } },
    .ctrl 0 0, fun w => wForm w == 0, { w := BitVec.ofNat 256 (0 * 2 ^ 236 + 0), pc := 0 }, (by simp), (by decide +kernel),
    (by decide +kernel), (by decide +kernel), (by decide +kernel), (by decide +kernel), (by decide +kernel),
    (by decide +kernel), (by decide +kernel), (by decide +kernel)⟩,
   ⟨0, 0, tSlot { st := .live, owner := some 3, next := some { w := BitVec.ofNat 256 (0 * 2 ^ 236 + 2 ^ 234), pc := 0 }, waited := true },
     .ctrl 0 0, fun w => wForm w == 0, { w := BitVec.ofNat 256 (0 * 2 ^ 236 + 2 ^ 234), pc := 0 }, (by simp),
     (by decide +kernel), (by decide +kernel), (by decide +kernel), (by decide +kernel), (by decide +kernel),
     (by decide +kernel), (by decide +kernel), (by decide +kernel), (by decide +kernel)⟩,
   ⟨0, 0, tSlot { st := .live, owner := some 3, next := some { w := BitVec.ofNat 256 (0 * 2 ^ 236 + 2 ^ 234), pc := 0 } },
     .ctrl 0 0, fun w => wForm w == 0, { w := BitVec.ofNat 256 (0 * 2 ^ 236 + 2 ^ 234), pc := 0 }, (by simp),
     (by decide +kernel), (by decide +kernel), (by decide +kernel), (by decide +kernel), (by decide +kernel),
     (by decide +kernel), (by decide +kernel), (by decide +kernel), (by decide +kernel)⟩⟩

theorem test_hyps_HardwareLoops :
    (∃ x : Slot, ∃ w : BitVec 256, ∃ pc : Nat, wf w 188 187 = 0 ∧ ((∀ n,
      n < 4 → (x.loops.getD n {}).active = true → (x.loops.getD n {}).last ≠ pc))) ∧
    (∃ x : Slot, ∃ w : BitVec 256, ∃ n, ∃ cnt, wf w 188 187 = 1 ∧ n = wf w 186 185 ∧
      cnt = (if wf w 184 184 = 0 then wf w 183 168 else x.lc.getD n 0) ∧ 0 < cnt) ∧
    (∃ x : Slot, ∃ w : BitVec 256, ∃ pc : Nat, ∃ n, ∃ cnt, wf w 188 187 = 1 ∧ n = wf w 186 185 ∧
      cnt = (if wf w 184 184 = 0 then wf w 183 168 else x.lc.getD n 0) ∧ cnt = 0 ∧ ((∀ m,
      m < 4 → (x.loops.getD m {}).active = true → (x.loops.getD m {}).last ≠ pc + wf w 167 152))) ∧
    (∃ x : Slot, ∃ w : BitVec 256, ∃ pc : Nat, ∃ n, wf w 188 187 = 0 ∧ n < 4 ∧ (x.loops.getD n {}).active = true ∧
      (x.loops.getD n {}).last = pc ∧ ((∀ m,
      n < m → m < 4 → (x.loops.getD m {}).active = true → (x.loops.getD m {}).last ≠ pc)) ∧
      (x.loops.getD n {}).index + 1 < (x.loops.getD n {}).count) ∧
    (∃ x : Slot, ∃ w : BitVec 256, ∃ pc : Nat, ∃ n, wf w 188 187 = 0 ∧ n < 4 ∧ (x.loops.getD n {}).active = true ∧
      (x.loops.getD n {}).last = pc ∧ ((∀ m,
      n < m → m < 4 → (x.loops.getD m {}).active = true → (x.loops.getD m {}).last ≠ pc)) ∧
      (x.loops.getD n {}).count ≤ (x.loops.getD n {}).index + 1) ∧
    (∃ x : Slot, ∃ w : BitVec 256, ∃ pc : Nat, ∃ n, wf w 188 187 = 0 ∧ n < 4 ∧ (x.loops.getD n {}).active = true ∧
      (x.loops.getD n {}).last = pc ∧ ((∀ m,
      n < m → m < 4 → (x.loops.getD m {}).active = true → (x.loops.getD m {}).last ≠ pc)) ∧
      (x.loops.getD n {}).count ≤ (x.loops.getD n {}).index + 1 ∧ ((∀ m,
      m < n → (x.loops.getD m {}).active = true → (x.loops.getD m {}).last ≠ pc))) ∧
    (∃ x : Slot, ∃ w : BitVec 256, ∃ m, wf w 188 187 = 2 ∧ (x.p.getD (wf w 150 149) false != (wf w 151 151 == 1)) = true ∧
      wf w 186 185 ≤ m ∧ m < 4) :=
  ⟨⟨{}, 0, 5, (by decide +kernel), (by intro n hn; interval_cases n <;> simp)⟩,
   ⟨{}, BitVec.ofNat 256 (2 ^ 187 + 4 * 2 ^ 168), 0, 4, by decide +kernel⟩,
   ⟨{}, BitVec.ofNat 256 (2 ^ 187), 5, 0, 0, (by decide +kernel), (by decide +kernel), (by decide +kernel),
     (by decide +kernel), (by intro n hn; interval_cases n <;> simp)⟩,
   ⟨{ loops := [{ active := true, first := 2, last := 5, count := 3, index := 0 }, {}, {}, {}] }, 0, 5, 0,
     (by decide +kernel), (by decide +kernel), (by decide +kernel), (by decide +kernel),
     (by intro m hm hm4; interval_cases m <;> simp), (by decide +kernel)⟩,
   ⟨{ loops := [{ active := true, first := 2, last := 5, count := 3, index := 2 }, {}, {}, {}] }, 0, 5, 0,
     (by decide +kernel), (by decide +kernel), (by decide +kernel), (by decide +kernel),
     (by intro m hm hm4; interval_cases m <;> simp), (by decide +kernel)⟩,
   ⟨{ loops := [{ active := true, first := 2, last := 5, count := 3, index := 2 }, {}, {}, {}] }, 0, 5, 0,
     (by decide +kernel), (by decide +kernel), (by decide +kernel), (by decide +kernel),
     (by intro m hm hm4; interval_cases m <;> simp), (by decide +kernel), (by intro m hm; omega)⟩,
   ⟨{ p := [true, false, false, false] }, BitVec.ofNat 256 (2 * 2 ^ 187), 3, by decide +kernel⟩⟩

theorem test_hyps_WordEffects :
    (∃ st, ∃ slot, ∃ s : State, ∃ c : Checked, (s.slot st slot).st = .live ∧ (s.slot st slot).ending = false ∧
      guardOk (s.slot st slot) c.w = true ∧ wForm c.w = 6 ∧ wf c.w 127 124 ≠ 3) ∧
    (∃ st, ∃ slot, ∃ s : State, ∃ c : Checked, (s.slot st slot).st = .live ∧ (s.slot st slot).ending = false ∧
      guardOk (s.slot st slot) c.w = true ∧ wForm c.w = 5) ∧
    (∃ st, ∃ slot, ∃ s : State, ∃ c : Checked, (s.slot st slot).st = .live ∧ (s.slot st slot).ending = false ∧
      guardOk (s.slot st slot) c.w = true ∧ wForm c.w = 6 ∧ wf c.w 127 124 = 3 ∧ wf c.w 211 210 = 0) ∧
    (∃ st, ∃ slot, ∃ s : State, ∃ c : Checked, ∃ d, (s.slot st slot).st = .live ∧ (s.slot st slot).ending = false ∧
      guardOk (s.slot st slot) c.w = true ∧ wForm c.w = 7 ∧ s.ueAt (wf c.w 63 0) 64 = none ∧ s.pat.traces = [] ∧
      parseDesc (s.read (memKey (wf c.w 63 0)) 64) = .ok d ∧ (s.desc (wf c.w 127 112)).last = some (s.time.pip, true) ∧
      s.time.pip / 4096 % 2 = 1) ∧
    (∃ st, ∃ slot, ∃ s : State, ∃ c : Checked, ∃ d, (s.slot st slot).st = .live ∧ (s.slot st slot).ending = false ∧
      guardOk (s.slot st slot) c.w = true ∧ wForm c.w = 7 ∧ s.ueAt (wf c.w 63 0) 64 = none ∧ s.pat.traces = [] ∧
      parseDesc (s.read (memKey (wf c.w 63 0)) 64) = .ok d ∧ ((s.desc (wf c.w 127 112)).last ≠ some (s.time.pip,
      true) ∨ s.time.pip / 4096 % 2 = 0)) ∧
    (∃ st, ∃ slot, ∃ s : State, ∃ c : Checked, (s.slot st slot).st = .live ∧ (s.slot st slot).ending = false ∧
      guardOk (s.slot st slot) c.w = true ∧ wForm c.w = 15 ∧ ((s.tile st).opsOf slot).isEmpty = true) ∧
    (∃ st, ∃ slot, ∃ s : State, ∃ c : Checked, (s.slot st slot).st = .live ∧ (s.slot st slot).ending = false ∧
      guardOk (s.slot st slot) c.w = false ∧ wf c.w 235 234 ≠ 2) :=
  ⟨⟨0, 0, tSlot { st := .live, owner := some 3, next := some { w := BitVec.ofNat 256 (6 * 2 ^ 236 + 0), pc := 0 } },
    { w := BitVec.ofNat 256 (6 * 2 ^ 236 + 0), pc := 0 }, by decide +kernel⟩,
   ⟨0, 0, tSlot { st := .live, owner := some 3, next := some { w := BitVec.ofNat 256 (5 * 2 ^ 236 + 0), pc := 0 } },
     { w := BitVec.ofNat 256 (5 * 2 ^ 236 + 0), pc := 0 }, by decide +kernel⟩,
   ⟨0, 0, tSlot { st := .live, owner := some 3, next := some { w := BitVec.ofNat 256 (6 * 2 ^ 236 + 3 * 2 ^ 124), pc := 0 } },
     { w := BitVec.ofNat 256 (6 * 2 ^ 236 + 3 * 2 ^ 124), pc := 0 }, by decide +kernel⟩,
   ⟨0, 0, tAt { ((tSlot { st := .live, owner := some 3, next := some { w := BitVec.ofNat 256 (7 * 2 ^ 236 + 0), pc := 0 } }).write 0 tDescI) with descs := [(0, { last := some (4096, true) })] } 4096,
     { w := BitVec.ofNat 256 (7 * 2 ^ 236 + 0), pc := 0 }, tDesc, (by decide +kernel), (by decide +kernel),
     (by decide +kernel), (by decide +kernel), (by decide +kernel), (by decide +kernel), (test_isOk (by decide +kernel)),
     (by decide +kernel), (by decide +kernel)⟩,
   ⟨0, 0, (tSlot { st := .live, owner := some 3, next := some { w := BitVec.ofNat 256 (7 * 2 ^ 236 + 0), pc := 0 } }).write 0 tDescI,
     { w := BitVec.ofNat 256 (7 * 2 ^ 236 + 0), pc := 0 }, tDesc, (by decide +kernel), (by decide +kernel),
     (by decide +kernel), (by decide +kernel), (by decide +kernel), (by decide +kernel), (test_isOk (by decide +kernel)),
     (by decide +kernel)⟩,
   ⟨0, 0, tSlot { st := .live, owner := some 3, next := some { w := BitVec.ofNat 256 (15 * 2 ^ 236 + 0), pc := 0 } },
     { w := BitVec.ofNat 256 (15 * 2 ^ 236 + 0), pc := 0 }, by decide +kernel⟩,
   ⟨0, 0, tSlot { st := .live, owner := some 3, next := some { w := BitVec.ofNat 256 (6 * 2 ^ 236 + 2 ^ 148), pc := 0 } },
     { w := BitVec.ofNat 256 (6 * 2 ^ 236 + 2 ^ 148), pc := 0 }, by decide +kernel⟩⟩

theorem test_hyps_OperationsAndCache :
    (∃ st, ∃ e, ∃ s : State, ∃ op : Op, e < 4 ∧ (s.tile st).ops e = [op] ∧ op.begun = true ∧ op.done = true ∧ op.parts = [] ∧
      op.snap = none ∧ (s.slot st op.slot).mem = []) ∧
    (∃ st, ∃ e, ∃ s : State, e < 4 ∧ ((∀ op ∈ (s.tile st).ops e, op.done = false))) ∧
    (∃ st, ∃ slot, ∃ s : State, ∃ l : Launch, ∃ p : Pattern, s.slotLaunch st slot = some l ∧ s.patternOf l = some p ∧
      (s.slot st slot).st = .live ∧ (s.slot st slot).next = none ∧ (s.slot st slot).ending = false ∧
      (s.slot st slot).pc < p.count) ∧
    (∃ st, ∃ i, ∃ s : State, ∃ l : Launch, ∃ p : Pattern, ∃ e, s.wordUe st p (s.slot st i).pc = false ∧
      s.checkWord st (s.slot st i) (BitVec.ofNat 256 (s.readNat (wordKey (st / 256) p (s.slot st i).pc) 32)) p.count l.optStep = .error e) ∧
    (∃ st, ∃ i, ∃ s : State, ∃ l : Launch, ∃ p : Pattern, ∃ c, s.wordUe st p (s.slot st i).pc = false ∧
      s.checkWord st (s.slot st i) (BitVec.ofNat 256 (s.readNat (wordKey (st / 256) p (s.slot st i).pc) 32)) p.count l.optStep = .ok c) :=
  ⟨⟨0, 3, { tR with tiles := [(0, { eng := [(3, [{ id := 1, slot := 0, owner := 3, c := { w := BitVec.ofNat 256 (3 * 2 ^ 236 + 0), pc := 0 }, begun := true, done := true }])] })] },
    { id := 1, slot := 0, owner := 3, c := { w := BitVec.ofNat 256 (3 * 2 ^ 236 + 0), pc := 0 }, begun := true, done := true },
    by decide +kernel⟩,
   ⟨0, 3, tR, by decide +kernel⟩,
   ⟨0, 0, { (tSlot { st := .live, owner := some 3 }) with pat := { pats := [(0, { gen := 0, off := 0, len := 96, count := 1, digest := 0 })], launches := [(3, { st := .running, pat := 0, slots := [(0, 0)], entry := 0, target := 0 })] } },
     { st := .running, pat := 0, slots := [(0, 0)], entry := 0, target := 0 }, { gen := 0, off := 0, len := 96, count := 1, digest := 0 },
     by decide +kernel⟩,
   ⟨0, 0, ({ (tSlot { st := .live, owner := some 3 }) with pat := { pats := [(0, { gen := 0, off := 0, len := 96, count := 1, digest := 0 })], launches := [(3, { st := .running, pat := 0, slots := [(0, 0)], entry := 0, target := 0 })] } }).write (wordKey 0 { gen := 0, off := 0, len := 96, count := 1, digest := 0 } 0) (List.replicate 32 0x90),
     { st := .running, pat := 0, slots := [(0, 0)], entry := 0, target := 0 }, { gen := 0, off := 0, len := 96, count := 1, digest := 0 },
     .badOpcode, (by decide +kernel), (test_isError (by decide +kernel))⟩,
   ⟨0, 0, { (tSlot { st := .live, owner := some 3 }) with pat := { pats := [(0, { gen := 0, off := 0, len := 96, count := 1, digest := 0 })], launches := [(3, { st := .running, pat := 0, slots := [(0, 0)], entry := 0, target := 0 })] } },
     { st := .running, pat := 0, slots := [(0, 0)], entry := 0, target := 0 }, { gen := 0, off := 0, len := 96, count := 1, digest := 0 },
     { w := BitVec.ofNat 256 (0 * 2 ^ 236 + 0), pc := 0, density := 96 }, (by decide +kernel),
     (test_isOk (by decide +kernel))⟩⟩

theorem test_hyps_MatrixTiles :
    (∃ st, ∃ s : State, ∃ t : State, ∃ c : Checked, ∃ x : LatOp, ∃ y : LatOp, ∃ z : Option LatOp, c.ops = [some x, some y,
      z] ∧ s.mma st c = (t, none)) ∧
    (∃ st, ∃ s : State, ∃ t : State, ∃ c : Checked, ∃ x : LatOp, ∃ y : LatOp, ∃ z : Option LatOp, ∃ k, c.ops = [some x,
      some y, z] ∧ s.mma st c = (t, none) ∧ k ≠ st) ∧
    (∃ st, ∃ s : State, ∃ t : State, ∃ c : Checked, ∃ x : LatOp, ∃ y : LatOp, ∃ z : Option LatOp, ∃ tile, ∃ i, ∃ j,
      c.ops = [some x, some y, z] ∧ s.mma st c = (t, none) ∧ tile < 2 ∧ i < 64 ∧ j < 64 ∧
      ((tile ≠ wf c.w 123 123 ∨ wM c.w ≤ i ∨ wN c.w ≤ j))) ∧
    (∃ st, ∃ s : State, ∃ t : State, ∃ c : Checked, ∃ x : LatOp, ∃ y : LatOp, ∃ z : Option LatOp, ∃ i, ∃ j, ∃ row,
      c.ops = [some x, some y, z] ∧ s.mma st c = (t, none) ∧ i < wM c.w ∧ j < wN c.w ∧ s.aRow st x i (wK c.w) = some row) ∧
    (∃ st, ∃ s : State, ∃ t : State, ∃ c : Checked, ∃ x : Option LatOp, ∃ y : Option LatOp, ∃ z : Option LatOp, c.ops = [x, y,
      z] ∧ s.loadAcc st c = (t, none)) ∧
    (∃ st, ∃ s : State, ∃ t : State, ∃ c : Checked, ∃ x : Option LatOp, ∃ y : Option LatOp, ∃ z : Option LatOp, ∃ k,
      c.ops = [x, y, z] ∧ s.loadAcc st c = (t, none) ∧ k ≠ st) ∧
    (∃ st, ∃ s : State, ∃ t : State, ∃ c : Checked, ∃ x : Option LatOp, ∃ y : Option LatOp, ∃ z : Option LatOp, ∃ tile, ∃ i,
      ∃ j, c.ops = [x, y, z] ∧ s.loadAcc st c = (t, none) ∧ tile < 2 ∧ i < 64 ∧ j < 64 ∧
      ((tile ≠ wf c.w 123 123 ∨ wM c.w ≤ i ∨ wN c.w ≤ j))) ∧
    (∃ st, ∃ s : State, ∃ t : State, ∃ u : State, ∃ c : Checked, ∃ d : Checked, ∃ x : LatOp, ∃ y : LatOp, ∃ z : Option LatOp,
      ∃ li : Nat, ∃ l : Layer, ∃ exact : Bool, ∃ step : Nat, c.ops = [some x, some y, z] ∧ d.ops = c.ops ∧ c.layer = some (li,
      l, exact) ∧ ((l.mode = 2 ∨ exact = true)) ∧ x.d.rlz = false ∧ wM d.w = wM c.w ∧ wN d.w = wN c.w ∧ wK d.w = wK c.w ∧
      wf d.w 123 123 = wf c.w 123 123 ∧ wf d.w 127 124 = wf c.w 127 124 ∧ wSpctl d.w = 0 ∧ s.mma st d = (t, none) ∧
      ((s.maskN st c step = (u, none) ∨ s.maskK st c step = (u, none)))) :=
  ⟨⟨0, tR, (tR.mma 0 { w := BitVec.ofNat 256 (2 ^ 236 + 2 ^ 48), pc := 0, ops := [some tLat, some tLat, none] }).1,
    { w := BitVec.ofNat 256 (2 ^ 236 + 2 ^ 48), pc := 0, ops := [some tLat, some tLat, none] }, tLat, tLat, none,
    by decide +kernel⟩,
   ⟨0, tR, (tR.mma 0 { w := BitVec.ofNat 256 (2 ^ 236 + 2 ^ 48), pc := 0, ops := [some tLat, some tLat, none] }).1,
     { w := BitVec.ofNat 256 (2 ^ 236 + 2 ^ 48), pc := 0, ops := [some tLat, some tLat, none] }, tLat, tLat, none, 1,
     by decide +kernel⟩,
   ⟨0, tR, (tR.mma 0 { w := BitVec.ofNat 256 (2 ^ 236 + 2 ^ 48), pc := 0, ops := [some tLat, some tLat, none] }).1,
     { w := BitVec.ofNat 256 (2 ^ 236 + 2 ^ 48), pc := 0, ops := [some tLat, some tLat, none] }, tLat, tLat, none, 1, 63, 63,
     by decide +kernel⟩,
   ⟨0, tR, (tR.mma 0 { w := BitVec.ofNat 256 (2 ^ 236 + 2 ^ 48), pc := 0, ops := [some tLat, some tLat, none] }).1,
     { w := BitVec.ofNat 256 (2 ^ 236 + 2 ^ 48), pc := 0, ops := [some tLat, some tLat, none] }, tLat, tLat, none, 0, 0,
     (tR.aRow 0 tLat 0 16).getD [], by decide +kernel⟩,
   ⟨0, tR, (tR.loadAcc 0 { w := BitVec.ofNat 256 (2 ^ 236), pc := 0, ops := [none, none, some tLat] }).1,
     { w := BitVec.ofNat 256 (2 ^ 236), pc := 0, ops := [none, none, some tLat] }, none, none, some tLat, by decide +kernel⟩,
   ⟨0, tR, (tR.loadAcc 0 { w := BitVec.ofNat 256 (2 ^ 236), pc := 0, ops := [none, none, some tLat] }).1,
     { w := BitVec.ofNat 256 (2 ^ 236), pc := 0, ops := [none, none, some tLat] }, none, none, some tLat, 1,
     by decide +kernel⟩,
   ⟨0, tR, (tR.loadAcc 0 { w := BitVec.ofNat 256 (2 ^ 236), pc := 0, ops := [none, none, some tLat] }).1,
     { w := BitVec.ofNat 256 (2 ^ 236), pc := 0, ops := [none, none, some tLat] }, none, none, some tLat, 1, 63, 63,
     by decide +kernel⟩,
   ⟨0, tR, (tR.mma 0 { w := BitVec.ofNat 256 (2 ^ 236 + 2 ^ 48), pc := 0, ops := [some tLat, some tLat, none] }).1,
     (tR.maskN 0 { ({ w := BitVec.ofNat 256 (2 ^ 236 + 2 ^ 48), pc := 0, ops := [some tLat, some tLat, none] } : Checked) with layer := some (0, {}, true) } 0).1,
     { ({ w := BitVec.ofNat 256 (2 ^ 236 + 2 ^ 48), pc := 0, ops := [some tLat, some tLat, none] } : Checked) with layer := some (0, {}, true) },
     { w := BitVec.ofNat 256 (2 ^ 236 + 2 ^ 48), pc := 0, ops := [some tLat, some tLat, none] }, tLat, tLat, none, 0, {},
     true, 0, by decide +kernel⟩⟩

theorem test_hyps_Launches :
    (∃ n, ∃ s : State, ∃ l, s.launch n = some l ∧ l.st = .armed ∧ l.bslot = none ∧ l.target ≤ s.time.pip ∧
      s.earlierDue n l = false) ∧
    (∃ n, ∃ s : State, ∃ l, s.launch n = some l ∧ (s.time.pip < l.target ∨ l.st ≠ .armed)) ∧
    (∃ n, ∃ s : State, ∃ l, s.launch n = some l ∧ n < 1024 ∧ l.st = .running ∧ l.runLimit ≠ 0 ∧
      l.start + l.runLimit ≤ s.time.pip) ∧
    (∃ n, ∃ s : State, ∃ l, s.launch n = some l ∧ (s.time.pip < l.start + l.runLimit ∨ l.runLimit = 0)) ∧
    (∃ n, ∃ s : State, ∃ l, ∃ k, ∃ b, s.barrierOf n = some (l, k, b) ∧ s.kindDue l = true) ∧
    (∃ n, ∃ s : State, ∃ l, ∃ k, ∃ b, s.barrierOf n = some (l, k, b) ∧ s.arrivesAfter n l = false ∧ b.arrived = false ∧
      b.goAt = none ∧ ((∀ c ∈ b.kids, c.2 = b.phase ∧ c.1 ∉ b.barred)) ∧ b.parent = none ∧
      s.time.pip + b.span < s.barrierLimit l) ∧
    (∃ n, ∃ s : State, ∃ l, ∃ k, ∃ b, ∃ p, s.barrierOf n = some (l, k, b) ∧ s.arrivesAfter n l = false ∧ b.arrived = false ∧
      b.goAt = none ∧ ((∀ c ∈ b.kids, c.2 = b.phase ∧ c.1 ∉ b.barred)) ∧ b.parent = some p ∧ p ∈ b.barred) ∧
    (∃ n, ∃ s : State, ∃ l, ∃ k, ∃ b, ∃ p, s.barrierOf n = some (l, k, b) ∧ s.arrivesAfter n l = false ∧ b.arrived = false ∧
      b.goAt = none ∧ ((∀ c ∈ b.kids, c.2 = b.phase ∧ c.1 ∉ b.barred)) ∧ b.parent = some p ∧ p ∉ b.barred ∧
      (s.link p).time.excluded = false) ∧
    (∃ n, ∃ s : State, ∃ l, ∃ k, ∃ b, ∃ g, s.barrierOf n = some (l, k, b) ∧ b.goAt = some g ∧ s.earlierDue n l = false ∧
      g + (b.span - b.delay) ≤ s.time.pip) ∧
    (∃ n, ∃ s : State, ∃ l, ∃ k, ∃ b, s.barrierOf n = some (l, k, b) ∧ b.parent = none ∧ b.goAt = none ∧
      s.barrierLimit l ≤ s.time.pip + b.span) ∧
    (∃ n, ∃ s : State, ∃ l, ∃ k, ∃ b, s.barrierOf n = some (l, k, b) ∧ b.parent ≠ none ∧ b.goAt = none ∧
      s.barrierLimit l + 4096 ≤ s.time.pip) :=
  ⟨⟨3, { tR with pat := { launches := [(3, { pat := 0, slots := [(0, 0)], entry := 0, target := 0 })] } }, { pat := 0, slots := [(0, 0)], entry := 0, target := 0 },
    by decide +kernel⟩,
   ⟨3, { tR with pat := { launches := [(3, { pat := 0, slots := [(0, 0)], entry := 0, target := 9 })] } }, { pat := 0, slots := [(0, 0)], entry := 0, target := 9 },
     by decide +kernel⟩,
   ⟨3, tAt ({ tR with pat := { launches := [(3, { pat := 0, slots := [(0, 0)], entry := 0, target := 0, st := .running, runLimit := 5 })] } }) 5,
     { pat := 0, slots := [(0, 0)], entry := 0, target := 0, st := .running, runLimit := 5 }, by decide +kernel⟩,
   ⟨3, { tR with pat := { launches := [(3, { pat := 0, slots := [(0, 0)], entry := 0, target := 0 })] } }, { pat := 0, slots := [(0, 0)], entry := 0, target := 0 },
     by decide +kernel⟩,
   ⟨3, { { ({ tR with pat := { launches := [(3, { pat := 0, slots := [(0, 0)], entry := 0, target := 0, bslot := some 2 })] } } : State) with time := { slots := [(2, { launch := 3, phase := true, parent := none, kids := [(0, true)] })] } } with integ := { scheds := [(1, { next := 0, period := 2 ^ 24, addr := 64, len := 64, t := { map := 0, tally := 1, pipes := 0 }, limit := 4096 })] } },
     { pat := 0, slots := [(0, 0)], entry := 0, target := 0, bslot := some 2 }, 2, { launch := 3, phase := true, parent := none, kids := [(0, true)] },
     by decide +kernel⟩,
   ⟨3, { ({ tR with pat := { launches := [(3, { pat := 0, slots := [(0, 0)], entry := 0, target := 0, bslot := some 2 })] } } : State) with time := { slots := [(2, { launch := 3, phase := true, parent := none, kids := [(0, true)] })] } },
     { pat := 0, slots := [(0, 0)], entry := 0, target := 0, bslot := some 2 }, 2, { launch := 3, phase := true, parent := none, kids := [(0, true)] },
     by decide +kernel⟩,
   ⟨3, { ({ tR with pat := { launches := [(3, { pat := 0, slots := [(0, 0)], entry := 0, target := 0, bslot := some 2 })] } } : State) with time := { slots := [(2, { launch := 3, phase := true, parent := some 6, kids := [(0, true)], barred := [6] })] } },
     { pat := 0, slots := [(0, 0)], entry := 0, target := 0, bslot := some 2 }, 2, { launch := 3, phase := true, parent := some 6, kids := [(0, true)], barred := [6] },
     6, by decide +kernel⟩,
   ⟨3, { ({ tR with pat := { launches := [(3, { pat := 0, slots := [(0, 0)], entry := 0, target := 0, bslot := some 2 })] } } : State) with time := { slots := [(2, { launch := 3, phase := true, parent := some 6, kids := [(0, true)] })] } },
     { pat := 0, slots := [(0, 0)], entry := 0, target := 0, bslot := some 2 }, 2, { launch := 3, phase := true, parent := some 6, kids := [(0, true)] },
     6, by decide +kernel⟩,
   ⟨3, { ({ tR with pat := { launches := [(3, { pat := 0, slots := [(0, 0)], entry := 0, target := 0, bslot := some 2 })] } } : State) with time := { slots := [(2, { launch := 3, phase := true, parent := none, kids := [(0, true)], goAt := some 0 })] } },
     { pat := 0, slots := [(0, 0)], entry := 0, target := 0, bslot := some 2 }, 2, { launch := 3, phase := true, parent := none, kids := [(0, true)], goAt := some 0 },
     0, by decide +kernel⟩,
   ⟨3, tAt ({ ({ tR with pat := { launches := [(3, { pat := 0, slots := [(0, 0)], entry := 0, target := 0, bslot := some 2 })] } } : State) with time := { slots := [(2, { launch := 3, phase := true, parent := none, kids := [(0, true)] })] } }) (2 ^ 40),
     { pat := 0, slots := [(0, 0)], entry := 0, target := 0, bslot := some 2 }, 2, { launch := 3, phase := true, parent := none, kids := [(0, true)] },
     by decide +kernel⟩,
   ⟨3, tAt ({ ({ tR with pat := { launches := [(3, { pat := 0, slots := [(0, 0)], entry := 0, target := 0, bslot := some 2 })] } } : State) with time := { slots := [(2, { launch := 3, phase := true, parent := some 6, kids := [(0, true)] })] } }) (2 ^ 40),
     { pat := 0, slots := [(0, 0)], entry := 0, target := 0, bslot := some 2 }, 2, { launch := 3, phase := true, parent := some 6, kids := [(0, true)] },
     by decide +kernel⟩⟩

theorem test_hyps_PatternCommands :
    (∃ o : Origin, ∃ addr, ∃ len, ∃ s : State, ∃ p, ∃ id, s.waiting o 0x0601 [addr, len] = some p ∧ s.MaySend o 0x0601 ∧
      s.Owns o resPat ∧ addr % 64 = 0 ∧ addr + len ≤ 2 ^ 37 ∧ s.dramDenied addr len = false ∧
      1 ≤ s.readNat (dramKey (addr + 4)) 4 ∧ s.readNat (dramKey (addr + 4)) 4 ≤ 65536 ∧
      bits (s.readNat (dramKey addr) 64) 0 32 = 1 ∧ bits (s.readNat (dramKey addr) 64) 64 448 = 0 ∧
      len = 64 + 32 * s.readNat (dramKey (addr + 4)) 4 ∧ id = firstFree (s.pat.pats.map (·.1)) 257 0 ∧ id < 256 ∧
      s.patPlace len + len ≤ 2 ^ 25 ∧ s.firstUe (dramKey addr) len = none ∧ s.mayIssue (addr / 2 ^ 35 % 4) clsMgmt = true) ∧
    (∃ o : Origin, ∃ pat, ∃ s : State, ∃ p, ∃ x, s.waiting o 0x0602 [pat] = some p ∧ s.MaySend o 0x0602 ∧ s.Owns o resPat ∧
      tabGet? s.pat.pats pat = some x ∧ s.patBusy pat = false) ∧
    (∃ o : Origin, ∃ x : LaunchArgs, ∃ s : State, ∃ p : Posted, ∃ y : Pattern, ∃ sl : List (Nat × Nat), ∃ target : Nat,
      s.waiting o 0x0603 [x.launch, x.pat, x.map, x.slotsPer, x.entry, x.target, x.late, x.group, x.runLimit, x.optStep,
      x.step, x.arg0, x.arg1] = some p ∧ s.MaySend o 0x0603 ∧ s.Owns o resPat ∧ x.map % 64 = 0 ∧ x.map + 128 ≤ 2 ^ 37 ∧
      s.dramDenied x.map 128 = false ∧ ((∀ st ∈ mapStitches (s.readNat (dramKey x.map) 128), s.stitchStatus st = none)) ∧
      mapStitches (s.readNat (dramKey x.map) 128) ≠ [] ∧ x.launch ≤ 1023 ∧ 1 ≤ x.slotsPer ∧ x.slotsPer ≤ 64 ∧ x.late ≤ 1 ∧
      x.group = 0xFFFF ∧ x.runLimit = 0 ∧ x.optStep ≤ 1 ∧ tabGet? s.pat.pats x.pat = some y ∧ x.entry < y.count ∧
      scheduled s.time.pip x.target x.late = some target ∧
      s.takeAll (mapStitches (s.readNat (dramKey x.map) 128)) x.slotsPer = some sl ∧ ((∀ l,
      s.launch x.launch = some l → l.st = .ended)) ∧ s.time.state ≠ .unlocked ∧ s.firstUe (dramKey x.map) 128 = none ∧
      s.mayIssue (x.map / 2 ^ 35 % 4) clsMgmt = true) ∧
    (∃ o : Origin, ∃ n, ∃ s : State, ∃ p, ∃ l, s.waiting o 0x0605 [n] = some p ∧ s.MaySend o 0x0605 ∧ s.Owns o resPat ∧
      n ≤ 1023 ∧ s.launch n = some l ∧ l.st = .armed) ∧
    (∃ o : Origin, ∃ n, ∃ s : State, ∃ p, ∃ l, s.waiting o 0x0605 [n] = some p ∧ s.MaySend o 0x0605 ∧ s.Owns o resPat ∧
      n ≤ 1023 ∧ s.launch n = some l ∧ l.st = .running) ∧
    (∃ o : Origin, ∃ n, ∃ s : State, ∃ p, ∃ l, s.waiting o 0x0604 [n] = some p ∧ s.MaySend o 0x0604 ∧ n ≤ 1023 ∧
      s.launch n = some l) ∧
    (∃ o : Origin, ∃ k, ∃ i, ∃ slot, ∃ s : State, ∃ p, s.waiting o 0x0606 [k, i, slot] = some p ∧ s.MaySend o 0x0606 ∧ k ≤ 3 ∧
      slot ≤ 63 ∧ s.absent (stitchNo k i) = false ∧ s.isRetired (stitchNo k i) = false) ∧
    (∃ o : Origin, ∃ mask, ∃ lo, ∃ hi, ∃ events, ∃ ring, ∃ size, ∃ wrap, ∃ s : State, ∃ p, s.waiting o 0x0607 [mask, lo, hi,
      events, ring, size, wrap] = some p ∧ s.MaySend o 0x0607 ∧ s.Owns o resPat ∧ ring % 64 = 0 ∧ ring + size ≤ 2 ^ 37 ∧
      s.dramDenied ring size = false ∧ mask ≤ 15 ∧ mask ≠ 0 ∧ lo ≤ hi ∧ size % 16 = 0 ∧ size ≠ 0 ∧ wrap ≤ 1) :=
  ⟨⟨tO, 64, 96, tC (tR.write 64 [1, 0, 0, 0, 1]) 0x0601 [64, 96] 0, tP, 0, (by decide +kernel), (fun _ => rfl),
    (by unfold State.Owns; decide +kernel), (by decide +kernel), (by decide +kernel), (by decide +kernel),
    (by decide +kernel), (by decide +kernel), (by decide +kernel), (by decide +kernel), (by decide +kernel),
    (by decide +kernel), (by decide +kernel), (by decide +kernel), (by decide +kernel), (by decide +kernel)⟩,
   ⟨tO, 0, tC ({ tR with pat := { pats := [(0, { gen := 0, off := 0, len := 96, count := 1, digest := 0 })] } }) 0x0602 [0] 0,
     tP, { gen := 0, off := 0, len := 96, count := 1, digest := 0 }, (by decide +kernel), (fun _ => rfl),
     (by unfold State.Owns; decide +kernel), (by decide +kernel), (by decide +kernel)⟩,
   ⟨tO, tLaunchA, tLaunchS, tP, { gen := 0, off := 0, len := 96, count := 1, digest := 0 }, tSlots, 2048, (by decide +kernel),
     (fun _ => rfl), (by unfold State.Owns; decide +kernel), (by decide +kernel), (by decide +kernel), (by decide +kernel),
     (by decide +kernel), (by decide +kernel), (by decide +kernel), (by decide +kernel), (by decide +kernel),
     (by decide +kernel), (by decide +kernel), (by decide +kernel), (by decide +kernel), (by decide +kernel),
     (by decide +kernel), (by decide +kernel), (by decide +kernel),
     (by intro l h; rw [show tLaunchS.launch tLaunchA.launch = none from by decide +kernel] at h; cases h),
     (by decide +kernel), (by decide +kernel), (by decide +kernel)⟩,
   ⟨tO, 1023, tC ({ tR with pat := { launches := [(1023, { pat := 0, slots := [(0, 0)], entry := 0, target := 0 })] } }) 0x0605 [1023] 0,
     tP, { pat := 0, slots := [(0, 0)], entry := 0, target := 0 }, (by decide +kernel), (fun _ => rfl),
     (by unfold State.Owns; decide +kernel), (by decide +kernel), (by decide +kernel), (by decide +kernel)⟩,
   ⟨tO, 1023, tC ({ tR with pat := { launches := [(1023, { pat := 0, slots := [(0, 0)], entry := 0, target := 0, st := .running, runLimit := 5 })] } }) 0x0605 [1023] 0,
     tP, { pat := 0, slots := [(0, 0)], entry := 0, target := 0, st := .running, runLimit := 5 }, (by decide +kernel),
     (fun _ => rfl), (by unfold State.Owns; decide +kernel), (by decide +kernel), (by decide +kernel), (by decide +kernel)⟩,
   ⟨tO, 1023, tC ({ tR with pat := { launches := [(1023, { pat := 0, slots := [(0, 0)], entry := 0, target := 0, st := .running, runLimit := 5 })] } }) 0x0604 [1023] 0,
     tP, { pat := 0, slots := [(0, 0)], entry := 0, target := 0, st := .running, runLimit := 5 }, (by decide +kernel),
     (fun _ => rfl), (by decide +kernel), (by decide +kernel)⟩,
   ⟨tO, 3, 255, 63, tC (tR) 0x0606 [3, 255, 63] 0, tP, (by decide +kernel), (fun _ => rfl), (by decide +kernel),
     (by decide +kernel), (by decide +kernel), (by decide +kernel)⟩,
   ⟨tO, 15, 0, 0, 0, 64, 16, 1, tC (tR) 0x0607 [15, 0, 0, 0, 64, 16, 1] 0, tP, (by decide +kernel), (fun _ => rfl),
     (by unfold State.Owns; decide +kernel), (by decide +kernel), (by decide +kernel), (by decide +kernel),
     (by decide +kernel), (by decide +kernel), (by decide +kernel), (by decide +kernel), (by decide +kernel),
     (by decide +kernel)⟩⟩

theorem test_hyps_DescriptorCommands :
    (∃ o : Origin, ∃ handle : Nat, ∃ count : Nat, ∃ addr : Nat, ∃ s : State, ∃ p : Posted, ∃ ds : List Desc,
      s.waiting o 0x0701 [handle, count, addr] = some p ∧ s.MaySend o 0x0701 ∧ s.Owns o resPat ∧ handle < 2 ^ 16 ∧
      bits handle 12 2 = 0 ∧ handle % 4096 + count ≤ 4096 ∧ 1 ≤ count ∧ count ≤ 4096 ∧ addr % 64 = 0 ∧
      addr + 64 * count ≤ 2 ^ 37 ∧ s.dramDenied addr (64 * count) = false ∧ s.firstUe (dramKey addr) (64 * count) = none ∧
      s.descImages addr count = ds.map Except.ok ∧ s.mayIssue (addr / 2 ^ 35 % 4) clsMgmt = true) ∧
    (∃ o : Origin, ∃ handle, ∃ s : State, ∃ p, s.waiting o 0x0702 [handle] = some p ∧ s.MaySend o 0x0702 ∧
      bits handle 12 2 = 0) ∧
    (∃ o : Origin, ∃ handle, ∃ count, ∃ s : State, ∃ p, s.waiting o 0x0703 [handle, count] = some p ∧ s.MaySend o 0x0703 ∧
      s.Owns o resPat ∧ handle < 2 ^ 16 ∧ bits handle 12 2 = 0 ∧ handle % 4096 + count ≤ 4096 ∧ 1 ≤ count) ∧
    (∃ o : Origin, ∃ k, ∃ i, ∃ addr, ∃ s : State, ∃ p, ∃ l, s.waiting o 0x0608 [k, i, addr] = some p ∧ s.MaySend o 0x0608 ∧
      s.Owns o resPat ∧ k ≤ 3 ∧ s.sec.grade ≠ .b ∧ addr % 64 = 0 ∧ addr + 64 ≤ 2 ^ 37 ∧ s.dramDenied addr 64 = false ∧
      parseLayer (s.read (dramKey addr) 64) = (l, false) ∧ s.layerShapes l = true ∧ l.up ≠ l.down ∧
      s.handleUsed k i l = false ∧ s.firstUe (dramKey addr) 64 = none ∧ s.mayIssue (addr / 2 ^ 35 % 4) clsMgmt = true) ∧
    (∃ o : Origin, ∃ k, ∃ i, ∃ s : State, ∃ p, ∃ e, s.waiting o 0x0609 [k, i] = some p ∧ s.MaySend o 0x0609 ∧
      s.Owns o resPat ∧ k ≤ 3 ∧ s.sec.grade ≠ .b ∧ s.layer k i = some e) ∧
    (∃ o : Origin, ∃ k, ∃ i, ∃ clear, ∃ s : State, ∃ p, ∃ e, s.waiting o 0x060A [k, i, clear] = some p ∧ s.MaySend o 0x060A ∧
      k ≤ 3 ∧ s.sec.grade ≠ .b ∧ clearOk o clear ∧ s.layer k i = some e) ∧
    (∃ o : Origin, ∃ k, ∃ i, ∃ addr, ∃ s : State, ∃ p, s.waiting o 0x0608 [k, i, addr] = some p ∧ s.MaySend o 0x0608 ∧
      s.Owns o resPat ∧ s.sec.grade = .b ∧ k ≤ 3 ∧ addr % 64 = 0 ∧ addr + 64 ≤ 2 ^ 37 ∧ s.dramDenied addr 64 = false ∧
      (parseLayer (s.read (dramKey addr) 64)).2 = false) :=
  ⟨⟨tO, 0xCFFF, 1, 64, tC (tR.write 64 tDescI) 0x0701 [0xCFFF, 1, 64] 0, tP, [tDesc], (by decide +kernel), (fun _ => rfl),
    (by unfold State.Owns; decide +kernel), (by decide +kernel), (by decide +kernel), (by decide +kernel),
    (by decide +kernel), (by decide +kernel), (by decide +kernel), (by decide +kernel), (by decide +kernel),
    (by decide +kernel), (congrArg (fun e => [e]) (test_isOk (by decide +kernel))), (by decide +kernel)⟩,
   ⟨tO, 0xCFFF, tC (tR) 0x0702 [0xCFFF] 0, tP, (by decide +kernel), (fun _ => rfl), (by decide +kernel)⟩,
   ⟨tO, 0xCFFF, 1, tC (tR) 0x0703 [0xCFFF, 1] 0, tP, (by decide +kernel), (fun _ => rfl),
     (by unfold State.Owns; decide +kernel), (by decide +kernel), (by decide +kernel), (by decide +kernel),
     (by decide +kernel)⟩,
   ⟨tO, 3, 255, 64, tC (tLayerS) 0x0608 [3, 255, 64] 0, tP, tLayer, (by decide +kernel), (fun _ => rfl),
     (by unfold State.Owns; decide +kernel), (by decide +kernel), (by decide +kernel), (by decide +kernel),
     (by decide +kernel), (by decide +kernel), (by decide +kernel), (by decide +kernel), (by decide +kernel),
     (by decide +kernel), (by decide +kernel), (by decide +kernel)⟩,
   ⟨tO, 3, 255, tC ({ tR with layers := [(1023, { l := {} })] }) 0x0609 [3, 255] 0, tP, { l := {} }, (by decide +kernel),
     (fun _ => rfl), (by unfold State.Owns; decide +kernel), (by decide +kernel), (by decide +kernel), (by decide +kernel)⟩,
   ⟨tO, 3, 255, 1, tC ({ tR with layers := [(1023, { l := {} })] }) 0x060A [3, 255, 1] 0, tP, { l := {} },
     (by decide +kernel), (fun _ => rfl), (by decide +kernel), (by decide +kernel), (by show _ ≤ 1; decide),
     (by decide +kernel)⟩,
   ⟨tO, 3, 255, 64, tC (({ tR with sec := { grade := .b } }).write 64 tLayer.bytes) 0x0608 [3, 255, 64] 0, tP,
     (by decide +kernel), (fun _ => rfl), (by unfold State.Owns; decide +kernel), (by decide +kernel), (by decide +kernel),
     (by decide +kernel), (by decide +kernel), (by decide +kernel), (by decide +kernel)⟩⟩

theorem test_hyps_TokenArrival :
    (∃ ing, ∃ s : State, ∃ q, s.localHead ing 5 6 = some q ∧ s.exp.toks.find? (fun x => x.keyOf q) = none ∧ q.f.segOff ≠ 0) ∧
    (∃ ing, ∃ s : State, ∃ q, s.localHead ing 5 6 = some q ∧ s.exp.toks.find? (fun x => x.keyOf q) = none ∧ q.f.segOff = 0 ∧
      1024 ≤ (s.exp.toks.filter (fun x => x.die == q.die)).length) ∧
    (∃ ing, ∃ s : State, ∃ q, ∃ fid, s.localHead ing 5 6 = some q ∧ s.exp.toks.find? (fun x => x.keyOf q) = none ∧
      q.f.segOff = 0 ∧ (s.exp.toks.filter (fun x => x.die == q.die)).length < 1024 ∧
      s.lookupExpert (tokOf q).expert = .owner fid) ∧
    (∃ ing, ∃ s : State, ∃ q, s.localHead ing 5 6 = some q ∧ s.exp.toks.find? (fun x => x.keyOf q) = none ∧ q.f.segOff = 0 ∧
      (s.exp.toks.filter (fun x => x.die == q.die)).length < 1024 ∧ s.lookupExpert (tokOf q).expert = .nobody ∧
      tokFrameBad q.f = false) ∧
    (∃ ing, ∃ s : State, ∃ q, ∃ x, s.localHead ing 5 6 = some q ∧ s.exp.toks.find? (fun x => x.keyOf q) = none ∧
      q.f.segOff = 0 ∧ (s.exp.toks.filter (fun x => x.die == q.die)).length < 1024 ∧
      s.lookupExpert (tokOf q).expert = .hosted x ∧ tokFrameBad q.f = false ∧ x.refuses (tokOf q).hdr = false ∧
      q.f.segElems = (tokOf q).d) ∧
    (∃ ing, ∃ s : State, ∃ q, s.localHead ing 6 7 = some q) ∧
    (∃ ing, ∃ src, ∃ ch, ∃ pass, ∃ s : State, ∃ k,
      s.exp.toks.find? (fun x => x.ing == ing && x.src == src && x.ch == ch && x.pass == pass) = some k ∧
      s.time.pip < k.first + s.setting idAsmLimit 0) ∧
    (∃ ing, ∃ src, ∃ ch, ∃ pass, ∃ s : State, ∃ k,
      s.exp.toks.find? (fun x => x.ing == ing && x.src == src && x.ch == ch && x.pass == pass) = some k ∧
      k.first + s.setting idAsmLimit 0 ≤ s.time.pip ∧ k.fwd = none ∧ ((∀ q ∈ s.buf.frames,
      q.dest = .directory → k.keyOf q = true → k.first + s.setting idAsmLimit 0 ≤ q.stamp))) ∧
    (∃ ing, ∃ s : State, ∃ q, ∃ k, s.localHead ing 5 6 = some q ∧ s.exp.toks.find? (fun x => x.keyOf q) = some k ∧
      (s.exp.toks.filter (· ≠ k)).find? (fun x => x.keyOf q) = none ∧ k.first + s.setting idAsmLimit 0 ≤ q.stamp ∧
      q.f.segOff ≠ 0) :=
  ⟨⟨4, tF tR (tTokQ 128), tTokQ 128, by decide +kernel⟩,
   ⟨4, tF ({ tR with exp := { toks := List.replicate 1024 (tTok 1 0) } }) (tTokQ 0), tTokQ 0, by decide +kernel⟩,
   ⟨4, tF { tR with exp := { exact := [(5, .remote 77)] } } (tTokQ 0), tTokQ 0, 77, by decide +kernel⟩,
   ⟨4, tF tR (tTokQ 0), tTokQ 0, by decide +kernel⟩,
   ⟨4, tF (tE tX) (tTokQ 0), tTokQ 0, tX, by decide +kernel⟩,
   ⟨4, tF tR { die := 0, ing := 4, dest := .directory, f := { ty := 7, vc := 6, ch := 0, dst := 0, src := 7, spec := 0, cells := List.replicate 64 0 }, stamp := 0, acct := portAcct 2 1, hanks := [] },
     { die := 0, ing := 4, dest := .directory, f := { ty := 7, vc := 6, ch := 0, dst := 0, src := 7, spec := 0, cells := List.replicate 64 0 }, stamp := 0, acct := portAcct 2 1, hanks := [] },
     by decide +kernel⟩,
   ⟨4, 9, 0, 0, { tR with exp := { toks := [tTok 0 0] } }, tTok 0 0, by decide +kernel⟩,
   ⟨4, 9, 0, 0, tAt { tR with exp := { toks := [tTok 0 0] } } (2 ^ 30), tTok 0 0, by decide +kernel⟩,
   ⟨4, tF { tR with exp := { toks := [{ tTok 0 0 with first := 0 }] } } { tTokQ 128 with stamp := 2 ^ 30 },
     { tTokQ 128 with stamp := 2 ^ 30 }, { tTok 0 0 with first := 0 }, by decide +kernel⟩⟩

theorem test_hyps_NoticesAndTiles :
    (∃ id, ∃ s : State, ∃ x, ∃ k, s.expert? id = some x ∧ firstNotice s.time.pip x.notices = some k ∧
      s.wayOpen x.home k = true ∧ ((x.isKeyed = false ∨ k.pass = 0 ∨ s.mayIssue x.home clsExpert = true)) ∧
      k.step ≠ x.wstep) ∧
    (∃ id, ∃ s : State, ∃ x, ∃ k, s.expert? id = some x ∧ firstNotice s.time.pip x.notices = some k ∧
      s.wayOpen x.home k = true ∧ ((x.isKeyed = false ∨ k.pass = 0 ∨ s.mayIssue x.home clsExpert = true)) ∧ k.step = x.wstep ∧
      k.pass = 0 ∧ x.cap ≤ x.fwd) ∧
    (∃ id, ∃ s : State, ∃ x, ∃ k, s.expert? id = some x ∧ firstNotice s.time.pip x.notices = some k ∧
      s.wayOpen x.home k = true ∧ ((x.isKeyed = false ∨ k.pass = 0 ∨ s.mayIssue x.home clsExpert = true)) ∧ k.step = x.wstep ∧
      k.pass = 1 ∧ x.grad ≠ 0) ∧
    (∃ id, ∃ s : State, ∃ x, ∃ k, ∃ n, s.expert? id = some x ∧ firstNotice s.time.pip x.notices = some k ∧
      s.wayOpen x.home k = true ∧ ((x.isKeyed = false ∨ k.pass = 0 ∨ s.mayIssue x.home clsExpert = true)) ∧ k.step = x.wstep ∧
      k.pass = 1 ∧ x.grad = 0 ∧ x.firstBwd = some n ∧ n + x.bwdLimit ≤ k.stamp) ∧
    (∃ id, ∃ s : State, ∃ x, ∃ k, ∃ n, ∃ u : State, s.expert? id = some x ∧ firstNotice s.time.pip x.notices = some k ∧
      s.wayOpen x.home k = true ∧ ((x.isKeyed = false ∨ k.pass = 0 ∨ s.mayIssue x.home clsExpert = true)) ∧ k.step = x.wstep ∧
      k.pass = 1 ∧ x.grad = 0 ∧ x.firstBwd = some n ∧ k.stamp < n + x.bwdLimit ∧ x.isKeyed = true ∧
      x.stagedNum < x.stageTokens ∧ (s.setExpert id { x with notices := x.notices.erase k }).takeTok k = some (u, true)) ∧
    (∃ id, ∃ s : State, ∃ x, ∃ k, s.expert? id = some x ∧ firstNotice s.time.pip x.notices = some k ∧
      s.wayOpen x.home k = true ∧ ((x.isKeyed = false ∨ k.pass = 0 ∨ s.mayIssue x.home clsExpert = true)) ∧ k.step = x.wstep ∧
      k.pass = 0 ∧ x.fwd < x.cap ∧ x.openF = none) ∧
    (∃ id, ∃ s : State, ∃ x, ∃ k, ∃ y, s.expert? id = some x ∧ firstNotice s.time.pip x.notices = some k ∧
      s.wayOpen x.home k = true ∧ ((x.isKeyed = false ∨ k.pass = 0 ∨ s.mayIssue x.home clsExpert = true)) ∧ k.step = x.wstep ∧
      k.pass = 0 ∧ x.fwd < x.cap ∧ x.openF = some y ∧ k.stamp < y.t0 + x.tileWait ∧ y.toks.length + 1 < 64) ∧
    (∃ id, ∃ s : State, ∃ x, ∃ k, ∃ y, s.expert? id = some x ∧ firstNotice s.time.pip x.notices = some k ∧
      s.wayOpen x.home k = true ∧ ((x.isKeyed = false ∨ k.pass = 0 ∨ s.mayIssue x.home clsExpert = true)) ∧ k.step = x.wstep ∧
      k.pass = 0 ∧ x.fwd < x.cap ∧ x.openF = some y ∧ k.stamp < y.t0 + x.tileWait ∧ y.toks.length + 1 = 64 ∧ ((∃ r ∈ x.reps,
      r.2.active = true))) ∧
    (∃ id, ∃ pass, ∃ s : State, ∃ x, ∃ y, s.expert? id = some x ∧ x.tile pass = some y ∧ pass < 2 ∧
      s.time.pip < y.t0 + x.tileWait) ∧
    (∃ id, ∃ pass, ∃ s : State, ∃ x, ∃ y, s.expert? id = some x ∧ x.tile pass = some y ∧ pass < 2 ∧
      y.t0 + x.tileWait ≤ s.time.pip ∧ ((∀ n ∈ x.notices, y.t0 + x.tileWait ≤ n.stamp)) ∧ ((∃ r ∈ x.reps,
      r.2.active = true))) :=
  ⟨⟨5, tE { tX with notices := [tTok 0 9] }, { tX with notices := [tTok 0 9] }, tTok 0 9, by decide +kernel⟩,
   ⟨5, tE { tX with notices := [tTok 0 0], fwd := 1 }, { tX with notices := [tTok 0 0], fwd := 1 }, tTok 0 0,
     by decide +kernel⟩,
   ⟨5, tE { tX with notices := [tTok 1 0], grad := 1 }, { tX with notices := [tTok 1 0], grad := 1 }, tTok 1 0,
     by decide +kernel⟩,
   ⟨5, tE { tX with notices := [{ tTok 1 0 with stamp := 4096 }], firstBwd := some 0, d := tXd 3 0 },
     { tX with notices := [{ tTok 1 0 with stamp := 4096 }], firstBwd := some 0, d := tXd 3 0 },
     { tTok 1 0 with stamp := 4096 }, 0, by decide +kernel⟩,
   ⟨5, tE { tX with notices := [{ tTok 1 0 with stamp := 0 }], firstBwd := some 1, d := (tXd 3 0).set 48 1 },
     { tX with notices := [{ tTok 1 0 with stamp := 0 }], firstBwd := some 1, d := (tXd 3 0).set 48 1 },
     { tTok 1 0 with stamp := 0 }, 1, tE { tX with notices := [], firstBwd := some 1, d := (tXd 3 0).set 48 1 },
     by decide +kernel⟩,
   ⟨5, tE { tX with notices := [tTok 0 0] }, { tX with notices := [tTok 0 0] }, tTok 0 0, by decide +kernel⟩,
   ⟨5, tE { tX with notices := [tTok 0 0], openF := some { t0 := 0, toks := [tTok 0 0] } }, { tX with notices := [tTok 0 0], openF := some { t0 := 0, toks := [tTok 0 0] } },
     tTok 0 0, { t0 := 0, toks := [tTok 0 0] }, by decide +kernel⟩,
   ⟨5, tE { tX with notices := [tTok 0 0], openF := some { t0 := 0, toks := List.replicate 63 (tTok 0 0) } },
     { tX with notices := [tTok 0 0], openF := some { t0 := 0, toks := List.replicate 63 (tTok 0 0) } }, tTok 0 0, { t0 := 0, toks := List.replicate 63 (tTok 0 0) },
     by decide +kernel⟩,
   ⟨5, 0, tE { tX with openF := some { t0 := 0, toks := [tTok 0 0] } }, { tX with openF := some { t0 := 0, toks := [tTok 0 0] } },
     { t0 := 0, toks := [tTok 0 0] }, by decide +kernel⟩,
   ⟨5, 0, tAt (tE { tX with openF := some { t0 := 0, toks := [tTok 0 0] } }) 256, { tX with openF := some { t0 := 0, toks := [tTok 0 0] } },
     { t0 := 0, toks := [tTok 0 0] }, by decide +kernel⟩⟩

theorem test_hyps_ExpertRuns :
    (∃ id, ∃ r, ∃ area, ∃ s : State, ∃ x, ∃ p, ∃ pass, ∃ ts, ∃ rest, ∃ t : State, s.expert? id = some x ∧ x.rep r = some p ∧
      p.active = true ∧ s.groupReady p.sts = true ∧ s.mayIssue p.skein clsExpert = true ∧ p.keyed = [] ∧ x.freeArea = some (r,
      area) ∧ x.nextTiles = some (pass, ts, rest) ∧ (ts.flatMap (·.toks)).all (s.wayOpen p.skein) = true ∧
      (s.setExpert id { x with closed := rest }).loadTiles id r area pass p ts = some t) ∧
    (∃ id : Nat, ∃ s : State, ∃ u : State, ∃ x : Expert, ∃ p : Replica, ∃ ts : List Tile, s.expert? id = some x ∧
      ts.flatMap (·.toks) ≠ [] ∧ ((∀ k ∈ ts.flatMap (·.toks), s.loadBad x p.sts.length k = none)) ∧
      takeToks (ts.flatMap (·.toks)) s = some (u, [])) ∧
    (∃ id, ∃ r, ∃ area, ∃ s : State, ∃ x, ∃ p, ∃ run, s.expert? id = some x ∧ x.rep r = some p ∧ p.area area = some run ∧
      area ≤ 1 ∧ p.running = none ∧ p.active = true ∧ (s.dealer p.skein).started.contains (runItem id r area) = true ∧
      s.shardQuiet x = true ∧ s.mayIssue p.skein clsExpert = true ∧ x.runOver p run = false ∧ run.step = x.wstep) ∧
    (∃ id, ∃ r, ∃ area, ∃ s : State, ∃ x, ∃ p, ∃ run, s.expert? id = some x ∧ x.rep r = some p ∧ p.area area = some run ∧
      area ≤ 1 ∧ p.running = none ∧ p.active = true ∧ (s.dealer p.skein).started.contains (runItem id r area) = true ∧
      s.shardQuiet x = true ∧ s.mayIssue p.skein clsExpert = true ∧ x.runOver p run = false ∧ run.step ≠ x.wstep) ∧
    (∃ id, ∃ r, ∃ s : State, ∃ x, ∃ p, ∃ area, ∃ run, ∃ l, s.expert? id = some x ∧ x.rep r = some p ∧ p.running = some (area,
      run) ∧ s.launch (runKey id r) = some l ∧ l.slots.all (s.slotOver (runKey id r)) = true ∧ s.groupReady p.sts = true ∧
      ((l.fault ≠ none ∨ s.mayIssue p.skein clsExpert = true))) ∧
    (∃ id, ∃ r, ∃ s : State, ∃ x, ∃ p, ∃ area, ∃ run, ∃ l, s.expert? id = some x ∧ x.rep r = some p ∧ p.running = some (area,
      run) ∧ s.launch (runKey id r) = some l ∧ l.slots.all (s.slotOver (runKey id r)) = false) ∧
    (∃ id, ∃ r, ∃ s : State, ∃ x, ∃ p, ∃ area, ∃ run, ∃ l, s.expert? id = some x ∧ x.rep r = some p ∧ p.running = some (area,
      run) ∧ s.launch (runKey id r) = some l ∧ l.fault ≠ none) ∧
    (∃ id, ∃ r, ∃ s : State, ∃ x, ∃ p, ∃ area, ∃ run, ∃ l, s.expert? id = some x ∧ x.rep r = some p ∧ p.running = some (area,
      run) ∧ s.launch (runKey id r) = some l ∧ x.runLimit ≠ 0 ∧ run.start + x.runLimit ≤ s.time.pip) ∧
    (∃ id, ∃ r, ∃ s : State, ∃ x, ∃ p, ∃ area, ∃ run, ∃ l, s.expert? id = some x ∧ x.rep r = some p ∧ p.running = some (area,
      run) ∧ s.launch (runKey id r) = some l ∧ (x.runLimit = 0 ∨ s.time.pip < run.start + x.runLimit)) ∧
    (∃ id, ∃ s : State, ∃ x, ∃ n, s.expert? id = some x ∧ x.firstBwd = some n ∧ x.grad = 0 ∧ n + x.bwdLimit ≤ s.time.pip ∧
      ((∀ k ∈ x.notices, n + x.bwdLimit ≤ k.stamp))) ∧
    (∃ id, ∃ s : State, ∃ x, ∃ n, s.expert? id = some x ∧ x.firstBwd = some n ∧ s.time.pip < n + x.bwdLimit) :=
  ⟨⟨5, 0, 0, tE { tX with closed := [(0, { t0 := 0, toks := [tTok 0 0] })] }, { tX with closed := [(0, { t0 := 0, toks := [tTok 0 0] })] },
    tRep, 0, [{ t0 := 0, toks := [tTok 0 0] }], [], (((tE { tX with closed := [(0, { t0 := 0, toks := [tTok 0 0] })] }).setExpert 5 { ({ tX with closed := [(0, { t0 := 0, toks := [tTok 0 0] })] } : Expert) with closed := [] }).loadTiles 5 0 0 0 tRep [{ t0 := 0, toks := [tTok 0 0] }]).getD tR,
    (by decide +kernel), (by decide +kernel), (by decide +kernel), (by decide +kernel), (by decide +kernel),
    (by decide +kernel), (by decide +kernel), (by decide +kernel), (by decide +kernel), (test_isSome (by decide +kernel))⟩,
   ⟨5, tE tX, tE tX, tX, tRep, [{ t0 := 0, toks := [tTok 0 0] }], by decide +kernel⟩,
   ⟨5, 0, 0, { tE ({ tX with reps := [(0, { tRep with a0 := some tRun })] }) with pwr := { dealers := [(0, { started := [runItem 5 0 0] })] } },
     { tX with reps := [(0, { tRep with a0 := some tRun })] }, { tRep with a0 := some tRun }, tRun, by decide +kernel⟩,
   ⟨5, 0, 0, { tE ({ tX with wstep := 3, reps := [(0, { tRep with a0 := some tRun })] }) with pwr := { dealers := [(0, { started := [runItem 5 0 0] })] } },
     { tX with wstep := 3, reps := [(0, { tRep with a0 := some tRun })] }, { tRep with a0 := some tRun }, tRun,
     by decide +kernel⟩,
   ⟨5, 0, tER (tXR 0) tRunL, tXR 0, tRepR, 1, { tRun with running := true }, tRunL, by decide +kernel⟩,
   ⟨5, 0, { tER (tXR 0) tRunL with tiles := [(0, { slots := [(0, { st := .live, owner := some (runKey 5 0) })] })] }, tXR 0,
     tRepR, 1, { tRun with running := true }, tRunL, by decide +kernel⟩,
   ⟨5, 0, tER (tXR 0) { tRunL with fault := some { status := .badField, tag := 0, pc := 0, exec := false, st := 0, slot := 0, stamp := 0, index := [] } },
     tXR 0, tRepR, 1, { tRun with running := true }, { tRunL with fault := some { status := .badField, tag := 0, pc := 0, exec := false, st := 0, slot := 0, stamp := 0, index := [] } },
     by decide +kernel⟩,
   ⟨5, 0, tAt (tER (tXR 4096) tRunL) 4096, tXR 4096, tRepR, 1, { tRun with running := true }, tRunL, by decide +kernel⟩,
   ⟨5, 0, tER (tXR 0) tRunL, tXR 0, tRepR, 1, { tRun with running := true }, tRunL, by decide +kernel⟩,
   ⟨5, tAt (tE { tX with firstBwd := some 0, d := tXd 1 0 }) 4096, { tX with firstBwd := some 0, d := tXd 1 0 }, 0,
     by decide +kernel⟩,
   ⟨5, tE { tX with firstBwd := some 0, d := tXd 1 0 }, { tX with firstBwd := some 0, d := tXd 1 0 }, 0, by decide +kernel⟩⟩

theorem test_hyps_ExpertCommands :
    (∃ o : Origin, ∃ addr : Nat, ∃ s : State, ∃ p : Posted, ∃ x : Expert, ∃ sl : List (Nat × Nat),
      s.waiting o 0x0801 [addr] = some p ∧ s.MaySend o 0x0801 ∧ s.Owns o resExp ∧ addr + 256 ≤ 2 ^ 37 ∧
      s.dramDenied addr 256 = false ∧ s.firstUe (dramKey addr) 256 = none ∧ x = { d := s.read (dramKey addr) 256 } ∧
      expertFieldBad x = false ∧ s.sec.grade ≠ .n ∧ ((∀ st ∈ x.map0, s.stitchStatus st = none)) ∧ ((∀ r ∈ x.extents,
      s.dramDenied r.1 r.2 = false)) ∧ tabGet? s.exp.exact (x.f 2 2) = none ∧ s.expPatBad x 0 = false ∧
      ((x.bwd = true → s.expPatBad x 1 = false)) ∧ ((x.bwd = true → (s.desc x.gradH).d ≠ none ∧ x.cap ≤ x.stashSlots)) ∧
      x.shardH = 0 ∧ x.placeBad = false ∧ groupBad x.map0 x.map0.length = false ∧ s.exp.exact.length < 2048 ∧
      s.takeAll x.map0 x.slotsPer = some sl ∧ s.mayIssue (addr / 2 ^ 35 % 4) clsMgmt = true) ∧
    (∃ o : Origin, ∃ id, ∃ s : State, ∃ p, ∃ e, s.waiting o 0x0802 [id] = some p ∧ s.MaySend o 0x0802 ∧ s.Owns o resExp ∧
      tabGet? s.exp.exact id = some e) ∧
    (∃ o : Origin, ∃ id : Nat, ∃ map : Nat, ∃ grad : Nat, ∃ s : State, ∃ p : Posted, ∃ x : Expert, ∃ sl : List (Nat × Nat),
      ∃ sts : List Nat, s.waiting o 0x0803 [id, map, grad] = some p ∧ s.MaySend o 0x0803 ∧ s.Owns o resExp ∧
      map + 128 ≤ 2 ^ 37 ∧ s.dramDenied map 128 = false ∧ s.firstUe (dramKey map) 128 = none ∧
      sts = mapStitches (s.readNat (dramKey map) 128) ∧ s.sec.grade ≠ .n ∧ ((∀ st ∈ sts, s.stitchStatus st = none)) ∧
      s.expert? id = some x ∧ groupBad sts (((x.reps.head?).map (fun r => r.2.sts.length)).getD x.map0.length) = false ∧
      bits grad 12 2 = 0 ∧ x.reps.length < 8 ∧ s.takeAll sts x.slotsPer = some sl ∧
      s.mayIssue (map / 2 ^ 35 % 4) clsMgmt = true) ∧
    (∃ o : Origin, ∃ id, ∃ r, ∃ s : State, ∃ p, ∃ x, ∃ q, s.waiting o 0x0804 [id, r] = some p ∧ s.MaySend o 0x0804 ∧
      s.Owns o resExp ∧ s.expert? id = some x ∧ x.rep r = some q ∧ ((x.reps.length ≠ 1 ∨ s.queuedToks id x = [])) ∧
      q.drop = none) ∧
    (∃ o : Origin, ∃ index, ∃ lo, ∃ hi, ∃ owner, ∃ s : State, ∃ p, s.waiting o 0x0805 [0, index, lo, hi, owner, 0] = some p ∧
      s.MaySend o 0x0805 ∧ s.Owns o resExp ∧ index ≤ 63 ∧ owner < 2 ^ 20 ∧ owner ≠ s.devFid ∧ owner ≠ 0xFFFFF ∧
      s.expert? lo = none ∧ s.exp.exact.length < 2048) ∧
    (∃ o : Origin, ∃ id, ∃ r, ∃ addr, ∃ s : State, ∃ p, ∃ x, ∃ q, s.waiting o 0x0806 [id, r, addr] = some p ∧
      s.MaySend o 0x0806 ∧ s.Owns o resExp ∧ s.expert? id = some x ∧ x.rep r = some q ∧
      addr + (q.sts.length * x.maskUnits + 7) / 8 ≤ 2 ^ 37 ∧
      s.dramDenied addr ((q.sts.length * x.maskUnits + 7) / 8) = false ∧
      s.firstUe (dramKey addr) ((q.sts.length * x.maskUnits + 7) / 8) = none ∧
      s.mayIssue (addr / 2 ^ 35 % 4) clsMgmt = true) ∧
    (∃ o : Origin, ∃ id, ∃ step, ∃ s : State, ∃ p, ∃ x, s.waiting o 0x0807 [id, step] = some p ∧ s.MaySend o 0x0807 ∧
      s.Owns o resExp ∧ s.expert? id = some x ∧ x.shardH = 0 ∧ x.gradTicket = []) ∧
    (∃ o : Origin, ∃ id, ∃ step, ∃ s : State, ∃ p, ∃ x, s.waiting o 0x0808 [id, step] = some p ∧ s.MaySend o 0x0808 ∧
      s.Owns o resExp ∧ s.expert? id = some x ∧ x.bwd = true ∧ x.wstep = step ∧ x.grad = 2) ∧
    (∃ o : Origin, ∃ id, ∃ step, ∃ s : State, ∃ p, ∃ x, s.waiting o 0x0808 [id, step] = some p ∧ s.MaySend o 0x0808 ∧
      s.Owns o resExp ∧ s.expert? id = some x ∧ x.bwd = true ∧ x.wstep = step ∧ x.grad = 0) ∧
    (∃ o : Origin, ∃ id, ∃ clear, ∃ s : State, ∃ p, ∃ x, s.waiting o 0x0809 [id, clear] = some p ∧ s.MaySend o 0x0809 ∧
      clearOk o clear ∧ s.expert? id = some x) ∧
    (∃ o : Origin, ∃ die, ∃ clear, ∃ s : State, ∃ p, s.waiting o 0x080A [die, clear] = some p ∧ s.MaySend o 0x080A ∧ die ≤ 4 ∧
      clearOk o clear) ∧
    (∃ o : Origin, ∃ id, ∃ r, ∃ s : State, ∃ p, ∃ x, ∃ q, s.waiting o 0x080B [id, r] = some p ∧ s.MaySend o 0x080B ∧
      s.Owns o resExp ∧ s.expert? id = some x ∧ x.rep r = some q ∧ q.suspended = true) ∧
    (∃ o : Origin, ∃ addr : Nat, ∃ s : State, ∃ p : Posted, ∃ x : Expert, s.waiting o 0x0801 [addr] = some p ∧
      s.MaySend o 0x0801 ∧ s.Owns o resExp ∧ addr + 256 ≤ 2 ^ 37 ∧ x = { d := s.read (dramKey addr) 256 } ∧
      expertFieldBad x = false ∧ s.sec.grade ≠ .n ∧ ((∀ st ∈ x.map0, s.stitchStatus st = none)) ∧
      s.dramDenied addr 256 = false ∧ ((∃ r ∈ x.extents, s.dramDenied r.1 r.2 = true))) :=
  ⟨⟨tO, 64, tPlaceS, tP, { d := tXd 0 0 }, [(0, 0)], (by decide +kernel), (fun _ => rfl),
    (by unfold State.Owns; decide +kernel), (by decide +kernel), (by decide +kernel), (by decide +kernel),
    (by decide +kernel), (by decide +kernel), (by decide +kernel), (by decide +kernel), (by decide +kernel),
    (by decide +kernel), (by decide +kernel), (by decide +kernel), (by decide +kernel), (by decide +kernel),
    (by decide +kernel), (by decide +kernel), (by decide +kernel), (by decide +kernel), (by decide +kernel)⟩,
   ⟨tO, 5, tC (tE tX) 0x0802 [5] 0, tP, .here tX, (by decide +kernel), (fun _ => rfl), (by unfold State.Owns; decide +kernel),
     (by decide +kernel)⟩,
   ⟨tO, 5, 64, 0, tC ((tE tX).write 64 [2]) 0x0803 [5, 64, 0] 0, tP, tX, [(1, 0)], [1], (by decide +kernel), (fun _ => rfl),
     (by unfold State.Owns; decide +kernel), (by decide +kernel), (by decide +kernel), (by decide +kernel),
     (by decide +kernel), (by decide +kernel), (by decide +kernel), (by decide +kernel), (by decide +kernel),
     (by decide +kernel), (by decide +kernel), (by decide +kernel), (by decide +kernel)⟩,
   ⟨tO, 5, 0, tC (tE tX) 0x0804 [5, 0] 0, tP, tX, tRep, (by decide +kernel), (fun _ => rfl),
     (by unfold State.Owns; decide +kernel), (by decide +kernel), (by decide +kernel), (by decide +kernel),
     (by decide +kernel)⟩,
   ⟨tO, 63, 6, 0, 77, tC (tR) 0x0805 [0, 63, 6, 0, 77, 0] 0, tP, (by decide +kernel), (fun _ => rfl),
     (by unfold State.Owns; decide +kernel), (by decide +kernel), (by decide +kernel), (by decide +kernel),
     (by decide +kernel), (by decide +kernel), (by decide +kernel)⟩,
   ⟨tO, 5, 0, 64, tC (tE tX) 0x0806 [5, 0, 64] 0, tP, tX, tRep, (by decide +kernel), (fun _ => rfl),
     (by unfold State.Owns; decide +kernel), (by decide +kernel), (by decide +kernel), (by decide +kernel),
     (by decide +kernel), (by decide +kernel), (by decide +kernel)⟩,
   ⟨tO, 5, 9, tC (tE tX) 0x0807 [5, 9] 0, tP, tX, (by decide +kernel), (fun _ => rfl), (by unfold State.Owns; decide +kernel),
     (by decide +kernel), (by decide +kernel), (by decide +kernel)⟩,
   ⟨tO, 5, 0, tC (tE { tX with d := tXd 1 0, grad := 2 }) 0x0808 [5, 0] 0, tP, { tX with d := tXd 1 0, grad := 2 },
     (by decide +kernel), (fun _ => rfl), (by unfold State.Owns; decide +kernel), (by decide +kernel), (by decide +kernel),
     (by decide +kernel), (by decide +kernel)⟩,
   ⟨tO, 5, 0, tC (tE { tX with d := tXd 1 0 }) 0x0808 [5, 0] 0, tP, { tX with d := tXd 1 0 }, (by decide +kernel),
     (fun _ => rfl), (by unfold State.Owns; decide +kernel), (by decide +kernel), (by decide +kernel), (by decide +kernel),
     (by decide +kernel)⟩,
   ⟨tO, 5, 1, tC (tE tX) 0x0809 [5, 1] 0, tP, tX, (by decide +kernel), (fun _ => rfl), (by show _ ≤ 1; decide),
     (by decide +kernel)⟩,
   ⟨tO, 4, 1, tC (tR) 0x080A [4, 1] 0, tP, (by decide +kernel), (fun _ => rfl), (by decide +kernel), (by show _ ≤ 1; decide)⟩,
   ⟨tO, 5, 0, tC (tE { tX with reps := [(0, { tRep with suspended := true })] }) 0x080B [5, 0] 0, tP, { tX with reps := [(0, { tRep with suspended := true })] },
     { tRep with suspended := true }, (by decide +kernel), (fun _ => rfl), (by unfold State.Owns; decide +kernel),
     (by decide +kernel), (by decide +kernel), (by decide +kernel)⟩,
   ⟨tO, 64, tPlaceD, tP, { d := tXdS }, (by decide +kernel), (fun _ => rfl), (by unfold State.Owns; decide +kernel),
     (by decide +kernel), (by decide +kernel), (by decide +kernel), (by decide +kernel), (by decide +kernel),
     (by decide +kernel), (by decide +kernel)⟩⟩

theorem test_hyps_ShardCommands :
    (∃ o : Origin, ∃ handle : Nat, ∃ addr : Nat, ∃ len : Nat, ∃ source : Nat, ∃ far : Nat, ∃ s : State, ∃ p : Posted,
      ∃ x : Shard, s.waiting o 0x0901 [handle, addr, len, source, far] = some p ∧ s.MaySend o 0x0901 ∧ s.Owns o resUpd ∧
      1 ≤ handle ∧ handle ≤ 1023 ∧ addr + len ≤ 2 ^ 37 ∧ s.dramDenied addr len = false ∧ s.firstUe (dramKey addr) len = none ∧
      len = 128 + 16 * (min 16 (fieldAt (s.read (dramKey addr) 128) 5 1) + min 64 (fieldAt (s.read (dramKey addr) 128) 6 1)) ∧
      x = parseShard (s.read (dramKey addr) len) ∧ shardFieldBad (s.read (dramKey addr) len) x = false ∧
      s.shard? handle = none ∧ s.shardDescBad x = false ∧ s.copiesDenied x x.copies = false ∧
      s.mayIssue (addr / 2 ^ 35 % 4) clsMgmt = true ∧ source = 0 ∧ s.masterUe x = none) ∧
    (∃ o : Origin, ∃ handle : Nat, ∃ addr : Nat, ∃ len : Nat, ∃ source : Nat, ∃ far : Nat, ∃ s : State, ∃ p : Posted,
      ∃ x : Shard, s.waiting o 0x0901 [handle, addr, len, source, far] = some p ∧ s.MaySend o 0x0901 ∧ s.Owns o resUpd ∧
      1 ≤ handle ∧ handle ≤ 1023 ∧ addr + len ≤ 2 ^ 37 ∧ s.dramDenied addr len = false ∧ s.firstUe (dramKey addr) len = none ∧
      len = 128 + 16 * (min 16 (fieldAt (s.read (dramKey addr) 128) 5 1) + min 64 (fieldAt (s.read (dramKey addr) 128) 6 1)) ∧
      x = parseShard (s.read (dramKey addr) len) ∧ shardFieldBad (s.read (dramKey addr) len) x = false ∧
      s.shard? handle = none ∧ s.shardDescBad x = false ∧ s.copiesDenied x x.copies = false ∧
      s.mayIssue (addr / 2 ^ 35 % 4) clsMgmt = true ∧ source = 1 ∧ addrSpace far = 2 ∧ bits far 42 20 ≠ 0xFFFFF) ∧
    (∃ o : Origin, ∃ handle, ∃ s : State, ∃ p, ∃ x, s.waiting o 0x0902 [handle] = some p ∧ s.MaySend o 0x0902 ∧
      s.Owns o resUpd ∧ handle ≤ 1023 ∧ s.shard? handle = some x ∧ ((∀ g ∈ s.coll, g.2.rub ≠ some handle)) ∧ x.expert = none ∧
      x.st ≠ .opened ∧ x.st ≠ .sealing) ∧
    (∃ o : Origin, ∃ handle, ∃ addr, ∃ version, ∃ s : State, ∃ p, ∃ x, s.waiting o 0x0903 [handle, addr, version] = some p ∧
      s.MaySend o 0x0903 ∧ s.Owns o resUpd ∧ handle ≤ 1023 ∧ s.shard? handle = some x ∧
      addr + x.n * (x.gradFmt.width / 8) ≤ 2 ^ 37 ∧ s.dramDenied addr (x.n * (x.gradFmt.width / 8)) = false ∧ x.kind = 0 ∧
      x.st = .committed ∧ x.version = version ∧ x.ticket.isSome = true) ∧
    (∃ o : Origin, ∃ handle, ∃ addr, ∃ version, ∃ s : State, ∃ p, ∃ x, s.waiting o 0x0903 [handle, addr, version] = some p ∧
      s.MaySend o 0x0903 ∧ s.Owns o resUpd ∧ handle ≤ 1023 ∧ s.shard? handle = some x ∧
      addr + x.n * (x.gradFmt.width / 8) ≤ 2 ^ 37 ∧ s.dramDenied addr (x.n * (x.gradFmt.width / 8)) = false ∧ x.kind = 0 ∧
      x.st = .committed ∧ x.version = version ∧ x.ticket = none) ∧
    (∃ o : Origin, ∃ handle, ∃ addr, ∃ version, ∃ s : State, ∃ p, ∃ x, s.waiting o 0x0903 [handle, addr, version] = some p ∧
      s.MaySend o 0x0903 ∧ s.Owns o resUpd ∧ handle ≤ 1023 ∧ s.shard? handle = some x ∧
      addr + x.n * (x.gradFmt.width / 8) ≤ 2 ^ 37 ∧ s.dramDenied addr (x.n * (x.gradFmt.width / 8)) = false ∧ x.kind = 0 ∧
      x.st = .committed ∧ x.version ≠ version) ∧
    (∃ o : Origin, ∃ handle, ∃ fromX, ∃ params, ∃ s : State, ∃ p, ∃ x, s.waiting o 0x0904 [handle, fromX,
      leNat params] = some p ∧ s.MaySend o 0x0904 ∧ s.Owns o resUpd ∧ handle ≤ 1023 ∧ s.shard? handle = some x ∧
      paramsBad x.opt (parseParams params) = false ∧ 0 ≤ verDiff fromX x.version ∧
      ((fromX = x.version → x.st = .committed))) ∧
    (∃ o : Origin, ∃ handle, ∃ fromX, ∃ params, ∃ s : State, ∃ p, ∃ x, s.waiting o 0x0904 [handle, fromX,
      leNat params] = some p ∧ s.MaySend o 0x0904 ∧ s.Owns o resUpd ∧ handle ≤ 1023 ∧ s.shard? handle = some x ∧
      paramsBad x.opt (parseParams params) = false ∧ verDiff fromX x.version < 0) ∧
    (∃ o : Origin, ∃ handle, ∃ clear, ∃ s : State, ∃ p, ∃ x, s.waiting o 0x0905 [handle, clear] = some p ∧
      s.MaySend o 0x0905 ∧ handle ≤ 1023 ∧ clearOk o clear ∧ s.shard? handle = some x ∧ s.commitTorn x.skein handle = false) ∧
    (∃ o : Origin, ∃ skein, ∃ clear, ∃ s : State, ∃ p, s.waiting o 0x090F [skein, clear] = some p ∧ s.MaySend o 0x090F ∧
      skein ≤ 3 ∧ clearOk o clear) :=
  ⟨⟨tO, 5, 64, 144, 0, 0, tC ((tR.write 64 (tShB 16))) 0x0901 [5, 64, 144, 0, 0] 0, tP, tSh, (by decide +kernel),
    (fun _ => rfl), (by unfold State.Owns; decide +kernel), (by decide +kernel), (by decide +kernel), (by decide +kernel),
    (by decide +kernel), (by decide +kernel), (by decide +kernel), (by decide +kernel), (by decide +kernel),
    (by decide +kernel), (by decide +kernel), (by decide +kernel), (by decide +kernel), (by decide +kernel),
    (by decide +kernel)⟩,
   ⟨tO, 5, 64, 144, 1, 2 ^ 63, tC ((tR.write 64 (tShB 16))) 0x0901 [5, 64, 144, 1, 2 ^ 63] 0, tP, tSh, (by decide +kernel),
     (fun _ => rfl), (by unfold State.Owns; decide +kernel), (by decide +kernel), (by decide +kernel), (by decide +kernel),
     (by decide +kernel), (by decide +kernel), (by decide +kernel), (by decide +kernel), (by decide +kernel),
     (by decide +kernel), (by decide +kernel), (by decide +kernel), (by decide +kernel), (by decide +kernel),
     (by decide +kernel), (by decide +kernel)⟩,
   ⟨tO, 5, tC (tSS tSh) 0x0902 [5] 0, tP, tSh, (by decide +kernel), (fun _ => rfl), (by unfold State.Owns; decide +kernel),
     (by decide +kernel), (by decide +kernel), (by decide +kernel), (by decide +kernel), (by decide +kernel),
     (by decide +kernel)⟩,
   ⟨tO, 5, 0, 0, tC (tSS { tSh with ticket := some 1 }) 0x0903 [5, 0, 0] 0, tP, { tSh with ticket := some 1 },
     (by decide +kernel), (fun _ => rfl), (by unfold State.Owns; decide +kernel), (by decide +kernel), (by decide +kernel),
     (by decide +kernel), (by decide +kernel), (by decide +kernel), (by decide +kernel), (by decide +kernel),
     (by decide +kernel)⟩,
   ⟨tO, 5, 0, 0, tC (tSS tSh) 0x0903 [5, 0, 0] 0, tP, tSh, (by decide +kernel), (fun _ => rfl),
     (by unfold State.Owns; decide +kernel), (by decide +kernel), (by decide +kernel), (by decide +kernel),
     (by decide +kernel), (by decide +kernel), (by decide +kernel), (by decide +kernel), (by decide +kernel)⟩,
   ⟨tO, 5, 0, 1, tC (tSS tSh) 0x0903 [5, 0, 1] 0, tP, tSh, (by decide +kernel), (fun _ => rfl),
     (by unfold State.Owns; decide +kernel), (by decide +kernel), (by decide +kernel), (by decide +kernel),
     (by decide +kernel), (by decide +kernel), (by decide +kernel), (by decide +kernel)⟩,
   ⟨tO, 5, 0, List.replicate 32 0, tC (tSS tSh) 0x0904 [5, 0, 0] 0, tP, tSh, (by decide +kernel), (fun _ => rfl),
     (by unfold State.Owns; decide +kernel), (by decide +kernel), (by decide +kernel), (by decide +kernel),
     (by decide +kernel), (by decide +kernel)⟩,
   ⟨tO, 5, 0xFFFFFFFF, List.replicate 32 0, tC (tSS tSh) 0x0904 [5, 0xFFFFFFFF, 0] 0, tP, tSh, (by decide +kernel),
     (fun _ => rfl), (by unfold State.Owns; decide +kernel), (by decide +kernel), (by decide +kernel), (by decide +kernel),
     (by decide +kernel)⟩,
   ⟨tO, 5, 0, tC (tSS tSh) 0x0905 [5, 0] 0, tP, tSh, (by decide +kernel), (fun _ => rfl), (by decide +kernel),
     (by show _ ≤ 1; decide), (by decide +kernel), (by decide +kernel)⟩,
   ⟨tO, 3, 0, tC (tR) 0x090F [3, 0] 0, tP, (by decide +kernel), (fun _ => rfl), (by decide +kernel), (by show _ ≤ 1; decide)⟩⟩

theorem test_hyps_UpdateSteps :
    (∃ h, ∃ s : State, ∃ x, ∃ r, ∃ rest, s.shard? h = some x ∧ x.ready = r :: rest ∧ x.st = .committed ∧ x.rebind = none ∧
      x.restore = none ∧ ((∀ e, x.expert = some e → s.expertQuiet e = true)) ∧ s.commitTorn x.skein h = false) ∧
    (∃ h, ∃ s : State, ∃ x, ∃ r, ∃ rest, s.shard? h = some x ∧ x.ready = r :: rest ∧
      ((x.st ≠ .committed ∨ x.rebind.isSome = true ∨ x.restore.isSome = true ∨ ∃ e, x.expert = some e ∧
      s.expertQuiet e = false))) ∧
    (∃ h, ∃ s : State, ∃ x, ∃ r, ∃ gs, s.shard? h = some x ∧
      x.ready.find? (fun r => r.coll == x.rubColl && (s.dealer x.skein).started.contains (.slice h r.s)) = some r ∧
      x.st = .opened ∧ s.copiesInFlight x = false ∧ s.mayIssue x.skein clsUpdate = true ∧ s.gradOf x r = (s, some gs) ∧
      s.sliceUe x r.s gs.length = none ∧ x.next + 1 < x.sliceNum) ∧
    (∃ h, ∃ s : State, ∃ x, ∃ r, ∃ gs, ∃ w, s.shard? h = some x ∧
      x.ready.find? (fun r => r.coll == x.rubColl && (s.dealer x.skein).started.contains (.slice h r.s)) = some r ∧
      x.st = .opened ∧ s.copiesInFlight x = false ∧ s.mayIssue x.skein clsUpdate = true ∧ s.gradOf x r = (s, some gs) ∧
      s.sliceUe x r.s gs.length = some w) ∧
    (∃ h, ∃ s : State, ∃ x, ∃ k, ∃ rest, s.shard? h = some x ∧ x.pend = k :: rest ∧ x.window ≤ x.sent - x.acked) ∧
    (∃ h, ∃ s : State, ∃ x, ∃ k, ∃ rest, ∃ sq, ∃ bad, s.shard? h = some x ∧ x.pend = k :: rest ∧ x.sent - x.acked < x.window ∧
      s.freeSeq x.goal.1 = some sq ∧ s.mayIssue x.skein clsUpdate = true ∧ s.chunkUe x k = some bad ∧ x.rebind = none) ∧
    (∃ h, ∃ s : State, ∃ x, ∃ k, ∃ rest, ∃ sq, s.shard? h = some x ∧ x.pend = k :: rest ∧ x.sent - x.acked < x.window ∧
      s.freeSeq x.goal.1 = some sq ∧ s.mayIssue x.skein clsUpdate = true ∧ s.chunkUe x k = none ∧
      ((rest ≠ [] ∨ x.acked ≠ x.chunkNum))) ∧
    (∃ dst, ∃ seq, ∃ h, ∃ k, ∃ s : State, ∃ x, ∃ r, s.route.reqs.find? (fun r => r.dst == dst && r.seq == seq) = some r ∧
      r.who = .mirror h k ∧ s.shard? h = some x ∧ ((∀ d, s.due r = some d → s.time.pip < d) ∨ s.answerWaits r = true)) ∧
    (∃ dst, ∃ seq, ∃ h, ∃ k, ∃ s : State, ∃ x, ∃ r, ∃ d, s.route.reqs.find? (fun r => r.dst == dst && r.seq == seq) = some r ∧
      r.who = .mirror h k ∧ s.shard? h = some x ∧ s.due r = some d ∧ d ≤ s.time.pip ∧ s.answerWaits r = false ∧ ((∀ b,
      x.rebind = some b → b.create = false))) ∧
    (∃ group, ∃ seq, ∃ s : State, ∃ g, ∃ c, ∃ n, tabGet? s.coll group = some g ∧ g.coll? seq = some c ∧ c.passed = some n ∧
      g.parent = none ∧ chRub c.hdr = true ∧ n + g.timeout ≤ s.time.pip ∧ ((∀ h,
      g.rub = some h → s.sealAnswered h (n + g.timeout) = false))) ∧
    (∃ group, ∃ seq, ∃ s : State, ∃ g, ∃ c, ∃ n, tabGet? s.coll group = some g ∧ g.coll? seq = some c ∧ c.passed = some n ∧
      g.parent = none ∧ chRub c.hdr = true ∧ (s.time.pip < n + g.timeout ∨ (∃ h, g.rub = some h ∧
      s.sealAnswered h (n + g.timeout) = true))) ∧
    (∃ h, ∃ s : State, ∃ x, s.shard? h = some x ∧ s.commitTorn x.skein h = false ∧ x.rebind = none) :=
  ⟨⟨5, tSS ({ tSh with ready := [{ s := 0, g := [0] }] }), { tSh with ready := [{ s := 0, g := [0] }] }, { s := 0, g := [0] },
    [], (by decide +kernel), (by decide +kernel), (by decide +kernel), (by decide +kernel), (by decide +kernel),
    (by intro e he; have h : none = some e := he; cases h), (by decide +kernel)⟩,
   ⟨5, tSS ({ tSh with ready := [{ s := 0, g := [0] }], st := .opened }), { tSh with ready := [{ s := 0, g := [0] }], st := .opened },
     { s := 0, g := [0] }, [], (by decide +kernel), (by decide +kernel), (Or.inl (by decide +kernel))⟩,
   ⟨5, tSO tShL, tShL, { s := 0, g := [0] }, ((tSO tShL).gradOf tShL { s := 0, g := [0] }).2.getD [], (by decide +kernel),
     (by decide +kernel), (by decide +kernel), (by decide +kernel), (by decide +kernel), (test_grad _ _ _ rfl rfl),
     (by decide +kernel), (by decide +kernel)⟩,
   ⟨5, { tSO tShL with ueWords := [dramKey 0x10000 / 8] }, tShL, { s := 0, g := [0] },
     (({ tSO tShL with ueWords := [dramKey 0x10000 / 8] } : State).gradOf tShL { s := 0, g := [0] }).2.getD [],
     dramKey 0x10000 / 8 * 8, (by decide +kernel), (by decide +kernel), (by decide +kernel), (by decide +kernel),
     (by decide +kernel), (test_grad _ _ _ rfl rfl), (by decide +kernel)⟩,
   ⟨5, tSS ({ tSh with pend := [1], sent := 1 }), { tSh with pend := [1], sent := 1 }, 1, [], by decide +kernel⟩,
   ⟨5, { tSS ({ tSh with pend := [0, 1] }) with ueWords := [dramKey 0x10000 / 8] }, { tSh with pend := [0, 1] }, 0, [1], 0,
     dramKey 0x10000 / 8 * 8, by decide +kernel⟩,
   ⟨5, tSS ({ tSh with pend := [0, 1] }), { tSh with pend := [0, 1] }, 0, [1], 0, by decide +kernel⟩,
   ⟨9, 0, 5, 0, tAt { tSS tSh with route := { reqs := [{ dst := 9, seq := 0, who := .mirror 5 0, addr := 0, len := 0, stamp := 0, limit := 4096 }] } } 0,
     tSh, { dst := 9, seq := 0, who := .mirror 5 0, addr := 0, len := 0, stamp := 0, limit := 4096 }, (by decide +kernel),
     (by decide +kernel), (by decide +kernel),
     (Or.inl (by intro d h; have h2 : some 4096 = some d := h; cases h2; decide +kernel))⟩,
   ⟨9, 0, 5, 0, tAt { tSS tSh with route := { reqs := [{ dst := 9, seq := 0, who := .mirror 5 0, addr := 0, len := 0, stamp := 0, limit := 4096 }] } } 4096,
     tSh, { dst := 9, seq := 0, who := .mirror 5 0, addr := 0, len := 0, stamp := 0, limit := 4096 }, 4096,
     (by decide +kernel), (by decide +kernel), (by decide +kernel), (by decide +kernel), (by decide +kernel),
     (by decide +kernel), (fun _ h => nomatch h)⟩,
   ⟨8, 3, tAt { tR with coll := [(8, { tGroup with colls := [{ seq := 3, t0 := 0, hdr := [0, 0, 0, 0, 0, 0, 4], passed := some 0 }] })] } 4096,
     { tGroup with colls := [{ seq := 3, t0 := 0, hdr := [0, 0, 0, 0, 0, 0, 4], passed := some 0 }] }, { seq := 3, t0 := 0, hdr := [0, 0, 0, 0, 0, 0, 4], passed := some 0 },
     0, (by decide +kernel), (by decide +kernel), (by decide +kernel), (by decide +kernel), (by decide +kernel),
     (by decide +kernel), (by intro h e; have e2 : (none : Option Nat) = some h := e; cases e2)⟩,
   ⟨8, 3, tAt { tR with coll := [(8, { tGroup with colls := [{ seq := 3, t0 := 0, hdr := [0, 0, 0, 0, 0, 0, 4], passed := some 0 }] })] } 4095,
     { tGroup with colls := [{ seq := 3, t0 := 0, hdr := [0, 0, 0, 0, 0, 0, 4], passed := some 0 }] }, { seq := 3, t0 := 0, hdr := [0, 0, 0, 0, 0, 0, 4], passed := some 0 },
     0, (by decide +kernel), (by decide +kernel), (by decide +kernel), (by decide +kernel), (by decide +kernel),
     (Or.inl (by decide +kernel))⟩,
   ⟨5, tSS tSh, tSh, by decide +kernel⟩⟩

theorem test_hyps_MirrorPartner :
    (∃ ing, ∃ s : State, ∃ q, ∃ m, ∃ v, ∃ i, ∃ c, s.MemOk ∧ s.localHead ing 4 8 = some q ∧ s.mirrorStatus q.f = .ok m ∧
      m.sealed = some (v, i) ∧ i < 2 ∧ m.n ≤ 2 ^ 28 ∧ overlaps m.slot0 m.slotLen m.slot1 m.slotLen = false ∧
      (c = Instr.mirrorData ing ∨ c = Instr.mirrorSeal ing) ∧ c = Instr.mirrorData ing) ∧
    (∃ ing, ∃ s : State, ∃ q, ∃ m, ∃ v, ∃ i, ∃ c, s.MemOk ∧ s.localHead ing 4 8 = some q ∧ s.mirrorStatus q.f = .ok m ∧
      m.sealed = some (v, i) ∧ i < 2 ∧ m.n ≤ 2 ^ 28 ∧ overlaps m.slot0 m.slotLen m.slot1 m.slotLen = false ∧
      (c = Instr.mirrorData ing ∨ c = Instr.mirrorSeal ing) ∧ c = Instr.mirrorSeal ing ∧ s.mirrorAnswers < 4096 ∧
      fieldAt q.f.cells 0 1 = 2 ∧ s.commitTorn q.skein (1024 + bits q.f.spec 14 10) = false) ∧
    (∃ ing, ∃ s : State, ∃ q, ∃ e, s.localHead ing 4 8 = some q ∧ s.mirrorAnswers < 4096 ∧ s.mirrorStatus q.f = .error e ∧
      fieldAt q.f.cells 0 1 ≠ 2) ∧
    (∃ ing, ∃ s : State, ∃ q, ∃ e, s.localHead ing 4 8 = some q ∧ s.mirrorAnswers < 4096 ∧ s.mirrorStatus q.f = .error e ∧
      fieldAt q.f.cells 0 1 = 2) ∧
    (∃ ing, ∃ s : State, ∃ q, ∃ m, s.localHead ing 4 8 = some q ∧ s.mirrorAnswers < 4096 ∧ s.mirrorStatus q.f = .ok m ∧
      s.ueWords = [] ∧ fieldAt q.f.cells 0 1 ≠ 2) ∧
    (∃ ing, ∃ s : State, ∃ q, ∃ m, s.localHead ing 4 8 = some q ∧ s.mirrorAnswers < 4096 ∧ s.mirrorStatus q.f = .ok m ∧
      s.ueWords = [] ∧ fieldAt q.f.cells 0 1 = 2 ∧ s.commitTorn q.skein (1024 + bits q.f.spec 14 10) = false ∧
      m.recv = some (fieldAt q.f.cells 4 4) ∧ (m.n + 511) / 512 ≤ m.chunks.length) ∧
    (∃ ing, ∃ s : State, ∃ q, ∃ m, s.localHead ing 4 8 = some q ∧ s.mirrorAnswers < 4096 ∧ s.mirrorStatus q.f = .ok m ∧
      s.ueWords = [] ∧ fieldAt q.f.cells 0 1 = 2 ∧ s.commitTorn q.skein (1024 + bits q.f.spec 14 10) = false ∧
      m.recv = some (fieldAt q.f.cells 4 4) ∧ m.chunks.length < (m.n + 511) / 512) :=
  ⟨⟨4, tF (tMS tMirS) (tMQ 1), tMQ 1, tMirS, 0, 0, .mirrorData 4, (by unfold State.MemOk; decide +kernel),
    (by decide +kernel), (test_isOk (by decide +kernel)), (by decide +kernel), (by decide +kernel), (by decide +kernel),
    (by rw [test_slotLen _ rfl rfl]; decide +kernel), (by decide +kernel), (by decide +kernel)⟩,
   ⟨4, tF (tMS tMirS) (tMQ 2), tMQ 2, tMirS, 0, 0, .mirrorSeal 4, (by unfold State.MemOk; decide +kernel),
     (by decide +kernel), (test_isOk (by decide +kernel)), (by decide +kernel), (by decide +kernel), (by decide +kernel),
     (by rw [test_slotLen _ rfl rfl]; decide +kernel), (by decide +kernel), (by decide +kernel), (by decide +kernel),
     (by decide +kernel), (by decide +kernel)⟩,
   ⟨4, tF tR (tMQ 1), tMQ 1, .badDesc, (by decide +kernel), (by decide +kernel), (test_isError (by decide +kernel)),
     (by decide +kernel)⟩,
   ⟨4, tF tR (tMQ 2), tMQ 2, .badDesc, (by decide +kernel), (by decide +kernel), (test_isError (by decide +kernel)),
     (by decide +kernel)⟩,
   ⟨4, tF (tMS tMir) (tMQ 1), tMQ 1, tMir, (by decide +kernel), (by decide +kernel), (test_isOk (by decide +kernel)),
     (by decide +kernel), (by decide +kernel)⟩,
   ⟨4, tF (tMS { tMir with recv := some 0, chunks := [0] }) (tMQ 2), tMQ 2, { tMir with recv := some 0, chunks := [0] },
     (by decide +kernel), (by decide +kernel), (test_isOk (by decide +kernel)), (by decide +kernel), (by decide +kernel),
     (by decide +kernel), (by decide +kernel), (by decide +kernel)⟩,
   ⟨4, tF (tMS { tMir with recv := some 0, chunks := [] }) (tMQ 2), tMQ 2, { tMir with recv := some 0, chunks := [] },
     (by decide +kernel), (by decide +kernel), (test_isOk (by decide +kernel)), (by decide +kernel), (by decide +kernel),
     (by decide +kernel), (by decide +kernel), (by decide +kernel)⟩⟩

theorem test_hyps_MirrorCommands :
    (∃ o : Origin, ∃ handle, ∃ fid, ∃ index, ∃ s : State, ∃ p, ∃ x, s.waiting o 0x0906 [handle, fid, index] = some p ∧
      s.MaySend o 0x0906 ∧ s.Owns o resUpd ∧ handle ≤ 1023 ∧ s.shard? handle = some x ∧ fid < 0xFFFFF ∧ index < 1024 ∧
      fid ≠ s.devFid ∧ ((x.st = .committed ∨ x.st = .lost))) ∧
    (∃ o : Origin, ∃ handle, ∃ far, ∃ s : State, ∃ p, ∃ x, s.waiting o 0x0907 [handle, far] = some p ∧ s.MaySend o 0x0907 ∧
      s.Owns o resUpd ∧ handle ≤ 1023 ∧ s.shard? handle = some x ∧ addrSpace far = 2 ∧ bits far 42 20 ≠ 0xFFFFF ∧
      ((x.st = .committed ∨ x.st = .lost ∨ x.st = .torn))) ∧
    (∃ o : Origin, ∃ handle, ∃ version, ∃ s : State, ∃ p, ∃ x, s.waiting o 0x0908 [handle, version] = some p ∧
      s.MaySend o 0x0908 ∧ s.Owns o resUpd ∧ handle ≤ 1023 ∧ s.shard? handle = some x ∧ x.st = .lost ∧
      version = (x.version + 1) % 2 ^ 32 ∧ s.commitTorn x.skein handle = false) ∧
    (∃ o : Origin, ∃ handle, ∃ entry, ∃ s : State, ∃ p, ∃ x, s.waiting o 0x0909 [handle, leNat entry] = some p ∧
      s.MaySend o 0x0909 ∧ s.Owns o resUpd ∧ handle ≤ 1023 ∧ s.shard? handle = some x ∧ (parseCopy entry).2 = false ∧
      s.copyDesc x (parseCopy entry).1 ≠ none ∧ s.copiesDenied x [(parseCopy entry).1] = false ∧ x.copies.length < 16 ∧
      x.st = .committed ∧ s.masterUe x = none) ∧
    (∃ o : Origin, ∃ handle, ∃ copy, ∃ s : State, ∃ p, ∃ x, s.waiting o 0x090A [handle, copy] = some p ∧ s.MaySend o 0x090A ∧
      s.Owns o resUpd ∧ handle ≤ 1023 ∧ s.shard? handle = some x ∧ copy < x.copies.length ∧ ((x.kind = 1 → copy ≠ 0)) ∧
      x.st = .committed) ∧
    (∃ o : Origin, ∃ index : Nat, ∃ fid : Nat, ∃ handle : Nat, ∃ n : Nat, ∃ b : Nat, ∃ slot0 : Nat, ∃ slot1 : Nat,
      ∃ s : State, ∃ p : Posted, ∃ m : Mirror, s.waiting o 0x090B [index, fid, handle, n, b, slot0, slot1] = some p ∧
      s.MaySend o 0x090B ∧ s.Owns o resUpd ∧ m = { fid := fid, handle := handle, n := n, b := b, slot0 := slot0, slot1 := slot1 } ∧
      index ≤ 1023 ∧ fid < 0xFFFFF ∧ 1 ≤ handle ∧ handle ≤ 1023 ∧ 1 ≤ n ∧ n ≤ 2 ^ 28 ∧ 4 ≤ b ∧ b ≤ 12 ∧
      slot0 + m.slotLen ≤ 2 ^ 37 ∧ slot1 + m.slotLen ≤ 2 ^ 37 ∧ tabGet? s.upd.mirrors index = none ∧
      s.dramDenied slot0 m.slotLen = false ∧ s.dramDenied slot1 m.slotLen = false ∧
      overlaps slot0 m.slotLen slot1 m.slotLen = false) ∧
    (∃ o : Origin, ∃ index, ∃ fid, ∃ handle, ∃ s : State, ∃ p, ∃ m, s.waiting o 0x090C [index, fid, handle] = some p ∧
      s.MaySend o 0x090C ∧ s.Owns o resUpd ∧ index ≤ 1023 ∧ tabGet? s.upd.mirrors index = some m ∧ fid < 0xFFFFF ∧
      1 ≤ handle ∧ handle ≤ 1023) ∧
    (∃ o : Origin, ∃ index, ∃ s : State, ∃ p, ∃ m, s.waiting o 0x090D [index] = some p ∧ s.MaySend o 0x090D ∧
      s.Owns o resUpd ∧ index ≤ 1023 ∧ tabGet? s.upd.mirrors index = some m) ∧
    (∃ o : Origin, ∃ index, ∃ s : State, ∃ p, ∃ m, s.waiting o 0x090E [index] = some p ∧ s.MaySend o 0x090E ∧ index ≤ 1023 ∧
      tabGet? s.upd.mirrors index = some m ∧ s.commitTorn (s.mirrorSkein index) (1024 + index) = false) :=
  ⟨⟨tO, 5, 9, 1, tC (tSS tSh) 0x0906 [5, 9, 1] 0, tP, tSh, (by decide +kernel), (fun _ => rfl),
    (by unfold State.Owns; decide +kernel), (by decide +kernel), (by decide +kernel), (by decide +kernel),
    (by decide +kernel), (by decide +kernel), (by decide +kernel)⟩,
   ⟨tO, 5, 2 ^ 63, tC (tSS tSh) 0x0907 [5, 2 ^ 63] 0, tP, tSh, (by decide +kernel), (fun _ => rfl),
     (by unfold State.Owns; decide +kernel), (by decide +kernel), (by decide +kernel), (by decide +kernel),
     (by decide +kernel), (by decide +kernel)⟩,
   ⟨tO, 5, 1, tC (tSS ({ tSh with st := .lost })) 0x0908 [5, 1] 0, tP, { tSh with st := .lost }, (by decide +kernel),
     (fun _ => rfl), (by unfold State.Owns; decide +kernel), (by decide +kernel), (by decide +kernel), (by decide +kernel),
     (by decide +kernel), (by decide +kernel)⟩,
   ⟨tO, 5, [1, 0, 0, 0, 0, 0, 0, 0, 0, 0, 0, 0, 0, 0, 0, 0], tC ({ tSS tSh with descs := [(1, { d := some { fmt := .b16, rows := 1, cols := 16, writable := true, pitch := 32, data := 0x40000 } })] }) 0x0909 [5,
     1] 0, tP, tSh, (by decide +kernel), (fun _ => rfl), (by unfold State.Owns; decide +kernel), (by decide +kernel),
     (by decide +kernel), (by decide +kernel), (by decide +kernel), (by decide +kernel), (by decide +kernel),
     (by decide +kernel), (by decide +kernel)⟩,
   ⟨tO, 5, 0, tC (tSS ({ tSh with copies := [{ handle := 1, role := 0, mode := 0 }] })) 0x090A [5, 0] 0, tP,
     { tSh with copies := [{ handle := 1, role := 0, mode := 0 }] }, (by decide +kernel), (fun _ => rfl),
     (by unfold State.Owns; decide +kernel), (by decide +kernel), (by decide +kernel), (by decide +kernel),
     (by decide +kernel), (by decide +kernel)⟩,
   ⟨tO, 1, 7, 3, 1, 4, 0x1000, 0x2000, tC (tR) 0x090B [1, 7, 3, 1, 4, 0x1000, 0x2000] 0, tP, tMir, (by decide +kernel),
     (fun _ => rfl), (by unfold State.Owns; decide +kernel), (by decide +kernel), (by decide +kernel), (by decide +kernel),
     (by decide +kernel), (by decide +kernel), (by decide +kernel), (by decide +kernel), (by decide +kernel),
     (by decide +kernel), (by rw [test_slotLen _ rfl rfl]; decide +kernel), (by rw [test_slotLen _ rfl rfl]; decide +kernel),
     (by decide +kernel), (by rw [test_slotLen _ rfl rfl]; decide +kernel), (by rw [test_slotLen _ rfl rfl]; decide +kernel),
     (by rw [test_slotLen _ rfl rfl]; decide +kernel)⟩,
   ⟨tO, 1, 9, 3, tC (tMS tMir) 0x090C [1, 9, 3] 0, tP, tMir, (by decide +kernel), (fun _ => rfl),
     (by unfold State.Owns; decide +kernel), (by decide +kernel), (by decide +kernel), (by decide +kernel),
     (by decide +kernel), (by decide +kernel)⟩,
   ⟨tO, 1, tC (tMS tMir) 0x090D [1] 0, tP, tMir, (by decide +kernel), (fun _ => rfl), (by unfold State.Owns; decide +kernel),
     (by decide +kernel), (by decide +kernel)⟩,
   ⟨tO, 1, tC (tMS tMir) 0x090E [1] 0, tP, tMir, (by decide +kernel), (fun _ => rfl), (by decide +kernel),
     (by decide +kernel), (by decide +kernel)⟩⟩

theorem test_hyps_LadderOrder :
    (∃ x : Nat, x < 2 ^ 32) ∧
    (∃ x : Nat, x < 2 ^ 32 ∧ 2 ^ 31 ≤ x) ∧
    (∃ x : Nat, x < 2 ^ 32 ∧ x < 2 ^ 31) ∧
    (∃ x : Nat, ∃ y : Nat, ∃ k : Nat, x < 2 ^ 32 ∧ y < 2 ^ 32 ∧ k < 3 ∧ ladOrd x k = ladOrd y k) ∧
    (∃ x : Stream, bits (x.f 3 1) 0 3 = 1 ∧ bit (x.f 3 1) 6 = false) ∧
    (∃ x : Stream, bits (x.f 3 1) 0 3 = 2 ∧ bit (x.f 3 1) 6 = false) ∧
    (∃ x : Nat, 0xFF800000 < x ∧ x < 2 ^ 32) ∧
    (∃ x : Nat, 0x7F800000 < x ∧ x < 2 ^ 31) :=
  ⟨⟨0, by decide +kernel⟩,
   ⟨2 ^ 31, by decide +kernel⟩,
   ⟨5, by decide +kernel⟩,
   ⟨5, 5, 2, by decide +kernel⟩,
   ⟨{ d := [1, 0, 0, 1] }, by decide +kernel⟩,
   ⟨{ d := [1, 0, 0, 2] }, by decide +kernel⟩,
   ⟨0xFF800001, by decide +kernel⟩,
   ⟨0x7F800001, by decide +kernel⟩⟩

theorem test_hyps_LadderBatches :
    (∃ die, ∃ stream, ∃ s : State, ∃ x, ∃ b, s.stream? (ladKey die stream) = some x ∧ x.cur = some b ∧
      s.time.pip < b.t0 + x.wait) ∧
    (∃ die, ∃ stream, ∃ s : State, ∃ x, ∃ b, s.stream? (ladKey die stream) = some x ∧ x.cur = some b ∧
      b.t0 + x.wait ≤ s.time.pip ∧ s.streamFrameBefore (ladKey die stream) (b.t0 + x.wait) = false) ∧
    (∃ die, ∃ s : State, (((∃ l, ∃ m, tabGet? s.lad.bufs (2 * die) = some l ∧
      tabGet? s.lad.bufs (2 * die + 1) = some m) ∨ s.nextClosed die = none))) ∧
    (∃ die, ∃ s : State, ∃ slot, ∃ c, ∃ x, [2 * die, 2 * die + 1].find? (fun i => (tabGet? s.lad.bufs i).isNone) = some slot ∧
      s.nextClosed die = some c ∧ s.stream? c.1 = some x ∧ die ≤ 3 ∧ s.mayIssue (4 + die) clsThreads = true ∧
      x.memory = false ∧ s.loadOpen x c = true) ∧
    (∃ die, ∃ buf, ∃ s : State, ∃ b, ∃ x, ∃ l, s.MemOk ∧ tabGet? s.lad.bufs (2 * die + buf) = some b ∧ buf ≤ 1 ∧
      b.sent = false ∧ b.status = .ok ∧ s.stream? b.stream = some x ∧ x.op < 4 ∧ s.ueWords = [] ∧
      addrSpace (x.entry b.batch + 64) ≠ 2 ∧ addrSpace (x.entry b.batch) ≠ 2 ∧ s.localStatus (x.entry b.batch) 64 = none ∧
      s.localStatus (x.entry b.batch + 64) (recBytesOf l).length = none ∧ ((x.op = 0 → l = b.recs)) ∧
      ((x.op = 1 → l = x.sort b.recs)) ∧ ((x.op = 2 → l = (x.sort b.recs).take (x.f 14 2))) ∧
      ((x.op = 3 → l = firstOfRuns (x.sort b.recs))) ∧ s.ringOpen x b (recBytesOf l).length = true) ∧
    (∃ die, ∃ buf, ∃ s : State, ∃ b, ∃ x, tabGet? s.lad.bufs (2 * die + buf) = some b ∧ buf ≤ 1 ∧ b.sent = false ∧
      b.status ≠ .ok ∧ s.stream? b.stream = some x ∧ s.ringOpen x b 0 = true) :=
  ⟨⟨0, 2, tStr { tSt with cur := some { t0 := 0 } }, { tSt with cur := some { t0 := 0 } }, { t0 := 0 }, by decide +kernel⟩,
   ⟨0, 2, tAt (tStr { tSt with cur := some { t0 := 0 } }) 256, { tSt with cur := some { t0 := 0 } }, { t0 := 0 },
     by decide +kernel⟩,
   ⟨0, tR, (Or.inr (by decide +kernel))⟩,
   ⟨0, tLad { streams := [(2, tSt)], closed := [(2, 0, { t0 := 0 })] }, 0, (2, 0, { t0 := 0 }), tSt, by decide +kernel⟩,
   ⟨0, 0, tLad { streams := [(2, tSt)], bufs := [(0, { stream := 2, batch := 0, recs := [], inRecs := 0, t0 := 0, close := 0, cause := 0, status := .ok })] },
     { stream := 2, batch := 0, recs := [], inRecs := 0, t0 := 0, close := 0, cause := 0, status := .ok }, tSt, [],
     (by unfold State.MemOk; decide +kernel), (by decide +kernel), (by decide +kernel), (by decide +kernel),
     (by decide +kernel), (by decide +kernel), (by decide +kernel), (by decide +kernel), (by decide +kernel),
     (by decide +kernel), (by decide +kernel), (by decide +kernel), (by decide +kernel), (by decide +kernel),
     (by decide +kernel), (by decide +kernel), (by decide +kernel)⟩,
   ⟨0, 0, tLad { streams := [(2, tSt)], bufs := [(0, { stream := 2, batch := 0, recs := [], inRecs := 0, t0 := 0, close := 0, cause := 0, status := .aborted })] },
     { stream := 2, batch := 0, recs := [], inRecs := 0, t0 := 0, close := 0, cause := 0, status := .aborted }, tSt,
     by decide +kernel⟩⟩

theorem test_hyps_LadderCommands :
    (∃ o : Origin, ∃ die : Nat, ∃ stream : Nat, ∃ addr : Nat, ∃ s : State, ∃ p : Posted, ∃ x : Stream,
      s.waiting o 0x0704 [die, stream, addr] = some p ∧ s.MaySend o 0x0704 ∧ s.Owns o resLad ∧ die ≤ 3 ∧ stream ≤ 15 ∧
      s.sec.grade ≠ .b ∧ addr % 64 = 0 ∧ addr + 384 ≤ 2 ^ 37 ∧ s.dramDenied addr 384 = false ∧
      s.firstUe (dramKey addr) 384 = none ∧ x = { d := s.read (dramKey addr) 384 } ∧ streamFieldBad x = false ∧
      s.stream? (ladKey die stream) = none ∧ s.streamDescBad die x = false ∧ s.mayIssue (addr / 2 ^ 35 % 4) clsMgmt = true ∧
      x.memory = false) ∧
    (∃ o : Origin, ∃ die : Nat, ∃ stream : Nat, ∃ addr : Nat, ∃ s : State, ∃ p : Posted, ∃ x : Stream,
      s.waiting o 0x0704 [die, stream, addr] = some p ∧ s.MaySend o 0x0704 ∧ s.Owns o resLad ∧ die ≤ 3 ∧ stream ≤ 15 ∧
      s.sec.grade ≠ .b ∧ addr % 64 = 0 ∧ addr + 384 ≤ 2 ^ 37 ∧ s.dramDenied addr 384 = false ∧
      s.firstUe (dramKey addr) 384 = none ∧ x = { d := s.read (dramKey addr) 384 } ∧ streamFieldBad x = false ∧
      s.stream? (ladKey die stream) = none ∧ s.streamDescBad die x = false ∧ s.mayIssue (addr / 2 ^ 35 % 4) clsMgmt = true ∧
      x.memory = true) ∧
    (∃ o : Origin, ∃ die, ∃ stream, ∃ s : State, ∃ p, s.waiting o 0x0705 [die, stream] = some p ∧ s.MaySend o 0x0705 ∧
      s.Owns o resLad ∧ die ≤ 3 ∧ stream ≤ 15 ∧ s.sec.grade = .b) ∧
    (∃ o : Origin, ∃ die, ∃ stream, ∃ s : State, ∃ p, ∃ x, s.waiting o 0x0705 [die, stream] = some p ∧ s.MaySend o 0x0705 ∧
      s.Owns o resLad ∧ die ≤ 3 ∧ stream ≤ 15 ∧ s.sec.grade ≠ .b ∧ s.stream? (ladKey die stream) = some x) ∧
    (∃ o : Origin, ∃ die, ∃ stream, ∃ s : State, ∃ p, s.waiting o 0x0706 [die, stream] = some p ∧ s.MaySend o 0x0706 ∧
      s.Owns o resLad ∧ die ≤ 3 ∧ stream ≤ 15 ∧ s.sec.grade = .b) ∧
    (∃ o : Origin, ∃ die, ∃ stream, ∃ s : State, ∃ p, ∃ x, s.waiting o 0x0706 [die, stream] = some p ∧ s.MaySend o 0x0706 ∧
      s.Owns o resLad ∧ die ≤ 3 ∧ stream ≤ 15 ∧ s.sec.grade ≠ .b ∧ s.stream? (ladKey die stream) = some x ∧ x.memory = true) ∧
    (∃ o : Origin, ∃ die, ∃ stream, ∃ s : State, ∃ p, ∃ x, s.waiting o 0x0706 [die, stream] = some p ∧ s.MaySend o 0x0706 ∧
      s.Owns o resLad ∧ die ≤ 3 ∧ stream ≤ 15 ∧ s.sec.grade ≠ .b ∧ s.stream? (ladKey die stream) = some x ∧
      x.memory = false) ∧
    (∃ o : Origin, ∃ die, ∃ stream, ∃ s : State, ∃ p, s.waiting o 0x0707 [die, stream] = some p ∧ s.MaySend o 0x0707 ∧
      die ≤ 3 ∧ stream ≤ 15 ∧ s.sec.grade = .b) ∧
    (∃ o : Origin, ∃ die, ∃ stream, ∃ s : State, ∃ p, ∃ x, s.waiting o 0x0707 [die, stream] = some p ∧ s.MaySend o 0x0707 ∧
      die ≤ 3 ∧ stream ≤ 15 ∧ s.sec.grade ≠ .b ∧ s.stream? (ladKey die stream) = some x) ∧
    (∃ o : Origin, ∃ die, ∃ clear, ∃ s : State, ∃ p, s.waiting o 0x0708 [die, clear] = some p ∧ s.MaySend o 0x0708 ∧ die ≤ 3 ∧
      clearOk o clear ∧ s.sec.grade = .b) ∧
    (∃ o : Origin, ∃ die, ∃ clear, ∃ s : State, ∃ p, s.waiting o 0x0708 [die, clear] = some p ∧ s.MaySend o 0x0708 ∧ die ≤ 3 ∧
      clearOk o clear ∧ s.sec.grade ≠ .b) :=
  ⟨⟨tO, 0, 2, 64, tC (((tLad {}).write 64 (tStB 1 0))) 0x0704 [0, 2, 64] 0, tP, tSt, (by decide +kernel), (fun _ => rfl),
    (by unfold State.Owns; decide +kernel), (by decide +kernel), (by decide +kernel), (by decide +kernel),
    (by decide +kernel), (by decide +kernel), (by decide +kernel), (by decide +kernel), (by decide +kernel),
    (by decide +kernel), (by decide +kernel), (by decide +kernel), (by decide +kernel), (by decide +kernel)⟩,
   ⟨tO, 0, 2, 64, tC (((tLad {}).write 64 (tStB 1 1))) 0x0704 [0, 2, 64] 0, tP, { d := tStB 1 1 }, (by decide +kernel),
     (fun _ => rfl), (by unfold State.Owns; decide +kernel), (by decide +kernel), (by decide +kernel), (by decide +kernel),
     (by decide +kernel), (by decide +kernel), (by decide +kernel), (by decide +kernel), (by decide +kernel),
     (by decide +kernel), (by decide +kernel), (by decide +kernel), (by decide +kernel), (by decide +kernel)⟩,
   ⟨tO, 0, 2, tC (tGB) 0x0705 [0, 2] 0, tP, (by decide +kernel), (fun _ => rfl), (by unfold State.Owns; decide +kernel),
     (by decide +kernel), (by decide +kernel), (by decide +kernel)⟩,
   ⟨tO, 0, 2, tC (tStr tSt) 0x0705 [0, 2] 0, tP, tSt, (by decide +kernel), (fun _ => rfl),
     (by unfold State.Owns; decide +kernel), (by decide +kernel), (by decide +kernel), (by decide +kernel),
     (by decide +kernel)⟩,
   ⟨tO, 0, 2, tC (tGB) 0x0706 [0, 2] 0, tP, (by decide +kernel), (fun _ => rfl), (by unfold State.Owns; decide +kernel),
     (by decide +kernel), (by decide +kernel), (by decide +kernel)⟩,
   ⟨tO, 0, 2, tC (tStr { d := tStB 1 1 }) 0x0706 [0, 2] 0, tP, { d := tStB 1 1 }, (by decide +kernel), (fun _ => rfl),
     (by unfold State.Owns; decide +kernel), (by decide +kernel), (by decide +kernel), (by decide +kernel),
     (by decide +kernel), (by decide +kernel)⟩,
   ⟨tO, 0, 2, tC (tStr tSt) 0x0706 [0, 2] 0, tP, tSt, (by decide +kernel), (fun _ => rfl),
     (by unfold State.Owns; decide +kernel), (by decide +kernel), (by decide +kernel), (by decide +kernel),
     (by decide +kernel), (by decide +kernel)⟩,
   ⟨tO, 0, 2, tC (tGB) 0x0707 [0, 2] 0, tP, (by decide +kernel), (fun _ => rfl), (by decide +kernel), (by decide +kernel),
     (by decide +kernel)⟩,
   ⟨tO, 0, 2, tC (tStr tSt) 0x0707 [0, 2] 0, tP, tSt, (by decide +kernel), (fun _ => rfl), (by decide +kernel),
     (by decide +kernel), (by decide +kernel), (by decide +kernel)⟩,
   ⟨tO, 0, 0, tC (tGB) 0x0708 [0, 0] 0, tP, (by decide +kernel), (fun _ => rfl), (by decide +kernel), (by show _ ≤ 1; decide),
     (by decide +kernel)⟩,
   ⟨tO, 0, 0, tC (tStr tSt) 0x0708 [0, 0] 0, tP, (by decide +kernel), (fun _ => rfl), (by decide +kernel),
     (by show _ ≤ 1; decide), (by decide +kernel)⟩⟩

theorem test_hyps_GrantsAndTurns :
    (∃ s : State, (∀ k, k < 4 → 1 ≤ s.psetting idSkWeight k)) ∧
    (∃ s : State, ((s.pwr.turn + 1 ≤ s.pwr.granted ∨ 4096 * (s.pwr.turn + 1) < s.time.pip + 1024))) ∧
    (∃ s : State, s.pwr.granted < s.pwr.turn + 1 ∧ s.time.pip + 1024 ≤ 4096 * (s.pwr.turn + 1)) ∧
    (∃ s : State, ((s.time.pip / 4096 ≤ s.pwr.turn ∨ ∃ c ∈ s.cfg.commits, c.pip ≤ 4096 * (s.time.pip / 4096)))) ∧
    (∃ s : State, s.pwr.turn < s.time.pip / 4096 ∧ ((∀ c ∈ s.cfg.commits, 4096 * (s.time.pip / 4096) < c.pip))) ∧
    (∃ k, ∃ s : State, ((∀ h ∈ s.dealHeads k, s.mayDeal k h = false))) ∧
    (∃ k, ∃ s : State, ∃ h, s.agedHead k (s.dealHeads k) = none ∧ (s.dealHeads k).find? (s.mayDeal k) = some h) ∧
    (∃ x, x < 8) ∧
    (∃ x, ∃ s : State, x < 8 ∧ (s.dom x).lost = false ∧ (s.dom x).readAt.getD 0 + 16 * 4096 ≤ s.time.pip) ∧
    (∃ x, ∃ s : State, x < 8 ∧ (((s.dom x).lost = true ∨ s.time.pip < (s.dom x).readAt.getD 0 + 16 * 4096))) ∧
    (∃ s : State, ((s.host.telemSeq = 0 ∨ s.host.telemPip / 4096 < s.time.pip / 4096))) ∧
    (∃ l : List (Nat × Bool), l.length ≤ 352) :=
  ⟨⟨tR, by intro k hk; interval_cases k <;> decide +kernel⟩,
   ⟨tAt tR 4000, by decide +kernel⟩,
   ⟨tR, by decide +kernel⟩,
   ⟨tR, by decide +kernel⟩,
   ⟨tAt tR 4096, by decide +kernel⟩,
   ⟨0, tR, by decide +kernel⟩,
   ⟨0, tDeal, (0, { work := .slice 5 0, since := 0, key := [] }), by decide +kernel⟩,
   ⟨0, by decide +kernel⟩,
   ⟨0, tAt tR 65536, by decide +kernel⟩,
   ⟨0, tR, by decide +kernel⟩,
   ⟨tR, by decide +kernel⟩,
   ⟨[], by decide +kernel⟩⟩

theorem test_hyps_ClocksAndEmergencies :
    (∃ x, ∃ s : State, ((7 < x ∨ s.pwr.turn ≤ (s.dom x).stepTurn ∨ s.time.pip / 4096 ≠ s.pwr.turn))) ∧
    (∃ x, ∃ s : State, ∃ v, x < 8 ∧ (s.dom x).stepTurn < s.pwr.turn ∧ s.time.pip / 4096 = s.pwr.turn ∧ (s.dom x).step = none ∧
      s.fixedClkIn x = false ∧ v = s.nextClock x) ∧
    (∃ x, ∃ s : State, (s.clockBounds x).1 ≤ (s.dom x).clock ∧ (s.dom x).clock ≤ (s.clockBounds x).2 ∧
      (s.dom x).emergency = false ∧ ((∀ n, (s.dom x).lastStep = some n → n + 16 ≤ s.pwr.turn)) ∧ 4 ≤ (s.dom x).hotRun) ∧
    (∃ x, ∃ s : State, (s.clockBounds x).1 ≤ (s.dom x).clock ∧ (s.dom x).clock ≤ (s.clockBounds x).2 ∧
      (s.dom x).emergency = false ∧ ((∀ n, (s.dom x).lastStep = some n → n + 16 ≤ s.pwr.turn)) ∧ x < 4 ∧
      8 ≤ (s.dom x).heldRun) ∧
    (∃ x, ∃ s : State, (s.clockBounds x).1 ≤ (s.dom x).clock ∧ (s.dom x).clock ≤ (s.clockBounds x).2 ∧
      (s.dom x).emergency = false ∧ ((∀ n, (s.dom x).lastStep = some n → n + 16 ≤ s.pwr.turn)) ∧ (s.dom x).hotRun < 4 ∧
      (s.dom x).heldRun < 8 ∧ 64 ≤ (s.dom x).coolRun) ∧
    (∃ x, ∃ s : State, ∃ n, (s.clockBounds x).1 ≤ (s.dom x).clock ∧ (s.dom x).clock ≤ (s.clockBounds x).2 ∧
      (s.dom x).emergency = false ∧ (s.dom x).lastStep = some n ∧ s.pwr.turn < n + 16) ∧
    (∃ x, ∃ s : State, ∃ j, x < 8 ∧ (s.dom x).step = some j ∧ j.regAt = none) ∧
    (∃ x, ∃ s : State, ∃ j, ∃ n, x < 8 ∧ (s.dom x).step = some j ∧ j.regAt = some n ∧ n < 4096 * s.pwr.turn ∧
      (s.dom x).stepTurn < s.pwr.turn ∧ s.time.pip / 4096 = s.pwr.turn ∧ (s.clockBounds x).1 ≤ j.target ∧
      j.target ≤ (s.clockBounds x).2) ∧
    (∃ x, ∃ s : State, ∃ j, x < 8 ∧ (s.dom x).step = some j ∧ j.regAt = none ∧ j.raisedAt + 200000 ≤ s.time.pip) ∧
    (∃ x, ∃ s : State, ∃ j, x < 8 ∧ (s.dom x).step = some j ∧ s.time.pip < j.raisedAt + 200000) ∧
    (∃ x, ∃ s : State, (((s.dom x).emergency = true ∨ atLeast (s.tAct x) 100 = false))) ∧
    (∃ x, ∃ s : State, x < 8 ∧ (s.dom x).emergency = false ∧ atLeast (s.tAct x) 100 = true) ∧
    (∃ x, ∃ s : State, (s.dom x).emergency = true ∧ (s.dom x).belowRun < 16) ∧
    (∃ x, ∃ s : State, (s.dom x).emergency = true ∧ 16 ≤ (s.dom x).belowRun) ∧
    (∃ st, ∃ s : State, (s.tile st).power = .active ∧ s.absent st = false ∧ ((∀ x ∈ (s.tile st).slots, x.2.st ≠ .live ∧
      x.2.mem = [])) ∧ ((∀ e ∈ (s.tile st).eng, e.2 = [])) ∧ s.stitchPending st = false ∧
      tabGet (s.tile st).idle 0 32 + s.cyclesPips (st / 256) 256 ≤ s.time.pip) ∧
    (∃ st, ∃ s : State, (((s.tile st).power ≠ .active ∨ (∃ x ∈ (s.tile st).slots,
      x.2.st = .live) ∨ s.time.pip < tabGet (s.tile st).idle 0 32 + s.cyclesPips (st / 256) 256))) :=
  ⟨⟨0, tR, by decide +kernel⟩,
   ⟨0, tDt {}, (tDt {}).nextClock 0, by decide +kernel⟩,
   ⟨0, tDs [(0, { hotRun := 4 })], (by decide +kernel), (by decide +kernel), (by decide +kernel),
     (by intro n h; have h2 : (none : Option Nat) = some n := h; cases h2), (by decide +kernel)⟩,
   ⟨0, tDs [(0, { heldRun := 8 })], (by decide +kernel), (by decide +kernel), (by decide +kernel),
     (by intro n h; have h2 : (none : Option Nat) = some n := h; cases h2), (by decide +kernel), (by decide +kernel)⟩,
   ⟨0, tDs [(0, { coolRun := 64 })], (by decide +kernel), (by decide +kernel), (by decide +kernel),
     (by intro n h; have h2 : (none : Option Nat) = some n := h; cases h2), (by decide +kernel), (by decide +kernel),
     (by decide +kernel)⟩,
   ⟨0, tDs [(0, { lastStep := some 0 })], 0, by decide +kernel⟩,
   ⟨0, tDs [(0, { step := some { target := 950, raisedAt := 0 } })], { target := 950, raisedAt := 0 }, by decide +kernel⟩,
   ⟨0, tDt { step := some { target := 950, raisedAt := 0, regAt := some 0 } }, { target := 950, raisedAt := 0, regAt := some 0 },
     0, by decide +kernel⟩,
   ⟨0, tAt (tDs [(0, { step := some { target := 950, raisedAt := 0 } })]) 200000, { target := 950, raisedAt := 0 },
     by decide +kernel⟩,
   ⟨0, tDs [(0, { step := some { target := 950, raisedAt := 0 } })], { target := 950, raisedAt := 0 }, by decide +kernel⟩,
   ⟨0, tR, by decide +kernel⟩,
   ⟨0, tHot, by decide +kernel⟩,
   ⟨0, tDs [(0, { emergency := true })], by decide +kernel⟩,
   ⟨0, tDs [(0, { emergency := true, belowRun := 16 })], by decide +kernel⟩,
   ⟨0, tAt { tR with tiles := [(0, { power := .active })] } 1000, by decide +kernel⟩,
   ⟨0, tR, (Or.inr (Or.inr (by decide +kernel)))⟩⟩

theorem test_hyps_PowerCommands :
    (∃ o : Origin, ∃ w, ∃ s : State, ∃ p, s.waiting o 0x0A01 [w] = some p ∧ s.MaySend o 0x0A01 ∧
      inRange (envRange s.sec.grade).1 (envRange s.sec.grade).2.1 w = true ∧ s.Owns o resPwr ∧
      s.fixedBad s.cfg.vals w = false) ∧
    (∃ o : Origin, ∃ w, ∃ s : State, ∃ p, s.waiting o 0x0A01 [w] = some p ∧ s.MaySend o 0x0A01 ∧
      inRange (envRange s.sec.grade).1 (envRange s.sec.grade).2.1 w = false) ∧
    (∃ o : Origin, ∃ clear, ∃ s : State, ∃ p, s.waiting o 0x0A02 [clear] = some p ∧ s.MaySend o 0x0A02 ∧ clearOk o clear) ∧
    (∃ o : Origin, ∃ s : State, ∃ p, s.waiting o 0x0A03 [] = some p ∧ s.MaySend o 0x0A03) ∧
    (∃ o : Origin, ∃ map : Nat, ∃ code : Nat, ∃ s : State, ∃ p : Posted, ∃ sts : List Nat, s.waiting o 0x0A04 [map,
      code] = some p ∧ s.MaySend o 0x0A04 ∧ s.Owns o resPwr ∧ code ≤ 2 ∧ map + 128 ≤ 2 ^ 37 ∧ s.dramDenied map 128 = false ∧
      s.firstUe (dramKey map) 128 = none ∧ sts = mapStitches (s.readNat (dramKey map) 128) ∧ ((∀ st ∈ sts,
      s.absent st = false ∧ s.isRetired st = false)) ∧ ((∀ st ∈ sts, ∀ x ∈ (s.tile st).slots, x.2.st = .free ∧
      x.2.reserved = none)) ∧ s.mayIssue (map / 2 ^ 35 % 4) clsMgmt = true) ∧
    (∃ o : Origin, ∃ x, ∃ clear, ∃ s : State, ∃ p, s.waiting o 0x0A05 [x, clear] = some p ∧ s.MaySend o 0x0A05 ∧ x ≤ 7 ∧
      clearOk o clear) :=
  ⟨⟨tO, 3000, tC ({ tR with sec := { grade := .a } }) 0x0A01 [3000] 0, tP, (by decide +kernel), (fun _ => rfl),
    (by decide +kernel), (by unfold State.Owns; decide +kernel), (by decide +kernel)⟩,
   ⟨tO, 1, tC ({ tR with sec := { grade := .a } }) 0x0A01 [1] 0, tP, (by decide +kernel), (fun _ => rfl),
     (by decide +kernel)⟩,
   ⟨tO, 0, tC (tR) 0x0A02 [0] 0, tP, (by decide +kernel), (fun _ => rfl), (by show _ ≤ 1; decide)⟩,
   ⟨tO, tC (tR) 0x0A03 [] 0, tP, (by decide +kernel), (fun _ => rfl)⟩,
   ⟨tO, 64, 1, tC (tR.write 64 [1]) 0x0A04 [64, 1] 0, tP, [0], (by decide +kernel), (fun _ => rfl),
     (by unfold State.Owns; decide +kernel), (by decide +kernel), (by decide +kernel), (by decide +kernel),
     (by decide +kernel), (by decide +kernel), (by decide +kernel), (by decide +kernel), (by decide +kernel)⟩,
   ⟨tO, 0, 0, tC (tR) 0x0A05 [0, 0] 0, tP, (by decide +kernel), (fun _ => rfl), (by decide +kernel), (by show _ ≤ 1; decide)⟩⟩

theorem test_hyps_PortClockFloor :
    (∃ d, ∃ s : State, ∃ t : State, d < 4 ∧ s.dieUp d = true ∧ exec (.clockStep (4 + d)) s = .next t) ∧
    (∃ d, ∃ s : State, ∃ t : State, ∃ x, d < 4 ∧ s.dieUp d = true ∧ exec (.thermalEmergency x) s = .next t) :=
  ⟨⟨0, tL tU, _, (by decide +kernel), (by decide +kernel), rfl⟩,
   ⟨0, tL tU, _, 0, (by decide +kernel), (by decide +kernel), rfl⟩⟩

theorem test_hyps_HostPorts :
    (∃ g : Nat, ∃ w : Nat, ∃ s : State, s.sidebandUp = true ∧ 4 ≤ min g s.maxGen ∧ ((w = 4 ∨ w = 8 ∨ w = 16))) ∧
    (∃ g : Nat, ∃ w : Nat, ∃ s : State, s.sidebandUp = true ∧ ((min g s.maxGen < 4 ∨ (w ≠ 4 ∧ w ≠ 8 ∧ w ≠ 16)))) ∧
    (∃ h : HostId, ∃ s : State, (s.host.port h).up = false) ∧
    (∃ h : HostId, ∃ s : State, (s.host.port h).up = true) ∧
    (∃ s : State, ∃ n, s.host.primaryDownSince = some n ∧ s.time.pip < n + s.setting idFailoverWait 0) ∧
    (∃ s : State, ∃ n, s.host.primaryDownSince = some n ∧ n + s.setting idFailoverWait 0 ≤ s.time.pip) ∧
    (∃ h : HostId, ∃ m : Nat, ∃ mask : BitVec 128, ∃ force : Nat, ∃ s : State, ∃ p : Posted,
      s.waiting (.mb h m) 0x0E01 [mask.toNat, force] = some p ∧ mask &&& reservedMask = 0 ∧ force ≤ 1 ∧
      ((s.claims.of h.other &&& mask = 0 ∨ (force = 1 ∧ (s.host.port h.other).up = false)))) ∧
    (∃ h : HostId, ∃ m : Nat, ∃ mask : BitVec 128, ∃ force : Nat, ∃ s : State, ∃ p : Posted,
      s.waiting (.mb h m) 0x0E01 [mask.toNat, force] = some p ∧ mask &&& reservedMask = 0 ∧ force ≤ 1 ∧
      s.claims.of h.other &&& mask ≠ 0 ∧ ((force = 0 ∨ (s.host.port h.other).up = true))) ∧
    (∃ h : HostId, ∃ m : Nat, ∃ mask : BitVec 128, ∃ s : State, ∃ p : Posted,
      s.waiting (.mb h m) 0x0E02 [mask.toNat] = some p ∧ mask &&& reservedMask = 0) ∧
    (∃ o : Origin, ∃ s : State, ∃ p, s.waiting o 0x0E03 [] = some p ∧ s.MaySend o 0x0E03) ∧
    (∃ h : HostId, ∃ m : Nat, ∃ s : State, ∃ p : Posted, s.waiting (.mb h m) 0x0E04 [] = some p ∧ h = s.host.primary ∧
      (s.host.port h.other).up = true) ∧
    (∃ h : HostId, ∃ m : Nat, ∃ s : State, ∃ p : Posted, s.waiting (.mb h m) 0x0E04 [] = some p ∧ h = s.host.primary ∧
      (s.host.port h.other).up = false) :=
  ⟨⟨4, 16, tR, by decide +kernel⟩,
   ⟨3, 16, tR, by decide +kernel⟩,
   ⟨.h0, State.reset, by decide +kernel⟩,
   ⟨.h0, tR, by decide +kernel⟩,
   ⟨{ tR with host := { tR.host with primaryDownSince := some 0 } }, 0, by decide +kernel⟩,
   ⟨tAt { tR with host := { tR.host with primaryDownSince := some 0 } } (2 ^ 40), 0, by decide +kernel⟩,
   ⟨.h0, 0, 1, 0, tC (tR) 0x0E01 [1, 0] 0, tP, by decide +kernel⟩,
   ⟨.h0, 0, 1, 0, tC ({ tR with claims := { c1 := 1 } }) 0x0E01 [1, 0] 0, tP, by decide +kernel⟩,
   ⟨.h0, 0, 1, tC (tR) 0x0E02 [1] 0, tP, by decide +kernel⟩,
   ⟨tO, tC (tR) 0x0E03 [] 0, tP, (by decide +kernel), (fun _ => rfl)⟩,
   ⟨.h0, 0, tC (tR) 0x0E04 [] 0, tP, by decide +kernel⟩,
   ⟨.h0, 0, tC ({ tR with host := { h0 := tPort } }) 0x0E04 [] 0, tP, by decide +kernel⟩⟩

theorem test_hyps_Mailboxes :
    (∃ h : HostId, ∃ m : Nat, ∃ w : BitVec 32, ∃ s : State, ∃ b : Mailbox, ∃ v : Nat, (s.host.port h).up = true ∧ m < 32 ∧
      b = (s.host.port h).box m ∧ v = bits w.toNat 0 16 ∧ b.paired = false) ∧
    (∃ h : HostId, ∃ m : Nat, ∃ w : BitVec 32, ∃ s : State, ∃ b : Mailbox, ∃ v : Nat, (s.host.port h).up = true ∧ m < 32 ∧
      b = (s.host.port h).box m ∧ v = bits w.toNat 0 16 ∧ b.paired = true ∧ bits w.toNat 16 16 ≠ 0xFFFF - v) ∧
    (∃ h : HostId, ∃ m : Nat, ∃ w : BitVec 32, ∃ s : State, ∃ b : Mailbox, ∃ v : Nat, (s.host.port h).up = true ∧ m < 32 ∧
      b = (s.host.port h).box m ∧ v = bits w.toNat 0 16 ∧ b.paired = true ∧ bits w.toNat 16 16 = 0xFFFF - v ∧
      ((b.state = 0 ∨ b.state = 3)) ∧ mbWritten w = (b.gen + 1) % 256 * 256 + 1) ∧
    (∃ h : HostId, ∃ m : Nat, ∃ w : BitVec 32, ∃ s : State, ∃ b : Mailbox, ∃ v : Nat, (s.host.port h).up = true ∧ m < 32 ∧
      b = (s.host.port h).box m ∧ v = bits w.toNat 0 16 ∧ b.paired = true ∧ bits w.toNat 16 16 = 0xFFFF - v ∧ b.state = 3 ∧
      mbWritten w = b.gen * 256) ∧
    (∃ h : HostId, ∃ m : Nat, ∃ w : BitVec 32, ∃ s : State, ∃ b : Mailbox, ∃ v : Nat, (s.host.port h).up = true ∧ m < 32 ∧
      b = (s.host.port h).box m ∧ v = bits w.toNat 0 16 ∧ b.paired = true ∧ bits w.toNat 16 16 = 0xFFFF - v ∧
      (¬((b.state = 0 ∨ b.state = 3) ∧ mbWritten w = (b.gen + 1) % 256 * 256 + 1)) ∧ (¬(b.state = 3 ∧
      mbWritten w = b.gen * 256))) ∧
    (∃ h : HostId, ∃ m : Nat, ∃ off : Nat, ∃ data : List Byte, ∃ s : State, ∃ b : Mailbox, (s.host.port h).up = true ∧
      m < 32 ∧ b = (s.host.port h).box m ∧ 0x40 ≤ off ∧ off < 0x840 ∧ data.length ≤ 512 ∧ ((b.state = 1 ∨ b.state = 2))) ∧
    (∃ h : HostId, ∃ m : Nat, ∃ off : Nat, ∃ data : List Byte, ∃ s : State, ∃ b : Mailbox, (s.host.port h).up = true ∧
      m < 32 ∧ b = (s.host.port h).box m ∧ 0x40 ≤ off ∧ off < 0x840 ∧ data.length ≤ 512 ∧ b.state ≠ 1 ∧ b.state ≠ 2 ∧
      off + data.length ≤ 0x80) ∧
    (∃ h : HostId, ∃ m : Nat, ∃ off : Nat, ∃ data : List Byte, ∃ s : State, ∃ b : Mailbox, (s.host.port h).up = true ∧
      m < 32 ∧ b = (s.host.port h).box m ∧ 0x40 ≤ off ∧ off < 0x840 ∧ data.length ≤ 512 ∧ b.state ≠ 1 ∧ b.state ≠ 2 ∧
      0x80 ≤ off) ∧
    (∃ h : HostId, ∃ m : Nat, ∃ off : Nat, ∃ data : List Byte, ∃ s : State, ∃ b : Mailbox, (s.host.port h).up = true ∧
      m < 32 ∧ b = (s.host.port h).box m ∧ 0x40 ≤ off ∧ off < 0x840 ∧ data.length ≤ 512 ∧ b.state ≠ 1 ∧ b.state ≠ 2 ∧
      off < 0x80 ∧ 0x80 < off + data.length) ∧
    (∃ h : HostId, ∃ s : State, (s.host.port h).up = true) ∧
    (∃ ing : Nat, ∃ s : State, ∃ q : QFrame, ∃ hdr : BitVec 512, s.localHead ing 0 9 = some q ∧ bits q.f.spec 22 2 = 0 ∧
      hdr = BitVec.ofNat 512 (leNat (q.f.cells.take 64)) ∧ 16 ≤ (s.consume q).fabInProgress) ∧
    (∃ ing : Nat, ∃ s : State, ∃ q : QFrame, ∃ hdr : BitVec 512, s.localHead ing 0 9 = some q ∧ bits q.f.spec 22 2 = 0 ∧
      hdr = BitVec.ofNat 512 (leNat (q.f.cells.take 64)) ∧ (s.consume q).fabInProgress < 16 ∧
      q.f.n ≠ 1 + (cmdLen hdr + 63) / 64) ∧
    (∃ ing : Nat, ∃ s : State, ∃ q : QFrame, ∃ hdr : BitVec 512, s.localHead ing 0 9 = some q ∧ bits q.f.spec 22 2 = 0 ∧
      hdr = BitVec.ofNat 512 (leNat (q.f.cells.take 64)) ∧ (s.consume q).fabInProgress < 16 ∧
      q.f.n = 1 + (cmdLen hdr + 63) / 64) ∧
    (∃ fid, ∃ seq, ∃ s : State, ∃ p, s.waiting (.fab fid seq) 0x0E03 [] = some p ∧ s.mgmtAllowed fid = false) ∧
    (∃ ing, ∃ s : State, ∃ q, s.localHead ing 0 9 = some q ∧ bits q.f.spec 22 2 = 1) :=
  ⟨⟨.h0, 0, 0, { tR with host := { tR.host with h0 := { tPort with boxes := [(0, { st := 0 })] } } }, { st := 0 }, 0,
    by decide +kernel⟩,
   ⟨.h0, 0, 0, tBox 0, tBoxM 0, bits (0 : BitVec 32).toNat 0 16, by decide +kernel⟩,
   ⟨.h0, 0, 0xFEFE0101, tBox 0, tBoxM 0, bits (0xFEFE0101 : BitVec 32).toNat 0 16, by decide +kernel⟩,
   ⟨.h0, 0, 0xFEFF0100, tBox 0x103, tBoxM 0x103, bits (0xFEFF0100 : BitVec 32).toNat 0 16, by decide +kernel⟩,
   ⟨.h0, 0, 0xFAAA0555, tBox 0, tBoxM 0, bits (0xFAAA0555 : BitVec 32).toNat 0 16, by decide +kernel⟩,
   ⟨.h0, 0, 0x40, [], tBox 1, tBoxM 1, by decide +kernel⟩,
   ⟨.h0, 0, 0x40, [], tBox 0, tBoxM 0, by decide +kernel⟩,
   ⟨.h0, 0, 0x80, [], tBox 0, tBoxM 0, by decide +kernel⟩,
   ⟨.h0, 0, 0x7F, [1, 2], tBox 0, tBoxM 0, by decide +kernel⟩,
   ⟨.h0, tR, by decide +kernel⟩,
   ⟨4, tF { tR with host := { tR.host with order := List.replicate 16 { o := .fab 7 0, stamp := 0 } } } tFab, tFab,
     BitVec.ofNat 512 (leNat (tFab.f.cells.take 64)), by decide +kernel⟩,
   ⟨4, tF tR ({ tFab with f := { tFab.f with cells := padTo 128 (leBytes 4 1) } }),
     { tFab with f := { tFab.f with cells := padTo 128 (leBytes 4 1) } },
     BitVec.ofNat 512 (leNat (({ tFab with f := { tFab.f with cells := padTo 128 (leBytes 4 1) } } : QFrame).f.cells.take 64)),
     by decide +kernel⟩,
   ⟨4, tF tR tFab, tFab, BitVec.ofNat 512 (leNat (tFab.f.cells.take 64)), by decide +kernel⟩,
   ⟨7, 0, { tR with host := { tR.host with order := [{ o := .fab 7 0, stamp := 0, cmd := 0x0E03 }] } }, { o := .fab 7 0, stamp := 0, cmd := 0x0E03 },
     by decide +kernel⟩,
   ⟨4, tF tR { tFab with f := { tFab.f with spec := 2 ^ 22 } }, { tFab with f := { tFab.f with spec := 2 ^ 22 } },
     by decide +kernel⟩⟩

theorem test_hyps_Configuration :
    (∃ h : HostId, ∃ m : Nat, ∃ items : List Item, ∃ s : State, ∃ p : Posted, ∃ new : List Setting,
      s.waiting (.mb h m) 0x0201 (items.length :: items.flatMap (fun x => [x.id, x.rsv, x.scope, x.val])) = some p ∧
      1 ≤ items.length ∧ items.length ≤ 64 ∧ new = (settingsOf items).foldl stageItem (s.cfg.stage h) ∧ new.length ≤ 4096 ∧
      ((∀ x ∈ items, x.rsv = 0 ∧ (∃ k, scopeKind x.id = some k ∧ scopeOk k x.scope = true) ∧
      rangeOk s.maxClock x.id x.scope x.val = true ∧ s.otherHolds h (resourceOf x.id x.scope) = false))) ∧
    (∃ h : HostId, ∃ m : Nat, ∃ s : State, ∃ p : Posted, s.waiting (.mb h m) 0x0202 [] = some p) ∧
    (∃ h : HostId, ∃ m : Nat, ∃ target : Nat, ∃ late : Nat, ∃ drain : Nat, ∃ s : State, ∃ p : Posted, ∃ st,
      s.waiting (.mb h m) 0x0203 [target, late, drain] = some p ∧ late ≤ 1 ∧ 2 ^ 12 ≤ drain ∧ drain ≤ 2 ^ 24 ∧
      s.commitRefusal h target late drain = some st) ∧
    (∃ h : HostId, ∃ m : Nat, ∃ target : Nat, ∃ late : Nat, ∃ drain : Nat, ∃ s : State, ∃ p : Posted,
      s.waiting (.mb h m) 0x0203 [target, late, drain] = some p ∧ late ≤ 1 ∧ 2 ^ 12 ≤ drain ∧ drain ≤ 2 ^ 24 ∧
      s.commitRefusal h target late drain = none) ∧
    (∃ h : HostId, ∃ n : Nat, ∃ id : Nat, ∃ s : State, ∃ p : Posted, ∃ m : Commit, s.waiting (.mb h n) 0x0204 [id] = some p ∧
      s.cfg.commit id = some m ∧ m.host = h ∧ m.frozen = false ∧ m.drained = false ∧ s.time.pip < m.pip ∧
      s.cfg.commits.getLast? = some m) ∧
    (∃ h : HostId, ∃ n : Nat, ∃ id : Nat, ∃ s : State, ∃ p : Posted, ∃ m : Commit, s.waiting (.mb h n) 0x0204 [id] = some p ∧
      s.cfg.commit id = some m ∧ m.host ≠ h) ∧
    (∃ o : Origin, ∃ id, ∃ scope, ∃ s : State, ∃ p, ∃ k, s.waiting o 0x0205 [id, scope] = some p ∧ s.MaySend o 0x0205 ∧
      scopeKind id = some k ∧ scopeOk k scope = true) ∧
    (∃ o : Origin, ∃ s : State, ∃ p, s.waiting o 0x0206 [] = some p ∧ s.MaySend o 0x0206) ∧
    (∃ id, ∃ s : State, ∃ c, s.cfg.commit id = some c ∧ ((c.frozen = true ∨ (∀ x ∈ c.items,
      isFreeze x = false) ∨ s.time.pip + 16 < c.pip))) ∧
    (∃ id, ∃ s : State, ∃ c, s.cfg.commit id = some c ∧ c.frozen = false ∧ ((∃ x ∈ c.items, isFreeze x = true)) ∧
      c.pip ≤ s.time.pip + 16) ∧
    (∃ id, ∃ s : State, ∃ c, s.cfg.commit id = some c ∧ ((c.drained = true ∨ (∀ x ∈ c.items,
      isDrain x = false) ∨ s.time.pip + c.drainLead < c.pip))) ∧
    (∃ id, ∃ s : State, ∃ c, s.cfg.commit id = some c ∧ c.drained = false ∧ ((∃ x ∈ c.items, isDrain x = true)) ∧
      c.pip ≤ s.time.pip + c.drainLead) ∧
    (∃ s : State, ∃ c rest, s.cfg.commits = c :: rest ∧ s.time.pip < c.pip) ∧
    (∃ s : State, ∃ c rest, s.cfg.commits = c :: rest ∧ c.pip ≤ s.time.pip) :=
  ⟨⟨.h0, 0, [{ id := idMgmtFabric, rsv := 0, scope := 0, val := 1 }], tC (tR) 0x0201 [1, idMgmtFabric, 0, 0, 1] 1, tP,
    [{ id := idMgmtFabric, scope := 0, val := 1 }], (by decide +kernel), (by decide +kernel), (by decide +kernel),
    (by decide +kernel), (by decide +kernel), (by intro x hx; cases List.mem_singleton.mp hx; exact ⟨rfl, ⟨_, rfl, rfl⟩,
    by decide +kernel, by decide +kernel⟩)⟩,
   ⟨.h0, 0, tC (tR) 0x0202 [] 0, tP, by decide +kernel⟩,
   ⟨.h0, 0, 100000, 0, 4096, tC (tR) 0x0203 [100000, 0, 4096] 0, tP, .badDesc, by decide +kernel⟩,
   ⟨.h0, 0, 100000, 0, 4096, tC ({ tR with time := { state := .locked }, cfg := { stage0 := [{ id := idMgmtFabric, scope := 0, val := 1 }] } }) 0x0203 [100000,
     0, 4096] 0, tP, by decide +kernel⟩,
   ⟨.h0, 0, 3, tC (tCf (tCm [{ id := idMgmtFabric, scope := 0, val := 1 }] 100000)) 0x0204 [3] 0, tP,
     tCm [{ id := idMgmtFabric, scope := 0, val := 1 }] 100000, by decide +kernel⟩,
   ⟨.h0, 0, 3, tC (tCf { tCm [{ id := idMgmtFabric, scope := 0, val := 1 }] 100000 with host := .h1 }) 0x0204 [3] 0, tP,
     { tCm [{ id := idMgmtFabric, scope := 0, val := 1 }] 100000 with host := .h1 }, by decide +kernel⟩,
   ⟨tO, idMgmtFabric, 0, tC (tR) 0x0205 [idMgmtFabric, 0] 0, tP, .device, (by decide +kernel), (fun _ => rfl),
     (by decide +kernel), (by decide +kernel)⟩,
   ⟨tO, tC (tR) 0x0206 [] 0, tP, (by decide +kernel), (fun _ => rfl)⟩,
   ⟨3, tAt (tCf (tCm [{ id := idMgmtFabric, scope := 0, val := 1 }] 100)) 0, tCm [{ id := idMgmtFabric, scope := 0, val := 1 }] 100,
     by decide +kernel⟩,
   ⟨3, tAt (tCf (tCm [{ id := idPoolMode, scope := 0, val := 1 }] 100)) 90, tCm [{ id := idPoolMode, scope := 0, val := 1 }] 100,
     by decide +kernel⟩,
   ⟨3, tAt (tCf (tCm [{ id := idMgmtFabric, scope := 0, val := 1 }] 100)) 0, tCm [{ id := idMgmtFabric, scope := 0, val := 1 }] 100,
     by decide +kernel⟩,
   ⟨3, tAt (tCf (tCm [{ id := idAdmin, scope := 0, val := 1 }] 100)) 90, tCm [{ id := idAdmin, scope := 0, val := 1 }] 100,
     by decide +kernel⟩,
   ⟨tCf (tCm [{ id := idMgmtFabric, scope := 0, val := 1 }] 100000), _, _, rfl, by decide +kernel⟩,
   ⟨tAt (tCf (tCm [{ id := idMgmtFabric, scope := 0, val := 1 }] 100000)) 100000, _, _, rfl, by decide +kernel⟩⟩

theorem test_hyps_TroubleLog :
    (∃ l : LogSt, l.wrap = true) ∧
    (∃ l : LogSt, l.wrap = false ∧ l.freeSlots = 0) ∧
    (∃ l : LogSt, l.wrap = false ∧ 0 < l.freeSlots ∧ l.freeSlots ≤ 16) ∧
    (∃ l : LogSt, l.wrap = false ∧ 16 < l.freeSlots) ∧
    (∃ r : Raised, 3 ≤ r.eclass) ∧
    (∃ s : State, ((s.log.raised = [] ∨ s.needleRuns = false))) ∧
    (∃ s : State, ∃ r : Raised, ∃ rest : List Raised, ∃ p, s.log.raised = r :: rest ∧ s.needleRuns = true ∧
      s.holder r = some p) ∧
    (∃ s : State, ∃ r : Raised, ∃ rest : List Raised, s.log.raised = r :: rest ∧ s.needleRuns = true ∧ s.holder r = none ∧
      s.log.admits r.eclass = true) ∧
    (∃ s : State, ∃ r : Raised, ∃ rest : List Raised, s.log.raised = r :: rest ∧ s.needleRuns = true ∧ s.holder r = none ∧
      s.log.admits r.eclass = false) ∧
    (∃ code, ∃ src, ∃ s : State, ((∀ p ∈ s.log.suppress, p.code = code → p.source = src → s.time.pip < p.till))) ∧
    (∃ code, ∃ src, ∃ s : State, ∃ p,
      s.log.suppress.find? (fun p => p.code == code && p.source == src && decide (p.till ≤ s.time.pip)) = some p) ∧
    (∃ o : Origin, ∃ s : State, ∃ p, s.waiting o 0x0B01 [] = some p ∧ s.MaySend o 0x0B01) ∧
    (∃ o : Origin, ∃ v, ∃ s : State, ∃ p, s.waiting o 0x0B02 [v] = some p ∧ s.MaySend o 0x0B02 ∧ s.log.admits 0 = true) ∧
    (∃ o : Origin, ∃ v, ∃ s : State, ∃ p, s.waiting o 0x0B02 [v] = some p ∧ s.MaySend o 0x0B02 ∧ s.log.admits 0 = false) ∧
    (∃ o : Origin, ∃ n, ∃ s : State, ∃ p, s.waiting o 0x0B03 [n] = some p ∧ s.MaySend o 0x0B03 ∧ s.Owns o resLog ∧
      n < s.log.nextSeq) ∧
    (∃ o : Origin, ∃ n, ∃ s : State, ∃ p, s.waiting o 0x0B03 [n] = some p ∧ s.MaySend o 0x0B03 ∧ s.Owns o resLog ∧
      s.log.nextSeq ≤ n) ∧
    (∃ o : Origin, ∃ n, ∃ s : State, ∃ p, s.waiting o 0x0B04 [n] = some p ∧ s.MaySend o 0x0B04 ∧ s.Owns o resLog ∧ n ≤ 1) :=
  ⟨⟨{ wrap := true }, by decide +kernel⟩,
   ⟨tLogF, by decide +kernel⟩,
   ⟨{ nextSeq := logSize }, by decide +kernel⟩,
   ⟨{}, by decide +kernel⟩,
   ⟨tRs 3, by decide +kernel⟩,
   ⟨tR, by decide +kernel⟩,
   ⟨tLog { raised := [tRs 0], suppress := [{ code := 0x0101, source := 5, till := 100 }] }, tRs 0, [], { code := 0x0101, source := 5, till := 100 },
     by decide +kernel⟩,
   ⟨tLog { raised := [tRs 0] }, tRs 0, [], by decide +kernel⟩,
   ⟨tLog { tLogF with raised := [tRs 0] }, tRs 0, [], by decide +kernel⟩,
   ⟨0x0101, 5, tR, by decide +kernel⟩,
   ⟨0x0101, 5, tAt (tLog { suppress := [{ code := 0x0101, source := 5, till := 100 }] }) 100, { code := 0x0101, source := 5, till := 100 },
     by decide +kernel⟩,
   ⟨tO, tC (tR) 0x0B01 [] 0, tP, (by decide +kernel), (fun _ => rfl)⟩,
   ⟨tO, 9, tC (tR) 0x0B02 [9] 0, tP, (by decide +kernel), (fun _ => rfl), (by decide +kernel)⟩,
   ⟨tO, 9, tC (tLog tLogF) 0x0B02 [9] 0, tP, (by decide +kernel), (fun _ => rfl), (by decide +kernel)⟩,
   ⟨tO, 0, tC (tR) 0x0B03 [0] 0, tP, (by decide +kernel), (fun _ => rfl), (by unfold State.Owns; decide +kernel),
     (by decide +kernel)⟩,
   ⟨tO, 5, tC (tR) 0x0B03 [5] 0, tP, (by decide +kernel), (fun _ => rfl), (by unfold State.Owns; decide +kernel),
     (by decide +kernel)⟩,
   ⟨tO, 1, tC (tR) 0x0B04 [1] 0, tP, (by decide +kernel), (fun _ => rfl), (by unfold State.Owns; decide +kernel),
     (by decide +kernel)⟩⟩

theorem test_hyps_SentinelChecks :
    (∃ k, ∃ s : State, ∃ c,
      s.integ.checks.find? (fun c => c.third.isNone && c.primary / 256 == k && (s.dealer k).started.contains (.check c.id)) = some c ∧
      c.witness.map s.isDark = some false ∧ c.witness.map s.matrixBusy = some false ∧ s.mayIssue k clsSentinel = true) ∧
    (∃ k, ∃ s : State, ∃ c, ∃ j,
      s.integ.checks.find? (fun c => c.third.isNone && c.primary / 256 == k && (s.dealer k).started.contains (.check c.id)) = some c ∧
      c.witness.map s.isDark = some false ∧ c.witness.map s.matrixBusy = some false ∧ s.mayIssue k clsSentinel = true ∧
      s.witnessFor c.primary (c.primary :: c.witness.toList) = some j) ∧
    (∃ k, ∃ s : State, ∃ c,
      s.integ.checks.find? (fun c => c.third.isNone && c.primary / 256 == k && (s.dealer k).started.contains (.check c.id)) = some c ∧
      c.witness.map s.isDark = some false ∧ c.witness.map s.matrixBusy = some false ∧ s.mayIssue k clsSentinel = true ∧
      s.witnessFor c.primary (c.primary :: c.witness.toList) = none) ∧
    (∃ k, ∃ s : State, ∃ c, ∃ j, s.integ.checks.find? (fun c => c.third.isSome && c.primary / 256 == k) = some c ∧
      c.third = some j ∧ s.isRetired j = false ∧ s.isDark j = false ∧ s.matrixBusy j = false ∧
      s.mayIssue k clsSentinel = true) ∧
    (∃ s : State, ∃ st, tabGet s.integ.suspects 0 st < 65535) ∧
    (∃ s : State, ∃ st, tabGet s.integ.suspects 0 st < 65535 ∧
      (s.sentSet (st / 256)).derateAt ≤ tabGet s.integ.suspects 0 st + 1 ∧
      (s.dom (st / 256)).derate < (s.sentSet (st / 256)).derateMax) ∧
    (∃ s : State, ∃ st, tabGet s.integ.suspects 0 st < 65535 ∧
      (s.sentSet (st / 256)).retireAt ≤ tabGet s.integ.suspects 0 st + 1) ∧
    (∃ s : State, s.time.pip < s.integ.decayAt) ∧
    (∃ s : State, s.integ.decayAt ≤ s.time.pip ∧ (s.integ.suspects.map (·.1)).Nodup) ∧
    (∃ c, c < 256) ∧
    (∃ c, ∃ s : State, c < 256 ∧ s.refreshing c = false ∧ (s.recentRefreshes c).length < 7) ∧
    (∃ c, ∃ s : State, c < 256 ∧ (s.refreshing c = true ∨ 7 ≤ (s.recentRefreshes c).length)) ∧
    (∃ s : State, s.time.pip < s.integ.corrFrom + 2 ^ 30) ∧
    (∃ s : State, s.integ.corrFrom + 2 ^ 30 ≤ s.time.pip) ∧
    (∃ o : Origin, ∃ k, ∃ clear, ∃ s : State, ∃ p, s.waiting o 0x0B05 [k, clear] = some p ∧ s.MaySend o 0x0B05 ∧ k ≤ 3 ∧
      clearOk o clear) ∧
    (∃ o : Origin, ∃ z : SentArgs, ∃ s : State, ∃ p : Posted, s.waiting o 0x0B06 [z.mask, z.enable, z.k, z.offset, z.derateAt,
      z.retireAt, z.derateMax, z.fuse, z.clear] = some p ∧ s.MaySend o 0x0B06 ∧ s.Owns o resTest ∧ 1 ≤ z.mask ∧ z.mask ≤ 15 ∧
      z.enable ≤ 1 ∧ 4 ≤ z.k ∧ z.k ≤ 20 ∧ 1 ≤ z.offset ∧ z.offset ≤ 255 ∧ 1 ≤ z.derateAt ∧ z.derateAt ≤ z.retireAt ∧
      z.retireAt ≤ 65535 ∧ z.derateMax ≤ 18 ∧ z.fuse ≤ 1 ∧ z.clear ≤ 1) ∧
    (∃ o : Origin, ∃ k, ∃ i, ∃ action, ∃ s : State, ∃ p, s.waiting o 0x0B07 [k, i, action] = some p ∧ s.MaySend o 0x0B07 ∧
      s.Owns o resTest ∧ k ≤ 3 ∧ s.absent (stitchNo k i) = false ∧ action = 0) ∧
    (∃ o : Origin, ∃ k, ∃ i, ∃ action, ∃ s : State, ∃ p, s.waiting o 0x0B07 [k, i, action] = some p ∧ s.MaySend o 0x0B07 ∧
      s.Owns o resTest ∧ k ≤ 3 ∧ s.absent (stitchNo k i) = false ∧ action = 1 ∧ s.fusedRetired (stitchNo k i) = true) ∧
    (∃ o : Origin, ∃ k, ∃ i, ∃ action, ∃ s : State, ∃ p, s.waiting o 0x0B07 [k, i, action] = some p ∧ s.MaySend o 0x0B07 ∧
      s.Owns o resTest ∧ k ≤ 3 ∧ s.absent (stitchNo k i) = false ∧ action = 1 ∧ s.fusedRetired (stitchNo k i) = false ∧
      s.isRetired (stitchNo k i) = true) :=
  ⟨⟨0, tCks none .active, tCk none, by decide +kernel⟩,
   ⟨0, tCks none .active, tCk none, 128, by decide +kernel⟩,
   ⟨0, { tCks none .active with integ := { checks := [tCk none], retired := List.range 256 } }, tCk none, by decide +kernel⟩,
   ⟨0, tCks (some 128) .active, tCk (some 128), 128, by decide +kernel⟩,
   ⟨tR, 0, by decide +kernel⟩,
   ⟨{ tR with integ := { suspects := [(0, 1)] } }, 0, by decide +kernel⟩,
   ⟨{ tR with integ := { suspects := [(0, 3)] } }, 0, by decide +kernel⟩,
   ⟨tR, by decide +kernel⟩,
   ⟨tAt { tR with integ := { suspects := [(0, 3), (9, 1)] } } (2 ^ 40), by decide +kernel⟩,
   ⟨255, by decide +kernel⟩,
   ⟨255, tR, by decide +kernel⟩,
   ⟨0, { tR with integ := { refresh := [(0, 5)] } }, (by decide +kernel), (Or.inl (by decide +kernel))⟩,
   ⟨tR, by decide +kernel⟩,
   ⟨tAt tR (2 ^ 30), by decide +kernel⟩,
   ⟨tO, 3, 0, tC (tR) 0x0B05 [3, 0] 0, tP, (by decide +kernel), (fun _ => rfl), (by decide +kernel), (by show _ ≤ 1; decide)⟩,
   ⟨tO, { mask := 1, enable := 1, k := 10, offset := 128, derateAt := 2, retireAt := 4, derateMax := 4, fuse := 0, clear := 0 },
     tC (tR) 0x0B06 [1, 1, 10, 128, 2, 4, 4, 0, 0] 0, tP, (by decide +kernel), (fun _ => rfl),
     (by unfold State.Owns; decide +kernel), (by decide +kernel), (by decide +kernel), (by decide +kernel),
     (by decide +kernel), (by decide +kernel), (by decide +kernel), (by decide +kernel), (by decide +kernel),
     (by decide +kernel), (by decide +kernel), (by decide +kernel), (by decide +kernel), (by decide +kernel)⟩,
   ⟨tO, 3, 255, 0, tC (tR) 0x0B07 [3, 255, 0] 0, tP, (by decide +kernel), (fun _ => rfl),
     (by unfold State.Owns; decide +kernel), (by decide +kernel), (by decide +kernel), (by decide +kernel)⟩,
   ⟨tO, 3, 255, 1, tC (tSec { fusedRetired := [{ key := 1023, val := 0 }] }) 0x0B07 [3, 255, 1] 0, tP, (by decide +kernel),
     (fun _ => rfl), (by unfold State.Owns; decide +kernel), (by decide +kernel), (by decide +kernel), (by decide +kernel),
     (by decide +kernel)⟩,
   ⟨tO, 3, 255, 1, tC ({ tR with integ := { retired := [1023] } }) 0x0B07 [3, 255, 1] 0, tP, (by decide +kernel),
     (fun _ => rfl), (by unfold State.Owns; decide +kernel), (by decide +kernel), (by decide +kernel), (by decide +kernel),
     (by decide +kernel), (by decide +kernel)⟩⟩

theorem test_hyps_SwatchRuns :
    (∃ o : Origin, ∃ addr : Nat, ∃ len : Nat, ∃ tg : Targets, ∃ limit : Nat, ∃ s : State, ∃ p : Posted,
      s.waiting o 0x0C01 [addr, len, tg.map.toNat, tg.tally.toNat, tg.pipes.toNat, limit] = some p ∧ s.MaySend o 0x0C01 ∧
      s.Owns o resTest ∧ addr % 64 = 0 ∧ addr + len ≤ 2 ^ 37 ∧ s.dramDenied addr len = false ∧ ((∀ st ∈ unitsOf tg 0,
      s.stitchStatus st = none)) ∧ 2 ^ 12 ≤ limit ∧ limit ≤ 2 ^ 40 ∧ ((tg.map ≠ 0 ∨ tg.tally ≠ 0 ∨ tg.pipes ≠ 0)) ∧
      (s.swSet addr len).2 = false ∧ s.integ.run = none) ∧
    (∃ o : Origin, ∃ addr : Nat, ∃ len : Nat, ∃ tg : Targets, ∃ limit : Nat, ∃ s : State, ∃ p : Posted,
      s.waiting o 0x0C01 [addr, len, tg.map.toNat, tg.tally.toNat, tg.pipes.toNat, limit] = some p ∧ s.MaySend o 0x0C01 ∧
      s.Owns o resTest ∧ addr % 64 = 0 ∧ addr + len ≤ 2 ^ 37 ∧ s.dramDenied addr len = false ∧ ((∀ st ∈ unitsOf tg 0,
      s.stitchStatus st = none)) ∧ 2 ^ 12 ≤ limit ∧ limit ≤ 2 ^ 40 ∧ ((tg.map ≠ 0 ∨ tg.tally ≠ 0 ∨ tg.pipes ≠ 0)) ∧
      (s.swSet addr len).2 = false ∧ s.integ.run ≠ none) ∧
    (∃ o : Origin, ∃ slot : Nat, ∃ target : Nat, ∃ late : Nat, ∃ period : Nat, ∃ addr : Nat, ∃ len : Nat, ∃ tg : Targets,
      ∃ limit : Nat, ∃ s : State, ∃ p : Posted, ∃ n : Nat, s.waiting o 0x0C02 [slot, 0, target, late, period, addr, len,
      tg.map.toNat, tg.tally.toNat, tg.pipes.toNat, limit] = some p ∧ s.MaySend o 0x0C02 ∧ s.Owns o resTest ∧ slot ≤ 3 ∧
      late ≤ 1 ∧ ((period = 0 ∨ (2 ^ 24 ≤ period ∧ period ≤ 2 ^ 44))) ∧ scheduled s.time.pip target late = some n ∧
      s.time.state ≠ .unlocked ∧ ((∀ c, tabGet? s.integ.scheds slot = some c → c.armed = false)) ∧ addr % 64 = 0 ∧
      addr + len ≤ 2 ^ 37 ∧ s.dramDenied addr len = false ∧ ((∀ st ∈ unitsOf tg 0, s.stitchStatus st = none)) ∧
      2 ^ 12 ≤ limit ∧ limit ≤ 2 ^ 40 ∧ ((tg.map ≠ 0 ∨ tg.tally ≠ 0 ∨ tg.pipes ≠ 0)) ∧ (s.swSet addr len).2 = false) ∧
    (∃ o : Origin, ∃ slot : Nat, ∃ target : Nat, ∃ late : Nat, ∃ period : Nat, ∃ addr : Nat, ∃ len : Nat, ∃ tg : Targets,
      ∃ limit : Nat, ∃ s : State, ∃ p : Posted, ∃ c : SwSched, s.waiting o 0x0C02 [slot, 1, target, late, period, addr, len,
      tg.map.toNat, tg.tally.toNat, tg.pipes.toNat, limit] = some p ∧ s.MaySend o 0x0C02 ∧ s.Owns o resTest ∧ slot ≤ 3 ∧
      late ≤ 1 ∧ s.time.state ≠ .unlocked ∧ tabGet? s.integ.scheds slot = some c) ∧
    (∃ o : Origin, ∃ slot, ∃ s : State, ∃ p, s.waiting o 0x0C03 [slot] = some p ∧ s.MaySend o 0x0C03 ∧ slot ≤ 4) ∧
    (∃ kind, ∃ unit, ∃ s : State, ∃ r, ∃ i, s.integ.run = some r ∧
      r.todo.find? (fun i => i.kind == kind && i.unit == unit) = some i ∧ ((∀ k,
      i.skein = some k → (s.dealer k).started.contains (.swatch (swNo kind unit)) = true)) ∧
      ((kind = 0 → s.stitchStatus unit = none)) ∧ s.firstUe (dramKey i.addr) (s.swLen i.addr) = none ∧
      s.time.pip < r.res.start + r.limit ∧ s.mayIssue i.class.1 i.class.2 = true) ∧
    (∃ kind, ∃ unit, ∃ s : State, ∃ r, ∃ i, s.integ.run = some r ∧
      r.todo.find? (fun i => i.kind == kind && i.unit == unit) = some i ∧ ((∀ k,
      i.skein = some k → (s.dealer k).started.contains (.swatch (swNo kind unit)) = true)) ∧
      ((kind = 0 → s.stitchStatus unit = none)) ∧ s.firstUe (dramKey i.addr) (s.swLen i.addr) = none ∧
      s.time.pip < r.res.start + r.limit ∧ s.mayIssue i.class.1 i.class.2 = true ∧ r.todo.erase i ≠ [] ∧
      s.swPass i.addr = true) ∧
    (∃ s : State, ∃ r, s.integ.run = some r ∧ s.time.pip < r.res.start + r.limit) ∧
    (∃ s : State, ∃ r, s.integ.run = some r ∧ r.res.start + r.limit ≤ s.time.pip) ∧
    (∃ slot, ∃ s : State, ∃ c, tabGet? s.integ.scheds slot = some c ∧ c.armed = true ∧ s.time.pip < c.next ∧
      c.waiting = false) ∧
    (∃ slot, ∃ s : State, ∃ c, tabGet? s.integ.scheds slot = some c ∧ c.armed = true ∧ s.integ.run ≠ none ∧
      c.next ≤ s.time.pip ∧ c.period ≠ 0 ∧ ((∀ m ∈ s.cfg.commits, c.next < m.pip))) ∧
    (∃ slot, ∃ s : State, ∃ c, tabGet? s.integ.scheds slot = some c ∧ c.armed = true ∧ s.integ.run = none ∧
      s.swAhead slot c = true) ∧
    (∃ slot, ∃ s : State, ∃ c, tabGet? s.integ.scheds slot = some c ∧ c.armed = true ∧ s.integ.run = none ∧
      s.swAhead slot c = false ∧ c.waiting = true ∧ s.time.pip < c.next) ∧
    (∃ slot, ∃ s : State, ∃ c, tabGet? s.integ.scheds slot = some c ∧ c.armed = true ∧ s.integ.run = none ∧
      s.swAhead slot c = false ∧ c.next ≤ s.time.pip ∧ c.waiting = false ∧ ((∀ m ∈ s.cfg.commits, c.next < m.pip))) :=
  ⟨⟨tO, 64, 64, tTg, 4096, tC (tR) 0x0C01 [64, 64, 0, 1, 0, 4096] 0, tP, (by decide +kernel), (fun _ => rfl),
    (by unfold State.Owns; decide +kernel), (by decide +kernel), (by decide +kernel), (by decide +kernel),
    (by decide +kernel), (by decide +kernel), (by decide +kernel), (by decide +kernel), (by decide +kernel),
    (by decide +kernel)⟩,
   ⟨tO, 64, 64, tTg, 4096, tC (tSw tRunW) 0x0C01 [64, 64, 0, 1, 0, 4096] 0, tP, (by decide +kernel), (fun _ => rfl),
     (by unfold State.Owns; decide +kernel), (by decide +kernel), (by decide +kernel), (by decide +kernel),
     (by decide +kernel), (by decide +kernel), (by decide +kernel), (by decide +kernel), (by decide +kernel),
     (by decide +kernel)⟩,
   ⟨tO, 1, 4096, 0, 0, 64, 64, tTg, 4096, tC ({ tR with time := { state := .locked } }) 0x0C02 [1, 0, 4096, 0, 0, 64, 64, 0,
     1, 0, 4096] 0, tP, 4096, (by decide +kernel), (fun _ => rfl), (by unfold State.Owns; decide +kernel),
     (by decide +kernel), (by decide +kernel), (by decide +kernel), (by decide +kernel), (by decide +kernel),
     (by intro c h; have h2 : (none : Option SwSched) = some c := h; cases h2), (by decide +kernel), (by decide +kernel),
     (by decide +kernel), (by decide +kernel), (by decide +kernel), (by decide +kernel), (by decide +kernel),
     (by decide +kernel)⟩,
   ⟨tO, 1, 4096, 0, 0, 64, 64, tTg, 4096, tC ({ tScs tSc none with time := { state := .locked } }) 0x0C02 [1, 1, 4096, 0, 0,
     64, 64, 0, 1, 0, 4096] 0, tP, tSc, (by decide +kernel), (fun _ => rfl), (by unfold State.Owns; decide +kernel),
     (by decide +kernel), (by decide +kernel), (by decide +kernel), (by decide +kernel)⟩,
   ⟨tO, 4, tC (tR) 0x0C03 [4] 0, tP, (by decide +kernel), (fun _ => rfl), (by decide +kernel)⟩,
   ⟨1, 0, tSw tRunW, tRunW, tItem 0, (by decide +kernel), (by decide +kernel),
     (by intro k h; have h2 : (none : Option Nat) = some k := h; cases h2), (by decide +kernel), (by decide +kernel),
     (by decide +kernel), (by decide +kernel)⟩,
   ⟨1, 0, tSwP, tRunW, tItem 0, (by decide +kernel), (by decide +kernel),
     (by intro k h; have h2 : (none : Option Nat) = some k := h; cases h2), (by decide +kernel), (by decide +kernel),
     (by decide +kernel), (by decide +kernel), (by decide +kernel), (by decide +kernel)⟩,
   ⟨tSw tRunW, tRunW, by decide +kernel⟩,
   ⟨tAt (tSw tRunW) 4096, tRunW, by decide +kernel⟩,
   ⟨1, tScs tSc none, tSc, by decide +kernel⟩,
   ⟨1, tAt (tScs tSc (some tRunW)) 100, tSc, by decide +kernel⟩,
   ⟨1, tAt { tR with integ := { scheds := [(0, { tSc with next := 50 }), (1, tSc)] } } 100, tSc, by decide +kernel⟩,
   ⟨1, tScs { tSc with waiting := true } none, { tSc with waiting := true }, by decide +kernel⟩,
   ⟨1, tAt (tScs tSc none) 100, tSc, by decide +kernel⟩⟩

theorem test_hyps_Resets :
    (∃ rail, ∃ low, rail < 23 ∧ 2000 < low) ∧
    (∃ low, low ≤ 2000) ∧
    (∃ low, 10000 ≤ low) ∧
    (∃ low, low < 10000) ∧
    (∃ s : State, (s.pwr.doms.map (·.1)).Nodup) ∧
    (∃ s : State, ∃ x, x < 2 ^ 62 ∧ ((∀ e, ∀ b, e ∈ s.lad.streams → ¬ (memKey (e.2.entry b) ≤ x ∧
      x < memKey (e.2.entry b) + 64)))) ∧
    (∃ reading, toInt 16 reading < 6720) ∧
    (∃ sensor, ∃ reading, ∃ s : State, sensor < 352 ∧ s.pwr.badSensors.contains sensor = false ∧ 6720 ≤ toInt 16 reading ∧
      s.boot.tripped = none) ∧
    (∃ s : State, ∃ x c, s.boot.tripped = some x ∧ s.boot.coolSince = some c ∧ s.time.pip < c + 1000000000) ∧
    (∃ s : State, ∃ x c, s.boot.tripped = some x ∧ s.boot.coolSince = some c ∧ c + 1000000000 ≤ s.time.pip) ∧
    (∃ o : Origin, ∃ scope, ∃ unit, ∃ s : State, ∃ p, s.waiting o 0x0106 [scope, unit] = some p ∧ s.MaySend o 0x0106 ∧
      s.Owns o resDevice ∧ scope ≤ 1 ∧ unit < 65536) ∧
    (∃ o : Origin, ∃ scope, ∃ unit, ∃ s : State, ∃ p, s.waiting o 0x0106 [scope, unit] = some p ∧ s.MaySend o 0x0106 ∧
      s.Owns o resDevice ∧ 2 ≤ scope ∧ scope ≤ 5 ∧ unit < (match scope with | 2 => 4 | 3 => 64 | 4 => 4 | _ => 1024) ∧
      ((scope = 5 → s.absent unit = false ∧ s.isRetired unit = false)) ∧ ((∀ q ∈ resetPorts scope unit,
      s.Owns o (resPort q))) ∧ s.boot.phase ≠ .recovery ∧ s.boot.phase ≠ .halted) ∧
    (∃ o : Origin, ∃ scope, ∃ unit, ∃ s : State, ∃ p, s.waiting o 0x0106 [scope, unit] = some p ∧ s.MaySend o 0x0106 ∧
      s.Owns o resDevice ∧ 2 ≤ scope ∧ scope ≤ 5 ∧ unit < (match scope with | 2 => 4 | 3 => 64 | 4 => 4 | _ => 1024) ∧
      ((scope = 5 → s.absent unit = false ∧ s.isRetired unit = false)) ∧ ((∀ q ∈ resetPorts scope unit,
      s.Owns o (resPort q))) ∧ (s.boot.phase = .recovery ∨ s.boot.phase = .halted)) ∧
    (∃ o : Origin, ∃ scope, ∃ unit, ∃ s : State, ∃ p, s.waiting o 0x0106 [scope, unit] = some p ∧ s.MaySend o 0x0106 ∧
      s.Owns o resDevice ∧ 5 < scope ∧ unit < 65536) ∧
    (∃ s : State, ∃ j,
      s.boot.jobs.find? (fun j => !j.begun && j.source == 9 && decide (j.scope ≤ 1) && decide (j.due ≤ s.time.pip)) = some j) ∧
    (∃ scope unit, ∃ s : State, ∃ j, s.boot.jobs.find? (fun j => j.begun && j.scope == scope && j.unit == unit) = some j) ∧
    (∃ s : State, s.needleRuns = false) ∧
    (∃ s : State, s.needleRuns = true ∧ s.boot.standbyReady = true ∧ ((∀ c,
      s.boot.lastTakeover = some c → c + 2 ^ 30 ≤ s.time.pip))) ∧
    (∃ s : State, s.needleRuns = true ∧ ((s.boot.standbyReady = false ∨ ∃ c, s.boot.lastTakeover = some c ∧
      s.time.pip < c + 2 ^ 30))) ∧
    (∃ s : State, s.needleRuns = true ∧ s.boot.lastTakeover ≠ none ∧ s.boot.standbyReady = false) ∧
    (∃ s : State, (s.boot.standbyReady = true ∨ s.boot.lastTakeover = none)) ∧
    (∃ s : State, s.sec.debugLevel = 0) ∧
    (∃ s : State, s.sec.debugLevel ≠ 0) ∧
    (∃ k : Nat, ∃ x, k < 4 ∧ x < 2 ^ 62) ∧
    (∃ k : Nat, ∃ st, k < 4 ∧ st / 256 = k) ∧
    (∃ k : Nat, ∃ i, k < 4 ∧ i < 256) ∧
    (∃ k : Nat, k < 4) :=
  ⟨⟨0, 2001, by decide +kernel⟩,
   ⟨2000, by decide +kernel⟩,
   ⟨10000, by decide +kernel⟩,
   ⟨9999, by decide +kernel⟩,
   ⟨tDs [(0, {}), (4, {})], by decide +kernel⟩,
   ⟨tR, 5, (by decide +kernel), (fun _ _ h => nomatch h)⟩,
   ⟨0, by decide +kernel⟩,
   ⟨351, 6720, tR, by decide +kernel⟩,
   ⟨tB { phase := .ready, tripped := some (0, 0), coolSince := some 0 }, (0, 0), 0, by decide +kernel⟩,
   ⟨tAt (tB { phase := .ready, tripped := some (0, 0), coolSince := some 0 }) 1000000000, (0, 0), 0, by decide +kernel⟩,
   ⟨tO, 1, 0, tC (tR) 0x0106 [1, 0] 0, tP, (by decide +kernel), (fun _ => rfl), (by unfold State.Owns; decide +kernel),
     (by decide +kernel), (by decide +kernel)⟩,
   ⟨tO, 2, 0, tC (tR) 0x0106 [2, 0] 0, tP, (by decide +kernel), (fun _ => rfl), (by unfold State.Owns; decide +kernel),
     (by decide +kernel), (by decide +kernel), (by decide +kernel), (by decide +kernel),
     (by intro q hq; have h : q ∈ ([] : List Nat) := hq; cases h), (by decide +kernel), (by decide +kernel)⟩,
   ⟨tO, 2, 0, tC (tBp .recovery) 0x0106 [2, 0] 0, tP, (by decide +kernel), (fun _ => rfl),
     (by unfold State.Owns; decide +kernel), (by decide +kernel), (by decide +kernel), (by decide +kernel),
     (by decide +kernel), (by intro q hq; have h : q ∈ ([] : List Nat) := hq; cases h), (by decide +kernel)⟩,
   ⟨tO, 6, 0, tC (tR) 0x0106 [6, 0] 0, tP, (by decide +kernel), (fun _ => rfl), (by unfold State.Owns; decide +kernel),
     (by decide +kernel), (by decide +kernel)⟩,
   ⟨tB { jobs := [{ scope := 1, unit := 0, source := 9, due := 0 }] }, { scope := 1, unit := 0, source := 9, due := 0 },
     by decide +kernel⟩,
   ⟨2, 1, tB { jobs := [{ scope := 2, unit := 1, source := 9, due := 0, begun := true }] }, { scope := 2, unit := 1, source := 9, due := 0, begun := true },
     by decide +kernel⟩,
   ⟨State.reset, by decide +kernel⟩,
   ⟨tB { phase := .ready, standbyReady := true }, (by decide +kernel), (by decide +kernel),
     (by intro n h; have h2 : (none : Option Nat) = some n := h; cases h2)⟩,
   ⟨tR, (by decide +kernel), (Or.inl (by decide +kernel))⟩,
   ⟨tB { phase := .ready, lastTakeover := some 0 }, by decide +kernel⟩,
   ⟨tR, by decide +kernel⟩,
   ⟨tR, by decide +kernel⟩,
   ⟨tSec { debugLevel := 1 }, by decide +kernel⟩,
   ⟨3, 5, by decide +kernel⟩,
   ⟨3, 1023, by decide +kernel⟩,
   ⟨3, 255, by decide +kernel⟩,
   ⟨3, by decide +kernel⟩⟩

theorem test_hyps_CastOn :
    (∃ s : State, s.boot.phase ≠ .strap) ∧
    (∃ s : State, ∃ c : Nat, s.boot.phase = .strap ∧ c < 16) ∧
    (∃ s : State, ∃ c0 : Nat, ∃ c1 : Nat, ∃ c2 : Nat, ∃ c3 : Nat, s.boot.phase = .strap ∧
      ((16 ≤ c0 ∨ c1 ≠ c0 ∨ c2 ≠ c0 ∨ c3 ≠ c0))) ∧
    (∃ ok, ∃ s : State, (s.boot.phase ≠ .fuses ∨ ok = false)) ∧
    (∃ s : State, s.boot.phase = .fuses) ∧
    (∃ s : State, s.boot.phase ≠ .rom) ∧
    (∃ s : State, s.boot.phase = .rom) ∧
    (∃ x, ∃ y, ∃ s : State, s.boot.phase = .rom ∧ ((x = true ∨ y = true))) ∧
    (∃ s : State, ∃ c k, s.boot.phase = .verify ∧ s.boot.override.getD (bits s.boot.rstcfg 1 1) = k ∧
      s.imageFault k = some c) ∧
    (∃ s : State, s.boot.phase ≠ .dram) ∧
    (∃ s : State, s.boot.phase = .dram) ∧
    (∃ s : State, s.boot.phase ≠ .bridges) ∧
    (∃ s : State, s.boot.phase = .bridges) ∧
    (∃ s : State, s.boot.phase ≠ .skeins) ∧
    (∃ s : State, s.boot.phase = .skeins) ∧
    (∃ s : State, s.boot.phase ≠ .lasers) ∧
    (∃ s : State, s.boot.phase = .lasers) ∧
    (∃ s : State, s.boot.phase ≠ .links) ∧
    (∃ s : State, s.boot.phase = .links) ∧
    (∃ s : State, s.boot.phase ≠ .profile) ∧
    (∃ s : State, s.boot.phase = .profile ∧ (s.boot.phaseSince + 300000000 ≤ s.time.pip ∨ (∀ lk ∈ s.linkNums,
      s.setting idAdmin (lk / 2) = 1 → (s.link lk).carries = true ∨ (s.link lk).state = .failed))) ∧
    (∃ s : State, s.boot.phase = .profile ∧ s.boot.profileDone = true) ∧
    (∃ s : State, s.boot.phase ≠ .ready) ∧
    (∃ m : Nat, ∃ s : State, s.boot.phase = .ready ∧ s.pins.laserEn.getLsbD m = false) ∧
    (∃ s : State, ∃ n, ∃ b, s.sidebandUp = true ∧ s.side.window = BitVec.ofNat 32 n ∧ n % 32 = 0 ∧ n < 0x1000000 ∧
      sbBlock n = some b) ∧
    (∃ s : State, ∃ i : Nat, i < 16384 ∧ s.logUeWords i = []) ∧
    (∃ s : State, ∃ i : Nat, ∃ w : Nat, ∃ j : Nat, i < 16384 ∧ w ∈ s.logUeWords i ∧ j < 8) ∧
    (∃ s : State, s.sidebandUp = false) ∧
    (∃ w : BitVec 32, ∃ s : State, s.sidebandUp = true ∧ sbBlock (bits w.toNat 5 19 * 32) ≠ none) ∧
    (∃ w : BitVec 32, ∃ s : State, s.sidebandUp = true ∧ sbBlock (bits w.toNat 5 19 * 32) = none) ∧
    (∃ s : State, s.sidebandUp = true ∧ s.pins.smbAlertN = true) ∧
    (∃ s : State, s.sidebandUp = true ∧ s.pins.smbAlertN = false) :=
  ⟨⟨tR, by decide +kernel⟩,
   ⟨tBp .strap, 9, by decide +kernel⟩,
   ⟨tBp .strap, 1, 2, 1, 1, by decide +kernel⟩,
   ⟨false, tR, by decide +kernel⟩,
   ⟨tBp .fuses, by decide +kernel⟩,
   ⟨tR, by decide +kernel⟩,
   ⟨tBp .rom, by decide +kernel⟩,
   ⟨true, false, tBp .rom, by decide +kernel⟩,
   ⟨tBp .verify, 1, 0, by decide +kernel⟩,
   ⟨tR, by decide +kernel⟩,
   ⟨tBp .dram, by decide +kernel⟩,
   ⟨tR, by decide +kernel⟩,
   ⟨tBp .bridges, by decide +kernel⟩,
   ⟨tR, by decide +kernel⟩,
   ⟨tBp .skeins, by decide +kernel⟩,
   ⟨tR, by decide +kernel⟩,
   ⟨tBp .lasers, by decide +kernel⟩,
   ⟨tR, by decide +kernel⟩,
   ⟨tBp .links, by decide +kernel⟩,
   ⟨tR, by decide +kernel⟩,
   ⟨tAt (tBp .profile) 300000000, (by decide +kernel), (Or.inl (by decide +kernel))⟩,
   ⟨tB { phase := .profile, profileDone := true }, by decide +kernel⟩,
   ⟨tBp .rom, by decide +kernel⟩,
   ⟨7, { tR with pins := { laserEn := 0 } }, by decide +kernel⟩,
   ⟨tR, 0x100000, (0x100000, 0x80000), by decide +kernel⟩,
   ⟨tR, 16383, by decide +kernel⟩,
   ⟨{ tR with integ := { ueSites := [.log 0 3] } }, 16383, 3, 7, by decide +kernel⟩,
   ⟨State.reset, by decide +kernel⟩,
   ⟨0x100000, tR, by decide +kernel⟩,
   ⟨0x200, tR, by decide +kernel⟩,
   ⟨tR, by decide +kernel⟩,
   ⟨{ tR with pins := { smbAlertN := false } }, by decide +kernel⟩⟩

theorem test_hyps_Security :
    (∃ (s : State) (pin : Pin), pin ≠ .thermtripN ∧ s.boot.phase = .reset) ∧
    (∃ (s : State) (pin : Pin), pin ≠ .thermtripN ∧ s.boot.phase ≠ .reset ∧ s.pinConfigured pin = false) ∧
    (∃ o : Origin, ∃ off, ∃ s : State, ∃ p, s.waiting o 0x0101 [0, off] = some p ∧ s.MaySend o 0x0101) ∧
    (∃ o : Origin, ∃ off, ∃ s : State, ∃ p, s.waiting o 0x0101 [1, off] = some p ∧ s.MaySend o 0x0101 ∧ off < 0x100000) ∧
    (∃ o : Origin, ∃ off, ∃ s : State, ∃ p, s.waiting o 0x0101 [1, off] = some p ∧ s.MaySend o 0x0101 ∧ 0x100000 ≤ off) ∧
    (∃ o : Origin, ∃ nonce : BitVec 256, ∃ s : State, ∃ p : Posted, ∃ k, s.waiting o 0x0102 [nonce.toNat] = some p ∧
      s.MaySend o 0x0102 ∧ s.activeKey = some k) ∧
    (∃ o : Origin, ∃ nonce : BitVec 256, ∃ s : State, ∃ p : Posted, s.waiting o 0x0102 [nonce.toNat] = some p ∧
      s.MaySend o 0x0102 ∧ s.activeKey = none) ∧
    (∃ s : State, ∃ k, s.activeKey = some k) ∧
    (∃ o : Origin, ∃ first, ∃ count, ∃ s : State, ∃ p, s.waiting o 0x0103 [first, count] = some p ∧ s.MaySend o 0x0103 ∧
      1 ≤ count ∧ count ≤ 26 ∧ 1 ≤ first ∧ first ≤ s.sec.meas.length) ∧
    (∃ o : Origin, ∃ first, ∃ count, ∃ s : State, ∃ p, s.waiting o 0x0103 [first, count] = some p ∧ s.MaySend o 0x0103 ∧
      1 ≤ count ∧ count ≤ 26 ∧ s.sec.meas.length < first) ∧
    (∃ o : Origin, ∃ slot : Nat, ∃ op : Nat, ∃ off : Nat, ∃ len : Nat, ∃ data : List Byte, ∃ s : State, ∃ p : Posted,
      s.waiting o 0x0104 [slot, op, off, len, leNat data] = some p ∧ s.MaySend o 0x0104 ∧ data.length = len ∧ slot ≤ 1 ∧
      op ≤ 2 ∧ off % 64 = 0 ∧ len ≤ 1920 ∧ ((op = 1 → off + len ≤ slotBytes)) ∧ op < 2 ∧ s.boot.runSlot = some slot) ∧
    (∃ o : Origin, ∃ slot : Nat, ∃ op : Nat, ∃ off : Nat, ∃ len : Nat, ∃ data : List Byte, ∃ s : State, ∃ p : Posted,
      s.waiting o 0x0104 [slot, op, off, len, leNat data] = some p ∧ s.MaySend o 0x0104 ∧ data.length = len ∧ slot ≤ 1 ∧
      op ≤ 2 ∧ off % 64 = 0 ∧ len ≤ 1920 ∧ ((op = 1 → off + len ≤ slotBytes)) ∧ op = 0 ∧ s.boot.runSlot ≠ some slot) ∧
    (∃ o : Origin, ∃ slot : Nat, ∃ op : Nat, ∃ off : Nat, ∃ len : Nat, ∃ data : List Byte, ∃ s : State, ∃ p : Posted,
      s.waiting o 0x0104 [slot, op, off, len, leNat data] = some p ∧ s.MaySend o 0x0104 ∧ data.length = len ∧ slot ≤ 1 ∧
      op ≤ 2 ∧ off % 64 = 0 ∧ len ≤ 1920 ∧ ((op = 1 → off + len ≤ slotBytes)) ∧ op = 1 ∧ s.boot.runSlot ≠ some slot) ∧
    (∃ o : Origin, ∃ slot : Nat, ∃ op : Nat, ∃ off : Nat, ∃ len : Nat, ∃ data : List Byte, ∃ s : State, ∃ p : Posted,
      s.waiting o 0x0104 [slot, op, off, len, leNat data] = some p ∧ s.MaySend o 0x0104 ∧ data.length = len ∧ slot ≤ 1 ∧
      op ≤ 2 ∧ off % 64 = 0 ∧ len ≤ 1920 ∧ ((op = 1 → off + len ≤ slotBytes)) ∧ op = 2) ∧
    (∃ o : Origin, ∃ slot, ∃ s : State, ∃ p, s.waiting o 0x0105 [slot] = some p ∧ s.MaySend o 0x0105 ∧ slot ≤ 1 ∧
      s.imageFault slot ≠ none) ∧
    (∃ o : Origin, ∃ level, ∃ s : State, ∃ p, s.waiting o 0x0107 [level] = some p ∧ s.MaySend o 0x0107 ∧ 1 ≤ level ∧
      level ≤ 2) ∧
    (∃ o : Origin, ∃ level : Nat, ∃ key : List Byte, ∃ sig : List Byte, ∃ s : State, ∃ p : Posted, key.length = 97 ∧
      sig.length = 96 ∧ s.waiting o 0x0108 [level, leNat key, leNat sig] = some p ∧ s.MaySend o 0x0108 ∧ level = 0) ∧
    (∃ o : Origin, ∃ level : Nat, ∃ key : List Byte, ∃ sig : List Byte, ∃ s : State, ∃ p : Posted, key.length = 97 ∧
      sig.length = 96 ∧ s.waiting o 0x0108 [level, leNat key, leNat sig] = some p ∧ s.MaySend o 0x0108 ∧
      (level = 1 ∨ level = 2) ∧ s.unlocks o level key sig = false) ∧
    (∃ o : Origin, ∃ s : State, ∃ p, s.ledgerTorn = false ∧ s.waiting o 0x0D01 [] = some p ∧ s.MaySend o 0x0D01) ∧
    (∃ o : Origin, ∃ target, ∃ s : State, ∃ p, s.ledgerTorn = false ∧ s.waiting o 0x0D02 [target] = some p ∧
      s.MaySend o 0x0D02 ∧ target ≤ 96 ∧ s.sec.rollback < target ∧ target ≤ s.boot.runSv ∧ target + s.sec.rollbackTorn ≤ 96 ∧
      s.fuseBusy = false) ∧
    (∃ o : Origin, ∃ target, ∃ s : State, ∃ p, s.ledgerTorn = false ∧ s.waiting o 0x0D02 [target] = some p ∧
      s.MaySend o 0x0D02 ∧ target ≤ 96 ∧ s.sec.rollback < target ∧ target ≤ s.boot.runSv ∧ target + s.sec.rollbackTorn ≤ 96 ∧
      s.fuseBusy = true) ∧
    (∃ o : Origin, ∃ target, ∃ s : State, ∃ p, s.ledgerTorn = false ∧ s.waiting o 0x0D02 [target] = some p ∧
      s.MaySend o 0x0D02 ∧ target ≤ 96 ∧ (target ≤ s.sec.rollback ∨ s.boot.runSv < target)) ∧
    (∃ o : Origin, ∃ k, ∃ i, ∃ s : State, ∃ p, s.ledgerTorn = false ∧ s.waiting o 0x0D03 [k, i] = some p ∧
      s.MaySend o 0x0D03 ∧ k ≤ 3 ∧ i ≤ 255 ∧ s.absent (256 * k + i) = false ∧ s.fusedRetired (256 * k + i) = false ∧
      s.retireRecs k < 8 ∧ s.fuseBusy = false) ∧
    (∃ o : Origin, ∃ k, ∃ i, ∃ s : State, ∃ p, s.ledgerTorn = false ∧ s.waiting o 0x0D03 [k, i] = some p ∧
      s.MaySend o 0x0D03 ∧ k ≤ 3 ∧ i ≤ 255 ∧ s.absent (256 * k + i) = false ∧ s.fusedRetired (256 * k + i) = false ∧
      8 ≤ s.retireRecs k) ∧
    (∃ o : Origin, ∃ slot, ∃ s : State, ∃ p, s.ledgerTorn = false ∧ s.waiting o 0x0D04 [slot] = some p ∧ s.MaySend o 0x0D04 ∧
      slot ≤ 3 ∧ ((∀ r ∈ s.sec.revoked, r.key ≠ slot)) ∧ s.fuseBusy = false) ∧
    (∃ o : Origin, ∃ slot, ∃ s : State, ∃ p, s.ledgerTorn = false ∧ s.waiting o 0x0D04 [slot] = some p ∧ s.MaySend o 0x0D04 ∧
      slot ≤ 3 ∧ ((∃ r ∈ s.sec.revoked, r.key = slot))) :=
  ⟨⟨{ tR with boot := { phase := .reset } }, .spiClk, by decide +kernel⟩,
   ⟨{ tR with boot := { phase := .strap } }, .devReady, by decide +kernel⟩,
   ⟨tO, 0, tC (tR) 0x0101 [0, 0] 0, tP, (by decide +kernel), (fun _ => rfl)⟩,
   ⟨tO, 0, tC (tR) 0x0101 [1, 0] 0, tP, (by decide +kernel), (fun _ => rfl), (by decide +kernel)⟩,
   ⟨tO, 0x100000, tC (tR) 0x0101 [1, 0x100000] 0, tP, (by decide +kernel), (fun _ => rfl), (by decide +kernel)⟩,
   ⟨tO, 0, tC (tR) 0x0102 [0] 0, tP, 0, (by decide +kernel), (fun _ => rfl), (by decide +kernel)⟩,
   ⟨tO, 0, tC (tSec { revoked := [{ key := 0, val := 0 }, { key := 1, val := 0 }, { key := 2, val := 0 }, { key := 3, val := 0 }] }) 0x0102 [0] 0,
     tP, (by decide +kernel), (fun _ => rfl), (by decide +kernel)⟩,
   ⟨tSec { revoked := [{ key := 0, val := 0 }] }, 1, by decide +kernel⟩,
   ⟨tO, 1, 1, tC (tSec { meas := [0] }) 0x0103 [1, 1] 0, tP, (by decide +kernel), (fun _ => rfl), (by decide +kernel),
     (by decide +kernel), (by decide +kernel), (by decide +kernel)⟩,
   ⟨tO, 1, 1, tC (tR) 0x0103 [1, 1] 0, tP, (by decide +kernel), (fun _ => rfl), (by decide +kernel), (by decide +kernel),
     (by decide +kernel)⟩,
   ⟨tO, 1, 0, 0, 0, [], tC (tB { phase := .ready, runSlot := some 1 }) 0x0104 [1, 0, 0, 0, 0] 0, tP, (by decide +kernel),
     (fun _ => rfl), (by decide +kernel), (by decide +kernel), (by decide +kernel), (by decide +kernel), (by decide +kernel),
     (by decide +kernel), (by decide +kernel), (by decide +kernel)⟩,
   ⟨tO, 1, 0, 0, 0, [], tC (tR) 0x0104 [1, 0, 0, 0, 0] 0, tP, (by decide +kernel), (fun _ => rfl), (by decide +kernel),
     (by decide +kernel), (by decide +kernel), (by decide +kernel), (by decide +kernel), (by decide +kernel),
     (by decide +kernel), (by decide +kernel)⟩,
   ⟨tO, 1, 1, 0, 0, [], tC (tR) 0x0104 [1, 1, 0, 0, 0] 0, tP, (by decide +kernel), (fun _ => rfl), (by decide +kernel),
     (by decide +kernel), (by decide +kernel), (by decide +kernel), (by decide +kernel), (by decide +kernel),
     (by decide +kernel), (by decide +kernel)⟩,
   ⟨tO, 1, 2, 0, 0, [], tC (tR) 0x0104 [1, 2, 0, 0, 0] 0, tP, (by decide +kernel), (fun _ => rfl), (by decide +kernel),
     (by decide +kernel), (by decide +kernel), (by decide +kernel), (by decide +kernel), (by decide +kernel),
     (by decide +kernel)⟩,
   ⟨tO, 1, tC (tR) 0x0105 [1] 0, tP, (by decide +kernel), (fun _ => rfl), (by decide +kernel), (by decide +kernel)⟩,
   ⟨tO, 2, tC (tR) 0x0107 [2] 0, tP, (by decide +kernel), (fun _ => rfl), (by decide +kernel), (by decide +kernel)⟩,
   ⟨tO, 0, List.replicate 97 0, List.replicate 96 0, tC (tR) 0x0108 [0, 0, 0] 0, tP, (by decide +kernel), (by decide +kernel),
     (by decide +kernel), (fun _ => rfl), (by decide +kernel)⟩,
   ⟨tO, 1, List.replicate 97 0, List.replicate 96 0, tC (tR) 0x0108 [1, 0, 0] 0, tP, (by decide +kernel), (by decide +kernel),
     (by decide +kernel), (fun _ => rfl), (by decide +kernel), (by decide +kernel)⟩,
   ⟨tO, tC (tR) 0x0D01 [] 0, tP, (by decide +kernel), (by decide +kernel), (fun _ => rfl)⟩,
   ⟨tO, 5, tC ({ tR with boot := { phase := .ready, runSv := 5 } }) 0x0D02 [5] 0, tP, (by decide +kernel),
     (by decide +kernel), (fun _ => rfl), (by decide +kernel), (by decide +kernel), (by decide +kernel), (by decide +kernel),
     (by decide +kernel)⟩,
   ⟨tO, 5, tC ({ tHot with boot := { phase := .ready, runSv := 5 } }) 0x0D02 [5] 0, tP, (by decide +kernel),
     (by decide +kernel), (fun _ => rfl), (by decide +kernel), (by decide +kernel), (by decide +kernel), (by decide +kernel),
     (by decide +kernel)⟩,
   ⟨tO, 6, tC ({ tR with boot := { phase := .ready, runSv := 5 } }) 0x0D02 [6] 0, tP, (by decide +kernel),
     (by decide +kernel), (fun _ => rfl), (by decide +kernel), (by decide +kernel)⟩,
   ⟨tO, 3, 255, tC (tR) 0x0D03 [3, 255] 0, tP, (by decide +kernel), (by decide +kernel), (fun _ => rfl), (by decide +kernel),
     (by decide +kernel), (by decide +kernel), (by decide +kernel), (by decide +kernel), (by decide +kernel)⟩,
   ⟨tO, 0, 9, tC (tSec { fusedRetired := List.replicate 8 { key := 1, val := 0 } }) 0x0D03 [0, 9] 0, tP, (by decide +kernel),
     (by decide +kernel), (fun _ => rfl), (by decide +kernel), (by decide +kernel), (by decide +kernel), (by decide +kernel),
     (by decide +kernel)⟩,
   ⟨tO, 3, tC (tR) 0x0D04 [3] 0, tP, (by decide +kernel), (by decide +kernel), (fun _ => rfl), (by decide +kernel),
     (by decide +kernel), (by decide +kernel)⟩,
   ⟨tO, 0, tC (tSec { revoked := [{ key := 0, val := 0 }, { key := 1, val := 0 }, { key := 2, val := 0 }, { key := 3, val := 0 }] }) 0x0D04 [0] 0,
     tP, (by decide +kernel), (by decide +kernel), (fun _ => rfl), (by decide +kernel), (by decide +kernel)⟩⟩

theorem test_hyps_StepRunsFront :
    ∃ s : State, s.pending = [] :=
  ⟨State.reset, by decide +kernel⟩

theorem test_hyps_PackRoundTrip :
    (∃ l : List Shape, ∃ vs : List Nat, ((∀ x ∈ l, 0 < x.align)) ∧ vs.length = l.length ∧ ((∀ i,
      i < l.length → vs.getD i 0 < 2 ^ (8 * (l.getD i ⟨0, 1⟩).size)))) ∧
    (∃ l : List Shape, ((∀ x ∈ l, 0 < x.align))) ∧
    (∃ l : List Shape, ∃ i, ((∀ x ∈ l, 0 < x.align)) ∧ i < l.length) ∧
    (∃ l : List Shape, ∃ i, ((∀ x ∈ l, 0 < x.align)) ∧ i + 1 < l.length) :=
  ⟨⟨[⟨1, 1⟩], [255], (by intro x hx; cases List.mem_singleton.mp hx; decide), (by decide +kernel),
    (by intro i hi; cases (by simpa using hi : i = 0); decide)⟩,
   ⟨[⟨1, 1⟩], (by intro x hx; cases List.mem_singleton.mp hx; decide)⟩,
   ⟨[⟨1, 1⟩], 0, (by intro x hx; cases List.mem_singleton.mp hx; decide), (by decide +kernel)⟩,
   ⟨[⟨1, 1⟩, ⟨2, 2⟩], 0, by decide +kernel⟩⟩

end Sys2Proof.Tests
end

section
/-! SUPPORT. Clocks and power commands (01 R25, R35; 15 R430 to R437). -/

namespace Sys2Proof.Machine

open Sys2Proof

/-! ### Command rows -/

/-- A condition that holds, and that comes before each of the others, is the refusal. -/
theorem firstRefusal_cons_before {c : Chk} {cs : List Chk} (hc : c.bad = true) (h : ∀ d ∈ cs, c.before d = true) :
    firstRefusal (c :: cs) = some c := by
  simp only [firstRefusal]
  cases hr : firstRefusal cs with
  | none => simp [hc]
  | some d => simp [hc, h d (firstRefusal_mem hr).1]

theorem clearChks_ok {o : Origin} {i clear : Nat} (h : clearOk o clear) : ∀ c ∈ clearChks o i clear, c.bad = false := by
  cases o with
  | mb g m => simp [clearChks, badFld, (show clear ≤ 1 from h)]
  | fab f n => simp [clearChks, badFld, (show clear = 0 from h)]

theorem addrChks_ok {s : State} {i addr len align : Nat} (hl : addr + len ≤ 2 ^ 37) (ha : addr % align = 0)
    (hd : s.dramDenied addr len = false) : ∀ c ∈ s.addrChks i addr len align, c.bad = false := by
  have hn : ¬ addr + len > 2 ^ 37 := Nat.not_lt.mpr hl
  simp only [State.addrChks, badFld, hn, ha, hd, List.forall_mem_cons, ne_eq, not_true, decide_false, Bool.or_false, true_and,
    List.not_mem_nil, false_imp_iff, implies_true]

/-- A command that nothing refuses and that answers at once from the state at acceptance. -/
theorem command_concluded {s : State} {o : Origin} {op : Nat} {vs : List Nat} {cs : List Chk} {f : State → State} {st : Status}
    {res : State → List Fld} {p : Posted} (hw : s.waiting o op vs = some p) (hm : s.MaySend o op) (hc : ∀ c ∈ cs, c.bad = false) :
    s.command o op vs cs (fun _ a => (f a, .done st (res a))) = .next (s.concluded p f st res) := by
  rw [command_run hw hm hc]; rfl

@[simp] theorem accept_firstUe (s : State) (p : Posted) (key n : Nat) : (s.accept p).2.firstUe key n = s.firstUe key n := by
  simp [State.firstUe]

/-- A command that reads DRAM, with nothing that refuses or holds it and no uncorrectable word in what it reads: the charge of
the load, then its effect. -/
theorem loading_concluded {s : State} {o : Origin} {op addr len : Nat} {vs : List Nat} {cs : List Chk} {f : State → State}
    {st : Status} {res : State → List Fld} {p : Posted} (hw : s.waiting o op vs = some p) (hm : s.MaySend o op)
    (hc : ∀ c ∈ cs, c.bad = false) (hi : s.mayIssue (addr / 2 ^ 35 % 4) clsMgmt = true)
    (hu : s.firstUe (dramKey addr) len = none) :
    s.loading o op vs addr len cs (fun _ a => (f a, .done st (res a))) =
      .next (s.concluded p (fun a => f (a.chargeLoad addr len)) st (fun a => res (a.chargeLoad addr len))) := by
  simp only [State.loading, hi, Bool.not_true, Bool.and_false, Bool.false_eq_true, if_false]
  rw [command_run hw hm hc]
  simp only [accept_firstUe, hu, State.concluded]

/-! ### Power domains after an operation of the state -/

@[simp] theorem dom_setDom_self (s : State) (x : Nat) (d : Domain) : (s.setDom x d).dom x = d := tabGet_tabPut_self ..

theorem dom_setDom_ne (s : State) (d : Domain) {x y : Nat} (h : y ≠ x) : (s.setDom x d).dom y = s.dom y :=
  tabGet_tabPut_ne _ _ _ h

/-- Replacing a domain by one of the same clock leaves every clock. -/
theorem clock_setDom {s : State} {x : Nat} {d : Domain} (h : d.clock = (s.dom x).clock) (y : Nat) :
    ((s.setDom x d).dom y).clock = (s.dom y).clock := by
  by_cases hy : y = x
  · subst hy; rw [dom_setDom_self, h]
  · rw [dom_setDom_ne s d hy]

@[simp] theorem dom_bump (s : State) (f : Fam) (u i x : Nat) : (s.bump f u i).dom x = s.dom x := rfl

@[simp] theorem dom_logPower (s : State) (x ev y : Nat) : (s.logPower x ev).dom y = s.dom y := rfl

@[simp] theorem dom_sbAlert (s : State) (b x : Nat) : (s.sbAlert b).dom x = s.dom x := rfl

@[simp] theorem sendVector_pwr (s : State) (h : HostId) (v : Nat) : (s.sendVector h v).pwr = s.pwr := by
  unfold State.sendVector; dsimp only; split <;> rfl

@[simp] theorem irq_pwr (s : State) (b : Nat) (h : HostId) : (s.irq b h).pwr = s.pwr := by
  unfold State.irq
  dsimp only
  split
  · rfl
  · split
    · rw [sendVector_pwr]; rfl
    · rfl

@[simp] theorem dom_irqAll (s : State) (b x : Nat) : (s.irqAll b).dom x = s.dom x := by simp [State.irqAll, State.dom]

theorem dom_setPwr_fixedSusp (s : State) (l : List Nat) (x : Nat) : (s.setPwr { s.pwr with fixedSusp := l }).dom x = s.dom x := rfl

@[simp] theorem dom_suspendFixed (s : State) (x y : Nat) : (s.suspendFixed x).dom y = s.dom y := by
  unfold State.suspendFixed; split <;> rfl

/-- Levels follow the temperatures; clocks do not. -/
@[simp] theorem clock_relevel (s : State) (y : Nat) : (s.relevel.dom y).clock = (s.dom y).clock := by
  unfold State.relevel
  refine List.foldlRecOn (motive := fun t : State => (t.dom y).clock = (s.dom y).clock) _ _ rfl ?_
  intro t ht x _
  dsimp only
  split
  · exact ht
  · rw [dom_sbAlert, dom_irqAll]
    exact (clock_setDom (by rfl) y).trans ht

/-! ### What sets a clock (R430, R431) -/

@[simp] theorem clock_setClock_self (s : State) (x f mv : Nat) : ((s.setClock x f mv).dom x).clock = f := by
  simp [State.setClock]

theorem dom_setClock_ne (s : State) (f mv : Nat) {x y : Nat} (h : y ≠ x) : (s.setClock x f mv).dom y = s.dom y := by
  simp only [State.setClock, dom_setDom_ne _ _ h]

@[simp] theorem clock_raise (s : State) (x f y : Nat) : ((s.raise x f).dom y).clock = (s.dom y).clock :=
  clock_setDom (by rfl) y

/-- A move toward a clock keeps the clock, or sets it where it lies below. -/
theorem moveClock_clock (s : State) (x f : Nat) :
    ((s.moveClock x f).dom x).clock = (s.dom x).clock ∨ f < (s.dom x).clock ∧ ((s.moveClock x f).dom x).clock = f := by
  unfold State.moveClock
  dsimp only
  split
  next h => exact .inr ⟨h, by simp⟩
  next =>
    left
    split
    · exact clock_raise ..
    · rfl

theorem stepDown_clock (s : State) (x f : Nat) :
    ((s.stepDown x f).dom x).clock = (s.dom x).clock ∨ f < (s.dom x).clock ∧ ((s.stepDown x f).dom x).clock = f := by
  simpa [State.stepDown] using moveClock_clock (s.setDom x { s.dom x with lastStep := some s.pwr.turn }) x f

/-! ### The floor of a port die (01 R25) -/

@[simp] theorem dieUp_setDom (s : State) (x die : Nat) (d : Domain) : (s.setDom x d).dieUp die = s.dieUp die := rfl

/-- The lower bound holds whatever the sensors say (R422). -/
theorem clockBounds_fst (s : State) (x : Nat) : (s.clockBounds x).1 =
    if x ≥ 4 && s.dieUp (x - 4) then max (s.csetting idClkMin x) 1050 else s.csetting idClkMin x := by
  unfold State.clockBounds
  dsimp only
  rw [apply_ite Prod.fst]
  exact ite_self _

theorem clockBounds_le (s : State) (x : Nat) : (s.clockBounds x).1 ≤ (s.clockBounds x).2 := by
  have h (c : Bool) (lo hi : Nat) : (if c then (lo, lo) else (lo, max lo hi)).1 ≤ (if c then (lo, lo) else (lo, max lo hi)).2 := by
    cases c
    · exact Nat.le_max_left ..
    · exact Nat.le_refl _
  exact h _ _ _

theorem clockBounds_floor {s : State} {d : Nat} (hu : s.dieUp d = true) : 1050 ≤ (s.clockBounds (4 + d)).1 := by
  rw [clockBounds_fst, if_pos (by simpa using hu)]
  exact Nat.le_max_right ..

/-- The clock that R430 wants for a port die is the present one or at least the lower bound: every step is clamped to bounds that
are in order. -/
theorem nextClock_floor (s : State) (d : Nat) :
    s.nextClock (4 + d) = (s.dom (4 + d)).clock ∨ (s.clockBounds (4 + d)).1 ≤ s.nextClock (4 + d) := by
  have hb := clockBounds_le s (4 + d)
  have hx : decide (4 + d < 4) = false := by simp
  unfold State.nextClock
  simp only [hx, Bool.and_false, Bool.false_eq_true, if_false, Bool.false_and, Bool.or_false]
  split_ifs <;> omega

theorem wantedClock_floor (s : State) (d : Nat) :
    s.wantedClock (4 + d) = (s.dom (4 + d)).clock ∨ (s.clockBounds (4 + d)).1 ≤ s.wantedClock (4 + d) := by
  unfold State.wantedClock
  dsimp only
  split
  · exact .inr (Nat.le_max_left ..)
  · exact nextClock_floor s d

/-- The clock of domain `x` in `t` is the one of `s`, or one that R25 allows a port die with a port up. -/
def FloorKept (x : Nat) (s t : State) : Prop := (t.dom x).clock = (s.dom x).clock ∨ 1050 ≤ (t.dom x).clock

/-- A move that keeps the clock, or lowers it to the one wanted, keeps the floor. -/
theorem floorKept_of_lowered {s t : State} {d : Nat} (hu : s.dieUp d = true)
    (h : (t.dom (4 + d)).clock = (s.dom (4 + d)).clock ∨
      s.wantedClock (4 + d) < (s.dom (4 + d)).clock ∧ (t.dom (4 + d)).clock = s.wantedClock (4 + d)) :
    FloorKept (4 + d) s t := by
  rcases h with h | ⟨hlt, h⟩
  · exact .inl h
  · have hw := (wantedClock_floor s d).resolve_left (Nat.ne_of_lt hlt)
    exact .inr (h ▸ (clockBounds_floor hu).trans hw)

/-- A raise in regulation ends at a target within the bounds, or begins again; else the domain moves to the clock it wants. -/
theorem clockStep_floorKept {s t : State} {d : Nat} (hu : s.dieUp d = true) (h : execClockStep (4 + d) s = .next t) :
    FloorKept (4 + d) s t := by
  unfold execClockStep at h
  dsimp only at h
  split at h
  next => exact .inl (by rw [Host.Outcome.next.inj h])
  next =>
    have hc := clock_setDom (s := s) (x := 4 + d) (d := { s.dom (4 + d) with stepTurn := s.pwr.turn }) rfl (4 + d)
    have hu' := (dieUp_setDom s (4 + d) d { s.dom (4 + d) with stepTurn := s.pwr.turn }).trans hu
    generalize s.setDom (4 + d) { s.dom (4 + d) with stepTurn := s.pwr.turn } = u at h hc hu'
    suffices FloorKept (4 + d) u t by rwa [FloorKept, ← hc]
    split at h
    next =>
      split at h
      next =>
        split at h
        next => exact .inl (by rw [← Host.Outcome.next.inj h, clock_raise])
        next hge =>
          right
          rw [← Host.Outcome.next.inj h, dom_setDom_self, dom_bump, clock_setClock_self]
          exact (clockBounds_floor hu').trans (Nat.not_lt.mp hge)
      next =>
        rw [← Host.Outcome.next.inj h]
        split
        · exact floorKept_of_lowered hu' (stepDown_clock ..)
        · exact .inl rfl
    next =>
      rw [← Host.Outcome.next.inj h]
      split
      · exact .inl rfl
      · split
        · exact floorKept_of_lowered hu' (stepDown_clock ..)
        · exact floorKept_of_lowered hu' (moveClock_clock ..)

/-! ### THERMAL_EMERGENCY (Table 15-3) -/

/-- An emergency sets the clock of a Skein only: that of a port die stays. -/
theorem thermalEmergency_clock {s t : State} {x y : Nat} (hy : 4 ≤ y) (h : execThermalEmergency x s = .next t) :
    (t.dom y).clock = (s.dom y).clock := by
  unfold execThermalEmergency at h
  dsimp only at h
  split at h
  next => rw [Host.Outcome.next.inj h]
  next =>
    rw [← Host.Outcome.next.inj h, clock_relevel, dom_suspendFixed, dom_logPower, dom_setPwr_fixedSusp]
    split
    next hx =>
      rw [dom_setClock_ne _ _ _ (by omega), dom_bump]
      exact clock_setDom (by rfl) y
    next =>
      rw [dom_bump]
      exact clock_setDom (by rfl) y

/-- Settles O47: each clock that CLOCK_STEP sets on such a die is at least the lower bound of the die, which holds the floor;
an emergency sets a Skein's clock only. -/
theorem portClockFloor : Obligations.PortClockFloor := by
  unfold Obligations.PortClockFloor
  intro d s t _ hu
  exact ⟨fun h => clockStep_floorKept hu h, fun x h => thermalEmergency_clock (Nat.le_add_right 4 d) h⟩

/-! ### Power states of Stitches (R433, R434) -/

/-- The power state that a code of PWR_STITCH_STATE names. -/
def powerOfCode : Nat → PowerState | 0 => .active | 1 => .retain | _ => .dark

@[simp] theorem tile_setTile_self (s : State) (st : Nat) (x : Stitch) : (s.setTile st x).tile st = x := tabGet_tabPut_self ..

theorem tile_setTile_ne (s : State) (x : Stitch) {st i : Nat} (h : i ≠ st) : (s.setTile st x).tile i = s.tile i :=
  tabGet_tabPut_ne _ _ _ h

theorem tile_loseAcc_ne (s : State) {st i : Nat} (h : i ≠ st) : (s.loseAcc st).tile i = s.tile i := tile_setTile_ne _ _ h

@[simp] theorem tile_clearPad (s : State) (st i : Nat) : (s.clearPad st).tile i = s.tile i := rfl

/-- A move to a power state finds the Stitch there already, or replaces it by one in that state after changes that leave the
other Stitches. -/
theorem setPower_cases (s : State) (st code : Nat) :
    (s.setPower st code = s ∧ (s.tile st).power = powerOfCode code) ∨
    ∃ u x, s.setPower st code = State.setTile u st x ∧ x.power = powerOfCode code ∧ ∀ i, i ≠ st → u.tile i = s.tile i := by
  match code with
  | 0 => exact .inr ⟨s, _, rfl, rfl, fun _ _ => rfl⟩
  | 1 =>
    by_cases h : (s.tile st).power = .retain
    · exact .inl ⟨if_pos h, h⟩
    · exact .inr ⟨s.loseAcc st, _, if_neg h, rfl, fun _ hi => tile_loseAcc_ne s hi⟩
  | n + 2 =>
    by_cases h : (s.tile st).power = .dark
    · exact .inl ⟨if_pos h, h⟩
    · exact .inr ⟨(s.loseAcc st).clearPad st, _, if_neg h, rfl, fun _ hi => tile_loseAcc_ne s hi⟩

theorem power_setPower_self (s : State) (st code : Nat) : ((s.setPower st code).tile st).power = powerOfCode code := by
  rcases setPower_cases s st code with ⟨h, hp⟩ | ⟨u, x, h, hp, -⟩
  · rw [h, hp]
  · rw [h, tile_setTile_self, hp]

theorem tile_setPower_ne (s : State) (code : Nat) {st i : Nat} (hi : i ≠ st) : (s.setPower st code).tile i = s.tile i := by
  rcases setPower_cases s st code with ⟨h, -⟩ | ⟨u, x, h, -, hu⟩
  · rw [h]
  · rw [h, tile_setTile_ne _ _ hi, hu i hi]

/-- Moving a list of Stitches moves each of them, and no other. -/
theorem power_foldl_setPower (sts : List Nat) (code i : Nat) (s : State) :
    ((sts.foldl (fun s st => s.setPower st code) s).tile i).power = if i ∈ sts then powerOfCode code else (s.tile i).power := by
  induction sts generalizing s with
  | nil => simp
  | cons st r ih =>
    rw [List.foldl_cons, ih]
    by_cases hr : i ∈ r
    · simp [hr]
    · by_cases hi : i = st
      · subst hi; simp [hr, power_setPower_self]
      · simp [hr, hi, tile_setPower_ne]

/-! ### The power commands (R437) -/

/-- PWR_ENVELOPE_SET of a value in the grade's range. -/
theorem pwrEnvelopeSet_accepted {o : Origin} {w : Nat} {s : State} {p : Posted} (hw : s.waiting o 0x0A01 [w] = some p)
    (hm : s.MaySend o 0x0A01) (hr : inRange (envRange s.sec.grade).1 (envRange s.sec.grade).2.1 w = true) (ho : s.Owns o resPwr)
    (hb : s.fixedBad s.cfg.vals w = false) :
    ∃ f : State → State, execPwrEnvelopeSet o w s =
        .next (s.concluded p f .ok (fun _ => [uf 8 (max s.pwr.turn s.pwr.granted + 1)])) ∧
      ∀ a : State, (f a).pwr.envelope = some w ∧ (f a).pwr.envFrom = max s.pwr.turn s.pwr.granted + 1 ∧ (f a).mem = a.mem := by
  unfold execPwrEnvelopeSet
  refine ⟨_, update_concluded hw hm ?_, fun a => ⟨rfl, rfl, rfl⟩⟩
  simp [badFld, hr, hb, (show (s.ownChk o resPwr).bad = false from ho)]

/-- PWR_ENVELOPE_SET of a value outside the range: BAD_FIELD comes before the other two refusals (00 R10). -/
theorem pwrEnvelopeSet_refused {o : Origin} {w : Nat} {s : State} {p : Posted} (hw : s.waiting o 0x0A01 [w] = some p)
    (hm : s.MaySend o 0x0A01) (hr : inRange (envRange s.sec.grade).1 (envRange s.sec.grade).2.1 w = false) :
    ∃ off, execPwrEnvelopeSet o w s = .next (s.turnedAway p .badField off) := by
  unfold execPwrEnvelopeSet State.update
  refine ⟨_, command_refused (c := badFld 0 true) hw ?_⟩
  rw [firstRefusal_append_left (markChks_ok hm), hr]
  refine firstRefusal_cons_before rfl fun d hd => ?_
  simp only [List.mem_cons, List.not_mem_nil, or_false] at hd
  rcases hd with rfl | rfl <;> rfl

theorem pwrStatus_concluded {o : Origin} {clear : Nat} {s : State} {p : Posted} (hw : s.waiting o 0x0A02 [clear] = some p)
    (hm : s.MaySend o 0x0A02) (hc : clearOk o clear) :
    execPwrStatus o clear s = .next (s.concluded p (fun a => if clear = 1 then a.setPwr { a.pwr with fixedFlag := false } else a) .ok
      (fun a => listFlds ((List.range 8).map a.domFlds) ++ [uf 1 (a.setting idPolicy 0), uf 1 (b2n a.pwr.fixedFlag)])) :=
  command_concluded hw hm (clearChks_ok hc)

theorem pwrTelemetry_concluded {o : Origin} {s : State} {p : Posted} (hw : s.waiting o 0x0A03 [] = some p)
    (hm : s.MaySend o 0x0A03) :
    execPwrTelemetry o s = .next (s.concluded p (fun a => a) .ok (fun a =>
      listFlds ((List.range 352).map (fun i => [uf 2 (a.telemReading i), uf 1 (b2n (a.reading i).isSome)])) ++
      listFlds ((List.range 8).map (fun x => [uf 2 (a.dom x).readMv, uf 2 (a.dom x).amps, uf 8 ((a.dom x).readAt.getD 0)])))) :=
  query_concluded hw hm (List.forall_mem_nil _)

/-- PWR_STITCH_STATE that nothing refuses: the load of the map is charged, and the Stitches of the map move to the state. -/
theorem pwrStitchState_concluded {o : Origin} {map code : Nat} {s : State} {p : Posted} {sts : List Nat}
    (hw : s.waiting o 0x0A04 [map, code] = some p) (hm : s.MaySend o 0x0A04) (ho : s.Owns o resPwr) (hcode : code ≤ 2)
    (hmap : map + 128 ≤ 2 ^ 37) (hd : s.dramDenied map 128 = false) (hu : s.firstUe (dramKey map) 128 = none)
    (hsts : sts = mapStitches (s.readNat (dramKey map) 128)) (hst : ∀ st ∈ sts, s.absent st = false ∧ s.isRetired st = false)
    (hfree : ∀ st ∈ sts, ∀ x ∈ (s.tile st).slots, x.2.st = .free ∧ x.2.reserved = none)
    (hi : s.mayIssue (map / 2 ^ 35 % 4) clsMgmt = true) :
    execPwrStitchState o map code s = .next (s.concluded p
      (fun a => sts.foldl (fun s st => s.setPower st code) (a.chargeLoad map 128)) .ok (fun _ => [])) := by
  unfold execPwrStitchState
  rw [← hsts]
  refine loading_concluded (f := fun a => sts.foldl (fun s st => s.setPower st code) a) (res := fun _ => []) hw hm ?_ hi hu
  intro c hc
  rcases List.mem_append.mp hc with hc | hc
  · exact addrChks_ok hmap (Nat.mod_one map) hd c hc
  · have habs : ∀ st ∈ sts, s.absent st = false := fun st h => (hst st h).1
    have hret : ∀ st ∈ sts, s.isRetired st = false := fun st h => (hst st h).2
    simp only [List.mem_cons, List.not_mem_nil, or_false] at hc
    rcases hc with rfl | rfl | rfl | rfl | rfl
    · simp [badFld, hcode]
    · exact ho
    · simpa using habs
    · simpa using hret
    · simpa using hfree

/-- Settles O46: with nothing to refuse them the commands conclude with their effects, and a value outside the range is the
refusal that comes first. -/
theorem powerCommands : Obligations.PowerCommands := by
  unfold Obligations.PowerCommands
  refine ⟨?_, ?_, ?_, ?_, ?_⟩
  · intro o w s p hw hm
    exact ⟨pwrEnvelopeSet_accepted hw hm, pwrEnvelopeSet_refused hw hm⟩
  · intro o clear s p hw hm hc
    refine ⟨_, _, pwrStatus_concluded hw hm hc, ?_, ?_, fun a => ⟨_, rfl⟩⟩
    · rintro rfl a; rfl
    · rintro rfl a; rfl
  · intro o s p hw hm
    exact ⟨_, pwrTelemetry_concluded hw hm, fun a => ⟨_, rfl⟩⟩
  · intro o map code s p sts hw hm ho hcode hmap hd hu hsts hst hfree hi
    refine ⟨_, pwrStitchState_concluded hw hm ho hcode hmap hd hu hsts hst hfree hi, fun a st h => ?_⟩
    rw [power_foldl_setPower, if_pos h]
    rcases code with _ | _ | n <;> rfl
  · intro o x clear s p hw hm hx hc
    refine ⟨_, show execPwrCounters o x clear s = _ from command_concluded hw hm ?_⟩
    exact List.forall_mem_cons.mpr ⟨by simp [badFld, hx], clearChks_ok hc⟩

end Sys2Proof.Machine
end

section
/-! SUPPORT. Pip marks, time discipline and barrier ticks (02 R37 to R62). -/

namespace Sys2Proof.Machine

open Sys2Proof

/-! ### Links after an operation of the state -/

@[simp] theorem link_setLink_self (s : State) (lk : Nat) (l : Link) : (s.setLink lk l).link lk = l := tabGet_tabPut_self ..

theorem link_setLink_ne (s : State) (l : Link) {lk i : Nat} (h : i ≠ lk) : (s.setLink lk l).link i = s.link i :=
  tabGet_tabPut_ne _ _ _ h

@[simp] theorem link_setTime (s : State) (x : TimeSt) (lk : Nat) : (s.setTime x).link lk = s.link lk := rfl

@[simp] theorem link_logRaise (s : State) (code c st src tag d lk : Nat) : (s.logRaise code c st src tag d).link lk = s.link lk := rfl

@[simp] theorem time_setLink (s : State) (lk : Nat) (l : Link) : (s.setLink lk l).time = s.time := rfl

@[simp] theorem time_logRaise (s : State) (code c st src tag d : Nat) : (s.logRaise code c st src tag d).time = s.time := rfl

@[simp] theorem time_logExclusion (s : State) (lk : Nat) (x : Bool) (theta : Int) : (s.logExclusion lk x theta).time = s.time := rfl

@[simp] theorem link_logExclusion (s : State) (lk i : Nat) (x : Bool) (theta : Int) :
    (s.logExclusion lk x theta).link i = s.link i := rfl

/-- A change of every entry that leaves the record of an absent link as it is reaches the record of each link. -/
theorem link_setLinks_tabMap (s : State) (f : Link → Link) (hf : f {} = {}) (lk : Nat) :
    (s.setLinks (tabMap s.links (fun _ l => f l))).link lk = f (s.link lk) := by
  unfold State.link tabGet
  rw [setLinks_links, tabGet?_tabMap]
  cases tabGet? s.links lk with
  | none => exact hf.symm
  | some l => rfl

theorem link_profileChanged (s : State) (lk : Nat) :
    s.profileChanged.link lk = if (s.link lk).live then { s.link lk with profDue := true } else s.link lk :=
  link_setLinks_tabMap s (fun l => if l.live then { l with profDue := true } else l) rfl lk

/-! ### What changes nothing outside links, time and log -/

/-- The state without its links, its time and its log. -/
def State.offTime (s : State) : State := { s with links := [], time := {}, log := {} }

theorem eq_of_offTime {s t : State} (h : t.offTime = s.offTime) : t = { s with links := t.links, time := t.time, log := t.log } := by
  cases s; cases t; simpa [State.offTime] using h

@[simp] theorem offTime_setLinks (s : State) (x : Tab Link) : (s.setLinks x).offTime = s.offTime := rfl

@[simp] theorem offTime_setLink (s : State) (lk : Nat) (l : Link) : (s.setLink lk l).offTime = s.offTime := rfl

@[simp] theorem offTime_setTime (s : State) (x : TimeSt) : (s.setTime x).offTime = s.offTime := rfl

@[simp] theorem offTime_logRaise (s : State) (code c st src tag d : Nat) : (s.logRaise code c st src tag d).offTime = s.offTime := rfl

@[simp] theorem offTime_logExclusion (s : State) (lk : Nat) (x : Bool) (theta : Int) :
    (s.logExclusion lk x theta).offTime = s.offTime := rfl

/-! ### The parent, and the note of a change -/

theorem noteTime_cases (s : State) (a : TimeState) (n : Nat) : s.noteTime a n = s ∨ s.noteTime a n = s.profileChanged := by
  unfold State.noteTime
  split
  · exact .inl rfl
  · exact .inr rfl

theorem noteTime_frame (s : State) (a : TimeState) (n : Nat) : ∃ x, s.noteTime a n = s.setLinks x :=
  (noteTime_cases s a n).elim (fun h => ⟨s.links, h⟩) (fun h => ⟨_, h⟩)

@[simp] theorem time_noteTime (s : State) (a : TimeState) (n : Nat) : (s.noteTime a n).time = s.time := by
  obtain ⟨x, h⟩ := noteTime_frame s a n
  rw [h, setLinks_time]

@[simp] theorem log_noteTime (s : State) (a : TimeState) (n : Nat) : (s.noteTime a n).log = s.log := by
  obtain ⟨x, h⟩ := noteTime_frame s a n
  rw [h, setLinks_log]

@[simp] theorem offTime_noteTime (s : State) (a : TimeState) (n : Nat) : (s.noteTime a n).offTime = s.offTime := by
  obtain ⟨x, h⟩ := noteTime_frame s a n
  rw [h, offTime_setLinks]

@[simp] theorem linkTime_noteTime (s : State) (a : TimeState) (n lk : Nat) : ((s.noteTime a n).link lk).time = (s.link lk).time := by
  rcases noteTime_cases s a n with h | h
  · rw [h]
  · rw [h, link_profileChanged]
    split <;> rfl

/-- Choosing the parent again changes at most the parent and the run of samples. -/
theorem reparent_frame (s : State) : ∃ x : TimeSt, x.pip = s.time.pip ∧ x.state = s.time.state ∧ s.reparent = s.setTime x := by
  unfold State.reparent
  split
  · exact ⟨{ s.time with parent := s.chooseParent, lockRun := 0 }, rfl, rfl, rfl⟩
  · exact ⟨s.time, rfl, rfl, rfl⟩

@[simp] theorem link_reparent (s : State) (lk : Nat) : s.reparent.link lk = s.link lk := by
  obtain ⟨x, -, -, h⟩ := reparent_frame s
  rw [h, link_setTime]

@[simp] theorem pip_reparent (s : State) : s.reparent.time.pip = s.time.pip := by
  obtain ⟨x, hp, -, h⟩ := reparent_frame s
  rw [h, setTime_time, hp]

@[simp] theorem timeState_reparent (s : State) : s.reparent.time.state = s.time.state := by
  obtain ⟨x, -, hs, h⟩ := reparent_frame s
  rw [h, setTime_time, hs]

@[simp] theorem offTime_reparent (s : State) : s.reparent.offTime = s.offTime := by
  obtain ⟨x, -, -, h⟩ := reparent_frame s
  rw [h, offTime_setTime]

/-! ### What a received mark sets in its link's record (R43, R44) -/

/-- What a link's record says of the marks received and of the last sample. -/
def LinkTime.sampled (t : LinkTime) : Nat × Option Nat × Nat × Int × Int × Bool × Nat :=
  (t.stratum, t.rxSeq, t.rxStamp, t.theta, t.delay, t.valid, t.age)

@[simp] theorem sampled_judge (t : LinkTime) (tol2 : Nat) (theta : Int) : (t.judge tol2 theta).sampled = t.sampled := by
  unfold LinkTime.judge
  extract_lets big small bad good
  split
  · split <;> rfl
  · split <;> rfl

@[simp] theorem sampled_rewindMarks (s : State) (lk : Nat) : (s.rewindMarks.link lk).time.sampled = (s.link lk).time.sampled := by
  unfold State.rewindMarks State.link tabGet
  rw [setLinks_links, tabGet?_tabMap]
  cases tabGet? s.links lk <;> rfl

/-- Discipline moves the count only by the one step of an UNLOCKED device; else it changes the other fields of time. -/
theorem discipline_cases (s : State) (theta : Int) :
    (s.time.state = .unlocked ∧ ∃ x : TimeSt, s.discipline theta = (s.setTime x).rewindMarks) ∨
    ∃ x : TimeSt, x.pip = s.time.pip ∧
      (s.discipline theta = s.setTime x ∨ s.discipline theta = (s.setTime x).logRaise 0x0202 0 0 s.needle 0 0) := by
  unfold State.discipline
  extract_lets t near run
  split
  · next h =>
    split
    · exact .inl ⟨h, _, rfl⟩
    · split <;> exact .inr ⟨_, by rfl, .inl rfl⟩
  · exact .inr ⟨_, by rfl, .inl rfl⟩
  · split
    · exact .inr ⟨_, by rfl, .inr rfl⟩
    · exact .inr ⟨_, by rfl, .inl rfl⟩

@[simp] theorem sampled_discipline (s : State) (theta : Int) (lk : Nat) :
    ((s.discipline theta).link lk).time.sampled = (s.link lk).time.sampled := by
  rcases discipline_cases s theta with ⟨-, x, h⟩ | ⟨x, -, h | h⟩ <;> rw [h]
  · rw [sampled_rewindMarks, link_setTime]
  · rfl
  · rfl

@[simp] theorem offTime_discipline (s : State) (theta : Int) : (s.discipline theta).offTime = s.offTime := by
  rcases discipline_cases s theta with ⟨-, x, h⟩ | ⟨x, -, h | h⟩ <;> rw [h] <;> rfl

theorem pip_discipline {s : State} (theta : Int) (hs : s.time.state ≠ .unlocked) : (s.discipline theta).time.pip = s.time.pip := by
  rcases discipline_cases s theta with ⟨h, -⟩ | ⟨x, hx, h | h⟩
  · exact absurd h hs
  · rw [h]; exact hx
  · rw [h]; exact hx

/-- The sample that a mark `w` received at link `lk` gives. -/
def State.markSampleOf (s : State) (lk w : Nat) : Option (Int × Int) :=
  sample (s.link lk).time (s.pipOn (linkDie lk)) (bits w 32 24) (bits w 28 4) (bits w 12 16) (s.asym lk)

/-- The record of a link that takes a mark, before what its sample gives. -/
def LinkTime.marked (t : LinkTime) (a4 w : Nat) : LinkTime :=
  { t.noteEcho a4 (bits w 28 4) (bits w 12 16) with rxSeq := some (bits w 56 4), rxStamp := a4, stratum := bits w 8 4 }

@[simp] theorem sampled_marked (t : LinkTime) (a4 w : Nat) :
    (t.marked a4 w).sampled = (bits w 8 4, some (bits w 56 4), a4, t.theta, t.delay, t.valid, t.age) := by
  unfold LinkTime.marked LinkTime.noteEcho
  split <;> rfl

/-- The record of a link that takes a mark with a sample, before it is judged. -/
def LinkTime.taken (t : LinkTime) (a4 w : Nat) (theta d : Int) : LinkTime :=
  { t.marked a4 w with theta := theta, delay := d, valid := true, age := 0 }

/-- The state once a mark with a sample stands in its link's record and the link is judged by it (R50, R51). -/
def State.markJudged (s : State) (lk w : Nat) (theta d : Int) : State :=
  let t := (s.link lk).time.taken (s.pipOn (linkDie lk)) w theta d
  let t' := t.judge (2 * s.setting idPipTol 0) theta
  let s' := s.setLink lk { s.link lk with time := t' }
  if t'.excluded != t.excluded then s'.logExclusion lk t'.excluded theta else s'

theorem sampled_markJudged (s : State) (lk w : Nat) (theta d : Int) :
    ((s.markJudged lk w theta d).link lk).time.sampled =
      (bits w 8 4, some (bits w 56 4), s.pipOn (linkDie lk), theta, d, true, 0) := by
  have h : ((s.link lk).time.taken (s.pipOn (linkDie lk)) w theta d).sampled =
      (bits w 8 4, some (bits w 56 4), s.pipOn (linkDie lk), theta, d, true, 0) := by
    unfold LinkTime.taken LinkTime.marked LinkTime.noteEcho
    split <;> rfl
  unfold State.markJudged
  extract_lets t t' l s'
  have hs : (s'.link lk).time.sampled = t.sampled := by rw [link_setLink_self]; exact sampled_judge ..
  split
  · rw [link_logExclusion, hs, h]
  · rw [hs, h]

@[simp] theorem time_markJudged (s : State) (lk w : Nat) (theta d : Int) : (s.markJudged lk w theta d).time = s.time := by
  unfold State.markJudged; extract_lets t t' l s'; split <;> rfl

@[simp] theorem offTime_markJudged (s : State) (lk w : Nat) (theta d : Int) : (s.markJudged lk w theta d).offTime = s.offTime := by
  unfold State.markJudged; extract_lets t t' l s'; split <;> rfl

/-- The state after a mark without a sample, before a change of state or stratum is noted. -/
def State.unsampled (s : State) (lk w : Nat) : State :=
  let t := (s.link lk).time.marked (s.pipOn (linkDie lk)) w
  (s.setLink lk { s.link lk with time := { t with age := t.age + 1, bad := 0 } }).reparent

theorem receiveMark_of_none {s : State} {lk w : Nat} (h : s.markSampleOf lk w = none) :
    s.receiveMark lk w = (s.unsampled lk w).noteTime s.time.state s.stratum := by
  unfold State.receiveMark
  unfold State.markSampleOf at h
  simp only [h]
  rfl

/-- A mark with a sample disciplines the count where its link is the parent. -/
theorem receiveMark_of_some {s : State} {lk w : Nat} {theta d : Int} (h : s.markSampleOf lk w = some (theta, d)) :
    s.receiveMark lk w = (if (s.markJudged lk w theta d).reparent.timeRole = 1 &&
        decide ((s.markJudged lk w theta d).reparent.time.parent = some lk)
      then (s.markJudged lk w theta d).reparent.discipline theta else (s.markJudged lk w theta d).reparent).noteTime
      s.time.state s.stratum := by
  unfold State.receiveMark
  unfold State.markSampleOf at h
  simp only [h]
  rfl

theorem receiveMark_offTime (s : State) (lk w : Nat) : (s.receiveMark lk w).offTime = s.offTime := by
  cases h : s.markSampleOf lk w with
  | none => rw [receiveMark_of_none h]; simp [State.unsampled]
  | some x =>
    rw [receiveMark_of_some (theta := x.1) (d := x.2) h, offTime_noteTime]
    split <;> simp

/-- The count is moved only while UNLOCKED (R46). -/
theorem receiveMark_pip {s : State} (lk w : Nat) (hs : s.time.state ≠ .unlocked) :
    (s.receiveMark lk w).time.pip = s.time.pip := by
  cases h : s.markSampleOf lk w with
  | none => rw [receiveMark_of_none h]; simp [State.unsampled]
  | some x =>
    rw [receiveMark_of_some (theta := x.1) (d := x.2) h, time_noteTime]
    split
    · rw [pip_discipline _ (by simpa using hs)]; simp
    · simp

theorem receiveMark_unsampled {s : State} {lk w : Nat} (h : s.markSampleOf lk w = none) :
    ((s.receiveMark lk w).link lk).time.sampled = (bits w 8 4, some (bits w 56 4), s.pipOn (linkDie lk),
        (s.link lk).time.theta, (s.link lk).time.delay, (s.link lk).time.valid, (s.link lk).time.age + 1) := by
  have hm := sampled_marked (s.link lk).time (s.pipOn (linkDie lk)) w
  simp only [LinkTime.sampled, Prod.mk.injEq] at hm
  rw [receiveMark_of_none h]
  simp [State.unsampled, LinkTime.sampled, hm]

theorem receiveMark_sampled {s : State} {lk w : Nat} {theta d : Int} (h : s.markSampleOf lk w = some (theta, d)) :
    ((s.receiveMark lk w).link lk).time.sampled =
      (bits w 8 4, some (bits w 56 4), s.pipOn (linkDie lk), theta, d, true, 0) := by
  rw [receiveMark_of_some h, linkTime_noteTime, ← sampled_markJudged]
  split <;> simp

/-- A mark is noted with or without a sample. -/
theorem receiveMark_noted (s : State) (lk w : Nat) :
    ((s.receiveMark lk w).link lk).time.stratum = bits w 8 4 ∧
      ((s.receiveMark lk w).link lk).time.rxSeq = some (bits w 56 4) ∧
      ((s.receiveMark lk w).link lk).time.rxStamp = s.pipOn (linkDie lk) := by
  cases h : s.markSampleOf lk w with
  | none =>
    have ht := receiveMark_unsampled h
    simp only [LinkTime.sampled, Prod.mk.injEq] at ht
    obtain ⟨hstratum, hseq, hstamp, -⟩ := ht
    exact ⟨hstratum, hseq, hstamp⟩
  | some x =>
    have ht := receiveMark_sampled (theta := x.1) (d := x.2) h
    simp only [LinkTime.sampled, Prod.mk.injEq] at ht
    obtain ⟨hstratum, hseq, hstamp, -⟩ := ht
    exact ⟨hstratum, hseq, hstamp⟩

/-- A mark without a sample leaves the link's last sample, the count and the time state. -/
theorem receiveMark_discarded {s : State} {lk w : Nat} (h : s.markSampleOf lk w = none) :
    ((s.receiveMark lk w).link lk).time.theta = (s.link lk).time.theta ∧
      ((s.receiveMark lk w).link lk).time.delay = (s.link lk).time.delay ∧
      (s.receiveMark lk w).time.pip = s.time.pip ∧ (s.receiveMark lk w).time.state = s.time.state := by
  have ht := receiveMark_unsampled h
  simp only [LinkTime.sampled, Prod.mk.injEq] at ht
  obtain ⟨-, -, -, htheta, hdelay, -, -⟩ := ht
  refine ⟨htheta, hdelay, ?_, ?_⟩ <;> rw [receiveMark_of_none h] <;> simp [State.unsampled]

/-! ### PIP_MARK -/

/-- A sound tick of its kind on a live and delineated link has its effect. -/
theorem tickRow_next {s : State} {lk : Nat} {w : BitVec 64} {ok : Bool} {f : State → State} (hl : (s.link lk).live = true)
    (hd : (s.link lk).delin = true) (hw : tickGood w = true) (hk : ok = true) : s.tickRow lk w ok f = .next (f s) := by
  simp [State.tickRow, hl, hd, hw, hk]

/-- When a mark gives a sample, and which (R43, R44). -/
theorem sample_eq (t : LinkTime) (a4 tx echo res : Nat) (asym : Int) :
    sample t a4 tx echo res asym = match tabGet? t.txStamps echo with
      | none => none
      | some k =>
        if t.stale a4 echo ∨ k / 1024 + 15 < a4 / 1024 ∨ res = 0xFFFF ∨ (a4 : Int) - k - res + asym < 0 ∨
          14000 < (a4 : Int) - k - res + asym then none
        else some (2 * (nearest24 tx a4 - a4) + ((a4 : Int) - k - res), (a4 : Int) - k - res + asym) := by
  unfold sample
  cases tabGet? t.txStamps echo with
  | none => rfl
  | some k =>
    simp only [gt_iff_lt]
    by_cases h : t.stale a4 echo ∨ k / 1024 + 15 < a4 / 1024
    · rw [if_pos h, if_pos (by tauto)]
    · rw [if_neg h]
      exact if_congr (by tauto) rfl rfl

theorem exec_pipMark {s : State} {lk : Nat} {w : BitVec 64} (hl : (s.link lk).live = true) (hd : (s.link lk).delin = true)
    (hw : tickGood w = true) (hk : tickLead w = 14) : exec (.pipMark lk w) s = .next (s.receiveMark lk w.toNat) :=
  tickRow_next (f := fun s => s.receiveMark lk w.toNat) hl hd hw (decide_eq_true hk)

/-- Settles O1: the mark's sample decides what the link's record takes, and neither the choice of the parent nor the discipline
changes that record. -/
theorem pipMarkSample : Obligations.PipMarkSample := by
  unfold Obligations.PipMarkSample
  intro lk a4 w s ha hl hd hw hk
  subst ha
  have hs : s.markSampleOf lk w.toNat = _ := sample_eq (s.link lk).time (s.pipOn (linkDie lk)) (bits w.toNat 32 24)
    (bits w.toNat 28 4) (bits w.toNat 12 16) (s.asym lk)
  obtain ⟨hstratum, hseq, hstamp⟩ := receiveMark_noted s lk w.toNat
  refine ⟨_, exec_pipMark hl hd hw hk, hstratum, hseq, hstamp, ?_, ?_, receiveMark_pip lk w.toNat,
    eq_of_offTime (receiveMark_offTime s lk w.toNat)⟩
  · intro a1 d k hsent ha1 hd1
    subst ha1
    subst hd1
    simp only [hsent] at hs
    constructor
    · rintro ⟨hfresh, hage, hres, hlo, hhi⟩
      rw [if_neg (by simp only [hfresh, Bool.false_eq_true, false_or]; omega)] at hs
      have ht := receiveMark_sampled hs
      simp only [LinkTime.sampled, Prod.mk.injEq] at ht
      obtain ⟨-, -, -, ht⟩ := ht
      exact ht
    · intro hbad
      exact receiveMark_discarded (hs.trans (if_pos hbad))
  · intro hsent
    simp only [hsent] at hs
    exact receiveMark_discarded hs

end Sys2Proof.Machine
end

section
/-! SUPPORT. PIP_MARK_SEND (02 R41, R42; 03 R89). -/

namespace Sys2Proof.Machine

open Sys2Proof

/-! ### Folds over the state -/

/-- What no step of a fold changes, the fold leaves. -/
theorem foldl_view {α β σ : Type} (v : σ → β) {f : σ → α → σ} (hf : ∀ s a, v (f s a) = v s) (l : List α) (s : σ) :
    v (l.foldl f s) = v s := by
  induction l generalizing s with
  | nil => rfl
  | cons a r ih => rw [List.foldl_cons, ih, hf]

/-! ### Ticks that are pending (R89) -/

theorem mem_queueTick {l : List (Nat × BitVec 64)} {p : Nat} {w : BitVec 64} {x : Nat × BitVec 64} :
    x ∈ queueTick l p w ↔ x = (p, w) ∨ x ∈ l := by
  induction l with
  | nil => simp [queueTick]
  | cons q r ih =>
    simp only [queueTick]
    split
    · simp
    · simp only [List.mem_cons, ih]; tauto

@[simp] theorem mem_post {l : Link} {p : Nat} {w : BitVec 64} {x : Nat × BitVec 64} :
    x ∈ (l.post p w).ticks ↔ x = (p, w) ∨ x ∈ l.ticks := mem_queueTick

@[simp] theorem time_post (l : Link) (p : Nat) (w : BitVec 64) : (l.post p w).time = l.time := rfl

theorem time_foldl_post (p : Nat) (ws : List (BitVec 64)) (l : Link) : (ws.foldl (fun l w => l.post p w) l).time = l.time :=
  foldl_view Link.time (fun l w => time_post l p w) ws l

/-- Ticks made pending leave those that are. -/
theorem mem_foldl_post (p : Nat) (ws : List (BitVec 64)) {l : Link} {x : Nat × BitVec 64} (h : x ∈ l.ticks) :
    x ∈ (ws.foldl (fun l w => l.post p w) l).ticks := by
  induction ws generalizing l with
  | nil => exact h
  | cons w r ih => exact ih (mem_post.mpr (.inr h))

/-! ### What changes nothing outside links, buffers, output and free values -/

/-- The state without its links, buffers, output and count of free values. -/
def State.offMark (s : State) : State := { s with links := [], buf := {}, out := [], free := 0 }

theorem eq_of_offMark {s t : State} (h : t.offMark = s.offMark) :
    t = { s with links := t.links, buf := t.buf, out := t.out, free := t.free } := by
  cases s; cases t; simpa [State.offMark] using h

@[simp] theorem offMark_setLink (s : State) (lk : Nat) (l : Link) : (s.setLink lk l).offMark = s.offMark := rfl

@[simp] theorem offMark_setAcct (s : State) (a : Nat) (x : Acct) : (s.setAcct a x).offMark = s.offMark := rfl

@[simp] theorem offMark_sendTick (s : State) (lk : Nat) (w : BitVec 64) : (s.sendTick lk w).offMark = s.offMark := rfl

@[simp] theorem link_setAcct (s : State) (a : Nat) (x : Acct) (lk : Nat) : (s.setAcct a x).link lk = s.link lk := rfl

/-! ### The ticks that go with a mark -/

/-- The record of a link with the CREDIT ticks of a list of VCs pending. -/
theorem link_postCredits (s : State) (lk : Nat) (vcs : List Nat) :
    (s.postCredits lk vcs).link lk = (s.creditTicks lk vcs).foldl (fun l w => l.post prioCredit w) (s.link lk) := by
  unfold State.postCredits
  exact (foldl_view (fun s : State => s.link lk) (fun _ _ => link_setAcct ..) vcs _).trans (link_setLink_self ..)

@[simp] theorem offMark_postCredits (s : State) (lk : Nat) (vcs : List Nat) : (s.postCredits lk vcs).offMark = s.offMark := by
  unfold State.postCredits
  exact (foldl_view State.offMark (fun _ _ => offMark_setAcct ..) vcs _).trans (offMark_setLink ..)

/-- The record of a link with the DONE that still repeats pending (R107). -/
def Link.postDone (l : Link) : Link :=
  match l.rx.moved with
  | some k => if l.doneRepeats > 0 then { l.post prioSwap (swapWord 2 k false) with doneRepeats := l.doneRepeats - 1 } else l
  | none => l

theorem time_postDone (l : Link) : l.postDone.time = l.time := by
  unfold Link.postDone
  split
  · split <;> rfl
  · rfl

theorem mem_postDone {l : Link} {x : Nat × BitVec 64} (h : x ∈ l.ticks) : x ∈ l.postDone.ticks := by
  unfold Link.postDone
  split
  · split
    · exact mem_post.mpr (.inr h)
    · exact h
  · exact h

/-- The state with DONE and the barrier bits pending on a link. -/
def State.postBits (s : State) (lk : Nat) : State :=
  s.setLink lk ((s.barrierTicks lk).foldl (fun l w => l.post prioBarrier w) (s.link lk).postDone)

theorem markCompanions_eq (s : State) (lk : Nat) :
    s.markCompanions lk = (s.postBits lk).postCredits lk ((s.postBits lk).creditVcs lk) := rfl

theorem time_markCompanions (s : State) (lk : Nat) : ((s.markCompanions lk).link lk).time = (s.link lk).time := by
  rw [markCompanions_eq, link_postCredits, time_foldl_post]
  unfold State.postBits
  rw [link_setLink_self, time_foldl_post, time_postDone]

theorem mem_markCompanions {s : State} {lk : Nat} {x : Nat × BitVec 64} (h : x ∈ (s.link lk).ticks) :
    x ∈ ((s.markCompanions lk).link lk).ticks := by
  rw [markCompanions_eq, link_postCredits]
  unfold State.postBits
  rw [link_setLink_self]
  exact mem_foldl_post _ _ (mem_foldl_post _ _ (mem_postDone h))

@[simp] theorem offMark_markCompanions (s : State) (lk : Nat) : (s.markCompanions lk).offMark = s.offMark := by
  rw [markCompanions_eq, offMark_postCredits]; rfl

/-! ### Every pending tick goes out -/

/-- Ticks sent one after another. -/
theorem foldl_sendTick (lk : Nat) (ts : List (Nat × BitVec 64)) (s : State) :
    (ts.foldl (fun s t => s.sendTick lk t.2) s).out = s.out ++ ts.map (fun t => .tick lk t.2) := by
  induction ts generalizing s with
  | nil => simp
  | cons t r ih =>
    rw [List.foldl_cons, ih, List.map_cons, ← List.singleton_append, ← List.append_assoc]; rfl

theorem link_sendTick (s : State) (lk : Nat) (w : BitVec 64) :
    (s.sendTick lk w).link lk = { s.link lk with sent := (s.link lk).sent ++ [1] } := link_setLink_self ..

theorem flush_out (s : State) (lk : Nat) : (s.flush lk).out = s.out ++ (s.link lk).ticks.map (fun t => .tick lk t.2) :=
  foldl_sendTick lk (s.link lk).ticks _

theorem flush_ticks (s : State) (lk : Nat) : ((s.flush lk).link lk).ticks = [] := by
  unfold State.flush
  refine (foldl_view (fun s : State => (s.link lk).ticks) (fun s t => ?_) _ _).trans ?_
  · rw [link_sendTick]
  · rw [link_setLink_self]

theorem flush_time (s : State) (lk : Nat) : ((s.flush lk).link lk).time = (s.link lk).time := by
  unfold State.flush
  refine (foldl_view (fun s : State => (s.link lk).time) (fun s t => ?_) _ _).trans ?_
  · rw [link_sendTick]
  · rw [link_setLink_self]

@[simp] theorem offMark_flush (s : State) (lk : Nat) : (s.flush lk).offMark = s.offMark := by
  unfold State.flush
  exact (foldl_view State.offMark (fun _ _ => offMark_sendTick ..) _ _).trans (offMark_setLink ..)

/-! ### PIP_MARK_SEND -/

/-- The record of a link's marks once one more is sent, at multiple `no` and stamp `a1` (R41, R42). -/
def LinkTime.sentMark (t : LinkTime) (no a1 : Nat) : LinkTime :=
  { t with markSeq := (t.markSeq + 1) % 16, sent := t.sent + 1, markNo := no, txStamps := tabPut t.txStamps (t.markSeq % 16) a1 }

/-- The mark that goes out on a link, with the number `x` for a residence that is free (Table 02-2). -/
def State.nextMark (s : State) (lk x : Nat) : BitVec 64 :=
  markWord (s.link lk).time.markSeq (s.pipOn (linkDie lk)) ((s.link lk).time.rxSeq.getD 0)
    (residence (s.pipOn (linkDie lk)) (s.link lk).time x) s.stratum

/-- The state with a link's mark pending, and recorded as sent. -/
def State.postMark (s : State) (lk x : Nat) : State :=
  s.setLink lk ({ s.link lk with
    time := (s.link lk).time.sentMark (s.time.pip / 1024) (s.pipOn (linkDie lk)) }.post prioMark (s.nextMark lk x))

@[simp] theorem link_postMark (s : State) (lk x : Nat) :
    (s.postMark lk x).link lk = { s.link lk with
      time := (s.link lk).time.sentMark (s.time.pip / 1024) (s.pipOn (linkDie lk)) }.post prioMark (s.nextMark lk x) :=
  link_setLink_self ..

/-- A mark is put among the pending ticks, and all go. -/
theorem exec_pipMarkSend {s : State} {lk : Nat} (hs : (s.link lk).sends = true)
    (hm : (s.link lk).time.markNo < s.time.pip / 1024) :
    ∃ x n, exec (.pipMarkSend lk) s = .next ((((s.setFree n).postMark lk x).markCompanions lk).flush lk) := by
  show ∃ x n, execPipMarkSend lk s = _
  unfold execPipMarkSend
  rw [if_neg (by simp [hs, hm])]
  cases hc : (s.link lk).time.rxSeq.isSome && decide (s.pipOn (linkDie lk) < (s.link lk).time.rxStamp) with
  | true => exact ⟨Config.freeNat s.free, s.free + 1, by simp only [hc]; rfl⟩
  | false => exact ⟨0, s.free, by simp only [hc]; rfl⟩

theorem exec_pipMarkSend_idle {s : State} {lk : Nat} (h : s.time.pip / 1024 ≤ (s.link lk).time.markNo ∨ (s.link lk).sends = false) :
    exec (.pipMarkSend lk) s = .next s := by
  show execPipMarkSend lk s = _
  unfold execPipMarkSend
  exact if_pos (by simpa [or_comm] using h)

/-- Settles O2: the mark is among the ticks that the flush sends, and neither its companions nor the flush touch the record of marks. -/
theorem pipMarkSent : Obligations.PipMarkSent := by
  unfold Obligations.PipMarkSent
  refine ⟨fun lk a1 s ha hs hm => ?_, fun lk s h => exec_pipMarkSend_idle h⟩
  subst ha
  obtain ⟨x, n, he⟩ := exec_pipMarkSend hs hm
  have hmark : (prioMark, s.nextMark lk x) ∈ (((s.setFree n).postMark lk x).link lk).ticks := by
    rw [link_postMark]; exact mem_post.mpr (.inl rfl)
  refine ⟨_, he, ⟨x, ?_⟩, flush_ticks .., ?_, ?_, ?_, eq_of_offMark ?_⟩
  · rw [flush_out]
    exact List.mem_append_right _ (List.mem_map.mpr ⟨_, mem_markCompanions hmark, rfl⟩)
  · rw [flush_time, time_markCompanions, link_postMark]; rfl
  · rw [flush_time, time_markCompanions, link_postMark]; rfl
  · rw [flush_time, time_markCompanions, link_postMark]
    exact tabGet?_tabPut_self ..
  · rw [offMark_flush, offMark_markCompanions]; rfl

end Sys2Proof.Machine
end

section
/-! SUPPORT. HOLDOVER and barrier ticks (02 R48, R50, R56, R57, R59). -/

namespace Sys2Proof.Machine

open Sys2Proof

/-! ### HOLDOVER_ENTER -/

theorem chooseParent_eq_none {s : State} (h : ∀ lk ∈ s.linkNums, s.eligible lk = false) : s.chooseParent = none := by
  have hf : s.linkNums.filter s.eligible = [] := List.filter_eq_nil_iff.mpr fun lk hlk => by simp [h lk hlk]
  rw [State.chooseParent, hf]; rfl

/-- The state in HOLDOVER, the change logged (R48). -/
def State.heldOver (s : State) : State :=
  (s.setTime { s.time with state := .holdover, parent := none, lockRun := 0 }).logRaise 0x0202 0 0 s.needle 0 1

theorem exec_holdoverEnter {s : State} (hr : s.timeRole = 1) (hl : s.time.state = .locked) (hc : s.chooseParent = none) :
    exec .holdoverEnter s = .next (s.heldOver.noteTime s.time.state s.stratum) := by
  show execHoldoverEnter s = _
  unfold execHoldoverEnter
  exact if_pos (by simp [hr, hl, hc])

theorem holdoverEntered {s : State} (hr : s.timeRole = 1) (hl : s.time.state = .locked)
    (he : ∀ lk ∈ s.linkNums, s.eligible lk = false) :
    ∃ t : State, exec .holdoverEnter s = .next t ∧ t.time.state = .holdover ∧ t.time.pip = s.time.pip ∧
      t.time.parent = none ∧ (∃ e ∈ t.log.raised, e.code = 0x0202 ∧ e.stamp = s.time.pip) ∧
      t = { s with time := t.time, log := t.log, links := t.links } := by
  refine ⟨_, exec_holdoverEnter hr hl (chooseParent_eq_none he), ?_, ?_, ?_, ?_, eq_of_offTime ?_⟩
  · rw [time_noteTime]; rfl
  · rw [time_noteTime]; rfl
  · rw [time_noteTime]; rfl
  · rw [log_noteTime]
    exact ⟨_, List.mem_append_right _ (List.mem_singleton.mpr rfl), rfl, rfl⟩
  · rw [offTime_noteTime]; rfl

/-! ### The bits of a barrier slot -/

theorem hear_kids (b : BarrierSlot) (lk pip : Nat) (arrive go : Bool) :
    (b.hear lk pip arrive go).kids = b.kids.map (fun k => if k.1 = lk then (lk, arrive) else k) := by
  unfold BarrierSlot.hear
  extract_lets b'
  split
  · rfl
  · split
    · split <;> rfl
    · split <;> rfl

/-- The phase of go from the parent starts the go of a busy slot that has none. -/
theorem hear_go {b : BarrierSlot} {lk pip : Nat} {arrive go : Bool} (hb : b.busy = true) (hp : b.parent = some lk)
    (hg : go = b.phase) (hn : b.goAt = none) :
    b.hear lk pip arrive go =
      { b with kids := b.kids.map (fun k => if k.1 = lk then (lk, arrive) else k), go := true, goAt := some pip } := by
  simp [BarrierSlot.hear, hb, hp, hg, hn]

/-- The stamp of go stays unless a busy slot hears the phase from its parent. -/
theorem hear_goAt {b : BarrierSlot} {lk pip : Nat} {arrive go : Bool} (h : b.parent ≠ some lk ∨ b.busy = false ∨ go ≠ b.phase) :
    (b.hear lk pip arrive go).goAt = b.goAt := by
  unfold BarrierSlot.hear
  extract_lets b'
  split
  · rfl
  · next hp =>
    split
    · split <;> rfl
    · next hb =>
      rw [if_neg]
      have hgo : go ≠ b.phase := (h.resolve_left (fun h => h (not_not.mp hp))).resolve_left (fun h => hb (by simp [b', h]))
      simp [b', hgo]

/-- A slot that no launch uses, once quiet, shows the go bit of its parent as both of its own. -/
theorem hear_quiet {b : BarrierSlot} {lk pip : Nat} {arrive go : Bool} (hp : b.parent = some lk) (hb : b.busy = false)
    (hq : b.quiet ≤ pip) : (b.hear lk pip arrive go).goBit = go ∧ (b.hear lk pip arrive go).arriveBit = go := by
  have h : b.hear lk pip arrive go =
      { b with kids := b.kids.map (fun k => if k.1 = lk then (lk, arrive) else k), phase := go, arrived := true, go := true } := by
    simp [BarrierSlot.hear, hp, hb, Nat.not_lt.mpr hq]
  rw [h]
  cases go <;> exact ⟨rfl, rfl⟩

/-! ### Posting the bits of a slot -/

@[simp] theorem offTime_postBarrier (s : State) (lk slot : Nat) (b : BarrierSlot) : (s.postBarrier lk slot b).offTime = s.offTime := by
  unfold State.postBarrier; split <;> rfl

@[simp] theorem time_postBarrier (s : State) (lk slot : Nat) (b : BarrierSlot) : (s.postBarrier lk slot b).time = s.time := by
  unfold State.postBarrier; split <;> rfl

@[simp] theorem log_postBarrier (s : State) (lk slot : Nat) (b : BarrierSlot) : (s.postBarrier lk slot b).log = s.log := by
  unfold State.postBarrier; split <;> rfl

/-- Posting on a link leaves the other links, and adds at most the slot's tick to that one. -/
theorem link_postBarrier (s : State) (lk slot : Nat) (b : BarrierSlot) (i : Nat) :
    (s.postBarrier lk slot b).link i =
      if i = lk ∧ (s.link lk).time.excluded = false then (s.link lk).post prioBarrier (b.word slot) else s.link i := by
  unfold State.postBarrier
  by_cases hx : (s.link lk).time.excluded
  · simp [hx]
  · by_cases hi : i = lk
    · subst hi; simp [hx]
    · simp [hx, hi, link_setLink_ne]

@[simp] theorem linkTime_postBarrier (s : State) (lk slot : Nat) (b : BarrierSlot) (i : Nat) :
    ((s.postBarrier lk slot b).link i).time = (s.link i).time := by
  rw [link_postBarrier]
  split
  · next h => rw [h.1, time_post]
  · rfl

/-- A tick that is pending stays so when a slot is posted. -/
theorem mem_ticks_postBarrier {s : State} {lk slot : Nat} {b : BarrierSlot} {i : Nat} {q : Nat × BitVec 64}
    (h : q ∈ (s.link i).ticks) : q ∈ ((s.postBarrier lk slot b).link i).ticks := by
  rw [link_postBarrier]
  split
  · next hi => rw [hi.1] at h; exact mem_post.mpr (.inr h)
  · exact h

theorem mem_ticks_postBarrier_self {s : State} {lk slot : Nat} {b : BarrierSlot} (h : (s.link lk).time.excluded = false) :
    (prioBarrier, b.word slot) ∈ ((s.postBarrier lk slot b).link lk).ticks := by
  rw [link_postBarrier, if_pos ⟨rfl, h⟩]
  exact mem_post.mpr (.inl rfl)

/-- A slot posted on a list of links. -/
def State.postBarriers (s : State) (slot : Nat) (b : BarrierSlot) (lks : List Nat) : State :=
  lks.foldl (fun s lk => s.postBarrier lk slot b) s

theorem mem_ticks_postBarriers {slot : Nat} {b : BarrierSlot} {i : Nat} {q : Nat × BitVec 64} (lks : List Nat) {s : State}
    (h : q ∈ (s.link i).ticks) : q ∈ ((s.postBarriers slot b lks).link i).ticks := by
  induction lks generalizing s with
  | nil => exact h
  | cons lk r ih => exact ih (mem_ticks_postBarrier h)

/-- A slot posted on a list of links goes out on each of them that is not excluded. -/
theorem mem_ticks_postBarriers_self {slot : Nat} {b : BarrierSlot} {lk : Nat} {lks : List Nat} {s : State} (hlk : lk ∈ lks)
    (h : (s.link lk).time.excluded = false) : (prioBarrier, b.word slot) ∈ ((s.postBarriers slot b lks).link lk).ticks := by
  induction lks generalizing s with
  | nil => simp at hlk
  | cons i r ih =>
    by_cases hi : lk = i
    · subst hi; exact mem_ticks_postBarriers r (mem_ticks_postBarrier_self h)
    · exact ih (List.mem_of_ne_of_mem hi hlk) (by rw [linkTime_postBarrier]; exact h)

@[simp] theorem offTime_postBarriers (s : State) (slot : Nat) (b : BarrierSlot) (lks : List Nat) :
    (s.postBarriers slot b lks).offTime = s.offTime := foldl_view State.offTime (fun _ _ => offTime_postBarrier ..) lks s

@[simp] theorem time_postBarriers (s : State) (slot : Nat) (b : BarrierSlot) (lks : List Nat) :
    (s.postBarriers slot b lks).time = s.time := foldl_view State.time (fun _ _ => time_postBarrier ..) lks s

@[simp] theorem log_postBarriers (s : State) (slot : Nat) (b : BarrierSlot) (lks : List Nat) :
    (s.postBarriers slot b lks).log = s.log := foldl_view State.log (fun _ _ => log_postBarrier ..) lks s

/-- The links on which a change of a slot's bits goes out (R56): the parent's for the arrive bit, the children's for the go bit. -/
def BarrierSlot.told (old new : BarrierSlot) : List Nat :=
  (if old.arriveBit != new.arriveBit then new.parent.toList else []) ++
    (if old.goBit != new.goBit then new.kids.map (·.1) else [])

/-- A change of a slot sets the slot, and posts it. -/
theorem setBarrier_eq (s : State) (slot : Nat) (old new : BarrierSlot) :
    s.setBarrier slot old new =
      (s.setTime { s.time with slots := tabPut s.time.slots slot new }).postBarriers slot new (old.told new) := by
  unfold State.setBarrier State.postChanges State.postBarriers BarrierSlot.told
  rw [List.foldl_append]
  split <;> split <;> simp [List.foldl_map]

theorem offTime_setBarrier (s : State) (slot : Nat) (old new : BarrierSlot) : (s.setBarrier slot old new).offTime = s.offTime := by
  rw [setBarrier_eq, offTime_postBarriers, offTime_setTime]

theorem time_setBarrier (s : State) (slot : Nat) (old new : BarrierSlot) :
    (s.setBarrier slot old new).time = { s.time with slots := tabPut s.time.slots slot new } := by
  rw [setBarrier_eq, time_postBarriers, setTime_time]

theorem log_setBarrier (s : State) (slot : Nat) (old new : BarrierSlot) : (s.setBarrier slot old new).log = s.log := by
  rw [setBarrier_eq, log_postBarriers]; rfl

theorem setBarrier_frame (s : State) (slot : Nat) (old new : BarrierSlot) :
    s.setBarrier slot old new = { s with time := (s.setBarrier slot old new).time, links := (s.setBarrier slot old new).links } := by
  have h := eq_of_offTime (offTime_setBarrier s slot old new)
  rwa [log_setBarrier] at h

/-- A change goes out on each link told of it that is not excluded. -/
theorem mem_ticks_setBarrier {s : State} {slot lk : Nat} {old new : BarrierSlot} (hlk : lk ∈ old.told new)
    (h : (s.link lk).time.excluded = false) : (prioBarrier, new.word slot) ∈ ((s.setBarrier slot old new).link lk).ticks := by
  rw [setBarrier_eq]
  exact mem_ticks_postBarriers_self hlk h

/-! ### BARRIER -/

/-- The go bit that a slot takes of a tick: a go that comes at the member's limit or later counts for nothing (R52, R59). -/
def State.heardGo (s : State) (b : BarrierSlot) (w : Nat) : Bool := if b.busy && s.goLate b then !b.phase else bit w 51

/-- The slot after a barrier tick from a link. -/
def State.heard (s : State) (b : BarrierSlot) (lk w : Nat) : BarrierSlot := b.hear lk s.time.pip (bit w 52) (s.heardGo b w)

theorem tickGood_of_tickIs {w : BitVec 64} {kind : Nat} (h : tickIs w kind = true) : tickGood w = true := by
  simp only [tickIs, Bool.and_eq_true] at h
  obtain ⟨⟨hgood, -⟩, -⟩ := h
  exact hgood

section
variable {lk : Nat} {w : BitVec 64} {s : State} (hl : (s.link lk).live = true) (hd : (s.link lk).delin = true)
  (hw : tickIs w 6 = true)
include hl hd hw

theorem exec_barrier {b : BarrierSlot} (hb : tabGet? s.time.slots (bits w.toNat 53 3) = some b)
    (hx : (s.link lk).time.excluded = false) :
    exec (.barrier lk w) s = .next (s.setBarrier (bits w.toNat 53 3) b (s.heard b lk w.toNat)) := by
  show execBarrier lk w s = _
  unfold execBarrier
  rw [tickRow_next hl hd (tickGood_of_tickIs hw) hw]
  simp only [hb, hx]
  rfl

theorem exec_barrier_excluded (hx : (s.link lk).time.excluded = true) : exec (.barrier lk w) s = .next s := by
  show execBarrier lk w s = _
  unfold execBarrier
  rw [tickRow_next hl hd (tickGood_of_tickIs hw) hw]
  simp only [hx, if_true]
  split <;> rfl

end

/-- Settles O3: what the slot hears decides its new bits, and the bits that change are posted. -/
theorem holdoverAndBarrierTicks : Obligations.HoldoverAndBarrierTicks := by
  unfold Obligations.HoldoverAndBarrierTicks
  refine ⟨fun s => holdoverEntered, fun lk w s b hl hd hw hb hx => ?_, fun lk w s hl hd hw => exec_barrier_excluded hl hd hw⟩
  refine ⟨_, s.heard b lk w.toNat, exec_barrier hl hd hw hb hx, ?_, hear_kids .., ?_, ?_, ?_, setBarrier_frame ..⟩
  · rw [time_setBarrier]; exact tabGet?_tabPut_self ..
  · rintro ⟨hbusy, hp, hphase, hgo, hat, hlate⟩
    have hh : s.heard b lk w.toNat = _ := hear_go hbusy hp (by simp [State.heardGo, hlate, hphase]) hat
    refine ⟨by rw [hh], fun c hc hcx => ⟨_, mem_ticks_setBarrier ?_ hcx, rfl, ?_⟩⟩
    · rw [hh]
      refine List.mem_append_right _ ?_
      rw [if_pos (by cases hf : b.phase <;> simp [BarrierSlot.goBit, hgo, hf])]
      refine List.mem_map.mpr ⟨_, List.mem_map_of_mem hc, ?_⟩
      split
      · next h => exact h.symm
      · rfl
    · rw [hh]; exact Bool.true_beq _
  · rintro (hp | hbusy | hlate)
    · exact hear_goAt (.inl hp)
    · exact hear_goAt (.inr (.inl hbusy))
    · cases hbusy : b.busy with
      | false => exact hear_goAt (.inr (.inl hbusy))
      | true => exact hear_goAt (.inr (.inr (by simp [State.heardGo, hbusy, hlate])))
  · intro hp hbusy hq
    have hg : s.heardGo b w.toNat = bit w.toNat 51 := by simp [State.heardGo, hbusy]
    unfold State.heard
    rw [hg]
    exact hear_quiet hp hbusy hq

end Sys2Proof.Machine
end

section
/-! SUPPORT. What the switch core, the answers to commands and the reduction of slices leave unchanged. -/

namespace Sys2Proof.Machine

open Sys2Proof

/-! ### The core of the state -/

/-- The state without what frames, answers, counters, queues of units and reset jobs change: security, pins, time, claims, settings,
sideband, descriptors, layers, Patterns and launches, memory and the queue of commands stay. -/
def State.core (s : State) : State :=
  { s with boot := {}, host := {}, log := {}, links := [], buf := {}, route := {}, traf := {}, tiles := [], coll := [], exp := {},
           upd := {}, lad := {}, pwr := {}, integ := {}, mismatch := [], cnt := [], out := [] }

section
variable (s : State)

@[simp] theorem core_setBoot (x : BootSt) : (s.setBoot x).core = s.core := rfl
@[simp] theorem core_setHost (x : HostSt) : (s.setHost x).core = s.core := rfl
@[simp] theorem core_setLog (x : LogSt) : (s.setLog x).core = s.core := rfl
@[simp] theorem core_setLinks (x : Tab Link) : (s.setLinks x).core = s.core := rfl
@[simp] theorem core_setBuf (x : BufSt) : (s.setBuf x).core = s.core := rfl
@[simp] theorem core_setRoute (x : RouteSt) : (s.setRoute x).core = s.core := rfl
@[simp] theorem core_setTraf (x : TrafSt) : (s.setTraf x).core = s.core := rfl
@[simp] theorem core_setTiles (x : Tab Stitch) : (s.setTiles x).core = s.core := rfl
@[simp] theorem core_setColl (x : Tab Group) : (s.setColl x).core = s.core := rfl
@[simp] theorem core_setExp (x : ExpSt) : (s.setExp x).core = s.core := rfl
@[simp] theorem core_setUpd (x : UpdSt) : (s.setUpd x).core = s.core := rfl
@[simp] theorem core_setLad (x : LadSt) : (s.setLad x).core = s.core := rfl
@[simp] theorem core_setPwr (x : PwrSt) : (s.setPwr x).core = s.core := rfl
@[simp] theorem core_setInteg (x : IntegSt) : (s.setInteg x).core = s.core := rfl
@[simp] theorem core_setMismatch (x : List Nat) : (s.setMismatch x).core = s.core := rfl
@[simp] theorem core_setCnt (x : Tab Nat) : (s.setCnt x).core = s.core := rfl
@[simp] theorem core_setOut (x : List Out) : (s.setOut x).core = s.core := rfl

@[simp] theorem core_setPort (h : HostId) (p : HostPort) : (s.setPort h p).core = s.core := rfl
@[simp] theorem core_setBox (h : HostId) (m : Nat) (b : Mailbox) : (s.setBox h m b).core = s.core := rfl
@[simp] theorem core_setDone (h : HostId) (m : Nat) : (s.setDone h m).core = s.core := rfl
@[simp] theorem core_setEnded (h : HostId) (i : Nat) : (s.setEnded h i).core = s.core := rfl
@[simp] theorem core_setLink (lk : Nat) (l : Link) : (s.setLink lk l).core = s.core := rfl
@[simp] theorem core_setAcct (a : Nat) (x : Acct) : (s.setAcct a x).core = s.core := rfl
@[simp] theorem core_setSched (lk : Nat) (x : Sched) : (s.setSched lk x).core = s.core := rfl
@[simp] theorem core_setGroup (no : Nat) (g : Group) : (s.setGroup no g).core = s.core := rfl
@[simp] theorem core_setDealer (k : Nat) (d : Dealer) : (s.setDealer k d).core = s.core := rfl
@[simp] theorem core_setShard (h : Nat) (x : Shard) : (s.setShard h x).core = s.core := rfl
@[simp] theorem core_setToks (x : List Tok) : (s.setToks x).core = s.core := rfl
@[simp] theorem core_setTile (st : Nat) (x : Stitch) : (s.setTile st x).core = s.core := rfl
@[simp] theorem core_setSlot (st i : Nat) (x : Slot) : (s.setSlot st i x).core = s.core := rfl
@[simp] theorem core_setDom (x : Nat) (d : Domain) : (s.setDom x d).core = s.core := rfl

/-! ### Log, counters, output and interrupts -/

@[simp] theorem core_logRaise (code c st src tag d : Nat) : (s.logRaise code c st src tag d).core = s.core := rfl
@[simp] theorem core_logLink (code c lk d : Nat) : (s.logLink code c lk d).core = s.core := rfl
@[simp] theorem core_logLoss (src store loc : Nat) : (s.logLoss src store loc).core = s.core := rfl
@[simp] theorem core_bumpBy (f : Fam) (u i n : Nat) : (s.bumpBy f u i n).core = s.core := rfl
@[simp] theorem core_bump (f : Fam) (u i : Nat) : (s.bump f u i).core = s.core := rfl
@[simp] theorem core_emit (o : Out) : (s.emit o).core = s.core := rfl
@[simp] theorem core_critical (row unit loc scope target src : Nat) : (s.critical row unit loc scope target src).core = s.core := rfl
@[simp] theorem core_fatal (code src d : Nat) : (s.fatal code src d).core = s.core := rfl

@[simp] theorem core_sendVector (h : HostId) (v : Nat) : (s.sendVector h v).core = s.core := by
  unfold State.sendVector; extract_lets; split <;> rfl

@[simp] theorem core_irq (b : Nat) (h : HostId) : (s.irq b h).core = s.core := by
  unfold State.irq
  extract_lets p r m t
  split
  · rfl
  · split
    · exact (core_sendVector ..).trans (core_setPort ..)
    · rfl

@[simp] theorem core_irqAll (b : Nat) : (s.irqAll b).core = s.core := by simp [State.irqAll]

/-! ### Accounts and hanks -/

@[simp] theorem core_tagHead (lk cls n : Nat) (e : Bool) : (s.tagHead lk cls n e).core = s.core := by
  unfold State.tagHead
  split <;> rfl

theorem core_tagHeads (before : State) : (State.tagHeads before s).core = s.core := by
  unfold State.tagHeads
  refine foldl_view State.core (fun s c => ?_) _ s
  split
  · rfl
  · split
    · rfl
    · exact core_tagHead ..

@[simp] theorem core_setFrames (fs : List QFrame) : (s.setFrames fs).core = s.core := core_tagHeads ..

@[simp] theorem core_dropQueued (q : QFrame) : (s.dropQueued q).core = s.core := core_setFrames ..

@[simp] theorem core_giveCredits (a : Nat) : (s.giveCredits a).core = s.core := by
  unfold State.giveCredits
  extract_lets
  split <;> rfl

@[simp] theorem core_chargeAlloc (die kind : Nat) : (s.chargeAlloc die kind).core = s.core := rfl

@[simp] theorem core_advertise (a : Nat) : (s.advertise a).core = s.core := by
  unfold State.advertise
  split
  · rfl
  · extract_lets u
    split
    · exact core_giveCredits ..
    · exact (core_chargeAlloc ..).trans (core_giveCredits ..)

@[simp] theorem core_hankError (die loc : Nat) : (s.hankError die loc).core = s.core := rfl

@[simp] theorem core_freeHank (die src : Nat) (dram : Bool) (h : Nat × Nat) : (s.freeHank die src dram h).1.core = s.core := by
  unfold State.freeHank
  extract_lets
  split
  · rfl
  · split <;> rfl

@[simp] theorem core_freeChain (q : Chain) : (s.freeChain q).core = s.core := by
  unfold State.freeChain
  refine (core_advertise ..).trans (foldl_view State.core (fun s h => ?_) _ s)
  extract_lets r
  split <;> exact core_freeHank ..

@[simp] theorem core_foldl_freeChain (l : List Chain) : (l.foldl State.freeChain s).core = s.core :=
  foldl_view State.core core_freeChain l s

@[simp] theorem core_freeFrame (q : QFrame) : (s.freeFrame q).core = s.core := by simp [State.freeFrame]

@[simp] theorem core_consume (q : QFrame) : (s.consume q).core = s.core := by simp [State.consume]

@[simp] theorem core_releaseHeld (q : QFrame) : (s.releaseHeld q).core = s.core :=
  foldl_view State.core (fun _ _ => core_freeHank ..) _ s

@[simp] theorem core_freshHanks (die : Nat) (hs : List (Nat × Nat)) : (s.freshHanks die hs).core = s.core := by
  unfold State.freshHanks; split <;> rfl

@[simp] theorem core_noteTorn (die : Nat) (dram : Bool) (hs : List (Nat × Nat)) : (s.noteTorn die dram hs).core = s.core := by
  unfold State.noteTorn; split <;> rfl

/-! ### Frames of a unit enter the fabric -/

@[simp] theorem core_routeDiscard (die ing cause : Nat) (f : Frame) : (s.routeDiscard die ing cause f).core = s.core := by
  unfold State.routeDiscard
  extract_lets
  split <;> rfl

/-- A frame that is placed changes what its entry does. -/
theorem core_place (q : QFrame) (r : Routed) {enter : State → QFrame → Option ReplJob → State}
    (he : ∀ s q job, (enter s q job).core = s.core) : (s.place q r enter).core = s.core := by
  unfold State.place
  split
  · extract_lets t
    rw [he]
    unfold t
    split <;> rfl
  · split
    · rfl
    · exact he ..
  · rw [core_routeDiscard, core_foldl_freeChain]
  · rw [core_critical, core_foldl_freeChain]

@[simp] theorem core_enqueue (q : QFrame) : (s.enqueue q).core = s.core := by
  unfold State.enqueue
  extract_lets r _ t u
  have hu : u.core = s.core := by rw [core_freshHanks, core_noteTorn, core_setFrames]; rfl
  split
  · exact hu
  · exact hu

@[simp] theorem core_postJob (job : Option ReplJob) : (s.postJob job).core = s.core := by
  unfold State.postJob; split <;> rfl

@[simp] theorem core_enqueueUnit (q : QFrame) (job : Option ReplJob) : (s.enqueueUnit q job).core = s.core := by
  simp [State.enqueueUnit]

@[simp] theorem core_countStamp (die : Nat) (f g : Frame) : (s.countStamp die f g).core = s.core := by
  unfold State.countStamp; split <;> rfl

@[simp] theorem core_letIn (w : WaitFrame) : (s.letIn w).core = s.core := by
  unfold State.letIn
  extract_lets t f _ q u
  split
  · exact core_enqueueUnit ..
  · rw [core_enqueueUnit, core_countStamp]
  · split
    · rw [core_enqueueUnit, core_countStamp]
    · rw [core_place _ _ _ core_enqueueUnit, core_countStamp]

@[simp] theorem core_enterUnit (w : WaitFrame) : (s.enterUnit w).core = s.core := by
  unfold State.enterUnit
  split
  · rw [core_letIn, core_chargeAlloc]
  · rfl

@[simp] theorem core_sendFrom (die kind : Nat) (f : Frame) : (s.sendFrom die kind f).core = s.core := core_enterUnit ..

@[simp] theorem core_sendSkeinWith (k : Nat) (rel : List Chain) (f : Frame) : (s.sendSkeinWith k rel f).core = s.core := by
  unfold State.sendSkeinWith
  extract_lets g first t
  have ht : t.core = s.core := core_countStamp ..
  split
  · exact (core_enterUnit ..).trans ht
  · exact (core_place _ _ _ (fun _ _ _ => core_enterUnit ..)).trans ht

@[simp] theorem core_sendSkein (k : Nat) (f : Frame) : (s.sendSkein k f).core = s.core := core_sendSkeinWith ..

/-! ### Answers to commands (16 R453, R464) -/

@[simp] theorem core_respond (t : Taken) (st : Status) (off : Nat) (res : List Fld) : (s.respond t st off res).core = s.core := by
  unfold State.respond
  split
  · split
    · rfl
    · extract_lets body b b' b'' u v
      split
      · exact core_sendVector ..
      · rfl
  · exact core_sendFrom ..

@[simp] theorem core_finishAt (ticket : Nat) (st : Status) (off : Nat) (res : List Fld) :
    (s.finishAt ticket st off res).core = s.core := by
  unfold State.finishAt
  split
  · rfl
  · exact core_respond ..

@[simp] theorem core_finish (ticket : Nat) (st : Status) (res : List Fld) : (s.finish ticket st res).core = s.core := core_finishAt ..

@[simp] theorem core_finishAll (ts : List Nat) (st : Status) : (s.finishAll ts st).core = s.core :=
  foldl_view State.core (fun _ _ => core_finish ..) ts s

end

end Sys2Proof.Machine
end

section
/-! SUPPORT. Launches, their start and their barriers (02 R56 to R61; 10 R320, R322). -/

namespace Sys2Proof.Machine

open Sys2Proof

/-! ### Launches after an operation of the state -/

@[simp] theorem launch_setLaunch_self (s : State) (n : Nat) (l : Launch) : (s.setLaunch n l).launch n = some l := tabGet?_tabPut_self ..

theorem launch_setLaunch_ne (s : State) (l : Launch) {k n : Nat} (h : n ≠ k) : (s.setLaunch k l).launch n = s.launch n :=
  tabGet?_tabPut_ne _ _ h

/-- What keeps the core keeps the launches. -/
theorem launches_of_core {s t : State} (h : t.core = s.core) : t.pat.launches = s.pat.launches := congrArg (·.pat.launches) h

section
variable (s : State)

@[simp] theorem pat_write (key : Nat) (bs : List Byte) : (s.write key bs).pat = s.pat := by
  unfold State.write
  extract_lets
  split <;> rfl

@[simp] theorem launches_traceAt (stamp st slot tag ev status : Nat) :
    (s.traceAt stamp st slot tag ev status).pat.launches = s.pat.launches := by
  unfold State.traceAt
  split
  · rfl
  · extract_lets _ r t
    split
    · rfl
    · rw [pat_write]; rfl

@[simp] theorem launches_noteWait (st i : Nat) (c : Checked) : (s.noteWait st i c).pat.launches = s.pat.launches := by
  unfold State.noteWait
  extract_lets
  split
  · rfl
  · exact launches_traceAt ..

@[simp] theorem launches_noteMask (st : Nat) (c : Checked) (step : Nat) : (s.noteMask st c step).1.pat.launches = s.pat.launches := by
  unfold State.noteMask
  split
  · rfl
  · split
    · rfl
    · split
      · rfl
      · extract_lets _ t
        unfold t
        split <;> rfl

@[simp] theorem launches_logWordUe (st : Nat) (p : Pattern) (pc : Nat) : (s.logWordUe st p pc).pat.launches = s.pat.launches := by
  unfold State.logWordUe State.dropSite
  split
  · rfl
  · split <;> rfl

end

/-! ### A launch that has started -/

/-- Launch `n` started at pip `p`. -/
def State.Started (s : State) (n p : Nat) : Prop := ∃ l, s.launch n = some l ∧ l.start = p ∧ l.st ≠ .armed

section
variable {s t : State} {n p : Nat}

theorem State.Started.of_launches (h : s.Started n p) (ht : t.pat.launches = s.pat.launches) : t.Started n p := by
  obtain ⟨l, hl, hp, hs⟩ := h
  exact ⟨l, (congrArg (tabGet? · n) ht).trans hl, hp, hs⟩

/-- A change of a launch's record that leaves its start, and does not arm it, leaves what has started. -/
theorem State.Started.setLaunch (h : s.Started n p) {k : Nat} {l l' : Launch} (hl : s.launch k = some l) (hp : l'.start = l.start)
    (hs : l.st ≠ .armed → l'.st ≠ .armed) : (s.setLaunch k l').Started n p := by
  obtain ⟨x, hx, hxp, hxs⟩ := h
  by_cases hk : n = k
  · subst hk
    obtain rfl : x = l := Option.some.inj (hx.symm.trans hl)
    exact ⟨l', launch_setLaunch_self .., hp.trans hxp, hs hxs⟩
  · exact ⟨x, (launch_setLaunch_ne s l' hk).trans hx, hxp, hxs⟩

theorem State.Started.setTile (h : s.Started n p) (st : Nat) (x : Stitch) : (s.setTile st x).Started n p := h.of_launches rfl

theorem State.Started.setSlot (h : s.Started n p) (st i : Nat) (x : Slot) : (s.setSlot st i x).Started n p := h.of_launches rfl

theorem State.Started.stopSlot (h : s.Started n p) (st i : Nat) (status : Status) (tag pc : Nat) (ex : Bool) (stamp : Nat) :
    (s.stopSlot st i status tag pc ex stamp).Started n p := by
  unfold State.stopSlot
  extract_lets x r t
  have ht : t.Started n p := h.of_launches rfl
  split
  · exact ht
  · split
    · exact ht
    · next hl => exact ht.setLaunch hl rfl id

theorem State.Started.endLaunch (h : s.Started n p) (k : Nat) : (s.endLaunch k).Started n p := by
  unfold State.endLaunch
  split
  · exact h
  · next l hl =>
    split
    · exact h
    · extract_lets t u
      have ht : t.Started n p := h.setLaunch hl rfl (fun _ => by simp)
      have hu : u.core = t.core := by
        unfold u
        split
        · rfl
        · exact core_irq ..
      exact ht.of_launches (launches_of_core ((foldl_view State.core (fun _ _ => core_finish ..) _ u).trans hu))

theorem State.Started.slotFault (h : s.Started n p) (st i : Nat) (status : Status) (tag pc : Nat) (ex : Bool) (stamp : Nat) :
    (s.slotFault st i status tag pc ex stamp).Started n p := by
  unfold State.slotFault
  refine State.Started.endLaunch ((h.stopSlot st i status tag pc ex stamp).of_launches ?_) _
  exact launches_traceAt ..

theorem State.Started.checkNext (h : s.Started n p) (st i : Nat) (l : Launch) (x : Pattern) : (s.checkNext st i l x).Started n p := by
  unfold State.checkNext
  extract_lets
  split
  · refine State.Started.slotFault (h.of_launches ?_) ..
    exact launches_logWordUe ..
  · split
    · exact h.slotFault ..
    · exact h.of_launches ((launches_noteWait ..).trans (launches_noteMask ..))

theorem State.Started.becomeNext (h : s.Started n p) (st i : Nat) : (s.becomeNext st i).Started n p := by
  unfold State.becomeNext
  extract_lets
  split
  · exact h
  · split
    · exact h
    · split
      · exact h.slotFault ..
      · extract_lets key
        split
        · exact (h.setTile ..).checkNext ..
        · exact h.setSlot ..

theorem State.Started.startSlots (h : s.Started n p) (k : Nat) (l : Launch) : (s.startSlots k l).Started n p := by
  unfold State.startSlots
  extract_lets ps t
  have ht : t.Started n p := h.of_launches (launches_of_core (foldl_view State.core (fun _ _ => core_setSlot ..) _ s))
  refine List.foldlRecOn (motive := fun s : State => s.Started n p) ps _ ht fun u hu q _ => ?_
  split
  · exact hu.stopSlot ..
  · exact hu.becomeNext ..

end

/-- A launch that starts has started at this pip (R320). -/
theorem started_startLaunch (s : State) (n : Nat) (l : Launch) : (s.startLaunch n l).Started n s.time.pip := by
  unfold State.startLaunch
  extract_lets l' t u
  have ht : t.Started n s.time.pip := State.Started.startSlots ⟨l', launch_setLaunch_self .., rfl, by simp [l']⟩ n l'
  refine State.Started.endLaunch (ht.of_launches ?_) n
  unfold u
  split
  · exact launches_of_core (core_finish ..)
  · rfl

/-! ### LAUNCH_START and LAUNCH_RUN_LIMIT -/

section
variable {n : Nat} {s : State} {l : Launch} (hl : s.launch n = some l)
include hl

theorem exec_launchStart (hs : l.st = .armed) (hb : l.bslot = none) (ht : l.target ≤ s.time.pip) (he : s.earlierDue n l = false) :
    exec (.launchStart n) s = .next (s.startLaunch n l) := by
  show execLaunchStart n s = _
  simp only [execLaunchStart, hl]
  exact if_pos (by simp [hs, hb, ht, he])

theorem exec_launchStart_idle (h : s.time.pip < l.target ∨ l.st ≠ .armed) : exec (.launchStart n) s = .next s := by
  show execLaunchStart n s = _
  simp only [execLaunchStart, hl]
  refine if_neg ?_
  rcases h with h | h
  · simp [Nat.not_le.mpr h]
  · simp [h]

theorem exec_launchRunLimit (hn : n < 1024) (hs : l.st = .running) (hr : l.runLimit ≠ 0) (ht : l.start + l.runLimit ≤ s.time.pip) :
    exec (.launchRunLimit n) s = .next (s.abortLaunch n l .timeout) := by
  show execLaunchRunLimit n s = _
  simp only [execLaunchRunLimit, hl]
  exact if_pos (by simp [hn, hs, hr, ht])

theorem exec_launchRunLimit_idle (h : s.time.pip < l.start + l.runLimit ∨ l.runLimit = 0) :
    exec (.launchRunLimit n) s = .next s := by
  show execLaunchRunLimit n s = _
  simp only [execLaunchRunLimit, hl]
  refine if_neg ?_
  rcases h with h | h
  · simp [Nat.not_le.mpr h]
  · simp [h]

end

/-! ### Barriers of launches -/

/-- A commit or a Swatch start that is due holds a launch back, from its start and from its arrival (R61). -/
theorem earlierDue_of_kindDue {s : State} {n : Nat} {l : Launch} (h : s.kindDue l = true) : s.earlierDue n l = true := by
  simp [State.earlierDue, h]

theorem arrivesAfter_of_kindDue {s : State} {n : Nat} {l : Launch} (h : s.kindDue l = true) : s.arrivesAfter n l = true := by
  simp [State.arrivesAfter, h]

theorem mayArrive_of_barred {s : State} {l : Launch} {b : BarrierSlot} {p : Nat} (hp : b.parent = some p) (hb : p ∈ b.barred) :
    s.mayArrive l b = false := by
  simp [State.mayArrive, hp, hb]

section
variable {s : State} {l : Launch} {b : BarrierSlot} (ha : b.arrived = false) (hg : b.goAt = none)
  (hk : ∀ c ∈ b.kids, c.2 = b.phase ∧ c.1 ∉ b.barred)
include ha hg hk

/-- All children at the phase and none barred, only the parent's link or the root's limit stands against an arrival. -/
theorem mayArrive_eq : s.mayArrive l b = match b.parent with
    | none => decide (s.time.pip + b.span < s.barrierLimit l)
    | some p => !b.barred.contains p := by
  have hkids : b.kids.all (fun c => c.2 == b.phase && !b.barred.contains c.1) = true := by
    simpa [List.all_eq_true] using hk
  simp only [State.mayArrive, ha, hg, hkids]
  rfl

theorem mayArrive_root (hp : b.parent = none) (ht : s.time.pip + b.span < s.barrierLimit l) : s.mayArrive l b = true := by
  rw [mayArrive_eq ha hg hk, hp]
  exact decide_eq_true ht

theorem mayArrive_member {p : Nat} (hp : b.parent = some p) (hb : p ∉ b.barred) : s.mayArrive l b = true := by
  rw [mayArrive_eq ha hg hk, hp]
  simp [hb]

end

section
variable {n : Nat} {s : State} {l : Launch} {k : Nat} {b : BarrierSlot} (hb : s.barrierOf n = some (l, k, b))
include hb

theorem exec_barrierArrive_idle (h : s.arrivesAfter n l = true ∨ s.mayArrive l b = false) : exec (.barrierArrive n) s = .next s := by
  show execBarrierArrive n s = _
  simp only [execBarrierArrive, hb]
  exact if_pos (by simpa using h)

theorem exec_barrierArrive_root (ha : s.arrivesAfter n l = false) (hm : s.mayArrive l b = true) (hp : b.parent = none) :
    exec (.barrierArrive n) s = .next (s.setBarrier k b { b with arrived := true, go := true, goAt := some s.time.pip }) := by
  show execBarrierArrive n s = _
  simp only [execBarrierArrive, hb]
  rw [if_neg (by simp [ha, hm]), hp]

theorem exec_barrierArrive_member {p : Nat} (ha : s.arrivesAfter n l = false) (hm : s.mayArrive l b = true) (hp : b.parent = some p) :
    exec (.barrierArrive n) s = .next (s.setBarrier k b { b with arrived := true }) := by
  show execBarrierArrive n s = _
  simp only [execBarrierArrive, hb]
  rw [if_neg (by simp [ha, hm]), hp]

theorem exec_barrierStart {g : Nat} (hg : b.goAt = some g) (he : s.earlierDue n l = false)
    (ht : g + (b.span - b.delay) ≤ s.time.pip) :
    exec (.barrierStart n) s = .next ((s.setTime { s.time with slots := tabPut s.time.slots k { b with busy := false } }).startLaunch
      n { l with bslot := none }) := by
  show execBarrierStart n s = _
  simp only [execBarrierStart, hb, hg]
  exact if_pos (by simp [he, ht])

theorem exec_barrierStart_idle (he : s.earlierDue n l = true) : exec (.barrierStart n) s = .next s := by
  show execBarrierStart n s = _
  simp only [execBarrierStart, hb]
  split
  · rfl
  · exact if_neg (by simp [he])

theorem exec_barrierRootTimeout (hp : b.parent = none) (hg : b.goAt = none) (ht : s.barrierLimit l ≤ s.time.pip + b.span) :
    exec (.barrierRootTimeout n) s = .next (s.dropLaunch n l .timeout) := by
  show execBarrierRootTimeout n s = _
  simp only [execBarrierRootTimeout, hb]
  exact if_pos (by simp [hp, hg, ht])

theorem exec_barrierMemberTimeout (hp : b.parent ≠ none) (hg : b.goAt = none) (ht : s.barrierLimit l + 4096 ≤ s.time.pip) :
    exec (.barrierMemberTimeout n) s = .next (s.dropLaunch n l .timeout) := by
  show execBarrierMemberTimeout n s = _
  simp only [execBarrierMemberTimeout, hb]
  exact if_pos (by simp [Option.isSome_iff_ne_none.mpr hp, hg, ht])

end

/-- A member that sets its arrive bit tells its parent. -/
theorem told_of_arrived {b : BarrierSlot} {p : Nat} (ha : b.arrived = false) (hp : b.parent = some p) :
    p ∈ b.told { b with arrived := true } := by
  have hbit : (b.arriveBit != ({ b with arrived := true } : BarrierSlot).arriveBit) = true := by
    cases hf : b.phase <;> simp [BarrierSlot.arriveBit, ha, hf]
  refine List.mem_append_left _ ?_
  rw [if_pos hbit]
  exact Option.mem_toList.mpr hp

theorem slot_setBarrier (s : State) (slot : Nat) (old new : BarrierSlot) :
    tabGet? (s.setBarrier slot old new).time.slots slot = some new := by
  rw [time_setBarrier]; exact tabGet?_tabPut_self ..

/-- Settles O30: each event of a launch or its barrier acts exactly when its condition holds, and a launch that starts keeps its
start stamp through its first words. -/
theorem launches : Obligations.Launches := by
  unfold Obligations.Launches
  refine ⟨fun n s l hl => ?_, fun n s l => started_startLaunch s n l, fun n s l k b hb =>
    ⟨fun hdue => ?_, fun haft harr hgo hkids => ?_, ?_, ?_, ?_⟩⟩
  · exact ⟨exec_launchStart hl, exec_launchStart_idle hl, exec_launchRunLimit hl, exec_launchRunLimit_idle hl⟩
  · exact ⟨exec_barrierArrive_idle hb (.inl (arrivesAfter_of_kindDue hdue)), exec_barrierStart_idle hb (earlierDue_of_kindDue hdue)⟩
  · refine ⟨fun hp ht => ?_, fun p hp hbar => ?_, fun p hp hbar hx => ?_⟩
    · have hm : s.mayArrive l b = true := mayArrive_root harr hgo hkids hp ht
      exact ⟨_, exec_barrierArrive_root hb haft hm hp, slot_setBarrier .., setBarrier_frame ..⟩
    · exact exec_barrierArrive_idle hb (.inr (mayArrive_of_barred hp hbar))
    · have hm : s.mayArrive l b = true := mayArrive_member harr hgo hkids hp hbar
      exact ⟨_, exec_barrierArrive_member hb haft hm hp, slot_setBarrier ..,
        ⟨_, mem_ticks_setBarrier (told_of_arrived harr hp) hx, rfl⟩, setBarrier_frame ..⟩
  · exact fun g hg he ht => exec_barrierStart hb hg he ht
  · exact exec_barrierRootTimeout hb
  · exact exec_barrierMemberTimeout hb

end Sys2Proof.Machine
end

section
/-! SUPPORT. What the core of the state keeps through units, reductions and the sending of their frames. -/

namespace Sys2Proof.Machine

open Sys2Proof

section
variable (s : State)

/-! ### Links -/

@[simp] theorem core_profileChanged : s.profileChanged.core = s.core := rfl

@[simp] theorem core_noteTime (a : TimeState) (n : Nat) : (s.noteTime a n).core = s.core := by
  obtain ⟨x, h⟩ := noteTime_frame s a n
  rw [h, core_setLinks]

@[simp] theorem core_logDisagree (lk : Nat) (old new : BitVec 4) (p m : Bool) (fw : Nat) :
    (s.logDisagree lk old new p m fw).core = s.core := by
  refine foldl_view State.core (fun s r => ?_) _ s
  split <;> rfl

@[simp] theorem core_linkTo (lk : Nat) (st : LinkState) : (s.linkTo lk st).core = s.core := by
  unfold State.linkTo
  extract_lets l t
  split
  · rfl
  · exact core_irqAll ..

@[simp] theorem core_dropEarmarks (lk : Nat) : (s.dropEarmarks lk).core = s.core :=
  foldl_view State.core (fun _ _ => core_setAcct ..) _ s

@[simp] theorem core_enforceDrain : s.enforceDrain.core = s.core :=
  foldl_view State.core (fun _ _ => core_setLink ..) _ (s.setLinks _)

@[simp] theorem core_sendTick (lk : Nat) (w : BitVec 64) : (s.sendTick lk w).core = s.core := rfl

@[simp] theorem core_flush (lk : Nat) : (s.flush lk).core = s.core :=
  foldl_view State.core (fun _ _ => core_sendTick ..) _ (s.setLink lk _)

@[simp] theorem core_sendLinkState (lk : Nat) (w : BitVec 64) : (s.sendLinkState lk w).core = s.core := core_flush ..

/-! ### Core cycles of a pip -/

@[simp] theorem core_countBlocked (c : Nat × Nat) : (s.countBlocked c).core = s.core := by
  unfold State.countBlocked
  split <;> rfl

@[simp] theorem core_countWaits (die : Nat) : (s.countWaits die).core = s.core := by
  unfold State.countWaits
  split <;> rfl

@[simp] theorem core_countHeld (die : Nat) : (s.countHeld die).core = s.core := by
  unfold State.countHeld
  split <;> rfl

/-! ### Frames with an uncorrectable hank -/

@[simp] theorem core_logFrameUe (q : QFrame) : (s.logFrameUe q).core = s.core := by
  unfold State.logFrameUe
  split <;> rfl

@[simp] theorem core_loseToken (q : QFrame) : (s.loseToken q).core = s.core :=
  foldl_view State.core (fun _ _ => core_freeFrame ..) _ (s.setExp _)

@[simp] theorem core_discardUe (q : QFrame) : (s.discardUe q).core = s.core := by
  unfold State.discardUe
  extract_lets t
  have ht : t.core = s.core := core_logFrameUe ..
  split
  · exact (core_consume ..).trans ht
  · exact (core_loseToken ..).trans ht

@[simp] theorem core_dropFrameUes : s.dropFrameUes.core = s.core := by
  unfold State.dropFrameUes
  split
  · rfl
  · exact foldl_view State.core (fun _ _ => core_discardUe ..) _ s

/-! ### Requests and shards -/

@[simp] theorem core_dropWork (k : Nat) (p : Work → Bool) : (s.dropWork k p).core = s.core := rfl

@[simp] theorem core_queueU (k : Nat) (w : Work) (key : List Nat) : (s.queueU k w key).core = s.core := rfl

@[simp] theorem core_addReq (r : Request) : (s.addReq r).core = s.core := rfl

@[simp] theorem core_request (p : Parked) : (s.request p).core = s.core := by
  unfold State.request
  split
  · rfl
  · extract_lets t f
    split
    · exact core_sendSkein ..
    · exact core_sendFrom ..

@[simp] theorem core_unpark : s.unpark.core = s.core := foldl_view State.core (fun _ _ => core_request ..) _ (s.setRoute _)

@[simp] theorem core_dropAskers (gone : Asker → Bool) : (s.dropAskers gone).core = s.core := core_unpark ..

@[simp] theorem core_dropAsks (h : Nat) : (s.dropAsks h).core = s.core := core_dropAskers ..

@[simp] theorem core_tear (h : Nat) : (s.tear h).core = s.core := by
  unfold State.tear
  split
  · rfl
  · rw [core_finishAll, core_irqAll, core_setShard, core_dropWork, core_dropAsks]

@[simp] theorem core_rubFailed (h no seq : Nat) : (s.rubFailed h no seq).core = s.core := by
  unfold State.rubFailed
  split
  · rfl
  · split
    · exact core_tear ..
    · extract_lets
      split <;> rfl

@[simp] theorem core_sliceReady (h : Nat) (g : GradSlice) (c : Cnts) : (s.sliceReady h g c).core = s.core := by
  unfold State.sliceReady
  split <;> rfl

@[simp] theorem core_rubSlice (handle no seq slice : Nat) (g : List Nat) (c : Cnts) :
    (s.rubSlice handle no seq slice g c).core = s.core := core_sliceReady ..

@[simp] theorem core_bindShard (h : Nat) (e : Option Nat) : (s.bindShard h e).core = s.core := by
  unfold State.bindShard
  split
  · rfl
  · split <;> rfl

/-! ### Frames of a Tally engine (08 R242 to R251) -/

@[simp] theorem core_charge (x c cycles sum : Nat) : (s.charge x c cycles sum).core = s.core := rfl

@[simp] theorem core_sendTally (die lk : Nat) (tag : TallyTag) (f : Frame) : (s.sendTally die lk tag f).core = s.core := by
  unfold State.sendTally
  extract_lets t w resv _ w'
  split
  · exact core_letIn ..
  · exact core_enterUnit ..

@[simp] theorem core_sendDown (tag : TallyTag) (g : Group) (m : Member) (cells : List Byte) :
    (s.sendDown tag g m cells).core = s.core := core_sendTally ..

@[simp] theorem core_sendUp (g : Group) (tag : TallyTag) (cells : List Byte) : (s.sendUp g tag cells).core = s.core := by
  unfold State.sendUp
  split
  · rfl
  · exact core_sendTally ..

@[simp] theorem core_sendErrors (no : Nat) (g : Group) (h : List Byte) (seq status eflags : Nat) (cell : List Byte) :
    (s.sendErrors no g h seq status eflags cell).core = s.core :=
  foldl_view State.core (fun _ _ => (core_bump ..).trans (core_sendDown ..)) _ s

@[simp] theorem core_sendDone (no : Nat) (g : Group) (h : List Byte) (seq : Nat) : (s.sendDone no g h seq).core = s.core :=
  foldl_view State.core (fun _ _ => core_sendDown ..) _ s

@[simp] theorem core_sendResults (no : Nat) (g : Group) (h : List Byte) (seq slice rec_ : Nat) (body : List Byte) (own : Bool) :
    (s.sendResults no g h seq slice rec_ body own).core = s.core :=
  foldl_view State.core (fun _ _ => core_sendDown ..) _ s

/-! ### Collectives -/

@[simp] theorem core_withGroup (no : Nat) (f : Group → Group) : (s.withGroup no f).core = s.core := by
  unfold State.withGroup
  split <;> rfl

@[simp] theorem core_collStats (no : Nat) (t : Stats) : (s.collStats no t).core = s.core := core_withGroup ..

@[simp] theorem core_chargeNodes (g : Group) (h : List Byte) (sl die m : Nat) : (s.chargeNodes g h sl die m).core = s.core := by
  unfold State.chargeNodes
  split <;> rfl

@[simp] theorem core_absorb (no : Nat) (x : Slice) (die : Nat) : (s.absorb no x die).1.core = s.core :=
  foldl_view (fun a : State × Slice => a.1.core) (fun _ _ => (core_releaseHeld ..).trans (core_collStats ..)) _ (s, x)

@[simp] theorem core_sendNodes (no : Nat) (h : List Byte) (x : Slice) (sl d : Nat) : (s.sendNodes no h x sl d).1.core = s.core := by
  unfold State.sendNodes
  split
  · rfl
  · exact (core_collStats ..).trans (core_chargeNodes ..)

@[simp] theorem core_addHome (no : Nat) (h : List Byte) (x : Slice) (home d : Nat) : (s.addHome no h x home d).1.core = s.core :=
  core_collStats ..

@[simp] theorem core_stopSending (no seq : Nat) : (s.stopSending no seq).core = s.core :=
  foldl_view State.core (fun _ _ => core_consume ..) _ (s.setBuf _)

@[simp] theorem core_releaseColl (c : Coll) : (s.releaseColl c).core = s.core :=
  foldl_view State.core (fun s _ => foldl_view State.core (fun _ _ => core_releaseHeld ..) _ s) _ s

@[simp] theorem core_completeColl (no : Nat) (c : Coll) : (s.completeColl no c).core = s.core := by
  unfold State.completeColl
  split <;> rfl

@[simp] theorem core_failColl (no : Nat) (c : Coll) (status : Status) (ranges : List (Nat × Nat)) (cut down : Bool) :
    (s.failColl no c status ranges cut down).core = s.core := by
  unfold State.failColl
  split
  · rfl
  · extract_lets s1 root s2 g' s3 s4 rc e s5
    have h1 : s1.core = s.core := (core_releaseColl ..).trans (core_stopSending ..)
    have h2 : s2.core = s.core := by
      unfold s2
      split
      · split
        · exact (core_rubFailed ..).trans h1
        · exact h1
      · exact h1
    have h4 : s4.core = s.core := (core_logRaise ..).trans ((core_bump ..).trans ((core_setGroup ..).trans h2))
    have h5 : s5.core = s.core := by
      unfold s5
      split
      · exact (core_sendErrors ..).trans h4
      · exact h4
    split
    · exact h5
    · exact (core_bump ..).trans ((core_sendUp ..).trans h5)

@[simp] theorem core_finishSlice (no : Nat) (c : Coll) (sl : Nat) (x : Slice) : (s.finishSlice no c sl x).core = s.core := by
  unfold State.finishSlice
  split
  · rfl
  · extract_lets h r vs c1 all c2 s1 s2 x1 x2 rr s3 rf e gs x3 s4
    have h2 : s2.core = s.core :=
      (core_bump ..).trans ((core_chargeNodes ..).trans ((core_collStats ..).trans (core_setGroup ..)))
    have h3 : s3.core = s.core := (core_collStats ..).trans h2
    have h4 : s4.core = s.core := (core_sendResults ..).trans h3
    split
    · exact (core_sendUp ..).trans h2
    · split
      · exact (core_rubSlice ..).trans h3
      · split
        · exact (core_completeColl ..).trans ((core_sendDone ..).trans h4)
        · exact h4

@[simp] theorem core_flowSlice (no seq sl : Nat) : (s.flowSlice no seq sl).core = s.core := by
  unfold State.flowSlice
  split
  · rfl
  · split
    · rfl
    · split
      · rfl
      · split
        · exact core_failColl ..
        · extract_lets step r x c t ready u
          have hstep : ∀ a d, (step a d).1.core = a.1.core := by
            intro a d
            unfold step
            extract_lets x' p q
            split
            · rfl
            · have hp : p.1.core = a.1.core := core_absorb ..
              show q.1.core = _
              unfold q
              split
              · exact (core_addHome ..).trans hp
              · exact (core_sendNodes ..).trans hp
          have ht : t.core = s.core := (core_withGroup ..).trans (foldl_view (fun a => a.1.core) hstep _ (s, _, []))
          split
          · exact (core_finishSlice ..).trans ((core_absorb ..).trans ht)
          · exact ht

@[simp] theorem core_flowGroup (no : Nat) : (s.flowGroup no).core = s.core := by
  unfold State.flowGroup
  split
  · rfl
  · exact foldl_view State.core (fun s _ => foldl_view State.core (fun _ _ => core_flowSlice ..) _ s) _ s

@[simp] theorem core_flowAll : s.flowAll.core = s.core := foldl_view State.core (fun _ _ => core_flowGroup ..) _ s

@[simp] theorem core_finishSent : s.finishSent.core = s.core := by
  unfold State.finishSent
  extract_lets there done
  split
  · rfl
  · exact foldl_view State.core (fun _ _ => core_finish ..) _ (s.setHost _)

@[simp] theorem core_reserveGroup (g : Group) (sign : Bool) : (s.reserveGroup g sign).core = s.core :=
  foldl_view State.core (fun _ _ => core_setAcct ..) _ s

@[simp] theorem core_giveBack (no : Nat) (g : Group) : (s.giveBack no g).core = s.core := by
  unfold State.giveBack
  rw [core_reserveGroup, core_setFrames]
  exact foldl_view State.core (fun _ _ => core_setAcct ..) _ s

/-! ### Tokens -/

@[simp] theorem core_returnTok (k u : Nat) (t : Tok) (st : Status) : (s.returnTok k u t st).core = s.core := core_sendSkeinWith ..

@[simp] theorem core_returnAll (k u : Nat) (ts : List Tok) (st : Status) : (s.returnAll k u ts st).core = s.core :=
  foldl_view State.core (fun _ _ => core_returnTok ..) _ s

@[simp] theorem core_unreserve (key : Nat) (l : List (Nat × Nat)) : (s.unreserve key l).core = s.core := by
  refine foldl_view State.core (fun s p => ?_) l s
  extract_lets x
  split <;> rfl

end

end Sys2Proof.Machine
end

section
/-! SUPPORT. An idle pip: the count goes on by one and the queue stays as it is (02 R36). -/

namespace Sys2Proof.Machine

open Sys2Proof

/-! ### The count and the queue -/

/-- The pip count and the queue of commands. -/
def State.clock (s : State) : Nat × List Instr := (s.time.pip, s.pending)

/-- What keeps the core keeps the count and the queue. -/
theorem clock_of_core {s t : State} (h : t.core = s.core) : t.clock = s.clock := by
  show t.core.clock = s.core.clock
  rw [h]

section
variable (s : State)

@[simp] theorem clock_setTime (x : TimeSt) : (s.setTime x).clock = (x.pip, s.pending) := rfl
@[simp] theorem clock_setCfg (x : CfgSt) : (s.setCfg x).clock = s.clock := rfl
@[simp] theorem clock_setPins (x : PinSt) : (s.setPins x).clock = s.clock := rfl

/-- A barrier slot that changes leaves the count and the queue. -/
theorem clock_setBarrier (slot : Nat) (old new : BarrierSlot) : (s.setBarrier slot old new).clock = s.clock := by
  rw [setBarrier_frame, State.clock, time_setBarrier]; rfl

theorem clock_reparent : s.reparent.clock = s.clock := by
  obtain ⟨x, hp, -, h⟩ := reparent_frame s
  rw [h]
  exact congrArg (·, s.pending) hp

theorem clock_reparented : s.reparented.clock = s.clock := (clock_of_core (core_noteTime ..)).trans (clock_reparent s)

/-! ### Links that leave their state (03 R75, R116) -/

theorem clock_leave (lk : Nat) (st : LinkState) : (s.leave lk st).clock = s.clock := by
  unfold State.leave
  extract_lets l s1 s2 s3 _ s4
  have h1 : s1.core = s.core := by
    unfold s1
    split
    · exact core_finish ..
    · rfl
  have h2 : s2.core = s.core := (core_bumpBy ..).trans ((core_dropEarmarks ..).trans h1)
  have h3 : s3.core = s.core := (core_logDisagree ..).trans h2
  have h4 : s4.core = s.core := by
    unfold s4
    split
    · exact (core_setBuf ..).trans h3
    · exact h3
  exact (clock_reparented _).trans (clock_of_core ((core_linkTo ..).trans ((core_setLink ..).trans h4)))

theorem clock_armLinks (off : BitVec 8) (ports : List Nat) : (s.armLinks off ports).clock = s.clock := by
  refine foldl_view State.clock (fun s lk => ?_) _ s
  split
  · rfl
  · exact clock_leave ..

theorem clock_goDark (lk : Nat) : (s.goDark lk).clock = s.clock := by
  unfold State.goDark
  extract_lets s1 s2
  have h1 : s1.core = s.core := by
    unfold s1
    split
    · exact core_sendLinkState ..
    · rfl
  exact (clock_of_core (core_setLink ..)).trans ((clock_leave s1 lk .dark).trans (clock_of_core h1))

/-! ### Launches that end -/

theorem clock_dropLaunch (key : Nat) (l : Launch) (st : Status) : (s.dropLaunch key l st).clock = s.clock := by
  unfold State.dropLaunch
  extract_lets s1 s2 s3
  have h2 : s2.clock = s.clock := (clock_of_core (core_unreserve s1 key l.slots)).trans rfl
  have h3 : s3.clock = s.clock := by
    unfold s3
    split
    · exact h2
    · split
      · exact (clock_setBarrier ..).trans h2
      · exact h2
  split
  · exact (clock_of_core (core_finish ..)).trans h3
  · exact h3

theorem clock_stopSlot (st i : Nat) (status : Status) (tag pc : Nat) (ex : Bool) (stamp : Nat) :
    (s.stopSlot st i status tag pc ex stamp).clock = s.clock := by
  unfold State.stopSlot
  extract_lets
  split
  · rfl
  · split <;> rfl

theorem clock_stopRunning (key : Nat) (p : Nat × Nat) (status : Status) : (s.stopRunning key p status).clock = s.clock := by
  unfold State.stopRunning
  extract_lets x t
  split
  · exact clock_stopSlot ..
  · rfl

theorem clock_stopRun (id r : Nat) (st : Status) : (s.stopRun id r st).clock = s.clock := by
  unfold State.stopRun
  split
  · rfl
  · exact foldl_view State.clock (fun _ _ => clock_stopRunning ..) _ s

theorem clock_removeExpert (id : Nat) (x : Expert) : (s.removeExpert id x).1.clock = s.clock := by
  unfold State.removeExpert
  extract_lets asm ts s1 s2 s3 _ s4
  have h2 : s2.clock = s1.clock := by
    refine foldl_view State.clock (fun s r => ?_) _ s1
    extract_lets u v w
    have hu : u.clock = s.clock := (clock_of_core (core_unreserve ..)).trans (clock_stopRun ..)
    split
    · exact (clock_of_core (core_finish ..)).trans hu
    · exact hu
  have h3 : s3.clock = s2.clock := clock_of_core (foldl_view State.core (fun _ _ => core_finish ..) _ s2)
  have h4 : s4.clock = s3.clock := clock_of_core (core_bindShard ..)
  exact (clock_of_core (core_returnAll ..)).trans (h4.trans (h3.trans h2))

/-! ### Commits that are due (16 R467 to R472) -/

theorem core_freeze (k : Nat) (on : Bool) : (s.freeze k on).core = s.core := rfl

theorem core_placeRegion (x : Setting) : (s.placeRegion x).core = s.core := by
  unfold State.placeRegion
  extract_lets b
  split
  · rfl
  · split <;> rfl

theorem core_refreshEpoch : s.refreshEpoch.core = s.core := by
  unfold State.refreshEpoch
  extract_lets e
  split <;> rfl

theorem core_dropBank (x : Setting) : (s.dropBank x).core = s.core := by
  unfold State.dropBank
  split
  · split
    · exact core_refreshEpoch ..
    · rfl
  · rfl

theorem core_losePrivilege (old : Tab Nat) (x : Setting) : (s.losePrivilege old x).core = s.core := by
  unfold State.losePrivilege
  extract_lets
  split <;> rfl

theorem core_settleShapers : s.settleShapers.core = s.core := foldl_view State.core (fun _ _ => core_setSched ..) _ s

theorem clock_changeRole (old pip : Nat) : (s.changeRole old pip).clock = s.clock := by
  unfold State.changeRole
  extract_lets new _ s1 s2 _
  split
  · rfl
  · split
    · rfl
    · refine (clock_of_core (core_setInteg ..)).trans ?_
      refine (foldl_view State.clock (fun s e => ?_) _ s1).trans rfl
      split
      · split
        · exact clock_dropLaunch ..
        · rfl
      · rfl

theorem clock_applyValues (c : Commit) : (s.applyValues c).clock = s.clock := by
  unfold State.applyValues
  extract_lets old ch role prof s1 _ s2 s3 modes _ s4 s5 s6 s7 _ s8 s9 thawed dies s10 s11
  have h1 : s1.clock = s.clock := by
    unfold s1
    split
    · exact clock_of_core (core_settleShapers ..)
    · rfl
  have h2 : s2.clock = s.clock := (clock_setCfg ..).trans h1
  have h3 : s3.clock = s2.clock := clock_of_core (foldl_view State.core (fun _ _ => core_freeze ..) _ s2)
  have h4 : s4.clock = s3.clock := clock_of_core (core_setTraf ..)
  have h5 : s5.clock = s4.clock := clock_of_core (foldl_view State.core (fun _ _ => core_losePrivilege ..) _ s4)
  have h6 : s6.clock = s5.clock := clock_of_core (foldl_view State.core core_placeRegion _ s5)
  have h7 : s7.clock = s6.clock := clock_of_core (foldl_view State.core core_dropBank _ s6)
  have h8 : s8.clock = s7.clock := by
    unfold s8
    split <;> rfl
  have h9 : s9.clock = s8.clock := clock_changeRole ..
  have h10 : s10.clock = s9.clock :=
    clock_of_core (foldl_view State.core (fun s _ => foldl_view State.core core_advertise _ s) _ s9)
  have h11 : s11.clock = s.clock := by rw [clock_reparent, h10, h9, h8, h7, h6, h5, h4, h3, h2]
  split
  · exact h11
  · exact (clock_of_core (core_profileChanged ..)).trans h11

theorem clock_applyFirst : s.applyFirst.clock = s.clock := by
  unfold State.applyFirst
  split
  · rfl
  · split
    · rfl
    · next c _ _ _ =>
      extract_lets links off s1 _ s2 s3 _ s4 s5
      have h1 : s1.clock = s.clock := foldl_view State.clock clock_goDark _ s
      have h2 : s2.clock = s.clock := (clock_setCfg ..).trans h1
      have h3 : s3.clock = s2.clock := (clock_of_core (core_enforceDrain ..)).trans (clock_applyValues s2 c)
      have h5 : s5.clock = s3.clock := (clock_armLinks s4 ..).trans (clock_setPins ..)
      exact (clock_of_core ((core_finish ..).trans (core_irqAll ..))).trans (h5.trans (h3.trans h2))

theorem clock_applyDue (n : Nat) (s : State) : (s.applyDue n).clock = s.clock := by
  induction n generalizing s with
  | zero => rfl
  | succ n ih => exact (ih _).trans (clock_applyFirst s)

theorem clock_checkPips : s.checkPips.clock = s.clock := by
  unfold State.checkPips
  split
  · rfl
  · refine foldl_view State.clock (fun s die => ?_) _ s
    split <;> rfl

/-! ### Entries lost to uncorrectable words (17 Table 17-2) -/

theorem clock_loseSite (x : UeSite) : (s.loseSite x).clock = s.clock := by
  unfold State.loseSite
  cases x with
  | desc k => dsimp only; split <;> rfl
  | layer k => dsimp only; split <;> rfl
  | expert id =>
    dsimp only
    split
    · exact clock_removeExpert ..
    · rfl
    · rfl
  | group no =>
    dsimp only
    split
    · exact clock_of_core ((core_giveBack ..).trans (foldl_view State.core (fun _ _ => core_failColl ..) _ (s.logLoss ..)))
    · rfl
  | pipe h =>
    dsimp only
    split
    · split
      · exact clock_of_core (core_tear ..)
      · rfl
    · rfl
  | ladder slot =>
    dsimp only
    split
    · split <;> rfl
    · rfl
  | needle => rfl
  | replay lk lsn => rfl
  | word st k => rfl
  | log seq i => rfl

theorem clock_sweepSites : s.sweepSites.clock = s.clock := by
  unfold State.sweepSites
  extract_lets l
  split
  · rfl
  · exact foldl_view State.clock clock_loseSite _ (s.setInteg _)

/-- Barrier slots note their excluded links without the count. -/
theorem clock_noteBarred : s.noteBarred.clock = s.clock := rfl

/-- An idle pip moves the count on by one and leaves the queue. -/
theorem clock_nextPip : s.nextPip.clock = (s.time.pip + 1, s.pending) := by
  unfold State.nextPip
  extract_lets s1 s2 _ s3
  have h1 : s1.core = s.core := foldl_view State.core core_countBlocked _ s
  have h2 : s2.core = s1.core := foldl_view State.core (fun _ _ => (core_countHeld ..).trans (core_countWaits ..)) _ s1
  have h3 : s3.clock = (s2.time.pip + 1, s2.pending) := (clock_noteBarred _).trans (clock_setTime ..)
  have hc : s2.clock = s.clock := clock_of_core (h2.trans h1)
  calc (((((s3.applyDue s3.cfg.commits.length).checkPips).dropFrameUes).sweepSites).flowAll).finishSent.clock
    _ = (((s3.applyDue s3.cfg.commits.length).checkPips).dropFrameUes).clock :=
      (clock_of_core ((core_finishSent ..).trans (core_flowAll ..))).trans (clock_sweepSites ..)
    _ = s3.clock := (clock_of_core (core_dropFrameUes ..)).trans ((clock_checkPips ..).trans (clock_applyDue ..))
    _ = (s.time.pip + 1, s.pending) := by
      rw [h3]
      obtain ⟨hp, hq⟩ := Prod.mk.inj hc
      rw [hp, hq]

end

/-- Settles O57: a step is the command at the front, and an idle pip moves the count on by one and leaves the queue. -/
theorem stepRunsFront : Obligations.StepRunsFront := by
  unfold Obligations.StepRunsFront
  refine ⟨fun c rest s => rfl, fun s h => ?_⟩
  obtain ⟨hp, hq⟩ := Prod.mk.inj (clock_nextPip s)
  refine ⟨?_, hp, hq.trans h⟩
  simp only [step, h]

end Sys2Proof.Machine
end

section
/-! SUPPORT. What the switch core leaves unchanged: accounts and hanks that change leave the queues, queues that change leave the
links, the host interface, memory and output. -/

namespace Sys2Proof.Machine

open Sys2Proof

/-! ### Accounts and hanks -/

/-- The state without the counts of accounts, the hanks, what arbitration and counters hold, the log and the resets that are due. -/
def State.offHanks (s : State) : State :=
  { s with boot := {}, log := {}, traf := {}, mismatch := [], cnt := [], buf := { s.buf with accts := [], hanks := [], ueHanks := [] } }

section
variable (s : State)

@[simp] theorem offHanks_setTraf (x : TrafSt) : (s.setTraf x).offHanks = s.offHanks := rfl
@[simp] theorem offHanks_setAcct (a : Nat) (x : Acct) : (s.setAcct a x).offHanks = s.offHanks := rfl
@[simp] theorem offHanks_bumpBy (f : Fam) (u i n : Nat) : (s.bumpBy f u i n).offHanks = s.offHanks := rfl
@[simp] theorem offHanks_bump (f : Fam) (u i : Nat) : (s.bump f u i).offHanks = s.offHanks := rfl
@[simp] theorem offHanks_logRaise (code c st src tag d : Nat) : (s.logRaise code c st src tag d).offHanks = s.offHanks := rfl
@[simp] theorem offHanks_hankError (die loc : Nat) : (s.hankError die loc).offHanks = s.offHanks := rfl
@[simp] theorem offHanks_chargeAlloc (die kind : Nat) : (s.chargeAlloc die kind).offHanks = s.offHanks := rfl

@[simp] theorem offHanks_giveCredits (a : Nat) : (s.giveCredits a).offHanks = s.offHanks := by
  unfold State.giveCredits
  extract_lets
  split <;> rfl

@[simp] theorem offHanks_advertise (a : Nat) : (s.advertise a).offHanks = s.offHanks := by
  unfold State.advertise
  split
  · rfl
  · extract_lets u
    split
    · exact offHanks_giveCredits ..
    · exact (offHanks_chargeAlloc ..).trans (offHanks_giveCredits ..)

@[simp] theorem offHanks_freeHank (die src : Nat) (dram : Bool) (h : Nat × Nat) :
    (s.freeHank die src dram h).1.offHanks = s.offHanks := by
  unfold State.freeHank
  extract_lets
  split
  · rfl
  · split <;> rfl

@[simp] theorem offHanks_freeChain (q : Chain) : (s.freeChain q).offHanks = s.offHanks := by
  unfold State.freeChain
  refine (offHanks_advertise ..).trans (foldl_view State.offHanks (fun s h => ?_) _ s)
  extract_lets r
  split <;> exact offHanks_freeHank ..

@[simp] theorem offHanks_freeChains (l : List Chain) : (l.foldl State.freeChain s).offHanks = s.offHanks :=
  foldl_view State.offHanks offHanks_freeChain l s

@[simp] theorem offHanks_freeFrame (q : QFrame) : (s.freeFrame q).offHanks = s.offHanks := by simp [State.freeFrame]

@[simp] theorem offHanks_noteTorn (die : Nat) (dram : Bool) (hs : List (Nat × Nat)) : (s.noteTorn die dram hs).offHanks = s.offHanks := by
  unfold State.noteTorn; split <;> rfl

@[simp] theorem offHanks_freshHanks (die : Nat) (hs : List (Nat × Nat)) : (s.freshHanks die hs).offHanks = s.offHanks := by
  unfold State.freshHanks; split <;> rfl

end

section
variable {s t : State} (h : t.offHanks = s.offHanks)
include h

/-- What leaves all but accounts and hanks leaves the queues. -/
theorem frames_of_offHanks : t.buf.frames = s.buf.frames := congrArg (·.buf.frames) h

end

/-! ### Queues -/

/-- The state without packet buffers, routing, arbitration, tokens, charges, counters, the log and the resets that are due. -/
def State.offBuf (s : State) : State :=
  { s with boot := {}, log := {}, buf := {}, route := {}, traf := {}, exp := {}, pwr := {}, mismatch := [], cnt := [] }

section
variable {s t : State}

theorem offBuf_of_offHanks (h : t.offHanks = s.offHanks) : t.offBuf = s.offBuf := (congrArg State.offBuf h :)

theorem links_of_offBuf (h : t.offBuf = s.offBuf) : t.links = s.links := (congrArg State.links h :)
theorem link_of_offBuf (h : t.offBuf = s.offBuf) (lk : Nat) : t.link lk = s.link lk :=
  (congrArg (fun s : State => s.link lk) h :)
theorem host_of_offBuf (h : t.offBuf = s.offBuf) : t.host = s.host := (congrArg State.host h :)
theorem mem_of_offBuf (h : t.offBuf = s.offBuf) : t.mem = s.mem := (congrArg State.mem h :)
theorem out_of_offBuf (h : t.offBuf = s.offBuf) : t.out = s.out := (congrArg State.out h :)

end

section
variable (s : State)

@[simp] theorem offBuf_setBuf (x : BufSt) : (s.setBuf x).offBuf = s.offBuf := rfl
@[simp] theorem offBuf_setRoute (x : RouteSt) : (s.setRoute x).offBuf = s.offBuf := rfl
@[simp] theorem offBuf_setTraf (x : TrafSt) : (s.setTraf x).offBuf = s.offBuf := rfl
@[simp] theorem offBuf_setExp (x : ExpSt) : (s.setExp x).offBuf = s.offBuf := rfl
@[simp] theorem offBuf_setAcct (a : Nat) (x : Acct) : (s.setAcct a x).offBuf = s.offBuf := rfl
@[simp] theorem offBuf_setSched (lk : Nat) (x : Sched) : (s.setSched lk x).offBuf = s.offBuf := rfl
@[simp] theorem offBuf_bumpBy (f : Fam) (u i n : Nat) : (s.bumpBy f u i n).offBuf = s.offBuf := rfl
@[simp] theorem offBuf_bump (f : Fam) (u i : Nat) : (s.bump f u i).offBuf = s.offBuf := rfl
@[simp] theorem offBuf_logRaise (code c st src tag d : Nat) : (s.logRaise code c st src tag d).offBuf = s.offBuf := rfl
@[simp] theorem offBuf_logDiscard (lk cause : Nat) (f : Frame) : (s.logDiscard lk cause f).offBuf = s.offBuf := rfl
@[simp] theorem offBuf_charge (x c cycles sum : Nat) : (s.charge x c cycles sum).offBuf = s.offBuf := rfl
@[simp] theorem offBuf_critical (row unit loc scope target src : Nat) :
    (s.critical row unit loc scope target src).offBuf = s.offBuf := rfl
@[simp] theorem offBuf_chargeAlloc (die kind : Nat) : (s.chargeAlloc die kind).offBuf = s.offBuf := rfl
@[simp] theorem offBuf_advertise (a : Nat) : (s.advertise a).offBuf = s.offBuf := offBuf_of_offHanks (offHanks_advertise ..)
@[simp] theorem offBuf_freeChain (q : Chain) : (s.freeChain q).offBuf = s.offBuf := offBuf_of_offHanks (offHanks_freeChain ..)
@[simp] theorem offBuf_freeChains (l : List Chain) : (l.foldl State.freeChain s).offBuf = s.offBuf :=
  offBuf_of_offHanks (offHanks_freeChains ..)
@[simp] theorem offBuf_freeFrame (q : QFrame) : (s.freeFrame q).offBuf = s.offBuf := offBuf_of_offHanks (offHanks_freeFrame ..)
@[simp] theorem offBuf_noteTorn (die : Nat) (dram : Bool) (hs : List (Nat × Nat)) : (s.noteTorn die dram hs).offBuf = s.offBuf :=
  offBuf_of_offHanks (offHanks_noteTorn ..)
@[simp] theorem offBuf_freshHanks (die : Nat) (hs : List (Nat × Nat)) : (s.freshHanks die hs).offBuf = s.offBuf :=
  offBuf_of_offHanks (offHanks_freshHanks ..)

@[simp] theorem offBuf_tagHead (lk cls n : Nat) (e : Bool) : (s.tagHead lk cls n e).offBuf = s.offBuf := by
  unfold State.tagHead
  split <;> rfl

theorem offBuf_tagHeads (before : State) : (State.tagHeads before s).offBuf = s.offBuf := by
  unfold State.tagHeads
  refine foldl_view State.offBuf (fun s c => ?_) _ s
  split
  · rfl
  · split
    · rfl
    · exact offBuf_tagHead ..

@[simp] theorem offBuf_setFrames (fs : List QFrame) : (s.setFrames fs).offBuf = s.offBuf := offBuf_tagHeads ..

@[simp] theorem offBuf_consume (q : QFrame) : (s.consume q).offBuf = s.offBuf := (offBuf_freeFrame ..).trans (offBuf_setFrames ..)

@[simp] theorem offBuf_mapTokFrames (g : QFrame → QFrame) : (s.mapTokFrames g).offBuf = s.offBuf := rfl

@[simp] theorem offBuf_enqueue (q : QFrame) : (s.enqueue q).offBuf = s.offBuf := by
  unfold State.enqueue
  extract_lets r _ t u
  have hu : u.offBuf = s.offBuf := by rw [offBuf_freshHanks, offBuf_noteTorn, offBuf_setFrames]; rfl
  split
  · exact hu
  · exact hu

@[simp] theorem offBuf_postJob (job : Option ReplJob) : (s.postJob job).offBuf = s.offBuf := by
  unfold State.postJob; split <;> rfl

@[simp] theorem offBuf_routeDiscard (die ing cause : Nat) (f : Frame) : (s.routeDiscard die ing cause f).offBuf = s.offBuf := by
  unfold State.routeDiscard
  extract_lets
  split <;> rfl

/-- A frame that is placed changes what its entry does. -/
theorem offBuf_place (q : QFrame) (r : Routed) {enter : State → QFrame → Option ReplJob → State}
    (he : ∀ s q job, (enter s q job).offBuf = s.offBuf) : (s.place q r enter).offBuf = s.offBuf := by
  unfold State.place
  split
  · extract_lets t
    rw [he]
    unfold t
    split <;> rfl
  · split
    · rfl
    · exact he ..
  · rw [offBuf_routeDiscard, offBuf_freeChains]
  · rw [offBuf_critical, offBuf_freeChains]

@[simp] theorem offBuf_countStamp (die : Nat) (f g : Frame) : (s.countStamp die f g).offBuf = s.offBuf := by
  unfold State.countStamp; split <;> rfl

@[simp] theorem offBuf_enqueueUnit (q : QFrame) (job : Option ReplJob) : (s.enqueueUnit q job).offBuf = s.offBuf := by
  simp [State.enqueueUnit]

@[simp] theorem offBuf_enqueuePort (lk : Nat) (window : Bool) (q : QFrame) (job : Option ReplJob) :
    (s.enqueuePort lk window q job).offBuf = s.offBuf := by
  simp [State.enqueuePort]

@[simp] theorem offBuf_letIn (w : WaitFrame) : (s.letIn w).offBuf = s.offBuf := by
  unfold State.letIn
  extract_lets t f _ q u
  split
  · exact offBuf_enqueueUnit ..
  · rw [offBuf_enqueueUnit, offBuf_countStamp]
  · split
    · rw [offBuf_enqueueUnit, offBuf_countStamp]
    · rw [offBuf_place _ _ _ offBuf_enqueueUnit, offBuf_countStamp]

@[simp] theorem offBuf_sendFrom (die kind : Nat) (f : Frame) : (s.sendFrom die kind f).offBuf = s.offBuf := by
  unfold State.sendFrom State.enterUnit
  split
  · rw [offBuf_letIn, offBuf_chargeAlloc]
  · rfl

end

/-! ### Answers to commands -/

section
variable (s : State)

@[simp] theorem links_sendVector (h : HostId) (v : Nat) : (s.sendVector h v).links = s.links := by
  unfold State.sendVector; extract_lets; split <;> rfl

@[simp] theorem links_irq (b : Nat) (h : HostId) : (s.irq b h).links = s.links := by
  unfold State.irq
  extract_lets p r m t
  split
  · rfl
  · split
    · exact (links_sendVector ..).trans rfl
    · rfl

@[simp] theorem links_irqAll (b : Nat) : (s.irqAll b).links = s.links := by simp [State.irqAll]

@[simp] theorem link_irqAll (b lk : Nat) : (s.irqAll b).link lk = s.link lk := 
  congrArg (fun l : Tab Link => tabGet l {} lk) (links_irqAll s b)

@[simp] theorem links_finish (ticket : Nat) (st : Status) (res : List Fld) : (s.finish ticket st res).links = s.links := by
  unfold State.finish State.finishAt
  split
  · rfl
  · unfold State.respond
    split
    · split
      · rfl
      · extract_lets body b b' b'' u v
        split
        · exact (links_sendVector ..).trans rfl
        · rfl
    · exact (links_of_offBuf (offBuf_sendFrom ..)).trans rfl

@[simp] theorem link_finish (ticket : Nat) (st : Status) (res : List Fld) (lk : Nat) :
    (s.finish ticket st res).link lk = s.link lk := 
  congrArg (fun l : Tab Link => tabGet l {} lk) (links_finish s ticket st res)

end

/-! ### What has been put out stays -/

section
variable {s : State} {x : Out}

theorem mem_out_sendVector (hx : x ∈ s.out) (h : HostId) (v : Nat) : x ∈ (s.sendVector h v).out := by
  unfold State.sendVector
  extract_lets
  split
  · exact hx
  · exact List.mem_append_left _ hx

theorem mem_out_irq (hx : x ∈ s.out) (b : Nat) (h : HostId) : x ∈ (s.irq b h).out := by
  unfold State.irq
  extract_lets p r m t
  split
  · exact hx
  · split
    · exact mem_out_sendVector (s := t) hx ..
    · exact hx

theorem mem_out_irqAll (hx : x ∈ s.out) (b : Nat) : x ∈ (s.irqAll b).out := mem_out_irq (mem_out_irq hx ..) ..

theorem mem_out_finish (hx : x ∈ s.out) (ticket : Nat) (st : Status) (res : List Fld) : x ∈ (s.finish ticket st res).out := by
  unfold State.finish State.finishAt
  split
  · exact hx
  · unfold State.respond
    split
    · split
      · exact hx
      · extract_lets body old b b' b'' u v
        have hv : x ∈ v.out := hx
        split
        · exact mem_out_sendVector hv ..
        · exact hv
    · rw [out_of_offBuf (offBuf_sendFrom ..)]
      exact hx

end

end Sys2Proof.Machine
end

section
/-! SUPPORT. What leaves on a link: ticks, frames and their charges (03 R89, R92, R95, R96; 06 R184 to R188). -/

namespace Sys2Proof.Machine

open Sys2Proof

/-! ### Ticks that cross the egress MAC -/

/-- The state without its links and output. -/
def State.offSend (s : State) : State := { s with links := [], out := [] }

theorem eq_of_offSend {s t : State} (h : t.offSend = s.offSend) : t = { s with links := t.links, out := t.out } := by
  cases s; cases t; simpa [State.offSend] using h

@[simp] theorem offSend_setLink (s : State) (lk : Nat) (l : Link) : (s.setLink lk l).offSend = s.offSend := rfl

@[simp] theorem offSend_sendTick (s : State) (lk : Nat) (w : BitVec 64) : (s.sendTick lk w).offSend = s.offSend := rfl

/-- A link whose pending ticks have all gone. -/
def Link.flushed (l : Link) : Link := { l with ticks := [], sent := l.sent ++ l.ticks.map (fun _ => 1) }

theorem link_foldl_sendTick (lk : Nat) (ts : List (Nat × BitVec 64)) (s : State) :
    (ts.foldl (fun s t => s.sendTick lk t.2) s).link lk = { s.link lk with sent := (s.link lk).sent ++ ts.map (fun _ => 1) } := by
  induction ts generalizing s with
  | nil => simp
  | cons t r ih => rw [List.foldl_cons, ih, link_sendTick]; simp

section
variable (s : State) (lk : Nat)

theorem flush_frame : s.flush lk = { s with links := (s.flush lk).links, out := (s.flush lk).out } := by
  refine eq_of_offSend ?_
  unfold State.flush
  exact (foldl_view State.offSend (fun _ _ => offSend_sendTick ..) _ _).trans (offSend_setLink ..)

theorem link_sendTick_ne (w : BitVec 64) {i : Nat} (h : i ≠ lk) : (s.sendTick lk w).link i = s.link i := link_setLink_ne _ _ h

@[simp] theorem link_flush : (s.flush lk).link lk = (s.link lk).flushed := by
  unfold State.flush
  rw [link_foldl_sendTick, link_setLink_self]
  rfl

theorem link_flush_ne {i : Nat} (h : i ≠ lk) : (s.flush lk).link i = s.link i := by
  unfold State.flush
  exact (foldl_view (fun s : State => s.link i) (fun _ _ => link_sendTick_ne _ _ _ h) _ _).trans (link_setLink_ne _ _ h)

/-! ### Frames that cross the egress MAC -/

/-- A link that has started a frame at pip `pip` (R92, R95, R96). -/
def Link.started (l : Link) (f : Frame) (stomp : Bool) (pip : Nat) : Link :=
  { l with lsn := (l.lsn + 1) % 2 ^ 24, used := tabPut l.used f.vc ((tabGet l.used 0 f.vc + f.n + 1) % 2 ^ 16),
           replay := l.replay ++ [{ lsn := l.lsn, f := f, stomp := stomp, stamp := pip }], sent := l.sent ++ [3 + 8 * f.n] }

/-- A frame as it goes out on a link (R85, R86). -/
def Frame.outOn (f : Frame) (lk lsn : Nat) (stomp : Bool) : Out :=
  .frame lk lsn stomp f.header f.cells (trailerOf f.header f.cells stomp lsn)

/-- Noting that the frame of a request has been sent changes the record of requests alone. -/
theorem noteSent_frame (f : Frame) : s.noteSent f = s.setRoute (s.noteSent f).route := by
  unfold State.noteSent; split <;> rfl

variable (f : Frame) (stomp : Bool)

@[simp] theorem link_transmit : (s.transmit lk f stomp).link lk = (s.link lk).started f stomp s.time.pip := by
  unfold State.transmit
  extract_lets l t
  rw [noteSent_frame]
  refine (link_setLink_self ..).trans ?_
  have ht : (t.setRoute (t.noteSent f).route).link lk = t.link lk := rfl
  rw [ht, link_setLink_self]
  rfl

theorem link_transmit_ne {i : Nat} (h : i ≠ lk) : (s.transmit lk f stomp).link i = s.link i := by
  unfold State.transmit
  extract_lets l t
  rw [noteSent_frame]
  exact (link_setLink_ne _ _ h).trans (link_setLink_ne _ _ h)

@[simp] theorem out_transmit : (s.transmit lk f stomp).out = s.out ++ [f.outOn lk (s.link lk).lsn stomp] := by
  unfold State.transmit
  extract_lets l t
  rw [noteSent_frame]
  rfl

theorem transmit_frame : s.transmit lk f stomp =
    { s with links := (s.transmit lk f stomp).links, out := (s.transmit lk f stomp).out, route := (s.transmit lk f stomp).route } := by
  unfold State.transmit
  extract_lets l t
  rw [noteSent_frame]
  rfl

end

/-! ### The charges of a start -/

/-- The state without traffic management, counters and charges. -/
def State.offCharge (s : State) : State := { s with traf := {}, cnt := [], pwr := {} }

theorem eq_of_offCharge {s t : State} (h : t.offCharge = s.offCharge) : t = { s with traf := t.traf, cnt := t.cnt, pwr := t.pwr } := by
  cases s; cases t; simpa [State.offCharge] using h

section
variable (s : State) (lk : Nat)

@[simp] theorem offCharge_advanceV (cls : Nat) : (s.advanceV lk cls).offCharge = s.offCharge := by
  unfold State.advanceV; split <;> rfl

@[simp] theorem offCharge_tagHead (cls n : Nat) (e : Bool) : (s.tagHead lk cls n e).offCharge = s.offCharge := by
  unfold State.tagHead; split <;> rfl

@[simp] theorem offCharge_chargeStart (f : Frame) (was : Bool) : (s.chargeStart lk f was).offCharge = s.offCharge := by
  unfold State.chargeStart
  extract_lets len t u v
  have hv : v.offCharge = u.offCharge := by unfold v; split <;> rfl
  exact hv.trans (offCharge_advanceV ..)

/-- A start charges traffic management, counters and its domain. -/
theorem chargeStart_frame (f : Frame) (was : Bool) : s.chargeStart lk f was =
    { s with traf := (s.chargeStart lk f was).traf, cnt := (s.chargeStart lk f was).cnt, pwr := (s.chargeStart lk f was).pwr } :=
  eq_of_offCharge (offCharge_chargeStart ..)

@[simp] theorem link_chargeStart (f : Frame) (was : Bool) (i : Nat) : (s.chargeStart lk f was).link i = s.link i := by
  rw [chargeStart_frame]; rfl

end

end Sys2Proof.Machine
end

section
/-! SUPPORT. FRAME_RECEIVE (03 R86, R87, R97; 05 R156 to R161, R169). -/

namespace Sys2Proof.Machine

open Sys2Proof

/-! ### Routing never names the ingress link (05 R157 to R161, R169) -/

theorem foldl_min_mem (l : List Nat) (a : Nat) : l.foldl min a = a ∨ l.foldl min a ∈ l := by
  induction l generalizing a with
  | nil => exact .inl rfl
  | cons b r ih =>
    rw [List.foldl_cons]
    rcases ih (min a b) with h | h
    · rw [h]
      rcases Nat.le_total a b with hab | hab
      · exact .inl (Nat.min_eq_left hab)
      · exact .inr (List.mem_cons.mpr (.inl (Nat.min_eq_right hab)))
    · exact .inr (List.mem_cons_of_mem _ h)

theorem orderedPick_mem {c : List Nat} (hc : c ≠ []) (h : Nat) : orderedPick c h ∈ c := by
  have hlt : h % 2 ^ 15 % c.length < c.length := Nat.mod_lt _ (List.length_pos_iff.mpr hc)
  unfold orderedPick
  rw [← List.getElem_eq_getD (h := hlt)]
  exact List.getElem_mem hlt

/-- The least of the depths is that of one of the candidates. -/
theorem exists_least {l : List Nat} (hl : l ≠ []) (w : Nat → Nat) : ∃ x ∈ l, w x = (l.map w).foldl min (w (l.headD 0)) := by
  cases l with
  | nil => exact absurd rfl hl
  | cons a r =>
    rcases foldl_min_mem ((a :: r).map w) (w a) with h | h
    · exact ⟨a, List.mem_cons_self, h.symm⟩
    · exact List.mem_map.mp h

theorem adaptivePick_mem (s : State) {c : List Nat} (hc : c ≠ []) (h vc : Nat) : (s.adaptivePick c h vc).1 ∈ c := by
  unfold State.adaptivePick
  extract_lets live least tied
  split
  · exact orderedPick_mem hc h
  · next hlive =>
    dsimp only
    split
    · exact orderedPick_mem hc h
    · obtain ⟨x, hx, hw⟩ := exists_least (List.isEmpty_eq_false_iff.mp (Bool.not_eq_true _ ▸ hlive)) (s.weighedDepth vc)
      have htied : tied ≠ [] := List.ne_nil_of_mem (List.mem_filter.mpr ⟨hx, by simpa [least] using hw⟩)
      have hmem : tied.headD 0 ∈ tied := by
        cases ht : tied with
        | nil => exact absurd ht htied
        | cons y r => exact List.mem_cons_self
      exact (List.mem_filter.mp (List.mem_filter.mp hmem).1).1

theorem candOk_ne {s : State} {ing lk : Nat} (h : s.candOk ing lk = true) : lk ≠ ing := by
  simp only [State.candOk, Bool.and_eq_true, bne_iff_ne] at h
  exact h.1

/-- What routing answers names another link than the one of ingress as the egress. -/
def Routed.avoids (r : Routed) (ing : Nat) : Prop :=
  match r with
  | .to e _ _ _ => e ≠ ing
  | .many (.link e :: _) _ => e ≠ ing
  | _ => True

theorem routeUnicast_avoids (s : State) (die ing : Nat) (f : Frame) : (s.routeUnicast die ing f).avoids ing := by
  unfold State.routeUnicast
  split
  · trivial
  · split
    · trivial
    · split
      · trivial
      · extract_lets b r c h p
        split
        · trivial
        · split
          · trivial
          · split
            · trivial
            · next hc =>
              have hne : c ≠ [] := fun h => hc (by rw [h]; rfl)
              have hcand : ∀ lk ∈ c, lk ≠ ing := fun lk hlk => candOk_ne (List.mem_filter.mp hlk).2
              split
              · exact hcand _ (orderedPick_mem hne _)
              · exact hcand _ (adaptivePick_mem s hne _ _)

theorem fanOut_ne {s : State} {e ing lk : Nat} (hm : Dest.link lk ∈ s.fanOut e ing) : lk ≠ ing := by
  unfold State.fanOut at hm
  rcases List.mem_append.mp hm with hm | hm
  · obtain ⟨x, hx, hxl⟩ := List.mem_map.mp hm
    cases hxl
    simpa using (List.mem_filter.mp hx).2
  · obtain ⟨x, -, hxl⟩ := List.mem_map.mp hm
    cases hxl

theorem routeMulticast_avoids (s : State) (die ing : Nat) (f : Frame) : (s.routeMulticast die ing f).avoids ing := by
  unfold State.routeMulticast
  split
  · trivial
  · split
    · trivial
    · extract_lets b e d
      split
      · trivial
      · split
        · trivial
        · split
          · trivial
          · have hd : ∀ lk, .link lk ∈ d → lk ≠ ing := fun lk => fanOut_ne
            clear_value d
            match d, hd with
            | .link lk :: r, hd => exact hd lk List.mem_cons_self
            | [], _ => trivial
            | .skein _ :: _, _ => trivial
            | .tally :: _, _ => trivial
            | .ladder :: _, _ => trivial
            | .needle :: _, _ => trivial
            | .directory :: _, _ => trivial

theorem routeAt_avoids (s : State) (die ing : Nat) (f : Frame) : (s.routeAt die ing f).avoids ing := by
  unfold State.routeAt
  split
  · exact routeMulticast_avoids ..
  · exact routeUnicast_avoids ..

/-! ### A copy that ends stomped (R86) -/

/-- The copy `g` of a frame `f` that began on an egress ends with stomp = 1; `empty` says that its class was. -/
def State.endStomped (s : State) (e : Nat) (f g : Frame) (empty : Bool) : State :=
  ((((s.tagHead e f.vc f.n empty).flush e).chargeStart e g f.ecn).bump .port e pcStompSent).transmit e g true

/-- A frame that is not accepted leaves at most a stomped copy, on another link than it came from. -/
theorem stompCopy_cases (s : State) (lk : Nat) (window : Bool) (f : Frame) :
    s.stompCopy lk window f = s ∨ (∃ n, s.stompCopy lk window f = s.setFree n) ∨
      ∃ n e f' g empty, e ≠ lk ∧ s.stompCopy lk window f = (s.setFree n).endStomped e f' g empty := by
  unfold State.stompCopy
  extract_lets f' q out
  split
  · exact .inl rfl
  · cases hout : out with
    | none => exact .inl rfl
    | some x =>
      obtain ⟨e, h⟩ := x
      have he : e ≠ lk := by
        unfold out at hout
        split at hout
        · next hr =>
          cases hout
          have h := routeAt_avoids s (linkDie lk) lk (s.stamp f')
          rw [hr] at h
          exact h
        · next hr =>
          cases hout
          have h := routeAt_avoids s (linkDie lk) lk (s.stamp f')
          rw [hr] at h
          exact h
        · cases hout
      dsimp only
      split
      · exact .inl rfl
      · split
        · exact .inr (.inl ⟨_, rfl⟩)
        · exact .inr (.inr ⟨_, e, _, _, _, he, rfl⟩)

/-- The state without what a stomped copy on an egress changes. -/
def State.offEgress (s : State) : State := { s with links := [], out := [], route := {}, traf := {}, cnt := [], pwr := {}, free := 0 }

theorem offEgress_endStomped (s : State) (e : Nat) (f g : Frame) (empty : Bool) : (s.endStomped e f g empty).offEgress = s.offEgress := by
  unfold State.endStomped
  rw [transmit_frame, chargeStart_frame, flush_frame]
  exact (congrArg State.offEgress (offCharge_tagHead s e f.vc f.n empty) :)

theorem link_endStomped (s : State) {e lk : Nat} (he : e ≠ lk) (f g : Frame) (empty : Bool) :
    (s.endStomped e f g empty).link lk = s.link lk := by
  unfold State.endStomped
  rw [link_transmit_ne _ _ _ _ he.symm]
  refine (link_chargeStart ..).trans ?_
  rw [link_flush_ne _ _ he.symm]
  exact (congrArg (fun s : State => s.link lk) (offCharge_tagHead s e f.vc f.n empty) :)

theorem offEgress_stompCopy (s : State) (lk : Nat) (window : Bool) (f : Frame) :
    (s.stompCopy lk window f).offEgress = s.offEgress := by
  rcases stompCopy_cases s lk window f with h | ⟨n, h⟩ | ⟨n, e, f', g, empty, -, h⟩ <;> rw [h]
  · rfl
  · exact offEgress_endStomped ..

theorem link_stompCopy (s : State) (lk : Nat) (window : Bool) (f : Frame) : (s.stompCopy lk window f).link lk = s.link lk := by
  rcases stompCopy_cases s lk window f with h | ⟨n, h⟩ | ⟨n, e, f', g, empty, he, h⟩ <;> rw [h]
  · rfl
  · exact link_endStomped _ he ..

/-! ### The content of an accepted frame (R82 to R84) -/

/-- Accepted content changes what a switch core changes, or is a profile that waits on its link (R113). -/
theorem acceptContent_cases (s : State) (lk : Nat) (window : Bool) (f : Frame) :
    (s.acceptContent lk window f).offBuf = s.offBuf ∨
      ∃ x, s.acceptContent lk window f = s.setLink lk { s.link lk with profPend := x } := by
  unfold State.acceptContent
  extract_lets l die f' g q t
  split
  · exact .inl rfl
  · split
    · exact .inl rfl
    · split
      · exact .inr ⟨_, rfl⟩
      · split
        · exact .inl rfl
        · split
          · exact .inl rfl
          · split
            · exact .inl rfl
            · have ht : t.offBuf = s.offBuf := offBuf_countStamp ..
              split
              · exact .inl ((offBuf_enqueuePort ..).trans ht)
              · exact .inl ((offBuf_place _ _ _ (fun _ _ _ => offBuf_enqueuePort ..)).trans ht)

/-! ### A frame taken under R97 -/

/-- What metering, or the count of a frame beyond its credits, changes. -/
theorem meterFrame_frame (s : State) (lk : Nat) (f : Frame) :
    (s.meterFrame lk f).1 = { s with traf := (s.meterFrame lk f).1.traf, cnt := (s.meterFrame lk f).1.cnt } := by
  unfold State.meterFrame
  extract_lets oluac colour m traf r t
  unfold t r
  split <;> rfl

/-! ### The NAK of R97 -/

theorem nakWith_out {s : State} {prio lk cause : Nat} (h : (s.link lk).nakOut = true) : s.nakWith prio lk cause = s := by
  unfold State.nakWith
  exact if_pos h

theorem nakWith_posted {s : State} {prio lk cause : Nat} (ho : (s.link lk).nakOut = false) (hs : (s.link lk).rxSwap = none)
    (hh : (s.link lk).rxHold = none) :
    s.nakWith prio lk cause = (s.bump .port lk pcNakSent).setLink lk
      ({ s.link lk with nakOut := true }.post prio (nakWord (s.link lk).expected cause)) := by
  unfold State.nakWith
  simp only [ho, hs, hh]
  rfl

/-- A NAK that is owed changes at most its link and a counter. -/
theorem nakWith_frame (s : State) (prio lk cause : Nat) : s.nakWith prio lk cause =
    { s with links := (s.nakWith prio lk cause).links, cnt := (s.nakWith prio lk cause).cnt } := by
  unfold State.nakWith
  extract_lets l
  split
  · rfl
  · split <;> rfl

/-- A NAK that is owed changes at most the state of NAKs and the pending ticks of its link, and those that are pending stay. -/
theorem link_nakWith (s : State) (prio lk cause : Nat) :
    ∃ o h ts, (s.nakWith prio lk cause).link lk = { s.link lk with nakOut := o, nakHeld := h, ticks := ts } ∧
      ((s.link lk).nakOut = true → o = true) ∧ ∀ q ∈ (s.link lk).ticks, q ∈ ts := by
  unfold State.nakWith
  extract_lets l
  split
  · exact ⟨_, _, _, rfl, id, fun _ h => h⟩
  · split
    · exact ⟨_, _, _, link_setLink_self .., id, fun _ h => h⟩
    · exact ⟨_, _, _, link_setLink_self .., fun _ => rfl, fun _ h => mem_post.mpr (.inr h)⟩

/-! ### A frame whose header is good -/

/-- A link that has accepted the frame it expected (R97). -/
def Link.accepted (l : Link) : Link := { l with expected := (l.expected + 1) % 2 ^ 24, nakOut := false, ackDue := true }

section
variable (s : State) (lk : Nat) (f : Frame) (stomp past : Bool)

/-- The state with a frame accepted and its credits consumed. -/
def State.credited : State :=
  let t := (s.bump .port lk pcAccepted).setLink lk (s.link lk).accepted
  let a := portAcct (s.phOf lk) f.vc
  t.setAcct a { s.acct a with o := (s.acct a).o - (f.n + 1) }

theorem acceptFrame_stomped : s.acceptFrame lk f true false =
    (((s.credited lk f).bump .port lk pcStompRecv).stompCopy lk (s.link lk).nakOut f).advertise (portAcct (s.phOf lk) f.vc) := by
  simp only [State.acceptFrame, Bool.false_eq_true, if_false]
  rfl

theorem acceptFrame_whole : s.acceptFrame lk f false false =
    ((s.credited lk f).acceptContent lk (s.link lk).nakOut f).advertise (portAcct (s.phOf lk) f.vc) := by
  simp only [State.acceptFrame, Bool.false_eq_true, if_false]
  rfl

theorem link_credited : (s.credited lk f).link lk = (s.link lk).accepted := link_setLink_self ..

/-- An accepted frame changes the link's record as R97 says, but for a profile that waits. -/
theorem link_acceptFrame : ∃ x, (s.acceptFrame lk f stomp past).link lk = { (s.link lk).accepted with profPend := x } := by
  cases past with
  | true => exact ⟨_, link_setLink_self ..⟩
  | false =>
    cases stomp with
    | true =>
      rw [acceptFrame_stomped, link_of_offBuf (offBuf_advertise ..), link_stompCopy]
      exact ⟨_, link_credited s lk f⟩
    | false =>
      rw [acceptFrame_whole, link_of_offBuf (offBuf_advertise ..)]
      rcases acceptContent_cases (s.credited lk f) lk (s.link lk).nakOut f with h | ⟨x, h⟩
      · exact ⟨_, (link_of_offBuf h lk).trans (link_credited s lk f)⟩
      · rw [h, link_setLink_self, link_credited]
        exact ⟨x, rfl⟩

theorem acceptFrame_mem_host : (s.acceptFrame lk f stomp past).mem = s.mem ∧ (s.acceptFrame lk f stomp past).host = s.host := by
  cases past with
  | true => exact ⟨rfl, rfl⟩
  | false =>
    cases stomp with
    | true =>
      have h := offEgress_stompCopy ((s.credited lk f).bump .port lk pcStompRecv) lk (s.link lk).nakOut f
      rw [acceptFrame_stomped]
      generalize ((s.credited lk f).bump .port lk pcStompRecv).stompCopy lk (s.link lk).nakOut f = t at h
      have ha := offBuf_advertise t (portAcct (s.phOf lk) f.vc)
      exact ⟨(mem_of_offBuf ha).trans (congrArg State.mem h :), (host_of_offBuf ha).trans (congrArg State.host h :)⟩
    | false =>
      rw [acceptFrame_whole, mem_of_offBuf (offBuf_advertise ..), host_of_offBuf (offBuf_advertise ..)]
      rcases acceptContent_cases (s.credited lk f) lk (s.link lk).nakOut f with h | ⟨x, h⟩
      · exact ⟨(mem_of_offBuf h).trans rfl, (host_of_offBuf h).trans rfl⟩
      · rw [h]; exact ⟨rfl, rfl⟩

theorem frames_acceptFrame_stomped : (s.acceptFrame lk f true past).buf.frames = s.buf.frames := by
  cases past with
  | true => rfl
  | false =>
    have h := offEgress_stompCopy ((s.credited lk f).bump .port lk pcStompRecv) lk (s.link lk).nakOut f
    rw [acceptFrame_stomped, frames_of_offHanks (offHanks_advertise ..)]
    exact (congrArg (fun s : State => s.buf.frames) h :)

end

/-- What a frame that is not accepted leaves (R97): a stomped copy where it goes, unless it came beyond its credits (R562). -/
def State.unaccepted (s : State) (lk : Nat) (past : Bool) (f : Frame) : State :=
  if past then s else s.stompCopy lk (s.link lk).nakOut f

theorem offEgress_unaccepted (s : State) (lk : Nat) (past : Bool) (f : Frame) :
    (s.unaccepted lk past f).offEgress = s.offEgress := by
  cases past
  · exact offEgress_stompCopy ..
  · rfl

theorem link_unaccepted (s : State) (lk : Nat) (past : Bool) (f : Frame) : (s.unaccepted lk past f).link lk = s.link lk := by
  cases past
  · exact link_stompCopy ..
  · rfl

/-- What R97 does with a frame of a good header: `sound` says that its trailer's crc is good, `d` is the distance of its lsn from the
one expected, and `past` that it came beyond its credits (R562). -/
def State.judged (s : State) (lk : Nat) (past : Bool) (f : Frame) (sound : Bool) (d : Int) (stomp : Bool) : State :=
  if !sound then ((s.unaccepted lk past f).bump .port lk pcCrcFail).nak lk 0
  else if d < 0 then s.unaccepted lk past f
  else if d > 0 then (s.unaccepted lk past f).nak lk 1
  else s.acceptFrame lk f stomp past

/-- The outcome of R97, with the state that an unaccepted frame leaves named once. -/
theorem judged_outcome {s lost : State} {lk : Nat} {past : Bool} {f : Frame} (h : lost = s.unaccepted lk past f) (sound : Bool)
    (d : Int) (stomp : Bool) :
    (if !sound then .next ((lost.bump .port lk pcCrcFail).nak lk 0)
      else if d < 0 then .next lost
      else if d > 0 then .next (lost.nak lk 1)
      else .next (s.acceptFrame lk f stomp past) : Host.Outcome State Fault Refusal) =
    .next (s.judged lk past f sound d stomp) := by
  unfold State.judged
  rw [← h]
  cases sound
  · rfl
  · simp only [Bool.not_true, Bool.false_eq_true, if_false]
    by_cases h₁ : d < 0
    · simp only [if_pos h₁]
    · by_cases h₂ : d > 0
      · simp only [if_neg h₁, if_pos h₂]
      · simp only [if_neg h₁, if_neg h₂]

/-- A frame of a good crc before the one expected is dropped, one after it is also answered with a NAK. -/
theorem judged_before {d : Int} (s : State) (lk : Nat) (past : Bool) (f : Frame) (stomp : Bool) (h : d < 0) :
    s.judged lk past f true d stomp = s.unaccepted lk past f := by
  simp [State.judged, h]

theorem judged_after {d : Int} (s : State) (lk : Nat) (past : Bool) (f : Frame) (stomp : Bool) (h : 0 < d) :
    s.judged lk past f true d stomp = (s.unaccepted lk past f).nak lk 1 := by
  simp [State.judged, h, h.le]

theorem judged_unsound (s : State) (lk : Nat) (past : Bool) (f : Frame) (d : Int) (stomp : Bool) :
    s.judged lk past f false d stomp = ((s.unaccepted lk past f).bump .port lk pcCrcFail).nak lk 0 := by
  simp [State.judged]

theorem judged_expected (s : State) (lk : Nat) (past : Bool) (f : Frame) (stomp : Bool) :
    s.judged lk past f true 0 stomp = s.acceptFrame lk f stomp past := by
  simp [State.judged]

/-- A NAK that is owed is posted, unless one is outstanding, and leaves the buffers and the number expected. -/
theorem nak_owed (s : State) (lk cause : Nat) :
    ((s.nak lk cause).link lk).expected = (s.link lk).expected ∧ (s.nak lk cause).buf = s.buf ∧
      ((s.link lk).nakOut = true → (s.nak lk cause).link lk = s.link lk) ∧
      ((s.link lk).nakOut = false → (s.link lk).rxSwap = none → (s.link lk).rxHold = none →
        ((s.nak lk cause).link lk).nakOut = true ∧
          ∃ q ∈ ((s.nak lk cause).link lk).ticks, q.2 = nakWord (s.link lk).expected cause) := by
  unfold State.nak
  refine ⟨?_, (congrArg State.buf (nakWith_frame s prioNak lk cause) :), fun h => by rw [nakWith_out h], fun ho hs hh => ?_⟩
  · obtain ⟨o, h, ts, hl, -, -⟩ := link_nakWith s prioNak lk cause
    rw [hl]
  · rw [nakWith_posted ho hs hh, link_setLink_self]
    exact ⟨rfl, _, mem_post.mpr (.inl rfl), rfl⟩

section
variable {lk : Nat} {hdr : BitVec 128} {cells : List Byte} {trl : BitVec 64} {s : State}
  (hl : (s.link lk).live = true) (hd : (s.link lk).delin = true) (ht : s.linkTorn lk = none)
include hl hd ht

theorem exec_frameReceive_bad (hh : headerGood hdr = false) :
    exec (.frameReceive lk hdr cells trl) s = .next (s.loseDelin lk).settle := by
  show settled (rowFrameReceive lk hdr cells trl s) = _
  simp [rowFrameReceive, hl, hd, ht, hh]

/-- A frame of a good header is metered, or counted, and judged by R97. -/
theorem exec_frameReceive_good (hh : headerGood hdr = true) :
    ∃ (a : State) (f : Frame) (past : Bool), a = { s with log := a.log, traf := a.traf, cnt := a.cnt } ∧
      exec (.frameReceive lk hdr cells trl) s = .next (a.judged lk past f (trailerGood hdr cells trl)
        (lsnDiff (bits trl.toNat 32 24) (s.link lk).expected) (bit trl.toNat 63)).settle := by
  show ∃ (a : State) (f : Frame) (past : Bool), _ ∧ settled (rowFrameReceive lk hdr cells trl s) = _
  unfold rowFrameReceive
  extract_lets l f lsn past m a lost d
  rw [if_neg (by simp [l, hl, hd])]
  simp only [ht]
  rw [if_neg (by simp [hh])]
  have hm : m.1 = { s with log := m.1.log, traf := m.1.traf, cnt := m.1.cnt } := by
    unfold m
    split
    · rfl
    · rw [meterFrame_frame]
  have ha : a = { s with log := a.log, traf := a.traf, cnt := a.cnt } := by
    unfold a
    split
    · rw [hm]; rfl
    · exact hm
  have hlink : a.link lk = l := (congrArg (fun s : State => s.link lk) ha :)
  have hlost : lost = a.unaccepted lk past m.2 := by
    unfold State.unaccepted
    rw [hlink]
  exact ⟨a, m.2, past, ha, congrArg settled (judged_outcome hlost _ d _)⟩

end

/-- Settles O4: a good header sends the frame to R97 (`exec_frameReceive_good`), whose three outcomes are an accepted frame, the copy
that an unaccepted one leaves, and that copy with a NAK. -/
theorem frameReceiveRules : Obligations.FrameReceiveRules := by
  unfold Obligations.FrameReceiveRules
  intro lk hdr cells trl s hl hd ht
  refine ⟨fun hh => ⟨s.loseDelin lk, exec_frameReceive_bad hl hd ht hh, ?_, ?_⟩, fun hh hg h => ?_, fun hh hg h => ?_,
    fun cause hh hc => ?_⟩
  · exact congrArg Link.delin (link_setLink_self ..)
  · rfl
  · obtain ⟨a, f, past, ha, he⟩ := exec_frameReceive_good (cells := cells) (trl := trl) hl hd ht hh
    have hlink : a.link lk = s.link lk := (congrArg (fun s : State => s.link lk) ha :)
    rw [hg, h, judged_expected] at he
    obtain ⟨x, hx⟩ := link_acceptFrame a lk f (bit trl.toNat 63) past
    obtain ⟨hmem, hhost⟩ := acceptFrame_mem_host a lk f (bit trl.toNat 63) past
    rw [hlink] at hx
    refine ⟨_, he, by rw [hx]; rfl, by rw [hx]; rfl, by rw [hx]; rfl, hmem.trans (congrArg State.mem ha :),
      hhost.trans (congrArg State.host ha :), fun hs => ?_⟩
    rw [hs, frames_acceptFrame_stomped]
    exact (congrArg (fun s : State => s.buf.frames) ha :)
  · obtain ⟨a, f, past, ha, he⟩ := exec_frameReceive_good (cells := cells) (trl := trl) hl hd ht hh
    have hu := offEgress_unaccepted a lk past f
    rw [hg, judged_before _ _ _ _ _ h] at he
    exact ⟨_, he, (congrArg State.buf hu :).trans (congrArg State.buf ha :), (congrArg State.mem hu :).trans (congrArg State.mem ha :),
      (congrArg State.host hu :).trans (congrArg State.host ha :),
      (link_unaccepted ..).trans (congrArg (fun s : State => s.link lk) ha :)⟩
  · obtain ⟨a, f, past, ha, he⟩ := exec_frameReceive_good (cells := cells) (trl := trl) hl hd ht hh
    have hlink : a.link lk = s.link lk := (congrArg (fun s : State => s.link lk) ha :)
    have hu := offEgress_unaccepted a lk past f
    have hbuf : (a.unaccepted lk past f).buf = s.buf := (congrArg State.buf hu :).trans (congrArg State.buf ha :)
    have hl' : (a.unaccepted lk past f).link lk = s.link lk := (link_unaccepted ..).trans hlink
    obtain ⟨t, htl, htb, hnak⟩ : ∃ t : State, t.link lk = s.link lk ∧ t.buf = s.buf ∧
        exec (.frameReceive lk hdr cells trl) s = .next (t.nak lk cause).settle := by
      rcases hc with ⟨hg, rfl⟩ | ⟨hg, h, rfl⟩
      · rw [hg, judged_unsound] at he
        exact ⟨(a.unaccepted lk past f).bump .port lk pcCrcFail, hl', hbuf, he⟩
      · rw [hg, judged_after _ _ _ _ _ h] at he
        exact ⟨a.unaccepted lk past f, hl', hbuf, he⟩
    obtain ⟨hexp, hb, hout, hpost⟩ := nak_owed t lk cause
    rw [htl] at hexp hout hpost
    exact ⟨_, hnak, hexp, hb.trans htb, hout, hpost⟩

end Sys2Proof.Machine
end

section
/-! SUPPORT. Flow control and replay: CREDIT, ACK, NAK, SKIP, what is due, and ticks that say nothing (03 R87 to R103). -/

namespace Sys2Proof.Machine

open Sys2Proof

/-! ### Counters -/

/-- Counters of different places in a unit's block are different. -/
theorem cKey_ne {f : Fam} {u u' i j : Nat} (h : i % 2 ^ 12 ≠ j % 2 ^ 12) : cKey f u i ≠ cKey f u' j := by
  simp only [cKey]
  omega

theorem count_bump_self (s : State) (f : Fam) (u i : Nat) : (s.bump f u i).count f u i = min cMax (s.count f u i + 1) :=
  tabGet_tabPut_self ..

theorem count_bump_ne (s : State) {f g : Fam} {u v i j : Nat} (h : cKey g v j ≠ cKey f u i) :
    (s.bump f u i).count g v j = s.count g v j := tabGet_tabPut_ne _ _ _ h

/-! ### CREDIT (R91, R93) -/

theorem total_credit_self (l : Link) (vc total : Nat) : tabGet (l.credit vc total).total 0 vc = total := tabGet_tabPut_self ..

theorem total_credit_ne (l : Link) (total : Nat) {vc v : Nat} (h : v ≠ vc) :
    tabGet (l.credit vc total).total 0 v = tabGet l.total 0 v := tabGet_tabPut_ne _ _ _ h

theorem allow_credit_ne (l : Link) (total : Nat) {vc v : Nat} (h : v ≠ vc) :
    tabGet (l.credit vc total).allow 0 v = tabGet l.allow 0 v := tabGet_tabPut_ne _ _ _ h

/-! ### A replay (R100, R102, R103) -/

section
variable {s : State} {lk lsn : Nat} {x : Sent} (hf : (s.link lk).replay.find? (·.lsn == lsn) = some x)
  (hh : (s.link lk).held = false)
include hf hh

/-- A frame replayed fewer than 3 times, without an uncorrectable word, is sent again and counts a replay. -/
theorem replayFrom_again (hr : x.replays < 3) (hu : s.siteUe (.replay lk lsn) = false) :
    s.replayFrom lk lsn = (s.bump .port lk pcReplay).setLink lk { s.link lk with
      resendFrom := some lsn,
      replay := (s.link lk).replay.map (fun y => if y.lsn = lsn then { y with replays := y.replays + 1 } else y) } := by
  have hr' : ¬3 ≤ x.replays := by omega
  simp [State.replayFrom, hf, hh, hr', hu]

/-- A link that gives up a frame of its replay buffer, and says so. -/
def Link.skipped (l : Link) (x : Sent) (lsn : Nat) : Link :=
  { l with replay := l.replay.filter (·.lsn != lsn), skips := l.skips ++ [(lsn, x.f.vc, x.f.n + 1)], resendFrom := l.nextReplay lsn }.post
    prioSkip (skipWord lsn x.f.vc (x.f.n + 1))

/-- One replayed 3 times, or with an uncorrectable word, is discarded with a SKIP. -/
theorem replayFrom_skip (h : 3 ≤ x.replays ∨ s.siteUe (.replay lk lsn) = true) :
    s.replayFrom lk lsn = ((s.noteReplayUe lk lsn).bump .port lk pcSkipSent).setLink lk ((s.link lk).skipped x lsn) := by
  have hc : (decide (x.replays ≥ 3) || s.siteUe (.replay lk lsn)) = true := by simpa using h
  simp [State.replayFrom, hf, hh, hc, Link.skipped]

end

theorem skip_mem_skipped (l : Link) (x : Sent) (lsn : Nat) :
    ∃ q ∈ (l.skipped x lsn).ticks, q.2 = skipWord lsn x.f.vc (x.f.n + 1) := ⟨_, mem_post.mpr (.inl rfl), rfl⟩

theorem noteReplayUe_none {s : State} {lk lsn : Nat} (h : s.siteUe (.replay lk lsn) = false) : s.noteReplayUe lk lsn = s := by
  simp [State.noteReplayUe, h]

theorem noteReplayUe_logged {s : State} {lk lsn : Nat} (h : s.siteUe (.replay lk lsn) = true) :
    ∃ e ∈ (s.noteReplayUe lk lsn).log.raised, e.code = 0x1101 := by
  simp only [State.noteReplayUe, h, if_true]
  exact ⟨_, List.mem_append_right _ (List.mem_singleton.mpr rfl), rfl⟩

/-- A link whose last advance is now (R102). -/
def State.advanced (s : State) (lk : Nat) : State := s.setLink lk { s.link lk with adv := s.time.pip }

theorem link_advanced (s : State) (lk : Nat) : (s.advanced lk).link lk = { s.link lk with adv := s.time.pip } := link_setLink_self ..

theorem exec_nak {s : State} {lk : Nat} {w : BitVec 64} (hl : (s.link lk).live = true) (hd : (s.link lk).delin = true)
    (hw : tickIs w 3 = true) :
    exec (.nak lk w) s = .next (((s.bump .port lk pcNakRecv).advanced lk).replayFrom lk (bits w.toNat 32 24)) := by
  show execNak lk w s = _
  unfold execNak
  rw [tickRow_next hl hd (tickGood_of_tickIs hw) hw]
  rfl

theorem exec_replayTimeout {s : State} {lk : Nat} {x : Sent} {r : List Sent} (hl : (s.link lk).live = true)
    (hr : (s.link lk).replay = x :: r) (ht : max x.stamp (s.link lk).adv + s.linkSetting idReplayTo lk * 1000 ≤ s.time.pip) :
    exec (.replayTimeout lk) s = .next ((s.advanced lk).replayFrom lk x.lsn) := by
  show execReplayTimeout lk s = _
  unfold execReplayTimeout
  extract_lets l
  split
  · next h => cases hr.symm.trans h
  · next y r' h =>
    cases hr.symm.trans h
    rw [if_pos (by rw [hl, decide_eq_true ht]; rfl)]
    rfl

/-! ### Advertising (R131) -/

/-- Credits that are advertised change accounts and the arbiter of hank allocation alone. -/
theorem advertise_frame (s : State) (a : Nat) :
    s.advertise a = { s with buf := (s.advertise a).buf, traf := (s.advertise a).traf } := by
  have hg : s.giveCredits a = { s with buf := (s.giveCredits a).buf, traf := (s.giveCredits a).traf } := by
    unfold State.giveCredits
    extract_lets
    split <;> rfl
  unfold State.advertise
  split
  · rfl
  · extract_lets u
    split
    · exact hg
    · rw [show u = _ from hg]; rfl

/-! ### What is sent when it is due (R89, R94, R98) -/

/-- A link whose ACK is pending. -/
def State.postAck (s : State) (lk : Nat) : State :=
  s.setLink lk ({ s.link lk with ackDue := false }.post prioAck (ackWord (((s.link lk).expected + 2 ^ 24 - 1) % 2 ^ 24)))

theorem exec_ackSend {s : State} {lk : Nat} (hs : (s.link lk).sends = true) (hd : (s.link lk).ackDue = true) :
    exec (.ackSend lk) s = .next ((s.postAck lk).flush lk) := by
  show execAckSend lk s = _
  unfold execAckSend
  extract_lets l
  rw [if_pos (by rw [hs, hd]; rfl)]
  rfl

/-- The VCs whose credits are due and may be said. -/
def State.creditsDue (s : State) (lk : Nat) : List Nat :=
  (List.range 8).filter (fun v => decide ((s.acct (portAcct (s.phOf lk) v)).freed ≠ 0) && (decide (v = 0) || !s.vcBlocked lk))

theorem exec_creditSend {s : State} {lk : Nat} (hs : (s.link lk).sends = true) (hd : s.creditsDue lk ≠ []) :
    exec (.creditSend lk) s = .next ((s.postCredits lk (s.creditsDue lk)).flush lk) := by
  show execCreditSend lk s = _
  unfold execCreditSend
  extract_lets due
  have hd' : due ≠ [] := hd
  rw [if_pos (by simp [hs, hd'])]
  rfl

/-- Every VC of the list stands in a CREDIT tick. -/
theorem mem_creditTicks (s : State) (lk v : Nat) (vcs : List Nat) (h : v ∈ vcs) : ∃ x y,
    creditWord v (s.totalOf lk v) x y ∈ s.creditTicks lk vcs ∨ creditWord x y v (s.totalOf lk v) ∈ s.creditTicks lk vcs := by
  match vcs, h with
  | [a], h =>
    obtain rfl := List.mem_singleton.mp h
    exact ⟨_, _, .inl (List.mem_singleton.mpr rfl)⟩
  | a :: b :: r, h =>
    rcases List.mem_cons.mp h with rfl | h
    · exact ⟨_, _, .inl List.mem_cons_self⟩
    · rcases List.mem_cons.mp h with rfl | h
      · exact ⟨_, _, .inr List.mem_cons_self⟩
      · obtain ⟨x, y, h⟩ := mem_creditTicks s lk v r h
        exact ⟨x, y, h.imp (List.mem_cons_of_mem _) (List.mem_cons_of_mem _)⟩

theorem mem_foldl_post_self {p : Nat} {ws : List (BitVec 64)} {w : BitVec 64} (h : w ∈ ws) (l : Link) :
    (p, w) ∈ (ws.foldl (fun l w => l.post p w) l).ticks := by
  induction ws generalizing l with
  | nil => cases h
  | cons a r ih =>
    rcases List.mem_cons.mp h with rfl | h
    · exact mem_foldl_post p r (mem_post.mpr (.inl rfl))
    · exact ih h _

/-- What is due for an account is cleared. -/
def State.clearFreed (s : State) (a : Nat) : State := s.setAcct a { s.acct a with freed := 0 }

theorem freed_clearFreed {s : State} {a : Nat} (b : Nat) (h : (s.acct a).freed = 0) : ((s.clearFreed b).acct a).freed = 0 := by
  by_cases hb : a = b
  · subst hb
    exact congrArg Acct.freed (tabGet_tabPut_self ..)
  · exact (congrArg Acct.freed (tabGet_tabPut_ne _ _ _ hb)).trans h

theorem freed_foldl_clearFreed (lk v : Nat) (vcs : List Nat) (s : State)
    (h : (s.acct (portAcct (s.phOf lk) v)).freed = 0 ∨ v ∈ vcs) :
    ((vcs.foldl (fun s v => s.clearFreed (portAcct (s.phOf lk) v)) s).acct (portAcct (s.phOf lk) v)).freed = 0 := by
  induction vcs generalizing s with
  | nil => exact h.resolve_right (List.not_mem_nil)
  | cons c r ih =>
    refine ih (s.clearFreed (portAcct (s.phOf lk) c)) ?_
    rcases h with h | h
    · exact .inl (freed_clearFreed _ h)
    · rcases List.mem_cons.mp h with rfl | h
      · exact .inl (congrArg Acct.freed (tabGet_tabPut_self ..))
      · exact .inr h

theorem freed_postCredits {s : State} {lk v : Nat} {vcs : List Nat} (h : v ∈ vcs) :
    ((s.postCredits lk vcs).acct (portAcct (s.phOf lk) v)).freed = 0 :=
  freed_foldl_clearFreed lk v vcs (s.setLink lk _) (.inr h)

/-- The state without its links and buffers. -/
def State.offFlow (s : State) : State := { s with links := [], buf := {} }

theorem postCredits_frame (s : State) (lk : Nat) (vcs : List Nat) :
    s.postCredits lk vcs = { s with links := (s.postCredits lk vcs).links, buf := (s.postCredits lk vcs).buf } := by
  have h : (s.postCredits lk vcs).offFlow = s.offFlow := 
    (foldl_view State.offFlow (f := fun s v => s.clearFreed (portAcct (s.phOf lk) v)) (fun _ _ => rfl) vcs (s.setLink lk _)).trans rfl
  generalize s.postCredits lk vcs = t at h
  cases s; cases t; simpa [State.offFlow] using h

/-- A pending tick goes out when the link is flushed. -/
theorem mem_out_flush {s : State} {lk : Nat} {q : Nat × BitVec 64} (h : q ∈ (s.link lk).ticks) :
    Out.tick lk q.2 ∈ (s.flush lk).out := by
  rw [flush_out]
  exact List.mem_append_right _ (List.mem_map_of_mem h)

end Sys2Proof.Machine
end

section
/-! SUPPORT. The profile exchange: when a link comes UP, what is compared with the peer's profile, and what an ACK does
(03 R96, R113). -/

namespace Sys2Proof.Machine

open Sys2Proof

/-! ### What the exchange leaves unchanged -/

/-- The state without links, time, log, host interface, output, groups, free values and the list of cut links. -/
def State.offExchange (s : State) : State :=
  { s with links := [], time := {}, log := {}, host := {}, out := [], coll := [], free := 0, buf := { s.buf with cut := [] } }

section
variable (s : State)

@[simp] theorem offExchange_setLink (lk : Nat) (l : Link) : (s.setLink lk l).offExchange = s.offExchange := rfl

@[simp] theorem offExchange_logRaise (code c st src tag d : Nat) : (s.logRaise code c st src tag d).offExchange = s.offExchange := rfl

@[simp] theorem offExchange_setColl (x : Tab Group) : (s.setColl x).offExchange = s.offExchange := rfl

@[simp] theorem offExchange_reparented : s.reparented.offExchange = s.offExchange := by
  unfold State.reparented
  obtain ⟨x, hx⟩ := noteTime_frame s.reparent s.time.state s.stratum
  obtain ⟨y, -, -, hy⟩ := reparent_frame s
  rw [hx, hy]
  rfl

@[simp] theorem offExchange_sendVector (h : HostId) (v : Nat) : (s.sendVector h v).offExchange = s.offExchange := by
  unfold State.sendVector
  extract_lets
  split <;> rfl

@[simp] theorem offExchange_irq (b : Nat) (h : HostId) : (s.irq b h).offExchange = s.offExchange := by
  unfold State.irq
  extract_lets p r m t
  split
  · rfl
  · split
    · exact offExchange_sendVector ..
    · rfl

@[simp] theorem offExchange_irqAll (b : Nat) : (s.irqAll b).offExchange = s.offExchange := by simp [State.irqAll]

/-- The parent chosen again may make a profile due. -/
theorem link_reparented (lk : Nat) : ∃ d, s.reparented.link lk = { s.link lk with profDue := d } := by
  unfold State.reparented
  rcases noteTime_cases s.reparent s.time.state s.stratum with h | h <;> rw [h]
  · exact ⟨_, link_reparent s lk⟩
  · rw [link_profileChanged, link_reparent]
    split <;> exact ⟨_, rfl⟩

/-! ### The comparisons -/

/-- Disagreements that begin or end are noted in the log alone. -/
theorem logDisagree_frame (lk : Nat) (old new : BitVec 4) (p m : Bool) (fw : Nat) :
    s.logDisagree lk old new p m fw = s.setLog (s.logDisagree lk old new p m fw).log := by
  suffices h : { s.logDisagree lk old new p m fw with log := {} } = { s with log := {} } by
    generalize s.logDisagree lk old new p m fw = t at h
    cases s; cases t
    simpa [State.setLog] using h
  refine foldl_view (fun s : State => { s with log := {} }) (fun s r => ?_) [1, 2, 3] s
  split <;> rfl

@[simp] theorem link_logDisagree (lk : Nat) (old new : BitVec 4) (p m : Bool) (fw i : Nat) :
    (s.logDisagree lk old new p m fw).link i = s.link i := by
  rw [logDisagree_frame]
  rfl

/-- Noting which rows disagree. -/
def State.compared (s : State) (lk : Nat) (l : Link) (new : BitVec 4) (p m : Bool) (fw : Nat) : State :=
  (s.logDisagree lk l.disagree new p m fw).setLink lk { s.link lk with disagree := new }

@[simp] theorem link_compared (lk : Nat) (l : Link) (new : BitVec 4) (p m : Bool) (fw : Nat) :
    (s.compared lk l new p m fw).link lk = { s.link lk with disagree := new } := link_setLink_self ..

@[simp] theorem offExchange_compared (lk : Nat) (l : Link) (new : BitVec 4) (p m : Bool) (fw : Nat) :
    (s.compared lk l new p m fw).offExchange = s.offExchange := by
  unfold State.compared
  rw [logDisagree_frame]
  rfl

/-- A link that disagrees in time is excluded from it, and the parent chosen again. -/
def State.profileExcluded (s : State) (lk : Nat) (tm : LinkTime) (off : Int) : State :=
  ((s.setLink lk { s.link lk with time := tm }).logExclusion lk true off).reparented

theorem link_profileExcluded (lk : Nat) (tm : LinkTime) (off : Int) :
    ∃ d, (s.profileExcluded lk tm off).link lk = { s.link lk with time := tm, profDue := d } := by
  unfold State.profileExcluded
  obtain ⟨d, hd⟩ := link_reparented ((s.setLink lk { s.link lk with time := tm }).logExclusion lk true off) lk
  rw [hd, link_logExclusion, link_setLink_self]
  exact ⟨d, rfl⟩

@[simp] theorem offExchange_profileExcluded (lk : Nat) (tm : LinkTime) (off : Int) :
    (s.profileExcluded lk tm off).offExchange = s.offExchange := offExchange_reparented ..

/-- A comparison notes the rows that disagree, and may exclude the link from time. -/
theorem compareProfile_cases (lk : Nat) : s.compareProfile lk = s ∨ ∃ new p m fw,
    s.compareProfile lk = s.compared lk (s.link lk) new p m fw ∨
    ∃ tm off, s.compareProfile lk = (s.compared lk (s.link lk) new p m fw).profileExcluded lk tm off := by
  unfold State.compareProfile
  extract_lets l
  split
  · exact .inl rfl
  · split
    · exact .inl rfl
    · rename_i cell _ stamp hst hc
      extract_lets new t old u off
      have hold : old = s.link lk := link_logDisagree ..
      have hu : u = s.compared lk (s.link lk) new (fieldAt cell 8 8 != s.profileDigest) (fieldAt cell 16 8 != s.unitMapDigest)
          (fieldAt cell 4 4) := by
        unfold u State.compared
        rw [hold]
      refine .inr ⟨new, fieldAt cell 8 8 != s.profileDigest, fieldAt cell 16 8 != s.unitMapDigest, fieldAt cell 4 4, ?_⟩
      rw [← hu]
      split
      · exact .inr ⟨_, _, rfl⟩
      · exact .inl rfl

theorem link_compareProfile (lk : Nat) :
    ∃ d tm p, (s.compareProfile lk).link lk = { s.link lk with disagree := d, time := tm, profDue := p } := by
  rcases compareProfile_cases s lk with h | ⟨new, p, m, fw, h | ⟨tm, off, h⟩⟩
  · rw [h]
    exact ⟨_, _, _, rfl⟩
  · rw [h]
    exact ⟨_, _, _, link_compared ..⟩
  · obtain ⟨d, hd⟩ := link_profileExcluded (s.compared lk (s.link lk) new p m fw) lk tm off
    rw [h, hd, link_compared]
    exact ⟨_, _, _, rfl⟩

@[simp] theorem offExchange_compareProfile (lk : Nat) : (s.compareProfile lk).offExchange = s.offExchange := by
  rcases compareProfile_cases s lk with h | ⟨new, p, m, fw, h | ⟨tm, off, h⟩⟩ <;> rw [h]
  · exact offExchange_compared ..
  · exact (offExchange_profileExcluded ..).trans (offExchange_compared ..)

/-! ### A link that comes UP -/

/-- A link in UP, or in NARROW where a direction is narrow (R113). -/
def Link.upped (l : Link) (pip : Nat) (due : Bool) : Link :=
  { l with state := if l.tx.width = 0 && l.rx.width = 0 then .up else .narrow, since := pip, attempts := 0, downSince := none,
           profDue := due }

theorem carries_upped (l : Link) (pip : Nat) (due : Bool) : (l.upped pip due).carries = true := by
  unfold Link.carries Link.upped
  dsimp only
  split <;> rfl

/-- Both halves of the exchange bring a link in PROFILE UP. -/
theorem link_tryUp_up {lk : Nat} (hs : (s.link lk).state = .profile) (hg : (s.link lk).profGot = true)
    (ha : (s.link lk).profAcked = true) : ∃ d, (s.tryUp lk).link lk = (s.link lk).upped s.time.pip d := by
  unfold State.tryUp
  extract_lets l st old t
  rw [if_pos (by simp [l, hs, hg, ha])]
  obtain ⟨d, h⟩ := link_reparented ((t.setLink lk { l with state := st, since := t.time.pip, attempts := 0, downSince := none }).irqAll 4) lk
  rw [h, link_irqAll, link_setLink_self]
  exact ⟨d, rfl⟩

theorem link_tryUp (lk : Nat) : (s.tryUp lk).link lk = s.link lk ∨
    ∃ d, (s.tryUp lk).link lk = (s.link lk).upped s.time.pip d := by
  by_cases h : ((decide ((s.link lk).state = .profile) && (s.link lk).profGot) && (s.link lk).profAcked) = true
  · obtain ⟨h₁, ha⟩ := Bool.and_eq_true_iff.mp h
    obtain ⟨hs, hg⟩ := Bool.and_eq_true_iff.mp h₁
    exact .inr (link_tryUp_up s (of_decide_eq_true hs) hg ha)
  · exact .inl (by unfold State.tryUp; extract_lets; rw [if_neg h])

@[simp] theorem offExchange_tryUp (lk : Nat) : (s.tryUp lk).offExchange = s.offExchange := by
  unfold State.tryUp
  extract_lets l st old t
  split
  · exact (offExchange_reparented ..).trans (offExchange_irqAll ..)
  · rfl

/-! ### Go delays (02 R57) -/

/-- The state without its groups and the count of free values. -/
def State.offGo (s : State) : State := { s with coll := [], free := 0 }

@[simp] theorem offGo_refreshGo (lk : Nat) : (s.refreshGo lk).offGo = s.offGo := by
  unfold State.refreshGo
  refine foldl_view State.offGo (fun s p => ?_) _ s
  extract_lets r
  show r.1.offGo = _
  unfold r State.drawGo
  split
  · split <;> rfl
  · rfl

@[simp] theorem link_refreshGo (lk i : Nat) : (s.refreshGo lk).link i = s.link i :=
  (congrArg (fun s : State => s.link i) (offGo_refreshGo s lk) :)

@[simp] theorem offExchange_refreshGo (lk : Nat) : (s.refreshGo lk).offExchange = s.offExchange :=
  (congrArg State.offExchange (offGo_refreshGo s lk) :)

/-! ### ACK (R96) -/

/-- An ACK that moves the link on: UP, or a comparison. -/
def State.acked (s : State) (lk : Nat) : State :=
  if (s.link lk).carries then s.tryUp lk else (s.tryUp lk).compareProfile lk

@[simp] theorem offExchange_acked (lk : Nat) : (s.acked lk).offExchange = s.offExchange := by
  unfold State.acked
  split
  · exact offExchange_tryUp ..
  · exact (offExchange_compareProfile ..).trans (offExchange_tryUp ..)

/-- What an ACK does after it has been taken leaves the replay buffer. -/
theorem replay_acked (lk : Nat) : ((s.acked lk).link lk).replay = (s.link lk).replay := by
  have h : ((s.tryUp lk).link lk).replay = (s.link lk).replay := by
    rcases link_tryUp s lk with h | ⟨d, h⟩
    · rw [h]
    · rw [h]; rfl
  unfold State.acked
  split
  · exact h
  · obtain ⟨d, tm, p, hc⟩ := link_compareProfile (s.tryUp lk) lk
    rw [hc]
    exact h

theorem carries_acked {lk : Nat} (hs : (s.link lk).state = .profile) (hg : (s.link lk).profGot = true)
    (ha : (s.link lk).profAcked = true) : ((s.acked lk).link lk).carries = true := by
  obtain ⟨d, hu⟩ := link_tryUp_up s hs hg ha
  have h : ((s.tryUp lk).link lk).carries = true := by rw [hu]; exact carries_upped ..
  unfold State.acked
  split
  · exact h
  · obtain ⟨d, tm, p, hc⟩ := link_compareProfile (s.tryUp lk) lk
    rw [hc]
    exact h

end

/-- What an ACK covers leaves the replay buffer, and the state of the link and of the exchange stay but for the half that it ends. -/
theorem link_ack (l : Link) (lsn pip : Nat) :
    (l.ack lsn pip).replay = l.replay.filter (fun x => decide (lsnDiff x.lsn lsn > 0)) ∧
      (l.ack lsn pip).state = l.state ∧ (l.ack lsn pip).profGot = l.profGot ∧
      ((∃ n, l.profLsn = some n ∧ lsnDiff lsn n ≥ 0) → (l.ack lsn pip).profAcked = true) := by
  unfold Link.ack
  extract_lets keep a b
  have hb : b.replay = keep ∧ b.state = l.state ∧ b.profGot = l.profGot ∧ b.profLsn = l.profLsn := by
    unfold b
    split
    · split
      · exact ⟨rfl, rfl, rfl, rfl⟩
      · exact ⟨rfl, rfl, rfl, rfl⟩
    · exact ⟨rfl, rfl, rfl, rfl⟩
  obtain ⟨hr, hs, hg, hl⟩ := hb
  clear_value b
  split
  · next n hn =>
    split
    · exact ⟨hr, hs, hg, fun _ => rfl⟩
    · next h => exact ⟨hr, hs, hg, fun ⟨m, hm, hd⟩ => by rw [← hl, hn] at hm; cases hm; exact absurd hd h⟩
  · next hn => exact ⟨hr, hs, hg, fun ⟨m, hm, hd⟩ => by rw [← hl, hn] at hm; cases hm⟩

theorem exec_ack {s : State} {lk : Nat} {w : BitVec 64} (hl : (s.link lk).live = true) (hd : (s.link lk).delin = true)
    (hw : tickIs w 2 = true) :
    exec (.ack lk w) s = .next ((s.setLink lk ((s.link lk).ack (bits w.toNat 32 24) s.time.pip)).acked lk) := by
  show execAck lk w s = _
  unfold execAck
  rw [tickRow_next hl hd (tickGood_of_tickIs hw) hw]
  rfl

end Sys2Proof.Machine
end

section
/-! PROOF. Flow control on a link (O5). -/

namespace Sys2Proof.Machine

open Sys2Proof

section
variable {s : State} {lk : Nat} {w : BitVec 64} (hl : (s.link lk).live = true) (hd : (s.link lk).delin = true)
include hl hd

theorem creditTaken (hw : tickIs w 1 = true) (ht : s.torn rowCredit lk 0 = false) :
    ∃ u : State, exec (.credit lk w) s = .next u.settle ∧ tabGet (u.link lk).total 0 (bits w.toNat 34 3) = bits w.toNat 18 16 ∧
      (bits w.toNat 53 3 ≠ bits w.toNat 34 3 → tabGet (u.link lk).total 0 (bits w.toNat 53 3) = bits w.toNat 37 16) ∧
      (∀ v, v ≠ bits w.toNat 53 3 → v ≠ bits w.toNat 34 3 →
        tabGet (u.link lk).total 0 v = tabGet (s.link lk).total 0 v ∧
        tabGet (u.link lk).allow 0 v = tabGet (s.link lk).allow 0 v) ∧
      (u.link lk).used = (s.link lk).used ∧ u = { s with links := u.links } := by
  refine ⟨s.setLink lk (((s.link lk).credit (bits w.toNat 53 3) (bits w.toNat 37 16)).credit (bits w.toNat 34 3) (bits w.toNat 18 16)),
    ?_, ?_⟩
  · show settled (rowCreditTick lk w s) = _
    unfold rowCreditTick
    rw [tickRow_next hl hd (tickGood_of_tickIs hw) hw, if_neg (by simp [ht])]
    rfl
  · rw [link_setLink_self]
    refine ⟨total_credit_self .., fun h => (total_credit_ne _ _ h).trans (total_credit_self ..), fun v h₁ h₂ => ⟨?_, ?_⟩, rfl, rfl⟩
    · rw [total_credit_ne _ _ h₂, total_credit_ne _ _ h₁]
    · rw [allow_credit_ne _ _ h₂, allow_credit_ne _ _ h₁]

theorem ackTaken (hw : tickIs w 2 = true) :
    ∃ t : State, exec (.ack lk w) s = .next t ∧
      (t.link lk).replay = (s.link lk).replay.filter (fun x => decide (lsnDiff x.lsn (bits w.toNat 32 24) > 0)) ∧
      ((s.link lk).state = .profile → (s.link lk).profGot = true →
        (∃ n, (s.link lk).profLsn = some n ∧ lsnDiff (bits w.toNat 32 24) n ≥ 0) → (t.link lk).carries = true) ∧
      t.mem = s.mem ∧ t.buf.frames = s.buf.frames ∧ t.buf.accts = s.buf.accts ∧ t.pending = s.pending := by
  obtain ⟨hr, hs, hg, ha⟩ := link_ack (s.link lk) (bits w.toNat 32 24) s.time.pip
  have hk := link_setLink_self s lk ((s.link lk).ack (bits w.toNat 32 24) s.time.pip)
  have hx := offExchange_acked (s.setLink lk ((s.link lk).ack (bits w.toNat 32 24) s.time.pip)) lk
  refine ⟨_, exec_ack hl hd hw, ?_, fun h₁ h₂ h₃ => carries_acked _ ?_ ?_ ?_, (congrArg State.mem hx :),
    (congrArg (fun s : State => s.buf.frames) hx :), (congrArg (fun s : State => s.buf.accts) hx :), (congrArg State.pending hx :)⟩
  · rw [replay_acked, hk, hr]
  · rw [hk, hs, h₁]
  · rw [hk, hg, h₂]
  · rw [hk, ha h₃]

section
variable {x : Sent} (hw : tickIs w 3 = true) (hh : (s.link lk).held = false)
  (hf : (s.link lk).replay.find? (·.lsn == bits w.toNat 32 24) = some x)
include hw hh hf

theorem nakTaken (hu : s.siteUe (.replay lk x.lsn) = false) :
    ∃ t : State, exec (.nak lk w) s = .next t ∧
      (x.replays < 3 → (t.link lk).resendFrom = some x.lsn ∧
        (t.link lk).replay = (s.link lk).replay.map (fun y => if y.lsn = x.lsn then { y with replays := y.replays + 1 } else y)) ∧
      (3 ≤ x.replays → (t.link lk).replay = (s.link lk).replay.filter (·.lsn != x.lsn) ∧
        ∃ q ∈ (t.link lk).ticks, q.2 = skipWord x.lsn x.f.vc (x.f.n + 1)) ∧
      t = { s with links := t.links, cnt := t.cnt } := by
  have hx : x.lsn = bits w.toNat 32 24 := by simpa using List.find?_some hf
  rw [hx] at hu ⊢
  have hk := link_advanced (s.bump .port lk pcNakRecv) lk
  have hf' : (((s.bump .port lk pcNakRecv).advanced lk).link lk).replay.find? (·.lsn == bits w.toNat 32 24) = some x := by
    rw [hk]; exact hf
  have hh' : (((s.bump .port lk pcNakRecv).advanced lk).link lk).held = false := by rw [hk]; exact hh
  refine ⟨_, exec_nak hl hd hw, ?_⟩
  by_cases h3 : x.replays < 3
  · rw [replayFrom_again hf' hh' h3 hu, link_setLink_self, hk]
    exact ⟨fun _ => ⟨rfl, rfl⟩, fun h => absurd h3 (by omega), rfl⟩
  · rw [replayFrom_skip hf' hh' (.inl (by omega)), noteReplayUe_none (s := (s.bump .port lk pcNakRecv).advanced lk) hu, link_setLink_self, hk]
    exact ⟨fun h => absurd h h3, fun _ => ⟨rfl, skip_mem_skipped ..⟩, rfl⟩

theorem nakOfUe (hu : s.siteUe (.replay lk x.lsn) = true) :
    ∃ t : State, exec (.nak lk w) s = .next t ∧ (t.link lk).replay = (s.link lk).replay.filter (·.lsn != x.lsn) ∧
      (∃ q ∈ (t.link lk).ticks, q.2 = skipWord x.lsn x.f.vc (x.f.n + 1)) ∧ (∃ e ∈ t.log.raised, e.code = 0x1101) := by
  have hx : x.lsn = bits w.toNat 32 24 := by simpa using List.find?_some hf
  rw [hx] at hu ⊢
  have hk := link_advanced (s.bump .port lk pcNakRecv) lk
  have hf' : (((s.bump .port lk pcNakRecv).advanced lk).link lk).replay.find? (·.lsn == bits w.toNat 32 24) = some x := by
    rw [hk]; exact hf
  have hh' : (((s.bump .port lk pcNakRecv).advanced lk).link lk).held = false := by rw [hk]; exact hh
  refine ⟨_, exec_nak hl hd hw, ?_⟩
  rw [replayFrom_skip hf' hh' (.inr hu), link_setLink_self, hk]
  exact ⟨rfl, skip_mem_skipped .., noteReplayUe_logged hu⟩

end

theorem skipTaken (hw : tickIs w 4 = true) :
    (bits w.toNat 32 24 = (s.link lk).expected →
      ∃ t : State, exec (.skip lk w) s = .next t ∧ (t.link lk).expected = ((s.link lk).expected + 1) % 2 ^ 24 ∧
        t = { s with links := t.links, cnt := t.cnt, buf := t.buf, traf := t.traf }) ∧
    (bits w.toNat 32 24 ≠ (s.link lk).expected → exec (.skip lk w) s = .next s) := by
  have hrow : exec (.skip lk w) s = execSkip lk w s := rfl
  unfold execSkip at hrow
  rw [tickRow_next hl hd (tickGood_of_tickIs hw) hw] at hrow
  refine ⟨fun h => ⟨_, hrow.trans (congrArg _ (if_pos h)), ?_, ?_⟩, fun h => hrow.trans (congrArg _ (if_neg h))⟩
  · rw [advertise_frame]
    exact congrArg Link.expected (link_setLink_self ..)
  · rw [advertise_frame]
    rfl

theorem reservedTaken (hw : tickGood w = true) (h15 : tickLead w = 15) (h9 : 9 ≤ tickKind w) :
    exec (.reservedTick lk w) s = .next (s.bump .port lk pcBadTick) := by
  show execReservedTick lk w s = _
  unfold execReservedTick
  exact tickRow_next hl hd hw (by simp [h15, h9])

theorem tickRow_bad (hw : tickGood w = false) (ok : Bool) (f : State → State) :
    s.tickRow lk w ok f = .next ((s.bump .port lk pcTickCrc).loseDelin lk) := by
  simp [State.tickRow, hl, hd, hw]

theorem badTickTaken (hw : tickGood w = false) :
    ∃ t : State, exec (.idle lk w) s = .next t ∧ exec (.ack lk w) s = .next t ∧ exec (.nak lk w) s = .next t ∧
      exec (.skip lk w) s = .next t ∧ exec (.pipMark lk w) s = .next t ∧ (t.link lk).delin = false ∧
      t.count .port lk pcTickCrc = min cMax (s.count .port lk pcTickCrc + 1) := by
  refine ⟨_, tickRow_bad hl hd hw (tickIs w 0) id, ?_, ?_, ?_, ?_, congrArg Link.delin (link_setLink_self ..),
    (count_bump_ne _ (cKey_ne (by decide))).trans (count_bump_self ..)⟩
  · show execAck lk w s = _
    exact tickRow_bad hl hd hw ..
  · show execNak lk w s = _
    exact tickRow_bad hl hd hw ..
  · show execSkip lk w s = _
    exact tickRow_bad hl hd hw ..
  · show execPipMark lk w s = _
    exact tickRow_bad hl hd hw ..

end

theorem replayTimeoutTaken {s : State} {lk : Nat} {x : Sent} {r : List Sent} (hl : (s.link lk).live = true)
    (hr : (s.link lk).replay = x :: r) (hh : (s.link lk).held = false) (h3 : x.replays < 3)
    (hu : s.siteUe (.replay lk x.lsn) = false)
    (ht : max x.stamp (s.link lk).adv + s.linkSetting idReplayTo lk * 1000 ≤ s.time.pip) :
    ∃ t : State, exec (.replayTimeout lk) s = .next t ∧ (t.link lk).resendFrom = some x.lsn ∧
      (t.link lk).replay.head? = some { x with replays := x.replays + 1 } ∧ t = { s with links := t.links, cnt := t.cnt } := by
  have hk := link_advanced s lk
  have hf : ((s.advanced lk).link lk).replay.find? (·.lsn == x.lsn) = some x := by rw [hk]; simp [hr]
  have hh' : ((s.advanced lk).link lk).held = false := by rw [hk]; exact hh
  refine ⟨_, exec_replayTimeout hl hr ht, ?_⟩
  rw [replayFrom_again hf hh' h3 hu, link_setLink_self, hk]
  exact ⟨rfl, by simp [hr], rfl⟩

theorem ackSent {s : State} {lk : Nat} (hs : (s.link lk).sends = true) (hd : (s.link lk).ackDue = true) :
    ∃ t : State, exec (.ackSend lk) s = .next t ∧ (t.link lk).ackDue = false ∧ (t.link lk).ticks = [] ∧
      Out.tick lk (ackWord (((s.link lk).expected + 2 ^ 24 - 1) % 2 ^ 24)) ∈ t.out ∧
      t = { s with links := t.links, out := t.out } := by
  have hk := link_setLink_self s lk
    ({ s.link lk with ackDue := false }.post prioAck (ackWord (((s.link lk).expected + 2 ^ 24 - 1) % 2 ^ 24)))
  refine ⟨_, exec_ackSend hs hd, ?_, flush_ticks .., mem_out_flush (q := (prioAck, _)) ?_, flush_frame (s.postAck lk) lk⟩
  · rw [link_flush, State.postAck, hk]
    rfl
  · rw [State.postAck, hk]
    exact mem_post.mpr (.inl rfl)

theorem creditSent {s : State} {lk v : Nat} (hs : (s.link lk).sends = true) (hv : v < 8) (hb : v = 0 ∨ s.vcBlocked lk = false)
    (hf : (s.acct (portAcct (s.phOf lk) v)).freed ≠ 0) :
    ∃ t : State, exec (.creditSend lk) s = .next t ∧ (t.acct (portAcct (s.phOf lk) v)).freed = 0 ∧
      (∃ x, ∃ y, Out.tick lk (creditWord v (s.totalOf lk v) x y) ∈ t.out ∨
        Out.tick lk (creditWord x y v (s.totalOf lk v)) ∈ t.out) ∧
      t = { s with links := t.links, buf := t.buf, out := t.out } := by
  have hm : v ∈ s.creditsDue lk := by
    refine List.mem_filter.mpr ⟨List.mem_range.mpr hv, ?_⟩
    rcases hb with rfl | hb
    · simp [hf]
    · simp [hf, hb]
  have hout : ∀ w ∈ s.creditTicks lk (s.creditsDue lk),
      Out.tick lk w ∈ ((s.postCredits lk (s.creditsDue lk)).flush lk).out := by
    intro w hw
    refine mem_out_flush (q := (prioCredit, w)) ?_
    rw [link_postCredits]
    exact mem_foldl_post_self hw _
  obtain ⟨x, y, h⟩ := mem_creditTicks s lk v _ hm
  refine ⟨_, exec_creditSend hs (List.ne_nil_of_mem hm), ?_, ⟨x, y, h.imp (hout _) (hout _)⟩, ?_⟩
  · rw [flush_frame]
    exact freed_postCredits hm
  · rw [flush_frame, postCredits_frame]

theorem idleTaken (s : State) (lk : Nat) {w : BitVec 64} (hw : tickIs w 0 = true) : exec (.idle lk w) s = .next s := by
  show s.tickRow lk w (tickIs w 0) id = _
  unfold State.tickRow
  rw [tickGood_of_tickIs hw, hw]
  extract_lets
  split <;> rfl

/-- Settles O5: each tick by what its row does to the record of the link. -/
theorem linkFlowControl : Obligations.LinkFlowControl := by
  unfold Obligations.LinkFlowControl
  exact ⟨fun _ _ _ hl hd hw ht => creditTaken hl hd hw ht, fun _ _ _ hl hd hw => ackTaken hl hd hw,
    fun _ _ _ _ hl hd hw hh hf hu => nakTaken hl hd hw hh hf hu, fun _ _ _ _ hl hd hw hh hf hu => nakOfUe hl hd hw hh hf hu,
    fun _ _ _ _ hl hr hh h3 hu ht => replayTimeoutTaken hl hr hh h3 hu ht, fun _ _ _ hl hd hw => skipTaken hl hd hw,
    fun _ _ hs hd => ackSent hs hd, fun _ _ _ hs hv hb hf => creditSent hs hv hb hf, fun lk _ s hw => idleTaken s lk hw,
    fun _ _ _ hl hd hw h15 h9 => reservedTaken hl hd hw h15 h9, fun _ _ _ hl hd hw => badTickTaken hl hd hw⟩

end Sys2Proof.Machine
end

section
/-! SUPPORT. Training: links that change state, TRAIN ticks, PROFILE and links that leave UP (03 R74 to R79; 04 R139). -/

namespace Sys2Proof.Machine

open Sys2Proof

/-! ### A change of state -/

section
variable (s : State)

theorem sendVector_frame (h : HostId) (v : Nat) :
    s.sendVector h v = { s with host := (s.sendVector h v).host, out := (s.sendVector h v).out } := by
  unfold State.sendVector
  extract_lets
  split <;> rfl

theorem irq_frame (b : Nat) (h : HostId) : s.irq b h = { s with host := (s.irq b h).host, out := (s.irq b h).out } := by
  unfold State.irq
  extract_lets p r m t
  split
  · rfl
  · split
    · rw [sendVector_frame]; rfl
    · rfl

/-- Interrupts change the host interface and output. -/
theorem irqAll_frame (b : Nat) : s.irqAll b = { s with host := (s.irqAll b).host, out := (s.irqAll b).out } := by
  unfold State.irqAll
  rw [irq_frame, irq_frame s]

theorem linkTo_frame (lk : Nat) (st : LinkState) : s.linkTo lk st =
    { s with links := (s.linkTo lk st).links, host := (s.linkTo lk st).host, out := (s.linkTo lk st).out } := by
  unfold State.linkTo
  extract_lets l t
  split
  · rfl
  · rw [irqAll_frame]; rfl

theorem link_linkTo (lk : Nat) (st : LinkState) :
    (s.linkTo lk st).link lk = { s.link lk with state := st, since := s.time.pip } := by
  unfold State.linkTo
  extract_lets l t
  have ht : t.link lk = { s.link lk with state := st, since := s.time.pip } := link_setLink_self ..
  split
  · exact ht
  · exact (link_irqAll ..).trans ht

@[simp] theorem offExchange_linkTo (lk : Nat) (st : LinkState) : (s.linkTo lk st).offExchange = s.offExchange := by
  rw [linkTo_frame]; rfl

/-! ### What views keep -/

section
variable {s t : State}

theorem frames_of_offExchange (h : t.offExchange = s.offExchange) : t.buf.frames = s.buf.frames :=
  (congrArg (fun s : State => s.buf.frames) h :)

theorem accts_of_offExchange (h : t.offExchange = s.offExchange) : t.buf.accts = s.buf.accts :=
  (congrArg (fun s : State => s.buf.accts) h :)

theorem acct_of_offExchange (h : t.offExchange = s.offExchange) (a : Nat) : t.acct a = s.acct a :=
  congrArg (fun x : Tab Acct => tabGet x {} a) (accts_of_offExchange h)

theorem mem_of_offExchange (h : t.offExchange = s.offExchange) : t.mem = s.mem := (congrArg State.mem h :)

theorem pip_of_core (h : t.core = s.core) : t.time.pip = s.time.pip := (congrArg (fun s : State => s.time.pip) h :)

theorem phOf_of_core (h : t.core = s.core) (lk : Nat) : t.phOf lk = s.phOf lk := (congrArg (fun s : State => s.phOf lk) h :)

end

/-! ### TRAIN ticks (R74) -/

/-- One TRAIN tick on a position. -/
def State.trainTick (s : State) (lk step : Nat) (b : TrainBody) (p : Nat) : State :=
  let r := if step = 2 then s.fresh else (0, s)
  r.2.emit (.tick lk (trainWord step p { b with preset := r.1 % 16, request := r.1 / 16 % 7 }))

/-- The state without output and the count of free values. -/
def State.offTrain (s : State) : State := { s with out := [], free := 0 }

theorem eq_of_offTrain {s t : State} (h : t.offTrain = s.offTrain) : t = { s with out := t.out, free := t.free } := by
  cases s; cases t; simpa [State.offTrain] using h

theorem offTrain_trainTick (lk step : Nat) (b : TrainBody) (p : Nat) : (s.trainTick lk step b p).offTrain = s.offTrain := by
  unfold State.trainTick
  extract_lets r
  unfold r
  split <;> rfl

theorem mem_out_trainTick {s : State} {x : Out} (h : x ∈ s.out) (lk step : Nat) (b : TrainBody) (p : Nat) :
    x ∈ (s.trainTick lk step b p).out := by
  unfold State.trainTick
  extract_lets r
  unfold r
  split <;> exact List.mem_append_left _ h

/-- TRAIN ticks of a step on a list of positions. -/
def State.trainTicks (s : State) (lk step : Nat) (b : TrainBody) (ps : List Nat) : State :=
  ps.foldl (fun s p => s.trainTick lk step b p) s

theorem offTrain_trainTicks (lk step : Nat) (b : TrainBody) (ps : List Nat) : (s.trainTicks lk step b ps).offTrain = s.offTrain :=
  foldl_view State.offTrain (fun s p => offTrain_trainTick s lk step b p) ps s

theorem mem_out_trainTicks {s : State} {x : Out} (h : x ∈ s.out) (lk step : Nat) (b : TrainBody) (ps : List Nat) :
    x ∈ (s.trainTicks lk step b ps).out := by
  unfold State.trainTicks
  induction ps generalizing s with
  | nil => exact h
  | cons p r ih => exact ih (mem_out_trainTick h ..)

/-- In SIGNAL a tick asks for nothing. -/
theorem trainTick_signal (lk : Nat) (b : TrainBody) (p : Nat) :
    s.trainTick lk 1 b p = s.emit (.tick lk (trainWord 1 p { b with preset := 0, request := 0 })) := by
  simp [State.trainTick]

theorem mem_trainTicks_signal (lk : Nat) (b : TrainBody) {p : Nat} {ps : List Nat} (h : p ∈ ps) :
    Out.tick lk (trainWord 1 p { b with preset := 0, request := 0 }) ∈ (s.trainTicks lk 1 b ps).out := by
  unfold State.trainTicks
  induction ps generalizing s with
  | nil => cases h
  | cons q r ih =>
    rcases List.mem_cons.mp h with rfl | h
    · refine mem_out_trainTicks (s := s.trainTick lk 1 b p) ?_ lk 1 b r
      rw [trainTick_signal]
      exact List.mem_append_right _ (List.mem_singleton.mpr rfl)
    · exact ih _ h

/-- A link with a further TRAIN tick sent. -/
def Link.trained (l : Link) (step own : Nat) : Link :=
  { l with ownTrain := own, ownRun := if step = 3 then (if l.ownTrain = own then l.ownRun + 1 else 1) else 0 }

/-- What this side says in CONFIG, but for its readiness: the run of equal ticks goes by it. -/
def State.trainSaid (s : State) (lk : Nat) : Nat := (trainWord 3 0 { s.trainBody lk with rxReady := false }).toNat

theorem sendTrain_of_step {lk step : Nat} (h : trainStep (s.link lk).state = some step) : s.sendTrain lk =
    (s.setLink lk ((s.link lk).trained step (s.trainSaid lk))).trainTicks lk step (s.trainBody lk)
      ((s.setLink lk ((s.link lk).trained step (s.trainSaid lk))).trainPositions lk) := by
  unfold State.sendTrain
  rw [h]
  dsimp only
  rw [show (trainWord 3 0 { s.trainBody lk with rxReady := false }).toNat = s.trainSaid lk from rfl]
  generalize s.trainSaid lk = own
  rfl

theorem sendTrain_idle {lk : Nat} (h : trainStep (s.link lk).state = none) : s.sendTrain lk = s := by
  unfold State.sendTrain
  rw [h]

/-- TRAIN ticks change the record of what this side sent, output and free values. -/
theorem sendTrain_cases (lk : Nat) : s.sendTrain lk = s ∨ ∃ step own,
    (s.sendTrain lk).offTrain = (s.setLink lk ((s.link lk).trained step own)).offTrain := by
  cases h : trainStep (s.link lk).state with
  | none => exact .inl (sendTrain_idle s h)
  | some step =>
    rw [sendTrain_of_step s h]
    exact .inr ⟨step, s.trainSaid lk, offTrain_trainTicks ..⟩

theorem sendTrain_frame (lk : Nat) : s.sendTrain lk =
    { s with links := (s.sendTrain lk).links, out := (s.sendTrain lk).out, free := (s.sendTrain lk).free } := by
  rcases sendTrain_cases s lk with h | ⟨step, own, h⟩
  · rw [h]
  · exact eq_of_offTrain h |>.trans (by
      have hl : (s.sendTrain lk).links = _ := (congrArg State.links h :)
      rw [hl]; rfl)

/-- The record of any link after TRAIN ticks. -/
theorem link_sendTrain (lk i : Nat) : ∃ a b, (s.sendTrain lk).link i = { s.link i with ownTrain := a, ownRun := b } := by
  rcases sendTrain_cases s lk with h | ⟨step, own, h⟩
  · rw [h]; exact ⟨_, _, rfl⟩
  · have hl : (s.sendTrain lk).link i = (s.setLink lk ((s.link lk).trained step own)).link i := (congrArg (fun s : State => s.link i) h :)
    rw [hl]
    by_cases hi : i = lk
    · subst hi
      rw [link_setLink_self]
      exact ⟨_, _, rfl⟩
    · rw [link_setLink_ne _ _ hi]
      exact ⟨_, _, rfl⟩

theorem state_sendTrain (lk i : Nat) : ((s.sendTrain lk).link i).state = (s.link i).state := by
  obtain ⟨a, b, h⟩ := link_sendTrain s lk i
  rw [h]

/-- What this side says in TRAIN ticks does not change as it says it. -/
theorem trainBody_sendTrain (lk : Nat) : (s.sendTrain lk).trainBody lk = s.trainBody lk := by
  obtain ⟨a, b, h⟩ := link_sendTrain s lk lk
  unfold State.trainBody State.wantsFecS
  rw [h, sendTrain_frame]
  rfl

/-- Where a link trains depends on neither output nor free values. -/
theorem trainPositions_trainTicks (lk step : Nat) (b : TrainBody) (ps : List Nat) :
    (s.trainTicks lk step b ps).trainPositions lk = s.trainPositions lk :=
  (congrArg (fun s : State => s.trainPositions lk) (offTrain_trainTicks s lk step b ps) :)

/-! ### Links that leave their state (R75, R91; 04 R139) -/

/-- A swap ordered by a command ends with ST_ABORTED. -/
def State.swapAborted (s : State) (lk : Nat) : State :=
  match (s.link lk).rxSwap with | some { ticket := some t, .. } => s.finish t .aborted [] | _ => s

/-- What a link that leaves gives back: its earmarks and unacknowledged frames. -/
def State.drained (s : State) (lk : Nat) : State :=
  ((s.swapAborted lk).dropEarmarks lk).bumpBy .port lk pcDrained (s.link lk).replay.length

/-- Its disagreements with the peer's profile end. -/
def State.agreed (s : State) (lk : Nat) : State :=
  (s.drained lk).logDisagree lk (s.link lk).disagree 0 false false (fieldAt (s.link lk).profCell 4 4)

/-- It may have been in the middle of a frame. -/
def State.givenUp (s : State) (lk : Nat) : State :=
  if (s.link lk).carries then (s.agreed lk).setBuf { (s.agreed lk).buf with cut := addNew (s.agreed lk).buf.cut lk } else s.agreed lk

theorem leave_eq (lk : Nat) (st : LinkState) : s.leave lk st =
    (((s.givenUp lk).setLink lk ((s.link lk).cleared (s.givenUp lk).time.pip)).linkTo lk st).reparented := rfl

theorem swapAborted_none {lk : Nat} (h : (s.link lk).rxSwap = none) : s.swapAborted lk = s := by
  unfold State.swapAborted
  rw [h]

theorem core_swapAborted (lk : Nat) : (s.swapAborted lk).core = s.core := by
  unfold State.swapAborted
  split
  · exact core_finish ..
  · rfl

theorem agreed_frame (lk : Nat) : s.agreed lk = (s.drained lk).setLog (s.agreed lk).log := logDisagree_frame ..

/-- Cutting off the frame in the middle of which a link left changes the list of cut links. -/
theorem cut_frame {s t : State} (h : t = s.setLog t.log) (c : Prop) [Decidable c] (x : List Nat) :
    (if c then t.setBuf { t.buf with cut := x } else t).offExchange = s.offExchange ∧
      (if c then t.setBuf { t.buf with cut := x } else t).time = s.time ∧
      (if c then t.setBuf { t.buf with cut := x } else t).out = s.out := by
  have ho : t.out = s.out := (congrArg State.out h :)
  have hx : t.offExchange = s.offExchange := (congrArg State.offExchange h :)
  have ht : t.time = s.time := (congrArg State.time h :)
  split
  · exact ⟨hx, ht, ho⟩
  · exact ⟨hx, ht, ho⟩

theorem offExchange_givenUp (lk : Nat) : (s.givenUp lk).offExchange = (s.drained lk).offExchange := by
  obtain ⟨h, -, -⟩ := cut_frame (agreed_frame s lk) ((s.link lk).carries = true) (addNew (s.agreed lk).buf.cut lk)
  exact h

theorem core_drained (lk : Nat) : (s.drained lk).core = s.core := by
  unfold State.drained
  rw [core_bumpBy, core_dropEarmarks, core_swapAborted]

theorem pip_givenUp (lk : Nat) : (s.givenUp lk).time.pip = s.time.pip := by
  obtain ⟨-, h, -⟩ := cut_frame (agreed_frame s lk) ((s.link lk).carries = true) (addNew (s.agreed lk).buf.cut lk)
  exact (congrArg TimeSt.pip h).trans (pip_of_core (core_drained s lk))

theorem out_givenUp (lk : Nat) : (s.givenUp lk).out = (s.drained lk).out := by
  obtain ⟨-, -, h⟩ := cut_frame (agreed_frame s lk) ((s.link lk).carries = true) (addNew (s.agreed lk).buf.cut lk)
  exact h

theorem offExchange_leave (lk : Nat) (st : LinkState) : (s.leave lk st).offExchange = (s.drained lk).offExchange := by
  rw [leave_eq, offExchange_reparented, offExchange_linkTo, offExchange_setLink, offExchange_givenUp]

/-- The record of a link that has left for a state. -/
theorem link_leave (lk : Nat) (st : LinkState) : ∃ d, (s.leave lk st).link lk =
    { (s.link lk).cleared s.time.pip with state := st, since := s.time.pip, profDue := d } := by
  rw [leave_eq]
  obtain ⟨d, h⟩ := link_reparented (((s.givenUp lk).setLink lk ((s.link lk).cleared (s.givenUp lk).time.pip)).linkTo lk st) lk
  rw [h, link_linkTo, link_setLink_self, time_setLink, pip_givenUp]
  exact ⟨d, rfl⟩

theorem pip_reparented : s.reparented.time.pip = s.time.pip := by
  unfold State.reparented
  rw [time_noteTime, pip_reparent]

theorem pip_leave (lk : Nat) (st : LinkState) : (s.leave lk st).time.pip = s.time.pip := by
  rw [leave_eq, pip_reparented, linkTo_frame]
  exact pip_givenUp s lk

/-- The counts of a port account start again (R91). -/
def State.restartAcct (s : State) (a : Nat) : State := s.setAcct a { s.acct a with o := 0, total := 0, freed := 0, given := false }

theorem o_restartAcct {s : State} {a : Nat} (b : Nat) (h : (s.acct a).o = 0 ∨ a = b) : ((s.restartAcct b).acct a).o = 0 := by
  by_cases hb : a = b
  · subst hb
    exact congrArg Acct.o (tabGet_tabPut_self ..)
  · exact (congrArg Acct.o (tabGet_tabPut_ne _ _ _ hb)).trans (h.resolve_right hb)

theorem o_foldl_restartAcct (lk v : Nat) (vs : List Nat) (s : State) (h : (s.acct (portAcct (s.phOf lk) v)).o = 0 ∨ v ∈ vs) :
    ((vs.foldl (fun s v => s.restartAcct (portAcct (s.phOf lk) v)) s).acct (portAcct (s.phOf lk) v)).o = 0 := by
  induction vs generalizing s with
  | nil => exact h.resolve_right List.not_mem_nil
  | cons c r ih =>
    refine ih (s.restartAcct (portAcct (s.phOf lk) c)) ?_
    rcases h with h | h
    · exact .inl (o_restartAcct _ (.inl h))
    · rcases List.mem_cons.mp h with rfl | h
      · exact .inl (o_restartAcct _ (.inr rfl))
      · exact .inr h

theorem dropEarmarks_eq (lk : Nat) : s.dropEarmarks lk =
    (List.range 8).foldl (fun s v => s.restartAcct (portAcct (s.phOf lk) v)) s := rfl

theorem o_dropEarmarks (lk : Nat) {v : Nat} (hv : v < 8) : ((s.dropEarmarks lk).acct (portAcct (s.phOf lk) v)).o = 0 := by
  rw [dropEarmarks_eq]
  exact o_foldl_restartAcct lk v _ s (.inr (List.mem_range.mpr hv))

theorem offHanks_dropEarmarks (lk : Nat) : (s.dropEarmarks lk).offHanks = s.offHanks := by
  rw [dropEarmarks_eq]
  exact foldl_view State.offHanks (f := fun s v => s.restartAcct (portAcct (s.phOf lk) v)) (fun _ _ => rfl) _ s

theorem acct_bumpBy (f : Fam) (u i n a : Nat) : (s.bumpBy f u i n).acct a = s.acct a := rfl

/-- Earmarks of a link that leaves return: nothing of its accounts is advertised. -/
theorem acct_leave (lk : Nat) (st : LinkState) {v : Nat} (hv : v < 8) :
    ((s.leave lk st).acct (portAcct (s.phOf lk) v)).o = 0 := by
  rw [acct_of_offExchange (offExchange_leave s lk st), State.drained, acct_bumpBy, ← phOf_of_core (core_swapAborted s lk)]
  exact o_dropEarmarks (s.swapAborted lk) lk hv

/-- With no swap under way a link that leaves its state leaves the queues and memory. -/
theorem frames_mem_leave {lk : Nat} (h : (s.link lk).rxSwap = none) (st : LinkState) :
    (s.leave lk st).buf.frames = s.buf.frames ∧ (s.leave lk st).mem = s.mem := by
  have hx : (s.leave lk st).offExchange = ((s.dropEarmarks lk).bumpBy .port lk pcDrained (s.link lk).replay.length).offExchange := by
    rw [offExchange_leave, State.drained, swapAborted_none s h]
  have hd : ((s.dropEarmarks lk).bumpBy .port lk pcDrained (s.link lk).replay.length).offHanks = s.offHanks := by
    rw [offHanks_bumpBy, offHanks_dropEarmarks]
  exact ⟨(frames_of_offExchange hx).trans (frames_of_offHanks hd), (mem_of_offExchange hx).trans (mem_of_offBuf (offBuf_of_offHanks hd))⟩

/-! ### A failed attempt (R75) -/

/-- A link whose attempt has failed. -/
def State.attemptNoted (s : State) (lk n : Nat) : State :=
  s.setLink lk { s.link lk with attempts := n, offSince := if n ≥ 16 then none else some s.time.pip }

theorem failAttempt_again {lk : Nat} (h : (s.link lk).attempts < 15) :
    s.failAttempt lk = (s.leave lk .dark).attemptNoted lk ((s.link lk).attempts + 1) := by
  have hn : ¬(s.link lk).attempts + 1 ≥ 16 := by omega
  simp only [State.failAttempt, State.attemptNoted, if_neg hn]

theorem failAttempt_last {lk : Nat} (h : 15 ≤ (s.link lk).attempts) : s.failAttempt lk =
    ((s.leave lk .failed).attemptNoted lk ((s.link lk).attempts + 1)).logLink 0x0301 2 lk ((s.link lk).attempts + 1) := by
  have hn : (s.link lk).attempts + 1 ≥ 16 := by omega
  simp only [State.failAttempt, State.attemptNoted, if_pos hn]

theorem link_attemptNoted (lk n : Nat) : (s.attemptNoted lk n).link lk =
    { s.link lk with attempts := n, offSince := if n ≥ 16 then none else some s.time.pip } := link_setLink_self ..

theorem link_logLink (code c lk d i : Nat) : (s.logLink code c lk d).link i = s.link i := rfl

theorem raised_logLink (code c lk d : Nat) :
    ∃ e ∈ (s.logLink code c lk d).log.raised, e.code = code ∧ e.stamp = s.time.pip :=
  ⟨_, List.mem_append_right _ (List.mem_singleton.mpr rfl), rfl, rfl⟩

/-! ### PROFILE (R77 to R79) -/

/-- A full port finds lanes whatever positions it avoids. -/
theorem lanesFor_full (avoid : List Nat) : ∃ x, lanesFor false avoid = some x := by
  unfold lanesFor
  split
  · exact ⟨_, rfl⟩
  · exact ⟨_, rfl⟩
  · extract_lets lost w
    exact ⟨_, rfl⟩

theorem foldl_advertise_link (lk i : Nat) (vs : List Nat) :
    (vs.foldl (fun s v => s.advertise (portAcct (s.phOf lk) v)) s).link i = s.link i :=
  foldl_view (fun s : State => s.link i) (fun _ _ => link_of_offBuf (offBuf_advertise ..) i) vs s

/-- A link in PROFILE with the agreed FEC mode and lanes and fresh counts (R77, R79, R91, R95). -/
def Link.profiling (l : Link) (fec : Bool) (tx rx : Lanes) (pip : Nat) : Link :=
  { l with fecS := fec, tx := tx, rx := rx, profDue := true, switchIn := 2, expected := 0, lsn := 0, used := [], total := [], allow := [],
           state := .profile, since := pip }

/-- A full port whose peer has no split mode enters PROFILE. -/
theorem link_enterProfile_full {lk : Nat} (hs : s.splitIn s.cfg.vals (lk / 2) = false) (hp : (s.link lk).peer.split = false) :
    ∃ fec tx rx, (s.enterProfile lk).link lk = (s.link lk).profiling fec tx rx s.time.pip := by
  unfold State.enterProfile
  extract_lets l split fecS tx4 rx4 out
  have hsplit : split = false := hs
  clear_value split out
  subst hsplit
  obtain ⟨tx, htx⟩ := lanesFor_full (out tx4 [bits l.ownTrain 31 3, l.peer.rxOut])
  obtain ⟨rx, hrx⟩ := lanesFor_full (out rx4 [l.peer.txOut, bits l.ownTrain 28 3])
  rw [htx, hrx]
  dsimp only
  rw [if_neg (by simp [l, hp]), foldl_advertise_link, link_linkTo, link_setLink_self]
  exact ⟨fecS, tx, rx, rfl⟩

/-- CONFIG ends where 8 ticks of both sides were equal, and not before. -/
theorem tryProfile_agreed {lk : Nat} (hs : (s.link lk).state = .config) (ha : 8 ≤ (s.link lk).peer.agreed)
    (ho : 8 ≤ (s.link lk).ownRun) : s.tryProfile lk = s.enterProfile lk := by
  unfold State.tryProfile
  extract_lets l
  exact if_pos (by simp [l, hs, ha, ho])

theorem tryProfile_idle {lk : Nat} (h : (s.link lk).state ≠ .config ∨ (s.link lk).peer.agreed < 8) : s.tryProfile lk = s := by
  unfold State.tryProfile
  extract_lets l
  refine if_neg (fun hc => ?_)
  simp only [Bool.and_eq_true, decide_eq_true_eq] at hc
  obtain ⟨⟨hs, ha⟩, -⟩ := hc
  exact h.elim (fun h => h hs) (fun h => absurd ha (by simp [l]; omega))

/-! ### A PROFILE frame that is applied (R113) -/

/-- A link that has an accepted profile. -/
def Link.profiled (l : Link) (stamp : Nat) (cell : List Byte) : Link := { l with profCell := cell, profStamp := some stamp, profGot := true }

theorem applyProfile_eq (lk stamp : Nat) (cell : List Byte) : s.applyProfile lk stamp cell =
    (((s.setLink lk ((s.link lk).profiled stamp cell)).tryUp lk).compareProfile lk).refreshGo lk := rfl

theorem offExchange_applyProfile (lk stamp : Nat) (cell : List Byte) : (s.applyProfile lk stamp cell).offExchange = s.offExchange := by
  rw [applyProfile_eq, offExchange_refreshGo, offExchange_compareProfile, offExchange_tryUp, offExchange_setLink]

/-- The profile is kept with its stamp, and brings a link in PROFILE UP once its own frame is acknowledged. -/
theorem link_applyProfile (lk stamp : Nat) (cell : List Byte) :
    ((s.applyProfile lk stamp cell).link lk).profPend = (s.link lk).profPend ∧
      ((s.applyProfile lk stamp cell).link lk).profCell = cell ∧
      ((s.applyProfile lk stamp cell).link lk).profStamp = some stamp ∧
      ((s.link lk).state = .profile → (s.link lk).profAcked = true → ((s.applyProfile lk stamp cell).link lk).carries = true) := by
  have hk := link_setLink_self s lk ((s.link lk).profiled stamp cell)
  rw [applyProfile_eq, link_refreshGo]
  obtain ⟨d, tm, p, hc⟩ := link_compareProfile ((s.setLink lk ((s.link lk).profiled stamp cell)).tryUp lk) lk
  rw [hc]
  have hup : ∀ pip due, (((s.link lk).profiled stamp cell).upped pip due).carries = true := carries_upped _
  rcases link_tryUp (s.setLink lk ((s.link lk).profiled stamp cell)) lk with h | ⟨due, h⟩
  · refine ⟨?_, ?_, ?_, fun hs ha => ?_⟩
    · rw [h, hk]; rfl
    · rw [h, hk]; rfl
    · rw [h, hk]; rfl
    · obtain ⟨due, h⟩ := link_tryUp_up (s.setLink lk ((s.link lk).profiled stamp cell)) (lk := lk) (by rw [hk]; exact hs) (by rw [hk]; rfl)
        (by rw [hk]; exact ha)
      rw [h, hk]
      exact hup s.time.pip due
  · rw [h, hk]
    exact ⟨rfl, rfl, rfl, fun _ _ => hup s.time.pip due⟩

end

end Sys2Proof.Machine
end

section
/-! PROOF. Training and profiles (O6). -/

namespace Sys2Proof.Machine

open Sys2Proof

/-! ### TRAIN (R74, R78) -/

/-- The state with what a TRAIN tick says noted. -/
def State.heardTrain (s : State) (lk : Nat) (w : BitVec 64) (locked : Bool) (ber : Nat) : State :=
  s.setLink lk ((s.link lk).hearTrain w.toNat locked ber)

theorem link_heardTrain (s : State) (lk : Nat) (w : BitVec 64) (locked : Bool) (ber : Nat) :
    (s.heardTrain lk w locked ber).link lk = (s.link lk).hearTrain w.toNat locked ber := link_setLink_self ..

/-- A TRAIN tick in SIGNAL: the link moves on when both sides are ready. -/
def State.trainInSignal (s : State) (lk : Nat) (w : BitVec 64) (locked : Bool) (ber : Nat) : State :=
  if locked && bit w.toNat 48 then (s.heardTrain lk w locked ber).linkTo lk .equalize else s.heardTrain lk w locked ber

/-- In EQUALIZE: the peer has to be there too. -/
def State.trainInEqualize (s : State) (lk : Nat) (w : BitVec 64) (locked : Bool) (ber : Nat) : State :=
  if (locked && bit w.toNat 48) && decide (bits w.toNat 52 4 ≥ 2) then (s.heardTrain lk w locked ber).linkTo lk .config
  else s.heardTrain lk w locked ber

/-- In CONFIG: PROFILE may begin, at once or with the answer. -/
def State.trainInConfig (s : State) (lk : Nat) (w : BitVec 64) (locked : Bool) (ber : Nat) : State :=
  let t := (s.heardTrain lk w locked ber).tryProfile lk
  if (t.link lk).state = .config then (t.sendTrain lk).tryProfile lk else t

section
variable {s : State} {lk : Nat} {w : BitVec 64} (hd : (s.link lk).delin = true) (hw : tickIs w 7 = true)
include hd hw

theorem exec_train_signal (hs : (s.link lk).state = .signal) (locked : Bool) (ber : Nat) :
    exec (.train lk w locked ber) s = .next ((s.trainInSignal lk w locked ber).sendTrain lk) := by
  show execTrain lk w locked ber s = _
  unfold execTrain
  rw [if_neg (by simp [hd, hs, trainStep]), if_neg (by simp [tickGood_of_tickIs hw]), if_neg (by simp [hw]), hs]
  rfl

theorem exec_train_equalize (hs : (s.link lk).state = .equalize) (locked : Bool) (ber : Nat) :
    exec (.train lk w locked ber) s = .next ((s.trainInEqualize lk w locked ber).sendTrain lk) := by
  show execTrain lk w locked ber s = _
  unfold execTrain
  rw [if_neg (by simp [hd, hs, trainStep]), if_neg (by simp [tickGood_of_tickIs hw]), if_neg (by simp [hw]), hs]
  rfl

theorem exec_train_config (hs : (s.link lk).state = .config) (locked : Bool) (ber : Nat) :
    exec (.train lk w locked ber) s = .next (s.trainInConfig lk w locked ber) := by
  show execTrain lk w locked ber s = _
  unfold execTrain
  rw [if_neg (by simp [hd, hs, trainStep]), if_neg (by simp [tickGood_of_tickIs hw]), if_neg (by simp [hw]), hs]
  rfl

end

theorem trainInSignal_waits {s : State} {lk : Nat} {w : BitVec 64} {ber : Nat} :
    s.trainInSignal lk w false ber = s.heardTrain lk w false ber := rfl

theorem trainInSignal_ready {s : State} {lk : Nat} {w : BitVec 64} {ber : Nat} (h : bit w.toNat 48 = true) :
    s.trainInSignal lk w true ber = (s.heardTrain lk w true ber).linkTo lk .equalize := by
  simp [State.trainInSignal, h]

theorem trainInEqualize_ready {s : State} {lk : Nat} {w : BitVec 64} {ber : Nat} (h : bit w.toNat 48 = true)
    (h2 : 2 ≤ bits w.toNat 52 4) : s.trainInEqualize lk w true ber = (s.heardTrain lk w true ber).linkTo lk .config := by
  simp [State.trainInEqualize, h, h2]

/-- A side in SIGNAL puts out what it has to say on every position (R74). -/
theorem trainedInSignal {s : State} {lk : Nat} (hs : (s.link lk).state = .signal) :
    ((s.sendTrain lk).link lk).state = .signal ∧ ∀ k ∈ (s.sendTrain lk).trainPositions lk,
      Out.tick lk (trainWord 1 k ((s.sendTrain lk).trainBody lk)) ∈ (s.sendTrain lk).out := by
  refine ⟨(state_sendTrain s lk lk).trans hs, fun k hk => ?_⟩
  rw [trainBody_sendTrain]
  have he := sendTrain_of_step s (show trainStep (s.link lk).state = some 1 by rw [hs]; rfl)
  rw [he, trainPositions_trainTicks] at hk
  rw [he]
  exact mem_trainTicks_signal _ lk (s.trainBody lk) hk

/-- A move to the next state of training, and the answer of that state. -/
theorem trainMoved (s : State) (lk : Nat) (st : LinkState) :
    (((s.linkTo lk st).sendTrain lk).link lk).state = st ∧ (((s.linkTo lk st).sendTrain lk).link lk).since = s.time.pip ∧
      ((s.linkTo lk st).sendTrain lk).buf = s.buf ∧ ((s.linkTo lk st).sendTrain lk).mem = s.mem := by
  obtain ⟨a, b, h⟩ := link_sendTrain (s.linkTo lk st) lk lk
  rw [link_linkTo] at h
  rw [h]
  refine ⟨rfl, rfl, ?_, ?_⟩
  · rw [sendTrain_frame, linkTo_frame]
  · rw [sendTrain_frame, linkTo_frame]

/-- The run of equal CONFIG ticks goes on where the peer says the same (Table 03-4). -/
theorem agreed_hearTrain {l : Link} {w : Nat} {locked : Bool} {ber : Nat} (h3 : bits w 52 4 = 3)
    (hp : { l.peer with rxReady := bit w 48 } =
      ({ rxReady := bit w 48, fecCap := bits w 38 2, fecReq := bits w 36 2, split := bit w 35, spareCap := bit w 34,
         txOut := bits w 31 3, rxOut := bits w 28 3, agreed := l.peer.agreed } : Peer)) :
    (l.hearTrain w locked ber).peer.agreed = l.peer.agreed + 1 := by
  simp only [Peer.mk.injEq] at hp
  obtain ⟨-, hcap, hreq, hsp, hspare, htx, hrx, -⟩ := hp
  simp [Link.hearTrain, h3, hcap, hreq, hsp, hspare, htx, hrx]

/-- After 8 equal ticks of both sides of a full port PROFILE begins. -/
theorem trainInConfig_profile {s : State} {lk : Nat} {w : BitVec 64} {locked : Bool} {ber : Nat} (hs : (s.link lk).state = .config)
    (ha : 7 ≤ (s.link lk).peer.agreed) (ho : 8 ≤ (s.link lk).ownRun) (hsp : s.splitIn s.cfg.vals (lk / 2) = false)
    (hw : bit w.toNat 35 = false) (hg : ((s.link lk).hearTrain w.toNat locked ber).peer.agreed = (s.link lk).peer.agreed + 1) :
    ((s.trainInConfig lk w locked ber).link lk).state = .profile ∧ ((s.trainInConfig lk w locked ber).link lk).profDue = true ∧
      ((s.trainInConfig lk w locked ber).link lk).lsn = 0 ∧ ((s.trainInConfig lk w locked ber).link lk).expected = 0 := by
  have hl := link_heardTrain s lk w locked ber
  have hr : ((s.link lk).hearTrain w.toNat locked ber).ownRun = (s.link lk).ownRun := rfl
  have ht : (s.heardTrain lk w locked ber).tryProfile lk = (s.heardTrain lk w locked ber).enterProfile lk :=
    tryProfile_agreed _ (by rw [hl]; exact hs) (by rw [hl, hg]; omega) (by rw [hl, hr]; exact ho)
  obtain ⟨fec, tx, rx, he⟩ := link_enterProfile_full (s.heardTrain lk w locked ber) (lk := lk) hsp (by rw [hl]; exact hw)
  have hst : (((s.heardTrain lk w locked ber).enterProfile lk).link lk).state = .profile := by rw [he]; rfl
  have hc : s.trainInConfig lk w locked ber = (s.heardTrain lk w locked ber).enterProfile lk := by
    unfold State.trainInConfig
    rw [ht]
    exact if_neg (by rw [hst]; decide)
  rw [hc, he]
  exact ⟨rfl, rfl, rfl, rfl⟩

/-! ### Attempts that fail and begin (R75, R116) -/

theorem limitExpired {s : State} {lk n : Nat} (hn : trainLimit (s.link lk).state = some n) (ht : (s.link lk).since + n ≤ s.time.pip) :
    ∃ t : State, exec (.trainingLimitExpiry lk) s = .next t ∧ (t.link lk).attempts = (s.link lk).attempts + 1 ∧
      ((s.link lk).attempts < 15 → (t.link lk).state = .dark ∧ (t.link lk).offSince = some s.time.pip) ∧
      (15 ≤ (s.link lk).attempts → (t.link lk).state = .failed ∧ ∃ e ∈ t.log.raised, e.code = 0x0301 ∧ e.stamp = s.time.pip) := by
  have hx : exec (.trainingLimitExpiry lk) s = .next (s.failAttempt lk) := by
    show execTrainingLimitExpiry lk s = _
    unfold execTrainingLimitExpiry
    extract_lets l
    rw [hn]
    exact if_pos ht
  refine ⟨_, hx, ?_⟩
  by_cases h : (s.link lk).attempts < 15
  · obtain ⟨d, hl⟩ := link_leave s lk .dark
    have hn16 : ¬(s.link lk).attempts + 1 ≥ 16 := by omega
    rw [failAttempt_again s h, State.attemptNoted, link_setLink_self, hl, pip_leave, if_neg hn16]
    exact ⟨rfl, fun _ => ⟨rfl, rfl⟩, fun h' => absurd h (by omega)⟩
  · obtain ⟨d, hl⟩ := link_leave s lk .failed
    rw [failAttempt_last s (by omega)]
    refine ⟨?_, fun h' => absurd h' h, fun _ => ⟨?_, ?_⟩⟩
    · rw [link_logLink, link_attemptNoted]
    · rw [link_logLink, link_attemptNoted, hl]
    · obtain ⟨e, he, hc, hp⟩ := raised_logLink ((s.leave lk .failed).attemptNoted lk ((s.link lk).attempts + 1)) 0x0301 2 lk
        ((s.link lk).attempts + 1)
      exact ⟨e, he, hc, hp.trans (pip_leave s lk .failed)⟩

theorem restarted {s : State} {lk k : Nat} (hk : (s.link lk).offSince = some k) (ht : k + 1000000 ≤ s.time.pip) :
    ∃ t : State, exec (.trainingRestart lk) s = .next t ∧ (t.link lk).state = .signal ∧ (t.link lk).offSince = none ∧
      (t.link lk).attempts = (s.link lk).attempts := by
  obtain ⟨d, hl⟩ := link_leave s lk .signal
  refine ⟨s.leave lk .signal, ?_, ?_⟩
  · show execTrainingRestart lk s = _
    unfold execTrainingRestart
    rw [hk]
    exact if_pos ht
  · rw [hl]
    exact ⟨rfl, rfl, rfl⟩

section
variable {s : State} {lk : Nat} {w : BitVec 64} (hl : (s.link lk).live = true) (hd : (s.link lk).delin = true)
  (hw : tickIs w 8 = true)
include hl hd hw

theorem retrained (h1 : bits w.toNat 52 4 = 1) :
    ∃ t : State, exec (.retrainReq lk w) s = .next t ∧ (t.link lk).state = .signal ∧ (t.link lk).replay = [] ∧
      (∀ v, v < 8 → (t.acct (portAcct (s.phOf lk) v)).o = 0) ∧
      ((s.link lk).rxSwap = none → t.buf.frames = s.buf.frames ∧ t.mem = s.mem) := by
  obtain ⟨d, hk⟩ := link_leave s lk .signal
  refine ⟨s.leave lk .signal, ?_, ?_, ?_, fun v hv => acct_leave s lk .signal hv, fun h => frames_mem_leave s h .signal⟩
  · show execRetrainReq lk w s = _
    unfold execRetrainReq
    exact tickRow_next hl hd (tickGood_of_tickIs hw) (by simp [hw, h1])
  · rw [hk]
  · rw [hk]; rfl

theorem wentDark (h2 : bits w.toNat 52 4 = 2) :
    ∃ t : State, exec (.goingDark lk w) s = .next t ∧
      (t.link lk).state = (if s.setting idAdmin (lk / 2) = 1 then .signal else .dark) ∧
      ((s.link lk).rxSwap = none → t.buf.frames = s.buf.frames) := by
  obtain ⟨d, hk⟩ := link_leave s lk (if s.setting idAdmin (lk / 2) = 1 then .signal else .dark)
  refine ⟨s.leave lk (if s.setting idAdmin (lk / 2) = 1 then .signal else .dark), ?_, by rw [hk], fun h => ?_⟩
  · show execGoingDark lk w s = _
    unfold execGoingDark
    rw [tickRow_next hl hd (tickGood_of_tickIs hw) (by simp [hw, h2])]
    split <;> rfl
  · obtain ⟨hf, -⟩ := frames_mem_leave s h (if s.setting idAdmin (lk / 2) = 1 then .signal else .dark)
    exact hf

end

/-! ### Profiles (R112 to R114) -/

theorem profileTaken {s : State} {lk stamp : Nat} {cell : List Byte} {r : List (Nat × List Byte)} (hl : (s.link lk).live = true)
    (hp : (s.link lk).profPend = (stamp, cell) :: r) :
    ∃ t : State, exec (.profileFrame lk) s = .next t ∧ (t.link lk).profPend = r ∧ (t.link lk).profCell = cell ∧
      (t.link lk).profStamp = some stamp ∧
      ((s.link lk).state = .profile → (s.link lk).profAcked = true → (t.link lk).carries = true) ∧
      t.mem = s.mem ∧ t.buf.frames = s.buf.frames ∧ t.buf.accts = s.buf.accts := by
  have hk := link_setLink_self s lk { s.link lk with profPend := r }
  have hx := (offExchange_applyProfile (s.setLink lk { s.link lk with profPend := r }) lk stamp cell).trans (offExchange_setLink ..)
  obtain ⟨hr, hc, hs, hup⟩ := link_applyProfile (s.setLink lk { s.link lk with profPend := r }) lk stamp cell
  rw [hk] at hr hup
  refine ⟨(s.setLink lk { s.link lk with profPend := r }).applyProfile lk stamp cell, ?_, hr, hc, hs, hup, mem_of_offExchange hx,
    frames_of_offExchange hx, accts_of_offExchange hx⟩
  show execProfileFrame lk s = _
  unfold execProfileFrame
  extract_lets l
  rw [hp]
  exact if_neg (by simp [l, hl])

theorem profileLost {s : State} {lk k : Nat} (hk : (s.link lk).profStamp = some k) (hc : (s.link lk).carries = true)
    (ht : k + 3 * 2 ^ 20 ≤ s.time.pip) :
    ∃ t : State, exec (.profileLoss lk) s = .next t ∧ (t.link lk).disagree = (s.link lk).disagree ||| 12 ∧
      t = { s with links := t.links, log := t.log } := by
  let u := s.logDisagree lk (s.link lk).disagree ((s.link lk).disagree ||| 12) true true (fieldAt (s.link lk).profCell 4 4)
  have hu : u = s.setLog u.log := logDisagree_frame ..
  refine ⟨u.setLink lk { u.link lk with disagree := (s.link lk).disagree ||| 12 }, ?_, ?_, ?_⟩
  · show execProfileLoss lk s = _
    unfold execProfileLoss
    extract_lets l
    rw [hk]
    dsimp only
    rw [if_pos (by rw [hc, decide_eq_true ht]; rfl)]
  · rw [link_setLink_self]
  · clear_value u
    rw [hu]
    rfl

/-- The PROFILE frame of this device (R112). -/
def State.profileFrame (s : State) : Frame :=
  { ty := 10, vc := 0, ch := 0, dst := 0xFFFFF, src := s.devFid, cells := s.profileCell }

/-- Pending ticks go, and the PROFILE frame starts. -/
def State.profileStarts (s : State) (lk : Nat) : State := (s.flush lk).chargeStart lk s.profileFrame false

/-- A link that sends its profile. -/
def State.profileNoted (s : State) (lk : Nat) (n : Option Nat) : State :=
  s.setLink lk { s.link lk with profDue := false, profSent := s.time.pip, profLsn := n }

theorem profileStarts_frame (s : State) (lk : Nat) : s.profileStarts lk =
    { s with links := (s.profileStarts lk).links, out := (s.profileStarts lk).out, traf := (s.profileStarts lk).traf,
             cnt := (s.profileStarts lk).cnt, pwr := (s.profileStarts lk).pwr } := by
  unfold State.profileStarts
  rw [chargeStart_frame, flush_frame]

theorem exec_profileSend {s : State} {lk : Nat} (hs : (s.link lk).sends = true) (hd : (s.link lk).profDue = true)
    (hh : (s.link lk).held = false) (hdr : (s.link lk).draining = false) (hr : (s.link lk).resendFrom = none)
    (hroom : s.roomFor lk 0 1 = true) (hsh : s.shaperOk lk 0 = true) : exec (.profileSend lk) s =
    .next (((s.profileStarts lk).profileNoted lk ((s.link lk).profLsn.or (some (s.link lk).lsn))).transmit lk s.profileFrame false) := by
  show execProfileSend lk s = _
  unfold execProfileSend
  extract_lets l due f t old
  have hdue : due = true := by simp [due, l, hd]
  rw [if_pos (by simp [l, hs, hdue, hh, hdr, hr, hroom, hsh])]
  rfl

theorem profileSent {s : State} {lk : Nat} (hs : (s.link lk).sends = true) (hd : (s.link lk).profDue = true)
    (hh : (s.link lk).held = false) (hdr : (s.link lk).draining = false) (hr : (s.link lk).resendFrom = none)
    (hroom : s.roomFor lk 0 1 = true) (hsh : s.shaperOk lk 0 = true) :
    ∃ t : State, exec (.profileSend lk) s = .next t ∧ (t.link lk).profDue = false ∧ (t.link lk).profSent = s.time.pip ∧
      (t.link lk).lsn = ((s.link lk).lsn + 1) % 2 ^ 24 ∧
      Out.frame lk (s.link lk).lsn false s.profileFrame.header s.profileCell
        (trailerOf s.profileFrame.header s.profileCell false (s.link lk).lsn) ∈ t.out ∧
      t.mem = s.mem ∧ t.buf = s.buf ∧ t.host = s.host ∧ ∀ k, k ≠ lk → t.link k = s.link k := by
  have hf := profileStarts_frame s lk
  have hpip : (s.profileStarts lk).time.pip = s.time.pip := (congrArg (fun s : State => s.time.pip) hf :)
  have hl : (s.profileStarts lk).link lk = (s.link lk).flushed := (link_chargeStart ..).trans (link_flush ..)
  have hk : ((s.profileStarts lk).profileNoted lk ((s.link lk).profLsn.or (some (s.link lk).lsn))).link lk =
      { (s.link lk).flushed with profDue := false, profSent := s.time.pip, profLsn := (s.link lk).profLsn.or (some (s.link lk).lsn) } := by
    rw [State.profileNoted, link_setLink_self, hl, hpip]
  refine ⟨_, exec_profileSend hs hd hh hdr hr hroom hsh, ?_, ?_, ?_, ?_, ?_, ?_, ?_, fun k hne => ?_⟩
  · rw [link_transmit, hk]; rfl
  · rw [link_transmit, hk]; rfl
  · rw [link_transmit, hk]; rfl
  · rw [out_transmit, hk]
    exact List.mem_append_right _ (List.mem_singleton.mpr rfl)
  · rw [transmit_frame]; exact (congrArg State.mem hf :)
  · rw [transmit_frame]; exact (congrArg State.buf hf :)
  · rw [transmit_frame]; exact (congrArg State.host hf :)
  · rw [link_transmit_ne _ _ _ _ hne, State.profileNoted, link_setLink_ne _ _ hne]
    exact (link_chargeStart ..).trans (link_flush_ne _ _ hne)

/-- Settles O6: TRAIN by the state it comes in, attempts by what a link that leaves its state gives back, profiles by what the
exchange changes. -/
theorem trainingAndProfiles : Obligations.TrainingAndProfiles := by
  unfold Obligations.TrainingAndProfiles
  refine ⟨fun lk w ber s hd hs hw => ?_, fun lk w ber s hd hw hr => ⟨fun hs => ?_, fun hs h2 => ?_⟩,
    fun lk w locked ber s hd hw hs ha ho h3 hsp h35 hp => ?_, fun _ _ _ hn ht => limitExpired hn ht, fun _ _ _ hk ht => restarted hk ht,
    fun _ _ _ hl hd hw h1 => retrained hl hd hw h1, fun _ _ _ hl hd hw h2 => wentDark hl hd hw h2,
    fun _ _ _ _ _ hl hp => profileTaken hl hp, fun _ _ hs hd hh hdr hr hroom hsh => profileSent hs hd hh hdr hr hroom hsh,
    fun _ _ _ hk hc ht => profileLost hk hc ht⟩
  · refine ⟨_, exec_train_signal hd hw hs false ber, ?_⟩
    rw [trainInSignal_waits]
    exact trainedInSignal ((congrArg Link.state (link_heardTrain s lk w false ber)).trans hs)
  · refine ⟨_, exec_train_signal hd hw hs true ber, ?_⟩
    rw [trainInSignal_ready hr]
    exact trainMoved ..
  · refine ⟨_, exec_train_equalize hd hw hs true ber, ?_⟩
    rw [trainInEqualize_ready hr h2]
    obtain ⟨h, -, hb, hm⟩ := trainMoved (s.heardTrain lk w true ber) lk .config
    exact ⟨h, hb, hm⟩
  · exact ⟨_, exec_train_config hd hw hs locked ber, trainInConfig_profile hs ha ho hsp h35 (agreed_hearTrain h3 hp)⟩

end Sys2Proof.Machine
end

section
/-! SUPPORT. Spare lanes and the hold of a lost lane (03 R105 to R109). -/

namespace Sys2Proof.Machine

open Sys2Proof

/-! ### Lanes in use and the spare -/

section
variable {s t : State} {lk : Nat}

theorem lane_lt_of_used {lane : Nat} (h : s.laneUsed lk lane = true) : lane < 4 := by
  simp only [State.laneUsed, State.laneMine, Bool.and_eq_true, decide_eq_true_eq] at h
  obtain ⟨⟨⟨-, h4⟩, -⟩, -⟩ := h
  exact h4

/-- Lanes in use and a free spare are read off the receiving lanes and swaps of links and the port mode. -/
theorem laneUsed_congr (hr : (t.link lk).rx = (s.link lk).rx) (hs : (t.link lk).rxSwap = (s.link lk).rxSwap) 
    (hp : t.splitIn t.cfg.vals (lk / 2) = s.splitIn s.cfg.vals (lk / 2)) (lane : Nat) : t.laneUsed lk lane = s.laneUsed lk lane := by
  simp only [State.laneUsed, State.laneMine, hr, hs, hp]

theorem spareFree_congr (hr : ∀ i, (t.link i).rx = (s.link i).rx ∧ (t.link i).rxSwap = (s.link i).rxSwap)
    (hp : t.splitIn t.cfg.vals (lk / 2) = s.splitIn s.cfg.vals (lk / 2)) :
    t.spareFree lk true = s.spareFree lk true := by
  obtain ⟨h₁, h₂⟩ := hr lk
  obtain ⟨h₃, h₄⟩ := hr (otherHalf lk)
  simp only [State.spareFree, if_true, h₁, h₂, h₃, h₄, hp]

/-- With L4 free in the transmit direction no half-port is about to take it. -/
theorem txSwap_of_spareFree (h : s.spareFree lk false = true) :
    (s.link lk).txSwap = none ∧ (s.splitIn s.cfg.vals (lk / 2) = true → (s.link (otherHalf lk)).txSwap = none) := by
  simp only [State.spareFree, Bool.and_eq_true, Bool.or_eq_true, Bool.not_eq_true', Bool.false_eq_true, if_false,
    Option.isSome_eq_false_iff, Option.isNone_iff_eq_none] at h
  obtain ⟨⟨-, hb⟩, ho⟩ := h
  refine ⟨hb, fun hs => ?_⟩
  rcases ho with ho | ⟨-, ho⟩
  · rw [hs] at ho; cases ho
  · exact ho

theorem yieldSpare_of_spareFree (h : s.spareFree lk false = true) : s.yieldSpare lk = s := by
  obtain ⟨-, ho⟩ := txSwap_of_spareFree h
  unfold State.yieldSpare
  extract_lets k m
  split
  · next x hx =>
    refine if_neg (fun hc => ?_)
    simp only [Bool.and_eq_true] at hc
    obtain ⟨⟨⟨hs, -⟩, -⟩, -⟩ := hc
    rw [show m.txSwap = none from ho hs] at hx
    cases hx
  · rfl

end

/-! ### A lane that is lost -/

section
variable (s : State) {lk : Nat}

/-- A link that asks for a lane to be moved to L4 (R107). -/
def Link.asked (l : Link) (x : Swap) : Link := { l with rxSwap := some x }.post prioSwap (swapWord 1 x.lane x.lost)

theorem requestSwap_asked (lane : Nat) (lost : Bool) (ticket : Option Nat) (hf : s.spareFree lk true = true)
    (hp : (s.link lk).peer.spareCap = true) : s.requestSwap lk lane lost ticket =
    (s.bump .port lk pcSwap).setLink lk ((s.link lk).asked { lane := lane, lost := lost, req := s.time.pip, ticket := ticket }) := by
  unfold State.requestSwap
  extract_lets l
  rw [if_pos (by rw [hf, hp]; rfl)]
  rfl

theorem requestSwap_lost (lane : Nat) (lost : Bool) (ticket : Option Nat)
    (h : s.spareFree lk true = false ∨ (s.link lk).peer.spareCap = false) :
    s.requestSwap lk lane lost ticket = s.loseLane lk lane := by
  unfold State.requestSwap
  extract_lets l
  refine if_neg (fun hc => ?_)
  obtain ⟨hf, hp⟩ := Bool.and_eq_true_iff.mp hc
  rcases h with h | h
  · rw [h] at hf; cases hf
  · rw [show l.peer.spareCap = false from h] at hp; cases hp

/-- A link that goes on without a lane, asking for the pair without it (R109). -/
def Link.losing (l : Link) (lane pip : Nat) : Link :=
  { l with rx := { l.rx with lost := lane :: l.rx.lost }, rxHold := some pip }.post prioLinkState
    (linkStateWord 3 (if lane < 2 then 1 else 0))

theorem loseLane_full (lane : Nat) (hs : s.splitIn s.cfg.vals (lk / 2) = false) : s.loseLane lk lane =
    ((s.bump .port lk pcNarrow).logLane lk 1 lane lane).setLink lk ((s.link lk).losing lane s.time.pip) := by
  unfold State.loseLane
  extract_lets l pair
  rw [if_neg (by rw [hs]; decide)]
  rfl

theorem exec_laneSignalLoss {lane : Nat} (hc : (s.link lk).carries = true) (hu : s.laneUsed lk lane = true) :
    exec (.laneSignalLoss lk lane) s = .next (s.requestSwap lk lane true none) := by
  have h4 := lane_lt_of_used hu
  show execLaneSignalLoss lk lane s = _
  unfold execLaneSignalLoss
  extract_lets l
  rw [if_neg (by simp [l, hc]; omega), if_neg (by omega), if_pos hu]

/-- A window whose counts are noted (R106). -/
def State.windowed (s : State) (lk lane counts run : Nat) : State :=
  ((s.bumpBy .port lk lane (counts / 2 ^ 32)).bumpBy .port lk (8 + lane) (counts % 2 ^ 32)).setLink lk
    { s.link lk with berRun := tabPut (s.link lk).berRun lane run }

theorem link_windowed (lane counts run i : Nat) : ∃ b, (s.windowed lk lane counts run).link i = { s.link i with berRun := b } := by
  unfold State.windowed
  by_cases hi : i = lk
  · subst hi
    rw [link_setLink_self]
    exact ⟨_, rfl⟩
  · rw [link_setLink_ne _ _ hi]
    exact ⟨_, rfl⟩

theorem windowed_frame (lane counts run : Nat) : s.windowed lk lane counts run =
    { s with links := (s.windowed lk lane counts run).links, cnt := (s.windowed lk lane counts run).cnt } := by
  unfold State.windowed
  generalize counts / 2 ^ 32 = c, counts % 2 ^ 32 = u
  rfl

theorem laneUsed_windowed (lane counts run i : Nat) : (s.windowed lk lane counts run).laneUsed lk i = s.laneUsed lk i := by
  obtain ⟨b, hb⟩ := link_windowed s (lk := lk) lane counts run lk
  refine laneUsed_congr (s := s) (t := s.windowed lk lane counts run) ?_ ?_ rfl i
  · rw [hb]
  · rw [hb]

theorem spareFree_windowed (lane counts run : Nat) : (s.windowed lk lane counts run).spareFree lk true = s.spareFree lk true := by
  refine spareFree_congr (fun i => ?_) rfl
  obtain ⟨b, hb⟩ := link_windowed s (lk := lk) lane counts run i
  rw [hb]
  exact ⟨rfl, rfl⟩

theorem exec_laneBerWindow {lane berExp counts : Nat} (hc : (s.link lk).carries = true) (hu : s.laneUsed lk lane = true)
    (h : 16 < counts % 2 ^ 32 ∨ berExp ≤ s.setting (if (s.link lk).fecS then idSwapBerS else idSwapBerL) (lk / 2) ∧
      1 ≤ tabGet (s.link lk).berRun 0 lane) :
    ∃ run, exec (.laneBerWindow lk lane berExp counts) s = .next ((s.windowed lk lane counts run).requestSwap lk lane false none) := by
  have h4 := lane_lt_of_used hu
  let k := s.setting (if (s.link lk).fecS then idSwapBerS else idSwapBerL) (lk / 2)
  let run := if decide (berExp ≤ k) then tabGet (s.link lk).berRun 0 lane + 1 else 0
  refine ⟨run, ?_⟩
  have hu' : (s.windowed lk lane counts run).laneUsed lk lane = true := (laneUsed_windowed s lane counts run lane).trans hu
  have hr : (decide (run ≥ 2) || decide (counts % 2 ^ 32 > 16)) = true := by
    rcases h with h | ⟨hb, h1⟩
    · rw [decide_eq_true (p := counts % 2 ^ 32 > 16) h, Bool.or_true]
    · have : run = tabGet (s.link lk).berRun 0 lane + 1 := if_pos (decide_eq_true hb)
      rw [decide_eq_true (by omega : run ≥ 2), Bool.true_or]
  show execLaneBerWindow lk lane berExp counts s = _
  unfold execLaneBerWindow
  extract_lets l k' high run' unc t carried
  have hcar : carried = some lane := (if_neg (by omega)).trans (if_pos hu')
  rw [if_neg (by simp [l, hc]; omega), hcar]
  exact if_pos hr

end

/-! ### Holds that end (R108) -/

/-- The record of a link whose receiver's hold has ended: the NAK held back may have been posted. -/
theorem link_endHoldWith (s : State) (prio lk : Nat) : ∃ o h ts, (s.endHoldWith prio lk).link lk =
    { s.link lk with rxHold := none, nakOut := o, nakHeld := h, ticks := ts } ∧
      ((s.link lk).nakOut = true → o = true) ∧ ∀ q ∈ (s.link lk).ticks, q ∈ ts := by
  unfold State.endHoldWith
  extract_lets l t
  have ht : t.link lk = { s.link lk with rxHold := none, nakHeld := none } := link_setLink_self ..
  split
  · next c hc =>
    obtain ⟨o, h, ts, hl, ho, hq⟩ := link_nakWith t prio lk c
    rw [ht] at hl ho hq
    exact ⟨o, h, ts, hl, ho, hq⟩
  · exact ⟨_, _, _, ht, id, fun _ h => h⟩

theorem endHoldWith_frame (s : State) (prio lk : Nat) : s.endHoldWith prio lk =
    { s with links := (s.endHoldWith prio lk).links, cnt := (s.endHoldWith prio lk).cnt } := by
  unfold State.endHoldWith
  extract_lets l t
  split
  · rw [nakWith_frame]; rfl
  · rfl

/-- A swap of a lost lane that holds back nothing any more, and the hold without a swap that is left. -/
def State.swapReleased (s : State) (lk : Nat) (x : Swap) (h : Option (Nat × Bool)) : State :=
  s.setLink lk { s.link lk with txSwap := some { x with lost := false }, txHold := h }

/-- A hold of the transmitter, for a swap of a lost lane, ends after 4 marker periods. -/
theorem exec_lostLaneHoldExpiry {s : State} {lk : Nat} {x : Swap} (hx : (s.link lk).txSwap = some x) (hl : x.lost = true)
    (ht : x.req + 4 * markerPeriod (s.link lk).fecS ≤ s.time.pip) : ∃ h,
    exec (.lostLaneHoldExpiry lk) s = .next (s.swapReleased lk x h) ∨
    exec (.lostLaneHoldExpiry lk) s = .next ((s.swapReleased lk x h).endHold lk) := by
  show ∃ h, execLostLaneHoldExpiry lk s = _ ∨ execLostLaneHoldExpiry lk s = _
  unfold execLostLaneHoldExpiry
  extract_lets l past tx hold t
  have htx : tx = some { x with lost := false } := by
    have hp : past x.req = true := decide_eq_true ht
    unfold tx
    rw [show l.txSwap = some x from hx, Option.map_some, hl, hp]
    rfl
  have htt : t = s.swapReleased lk x hold := by
    unfold t
    rw [htx]
    rfl
  refine ⟨hold, ?_⟩
  rw [← htt]
  split
  · exact .inr rfl
  · exact .inl rfl

end Sys2Proof.Machine
end

section
/-! SUPPORT. Alignment markers (03 R72, R73, R87, R107, R109). -/

namespace Sys2Proof.Machine

open Sys2Proof

/-! ### A marker that is sent (R72, R107, R109) -/

/-- A requested lane is named on L4 from the first marker at least 1 µs after the request. -/
def Link.named (l : Link) (pip : Nat) : Link :=
  match l.txSwap with
  | some x =>
    if !x.named && decide (x.req + 1000 ≤ pip) then
      { l with txSwap := some { x with named := true }, tx := { l.tx with moved := some x.lane } }
    else l
  | none => l

/-- The hold that the next marker ends, ends. -/
def Link.unheld (l : Link) : Link := match l.txHold with | some (_, true) => { l with txHold := none } | _ => l

/-- A requested width begins. -/
def Link.widened (l : Link) : Link := { l with tx := { l.tx with width := l.narrowTo.getD l.tx.width }, narrowTo := none }

/-- The record that a marker is sent by. -/
def Link.toMark (l : Link) (pip : Nat) : Link := (l.named pip).unheld

/-- What a marker changes of the record before it goes. -/
theorem toMark_eq (l : Link) (pip : Nat) : ∃ sw m h, l.toMark pip = { l with txSwap := sw, tx := { l.tx with moved := m }, txHold := h } ∧
    ∀ x, l.txSwap = some x → x.named = false → x.req + 1000 ≤ pip → m = some x.lane := by
  have hn : ∃ sw m, l.named pip = { l with txSwap := sw, tx := { l.tx with moved := m } } ∧
      ∀ x, l.txSwap = some x → x.named = false → x.req + 1000 ≤ pip → m = some x.lane := by
    unfold Link.named
    split
    · next x hx =>
      split
      · exact ⟨_, _, rfl, fun y hy _ _ => by rw [hx] at hy; cases hy; rfl⟩
      · next h => exact ⟨_, _, rfl, fun y hy h₁ h₂ => by rw [hx] at hy; cases hy; exact absurd (by simp [h₁, h₂]) h⟩
    · next hx => exact ⟨_, _, rfl, fun y hy => by rw [hx] at hy; cases hy⟩
  obtain ⟨sw, m, hn, hm⟩ := hn
  unfold Link.toMark Link.unheld
  rw [hn]
  split
  · exact ⟨sw, m, _, rfl, hm⟩
  · exact ⟨sw, m, _, rfl, hm⟩

/-- The state whose lanes a marker names. -/
def State.widened (s : State) (lk : Nat) : State := s.setLink lk ((s.link lk).toMark s.time.pip).widened

theorem link_widened (s : State) (lk : Nat) : (s.widened lk).link lk = ((s.link lk).toMark s.time.pip).widened := link_setLink_self ..

/-- The words that precede the next start of a frame or tick, and those that are left. -/
def State.cutNow (s : State) (lk : Nat) : Nat × List Nat := cutWords ((s.link lk).toMark s.time.pip).sent (s.periodWords lk)

theorem cutNow_eq (s : State) (lk : Nat) : s.cutNow lk = cutWords (s.link lk).sent (s.periodWords lk) := by
  obtain ⟨sw, m, h, ht, -⟩ := toMark_eq (s.link lk) s.time.pip
  rw [State.cutNow, ht]

/-- A link that has sent a marker and goes on with the words that are left. -/
def Link.boundary (l old : Link) (rest : List Nat) : Link :=
  { l with amIndex := (old.amIndex + 1) % 4096, switchIn := old.switchIn - 1, sent := rest }

/-- The state at the boundary that the marker begins. -/
def State.atBoundary (s : State) (lk : Nat) : State :=
  (s.widened lk).setLink lk (((s.widened lk).link lk).boundary ((s.link lk).toMark s.time.pip) (s.cutNow lk).2)

/-- A link whose requested width begins is NARROW. -/
def State.narrowed (s : State) (lk : Nat) : State :=
  if ((s.link lk).toMark s.time.pip).narrowTo.isSome && ((s.link lk).toMark s.time.pip).carries then (s.atBoundary lk).linkTo lk .narrow
  else s.atBoundary lk

/-- Markers that go out. -/
def State.emitMarkers (s : State) (lk : Nat) (bs : List (List Byte)) : State := bs.foldl (fun s b => s.emit (.marker lk b)) s

theorem emitMarkers_eq (lk : Nat) (bs : List (List Byte)) (s : State) :
    s.emitMarkers lk bs = { s with out := s.out ++ bs.map (Out.marker lk) } := by
  unfold State.emitMarkers
  induction bs generalizing s with
  | nil => simp
  | cons b r ih =>
    rw [List.foldl_cons, ih]
    simp [State.emit, State.setOut]

/-- The state with its markers sent. -/
def State.markersSent (s : State) (lk : Nat) : State :=
  (s.narrowed lk).emitMarkers lk ((s.widened lk).markerBlocks lk (s.cutNow lk).1)

theorem exec_alignmentMarkerSend {s : State} {lk : Nat} (hd : (s.link lk).state ≠ .dark) (hf : (s.link lk).state ≠ .failed) :
    exec (.alignmentMarkerSend lk) s = .next (((s.markersSent lk).sendTrain lk).tryProfile lk) := by
  show execAlignmentMarkerSend lk s = _
  unfold execAlignmentMarkerSend
  exact if_neg (by simp [hd, hf])

section
variable (s : State) (lk : Nat)

/-- The record of a link that has sent its markers. -/
theorem link_atBoundary : ∃ sw m h, (∀ x, (s.link lk).txSwap = some x → x.named = false → x.req + 1000 ≤ s.time.pip → m = some x.lane) ∧
    (s.atBoundary lk).link lk = { s.link lk with
      txSwap := sw, txHold := h, tx := { width := (s.link lk).narrowTo.getD (s.link lk).tx.width, moved := m, lost := (s.link lk).tx.lost },
      narrowTo := none, amIndex := ((s.link lk).amIndex + 1) % 4096, switchIn := (s.link lk).switchIn - 1, sent := (s.cutNow lk).2 } := by
  obtain ⟨sw, m, h, ht, hm⟩ := toMark_eq (s.link lk) s.time.pip
  refine ⟨sw, m, h, hm, ?_⟩
  rw [State.atBoundary, link_setLink_self, link_widened, ht]
  rfl

theorem link_emitMarkers (bs : List (List Byte)) (i : Nat) : (s.emitMarkers lk bs).link i = s.link i := by
  rw [emitMarkers_eq]; rfl

/-- A link that narrows is NARROW from its marker on. -/
theorem narrowed_narrow {w : Nat} (hc : (s.link lk).carries = true) (hn : (s.link lk).narrowTo = some w) :
    s.narrowed lk = (s.atBoundary lk).linkTo lk .narrow := by
  obtain ⟨sw, m, h, ht, -⟩ := toMark_eq (s.link lk) s.time.pip
  unfold State.narrowed
  rw [ht]
  refine if_pos ?_
  simp only [Link.carries, hn] at hc ⊢
  exact hc

theorem narrowed_same (h : (s.link lk).carries = false ∨ (s.link lk).narrowTo = none) : s.narrowed lk = s.atBoundary lk := by
  obtain ⟨sw, m, hh, ht, -⟩ := toMark_eq (s.link lk) s.time.pip
  unfold State.narrowed
  rw [ht]
  refine if_neg (fun hc => ?_)
  obtain ⟨hn, hc⟩ := Bool.and_eq_true_iff.mp hc
  rcases h with h | h
  · have hc : (s.link lk).carries = true := hc
    rw [h] at hc; cases hc
  · have hn : (s.link lk).narrowTo.isSome = true := hn
    rw [h] at hn; cases hn

/-- Markers change links, the host interface and output. -/
theorem markersSent_frame : s.markersSent lk =
    { s with links := (s.markersSent lk).links, host := (s.markersSent lk).host, out := (s.markersSent lk).out } := by
  unfold State.markersSent
  rw [emitMarkers_eq]
  unfold State.narrowed
  split
  · rw [linkTo_frame]; rfl
  · rfl

theorem markersSent_same (h : (s.link lk).carries = false ∨ (s.link lk).narrowTo = none) :
    s.markersSent lk = { s with
      links := (s.atBoundary lk).links,
      out := s.out ++ ((s.widened lk).markerBlocks lk (s.cutNow lk).1).map (Out.marker lk) } := by
  unfold State.markersSent
  rw [emitMarkers_eq, narrowed_same s lk h]
  rfl

end

/-! ### What the lanes are read off -/

section
variable {s t : State} {lk : Nat} (ht : ∀ i, (t.link i).tx = (s.link i).tx)
  (hp : t.splitIn t.cfg.vals (lk / 2) = s.splitIn s.cfg.vals (lk / 2))
include ht hp

theorem markerWidth_congr : t.markerWidth lk = s.markerWidth lk := by
  simp only [State.markerWidth, hp, ht]

theorem lanePositions_congr (hs : (t.link lk).txSwap = (s.link lk).txSwap) : t.lanePositions lk = s.lanePositions lk := by
  simp only [State.lanePositions, State.lanesInUse, hp, ht, hs]

end

/-- A lane that L4 carries stands among the positions. -/
theorem moved_mem_lanePositions {s : State} {lk k : Nat} (h : (s.link lk).tx.moved = some k) : (k, 4) ∈ s.lanePositions lk := by
  simp [State.lanePositions, h]

/-- The lanes at the boundary are those that the marker names. -/
theorem tx_atBoundary (s : State) (lk i : Nat) : ((s.atBoundary lk).link i).tx = ((s.widened lk).link i).tx ∧
    ((s.atBoundary lk).link i).txSwap = ((s.widened lk).link i).txSwap := by
  unfold State.atBoundary
  by_cases hi : i = lk
  · subst hi
    rw [link_setLink_self]
    exact ⟨rfl, rfl⟩
  · rw [link_setLink_ne _ _ hi]
    exact ⟨rfl, rfl⟩

/-- What does not change in the record that a marker is sent by. -/
theorem widened_eq (s : State) (lk : Nat) : ∃ sw tx h, (s.widened lk).link lk =
    { s.link lk with txSwap := sw, tx := tx, txHold := h, narrowTo := none } := by
  obtain ⟨sw, m, h, ht, -⟩ := toMark_eq (s.link lk) s.time.pip
  rw [link_widened, ht]
  exact ⟨sw, _, h, rfl⟩

/-- Once words of the agreed mode go out, a marker stands on every position that carries a lane (R72, R74). -/
theorem markerBlocks_live {s : State} {lk : Nat} (hl : (s.link lk).live = true) (hs : (s.link lk).switchIn < 2) (next : Nat) :
    s.markerBlocks lk next = (s.lanePositions lk).map (fun p =>
      markerBlock p.1 p.2 (s.link lk).amIndex (s.markerWidth lk) (s.link lk).fecS next) := by
  unfold State.markerBlocks
  exact if_pos (by simp [hl, hs])

/-! ### A marker that is received (R73, R87, R107) -/

/-- A good marker restores delineation, and owes the NAK once frames flow. -/
def State.delineated (s : State) (lk : Nat) : State :=
  if (s.link lk).delin then s
  else if (s.link lk).live then (s.setLink lk { s.link lk with delin := true }).nak lk 2 else s.setLink lk { s.link lk with delin := true }

theorem Link.eq_of_delin {l : Link} (h : l.delin = true) : l = { l with delin := true } := by
  cases l; cases h; rfl

theorem link_delineated (s : State) (lk : Nat) : ∃ o h ts, (s.delineated lk).link lk =
    { s.link lk with delin := true, nakOut := o, nakHeld := h, ticks := ts } ∧
    ((s.link lk).live = true → (s.link lk).delin = false → (s.link lk).nakOut = false → (s.link lk).rxSwap = none →
      (s.link lk).rxHold = none → o = true) := by
  have hk := link_setLink_self s lk { s.link lk with delin := true }
  unfold State.delineated
  split
  · next hd =>
    exact ⟨(s.link lk).nakOut, (s.link lk).nakHeld, (s.link lk).ticks, Link.eq_of_delin hd, fun _ hd' => by rw [hd] at hd'; cases hd'⟩
  · split
    · unfold State.nak
      obtain ⟨o, h, ts, hl, -, -⟩ := link_nakWith (s.setLink lk { s.link lk with delin := true }) prioNak lk 2
      rw [hk] at hl
      refine ⟨o, h, ts, hl, fun _ _ ho hs hh => ?_⟩
      have hp := nakWith_posted (s := s.setLink lk { s.link lk with delin := true }) (prio := prioNak) (cause := 2)
        (by rw [hk]; exact ho) (by rw [hk]; exact hs) (by rw [hk]; exact hh)
      rw [hp, link_setLink_self] at hl
      exact (congrArg Link.nakOut hl).symm
    · next hl => exact ⟨_, _, _, hk, fun hl' => absurd hl' hl⟩

/-- A receiver that takes a lane from L4, and says so (R107). -/
def Link.taking (l : Link) (x : Swap) : Link :=
  { l with rxSwap := none, rx := { l.rx with moved := some x.lane, lost := x.lane :: l.rx.lost }, doneRepeats := 4 }.post
    prioSwap (swapWord 2 x.lane false)

theorem link_takeSpare (s : State) (lk : Nat) (x : Swap) : ∃ o h ts, (s.takeSpare lk x).link lk =
    { (s.link lk).taking x with rxHold := none, nakOut := o, nakHeld := h, ticks := ts } ∧ (prioSwap, swapWord 2 x.lane false) ∈ ts := by
  unfold State.takeSpare
  extract_lets l rx l' t u
  have hu : u.link lk = (s.link lk).taking x := by
    unfold u
    split
    · rw [link_finish]; exact link_setLink_self ..
    · exact link_setLink_self ..
  obtain ⟨o, h, ts, hl, -, hq⟩ := link_endHoldWith u prioSwap lk
  rw [hu] at hl hq
  exact ⟨o, h, ts, hl, hq _ (mem_post.mpr (.inl rfl))⟩

/-- A marker on L4 that names the lane asked for gives it to the receiver. -/
def State.spareNamed (s : State) (lk lane pos : Nat) (carries : Bool) : State :=
  match (s.link lk).rxSwap with
  | some x => if pos = 4 && decide (lane = x.lane) && carries then s.takeSpare lk x else s
  | none => s

theorem spareNamed_none {s : State} {lk : Nat} (h : (s.link lk).rxSwap = none) (lane pos : Nat) (carries : Bool) :
    s.spareNamed lk lane pos carries = s := by
  unfold State.spareNamed
  rw [h]

theorem spareNamed_taken {s : State} {lk lane pos : Nat} {x : Swap} (h : (s.link lk).rxSwap = some x) (hp : pos = 4) (hl : lane = x.lane) :
    s.spareNamed lk lane pos true = s.takeSpare lk x := by
  unfold State.spareNamed
  rw [h]
  exact if_pos (by simp [hp, hl])

theorem delin_spareNamed (s : State) (lk lane pos : Nat) (carries : Bool) :
    ((s.spareNamed lk lane pos carries).link lk).delin = (s.link lk).delin := by
  unfold State.spareNamed
  split
  · next x _ =>
    split
    · obtain ⟨o, h, ts, hl, -⟩ := link_takeSpare s lk x
      rw [hl]; rfl
    · rfl
  · rfl

/-- A marker shows the width of the peer's transmitter (R109). -/
def State.widthShown (s : State) (lk width : Nat) : State :=
  if (s.link lk).carries && (width = 1 || width = 2) && decide ((s.link lk).rx.width ≠ width) then
    ((s.setLink lk { s.link lk with rx := { (s.link lk).rx with width := width } }).linkTo lk .narrow).endHold lk
  else s

theorem link_widthShown (s : State) (lk width : Nat) : ((s.widthShown lk width).link lk).delin = (s.link lk).delin ∧
    ((s.link lk).nakOut = true → ((s.widthShown lk width).link lk).nakOut = true) ∧
    ((s.widthShown lk width).link lk).rxSwap = (s.link lk).rxSwap ∧
    ((s.widthShown lk width).link lk).rx.moved = (s.link lk).rx.moved ∧
    ∀ q ∈ (s.link lk).ticks, q ∈ ((s.widthShown lk width).link lk).ticks := by
  unfold State.widthShown
  split
  · obtain ⟨o, h, ts, hl, ho, hq⟩ := link_endHoldWith
      ((s.setLink lk { s.link lk with rx := { (s.link lk).rx with width := width } }).linkTo lk .narrow) prioNak lk
    rw [link_linkTo, link_setLink_self] at hl ho hq
    unfold State.endHold
    rw [hl]
    exact ⟨rfl, ho, rfl, rfl, hq⟩
  · exact ⟨rfl, id, rfl, rfl, fun _ h => h⟩

theorem exec_alignmentMarker {s : State} {lk : Nat} {block : List Byte} (skew : Nat) (hc : (s.link lk).carries = true)
    (hm : markerGood block = true) : exec (.alignmentMarker lk block skew) s =
      .next (((s.delineated lk).spareNamed lk (fieldAt block 8 1 / 16) (fieldAt block 8 1 % 8) (s.link lk).carries).widthShown lk
        (fieldAt block 11 1 / 64)) := by
  have hst : (s.link lk).state = .up ∨ (s.link lk).state = .narrow := by simpa [Link.carries] using hc
  have hlim : trainLimit (s.link lk).state = none := by
    rcases hst with h | h
    · rw [h]; rfl
    · rw [h]; rfl
  have hdf : (s.link lk).state ≠ .dark ∧ (s.link lk).state ≠ .failed := by
    rcases hst with h | h
    · rw [h]; decide
    · rw [h]; decide
  show execAlignmentMarker lk block skew s = _
  unfold execAlignmentMarker
  rw [if_neg (by simp [hdf, hm]), if_neg (by simp [hlim])]
  exact (apply_ite Host.Outcome.next _ _ _).symm

end Sys2Proof.Machine
end

section
/-! SUPPORT. Line coding: scrambling twice, lengths of codewords, roots of the generator (03 R68 to R71). -/

namespace Sys2Proof.Machine

open Sys2Proof

/-- The register does not depend on the message, so that scrambling again takes it off. -/
theorem scramble_scramble (r : BitVec 31) (l : List Bool) : scramble r (scramble r l) = l := by
  induction l generalizing r with
  | nil => rfl
  | cons b l ih =>
    simp only [scramble, ih, List.cons.injEq, and_true]
    cases b <;> cases (scrambleStep r).1 <;> rfl

theorem length_rsGen (n : Nat) : (rsGen n).length = n + 1 := by
  induction n with
  | zero => rfl
  | succ n ih => simp [rsGen, ih]

/-- The remainder keeps its length as message symbols enter. -/
theorem length_rsParity {g : List Nat} {n : Nat} (hg : g.length = n + 2) (msg : List Nat) : (rsParity g msg).length = n + 1 := by
  unfold rsParity
  extract_lets t
  have ht : t.length = n + 1 := by simp [t, hg]
  have hstep : ∀ (ms r : List Nat), r.length = n + 1 → (ms.foldl (fun r m =>
      let f := m ^^^ r.headD 0
      List.zipWith (fun (a b : Nat) => a ^^^ b) (r.tail ++ [0]) (t.map (gfMul f))) r).length = n + 1 := by
    intro ms
    induction ms with
    | nil => exact fun r h => h
    | cons m ms ih => exact fun r h => ih _ (by simp [h, ht])
  exact hstep msg _ (by simp [ht])

theorem length_rsEncode (fecS : Bool) (msg : List Nat) : (rsEncode fecS msg).length = msg.length + (if fecS then 30 else 8) := by
  unfold rsEncode
  rw [List.length_append]
  cases fecS
  · exact congrArg (msg.length + ·) (length_rsParity (n := 7) (length_rsGen 8) msg)
  · exact congrArg (msg.length + ·) (length_rsParity (n := 29) (length_rsGen 30) msg)

theorem take_rsEncode (fecS : Bool) (msg : List Nat) : (rsEncode fecS msg).take msg.length = msg := by simp [rsEncode]

theorem length_le_of_mem_cutList {α : Type} {n : Nat} {l x : List α} (fuel : Nat) (h : x ∈ cutList n fuel l) : x.length ≤ n := by
  induction fuel generalizing l with
  | zero => cases h
  | succ fuel ih =>
    unfold cutList at h
    split at h
    · cases h
    · rcases List.mem_cons.mp h with rfl | h
      · exact List.length_take_le ..
      · exact ih h

theorem length_codeword {fecS : Bool} {ws : List (List Byte)} {cw : List Nat} (h : cw ∈ codewords fecS ws) :
    cw.length ≤ if fecS then 544 else 144 := by
  unfold codewords at h
  obtain ⟨msg, hm, rfl⟩ := List.mem_map.mp h
  have hl := length_le_of_mem_cutList _ hm
  rw [length_rsEncode]
  cases fecS
  · exact Nat.add_le_add_right hl 8
  · exact Nat.add_le_add_right hl 30

/-- The generator of RS(144,136) has the roots 1 to alpha^7. -/
theorem rsGen_roots : ∀ i, i < 8 → rsEval (gfPow i) (rsGen 8) = 0 := by decide +kernel

end Sys2Proof.Machine
end

section
/-! PROOF. Spare lanes, NARROW operation, markers and line coding (O7). -/

namespace Sys2Proof.Machine

open Sys2Proof

/-! ### A receiver that loses a lane (R106, R109) -/

section
variable {s : State} {lk lane : Nat} (hc : (s.link lk).carries = true) (hu : s.laneUsed lk lane = true)
include hc hu

theorem lossSwapped (hf : s.spareFree lk true = true) (hp : (s.link lk).peer.spareCap = true) :
    ∃ t : State, exec (.laneSignalLoss lk lane) s = .next t ∧
      (t.link lk).rxSwap = some { lane := lane, lost := true, req := s.time.pip } ∧
      (∃ q ∈ (t.link lk).ticks, q.2 = swapWord 1 lane true) ∧ t = { s with links := t.links, cnt := t.cnt } := by
  refine ⟨_, (exec_laneSignalLoss s hc hu).trans (congrArg _ (requestSwap_asked s lane true none hf hp)), ?_, ?_, rfl⟩
  · rw [link_setLink_self]; rfl
  · rw [link_setLink_self]
    exact ⟨_, mem_post.mpr (.inl rfl), rfl⟩

theorem lossNarrowed (hf : s.spareFree lk true = false ∨ (s.link lk).peer.spareCap = false)
    (hs : s.splitIn s.cfg.vals (lk / 2) = false) :
    ∃ t : State, exec (.laneSignalLoss lk lane) s = .next t ∧ lane ∈ (t.link lk).rx.lost ∧
      (∃ q ∈ (t.link lk).ticks, q.2 = linkStateWord 3 (if lane < 2 then 1 else 0)) ∧
      t = { s with links := t.links, cnt := t.cnt, log := t.log } := by
  refine ⟨_, (exec_laneSignalLoss s hc hu).trans (congrArg _ ((requestSwap_lost s lane true none hf).trans (loseLane_full s lane hs))),
    ?_, ?_, rfl⟩
  · rw [link_setLink_self]
    exact List.mem_cons_self
  · rw [link_setLink_self]
    exact ⟨_, mem_post.mpr (.inl rfl), rfl⟩

theorem windowSwapped {berExp unc : Nat} (hf : s.spareFree lk true = true) (hp : (s.link lk).peer.spareCap = true)
    (h : 16 < unc % 2 ^ 32 ∨ berExp ≤ s.setting (if (s.link lk).fecS then idSwapBerS else idSwapBerL) (lk / 2) ∧
      1 ≤ tabGet (s.link lk).berRun 0 lane) :
    ∃ t : State, exec (.laneBerWindow lk lane berExp unc) s = .next t ∧
      (t.link lk).rxSwap = some { lane := lane, lost := false, req := s.time.pip } ∧
      t = { s with links := t.links, cnt := t.cnt } := by
  obtain ⟨run, he⟩ := exec_laneBerWindow s hc hu h
  obtain ⟨b, hb⟩ := link_windowed s (lk := lk) lane unc run lk
  have hr := requestSwap_asked (s.windowed lk lane unc run) (lk := lk) lane false none ((spareFree_windowed s lane unc run).trans hf)
    (by rw [hb]; exact hp)
  rw [hr] at he
  refine ⟨_, he, ?_, ?_⟩
  · rw [link_setLink_self]
    rfl
  · have hw := windowed_frame s (lk := lk) lane unc run
    generalize s.windowed lk lane unc run = t at hw
    rw [hw]
    rfl

end

/-! ### A transmitter that is asked for the spare or for a width (R107, R109) -/

section
variable {s : State} {lk : Nat} {w : BitVec 64} (hl : (s.link lk).live = true) (hd : (s.link lk).delin = true)
include hl hd

theorem swapNoted (hw : tickIs w 5 = true) (h1 : bits w.toNat 52 4 = 1) (hf : s.spareFree lk false = true)
    (hp : (s.link lk).peer.spareCap = true) :
    ∃ t : State, exec (.laneSwapReq lk w) s = .next t ∧
      (t.link lk).txSwap = some { lane := bits w.toNat 50 2, lost := bit w.toNat 49, req := s.time.pip } ∧
      t = { s with links := t.links } := by
  refine ⟨s.setLink lk { s.link lk with txSwap := some { lane := bits w.toNat 50 2, lost := bit w.toNat 49, req := s.time.pip } },
    ?_, by rw [link_setLink_self], rfl⟩
  obtain ⟨hn, -⟩ := txSwap_of_spareFree hf
  show execLaneSwapReq lk w s = _
  unfold execLaneSwapReq
  rw [tickRow_next hl hd (tickGood_of_tickIs hw) (by simp [hw, h1])]
  dsimp only
  rw [yieldSpare_of_spareFree hf, if_neg (by simp [hn]), if_pos (by rw [hf, hp]; rfl)]

theorem swapDone {x : Swap} (hw : tickIs w 5 = true) (h2 : bits w.toNat 52 4 = 2) (hx : (s.link lk).txSwap = some x)
    (hlane : x.lane = bits w.toNat 50 2) :
    ∃ t : State, exec (.laneSwapDone lk w) s = .next t ∧ (t.link lk).txSwap = none ∧ x.lane ∈ (t.link lk).tx.lost ∧
      (t.link lk).tx.moved = some x.lane ∧ t = { s with links := t.links } := by
  refine ⟨s.setLink lk { s.link lk with
    txSwap := none, tx := { (s.link lk).tx with moved := some x.lane, lost := x.lane :: (s.link lk).tx.lost } }, ?_, ?_⟩
  · show execLaneSwapDone lk w s = _
    unfold execLaneSwapDone
    rw [tickRow_next hl hd (tickGood_of_tickIs hw) (by simp [hw, h2])]
    extract_lets l
    rw [hx]
    exact congrArg _ (if_pos hlane)
  · rw [link_setLink_self]
    exact ⟨rfl, List.mem_cons_self, rfl, rfl⟩

theorem widthAsked (hw : tickIs w 8 = true) (h3 : bits w.toNat 52 4 = 3) (hs : s.splitIn s.cfg.vals (lk / 2) = false)
    (hp : bits w.toNat 50 2 ≤ 1) :
    ∃ t : State, exec (.narrow lk w) s = .next t ∧ (t.link lk).narrowTo = some (bits w.toNat 50 2 + 1) ∧ (t.link lk).held = true ∧
      (t.link lk).tx = (s.link lk).tx ∧ t = { s with links := t.links, cnt := t.cnt, log := t.log } := by
  refine ⟨((s.bump .port lk pcNarrow).logLane lk 1 (if bits w.toNat 50 2 = 0 then 2 else 0) 0).setLink lk
    { s.link lk with narrowTo := some (bits w.toNat 50 2 + 1), txHold := some (s.time.pip, true) }, ?_, ?_⟩
  · show execNarrow lk w s = _
    unfold execNarrow
    rw [tickRow_next hl hd (tickGood_of_tickIs hw) (by simp [hw, h3])]
    extract_lets l pair
    exact congrArg _ (if_neg (by simp [hs, pair]; omega))
  · rw [link_setLink_self]
    exact ⟨rfl, rfl, rfl, rfl⟩

end

/-! ### Waits that end (R107, R108) -/

theorem swapRefused {s : State} {lk : Nat} {x : Swap} (hx : (s.link lk).rxSwap = some x) (hn : x.ticket = none)
    (ht : x.req + 3 * markerPeriod (s.link lk).fecS ≤ s.time.pip) (hs : s.splitIn s.cfg.vals (lk / 2) = false) :
    ∃ t : State, exec (.swapRefusedTimeout lk) s = .next t ∧ (t.link lk).rxSwap = none ∧ x.lane ∈ (t.link lk).rx.lost ∧
      t = { s with links := t.links, cnt := t.cnt, log := t.log } := by
  have he : exec (.swapRefusedTimeout lk) s = .next ((s.setLink lk { s.link lk with rxSwap := none }).loseLane lk x.lane) := by
    show execSwapRefusedTimeout lk s = _
    unfold execSwapRefusedTimeout
    extract_lets l
    rw [hx]
    dsimp only
    rw [if_pos ht, hn]
  have hk := link_setLink_self s lk { s.link lk with rxSwap := none }
  refine ⟨_, he.trans (congrArg _ (loseLane_full (s.setLink lk { s.link lk with rxSwap := none }) x.lane hs)), ?_, ?_, rfl⟩
  · rw [link_setLink_self, hk]; rfl
  · rw [link_setLink_self, hk]
    exact List.mem_cons_self

theorem holdEnded {s : State} {lk : Nat} {x : Swap} (hx : (s.link lk).txSwap = some x) (hl : x.lost = true)
    (ht : x.req + 4 * markerPeriod (s.link lk).fecS ≤ s.time.pip) :
    ∃ t : State, exec (.lostLaneHoldExpiry lk) s = .next t ∧ (t.link lk).txSwap = some { x with lost := false } ∧
      t = { s with links := t.links, cnt := t.cnt } := by
  obtain ⟨h, he | he⟩ := exec_lostLaneHoldExpiry hx hl ht
  · exact ⟨_, he, by rw [State.swapReleased, link_setLink_self], rfl⟩
  · obtain ⟨o, n, ts, hk, -, -⟩ := link_endHoldWith (s.swapReleased lk x h) prioNak lk
    refine ⟨_, he, ?_, ?_⟩
    · unfold State.endHold
      rw [hk, State.swapReleased, link_setLink_self]
    · unfold State.endHold
      rw [endHoldWith_frame]
      rfl

/-! ### Markers that are sent (R72, R107, R109) -/

section
variable {s : State} {lk : Nat}

/-- No TRAIN tick follows the marker of a link that carries traffic or is in PROFILE. -/
theorem trainStep_of_live (h : (s.link lk).live = true) : trainStep (s.link lk).state = none := by
  simp only [Link.live, Link.carries, Bool.or_eq_true, decide_eq_true_eq] at h
  rcases h with h | h | h <;> rw [h] <;> rfl

theorem markerNarrowed {w : Nat} (hc : (s.link lk).carries = true) (hn : (s.link lk).narrowTo = some w) :
    ∃ t : State, exec (.alignmentMarkerSend lk) s = .next t ∧ (t.link lk).tx.width = w ∧ (t.link lk).narrowTo = none ∧
      (t.link lk).state = .narrow ∧ t.buf = s.buf ∧ t.mem = s.mem := by
  have hst : (s.link lk).state = .up ∨ (s.link lk).state = .narrow := by simpa [Link.carries] using hc
  have he := exec_alignmentMarkerSend (s := s) (lk := lk) (by rcases hst with h | h <;> rw [h] <;> decide)
    (by rcases hst with h | h <;> rw [h] <;> decide)
  obtain ⟨sw, m, h, -, hb⟩ := link_atBoundary s lk
  have hk : (s.markersSent lk).link lk = { (s.atBoundary lk).link lk with state := .narrow, since := (s.atBoundary lk).time.pip } := by
    rw [State.markersSent, link_emitMarkers, narrowed_narrow s lk hc hn, link_linkTo]
  have hs : ((s.markersSent lk).link lk).state = .narrow := by rw [hk]
  rw [sendTrain_idle _ (by rw [hs]; rfl), tryProfile_idle _ (.inl (by rw [hs]; decide))] at he
  have hf := markersSent_frame s lk
  refine ⟨_, he, ?_, ?_, hs, (congrArg State.buf hf :), (congrArg State.mem hf :)⟩
  · rw [hk, hb, hn]; rfl
  · rw [hk, hb]

/-- What this side says in TRAIN ticks is not changed by a marker. -/
theorem trainBody_markersSent (h : (s.link lk).carries = false ∨ (s.link lk).narrowTo = none) :
    (s.markersSent lk).trainBody lk = s.trainBody lk := by
  obtain ⟨sw, m, hh, -, hb⟩ := link_atBoundary s lk
  have hf := markersSent_same s lk h
  have hk : (s.markersSent lk).link lk = (s.atBoundary lk).link lk := (congrArg (fun s : State => s.link lk) hf :)
  unfold State.trainBody State.wantsFecS
  rw [hk, hb, hf]
  rfl

theorem markerToProfile (hs : (s.link lk).state = .config) (ha : 8 ≤ (s.link lk).peer.agreed) (ho : 8 ≤ (s.link lk).ownRun)
    (hown : (s.link lk).ownTrain = s.trainSaid lk) (hsp : s.splitIn s.cfg.vals (lk / 2) = false) (hp : (s.link lk).peer.split = false) :
    ∃ t : State, exec (.alignmentMarkerSend lk) s = .next t ∧ (t.link lk).state = .profile ∧ (t.link lk).profDue = true ∧
      (t.link lk).amIndex = ((s.link lk).amIndex + 1) % 4096 := by
  have he := exec_alignmentMarkerSend (s := s) (lk := lk) (by rw [hs]; decide) (by rw [hs]; decide)
  have hc : (s.link lk).carries = false := by simp [Link.carries, hs]
  obtain ⟨sw, m, h, -, hb⟩ := link_atBoundary s lk
  have hf := markersSent_same s lk (.inl hc)
  have hk : (s.markersSent lk).link lk = (s.atBoundary lk).link lk := (congrArg (fun s : State => s.link lk) hf :)
  rw [hb] at hk
  have hsaid : (s.markersSent lk).trainSaid lk = s.trainSaid lk := by
    rw [State.trainSaid, trainBody_markersSent (.inl hc), State.trainSaid]
  have hst := sendTrain_of_step (s.markersSent lk) (lk := lk) (step := 3) (by rw [hk, hs]; rfl)
  have hl : ((s.markersSent lk).sendTrain lk).link lk = ((s.markersSent lk).link lk).trained 3 (s.trainSaid lk) := by
    rw [hst, hsaid]
    exact (congrArg (fun s : State => s.link lk) (offTrain_trainTicks ..) :).trans (link_setLink_self ..)
  have hrun : (((s.markersSent lk).link lk).trained 3 (s.trainSaid lk)).ownRun = (s.link lk).ownRun + 1 := by
    rw [hk]
    exact if_pos hown
  rw [tryProfile_agreed _ (by rw [hl, hk]; exact hs) (by rw [hl, hk]; exact ha) (by rw [hl, hrun]; omega)] at he
  have hcfg : ((s.markersSent lk).sendTrain lk).splitIn ((s.markersSent lk).sendTrain lk).cfg.vals (lk / 2) = false := by
    rw [sendTrain_frame, hf]
    exact hsp
  obtain ⟨fec, tx, rx, hr⟩ := link_enterProfile_full ((s.markersSent lk).sendTrain lk) (lk := lk) hcfg (by rw [hl, hk]; exact hp)
  refine ⟨_, he, ?_, ?_, ?_⟩
  · rw [hr]; rfl
  · rw [hr]; rfl
  · rw [hr, hl, hk]; rfl

theorem markerSent (hd : (s.link lk).state ≠ .dark) (hf : (s.link lk).state ≠ .failed) (hn : (s.link lk).narrowTo = none)
    (hp : (s.link lk).state ≠ .config ∨ (s.link lk).peer.agreed < 8) :
    ∃ t : State, exec (.alignmentMarkerSend lk) s = .next t ∧ (t.link lk).amIndex = ((s.link lk).amIndex + 1) % 4096 ∧
      (∀ x, (s.link lk).txSwap = some x → x.named = false → x.req + 1000 ≤ s.time.pip → (t.link lk).tx.moved = some x.lane ∧
        (x.lane, 4) ∈ t.lanePositions lk) ∧
      ((s.link lk).live = true → (s.link lk).switchIn < 2 → ∀ k ∈ t.lanePositions lk,
        Out.marker lk (markerBlock k.1 k.2 (s.link lk).amIndex (t.markerWidth lk) (s.link lk).fecS
          (cutWords (s.link lk).sent (s.periodWords lk)).1) ∈ t.out) ∧
      t = { s with links := t.links, out := t.out, free := t.free } := by
  have he := exec_alignmentMarkerSend hd hf
  obtain ⟨sw, m, h, hm, hb⟩ := link_atBoundary s lk
  have hsame := markersSent_same s lk (.inr hn)
  have hk : (s.markersSent lk).link lk = (s.atBoundary lk).link lk := (congrArg (fun s : State => s.link lk) hsame :)
  rw [hb] at hk
  obtain ⟨a, b, hl⟩ := link_sendTrain (s.markersSent lk) lk lk
  rw [hk] at hl
  rw [tryProfile_idle _ (by rw [hl]; exact hp)] at he
  refine ⟨_, he, by rw [hl], fun x hx h₁ h₂ => ?_, fun hlive hsw k hmem => ?_, ?_⟩
  · have hmoved : (((s.markersSent lk).sendTrain lk).link lk).tx.moved = some x.lane := by
      rw [hl]
      exact hm x hx h₁ h₂
    exact ⟨hmoved, moved_mem_lanePositions hmoved⟩
  · have hst : ((s.markersSent lk).link lk).state = (s.link lk).state := by rw [hk]
    rw [sendTrain_idle _ (by rw [hst]; exact trainStep_of_live hlive)] at hmem ⊢
    have hi : ∀ i, (s.markersSent lk).link i = (s.atBoundary lk).link i := fun i => (congrArg (fun s : State => s.link i) hsame :)
    have hpos : (s.markersSent lk).lanePositions lk = (s.widened lk).lanePositions lk :=
      lanePositions_congr (fun i => by rw [hi]; exact (tx_atBoundary s lk i).1) (by rw [hsame]; rfl)
        (by rw [hi]; exact (tx_atBoundary s lk lk).2)
    have hwid : (s.markersSent lk).markerWidth lk = (s.widened lk).markerWidth lk :=
      markerWidth_congr (fun i => by rw [hi]; exact (tx_atBoundary s lk i).1) (by rw [hsame]; rfl)
    obtain ⟨sw', tx', h', hw⟩ := widened_eq s lk
    rw [hpos] at hmem
    rw [hwid, ← cutNow_eq, congrArg State.out hsame]
    refine List.mem_append_right _ (List.mem_map_of_mem ?_)
    rw [markerBlocks_live (by rw [hw]; exact hlive) (by rw [hw]; exact hsw), hw]
    exact List.mem_map.mpr ⟨k, hmem, rfl⟩
  · rw [sendTrain_frame, hsame]

end

/-! ### A marker that is received (R73, R87, R107) -/

theorem markerTaken {s : State} {lk : Nat} {block : List Byte} (skew : Nat) (hc : (s.link lk).carries = true)
    (hm : markerGood block = true) :
    ∃ t : State, exec (.alignmentMarker lk block skew) s = .next t ∧ (t.link lk).delin = true ∧
      ((s.link lk).delin = false → (s.link lk).nakOut = false → (s.link lk).rxSwap = none → (s.link lk).rxHold = none → (t.link lk).nakOut = true) ∧
      (∀ x, (s.link lk).rxSwap = some x → fieldAt block 8 1 % 8 = 4 → fieldAt block 8 1 / 16 = x.lane →
        (t.link lk).rxSwap = none ∧ (t.link lk).rx.moved = some x.lane ∧
        ∃ q ∈ (t.link lk).ticks, q.2 = swapWord 2 x.lane false) := by
  obtain ⟨o, h, ts, hk, ho⟩ := link_delineated s lk
  have hlive : (s.link lk).live = true := by simp [Link.live, hc]
  obtain ⟨hdel, hnak, hsw, hmv, hq⟩ := link_widthShown
    ((s.delineated lk).spareNamed lk (fieldAt block 8 1 / 16) (fieldAt block 8 1 % 8) (s.link lk).carries) lk (fieldAt block 11 1 / 64)
  refine ⟨_, exec_alignmentMarker skew hc hm, ?_, fun h₁ h₂ h₃ h₄ => hnak ?_, fun x hx h4 hlane => ?_⟩
  · rw [hdel, delin_spareNamed, hk]
  · rw [spareNamed_none (by rw [hk]; exact h₃), hk]
    exact ho hlive h₁ h₂ h₃ h₄
  · rw [hc, spareNamed_taken (x := x) (by rw [hk]; exact hx) h4 hlane] at hsw hmv hq ⊢
    obtain ⟨o', h', ts', hl, hmem⟩ := link_takeSpare (s.delineated lk) lk x
    rw [hl] at hsw hmv hq
    exact ⟨hsw, hmv, _, hq _ hmem, rfl⟩

/-- Settles O7: lanes by what a receiver asks for and a transmitter notes, markers by the record they are sent by, the line code by
its recursion. -/
theorem spareLanesAndMarkers : Obligations.SpareLanesAndMarkers := by
  unfold Obligations.SpareLanesAndMarkers
  exact ⟨fun _ _ _ hc hu => ⟨fun hf hp => lossSwapped hc hu hf hp, fun hf hs => lossNarrowed hc hu hf hs⟩,
    fun _ _ _ _ _ hc hu _ hf hp h => windowSwapped hc hu hf hp h, fun _ _ _ hl hd hw h1 hf hp => swapNoted hl hd hw h1 hf hp,
    fun _ _ _ _ hl hd hw h2 hx hlane => swapDone hl hd hw h2 hx hlane, fun _ _ _ hl hd hw h3 hs hp => widthAsked hl hd hw h3 hs hp,
    fun _ _ _ hx hn ht hs => swapRefused hx hn ht hs, fun _ _ _ hx hl ht => holdEnded hx hl ht,
    fun _ _ _ hc hn => markerNarrowed hc hn, fun _ _ hs ha ho hown hsp hp => markerToProfile hs ha ho hown hsp hp,
    fun _ _ hd hf hn hp => markerSent hd hf hn hp, fun _ _ skew _ hc hm => markerTaken skew hc hm, ⟨rfl, rfl, rfl, rfl⟩, scramble_scramble,
    fun fecS msg => ⟨take_rsEncode fecS msg, length_rsEncode fecS msg⟩, rsGen_roots, fun _ _ _ h => length_codeword h⟩

end Sys2Proof.Machine
end

section
/-! PROOF. Commands on ports (O8). -/

namespace Sys2Proof.Machine

open Sys2Proof

/-! ### The parameters of R118 -/

theorem portChks_ok {s : State} {port half : Nat} (hp : port < 64) (hh : half ≤ 2)
    (hf : s.halfFits s.cfg.vals (half * 64 + port) = true) : ∀ c ∈ s.portChks port half, c.bad = false := by
  have hm : port % 64 = port := Nat.mod_eq_of_lt hp
  simp only [State.portChks, badFld, hm, hf, List.forall_mem_cons, List.not_mem_nil, false_imp_iff, implies_true, and_true,
    Bool.not_true, Bool.or_false, decide_eq_false_iff_not]
  omega

/-- Conditions none of which holds, after those of the port. -/
theorem portChks_append_ok {s : State} {port half : Nat} {cs : List Chk} (hp : port < 64) (hh : half ≤ 2)
    (hf : s.halfFits s.cfg.vals (half * 64 + port) = true) (h : ∀ c ∈ cs, c.bad = false) :
    ∀ c ∈ s.portChks port half ++ cs, c.bad = false := fun c hc =>
  (List.mem_append.mp hc).elim (portChks_ok hp hh hf c) (h c)

/-! ### Output that stays when a link leaves its state -/

section
variable {s : State} {x : Out}

theorem mem_out_linkTo (hx : x ∈ s.out) (lk : Nat) (st : LinkState) : x ∈ (s.linkTo lk st).out := by
  unfold State.linkTo
  extract_lets l t
  split
  · exact hx
  · exact mem_out_irqAll (s := t) hx 4

theorem out_reparented (s : State) : s.reparented.out = s.out := by
  unfold State.reparented
  obtain ⟨y, -, -, hy⟩ := reparent_frame s
  obtain ⟨x, hx⟩ := noteTime_frame s.reparent s.time.state s.stratum
  rw [hx, hy]
  rfl

theorem mem_out_swapAborted (hx : x ∈ s.out) (lk : Nat) : x ∈ (s.swapAborted lk).out := by
  unfold State.swapAborted
  split
  · exact mem_out_finish hx ..
  · exact hx

theorem out_dropEarmarks (s : State) (lk : Nat) : (s.dropEarmarks lk).out = s.out :=
  out_of_offBuf (offBuf_of_offHanks (offHanks_dropEarmarks s lk))

theorem out_bumpBy (s : State) (f : Fam) (u i n : Nat) : (s.bumpBy f u i n).out = s.out := rfl

theorem out_setLink (s : State) (lk : Nat) (l : Link) : (s.setLink lk l).out = s.out := rfl

theorem mem_out_leave (hx : x ∈ s.out) (lk : Nat) (st : LinkState) : x ∈ (s.leave lk st).out := by
  have hg : x ∈ (s.givenUp lk).out := by
    rw [out_givenUp, State.drained, out_bumpBy, out_dropEarmarks]
    exact mem_out_swapAborted hx lk
  rw [leave_eq, out_reparented]
  refine mem_out_linkTo ?_ lk st
  rw [out_setLink]
  exact hg

end

/-! ### PORT_RETRAIN (R74, R118) -/

/-- The peer is asked to train again. -/
def State.retrainAsked (s : State) (lk : Nat) : State :=
  if (s.link lk).carries then s.sendLinkState lk (linkStateWord 1 0) else s

/-- The attempt begins, as the first. -/
def State.retrain (s : State) (lk : Nat) : State :=
  ((s.retrainAsked lk).startTraining lk).setLink lk { ((s.retrainAsked lk).startTraining lk).link lk with attempts := 0 }

theorem frames_setLink (s : State) (lk : Nat) (l : Link) : (s.setLink lk l).buf.frames = s.buf.frames := rfl

theorem rxSwap_retrainAsked (s : State) (lk : Nat) : ((s.retrainAsked lk).link lk).rxSwap = (s.link lk).rxSwap := by
  unfold State.retrainAsked State.sendLinkState
  split
  · rw [link_flush, link_setLink_self]; rfl
  · rfl

theorem frames_retrainAsked (s : State) (lk : Nat) : (s.retrainAsked lk).buf.frames = s.buf.frames := by
  unfold State.retrainAsked State.sendLinkState
  split
  · rw [flush_frame]; rfl
  · rfl

theorem retrain_asks {s : State} {lk : Nat} (h : (s.link lk).carries = true) :
    Out.tick lk (linkStateWord 1 0) ∈ (s.retrainAsked lk).out := by
  unfold State.retrainAsked State.sendLinkState
  rw [if_pos h]
  refine mem_out_flush (q := (prioLinkState, linkStateWord 1 0)) ?_
  rw [link_setLink_self]
  exact mem_post.mpr (.inl rfl)

theorem retrain_effect (s : State) (lk : Nat) : ((s.retrain lk).link lk).state = .signal ∧ ((s.retrain lk).link lk).attempts = 0 ∧
    ((s.link lk).rxSwap = none → (s.retrain lk).buf.frames = s.buf.frames) ∧
    ((s.link lk).carries = true → Out.tick lk (linkStateWord 1 0) ∈ (s.retrain lk).out) := by
  obtain ⟨d, hl⟩ := link_leave (s.retrainAsked lk) lk .signal
  have hk : (s.retrain lk).link lk = { ((s.retrainAsked lk).startTraining lk).link lk with attempts := 0 } := link_setLink_self ..
  refine ⟨?_, ?_, fun hn => ?_, fun hc => ?_⟩
  · rw [hk, State.startTraining, hl]
  · rw [hk]
  · obtain ⟨hf, -⟩ := frames_mem_leave (s.retrainAsked lk) ((rxSwap_retrainAsked s lk).trans hn) .signal
    rw [State.retrain, State.startTraining, frames_setLink, hf, frames_retrainAsked]
  · rw [State.retrain, State.startTraining, out_setLink]
    exact mem_out_leave (retrain_asks hc) lk .signal

/-! ### PORT_SPARE_FUSE (R110) -/

/-- A record written into the fuse ledger. -/
def State.spareFused (s : State) (port dir pos : Nat) : State :=
  (s.setSec { s.sec with spares := s.sec.spares ++ [{ key := 2 * port + dir, val := pos }] }).logFuse 1 port

theorem spareRecs_spareFused (s : State) {port dir pos : Nat} (hd : dir ≤ 1) :
    (s.spareFused port dir pos).spareRecs port = s.spareRecs port + 1 := by
  have hk : (2 * port + dir) / 2 = port := by omega
  show ((s.sec.spares ++ [_]).filter _).length = _
  rw [List.filter_append, List.length_append]
  simp [State.spareRecs, hk]

/-- The conditions on the parameters and the holder of PORT_SPARE_FUSE. -/
def State.fuseChks (s : State) (o : Origin) (port dir pos : Nat) : List Chk :=
  [badFld 0 (decide (port > 63)), badFld 1 (decide (dir > 1)), badFld 2 (decide (pos > 4) && pos != 7), s.ownChk o (resPort port)]

theorem fuseChks_ok {s : State} {port dir pos : Nat} {o : Origin} (hp : port < 64) (hd : dir ≤ 1) (hpos : pos ≤ 4 ∨ pos = 7)
    (ho : s.Owns o (resPort port)) : ∀ c ∈ s.fuseChks o port dir pos, c.bad = false := by
  have h : (decide (pos > 4) && pos != 7) = false := by
    rcases hpos with h | rfl
    · simp [h]
    · rfl
  simp only [State.fuseChks, List.forall_mem_cons, badFld, h, decide_eq_false_iff_not]
  exact ⟨by omega, by omega, trivial, ho, fun _ h => absurd h List.not_mem_nil⟩

section
variable {s : State} {o : Origin} {port half : Nat} {p : Posted} (hp : port < 64) (hh : half ≤ 2)
  (hf : s.halfFits s.cfg.vals (half * 64 + port) = true)
include hp hh hf

theorem portStatusRead (hw : s.waiting o 0x0301 [port, half] = some p) (hm : s.MaySend o 0x0301) :
    exec (.portStatus o port half) s = .next (s.concluded p id .ok (fun a =>
      let l := a.link (linkOf port half)
      [uf 1 l.state.code, uf 1 (b2n l.fecS), uf 1 l.tx.width, uf 1 (l.tx.moved.getD 7), uf 1 (b2n l.tx.moved.isSome),
       uf 1 l.rx.width, uf 1 (l.rx.moved.getD 7), uf 1 (b2n l.rx.moved.isSome), uf 1 l.attempts, uf 1 l.peerRole,
       uf 4 l.peerFid])) := by
  show execPortStatus o port half s = _
  unfold execPortStatus
  rw [query_concluded hw hm (portChks_ok hp hh hf)]
  rfl

theorem portCountersRead {clear : Nat} (hw : s.waiting o 0x0302 [port, half, clear] = some p) (hm : s.MaySend o 0x0302)
    (hc : clearOk o clear) : exec (.portCounters o port half clear) s =
      .next (s.concluded p (fun a => if clear = 1 then a.clearUnit .port (linkOf port half) else a) .ok
        (fun a => a.portCounterFlds (linkOf port half))) := by
  show execPortCounters o port half clear s = _
  unfold execPortCounters
  exact command_concluded hw hm (portChks_append_ok hp hh hf (clearChks_ok hc))

theorem portProfileRead (hw : s.waiting o 0x0303 [port, half] = some p) (hm : s.MaySend o 0x0303)
    (hn : (s.link (linkOf port half)).profStamp ≠ none) : exec (.portProfileRead o port half) s = .next (s.concluded p id .ok (fun a =>
      let l := a.link (linkOf port half)
      [bf 64 (leNat l.profCell), uf 8 (l.profStamp.getD 0), uf 1 l.disagree.toNat])) := by
  show execPortProfileRead o port half s = _
  unfold execPortProfileRead
  refine query_concluded hw hm (portChks_append_ok hp hh hf ?_)
  simpa using Option.ne_none_iff_isSome.mp hn

theorem portRetrained (hw : s.waiting o 0x0304 [port, half] = some p) (hm : s.MaySend o 0x0304) (ho : s.Owns o (resPort port))
    (ht : s.commitTouches port half = false) :
    ∃ f : State → State, exec (.portRetrain o port half) s = .next (s.concluded p f .ok (fun _ => [])) ∧
      ∀ a : State, a.setting idAdmin port = 1 →
        ((f a).link (linkOf port half)).state = .signal ∧ ((f a).link (linkOf port half)).attempts = 0 ∧
        ((a.link (linkOf port half)).rxSwap = none → (f a).buf.frames = a.buf.frames) ∧
        ((a.link (linkOf port half)).carries = true → Out.tick (linkOf port half) (linkStateWord 1 0) ∈ (f a).out) := by
  refine ⟨fun a => if a.setting idAdmin port = 1 then a.retrain (linkOf port half) else a, ?_, fun a ha => ?_⟩
  · show execPortRetrain o port half s = _
    unfold execPortRetrain
    exact update_concluded hw hm (portChks_append_ok hp hh hf (List.forall_mem_cons.mpr ⟨ho, by simpa using ht⟩))
  · dsimp only
    rw [if_pos ha]
    exact retrain_effect ..

theorem portSwapOrdered {lane : Nat} (hw : s.waiting o 0x0305 [port, half, lane] = some p) (hm : s.MaySend o 0x0305)
    (ho : s.Owns o (resPort port)) (hl : half = 0 ∧ lane ≤ 3 ∨ half = 1 ∧ lane ≤ 1 ∨ half = 2 ∧ 2 ≤ lane ∧ lane ≤ 3)
    (hst : (s.link (linkOf port half)).state = .up) (hr : s.swapRuns (linkOf port half) = false)
    (hs : s.spareTaken (linkOf port half) = false) (hc : (s.link (linkOf port half)).peer.spareCap = true) :
    exec (.portSpareSwap o port half lane) s =
      .next (s.begun p (fun k a => a.requestSwap (linkOf port half) lane false (some k))) := by
  have hlane : (decide (lane > 3) || (half == 1 && decide (lane > 1)) || (half == 2 && decide (lane < 2))) = false := by
    simp only [Bool.or_eq_false_iff, Bool.and_eq_false_iff, decide_eq_false_iff_not, beq_eq_false_iff_ne]
    omega
  show execPortSpareSwap o port half lane s = _
  unfold execPortSpareSwap
  refine command_begun hw hm (portChks_append_ok hp hh hf ?_)
  simp only [List.forall_mem_cons, badFld, hlane, hst, hr, hs, hc, List.not_mem_nil, false_imp_iff, implies_true, and_true]
  exact ⟨trivial, ho, by decide, by simp⟩

end

/-- A refusal for which no parameter is at fault. -/
theorem fldOffset_none (op params : Nat) : fldOffset op params none = 0xFFFF := rfl

section
variable {s : State} {port dir pos : Nat} {o : Origin} {p : Posted} (hw : s.waiting o 0x0306 [port, dir, pos] = some p)
  (hm : s.MaySend o 0x0306) (hp : port < 64) (hd : dir ≤ 1) (hpos : pos ≤ 4 ∨ pos = 7) (ho : s.Owns o (resPort port))
include hw hm hp hd hpos ho

theorem portFused (h3 : s.spareRecs port < 3) (hb : s.fuseBusy = false) :
    ∃ f : State → State, exec (.portSpareFuse o port dir pos) s = .next (s.concluded p f .ok (fun a => [uf 1 (2 - a.spareRecs port)])) ∧
      ∀ a : State, (f a).sec.spares = a.sec.spares ++ [{ key := 2 * port + dir, val := pos }] ∧
        f a = { a with sec := (f a).sec, log := (f a).log } := by
  refine ⟨fun a => a.spareFused port dir pos, ?_, fun a => ⟨rfl, rfl⟩⟩
  have hres : (fun a : State => [uf 1 (2 - a.spareRecs port)]) = fun a => [uf 1 (3 - (a.spareFused port dir pos).spareRecs port)] := by
    funext a
    rw [spareRecs_spareFused a hd, show 3 - (a.spareRecs port + 1) = 2 - a.spareRecs port by omega]
  have hfree : ¬s.spareRecs port ≥ 3 := by omega
  have hcs : ∀ c ∈ s.fuseChks o port dir pos ++ [⟨decide (s.spareRecs port ≥ 3), .fuseExhausted, none⟩, ⟨s.fuseBusy, .busy, none⟩],
      c.bad = false := List.forall_mem_append.mpr ⟨fuseChks_ok hp hd hpos ho, by simp [hfree, hb]⟩
  rw [hres]
  show execPortSpareFuse o port dir pos s = _
  unfold execPortSpareFuse
  exact update_concluded hw hm hcs

theorem portFuseExhausted (h3 : 3 ≤ s.spareRecs port) :
    exec (.portSpareFuse o port dir pos) s = .next (s.turnedAway p .fuseExhausted 0xFFFF) := by
  show execPortSpareFuse o port dir pos s = _
  unfold execPortSpareFuse State.update
  have hr : firstRefusal (s.markChks o 0x0306 ++ (s.fuseChks o port dir pos ++
      [⟨decide (s.spareRecs port ≥ 3), .fuseExhausted, none⟩, ⟨s.fuseBusy, .busy, none⟩])) =
      some ⟨decide (s.spareRecs port ≥ 3), .fuseExhausted, none⟩ := by
    rw [firstRefusal_append_left (markChks_ok hm), firstRefusal_append_left (fuseChks_ok hp hd hpos ho)]
    exact firstRefusal_cons_before (decide_eq_true h3) (by simp [Chk.before, Status.rank])
  refine (command_refused hw hr).trans ?_
  dsimp only
  rw [fldOffset_none]

end

/-- Settles O8: a query by its result, PORT_RETRAIN by what leaving does, PORT_SPARE_FUSE by its conditions in the order of R10. -/
theorem portCommands : Obligations.PortCommands := by
  unfold Obligations.PortCommands
  exact ⟨fun _ _ _ _ _ hw hm hp hh hf => portStatusRead hp hh hf hw hm, fun _ _ _ _ _ _ hw hm hp hh hf hc => portCountersRead hp hh hf hw hm hc,
    fun _ _ _ _ _ hw hm hp hh hf hn => portProfileRead hp hh hf hw hm hn,
    fun _ _ _ _ _ hw hm hp hh hf ho ht _ => portRetrained hp hh hf hw hm ho ht,
    fun _ _ _ _ _ _ hw hm hp hh hf ho hl hst hr hs hc => portSwapOrdered hp hh hf hw hm ho hl hst hr hs hc,
    fun _ _ _ _ _ _ hw hm hp hd hpos ho => ⟨fun h3 hb => portFused hw hm hp hd hpos ho h3 hb,
      fun h3 => portFuseExhausted hw hm hp hd hpos ho h3⟩⟩

end Sys2Proof.Machine
end

section
/-! SUPPORT. Queues that change: the frames that stay, what releases of hanks count and log (04 R119 to R138). -/

namespace Sys2Proof.Machine

open Sys2Proof

/-! ### Frames as they stand in queues -/

/-- A queued frame without the stamp of its head and the mark of its class's tag. -/
def QFrame.bare (q : QFrame) : QFrame := { q with head := none, tagged := false }

theorem bare_markHeads (pip : Nat) (seen fs : List QFrame) : (markHeads pip seen fs).map QFrame.bare = fs.map QFrame.bare := by
  induction fs generalizing seen with
  | nil => rfl
  | cons q r ih =>
    unfold markHeads
    split
    · rw [List.map_cons, ih, List.map_cons]
    · rw [List.map_cons, ih, List.map_cons]
      split <;> rfl

/-- The state without what the tags of class heads change. -/
def State.offTags (s : State) : State := { s with traf := {}, buf := { s.buf with frames := s.buf.frames.map QFrame.bare } }

section
variable (s : State)

@[simp] theorem offTags_tagHead (lk cls n : Nat) (e : Bool) : (s.tagHead lk cls n e).offTags = s.offTags := by
  unfold State.tagHead; split <;> rfl

theorem bare_tagFrame (p : Bool) (t : Bool) (q : QFrame) : (if p then { q with tagged := t } else q).bare = q.bare := by
  cases p <;> rfl

@[simp] theorem offTags_setTagged (mine : QFrame → Bool) (t : QFrame → Bool) :
    (s.setBuf { s.buf with frames := s.buf.frames.map (fun x => if mine x then { x with tagged := t x } else x) }).offTags = s.offTags := by
  have h : (s.buf.frames.map (fun x => if mine x then { x with tagged := t x } else x)).map QFrame.bare = s.buf.frames.map QFrame.bare := by
    rw [List.map_map]
    exact List.map_congr_left (fun x _ => bare_tagFrame (mine x) (t x) x)
  exact congrArg (fun fs => ({ s with traf := {}, buf := { s.buf with frames := fs } } : State)) h

@[simp] theorem offTags_tagHeads (before : State) : (State.tagHeads before s).offTags = s.offTags := by
  unfold State.tagHeads
  extract_lets cls
  refine foldl_view State.offTags (fun s c => ?_) cls s
  split
  · rfl
  · split
    · rfl
    · extract_lets t mine
      exact (offTags_setTagged ..).trans (offTags_tagHead ..)

/-- Queues that are set hold the frames given, but for their stamps and tags; nothing else changes but traffic management. -/
theorem offTags_setFrames (fs : List QFrame) : (s.setFrames fs).offTags = { s with traf := {}, buf := { s.buf with frames := fs.map QFrame.bare } } := by
  unfold State.setFrames
  rw [offTags_tagHeads]
  exact congrArg (fun fs => ({ s with traf := {}, buf := { s.buf with frames := fs } } : State)) (bare_markHeads s.time.pip [] fs)

theorem bare_setFrames (fs : List QFrame) : (s.setFrames fs).buf.frames.map QFrame.bare = fs.map QFrame.bare :=
  (congrArg (fun s : State => s.buf.frames) (offTags_setFrames s fs) :)

theorem length_setFrames (fs : List QFrame) : (s.setFrames fs).buf.frames.length = fs.length := by
  have h := congrArg List.length (bare_setFrames s fs)
  simpa using h

/-- Each frame given stands in its queue. -/
theorem mem_setFrames {fs : List QFrame} {q : QFrame} (h : q ∈ fs) : ∃ x ∈ (s.setFrames fs).buf.frames, x.bare = q.bare := by
  have hm : q.bare ∈ (s.setFrames fs).buf.frames.map QFrame.bare := by
    rw [bare_setFrames]
    exact List.mem_map_of_mem h
  obtain ⟨x, hx, he⟩ := List.mem_map.mp hm
  exact ⟨x, hx, he⟩

theorem log_setFrames (fs : List QFrame) : (s.setFrames fs).log = s.log := (congrArg State.log (offTags_setFrames s fs) :)

theorem cnt_setFrames (fs : List QFrame) : (s.setFrames fs).cnt = s.cnt := (congrArg State.cnt (offTags_setFrames s fs) :)

/-! ### A frame that is taken out -/

theorem frames_freeFrame (q : QFrame) : (s.freeFrame q).buf.frames = s.buf.frames := frames_of_offHanks (offHanks_freeFrame ..)

/-- A frame that is consumed leaves its queue. -/
theorem length_consume {q : QFrame} (h : q ∈ s.buf.frames) : (s.consume q).buf.frames.length + 1 = s.buf.frames.length := by
  unfold State.consume State.dropQueued
  rw [frames_freeFrame, length_setFrames, List.length_erase_of_mem h]
  have := List.length_pos_of_mem h
  omega

end

/-! ### What a release logs and counts -/

section
variable {s : State} {e : Raised}

theorem raised_freeHank (h : e ∈ s.log.raised) (die src : Nat) (dram : Bool) (k : Nat × Nat) :
    e ∈ (s.freeHank die src dram k).1.log.raised := by
  unfold State.freeHank
  extract_lets key w
  split
  · exact List.mem_append_left _ h
  · split
    · exact h
    · exact List.mem_append_left _ h

theorem raised_freeChain (h : e ∈ s.log.raised) (q : Chain) : e ∈ (s.freeChain q).log.raised := by
  unfold State.freeChain
  extract_lets t
  have ht : e ∈ t.log.raised := by
    refine List.foldlRecOn (motive := fun s : State => e ∈ s.log.raised) q.hanks _ h (fun s hs k _ => ?_)
    extract_lets r x
    have hr : e ∈ r.1.log.raised := raised_freeHank hs ..
    split
    · exact hr
    · exact hr
  rw [advertise_frame]
  exact ht

theorem raised_freeFrame (h : e ∈ s.log.raised) (q : QFrame) : e ∈ (s.freeFrame q).log.raised :=
  List.foldlRecOn (motive := fun s : State => e ∈ s.log.raised) q.rel _ (raised_freeChain h q.chain) (fun _ hs c _ => raised_freeChain hs c)

/-- What has been raised stays as a frame is consumed. -/
theorem raised_consume (h : e ∈ s.log.raised) (q : QFrame) : e ∈ (s.consume q).log.raised := by
  refine raised_freeFrame ?_ q
  unfold State.dropQueued
  rw [log_setFrames]
  exact h

end

/-- A counter of no double free. -/
def otherCounter (j : Nat) : Prop := j % 2 ^ 12 ≠ bcDoubleFree % 2 ^ 12

section
variable (s : State) (g : Fam) (v : Nat) {j : Nat} (hj : otherCounter j)

theorem count_of_cnt {s t : State} (h : t.cnt = s.cnt) (g : Fam) (v j : Nat) : t.count g v j = s.count g v j := by
  unfold State.count; rw [h]

theorem count_bump_other (f : Fam) (u i : Nat) (h : j % 2 ^ 12 ≠ i % 2 ^ 12) : (s.bump f u i).count g v j = s.count g v j := by
  refine count_bump_ne s (fun hk => ?_)
  simp only [cKey] at hk
  omega

include hj

theorem count_freeHank (die src : Nat) (dram : Bool) (k : Nat × Nat) : (s.freeHank die src dram k).1.count g v j = s.count g v j := by
  unfold State.freeHank
  extract_lets key w
  split
  · rfl
  · split
    · rfl
    · exact count_bump_other s g v .buf die bcDoubleFree hj

theorem count_freeChain (q : Chain) : (s.freeChain q).count g v j = s.count g v j := by
  unfold State.freeChain
  extract_lets t
  have ht : t.count g v j = s.count g v j := by
    refine foldl_view (fun s : State => s.count g v j) (fun s k => ?_) q.hanks s
    extract_lets r x
    have hr : r.1.count g v j = s.count g v j := count_freeHank s g v hj ..
    split
    · exact hr
    · exact hr
  rw [advertise_frame]
  exact ht

theorem count_freeFrame (q : QFrame) : (s.freeFrame q).count g v j = s.count g v j :=
  (foldl_view (fun s : State => s.count g v j) (fun s c => count_freeChain s g v hj c) q.rel _).trans (count_freeChain s g v hj q.chain)

/-- A consumed frame counts nothing but double frees. -/
theorem count_consume (q : QFrame) : (s.consume q).count g v j = s.count g v j :=
  (count_freeFrame _ g v hj q).trans (count_of_cnt (cnt_setFrames ..) g v j)

end

/-! ### Frames that the scheduler chooses -/

theorem mem_of_mem_queueHeads {q : QFrame} (seen fs : List QFrame) (h : q ∈ queueHeads seen fs) : q ∈ fs := by
  induction fs generalizing seen with
  | nil => cases h
  | cons a r ih =>
    unfold queueHeads at h
    split at h
    · exact List.mem_cons_of_mem _ (ih _ h)
    · rcases List.mem_cons.mp h with rfl | h
      · exact List.mem_cons_self
      · exact List.mem_cons_of_mem _ (ih _ h)

section
variable {s : State} {q : QFrame}

theorem mem_frames_of_mem_heads (h : q ∈ s.heads) : q ∈ s.buf.frames := mem_of_mem_queueHeads _ _ h

/-- The best of a list by a choice between two is one of the list. -/
theorem foldl_best_mem {l : List QFrame} {r : QFrame → QFrame → Bool} (b : Option QFrame) {q : QFrame}
    (h : l.foldl (fun best q => match best with
      | none => some q
      | some b => if r q b then some q else some b) b = some q) : b = some q ∨ q ∈ l := by
  induction l generalizing b with
  | nil => exact .inl h
  | cons a l ih =>
    rw [List.foldl_cons] at h
    rcases ih _ h with h | h
    · cases b with
      | none => cases h; exact .inr List.mem_cons_self
      | some c =>
        dsimp only at h
        split at h
        · cases h; exact .inr List.mem_cons_self
        · exact .inl h
    · exact .inr (List.mem_cons_of_mem _ h)

theorem mem_frames_of_classHead {lk vc : Nat} (h : s.classHead lk vc = some q) : q ∈ s.buf.frames := by
  unfold State.classHead at h
  have hm := (foldl_best_mem none h).resolve_left nofun
  exact mem_frames_of_mem_heads (List.mem_of_mem_filter hm)

theorem mem_frames_of_eligibleHead {lk vc : Nat} (h : s.eligibleHead lk vc = some q) : q ∈ s.buf.frames := by
  unfold State.eligibleHead at h
  split at h
  · cases h
  · next x hx =>
    split at h
    · cases h; exact mem_frames_of_classHead hx
    · cases h

/-- The winner of a frame boundary is queued. -/
theorem mem_frames_of_winner {lk : Nat} (h : s.winner lk = some q) : q ∈ s.buf.frames := by
  unfold State.winner at h
  split at h
  · next x hx => cases h; exact mem_frames_of_eligibleHead hx
  · refine List.foldlRecOn (motive := fun best => ∀ x, best = some x → x ∈ s.buf.frames) _ _ (fun x hx => (Option.some_ne_none x hx.symm).elim) (fun best hb c _ x hx => ?_) q h
    split at hx
    · next y hy =>
      cases hx; exact mem_frames_of_eligibleHead hy
    · next y b hy =>
      split at hx
      · cases hx; exact mem_frames_of_eligibleHead hy
      · exact hb x hx
    · exact hb x hx

end

end Sys2Proof.Machine
end

section
/-! SUPPORT. What starts on a link and what its queues lose (03 R89, R92, R100; 04 R122, R124, R127, R138). -/

namespace Sys2Proof.Machine

open Sys2Proof

/-! ### What a start on a link leaves -/

/-- The state without links, output, requests, traffic management, counters and charges. -/
def State.offStart (s : State) : State := { s with links := [], out := [], route := {}, traf := {}, cnt := [], pwr := {} }

section
variable {s t : State} (h : t.offStart = s.offStart)
include h

theorem buf_of_offStart : t.buf = s.buf := (congrArg State.buf h :)
theorem log_of_offStart : t.log = s.log := (congrArg State.log h :)
theorem mem_of_offStart : t.mem = s.mem := (congrArg State.mem h :)
theorem host_of_offStart : t.host = s.host := (congrArg State.host h :)
theorem pip_of_offStart : t.time.pip = s.time.pip := (congrArg (fun s : State => s.time.pip) h :)

end

section
variable (s : State) (lk : Nat) (q : QFrame)

@[simp] theorem offStart_bump (f : Fam) (u i : Nat) : (s.bump f u i).offStart = s.offStart := rfl

@[simp] theorem offStart_flush : (s.flush lk).offStart = s.offStart := by rw [flush_frame]; rfl

@[simp] theorem offStart_transmit (f : Frame) (stomp : Bool) : (s.transmit lk f stomp).offStart = s.offStart := by
  rw [transmit_frame]; rfl

@[simp] theorem offStart_chargeStart (f : Frame) (was : Bool) : (s.chargeStart lk f was).offStart = s.offStart := by
  rw [chargeStart_frame]; rfl

@[simp] theorem out_chargeStart (f : Frame) (was : Bool) : (s.chargeStart lk f was).out = s.out := by rw [chargeStart_frame]

/-- A start marks a frame's ecn flag alone (R188). -/
theorem markEcn_eq (f : Frame) : ∃ e, s.markEcn lk f = { f with ecn := e } := by
  unfold State.markEcn State.markEcnAt
  extract_lets lim
  split
  · exact ⟨true, rfl⟩
  · exact ⟨f.ecn, rfl⟩

theorem n_markEcn (f : Frame) : (s.markEcn lk f).n = f.n := by
  obtain ⟨e, he⟩ := markEcn_eq s lk f
  rw [he]; rfl

theorem vc_markEcn (f : Frame) : (s.markEcn lk f).vc = f.vc := by
  obtain ⟨e, he⟩ := markEcn_eq s lk f
  rw [he]

theorem cells_markEcn (f : Frame) : (s.markEcn lk f).cells = f.cells := by
  obtain ⟨e, he⟩ := markEcn_eq s lk f
  rw [he]

/-- What goes out for a queued frame (R86, R188). -/
theorem outOn_markEcn (f : Frame) (lsn : Nat) (stomp : Bool) : (s.markEcn lk f).outOn lk lsn stomp =
    .frame lk lsn stomp (s.markEcn lk f).header f.cells (trailerOf (s.markEcn lk f).header f.cells stomp lsn) := by
  rw [Frame.outOn, cells_markEcn]

/-! ### A frame that starts, well or stomped -/

/-- A charged start of a queued frame, as it goes to the egress MAC. -/
def State.charged (s : State) (lk : Nat) (q : QFrame) (f : Fam) (u i : Nat) : State :=
  (s.chargeStart lk (s.markEcn lk q.f) q.f.ecn).bump f u i

variable (f : Fam) (u i : Nat)

@[simp] theorem link_charged : (s.charged lk q f u i).link lk = s.link lk := link_chargeStart ..

@[simp] theorem out_charged : (s.charged lk q f u i).out = s.out := out_chargeStart ..

@[simp] theorem offStart_charged : (s.charged lk q f u i).offStart = s.offStart := offStart_chargeStart ..

/-- The copy of a queued frame that has gone out on its link. -/
def State.copied (s : State) (lk : Nat) (q : QFrame) (f : Fam) (u i : Nat) (stomp : Bool) : State :=
  (s.charged lk q f u i).transmit lk (s.markEcn lk q.f) stomp

variable (stomp : Bool)

@[simp] theorem offStart_copied : (s.copied lk q f u i stomp).offStart = s.offStart :=
  (offStart_transmit ..).trans (offStart_charged ..)

theorem out_copied : (s.copied lk q f u i stomp).out = s.out ++ [(s.markEcn lk q.f).outOn lk (s.link lk).lsn stomp] := by
  unfold State.copied
  rw [out_transmit, link_charged, out_charged]

theorem link_copied : (s.copied lk q f u i stomp).link lk = (s.link lk).started (s.markEcn lk q.f) stomp s.time.pip := by
  unfold State.copied
  rw [link_transmit, link_charged, pip_of_offStart (offStart_charged s lk q f u i)]

theorem startFrame_eq : s.startFrame lk q = (s.copied lk q .buf q.die (if q.resend then bcResend else q.store) false).consume q := rfl

/-- A stomped start, whose uncorrectable word is logged before the frame goes out. -/
theorem startTornFrame_eq : s.startTornFrame lk q =
    (((s.charged lk q .port lk pcStompSent).logFrameUe q).transmit lk (s.markEcn lk q.f) true).consume q := rfl

end

section
variable {s : State} {q : QFrame}

/-- An uncorrectable word of a frame's hanks is logged with 0x1101 now (R138). -/
theorem logFrameUe_logged (h : s.frameUe q = true) : (∃ e ∈ (s.logFrameUe q).log.raised, e.code = 0x1101 ∧ e.stamp = s.time.pip) ∧
    s.logFrameUe q = s.setLog (s.logFrameUe q).log := by
  unfold State.frameUe at h
  rw [Bool.and_eq_true] at h
  obtain ⟨x, hx, hu⟩ := List.any_eq_true.mp h.2
  unfold State.logFrameUe
  split
  · exact ⟨⟨_, List.mem_append_right _ (List.mem_singleton.mpr rfl), rfl, rfl⟩, rfl⟩
  · next hn => exact absurd hu (List.find?_eq_none.mp hn x hx)

theorem frameUe_of_buf {t : State} (h : t.buf = s.buf) : t.frameUe q = s.frameUe q := by
  unfold State.frameUe; rw [h]

/-- A stomped start sends the copy, logs the word and takes the frame out. -/
theorem startTornFrame_done {lk : Nat} (h : s.frameUe q = true) (hq : q ∈ s.buf.frames) :
    (s.startTornFrame lk q).out = s.out ++ [(s.markEcn lk q.f).outOn lk (s.link lk).lsn true] ∧
    (s.startTornFrame lk q).buf.frames.length + 1 = s.buf.frames.length ∧
    ∃ e ∈ (s.startTornFrame lk q).log.raised, e.code = 0x1101 ∧ e.stamp = s.time.pip := by
  rw [startTornFrame_eq]
  have hc : (s.charged lk q .port lk pcStompSent).offStart = s.offStart := offStart_charged ..
  obtain ⟨⟨e, he, hcode, hstamp⟩, hf⟩ := logFrameUe_logged ((frameUe_of_buf (buf_of_offStart hc)).trans h)
  generalize (s.charged lk q .port lk pcStompSent).logFrameUe q = t at he hf
  have hl : t.link lk = s.link lk := (congrArg (fun t : State => t.link lk) hf).trans (link_charged s lk q .port lk pcStompSent)
  have ho : t.out = s.out := (congrArg State.out hf).trans (out_charged s lk q .port lk pcStompSent)
  have hb : t.buf = s.buf := Eq.trans (b := (s.charged lk q .port lk pcStompSent).buf) (congrArg State.buf hf :) (buf_of_offStart hc)
  have ht := offStart_transmit t lk (s.markEcn lk q.f) true
  have hbt := (buf_of_offStart ht).trans hb
  refine ⟨?_, ?_, e, raised_consume ?_ q, hcode, hstamp.trans (pip_of_offStart hc)⟩
  · rw [out_of_offBuf (offBuf_consume ..), out_transmit, hl, ho]
  · rw [length_consume _ (hbt ▸ hq), hbt]
  · rw [log_of_offStart ht]; exact he

end

/-! ### EGRESS_FRAME_START -/

section
variable {s : State} {lk : Nat}

theorem maySend_sends (h : s.maySend lk = true) : (s.link lk).sends = true := by
  unfold State.maySend at h
  simp only [Bool.and_eq_true] at h
  exact h.1.1.2

@[simp] theorem maySend_flush : (s.flush lk).maySend lk = s.maySend lk := by
  unfold State.maySend
  rw [link_flush]
  rfl

theorem hankTorn_flush (q : QFrame) : (s.flush lk).hankTorn q = s.hankTorn q := by rw [flush_frame]; rfl

theorem exec_egress_winner {q : QFrame} (hm : s.maySend lk = true) (ht : s.linkTorn lk = none) (hr : (s.link lk).resendFrom = none)
    (hq : (s.flush lk).winner lk = some q) (hh : s.hankTorn q = none) : exec (.egressFrameStart lk) s =
      .next (if s.frameUe q then (s.flush lk).startTornFrame lk q else (s.flush lk).startFrame lk q).settle := by
  have hrow : rowEgressFrameStart lk s =
      .next (if s.frameUe q then (s.flush lk).startTornFrame lk q else (s.flush lk).startFrame lk q) := by
    have hr' : ((s.flush lk).link lk).resendFrom = none := by rw [link_flush]; exact hr
    unfold rowEgressFrameStart
    rw [if_neg (by rw [maySend_sends hm]; decide), ht]
    dsimp only
    rw [hr']
    dsimp only
    rw [maySend_flush, if_pos hm, hq]
    dsimp only
    rw [hankTorn_flush, hh]
    dsimp only
    rw [frameUe_of_buf (buf_of_offStart (offStart_flush s lk))]
  show settled (rowEgressFrameStart lk s) = _
  rw [hrow]
  rfl

/-- A link after its replay has sent the frame of an lsn again (R100). -/
def Link.resent (l : Link) (lsn pip : Nat) : Link :=
  { l with resendFrom := l.nextReplay lsn, replay := l.replay.map (fun y => if y.lsn = lsn then { y with stamp := pip } else y) }

theorem resendOne_eq {n : Nat} {x : Sent} (hx : (s.link lk).replay.find? (·.lsn == n) = some x) : s.resendOne lk n =
    ((s.setLink lk ((s.link lk).resent n s.time.pip)).charge (4 + linkDie lk) clsForward x.f.n x.f.n).sendFrame lk n x.stomp x.f := by
  unfold State.resendOne
  extract_lets l
  rw [show l.replay.find? (·.lsn == n) = some x from hx]
  rfl

theorem exec_egress_replay {n : Nat} (hs : (s.link lk).sends = true) (hh : (s.link lk).held = false) (ht : s.linkTorn lk = none)
    (hr : (s.link lk).resendFrom = some n) :
    exec (.egressFrameStart lk) s = .next ((s.flush lk).resendOne lk n).settle := by
  have hrow : rowEgressFrameStart lk s = .next ((s.flush lk).resendOne lk n) := by
    have hr' : ((s.flush lk).link lk).resendFrom = some n := by rw [link_flush]; exact hr
    have hh' : ((s.flush lk).link lk).held = false := by rw [link_flush]; exact hh
    unfold rowEgressFrameStart
    rw [if_neg (by rw [hs]; decide), ht]
    dsimp only
    rw [hr']
    dsimp only
    rw [hh', if_neg (by decide)]
  show settled (rowEgressFrameStart lk s) = _
  rw [hrow]
  rfl

/-- A resent frame goes out under its own lsn and takes no new one. -/
theorem resendOne_done {n : Nat} {x : Sent} (hx : (s.link lk).replay.find? (·.lsn == n) = some x) :
    ((s.resendOne lk n).link lk).ticks = (s.link lk).ticks ∧ ((s.resendOne lk n).link lk).lsn = (s.link lk).lsn ∧
    x.f.outOn lk n x.stomp ∈ (s.resendOne lk n).out ∧
    s.resendOne lk n = { s with links := (s.resendOne lk n).links, out := (s.resendOne lk n).out, pwr := (s.resendOne lk n).pwr } := by
  rw [resendOne_eq hx]
  generalize hu : (s.setLink lk ((s.link lk).resent n s.time.pip)).charge (4 + linkDie lk) clsForward x.f.n x.f.n = u
  have hl : u.link lk = (s.link lk).resent n s.time.pip := by rw [← hu]; exact link_setLink_self ..
  have hs : (u.sendFrame lk n x.stomp x.f).link lk = { u.link lk with sent := (u.link lk).sent ++ [3 + 8 * x.f.n] } := link_setLink_self ..
  refine ⟨?_, ?_, List.mem_append_right _ (List.mem_singleton.mpr rfl), ?_⟩
  · rw [hs, hl]; rfl
  · rw [hs, hl]; rfl
  · rw [← hu]; rfl

end

/-! ### CUT_THROUGH_UNDERRUN (R127) -/

/-- The queues with a frame that stays for a second sending. -/
def State.keptForResend (s : State) (q : QFrame) : State :=
  s.setFrames (s.buf.frames.map (fun x => if x = q then { x with resend := true } else x))

section
variable {s : State} {lk : Nat} {q : QFrame}

theorem exec_underrun (hm : s.maySend lk = true) (hr : (s.link lk).resendFrom = none) (hq : s.winner lk = some q) (hs : q.store = 0)
    (hn : q.resend = false) : exec (.cutThroughUnderrun lk) s =
      .next ((((((s.flush lk).chargeStart lk (s.markEcn lk q.f) q.f.ecn).bump .port lk pcStompSent).transmit lk (s.markEcn lk q.f) true)).keptForResend q) := by
  show execCutThroughUnderrun lk s = _
  unfold execCutThroughUnderrun
  rw [if_neg (by rw [hm, hr]; decide), hq]
  dsimp only
  rw [if_neg (by rw [hs, hn]; decide)]
  rfl

theorem keptForResend_done (hq : q ∈ s.buf.frames) : (s.keptForResend q).buf.frames.length = s.buf.frames.length ∧
    ∃ x ∈ (s.keptForResend q).buf.frames, x.f = q.f ∧ x.hanks = q.hanks ∧ x.ing = q.ing ∧ x.resend = true := by
  have hmem : { q with resend := true } ∈ s.buf.frames.map (fun x => if x = q then { x with resend := true } else x) :=
    List.mem_map.mpr ⟨q, hq, if_pos rfl⟩
  obtain ⟨x, hx, hb⟩ := mem_setFrames s hmem
  refine ⟨(length_setFrames ..).trans (List.length_map ..), x, hx, ?_, ?_, ?_, ?_⟩
  · exact (congrArg QFrame.f hb :)
  · exact (congrArg QFrame.hanks hb :)
  · exact (congrArg QFrame.ing hb :)
  · exact (congrArg QFrame.resend hb :)

/-! ### LINK_HOLD_EXPIRY (R124) -/

/-- A discard by link_hold: counted on the link and the buffer, logged, its frame released. -/
def State.heldTooLong (s : State) (lk : Nat) (q : QFrame) : State :=
  (((s.bump .port lk pcHold).bump .buf q.die bcHold).logDiscard lk ((s.holdCause lk q).getD 2) q.f).consume q

theorem exec_linkHoldExpiry {ing vc : Nat} (h : s.heads.find? (fun q => decide (q.dest = .link lk) && q.ing == ing && q.f.vc == vc &&
    (s.holdCause lk q).isSome) = some q) : exec (.linkHoldExpiry lk ing vc) s = .next (s.heldTooLong lk q) := by
  show execLinkHoldExpiry lk ing vc s = _
  unfold execLinkHoldExpiry
  rw [h]
  rfl

theorem otherCounter_pcHold : otherCounter pcHold := by unfold otherCounter; decide

theorem heldTooLong_done (hq : q ∈ s.buf.frames) : (s.heldTooLong lk q).buf.frames.length + 1 = s.buf.frames.length ∧
    (s.heldTooLong lk q).count .port lk pcHold = min cMax (s.count .port lk pcHold + 1) ∧
    (∃ e ∈ (s.heldTooLong lk q).log.raised, e.code = 0x0303 ∧ e.stamp = s.time.pip) ∧
    (s.heldTooLong lk q).links = s.links ∧ (s.heldTooLong lk q).mem = s.mem := by
  unfold State.heldTooLong
  generalize hc : (s.holdCause lk q).getD 2 = c
  have hb : ((((s.bump .port lk pcHold).bump .buf q.die bcHold).logDiscard lk c q.f).consume q).offBuf = s.offBuf := offBuf_consume ..
  refine ⟨length_consume _ hq, ?_, ?_, links_of_offBuf hb, mem_of_offBuf hb⟩
  · rw [count_consume _ _ _ otherCounter_pcHold]
    have h1 : (((s.bump .port lk pcHold).bump .buf q.die bcHold).logDiscard lk c q.f).count .port lk pcHold =
        ((s.bump .port lk pcHold).bump .buf q.die bcHold).count .port lk pcHold := rfl
    rw [h1, count_bump_other _ _ _ _ _ _ (by decide), count_bump_self]
  · obtain ⟨e, he, hcode, hstamp⟩ : ∃ e ∈ (((s.bump .port lk pcHold).bump .buf q.die bcHold).logDiscard lk c q.f).log.raised,
        e.code = 0x0303 ∧ e.stamp = s.time.pip := ⟨_, List.mem_append_right _ (List.mem_singleton.mpr rfl), rfl, rfl⟩
    exact ⟨e, raised_consume he q, hcode, hstamp⟩

end

end Sys2Proof.Machine
end

section
/-! SUPPORT. The overflow region and the replicator (04 R140 to R146). -/

namespace Sys2Proof.Machine

open Sys2Proof

/-! ### Hanks that an operation takes and frees -/

theorem length_allocHanks (hs : Tab Hank) (die n : Nat) : (allocHanks hs die n).2.length = n := by
  induction n generalizing hs with
  | zero => rfl
  | succ n ih => exact congrArg (· + 1) (ih _)

theorem cnt_noteTorn (s : State) (die : Nat) (dram : Bool) (hs : List (Nat × Nat)) : (s.noteTorn die dram hs).cnt = s.cnt := by
  unfold State.noteTorn; split <;> rfl

theorem cnt_freshHanks (s : State) (die : Nat) (hs : List (Nat × Nat)) : (s.freshHanks die hs).cnt = s.cnt := by
  unfold State.freshHanks; split <;> rfl

/-! ### OVERFLOW_SPILL (R140, R141) -/

theorem mem_of_spillFrame {l : List QFrame} {q : QFrame} (h : spillFrame l = some q) : q ∈ l := by
  unfold spillFrame at h
  split at h
  · exact (List.dropWhile_suffix _).subset (List.mem_of_mem_drop (List.mem_of_mem_head? h))
  · exact List.mem_of_mem_drop (List.mem_of_mem_head? h)

/-- A list whose elements are all one has that one alone, once. -/
theorem eraseDups_const {α : Type} [BEq α] [LawfulBEq α] {l : List α} {d : α} (hn : l ≠ []) (h : ∀ x ∈ l, x = d) :
    l.eraseDups = [d] := by
  cases l with
  | nil => exact absurd rfl hn
  | cons a r =>
    obtain rfl := h a List.mem_cons_self
    have hr : r.filter (fun b => !b == a) = [] := by
      refine List.filter_eq_nil_iff.mpr (fun b hb => ?_)
      rw [h b (List.mem_cons_of_mem _ hb)]
      simp
    rw [List.eraseDups_cons, hr]
    rfl

/-- Where all frames of an ingress and VC go to one destination, they are one queue, and its frame is the first that may spill. -/
theorem spillCands_one {mine : List QFrame} {d : Dest} {q : QFrame} (hn : mine ≠ []) (hd : ∀ x ∈ mine, x.dest = d)
    (hq : spillFrame mine = some q) :
    (mine.map (·.dest)).eraseDups.filterMap (fun d => spillFrame (mine.filter (fun q => decide (q.dest = d)))) = [q] := by
  have he : (mine.map (·.dest)).eraseDups = [d] := by
    refine eraseDups_const (fun h => hn (List.map_eq_nil_iff.mp h)) (fun x hx => ?_)
    obtain ⟨y, hy, rfl⟩ := List.mem_map.mp hx
    exact hd y hy
  have hf : mine.filter (fun q => decide (q.dest = d)) = mine := List.filter_eq_self.mpr (fun x hx => decide_eq_true (hd x hx))
  rw [he, List.filterMap_cons, hf, hq]
  rfl

/-- A frame that has taken hanks of the overflow region, where it stands. -/
def QFrame.spilledTo (q : QFrame) (hs : List (Nat × Nat)) (x : QFrame) : QFrame :=
  if x = q then { x with hanks := hs, ovf := true, store := 3 } else x

/-- The DRAM hanks that a spill takes. -/
def State.spillHanks (s : State) (die : Nat) (q : QFrame) : Tab Hank × List (Nat × Nat) := allocHanks s.buf.hanks (die + 8) (hanksFor q.f.n)

/-- A spill that has taken its DRAM hanks and freed those of the packet buffer. -/
def State.spillTaken (s : State) (die : Nat) (q : QFrame) : State :=
  ((s.setBuf { s.buf with hanks := (s.spillHanks die q).1 }).noteTorn die true (s.spillHanks die q).2).freeChain q.chain

/-- A spill done. -/
def State.spilled (s : State) (die : Nat) (q : QFrame) : State :=
  ((((s.spillTaken die q).setFrames ((s.spillTaken die q).buf.frames.map (q.spilledTo (s.spillHanks die q).2))).mapTokFrames
    (q.spilledTo (s.spillHanks die q).2)).charge (4 + die) clsForward 0 (moveEu (64 * q.f.n))).bump .buf die bcSpilled

theorem otherCounter_bcSpilled : otherCounter bcSpilled := by unfold otherCounter; decide

section
variable (s : State) (die : Nat) (q : QFrame)

theorem frames_spillTaken : (s.spillTaken die q).buf.frames = s.buf.frames := by
  unfold State.spillTaken
  rw [frames_of_offHanks (offHanks_freeChain ..), frames_of_offHanks (offHanks_noteTorn ..)]
  rfl

theorem offBuf_spillTaken : (s.spillTaken die q).offBuf = s.offBuf := by
  unfold State.spillTaken
  rw [offBuf_freeChain, offBuf_noteTorn]
  rfl

theorem count_spillTaken : (s.spillTaken die q).count .buf die bcSpilled = s.count .buf die bcSpilled := by
  unfold State.spillTaken
  rw [count_freeChain _ _ _ otherCounter_bcSpilled, count_of_cnt (cnt_noteTorn ..)]
  rfl

theorem frames_spilled : (s.spilled die q).buf.frames =
    ((s.spillTaken die q).setFrames ((s.spillTaken die q).buf.frames.map (q.spilledTo (s.spillHanks die q).2))).buf.frames := rfl

theorem offBuf_spilled : (s.spilled die q).offBuf = s.offBuf := by
  unfold State.spilled
  rw [offBuf_bump, offBuf_charge, offBuf_mapTokFrames, offBuf_setFrames, offBuf_spillTaken]

theorem count_spilled : (s.spilled die q).count .buf die bcSpilled = min cMax (s.count .buf die bcSpilled + 1) := by
  unfold State.spilled
  rw [count_bump_self]
  have hc : ∀ (fs : List QFrame) (g : QFrame → QFrame), ((((s.spillTaken die q).setFrames fs).mapTokFrames g).charge (4 + die) clsForward 0
      (moveEu (64 * q.f.n))).count .buf die bcSpilled = s.count .buf die bcSpilled := fun fs g =>
    (count_of_cnt (cnt_setFrames (s.spillTaken die q) fs) .buf die bcSpilled).trans (count_spillTaken s die q)
  rw [hc]

end

section
variable {s : State} {die : Nat} {q : QFrame}

theorem spilled_done (hq : q ∈ s.buf.frames) : (s.spilled die q).buf.frames.length = s.buf.frames.length ∧
    ∃ x ∈ (s.spilled die q).buf.frames, x.f = q.f ∧ x.ovf = true ∧ x.store = 3 ∧ x.hanks.length = hanksFor q.f.n := by
  rw [frames_spilled, frames_spillTaken]
  have hmem : { q with hanks := (s.spillHanks die q).2, ovf := true, store := 3 } ∈ s.buf.frames.map (q.spilledTo (s.spillHanks die q).2) :=
    List.mem_map.mpr ⟨q, hq, if_pos rfl⟩
  obtain ⟨x, hx, hb⟩ := mem_setFrames (s.spillTaken die q) hmem
  refine ⟨(length_setFrames ..).trans (List.length_map ..), x, hx, ?_, ?_, ?_, ?_⟩
  · exact (congrArg QFrame.f hb :)
  · exact (congrArg QFrame.ovf hb :)
  · exact (congrArg QFrame.store hb :)
  · exact (congrArg (fun x : QFrame => x.hanks.length) hb :).trans (length_allocHanks ..)

theorem exec_overflowSpill {ing vc : Nat} {d : Dest}
    (hn : s.buf.frames.filter (fun q => q.die == die && q.ing == ing && q.f.vc == vc) ≠ [])
    (hd : ∀ x ∈ s.buf.frames, x.die = die → x.ing = ing → x.f.vc = vc → x.dest = d)
    (hq : spillFrame (s.buf.frames.filter (fun q => q.die == die && q.ing == ing && q.f.vc == vc)) = some q)
    (hov : q.ovf = false) (hue : s.frameUe q = false) (hon : s.ovfOn q.acct = true)
    (hfull : s.setting idAcctMax q.acct - s.setting idAcctMax q.acct / 8 < (s.acct q.acct).h ∧
      s.dramHeld q.acct + hanksFor q.f.n ≤ s.setting idOvfMax q.acct ∧
      s.regionUsed die + hanksFor q.f.n ≤ s.setting idOvfSize die / 512)
    (hz : (s.arb (dieBridge die (ovfSkein die) 0)).frozen = false) :
    exec (.overflowSpill die ing vc) s = .next (s.spilled die q) := by
  have hd' : ∀ x ∈ s.buf.frames.filter (fun q => q.die == die && q.ing == ing && q.f.vc == vc), x.dest = d := by
    intro x hx
    obtain ⟨hx, hh⟩ := List.mem_filter.mp hx
    simp only [Bool.and_eq_true, beq_iff_eq] at hh
    exact hd x hx hh.1.1 hh.1.2 hh.2
  have hc := spillCands_one hn hd' hq
  show execOverflowSpill die ing vc s = _
  unfold execOverflowSpill
  extract_lets hit mine cands mx
  have hf : cands.find? (fun q => !q.ovf && s.ovfOn q.acct) = some q := by
    unfold cands
    rw [show (mine.map (·.dest)).eraseDups.filterMap (fun d => spillFrame (mine.filter (fun q => decide (q.dest = d)))) = [q] from hc,
      List.singleton_append, List.find?_cons, hov, hon]
    rfl
  rw [hf]
  dsimp only
  rw [if_pos hfull, hz, if_neg (by decide), hue, if_neg (by decide)]
  rfl

end

/-! ### OVERFLOW_READBACK (R141, R142) -/

section
variable {s : State} {q : QFrame}

/-- The frame that readback takes is one that it may take. -/
theorem hit_of_middleFrame {hit : QFrame → Bool} (h : s.middleFrame hit = some q) : hit q = true := by
  unfold State.middleFrame at h
  extract_lets mine ok at h
  rcases Option.or_eq_some_iff.mp h with h | ⟨-, h⟩
  · exact (List.mem_filter.mp (List.mem_of_find?_eq_some h)).2
  · obtain ⟨l, -, hl⟩ := List.exists_of_findSome?_eq_some h
    dsimp only at hl
    split at hl
    · exact (List.mem_filter.mp (List.mem_of_find?_eq_some hl)).2
    · cases hl

theorem badHank_clean (h : s.ueWords = []) : s.badHank q = none := by
  unfold State.badHank
  rw [h]
  rfl

/-- A frame that has been read back, where it stands. -/
def QFrame.readTo (q y : QFrame) (x : QFrame) : QFrame := if x = q then y else x

theorem readBack_clean (h : s.ueWords = []) : s.readBack q =
    ((s.moveBack q).2.setFrames ((s.moveBack q).2.buf.frames.map (q.readTo (s.moveBack q).1))).mapTokFrames (q.readTo (s.moveBack q).1) := by
  unfold State.readBack
  rw [badHank_clean h]
  rfl

variable (s q)

theorem otherCounter_bcReadback : otherCounter bcReadback := by unfold otherCounter; decide

/-- What readback changes as it takes hanks: the queues stay, and the frame is counted as read back. -/
theorem moveBack_done : (s.moveBack q).2.buf.frames = s.buf.frames ∧ (s.moveBack q).2.offBuf = s.offBuf ∧
    (s.moveBack q).2.count .buf q.die bcReadback = min cMax (s.count .buf q.die bcReadback + 1) := by
  unfold State.moveBack
  extract_lets t r b u x v w
  have hv : v.offHanks = u.offHanks := rfl
  have hu : u.offHanks = t.offHanks := (offHanks_freshHanks ..).trans ((offHanks_noteTorn ..).trans rfl)
  have ht : t.offHanks = s.offHanks := offHanks_freeChain ..
  have hs : v.offHanks = s.offHanks := hv.trans (hu.trans ht)
  have hw : w.buf.frames = v.buf.frames := rfl
  have hwo : w.offBuf = v.offBuf := offBuf_charge ..
  refine ⟨hw.trans (frames_of_offHanks hs), hwo.trans (offBuf_of_offHanks hs), ?_⟩
  have hcu : u.cnt = t.cnt := (cnt_freshHanks ..).trans (cnt_noteTorn ..)
  have hcw : w.count .buf q.die bcReadback = s.count .buf q.die bcReadback :=
    (count_of_cnt hcu .buf q.die bcReadback).trans (count_freeChain s .buf q.die otherCounter_bcReadback q.chain)
  rw [count_bump_self, hcw]

theorem fst_moveBack : ∃ hs, (s.moveBack q).1 = { q with hanks := hs, ovf := false, store := 3, acct := rdbk q.die, resv := false } := ⟨_, rfl⟩

end

section
variable {s : State} {q : QFrame} {die : Nat}

/-- A clean readback: the frame stands in its queue with hanks of RDBK. -/
theorem readBack_done (hu : s.ueWords = []) (hq : q ∈ s.buf.frames) (hd : q.die = die) :
    (s.readBack q).buf.frames.length = s.buf.frames.length ∧
    (∃ x ∈ (s.readBack q).buf.frames, x.f = q.f ∧ x.ovf = false ∧ x.store = 3 ∧ x.acct = rdbk die) ∧
    (s.readBack q).count .buf die bcReadback = min cMax (s.count .buf die bcReadback + 1) ∧ (s.readBack q).offBuf = s.offBuf := by
  obtain ⟨hf, ho, hc⟩ := moveBack_done s q
  obtain ⟨hs, hy⟩ := fst_moveBack s q
  rw [readBack_clean hu]
  subst hd
  generalize (s.moveBack q).2 = t at hf ho hc
  generalize (s.moveBack q).1 = y at hy
  have hmem : y ∈ t.buf.frames.map (q.readTo y) := List.mem_map.mpr ⟨q, hf ▸ hq, if_pos rfl⟩
  obtain ⟨x, hx, hb⟩ := mem_setFrames t hmem
  rw [hy] at hb
  refine ⟨?_, ⟨x, hx, ?_, ?_, ?_, ?_⟩, ?_, ?_⟩
  · exact (length_setFrames ..).trans ((List.length_map ..).trans (congrArg List.length hf))
  · exact (congrArg QFrame.f hb :)
  · exact (congrArg QFrame.ovf hb :)
  · exact (congrArg QFrame.store hb :)
  · exact (congrArg QFrame.acct hb :)
  · exact (count_of_cnt (cnt_setFrames ..) .buf q.die bcReadback).trans hc
  · exact (offBuf_mapTokFrames ..).trans ((offBuf_setFrames ..).trans ho)

theorem exec_overflowReadback {ing vc : Nat} (h : s.middleFrame (fun q => q.die == die && q.ing == ing && q.f.vc == vc) = some q)
    (hm : s.mayDraw (rdbk die) q.hanks.length = true) (hs : s.readShut die = false) :
    exec (.overflowReadback die ing vc) s = .next ((s.chargeAlloc die 7).readBack q) := by
  show execOverflowReadback die ing vc s = _
  unfold execOverflowReadback
  rw [h]
  dsimp only
  rw [hs, if_neg (by decide), if_pos hm]

end

/-! ### MULTICAST_REPLICA (R145, R146) -/

/-- The copy of a replicated frame for a destination. -/
def ReplJob.copy (j : ReplJob) (s : State) (die : Nat) (d : Dest) : QFrame :=
  { die := die, ing := 133, dest := d, f := s.copyFor d j.f, stamp := j.stamp, acct := unitAcct die 6 0, hanks := [],
    path := s.pathTo die d (s.copyFor d j.f) j.hash, store := 4 }

/-- No copy goes to a destination inside the device while dev_fid `fid` names none (05 R153). -/
def Dest.shut (fid : Nat) (d : Dest) : Bool := match d with | .skein _ => decide (fid = 0xFFFFF) | _ => false

theorem shut_of_named {d : Dest} {fid : Nat} (h : (∃ k, d = .skein k) → fid ≠ 0xFFFFF) : d.shut fid = false := by
  cases d with
  | skein k => exact decide_eq_false (h ⟨k, rfl⟩)
  | _ => rfl

/-- A job whose next copy is written. -/
def State.wrote (s : State) (j : ReplJob) (rest : List Dest) : State :=
  s.setBuf { s.buf with
    repl := if rest.isEmpty then s.buf.repl.erase j else s.buf.repl.map (fun x => if x = j then { x with dests := rest } else x) }

section
variable {s : State} {die : Nat} {j : ReplJob} {d : Dest} {r : List Dest}

theorem replicate_some {may : State → Nat → Bool} (hj : s.buf.repl.find? (·.die == die) = some j) (hd : j.dests = d :: r)
    (hs : (∃ k, d = .skein k) → s.devFid ≠ 0xFFFFF) : s.replicate die may =
      if may s (hanksFor j.f.n) then
        ((s.charge (4 + die) clsForward j.f.n j.f.n).enqueue (j.copy (s.charge (4 + die) clsForward j.f.n j.f.n) die d)).wrote j r
      else s.bump .buf die bcPause := by
  unfold State.replicate
  rw [hj]
  dsimp only
  rw [hd]
  dsimp only
  exact if_neg (fun h => Bool.false_ne_true ((shut_of_named hs).symm.trans h))

end

section
variable (s : State) (q : QFrame)

/-- The state in which a frame stands in its queue and its account is still to be charged. -/
def State.queued (s : State) (q : QFrame) : State :=
  (((s.setBuf { s.buf with hanks := (allocHanks s.buf.hanks q.die (hanksFor q.f.n)).1 }).setFrames
    (s.buf.frames ++ [{ q with hanks := (allocHanks s.buf.hanks q.die (hanksFor q.f.n)).2 }])).noteTorn q.die false
    (allocHanks s.buf.hanks q.die (hanksFor q.f.n)).2).freshHanks q.die (allocHanks s.buf.hanks q.die (hanksFor q.f.n)).2

theorem frames_enqueue : (s.enqueue q).buf.frames = ((s.setBuf { s.buf with hanks := (allocHanks s.buf.hanks q.die (hanksFor q.f.n)).1 }).setFrames
    (s.buf.frames ++ [{ q with hanks := (allocHanks s.buf.hanks q.die (hanksFor q.f.n)).2 }])).buf.frames := by
  have hq : (s.enqueue q).buf.frames = (s.queued q).buf.frames := by
    unfold State.enqueue
    extract_lets a b t u x
    split <;> rfl
  rw [hq]
  unfold State.queued
  rw [frames_of_offHanks (offHanks_freshHanks ..), frames_of_offHanks (offHanks_noteTorn ..)]

theorem length_enqueue : (s.enqueue q).buf.frames.length = s.buf.frames.length + 1 := by
  rw [frames_enqueue, length_setFrames, List.length_append]
  rfl

/-- A frame that is put into a queue stands there. -/
theorem mem_enqueue : ∃ x ∈ (s.enqueue q).buf.frames, x.bare = { q with hanks := (allocHanks s.buf.hanks q.die (hanksFor q.f.n)).2 }.bare := by
  rw [frames_enqueue]
  exact mem_setFrames _ (List.mem_append_right _ (List.mem_singleton.mpr rfl))

end

section
variable {s : State} {die : Nat} {j : ReplJob} {d : Dest} {r : List Dest} (hj : s.buf.repl.find? (·.die == die) = some j)
  (hd : j.dests = d :: r) (hs : (∃ k, d = .skein k) → s.devFid ≠ 0xFFFFF)
include hj hd hs

theorem exec_multicastReplica_copy (hm : s.mayDraw (unitAcct die 6 0) (hanksFor j.f.n) = true) : exec (.multicastReplica die) s =
    .next ((((s.charge (4 + die) clsForward j.f.n j.f.n).enqueue (j.copy (s.charge (4 + die) clsForward j.f.n j.f.n) die d)).wrote j r).chargeAlloc die 6) := by
  show execMulticastReplica die s = _
  unfold execMulticastReplica
  extract_lets a u
  have hu : u = ((s.charge (4 + die) clsForward j.f.n j.f.n).enqueue (j.copy (s.charge (4 + die) clsForward j.f.n j.f.n) die d)).wrote j r :=
    (replicate_some hj hd hs).trans (if_pos hm)
  have hl : u.buf.frames.length = s.buf.frames.length + 1 := by rw [hu]; exact length_enqueue ..
  rw [if_neg (by omega), hu]

theorem exec_multicastReplica_pause (hm : s.mayDraw (unitAcct die 6 0) (hanksFor j.f.n) = false) :
    exec (.multicastReplica die) s = .next (s.bump .buf die bcPause) := by
  show execMulticastReplica die s = _
  unfold execMulticastReplica
  extract_lets a u
  have hu : u = s.bump .buf die bcPause := (replicate_some hj hd hs).trans (if_neg (by rw [hm]; decide))
  rw [hu]
  exact congrArg _ (if_pos rfl)

end

end Sys2Proof.Machine
end

section
/-! PROOF. What leaves a queue (03 R89, R92, R100; 04 R122, R124, R127, R138 to R146). -/

namespace Sys2Proof.Machine

open Sys2Proof

section
variable {s : State} {lk : Nat} {q : QFrame}

/-- A winning frame goes out under a new lsn, charged, kept for replay and taken from its queue. -/
theorem startFrame_done (hq : (s.flush lk).winner lk = some q) :
    (((s.flush lk).startFrame lk q).link lk).ticks = [] ∧
    (((s.flush lk).startFrame lk q).link lk).lsn = ((s.link lk).lsn + 1) % 2 ^ 24 ∧
    tabGet (((s.flush lk).startFrame lk q).link lk).used 0 q.f.vc = (tabGet (s.link lk).used 0 q.f.vc + q.f.n + 1) % 2 ^ 16 ∧
    (∃ x ∈ (((s.flush lk).startFrame lk q).link lk).replay, x.lsn = (s.link lk).lsn ∧ x.f.cells = q.f.cells ∧ x.stamp = s.time.pip) ∧
    ((s.flush lk).markEcn lk q.f).outOn lk (s.link lk).lsn false ∈ ((s.flush lk).startFrame lk q).out ∧
    ((s.flush lk).startFrame lk q).buf.frames.length + 1 = s.buf.frames.length ∧
    ((s.flush lk).startFrame lk q).mem = s.mem ∧ ((s.flush lk).startFrame lk q).host = s.host := by
  rw [startFrame_eq]
  generalize (if q.resend then bcResend else q.store) = i
  have hfl := offStart_flush s lk
  have hst := (offStart_copied (s.flush lk) lk q .buf q.die i false).trans hfl
  have hl := link_copied (s.flush lk) lk q .buf q.die i false
  have ho := out_copied (s.flush lk) lk q .buf q.die i false
  rw [link_flush] at hl ho
  generalize (s.flush lk).copied lk q .buf q.die i false = t at hst hl ho
  have hb : (t.consume q).offBuf = t.offBuf := offBuf_consume ..
  have hbuf := buf_of_offStart hst
  rw [link_of_offBuf hb, hl, out_of_offBuf hb, ho, mem_of_offBuf hb, host_of_offBuf hb]
  refine ⟨rfl, rfl, ?_, ⟨_, List.mem_append_right _ (List.mem_singleton.mpr rfl), rfl, ?_, ?_⟩,
    List.mem_append_right _ (List.mem_singleton.mpr rfl), ?_, mem_of_offStart hst, host_of_offStart hst⟩
  · rw [Link.started, vc_markEcn, n_markEcn]
    exact tabGet_tabPut_self ..
  · exact cells_markEcn ..
  · exact pip_of_offStart hfl
  · have hm : q ∈ t.buf.frames := by
      rw [hbuf, ← buf_of_offStart hfl]
      exact mem_frames_of_winner hq
    rw [length_consume _ hm, hbuf]

/-- A replay's boundary: pending ticks go first, then its frame again (R89, R100). -/
theorem replay_done {n : Nat} {x : Sent} (hx : (s.link lk).replay.find? (·.lsn == n) = some x) :
    (((s.flush lk).resendOne lk n).link lk).ticks = [] ∧ (((s.flush lk).resendOne lk n).link lk).lsn = (s.link lk).lsn ∧
    x.f.outOn lk n x.stomp ∈ ((s.flush lk).resendOne lk n).out ∧
    (s.flush lk).resendOne lk n = { s with
      links := ((s.flush lk).resendOne lk n).links, out := ((s.flush lk).resendOne lk n).out, pwr := ((s.flush lk).resendOne lk n).pwr } := by
  have hx' : ((s.flush lk).link lk).replay.find? (·.lsn == n) = some x := by rw [link_flush]; exact hx
  obtain ⟨ht, hn, ho, hf⟩ := resendOne_done hx'
  rw [link_flush] at ht hn
  generalize (s.flush lk).resendOne lk n = u at ht hn ho hf
  rw [flush_frame] at hf
  exact ⟨ht, hn, ho, hf⟩

/-- An underrun sends its copy stomped and keeps the frame for a second sending (R127). -/
theorem underrun_done (hq : s.winner lk = some q) {t : State} (ht : t =
      (((((s.flush lk).chargeStart lk (s.markEcn lk q.f) q.f.ecn).bump .port lk pcStompSent).transmit lk (s.markEcn lk q.f) true))) :
    (s.markEcn lk q.f).outOn lk (s.link lk).lsn true ∈ (t.keptForResend q).out ∧
    ((t.keptForResend q).link lk).lsn = ((s.link lk).lsn + 1) % 2 ^ 24 ∧
    (t.keptForResend q).buf.frames.length = s.buf.frames.length ∧
    (∃ x ∈ (t.keptForResend q).buf.frames, x.f = q.f ∧ x.hanks = q.hanks ∧ x.ing = q.ing ∧ x.resend = true) ∧
    (t.keptForResend q).mem = s.mem := by
  have hst : t.offStart = s.offStart := by rw [ht, offStart_transmit, offStart_bump, offStart_chargeStart, offStart_flush]
  have hl : (((s.flush lk).chargeStart lk (s.markEcn lk q.f) q.f.ecn).bump .port lk pcStompSent).link lk = (s.link lk).flushed :=
    (link_chargeStart ..).trans (link_flush ..)
  have htl : (t.link lk).lsn = ((s.link lk).lsn + 1) % 2 ^ 24 := by rw [ht, link_transmit, hl]; rfl
  have hto : (s.markEcn lk q.f).outOn lk (s.link lk).lsn true ∈ t.out := by
    rw [ht, out_transmit, hl]
    exact List.mem_append_right _ (List.mem_singleton.mpr rfl)
  have hbuf := buf_of_offStart hst
  obtain ⟨hlen, hmem⟩ := keptForResend_done (s := t) (q := q) (hbuf ▸ mem_frames_of_winner hq)
  have hb : (t.keptForResend q).offBuf = t.offBuf := offBuf_setFrames ..
  refine ⟨?_, ?_, hlen.trans (by rw [hbuf]), hmem, (mem_of_offBuf hb).trans (mem_of_offStart hst)⟩
  · rw [out_of_offBuf hb]; exact hto
  · rw [link_of_offBuf hb]; exact htl

end

section
variable {s : State} {die : Nat} {j : ReplJob} {d : Dest} {r : List Dest}

/-- A replica stands in its destination's queue under the account of replicas (R145). -/
theorem replica_done (c : State) : ∃ x ∈ ((((s.charge (4 + die) clsForward j.f.n j.f.n).enqueue (j.copy c die d)).wrote j r).chargeAlloc die 6).buf.frames,
    x.dest = d ∧ x.ing = 133 ∧ x.stamp = j.stamp ∧ x.acct = unitAcct die 6 0 ∧ x.store = 4 := by
  obtain ⟨x, hx, hb⟩ := mem_enqueue (s.charge (4 + die) clsForward j.f.n j.f.n) (j.copy c die d)
  refine ⟨x, hx, ?_, ?_, ?_, ?_, ?_⟩
  · exact (congrArg QFrame.dest hb :)
  · exact (congrArg QFrame.ing hb :)
  · exact (congrArg QFrame.stamp hb :)
  · exact (congrArg QFrame.acct hb :)
  · exact (congrArg QFrame.store hb :)

theorem offBuf_replica (q : QFrame) :
    ((((s.charge (4 + die) clsForward j.f.n j.f.n).enqueue q).wrote j r).chargeAlloc die 6).offBuf = s.offBuf :=
  (offBuf_chargeAlloc ..).trans (offBuf_enqueue ..)

end

/-- Settles O9: a frame boundary sends the pending ticks and then the replayed frame or the winner, well or, with an uncorrectable
word, stomped; the queues then lose, keep, move or gain the frame by the rules of queues (`length_consume`, `mem_setFrames`). -/
theorem leavingAQueue : Obligations.LeavingAQueue := by
  unfold Obligations.LeavingAQueue
  refine ⟨?_, ?_, ?_, ?_, ?_, ?_, ?_, ?_⟩
  · intro lk s q hm ht hr hq hh hu
    refine ⟨(s.flush lk).startFrame lk q, ?_, ?_⟩
    · rw [exec_egress_winner hm ht hr hq hh, if_neg (by rw [hu]; decide)]
    · rw [← outOn_markEcn]
      exact startFrame_done hq
  · intro lk s q hm ht hr hq hh hu
    have hbuf := buf_of_offStart (offStart_flush s lk)
    obtain ⟨ho, hlen, e, he, hcode, hstamp⟩ :=
      startTornFrame_done (lk := lk) ((frameUe_of_buf hbuf).trans hu) (mem_frames_of_winner hq)
    rw [link_flush] at ho
    refine ⟨(s.flush lk).startTornFrame lk q, ?_, ?_, hlen.trans (by rw [hbuf]), e, he, hcode,
      hstamp.trans (pip_of_offStart (offStart_flush s lk))⟩
    · rw [exec_egress_winner hm ht hr hq hh, if_pos hu]
    · rw [← outOn_markEcn, ho]
      exact List.mem_append_right _ (List.mem_singleton.mpr rfl)
  · intro lk s n x hs hh ht hr hx
    exact ⟨(s.flush lk).resendOne lk n, exec_egress_replay hs hh ht hr, replay_done hx⟩
  · intro lk s q hm hr hq hs hn
    rw [← outOn_markEcn]
    exact ⟨_, exec_underrun hm hr hq hs hn, underrun_done hq rfl⟩
  · intro lk ing vc s q h
    exact ⟨_, exec_linkHoldExpiry h, heldTooLong_done (mem_frames_of_mem_heads (List.mem_of_find?_eq_some h))⟩
  · intro die ing vc d s q hn hd hq hov hue hon hh hdr hrg hz
    have hmem : q ∈ s.buf.frames := List.mem_of_mem_filter (mem_of_spillFrame hq)
    obtain ⟨hlen, hx⟩ := spilled_done (die := die) hmem
    have ho := offBuf_spilled s die q
    exact ⟨_, exec_overflowSpill hn hd hq hov hue hon ⟨hh, hdr, hrg⟩ hz, hlen, hx, count_spilled .., links_of_offBuf ho, mem_of_offBuf ho⟩
  · intro die ing vc s q hu hq hmem hm hs
    have hd : q.die = die := by
      have hit := hit_of_middleFrame hq
      simp only [Bool.and_eq_true, beq_iff_eq] at hit
      exact hit.1.1
    obtain ⟨hlen, hx, hc, ho⟩ := readBack_done (s := s.chargeAlloc die 7) hu hmem hd
    exact ⟨_, exec_overflowReadback hq hm hs, hlen, hx, hc, links_of_offBuf ho, mem_of_offBuf ho⟩
  · intro die s j d r hj hd hs
    refine ⟨fun hm => ?_, exec_multicastReplica_pause hj hd hs⟩
    have ho := offBuf_replica (s := s) (die := die) (j := j) (r := r) (j.copy (s.charge (4 + die) clsForward j.f.n j.f.n) die d)
    exact ⟨_, exec_multicastReplica_copy hj hd hs hm, length_enqueue .., replica_done _, links_of_offBuf ho, mem_of_offBuf ho⟩

end Sys2Proof.Machine
end

section
/-! SUPPORT. Where a unicast frame is routed (05 R153, R155 to R158, R161). -/

namespace Sys2Proof.Machine

open Sys2Proof

/-! ### The adaptive choice (R158) -/

theorem foldl_min_le_init (l : List Nat) (a : Nat) : l.foldl min a ≤ a := by
  induction l generalizing a with
  | nil => exact Nat.le_refl a
  | cons b r ih => exact (ih (min a b)).trans (Nat.min_le_left a b)

theorem foldl_min_le {l : List Nat} {b : Nat} (hb : b ∈ l) (a : Nat) : l.foldl min a ≤ b := by
  induction l generalizing a with
  | nil => exact absurd hb List.not_mem_nil
  | cons c r ih =>
    rcases List.mem_cons.mp hb with rfl | hb
    · exact (foldl_min_le_init r _).trans (Nat.min_le_right a b)
    · exact ih hb _

/-- A choice that keeps `x` where the list has it, and is the first of the list otherwise, is of the list. -/
theorem pick_mem {l : List Nat} (hl : l ≠ []) (x : Nat) : (if l.contains x then x else l.headD 0) ∈ l := by
  split
  · next h => exact List.contains_iff_mem.mp h
  · cases l with
    | nil => exact absurd rfl hl
    | cons y r => exact List.mem_cons_self

/-- Where a candidate can start the frame, the chosen one can, and none that can has a smaller weighed depth. -/
theorem adaptivePick_least {s : State} {c : List Nat} {k vc : Nat} (h : Nat) (hk : k ∈ c) (hs : s.canServe k vc = true) :
    s.canServe (s.adaptivePick c h vc).1 vc = true ∧
      s.weighedDepth vc (s.adaptivePick c h vc).1 ≤ s.weighedDepth vc k := by
  unfold State.adaptivePick
  extract_lets live least tied
  have hlive : k ∈ live := List.mem_filter.mpr ⟨hk, hs⟩
  have hleast : least ≤ s.weighedDepth vc k := foldl_min_le (List.mem_map_of_mem hlive) _
  obtain ⟨x, hx, hw⟩ := exists_least (List.ne_nil_of_mem hlive) (s.weighedDepth vc)
  have htied : tied ≠ [] := List.ne_nil_of_mem (List.mem_filter.mpr ⟨hx, beq_iff_eq.mpr hw⟩)
  rw [if_neg (fun he => List.ne_nil_of_mem hlive (List.isEmpty_iff.mp he))]
  obtain ⟨hmem, heq⟩ := List.mem_filter.mp (pick_mem htied (orderedPick c h))
  exact ⟨(List.mem_filter.mp hmem).2, (beq_iff_eq.mp heq).trans_le hleast⟩

/-! ### The candidates that a frame may take (R161) -/

/-- The candidates of the entry of a frame's destination in a bank that the frame may take from an ingress. -/
def State.allowedCands (s : State) (bi ing dst : Nat) : List Nat :=
  (entryCands ((s.route.bank bi).entry bi dst).1).filter (s.candOk ing)

/-- A candidate allowed to a frame that came by an UP port is no UP port. -/
theorem candOk_up {s : State} {ing lk : Nat} (h : s.candOk ing lk = true) (hi : ing < 128) (hu : s.portDir (ing / 2) = 1) :
    s.portDir (lk / 2) ≠ 1 := by
  simp only [State.candOk, hi, hu, decide_true, Bool.and_true, Bool.true_and, Bool.and_eq_true, Bool.not_eq_true',
    decide_eq_false_iff_not] at h
  exact h.2

/-! ### What routing answers -/

section
variable {s : State} {die ing : Nat} {f : Frame}

/-- A frame to 0xF_FFFF has no route. -/
theorem routeUnicast_noRoute (h : f.dst = 0xFFFFF) : s.routeUnicast die ing f = .discard causeNoRoute := by
  unfold State.routeUnicast
  exact if_pos h

theorem routeUnicast_noEpoch (hd : f.dst ≠ 0xFFFFF) (h : f.epochSet = false ∨ s.bankOf f.epoch = none) :
    s.routeUnicast die ing f = .discard causeEpoch := by
  unfold State.routeUnicast
  rw [if_neg hd]
  by_cases he : f.epochSet = false
  · rw [if_pos (by rw [he]; rfl)]
  · rw [if_neg (by simpa using he), h.resolve_left he]

/-- The links and the hash that an egress is chosen from: the egress is the ordered choice below channel 8 and the adaptive one from
there on. -/
theorem routeUnicast_chosen {out h : Nat} {ad fb : Bool} (hr : s.routeUnicast die ing f = .to out h ad fb) :
    ∃ bi, s.bankOf f.epoch = some bi ∧ h = pairHash (s.route.bank bi).seed f.src f.dst f.ch ∧ s.allowedCands bi ing f.dst ≠ [] ∧
      out = if f.ch < 8 then orderedPick (s.allowedCands bi ing f.dst) h
        else (s.adaptivePick (s.allowedCands bi ing f.dst) h f.vc).1 := by
  unfold State.routeUnicast at hr
  split at hr
  · cases hr
  · split at hr
    · cases hr
    · split at hr
      · cases hr
      · next bi hb =>
        extract_lets b r c h' p at hr
        split at hr
        · cases hr
        · split at hr
          · cases hr
          · split at hr
            · cases hr
            · next hc =>
              refine ⟨bi, hb, ?_⟩
              have hne : s.allowedCands bi ing f.dst ≠ [] := fun he => hc (List.isEmpty_iff.mpr he)
              split at hr
              · next hch =>
                obtain ⟨ho, hh, -⟩ := Routed.to.inj hr
                exact ⟨hh.symm, hne, by rw [if_pos hch, ← hh, ← ho]; rfl⟩
              · next hch =>
                obtain ⟨ho, hh, -⟩ := Routed.to.inj hr
                exact ⟨hh.symm, hne, by rw [if_neg hch, ← hh, ← ho]; rfl⟩

end

/-- Below channel 8 routing reads no link and no queue. -/
theorem routeUnicast_ordered_congr (s : State) (die ing : Nat) {f : Frame} (hf : f.ch < 8) (links : Tab Link) (buf : BufSt) :
    State.routeUnicast { s with links := links, buf := buf } die ing f = s.routeUnicast die ing f := by
  unfold State.routeUnicast
  simp only [if_pos hf]
  rfl

/-- Settles O12: an answer `.to` comes from the candidates that the entry allows (`routeUnicast_chosen`), of which the ordered choice
and the adaptive one are members (`orderedPick_mem`, `adaptivePick_mem`), the latter a least deep one (`adaptivePick_least`). -/
theorem unicastRouting : Obligations.UnicastRouting := by
  unfold Obligations.UnicastRouting
  refine ⟨fun _ _ _ _ => routeUnicast_noRoute, fun _ _ _ _ => routeUnicast_noEpoch, ?_,
    fun die ing f0 s links buf hf => routeUnicast_ordered_congr s die ing hf links buf⟩
  intro die ing f0 s out h ad fb hr
  obtain ⟨bi, hb, hh, hne, hout⟩ := routeUnicast_chosen hr
  have hmem : out ∈ s.allowedCands bi ing f0.dst := by
    rw [hout]
    split
    · exact orderedPick_mem hne h
    · exact adaptivePick_mem s hne h f0.vc
  obtain ⟨hcand, hok⟩ := List.mem_filter.mp hmem
  refine ⟨bi, hb, hh, hcand, candOk_ne hok, candOk_up hok, fun hch => hout.trans (if_pos hch), fun hch k hk hs => ?_⟩
  rw [hout, if_neg (Nat.not_lt.mpr hch)]
  exact adaptivePick_least h hk hs

end Sys2Proof.Machine
end

section
/-! SUPPORT. Banks of route tables while answers are sent, and commands that read DRAM (05 R162, R165; 15 R417, R426; 16 R453). -/

namespace Sys2Proof.Machine

open Sys2Proof

/-! ### Sending an answer changes of the routing state only the pips of its log entries (R165) -/

/-- The routing state without the pips of its last log entries. -/
def RouteSt.unlogged (r : RouteSt) : RouteSt := { r with logged := [] }

section
variable {s t : State}

theorem route_of_offHanks (h : t.offHanks = s.offHanks) : t.route = s.route := (congrArg State.route h :)

end

section
variable (s : State)

theorem route_setFrames (fs : List QFrame) : (s.setFrames fs).route = s.route :=
  (congrArg State.route (offTags_setFrames s fs) :)

theorem route_enqueue (q : QFrame) : (s.enqueue q).route = s.route := by
  unfold State.enqueue
  extract_lets r _ t u
  have hu : u.route = s.route := by
    rw [route_of_offHanks (offHanks_freshHanks ..), route_of_offHanks (offHanks_noteTorn ..), route_setFrames]; rfl
  split
  · exact hu
  · exact hu

theorem route_enqueueUnit (q : QFrame) (job : Option ReplJob) : (s.enqueueUnit q job).route = s.route := by
  unfold State.enqueueUnit State.postJob
  split
  · exact route_enqueue ..
  · exact route_enqueue ..

theorem route_countStamp (die : Nat) (f g : Frame) : (s.countStamp die f g).route = s.route := by
  unfold State.countStamp; split <;> rfl

theorem unlogged_routeDiscard (die ing cause : Nat) (f : Frame) :
    (s.routeDiscard die ing cause f).route.unlogged = s.route.unlogged := by
  unfold State.routeDiscard
  extract_lets
  split <;> rfl

theorem unlogged_place (q : QFrame) (r : Routed) {enter : State → QFrame → Option ReplJob → State}
    (he : ∀ s q job, (enter s q job).route = s.route) : (s.place q r enter).route.unlogged = s.route.unlogged := by
  unfold State.place
  split
  · extract_lets t
    rw [he]
    unfold t
    split <;> rfl
  · split
    · rfl
    · rw [he]
  · rw [unlogged_routeDiscard, route_of_offHanks (offHanks_freeChains ..)]
  · exact congrArg RouteSt.unlogged (route_of_offHanks (offHanks_freeChains s q.rel) :)

theorem unlogged_letIn (w : WaitFrame) : (s.letIn w).route.unlogged = s.route.unlogged := by
  unfold State.letIn
  extract_lets t f _ q u
  split
  · rw [route_enqueueUnit]
  · rw [route_enqueueUnit, route_countStamp]
  · split
    · rw [route_enqueueUnit, route_countStamp]
    · rw [unlogged_place _ _ _ route_enqueueUnit, route_countStamp]

theorem unlogged_sendFrom (die kind : Nat) (f : Frame) : (s.sendFrom die kind f).route.unlogged = s.route.unlogged := by
  unfold State.sendFrom State.enterUnit
  split
  · rw [unlogged_letIn]; rfl
  · rfl

theorem route_sendVector (h : HostId) (v : Nat) : (s.sendVector h v).route = s.route := by
  unfold State.sendVector; extract_lets; split <;> rfl

theorem unlogged_finish (ticket : Nat) (st : Status) (res : List Fld) : (s.finish ticket st res).route.unlogged = s.route.unlogged := by
  unfold State.finish State.finishAt
  split
  · rfl
  · unfold State.respond
    split
    · split
      · rfl
      · extract_lets body b b' b'' u v
        split
        · rw [route_sendVector]; rfl
        · rfl
    · rw [unlogged_sendFrom]; rfl

theorem mem_finish (ticket : Nat) (st : Status) (res : List Fld) : (s.finish ticket st res).mem = s.mem :=
  (congrArg State.mem (core_finish s ticket st res) :)

theorem pending_finish (ticket : Nat) (st : Status) (res : List Fld) : (s.finish ticket st res).pending = s.pending :=
  (congrArg State.pending (core_finish s ticket st res) :)

end

section
variable {r q : RouteSt} (h : r.unlogged = q.unlogged)
include h

theorem bank_of_unlogged (i : Nat) : r.bank i = q.bank i := (congrArg (RouteSt.bank · i) h :)
theorem load_of_unlogged : r.load = q.load := (congrArg RouteSt.load h :)
theorem check_of_unlogged : r.check = q.check := (congrArg RouteSt.check h :)

end

/-! ### A command that reads DRAM -/

section
variable {s : State} {o : Origin} {op addr len : Nat} {vs : List Nat} {cs : List Chk} {p : Posted}
  (hw : s.waiting o op vs = some p)
include hw

theorem loading_refused {run : Nat → State → State × Reply} {c : Chk} (hc : firstRefusal (s.markChks o op ++ cs) = some c) :
    s.loading o op vs addr len cs run = .next (s.turnedAway p c.st (fldOffset op (s.posted p).2.toNat c.fld)) := by
  unfold State.loading
  rw [if_neg (by simp [hc])]
  exact command_refused hw hc

variable (hm : s.MaySend o op) (hc : ∀ c ∈ cs, c.bad = false) (hi : s.mayIssue (addr / 2 ^ 35 % 4) clsMgmt = true)
include hm hc hi

/-- With no uncorrectable word in what it reads, a command that stays TAKEN begins after the charge of the load. -/
theorem loading_begun {f : Nat → State → State} (hu : s.firstUe (dramKey addr) len = none) :
    s.loading o op vs addr len cs (fun t a => (f t a, .later)) = .next (s.begun p (fun t a => f t (a.chargeLoad addr len))) := by
  unfold State.loading
  extract_lets k
  rw [show s.mayIssue k clsMgmt = true from hi, Bool.not_true, Bool.and_false, if_neg Bool.false_ne_true, command_run hw hm hc]
  simp only [accept_firstUe, hu, State.begun]

theorem loading_torn {run : Nat → State → State × Reply} {u : Nat} (hu : s.firstUe (dramKey addr) len = some u) :
    s.loading o op vs addr len cs run =
      .next (s.concluded p (fun a => (a.chargeLoad addr len).logUe ((a.firstUe (dramKey addr) len).getD 0)) .integrity (fun _ => [])) := by
  unfold State.loading
  extract_lets k
  rw [show s.mayIssue k clsMgmt = true from hi, Bool.not_true, Bool.and_false, if_neg Bool.false_ne_true, command_run hw hm hc]
  simp only [accept_firstUe, hu, State.concluded, Option.getD_some]

end

/-- What begins matters at acceptance only. -/
theorem begun_congr {s : State} {p : Posted} {f g : Nat → State → State} (h : ∀ t, f t (s.accept p).2 = g t (s.accept p).2) :
    s.begun p f = s.begun p g := by
  unfold State.begun
  extract_lets a
  rw [show f a.1 a.2 = g a.1 a.2 from h a.1]

/-- A command that nothing refuses, and that answers at once from the state at acceptance with an effect that may depend on it. -/
theorem command_concluded_of_run {s : State} {o : Origin} {op : Nat} {vs : List Nat} {cs : List Chk}
    {run : Nat → State → State × Reply} {f : State → State} {st : Status} {res : State → List Fld} {p : Posted}
    (hw : s.waiting o op vs = some p) (hm : s.MaySend o op) (hc : ∀ c ∈ cs, c.bad = false)
    (hr : run (s.accept p).1 (s.accept p).2 = (f (s.accept p).2, .done st (res (s.accept p).2))) :
    s.command o op vs cs run = .next (s.concluded p f st res) := by
  rw [command_run hw hm hc, hr]; rfl

end Sys2Proof.Machine
end

section
/-! SUPPORT. Routing commands (05 R163, R171, R174, R175). -/

namespace Sys2Proof.Machine

open Sys2Proof

/-! ### ROUTE_LOAD (R163, R174) -/

theorem bank_setBank_self (r : RouteSt) (i : Nat) (b : Bank) : (r.setBank i b).bank i = b := by
  unfold RouteSt.setBank RouteSt.bank
  split <;> rfl

/-- The conditions of a ROUTE_LOAD of an image with header `h`. -/
def State.routeLoadChks (s : State) (o : Origin) (addr h : Nat) : List Chk :=
  let pages := bits h 32 8
  let epoch := bits h 8 8
  let clash (b : Bank) : Bool := decide (b.st ≠ .empty) && !adjacent epoch b.epoch
  let es := s.imageBlocks addr
  let fs := s.imageFines addr pages
  s.addrChks 0 addr (imageLen pages) 64 ++
   [badFld 0 (decide (epoch > 3) || clash s.route.b0 || clash s.route.b1 || decide (pages > 64) ||
      decide (bits h 40 8 ≠ 0) || decide (bits h 48 464 ≠ 0)),
    badFld 0 ((es ++ fs).any entryReserved || (s.imageGroups addr pages).any (fun g => bit g 255 && bits g 132 123 != 0)),
    s.ownChk o resRoute,
    ⟨decide (bits h 0 8 ≠ 1) || es.any (s.entryBad pages false) || fs.any (s.entryBad pages true), .badDesc, none⟩,
    ⟨s.route.emptyBank.isNone, .busy, none⟩]

/-- A bank becomes LOADING with the image at `addr`, and the load stands behind those that run. -/
def State.loadsBank (s : State) (i addr len ticket : Nat) : State :=
  s.setRoute { s.route.setBank i (s.bankImage addr) with
    load := s.route.load ++ [{ ticket := ticket, addr := addr, len := len, stamp := s.time.pip, bank := i }] }

theorem exec_routeLoad (o : Origin) (addr : Nat) (s : State) :
    exec (.routeLoad o addr) s =
      s.loading o 0x0401 [addr] addr (imageLen (bits (s.readNat (dramKey addr) 64) 32 8))
        (s.routeLoadChks o addr (s.readNat (dramKey addr) 64))
        (fun t a => (a.loadsBank (a.route.emptyBank.getD 0) addr (imageLen (bits (s.readNat (dramKey addr) 64) 32 8)) t, .later)) := rfl

/-- The header and the entries of an image at `addr` that R163 and R174 let be loaded. -/
structure State.Loadable (s : State) (addr h pages epoch : Nat) : Prop where
  epochFits : epoch ≤ 3
  pagesFit : pages ≤ 64
  format : bits h 0 8 = 1
  gap : bits h 40 8 = 0
  rest : bits h 48 464 = 0
  apart0 : s.route.b0.st ≠ .empty → adjacent epoch s.route.b0.epoch = true
  apart1 : s.route.b1.st ≠ .empty → adjacent epoch s.route.b1.epoch = true
  blocks : ∀ e ∈ s.imageBlocks addr, entryReserved e = false ∧ s.entryBad pages false e = false
  fines : ∀ e ∈ s.imageFines addr pages, entryReserved e = false ∧ s.entryBad pages true e = false
  groups : ∀ g ∈ s.imageGroups addr pages, bit g 255 = true → bits g 132 123 = 0

theorem noClash {b : Bank} {epoch : Nat} (h : b.st ≠ .empty → adjacent epoch b.epoch = true) :
    (decide (b.st ≠ .empty) && !adjacent epoch b.epoch) = false := by
  by_cases hb : b.st = .empty
  · simp [hb]
  · simp [h hb]

theorem any_eq_false_of {α : Type} {p : α → Bool} {l : List α} (h : ∀ x ∈ l, p x = false) : l.any p = false :=
  List.any_eq_false.mpr (fun x hx => by rw [h x hx]; exact Bool.false_ne_true)

/-- A well-formed image is not refused while a bank and the resource are free. -/
theorem routeLoadChks_ok {s : State} {o : Origin} {addr h i : Nat} (ho : s.Owns o resRoute) (he : s.route.emptyBank = some i)
    (ha : addr % 64 = 0) (hl : addr + imageLen (bits h 32 8) ≤ 2 ^ 37) (hd : s.dramDenied addr (imageLen (bits h 32 8)) = false)
    (hh : s.Loadable addr h (bits h 32 8) (bits h 8 8)) : ∀ c ∈ s.routeLoadChks o addr h, c.bad = false := by
  unfold State.routeLoadChks
  extract_lets pages epoch clash es fs
  have hclash : clash s.route.b0 = false ∧ clash s.route.b1 = false := ⟨noClash hh.apart0, noClash hh.apart1⟩
  have hhead : epoch ≤ 3 ∧ pages ≤ 64 := ⟨hh.epochFits, hh.pagesFit⟩
  have hres : (es ++ fs).any entryReserved = false :=
    any_eq_false_of (List.forall_mem_append.mpr ⟨fun e m => (hh.blocks e m).1, fun e m => (hh.fines e m).1⟩)
  have hgroups : (s.imageGroups addr pages).any (fun g => bit g 255 && bits g 132 123 != 0) = false :=
    any_eq_false_of (fun g m => by cases hv : bit g 255 <;> simp [hv, hh.groups g m])
  have hes : es.any (s.entryBad pages false) = false := any_eq_false_of (fun e m => (hh.blocks e m).2)
  have hfs : fs.any (s.entryBad pages true) = false := any_eq_false_of (fun e m => (hh.fines e m).2)
  rw [List.forall_mem_append]
  refine ⟨addrChks_ok hl ha hd, ?_⟩
  simp only [List.forall_mem_cons, List.not_mem_nil, false_imp_iff, implies_true, and_true, badFld]
  refine ⟨?_, ?_, ho, ?_, ?_⟩
  · simp [hclash, hhead, hh.gap, hh.rest]
  · rw [hres, hgroups]; rfl
  · rw [hes, hfs, hh.format]; rfl
  · rw [he]; rfl

/-- ROUTE_LOAD of a well-formed image makes the free bank LOADING and stays TAKEN. -/
theorem exec_routeLoad_begun {s : State} {o : Origin} {addr h i : Nat} {p : Posted} (hw : s.waiting o 0x0401 [addr] = some p)
    (hm : s.MaySend o 0x0401) (hh : h = s.readNat (dramKey addr) 64) (he : s.route.emptyBank = some i)
    (hc : ∀ c ∈ s.routeLoadChks o addr h, c.bad = false)
    (hu : s.firstUe (dramKey addr) (imageLen (bits h 32 8)) = none) (hi : s.mayIssue (addr / 2 ^ 35 % 4) clsMgmt = true) :
    exec (.routeLoad o addr) s = .next (s.begun p (fun k a =>
      (a.chargeLoad addr (imageLen (bits h 32 8))).loadsBank i addr (imageLen (bits h 32 8)) k)) := by
  rw [hh] at hc hu ⊢
  rw [exec_routeLoad, loading_begun hw hm hc hi hu]
  refine congrArg Host.Outcome.next (begun_congr fun t => ?_)
  show State.loadsBank _ ((s.accept p).2.route.emptyBank.getD 0) _ _ t = _
  rw [accept_route, he, Option.getD_some]

/-! ### ROUTE_LOAD_COMPLETE (R163) -/

theorem route_refreshEpoch (s : State) :
    s.refreshEpoch.route = { s.route with routeEpoch := s.route.newest s.route.routeEpoch } := by
  unfold State.refreshEpoch
  extract_lets e
  split
  · next h =>
    show s.route = { s.route with routeEpoch := e }
    rw [h]
  · rfl

/-- The bank of the oldest load is INSTALLED. -/
def State.installs (s : State) (j : RouteJob) (rest : List RouteJob) : State :=
  s.setRoute { s.route.setBank j.bank { s.route.bank j.bank with st := .installed } with load := rest }

theorem exec_routeLoadComplete {s : State} {j : RouteJob} {rest : List RouteJob} (h : s.route.load = j :: rest) :
    exec .routeLoadComplete s = .next ((s.installs j rest).refreshEpoch.finish j.ticket .ok
      [uf 1 j.bank, uf 1 (s.route.bank j.bank).epoch, uf 8 (s.route.bank j.bank).digest]) := by
  show execRouteLoadComplete s = _
  unfold execRouteLoadComplete
  rw [h]
  rfl

theorem installs_done (s : State) (j : RouteJob) (rest : List RouteJob) (ticket : Nat) (st : Status) (res : List Fld) :
    ((s.installs j rest).refreshEpoch.finish ticket st res).route.load = rest ∧
      ((s.installs j rest).refreshEpoch.finish ticket st res).route.bank j.bank = { s.route.bank j.bank with st := .installed } := by
  have h := unlogged_finish (s.installs j rest).refreshEpoch ticket st res
  rw [load_of_unlogged h, bank_of_unlogged h, route_refreshEpoch]
  exact ⟨rfl, bank_setBank_self ..⟩

/-! ### ROUTE_CHECK (R171) -/

/-- The conditions of a ROUTE_CHECK whose description has verdict `v`. -/
def State.routeCheckChks (s : State) (o : Origin) (addr len v : Nat) : List Chk :=
  s.addrChks 0 addr len 1 ++ [s.ownChk o resRoute, ⟨v == 0, .badDesc, none⟩, ⟨decide (v > 6), .capacity, none⟩,
    ⟨s.route.check.isSome, .busy, none⟩]

/-- A check stands as the one that runs. -/
def State.checksRoutes (s : State) (addr len ticket : Nat) : State :=
  s.setRoute { s.route with check := some { ticket := ticket, addr := addr, len := len, stamp := s.time.pip } }

theorem exec_routeCheck (o : Origin) (addr len : Nat) (s : State) :
    exec (.routeCheck o addr len) s = s.loading o 0x0402 [addr, len] addr len
      (s.routeCheckChks o addr len (Config.routeVerdict (s.read (dramKey addr) len) s.devFid))
      (fun t a => (a.checksRoutes addr len t, .later)) := rfl

section
variable {s : State} {o : Origin} {addr len v : Nat} {p : Posted} (ho : s.Owns o resRoute) (hl : addr + len ≤ 2 ^ 37)
  (hd : s.dramDenied addr len = false) (hn : s.route.check = none)
include ho hl hd hn

theorem routeCheckChks_ok (h0 : v ≠ 0) (h6 : v ≤ 6) : ∀ c ∈ s.routeCheckChks o addr len v, c.bad = false := by
  unfold State.routeCheckChks
  rw [List.forall_mem_append]
  refine ⟨addrChks_ok hl (Nat.mod_one _) hd, ?_⟩
  simp only [List.forall_mem_cons, List.not_mem_nil, false_imp_iff, implies_true, and_true]
  exact ⟨ho, beq_false_of_ne h0, decide_eq_false (Nat.not_lt.mpr h6), by rw [hn]; rfl⟩

/-- A description that is malformed or beyond the limits is refused for that alone. -/
theorem routeCheck_refusal (hm : s.MaySend o 0x0402) (hv : v = 0 ∨ 6 < v) :
    firstRefusal (s.markChks o 0x0402 ++ s.routeCheckChks o addr len v) =
      some ⟨true, if v = 0 then .badDesc else .capacity, none⟩ := by
  unfold State.routeCheckChks
  rw [firstRefusal_append_left (markChks_ok hm), firstRefusal_append_left (addrChks_ok hl (Nat.mod_one _) hd),
    firstRefusal_cons_false ho, hn]
  rcases hv with rfl | hv
  · rfl
  · have h0 : v ≠ 0 := by omega
    rw [firstRefusal_cons_false (beq_false_of_ne h0), if_neg h0, decide_eq_true hv]
    rfl

end

/-- ROUTE_CHECK: refused by its verdict, ended by a word that cannot be read, or begun. -/
theorem exec_routeCheck_cases {s : State} {o : Origin} {addr len : Nat} {p : Posted} (hw : s.waiting o 0x0402 [addr, len] = some p)
    (hm : s.MaySend o 0x0402) (ho : s.Owns o resRoute) (hl : addr + len ≤ 2 ^ 37) (hd : s.dramDenied addr len = false)
    (hn : s.route.check = none) (hi : s.mayIssue (addr / 2 ^ 35 % 4) clsMgmt = true) :
    exec (.routeCheck o addr len) s = .next (
      if Config.routeVerdict (s.read (dramKey addr) len) s.devFid = 0 then s.turnedAway p .badDesc 0xFFFF
      else if 6 < Config.routeVerdict (s.read (dramKey addr) len) s.devFid then s.turnedAway p .capacity 0xFFFF
      else if s.firstUe (dramKey addr) len ≠ none then
        s.concluded p (fun a => (a.chargeLoad addr len).logUe ((a.firstUe (dramKey addr) len).getD 0)) .integrity (fun _ => [])
      else s.begun p (fun k a => (a.chargeLoad addr len).checksRoutes addr len k)) := by
  rw [exec_routeCheck]
  generalize Config.routeVerdict (s.read (dramKey addr) len) s.devFid = v
  by_cases h0 : v = 0
  · rw [loading_refused hw (routeCheck_refusal ho hl hd hn hm (.inl h0)), if_pos h0, if_pos h0]; rfl
  · rw [if_neg h0]
    by_cases h6 : 6 < v
    · rw [loading_refused hw (routeCheck_refusal ho hl hd hn hm (.inr h6)), if_pos h6, if_neg h0]; rfl
    · have hc := routeCheckChks_ok ho hl hd hn h0 (Nat.not_lt.mp h6)
      rw [if_neg h6]
      cases hu : s.firstUe (dramKey addr) len with
      | none => exact loading_begun hw hm hc hi hu
      | some u => exact loading_torn hw hm hc hi hu

/-! ### ROUTE_CHECK_COMPLETE (R171) -/

/-- A bank certified when it is the installed one with digest `d`. -/
def Bank.certify (b : Bank) (d : Nat) (dirs : Nat) : Bank :=
  if b.st = .installed && b.digest == d then { b with cert := some dirs } else b

theorem cert_certify {b : Bank} {d : Nat} (dirs : Nat) (hs : b.st = .installed) (hd : b.digest = d) :
    (b.certify d dirs).cert = some dirs := by
  unfold Bank.certify
  rw [hs, hd, beq_self_eq_true]
  rfl

/-- Both banks are looked at for one to certify. -/
def RouteSt.certified (r : RouteSt) (d dirs : Nat) : RouteSt := { r with b0 := r.b0.certify d dirs, b1 := r.b1.certify d dirs }

theorem bank_certified (r : RouteSt) (d dirs i : Nat) : (r.certified d dirs).bank i = (r.bank i).certify d dirs := by
  unfold RouteSt.bank
  split <;> rfl

/-- The routing state after the check `j`: a pass of bytes that can be read certifies the installed bank that it names. -/
def State.afterCheck (s : State) (j : RouteJob) : RouteSt :=
  if s.firstUe (dramKey j.addr) j.len = none ∧ Config.routeVerdict (s.read (dramKey j.addr) j.len) s.devFid = 1 then
    { s.route.certified (Config.routeDigest (s.read (dramKey j.addr) j.len) s.devFid % 2 ^ 64)
        (Config.routeDirs (s.read (dramKey j.addr) j.len) s.devFid) with check := none }
  else { s.route with check := none }

theorem check_afterCheck (s : State) (j : RouteJob) : (s.afterCheck j).check = none := by
  unfold State.afterCheck
  split <;> rfl

theorem firstUe_setRoute (s : State) (r : RouteSt) (key n : Nat) : (s.setRoute r).firstUe key n = s.firstUe key n := rfl

/-- ROUTE_CHECK_COMPLETE answers from a state of that routing state; memory and the commands stay. -/
theorem exec_routeCheckComplete {s : State} {j : RouteJob} (hj : s.route.check = some j) :
    ∃ u : State, ∃ st res, exec .routeCheckComplete s = .next (u.finish j.ticket st res) ∧
      u.mem = s.mem ∧ u.pending = s.pending ∧ u.route = s.afterCheck j := by
  show ∃ u : State, ∃ st res, execRouteCheckComplete s = .next (u.finish j.ticket st res) ∧ _
  unfold execRouteCheckComplete State.afterCheck
  simp only [hj, firstUe_setRoute]
  cases hu : s.firstUe (dramKey j.addr) j.len with
  | some w => exact ⟨_, _, _, rfl, rfl, rfl, (if_neg (fun h => nomatch h.1)).symm⟩
  | none =>
    by_cases hv : Config.routeVerdict (s.read (dramKey j.addr) j.len) s.devFid = 1
    · simp only [hv, and_self, if_true]
      exact ⟨_, _, _, rfl, rfl, rfl, rfl⟩
    · simp only [hv, and_false, if_false]
      exact ⟨_, _, _, rfl, rfl, rfl, rfl⟩

/-! ### ROUTE_STATUS, ROUTE_LOOKUP and ROUTE_COUNTERS (R175) -/

@[simp] theorem routeAt_accept (s : State) (p : Posted) (die ing : Nat) (f : Frame) :
    (s.accept p).2.routeAt die ing f = s.routeAt die ing f := by
  rw [accept_frame]; rfl

/-- The frame that a ROUTE_LOOKUP asks for. -/
def lookupFrame (epoch src dst channel vc mcast : Nat) : Frame :=
  { ty := 0, vc := vc, ch := channel, epoch := epoch, epochSet := true, dst := dst, src := src, mcast := decide (mcast = 1) }

/-- What a ROUTE_LOOKUP does when routing says `r` of the frame. -/
def State.lookupReply (a : State) (f : Frame) (lk : Nat) (r : Routed) : State × Reply :=
  match r with
  | .torn l => (a.critical rowRoute (linkDie lk) l 4 (linkDie lk) (srcOf 3 (linkDie lk)), .done .integrity [])
  | _ => (a, .done .ok (a.lookupFlds f lk r))

theorem lookupReply_whole (a : State) (f : Frame) (lk : Nat) {r : Routed} (h : r.whole = true) :
    a.lookupReply f lk r = (a, .done .ok (a.lookupFlds f lk r)) := by
  match r, h with
  | .torn _, h => exact absurd h Bool.false_ne_true
  | .to .., _ => rfl
  | .many .., _ => rfl
  | .discard _, _ => rfl

section
variable {s : State} {o : Origin} {epoch src dst channel vc mcast port half : Nat} {p : Posted}
  (hw : s.waiting o 0x0404 [epoch, src, dst, channel, vc, mcast, port, half] = some p) (hm : s.MaySend o 0x0404)
  (he : epoch ≤ 3) (hs : src ≤ 0xFFFFF) (hd : dst ≤ 0xFFFFF) (hc : channel ≤ 15) (hv : vc ≤ 7) (hmc : mcast ≤ 1) (hp : port < 64)
  (hh : half ≤ 2) (hf : s.halfFits s.cfg.vals (half * 64 + port) = true)
include hw hm he hs hd hc hv hmc hp hh hf

/-- ROUTE_LOOKUP of parameters in range answers what routing says of the frame at acceptance. -/
theorem exec_routeLookup {f : State → State} {st : Status} {res : State → List Fld}
    (hr : (s.accept p).2.lookupReply (lookupFrame epoch src dst channel vc mcast) (linkOf port half)
        (s.routeAt (linkDie (linkOf port half)) (linkOf port half) (lookupFrame epoch src dst channel vc mcast)) =
      (f (s.accept p).2, .done st (res (s.accept p).2))) :
    exec (.routeLookup o epoch src dst channel vc mcast port half) s = .next (s.concluded p f st res) := by
  show execRouteLookup o epoch src dst channel vc mcast port half s = _
  unfold execRouteLookup
  refine command_concluded_of_run hw hm ?_ ?_
  · simp only [List.forall_mem_cons, List.not_mem_nil, false_imp_iff, implies_true, and_true, badFld, Nat.mod_eq_of_lt hp, hf,
      decide_eq_false_iff_not, Bool.not_true, Bool.or_false]
    omega
  · rw [← hr, ← routeAt_accept s p]
    rfl

end

/-- The five fields of a bank in a ROUTE_STATUS. -/
def Bank.statusFlds (b : Bank) : List Fld := [uf 1 b.st.code, uf 1 b.epoch, uf 2 b.seed.toNat, uf 8 b.digest, uf 1 (b2n b.cert.isSome)]

theorem exec_routeStatus {s : State} {o : Origin} {p : Posted} (hw : s.waiting o 0x0403 [] = some p) (hm : s.MaySend o 0x0403) :
    ∃ res : State → List Fld, exec (.routeStatus o) s = .next (s.concluded p id .ok res) ∧ ∀ a : State,
      (res a).take 5 = a.route.b0.statusFlds ∧ ((res a).drop 5).take 5 = a.route.b1.statusFlds ∧
        (res a).getLast? = some (uf 1 a.route.routeEpoch) := by
  show ∃ res : State → List Fld, execRouteStatus o s = _ ∧ _
  unfold execRouteStatus
  refine ⟨_, query_concluded hw hm (List.forall_mem_nil _), fun a => ⟨?_, ?_, ?_⟩⟩
  · rfl
  · rfl
  · exact List.getLast?_concat

theorem exec_routeCounters {s : State} {o : Origin} {die clear : Nat} {p : Posted} (hw : s.waiting o 0x0405 [die, clear] = some p)
    (hm : s.MaySend o 0x0405) (hd : die ≤ 3) (hc : clearOk o clear) :
    ∃ res : State → List Fld, exec (.routeCounters o die clear) s =
      .next (s.concluded p (fun a => if clear = 1 then a.clearUnit .route die else a) .ok res) ∧
      ∀ a : State, (res a).getLast? = some (uf 4 (a.count .route die rcLate)) := by
  show ∃ res : State → List Fld, execRouteCounters o die clear s = _ ∧ _
  unfold execRouteCounters
  refine ⟨_, command_concluded hw hm (List.forall_mem_cons.mpr ⟨decide_eq_false (Nat.not_lt.mpr hd), clearChks_ok hc⟩), fun a => ?_⟩
  exact List.getLast?_concat

/-! ### The obligation -/

/-- Settles O13: each row by its own lemma. Loads and checks begin after the conditions of R163 and R171 (`loading_begun`), their
ends change the banks and then answer, which leaves the banks (`unlogged_finish`). -/
theorem routingCommands : Obligations.RoutingCommands := by
  unfold Obligations.RoutingCommands
  refine ⟨?_, fun _ _ => ⟨rfl, rfl⟩, ?_, ?_, ?_, ?_, ?_, ?_, ?_⟩
  · intro o addr s p i hw hm ho he ha h pages epoch hh hp hep hl hd h3 h64 hfmt hgap hrest h0 h1 hb hf hg hu hi
    rw [hp] at hl hd h64 hb hf hg hu ⊢
    rw [hep] at h3 h0 h1
    exact exec_routeLoad_begun hw hm hh he
      (routeLoadChks_ok ho he ha hl hd ⟨h3, h64, hfmt, hgap, hrest, h0, h1, hb, hf, hg⟩) hu hi
  · intro s j rest h
    obtain ⟨hload, hbank⟩ := installs_done s j rest j.ticket .ok
      [uf 1 j.bank, uf 1 (s.route.bank j.bank).epoch, uf 8 (s.route.bank j.bank).digest]
    have hcore : (s.installs j rest).refreshEpoch.core = s.core := core_refreshEpoch _
    refine ⟨_, exec_routeLoadComplete h, hload, hbank, ?_, ?_⟩
    · rw [mem_finish]; exact (congrArg State.mem hcore :)
    · rw [pending_finish]; exact (congrArg State.pending hcore :)
  · intro o addr len s p hw hm ho hl hd hn hi
    exact exec_routeCheck_cases hw hm ho hl hd hn hi
  · intro s j hj
    obtain ⟨u, st, res, hx, hmem, hpend, hroute⟩ := exec_routeCheckComplete hj
    have hun := unlogged_finish u j.ticket st res
    refine ⟨_, hx, ?_, (mem_finish ..).trans hmem, (pending_finish ..).trans hpend, fun hv hu i hst hdg => ?_, fun hv => ?_⟩
    · rw [check_of_unlogged hun, hroute, check_afterCheck]
    · rw [bank_of_unlogged hun, hroute, State.afterCheck, if_pos ⟨hu, hv⟩]
      exact (congrArg Bank.cert (bank_certified ..)).trans (cert_certify _ hst hdg)
    · have hq : u.route = { s.route with check := none } := hroute.trans (if_neg (fun h => hv h.2))
      exact ⟨(bank_of_unlogged hun 0).trans (congrArg RouteSt.b0 hq :), (bank_of_unlogged hun 1).trans (congrArg RouteSt.b1 hq :)⟩
  · intro o s p hw hm
    exact exec_routeStatus hw hm
  · intro o epoch src dst channel vc mcast port half s p hw hm he hs hd hc hv hmc hp hh hf f0 r hf0 hr hwhole
    subst hf0
    subst hr
    exact exec_routeLookup hw hm he hs hd hc hv hmc hp hh hf (lookupReply_whole _ _ _ hwhole)
  · intro o die clear s p hw hm hd hc
    exact exec_routeCounters hw hm hd hc
  · intro o epoch src dst channel vc mcast port half s p hw hm he hs hd hc hv hmc hp hh hf f0 loc d hf0 hd0 hr
    subst hf0
    subst hd0
    exact exec_routeLookup hw hm he hs hd hc hv hmc hp hh hf (congrArg _ hr)

end Sys2Proof.Machine
end

section
/-! PROOF. Arbiters (06 R190 to R193): a grant of hank allocation may charge the arbiter that gave it. -/

namespace Sys2Proof.Machine

open Sys2Proof

/-! ### One core cycle of hank allocation (04 R135) -/

/-- The arbiter of hank allocation of a die after a core cycle, before its grants of the last decision take effect. -/
def State.allocStep (s : State) (die : Nat) (raised : List Nat) : Arb :=
  arbStep 32 (s.pipOn die / 4096) (s.arbWeight 3 die 0) (s.reqHeld 3 die) raised (s.arb (arbKey 3 die 0))

/-- The state with that arbiter. -/
def State.allocDecided (s : State) (die : Nat) (raised : List Nat) : State :=
  s.setTraf { s.traf with
    arbs := tabPut s.traf.arbs (arbKey 3 die 0) { s.allocStep die raised with frozen := (s.arb (arbKey 3 die 0)).frozen } }

/-- The decision is entered first; then the grants of the last decision that are not stale take effect (R131, R135, R193). -/
theorem exec_arbiterDecide_alloc {s : State} {die : Nat} {raised : List Nat} (hd : die < 4) (hr : ∀ i ∈ raised, i < 7) :
    exec (.arbiterDecide 3 die 0 raised) s =
      .next (((s.arb (arbKey 3 die 0)).used (s.reqHeld 3 die) raised).foldl (fun t i => t.allocGranted die i)
        (s.allocDecided die raised)) := by
  have hraised : raised.any (fun i => decide (i ≥ 7)) = false :=
    List.any_eq_false.mpr fun i hi => by simpa using hr i hi
  have hform : ¬((decide (die ≥ 4) || decide (0 ≥ 2) || (!false && 0 != 0) || raised.any (fun i => decide (i ≥ 7))) = true) := by
    simp [hraised, hd]
  show execArbiterDecide 3 die 0 raised s = _
  exact (if_neg hform).trans (by simp [State.allocDecided, State.allocStep, arbGrants, arbDie, bridgeOf])

/-! ### A readback after which a port account advertises -/

/-- A frame of port 0 on VC1 in the overflow region of port die 0: it has one DRAM hank. -/
def spilledFrame : QFrame :=
  { die := 0, ing := 0, dest := .link 2, f := { ty := 0, vc := 1, ch := 1, dst := 5, src := 9, cells := List.replicate 64 0 },
    stamp := 0, acct := portAcct 0 1, hanks := [(0, 1)], ovf := true, store := 3 }

/-- Link 0 is UP, its account on VC1 may advertise more credits, and the last decision of hank allocation on port die 0 granted RDBK. -/
def readbackGranted : State :=
  { State.reset with
      links := [(0, { state := .up })],
      buf := { frames := [spilledFrame], hanks := [(hankKey 8 0, { held := true, gen := 1 })] },
      traf := { arbs := [(arbKey 3 0 0, { granted := [1] })] } }

/-- RDBK asks on, so its grant is not stale. -/
theorem used_readbackGranted :
    (readbackGranted.arb (arbKey 3 0 0)).used (readbackGranted.reqHeld 3 0) [1] = [1] := by decide +kernel

/-- The grant takes effect: it reads the frame back. -/
theorem exec_readbackGranted : exec (.arbiterDecide 3 0 0 [1]) readbackGranted =
    .next ((readbackGranted.allocDecided 0 [1]).allocGranted 0 1) := by
  rw [exec_arbiterDecide_alloc (by decide) (by decide), used_readbackGranted, List.foldl_cons, List.foldl_nil]

/-- No request was registered in the last cycle, so the cycle itself decides on none. -/
theorem allocStep_readbackGranted : (readbackGranted.allocStep 0 [1]).g = 0 := by decide +kernel

/-- The release of the frame's DRAM hank has its port account advertise (R131), which charges requester 0 of the same arbiter. -/
theorem allocGranted_readbackGranted :
    (((readbackGranted.allocDecided 0 [1]).allocGranted 0 1).arb (arbKey 3 0 0)).g = 1 := by decide +kernel

/-- Refutes O10: after ARBITER_DECIDE the arbiter of hank allocation need not be what its core cycle makes it. In `readbackGranted` no
request is decided on, so `arbStep` leaves g at 0, but the grant of RDBK frees a chain of a port account, which then advertises in the
same row and counts a grant of its own in that arbiter (`State.chargeAlloc`): g is 1. -/
theorem not_arbitersAndBridges : ¬ Obligations.ArbitersAndBridges := by
  unfold Obligations.ArbitersAndBridges
  rintro ⟨-, hdecide, -⟩
  obtain ⟨t, hexec, harb, -⟩ := hdecide 3 0 0 [1] readbackGranted (by decide) (by decide) (fun _ => rfl) (by decide) (by decide)
  have ht : t = (readbackGranted.allocDecided 0 [1]).allocGranted 0 1 :=
    Host.Outcome.next.inj (hexec.symm.trans exec_readbackGranted)
  have hg : (t.arb (arbKey 3 0 0)).g = (readbackGranted.allocStep 0 [1]).g := congrArg Arb.g harb
  rw [ht, allocGranted_readbackGranted, allocStep_readbackGranted] at hg
  exact absurd hg (by decide)

end Sys2Proof.Machine
end

section
/-! SUPPORT. Magnitudes and rounding (07 R207, R209, R210, R212): `magLe` compares the rationals m × 2^e, and what each mode makes of a
magnitude between two multiples of the unit. -/

namespace Sys2Proof.Machine

open Sys2Proof

/-! ### The magnitude of a finite value -/

/-- The magnitude m × 2^e as a rational. -/
def mag (m : Nat) (e : Int) : ℚ := m * 2 ^ e

theorem mag_shiftLeft (m k : Nat) (e : Int) : mag (m <<< k) e = mag m (e + k) := by
  unfold mag
  rw [Nat.shiftLeft_eq, Nat.cast_mul, Nat.cast_pow, Nat.cast_ofNat, zpow_add₀ two_ne_zero, zpow_natCast]
  ring

theorem mag_shiftLeft_sub (m : Nat) {e u : Int} (h : u ≤ e) : mag (m <<< (e - u).toNat) u = mag m e := by
  rw [mag_shiftLeft, Int.toNat_of_nonneg (by omega)]
  congr 1
  omega

/-- The quotient by the unit 2^u is exact where the unit divides. -/
theorem mag_div {m : Nat} {e u : Int} (h : e ≤ u) (hd : 2 ^ (u - e).toNat ∣ m) : mag (m / 2 ^ (u - e).toNat) u = mag m e := by
  rw [← mag_shiftLeft_sub _ h, Nat.shiftLeft_eq, Nat.div_mul_cancel hd]

theorem mag_le_mag {m n : Nat} {e : Int} : mag m e ≤ mag n e ↔ m ≤ n := by
  unfold mag
  rw [mul_le_mul_iff_left₀ (by positivity), Nat.cast_le]

theorem magLe_iff {m1 m2 : Nat} {e1 e2 : Int} : magLe m1 e1 m2 e2 = true ↔ mag m1 e1 ≤ mag m2 e2 := by
  unfold magLe alignPair
  rw [decide_eq_true_iff]
  split
  · next h => rw [← mag_shiftLeft_sub m2 h, mag_le_mag]
  · next h => rw [← mag_shiftLeft_sub m1 (le_of_not_ge h), mag_le_mag]

/-- Finite values of one sign and one magnitude compare equal (R212). -/
theorem eqv_of_mag {s : Bool} {m1 m2 : Nat} {e1 e2 : Int} (h : mag m1 e1 = mag m2 e2) :
    Num.eqv (.fin s m1 e1) (.fin s m2 e2) = true := by
  have h12 : magLe m1 e1 m2 e2 = true := magLe_iff.mpr h.le
  have h21 : magLe m2 e2 m1 e1 = true := magLe_iff.mpr h.ge
  unfold Num.eqv
  split
  · rfl
  · cases s <;> simp [Num.le, h12, h21]

/-! ### What a mode makes of a magnitude (R207, R209) -/

section
variable {m : Nat} {e u : Int}

theorem roundTo_of_le (h : u ≤ e) (mode : Mode) : roundTo m e u mode = m <<< (e - u).toNat := if_pos h

theorem sub_shift_eq_mod (m k : Nat) : m - m >>> k <<< k = m % 2 ^ k := by
  rw [Nat.shiftRight_eq_div_pow, Nat.shiftLeft_eq, Nat.mod_eq_sub_div_mul]

variable (h : e < u)
include h

theorem roundTo_rz : roundTo m e u .rz = m / 2 ^ (u - e).toNat :=
  (if_neg (by omega)).trans (Nat.shiftRight_eq_div_pow _ _)

theorem roundTo_rn : roundTo m e u .rn =
    if 2 ^ (u - e).toNat < 2 * (m % 2 ^ (u - e).toNat) ∨
      2 * (m % 2 ^ (u - e).toNat) = 2 ^ (u - e).toNat ∧ m / 2 ^ (u - e).toNat % 2 = 1
    then m / 2 ^ (u - e).toNat + 1 else m / 2 ^ (u - e).toNat := by
  rw [roundTo, if_neg (by omega)]
  simp only [sub_shift_eq_mod, Nat.one_shiftLeft, gt_iff_lt]
  rw [Nat.shiftRight_eq_div_pow]

theorem roundTo_rs (r : Nat) : roundTo m e u (.rs r) =
    if 2 ^ 24 ≤ m % 2 ^ (u - e).toNat * 2 ^ 24 / 2 ^ (u - e).toNat + r
    then m / 2 ^ (u - e).toNat + 1 else m / 2 ^ (u - e).toNat := by
  rw [roundTo, if_neg (by omega)]
  simp only [sub_shift_eq_mod, ge_iff_le]
  rw [Nat.shiftRight_eq_div_pow, Nat.shiftRight_eq_div_pow, Nat.shiftLeft_eq]

/-- Every mode gives the quotient or one more. -/
theorem roundTo_quotient (mode : Mode) :
    roundTo m e u mode = m / 2 ^ (u - e).toNat ∨ roundTo m e u mode = m / 2 ^ (u - e).toNat + 1 := by
  cases mode with
  | rz => exact .inl (roundTo_rz h)
  | rn => rw [roundTo_rn h]; exact (ite_eq_or_eq _ _ _).symm
  | rs r => rw [roundTo_rs h]; exact (ite_eq_or_eq _ _ _).symm

/-- RN is nearest: it leaves at most half a unit on either side. -/
theorem roundTo_rn_nearest :
    2 * (roundTo m e u .rn * 2 ^ (u - e).toNat) ≤ 2 * m + 2 ^ (u - e).toNat ∧
      2 * m ≤ 2 * (roundTo m e u .rn * 2 ^ (u - e).toNat) + 2 ^ (u - e).toNat := by
  rw [roundTo_rn h]
  have hlt : m % 2 ^ (u - e).toNat < 2 ^ (u - e).toNat := Nat.mod_lt m (Nat.two_pow_pos _)
  generalize 2 ^ (u - e).toNat = b at hlt ⊢
  have hm : m / b * b + m % b = m := Nat.div_add_mod' m b
  split
  · rw [Nat.add_one_mul (m / b) b]
    omega
  · omega

/-- RS never changes a representable value: f is 0 and r is below 2^24 (R209). -/
theorem roundTo_rs_exact {r : Nat} (hr : r < 2 ^ 24) (h0 : m % 2 ^ (u - e).toNat = 0) :
    roundTo m e u (.rs r) = m / 2 ^ (u - e).toNat := by
  rw [roundTo_rs h, h0, Nat.zero_mul, Nat.zero_div, Nat.zero_add, if_neg (Nat.not_le.mpr hr)]

end

/-- Where the unit divides, rounding to it keeps the magnitude. -/
theorem mag_roundTo_rz {m : Nat} {e u : Int} (h : 2 ^ (u - e).toNat ∣ m) : mag (roundTo m e u .rz) u = mag m e := by
  rcases Int.lt_or_le e u with hlt | hle
  · rw [roundTo_rz hlt, mag_div hlt.le h]
  · rw [roundTo_of_le hle, mag_shiftLeft_sub m hle]

/-! ### The values of a format (Table 07-1) -/

/-- The exponent of the binade of m × 2^e in the format, that of its subnormals at least. -/
def Fmt.binade (f : Fmt) (m : Nat) (e : Int) : Int := max (Nat.log2 m + e) (1 - (f.bias : Int))

/-- The exponent of the unit in the last place of m × 2^e. -/
def Fmt.unit (f : Fmt) (m : Nat) (e : Int) : Int := f.binade m e - f.mant

/-- The magnitude m × 2^e is a value of the format: a multiple of its unit, no larger than the largest finite value. -/
def Fmt.Holds (f : Fmt) (m : Nat) (e : Int) : Prop :=
  2 ^ (f.unit m e - e).toNat ∣ m ∧ mag m e ≤ mag f.maxFin.1 f.maxFin.2

/-- A value is less than 2^(mant + 1) units. -/
theorem roundTo_rz_unit_lt (f : Fmt) (m : Nat) (e : Int) : roundTo m e (f.unit m e) .rz < 2 ^ (f.mant + 1) := by
  have hm : m < 2 ^ (Nat.log2 m + 1) := Nat.lt_log2_self
  have hb : (Nat.log2 m : Int) + e ≤ f.unit m e + f.mant := by
    unfold Fmt.unit Fmt.binade; omega
  rcases Int.lt_or_le e (f.unit m e) with h | h
  · rw [roundTo_rz h, Nat.div_lt_iff_lt_mul (Nat.two_pow_pos _), ← pow_add]
    exact hm.trans_le (Nat.pow_le_pow_right two_pos (by omega))
  · rw [roundTo_of_le h, Nat.shiftLeft_eq]
    calc m * 2 ^ (e - f.unit m e).toNat
        < 2 ^ (Nat.log2 m + 1) * 2 ^ (e - f.unit m e).toNat := Nat.mul_lt_mul_of_pos_right hm (Nat.two_pow_pos _)
      _ = 2 ^ (Nat.log2 m + 1 + (e - f.unit m e).toNat) := (pow_add _ _ _).symm
      _ ≤ 2 ^ (f.mant + 1) := Nat.pow_le_pow_right two_pos (by omega)

/-- A mode may carry into the next binade, and no further. -/
theorem roundTo_unit_le (f : Fmt) (m : Nat) (e : Int) (mode : Mode) : roundTo m e (f.unit m e) mode ≤ 2 ^ (f.mant + 1) := by
  have hz := roundTo_rz_unit_lt f m e
  rcases Int.lt_or_le e (f.unit m e) with h | h
  · rw [roundTo_rz h] at hz
    have := roundTo_quotient (m := m) h mode
    omega
  · rw [roundTo_of_le h] at hz ⊢
    exact hz.le

theorem Fmt.holds_zero (f : Fmt) (e : Int) : f.Holds 0 e :=
  ⟨dvd_zero _, by unfold mag; rw [Nat.cast_zero, zero_mul]; positivity⟩

theorem Fmt.holds_max {f : Fmt} (hf : f.int = false) : f.Holds f.maxFin.1 f.maxFin.2 :=
  ⟨by
    cases f with
    | i8 | i32 => exact absurd hf (by decide)
    | _ => decide, le_rfl⟩

/-- At most 2^(mant + 1) units of a binade of the format, the largest finite value being no smaller, make a value of it. -/
theorem Fmt.holds_of_le {f : Fmt} {n : Nat} {u : Int} (hu : 1 - (f.bias : Int) - f.mant ≤ u) (hn : n ≤ 2 ^ (f.mant + 1))
    (hmax : mag n u ≤ mag f.maxFin.1 f.maxFin.2) : f.Holds n u := by
  refine ⟨?_, hmax⟩
  rcases hn.lt_or_eq with h | rfl
  · have hlog : Nat.log2 n ≤ f.mant := by
      rcases Nat.eq_zero_or_pos n with rfl | h0
      · simp
      · exact Nat.lt_succ_iff.mp ((Nat.log2_lt h0.ne').mpr h)
    have hunit : (f.unit n u - u).toNat = 0 := by unfold Fmt.unit Fmt.binade; omega
    rw [hunit]
    exact one_dvd n
  · have hunit : (f.unit (2 ^ (f.mant + 1)) u - u).toNat ≤ 1 := by
      unfold Fmt.unit Fmt.binade; rw [Nat.log2_two_pow]; omega
    exact pow_dvd_pow 2 (hunit.trans (Nat.le_add_left 1 _))

/-- Rounding to a format gives a value of the format, with the sign of what is rounded (R207, R210). -/
theorem rnd_fin_holds {f : Fmt} (hf : f.int = false) (mode : Mode) (s : Bool) (m : Nat) (e : Int) :
    ∃ n u, (rnd f mode (.fin s m e)).1 = .fin s n u ∧ f.Holds n u := by
  rcases Nat.eq_zero_or_pos m with rfl | hm
  · exact ⟨0, 0, by simp [rnd, hf], f.holds_zero 0⟩
  have hr : rnd f mode (.fin s m e) =
      if magLe (roundTo m e (f.unit m e) mode) (f.unit m e) f.maxFin.1 f.maxFin.2
      then (.fin s (roundTo m e (f.unit m e) mode) (f.unit m e), {}) else (f.maxNum s, { sat := 1 }) :=
    (if_neg hm.ne').trans (if_neg (by simp [hf]))
  rw [hr]
  split
  · next h =>
    exact ⟨_, _, rfl, Fmt.holds_of_le (by unfold Fmt.unit Fmt.binade; omega) (roundTo_unit_le f m e mode) (magLe_iff.mp h)⟩
  · exact ⟨_, _, rfl, Fmt.holds_max hf⟩

end Sys2Proof.Machine
end

section
/-! PROOF. The encodings of Table 07-1 (07 R197): the fields of a word, and decoding what was encoded. -/

namespace Sys2Proof.Machine

open Sys2Proof

/-! ### The fields of an encoding -/

/-- The encoding with sign `s`, exponent field `x` and mantissa field `y`. -/
def Fmt.word (f : Fmt) (s : Bool) (x y : Nat) : Nat := b2n s * 2 ^ (f.mant + f.expo) + x * 2 ^ f.mant + y

theorem b2n_le_one (s : Bool) : b2n s ≤ 1 := by cases s <;> decide

theorem Fmt.width_eq {f : Fmt} (hf : f.int = false) : f.width = f.mant + f.expo + 1 := by
  cases f with
  | i8 | i32 => exact absurd hf (by decide)
  | _ => rfl

section
variable {f : Fmt} {s : Bool} {x y : Nat} (hx : x < 2 ^ f.expo) (hy : y < 2 ^ f.mant)
include hx hy

/-- Exponent and mantissa field lie below the sign. -/
theorem Fmt.fields_lt : x * 2 ^ f.mant + y < 2 ^ (f.mant + f.expo) :=
  calc x * 2 ^ f.mant + y
      < (x + 1) * 2 ^ f.mant := by rw [add_one_mul]; omega
    _ ≤ 2 ^ f.expo * 2 ^ f.mant := Nat.mul_le_mul_right _ hx
    _ = 2 ^ (f.mant + f.expo) := by rw [← pow_add, Nat.add_comm]

theorem Fmt.word_lt (hf : f.int = false) : f.word s x y < 2 ^ f.width := by
  have hs : b2n s * 2 ^ (f.mant + f.expo) ≤ 1 * 2 ^ (f.mant + f.expo) := Nat.mul_le_mul_right _ (b2n_le_one s)
  have hxy := Fmt.fields_lt hx hy
  rw [Fmt.width_eq hf, pow_succ]
  unfold Fmt.word
  omega

omit hx in
theorem Fmt.bits_word_mant : bits (f.word s x y) 0 f.mant = y := by
  have h : f.word s x y = y + 2 ^ f.mant * (b2n s * 2 ^ f.expo + x) := by unfold Fmt.word; ring
  rw [h, bits, Nat.shiftRight_zero, Nat.add_mul_mod_self_left, Nat.mod_eq_of_lt hy]

theorem Fmt.bits_word_expo : bits (f.word s x y) f.mant f.expo = x := by
  have h : f.word s x y = y + 2 ^ f.mant * (x + 2 ^ f.expo * b2n s) := by unfold Fmt.word; ring
  rw [h, bits, Nat.shiftRight_eq_div_pow, Nat.add_mul_div_left _ _ (Nat.two_pow_pos _), Nat.div_eq_of_lt hy, Nat.zero_add,
    Nat.add_mul_mod_self_left, Nat.mod_eq_of_lt hx]

theorem Fmt.bit_word_sign : bit (f.word s x y) (f.mant + f.expo) = s := by
  have h : f.word s x y = (x * 2 ^ f.mant + y) + 2 ^ (f.mant + f.expo) * b2n s := by unfold Fmt.word; ring
  rw [h, bit, Nat.testBit_eq_decide_div_mod_eq, Nat.add_mul_div_left _ _ (Nat.two_pow_pos _),
    Nat.div_eq_of_lt (Fmt.fields_lt hx hy)]
  cases s <;> rfl

end

/-! ### Which fields decode to a finite value -/

/-- Exponent and mantissa fields that are no infinity and no NaN of the format. -/
def Fmt.Finite (f : Fmt) (x y : Nat) : Prop :=
  (f.hasInf = true → x ≠ 2 ^ f.expo - 1) ∧ (f.hasNan = true → f.hasInf = false → ¬(x = 2 ^ f.expo - 1 ∧ y = 2 ^ f.mant - 1))

theorem Fmt.decode_word {f : Fmt} (hf : f.int = false) (s : Bool) {x y : Nat} (hx : x < 2 ^ f.expo) (hy : y < 2 ^ f.mant)
    (h : f.Finite x y) : f.decode (f.word s x y) =
      if x = 0 then .fin s y (1 - (f.bias : Int) - f.mant) else .fin s (2 ^ f.mant + y) ((x : Int) - f.bias - f.mant) := by
  obtain ⟨hinf, hnan⟩ := h
  have h1 : ¬(f.hasInf && x == 2 ^ f.expo - 1) = true := by simpa using hinf
  have h2 : ¬(f.hasNan && !f.hasInf && x == 2 ^ f.expo - 1 && y == 2 ^ f.mant - 1) = true := by simpa using hnan
  unfold Fmt.decode
  simp only [hf, Fmt.bits_word_mant hy, Fmt.bits_word_expo hx hy, Fmt.bit_word_sign hx hy]
  rw [if_neg Bool.false_ne_true, if_neg h1, if_neg h2]

theorem Fmt.finite_zero {f : Fmt} (hf : f.int = false) (y : Nat) : f.Finite 0 y := by
  have h : 0 ≠ 2 ^ f.expo - 1 := by
    cases f with
    | i8 | i32 => exact absurd hf (by decide)
    | _ => decide
  exact ⟨fun _ => h, fun _ _ h' => h h'.1⟩

/-- The largest finite value lies below the binade of the first exponent field without finite values. -/
theorem Fmt.mag_max_lt {f : Fmt} (hf : f.int = false) :
    mag f.maxFin.1 f.maxFin.2 < 2 ^ ((2 ^ f.expo - b2n f.hasInf : Nat) - (f.bias : Int)) := by
  cases f with
  | i8 | i32 => exact absurd hf (by decide)
  | _ => norm_num [mag, Fmt.maxFin, Fmt.expo, Fmt.hasInf, Fmt.bias, b2n]

/-- F8A alone has a NaN and no infinity: one mantissa field of its highest binade. -/
theorem Fmt.eq_f8a {f : Fmt} (hnan : f.hasNan = true) (hinf : f.hasInf = false) : f = .f8a := by
  cases f with
  | f8a => rfl
  | f4 | f6a | f6b | i8 | i32 => exact absurd hnan (by decide)
  | f8b | b16 | h16 | f32 => exact absurd hinf (by decide)

/-- A normal number no larger than the largest finite value has fields of the format, which are no infinity and no NaN. -/
theorem Fmt.finite_of_le_max {f : Fmt} (hf : f.int = false) {x y : Nat}
    (h : mag (2 ^ f.mant + y) ((x : Int) - f.bias - f.mant) ≤ mag f.maxFin.1 f.maxFin.2) : x < 2 ^ f.expo ∧ f.Finite x y := by
  have hpow : (2 : ℚ) ^ ((x : Int) - f.bias) ≤ mag (2 ^ f.mant + y) ((x : Int) - f.bias - f.mant) :=
    calc (2 : ℚ) ^ ((x : Int) - f.bias) = mag (2 ^ f.mant) ((x : Int) - f.bias - f.mant) := by
          rw [← Nat.one_shiftLeft, mag_shiftLeft, mag, Nat.cast_one, one_mul, sub_add_cancel]
      _ ≤ _ := mag_le_mag.mpr (Nat.le_add_right _ _)
  have hx : x < 2 ^ f.expo - b2n f.hasInf := by
    have := (zpow_lt_zpow_iff_right₀ one_lt_two).mp ((hpow.trans h).trans_lt (Fmt.mag_max_lt hf))
    omega
  refine ⟨hx.trans_le (Nat.sub_le _ _), fun hinf => ?_, fun hnan hinf hxy => ?_⟩
  · rw [hinf] at hx
    exact hx.ne
  · obtain rfl := Fmt.eq_f8a hnan hinf
    obtain ⟨rfl, rfl⟩ := hxy
    norm_num [mag, Fmt.mant, Fmt.expo, Fmt.bias, Fmt.maxFin] at h

/-! ### Decoding what was encoded -/

theorem Fmt.encode_zero {f : Fmt} (hf : f.int = false) (s : Bool) (e : Int) : f.encode (.fin s 0 e) = f.word s 0 0 := by
  simp [Fmt.encode, hf, Fmt.word]

/-- A finite value that is not 0 is encoded by its units; below 2^mant of them it is subnormal. -/
theorem Fmt.encode_fin {f : Fmt} (hf : f.int = false) (s : Bool) {m : Nat} (hm : m ≠ 0) (e : Int) : f.encode (.fin s m e) =
    if roundTo m e (f.unit m e) .rz < 2 ^ f.mant then f.word s 0 (roundTo m e (f.unit m e) .rz)
    else f.word s (f.binade m e + f.bias).toNat (roundTo m e (f.unit m e) .rz - 2 ^ f.mant) := by
  have h : f.encode (.fin s m e) = _ := (if_neg (by simp [hf])).trans (if_neg hm)
  rw [h]
  simp only [Fmt.word, Nat.zero_mul, Nat.add_zero]
  rfl

/-- Only in the lowest binade has a value fewer than 2^mant units. -/
theorem binade_of_units_lt {f : Fmt} {m : Nat} (hm : m ≠ 0) {e : Int} (h : roundTo m e (f.unit m e) .rz < 2 ^ f.mant) :
    f.binade m e = 1 - (f.bias : Int) := by
  by_contra hne
  have hb : f.binade m e = Nat.log2 m + e := by unfold Fmt.binade at hne ⊢; omega
  have hu : f.unit m e = Nat.log2 m + e - f.mant := by rw [Fmt.unit, hb]
  have hlog : 2 ^ Nat.log2 m ≤ m := Nat.log2_self_le hm
  refine h.not_ge ?_
  rcases Int.lt_or_le e (f.unit m e) with hlt | hle
  · rw [roundTo_rz hlt, Nat.le_div_iff_mul_le (Nat.two_pow_pos _), ← pow_add]
    exact (Nat.pow_le_pow_right two_pos (by omega)).trans hlog
  · rw [roundTo_of_le hle, Nat.shiftLeft_eq]
    calc 2 ^ f.mant ≤ 2 ^ (Nat.log2 m + (e - f.unit m e).toNat) := Nat.pow_le_pow_right two_pos (by omega)
      _ = 2 ^ Nat.log2 m * 2 ^ (e - f.unit m e).toNat := pow_add _ _ _
      _ ≤ m * 2 ^ (e - f.unit m e).toNat := Nat.mul_le_mul_right _ hlog

/-- A value of the format encodes to a word of its width, which decodes to its sign and magnitude. -/
theorem Fmt.decode_encode {f : Fmt} (hf : f.int = false) (s : Bool) {m : Nat} {e : Int} (h : f.Holds m e) :
    ∃ n u, f.decode (f.encode (.fin s m e)) = .fin s n u ∧ mag n u = mag m e ∧ f.encode (.fin s m e) < 2 ^ f.width := by
  obtain ⟨hdvd, hmax⟩ := h
  rcases eq_or_ne m 0 with rfl | hm
  · rw [Fmt.encode_zero hf, Fmt.decode_word hf s (Nat.two_pow_pos _) (Nat.two_pow_pos _) (Fmt.finite_zero hf 0)]
    exact ⟨0, _, rfl, by simp [mag], Fmt.word_lt (Nat.two_pow_pos _) (Nat.two_pow_pos _) hf⟩
  have hmag := mag_roundTo_rz hdvd
  have hlt := roundTo_rz_unit_lt f m e
  have hlow : 1 - (f.bias : Int) ≤ f.binade m e := le_max_right _ _
  have hbin : roundTo m e (f.unit m e) .rz < 2 ^ f.mant → f.binade m e = 1 - (f.bias : Int) := binade_of_units_lt hm
  rw [Fmt.encode_fin hf s hm]
  rw [Fmt.unit] at hmag hlt hbin ⊢
  generalize roundTo m e (f.binade m e - f.mant) .rz = n at hmag hlt hbin ⊢
  split
  · next hsub =>
    rw [hbin hsub] at hmag
    rw [Fmt.decode_word hf s (Nat.two_pow_pos _) hsub (Fmt.finite_zero hf n)]
    exact ⟨_, _, rfl, hmag, Fmt.word_lt (Nat.two_pow_pos _) hsub hf⟩
  · next hnorm =>
    obtain ⟨y, rfl⟩ := Nat.exists_eq_add_of_le (Nat.le_of_not_lt hnorm)
    obtain ⟨x, hx⟩ := Int.eq_ofNat_of_zero_le (show 0 ≤ f.binade m e + f.bias by omega)
    rw [show f.binade m e = (x : Int) - f.bias by omega] at hmag
    have hy : y < 2 ^ f.mant := by rw [pow_succ] at hlt; omega
    obtain ⟨hexp, hfin⟩ := Fmt.finite_of_le_max hf (hmag.trans_le hmax)
    rw [hx, Int.toNat_natCast, Nat.add_sub_cancel_left, Fmt.decode_word hf s hexp hy hfin, if_neg (by omega)]
    exact ⟨_, _, rfl, hmag, Fmt.word_lt hexp hy hf⟩

/-! ### Format codes (R197) -/

theorem Fmt.ofCode_none {code : Nat} (h : 10 ≤ code) : Fmt.ofCode code = none := by
  obtain ⟨k, rfl⟩ := Nat.exists_eq_add_of_le' h
  rfl

/-- Settles O14: rounding gives a value of the format (`rnd_fin_holds`), whose encoding decodes to its sign and magnitude
(`Fmt.decode_encode`); of the modes each gives the quotient by the unit or one more (`roundTo_quotient`). -/
theorem roundingAndEncoding : Obligations.RoundingAndEncoding := by
  unfold Obligations.RoundingAndEncoding
  refine ⟨?_, ?_, ?_, fun _ => Fmt.ofCode_none⟩
  · intro f mode s m e hf
    obtain ⟨n, u, hrnd, hholds⟩ := rnd_fin_holds hf mode s m e
    obtain ⟨n', u', hdec, hmag, hlt⟩ := Fmt.decode_encode hf s hholds
    rw [hrnd, hdec]
    exact ⟨eqv_of_mag hmag, rfl, hlt⟩
  · intro m e u r h hr
    exact ⟨roundTo_rn_nearest h, roundTo_rz h, roundTo_quotient h _, roundTo_rs_exact h hr⟩
  · intro f code h
    by_contra hcode
    rw [Fmt.ofCode_none (by omega)] at h
    cases h

end Sys2Proof.Machine
end

section
/-! PROOF. Ordered reduction (08 R233, R234): a partial stands for its block, and arrival order plays no part. -/

namespace Sys2Proof.Machine

open Sys2Proof

/-! ### The recursion of `node` -/

/-- An input that starts among `size` ranks from `a`. -/
def startsIn (a size : Nat) (m : Nat × Nat × Vals) : Bool := decide (a ≤ m.1) && decide (m.1 < a + size)

/-- An input that is the node (lo, 2^k) itself, cut off at `n` ranks. -/
def fillsNode (n k lo : Nat) (m : Nat × Nat × Vals) : Bool := m.1 == lo && m.2.1 == min (2 ^ k) (n - lo)

theorem startsIn_iff {a size : Nat} {m : Nat × Nat × Vals} : startsIn a size m = true ↔ a ≤ m.1 ∧ m.1 < a + size := by
  simp [startsIn]

theorem fillsNode_iff {n k lo : Nat} {m : Nat × Nat × Vals} :
    fillsNode n k lo m = true ↔ m.1 = lo ∧ m.2.1 = min (2 ^ k) (n - lo) := by
  simp [fillsNode]

theorem combineOpt_none_right (h : List Byte) (a : Option Vals) : (combineOpt h a none).1 = a := by cases a <;> rfl

section
variable {h : List Byte} {n k lo : Nat} {ms : List (Nat × Nat × Vals)} {m : Nat × Nat × Vals}

theorem node_of_find_some (hf : ms.find? (fillsNode n k lo) = some m) : node h n ms k lo = (some m.2.2, {}) := by
  unfold fillsNode at hf
  rw [node.eq_def]
  simp only [hf]

theorem node_zero_of_find_none (hf : ms.find? (fillsNode n 0 lo) = none) : node h n ms 0 lo = (none, {}) := by
  unfold fillsNode at hf
  rw [node.eq_def]
  simp only [hf]

theorem node_nil (k lo : Nat) : node h n [] k lo = (none, {}) := by
  cases k with
  | zero => rfl
  | succ k => rw [node.eq_def]; rfl

/-- The halves of a node without an input of its own are the nodes of the inputs that start in them. -/
theorem node_succ_of_find_none (hf : ms.find? (fillsNode n (k + 1) lo) = none) :
    node h n ms (k + 1) lo =
      let a := node h n (ms.filter (startsIn lo (2 ^ k))) k lo
      let b := node h n (ms.filter (startsIn (lo + 2 ^ k) (2 ^ k))) k (lo + 2 ^ k)
      ((combineOpt h a.1 b.1).1, (a.2.add b.2).add (combineOpt h a.1 b.1).2) := by
  have skip (l : List (Nat × Nat × Vals)) (a : Nat) :
      (if l.isEmpty then (none, {}) else node h n l k a) = node h n l k a := by
    cases l with
    | nil => exact (node_nil k a).symm
    | cons m l => rfl
  unfold fillsNode at hf
  rw [node.eq_def]
  simp only [hf, skip]
  rfl

end

/-! ### A partial for a block -/

/-- The inputs after those that start in the block of 2^j ranks at `b` have become one partial of value `x`. -/
def withPartial (n j b : Nat) (x : Vals) (ms : List (Nat × Nat × Vals)) : List (Nat × Nat × Vals) :=
  ms.filter (fun m => !startsIn b (2 ^ j) m) ++ [(b, min (2 ^ j) (n - b), x)]

section
variable {h : List Byte} {n j k b lo : Nat} {x : Vals} {ms : List (Nat × Nat × Vals)}

/-- The partial is the only input of its block. -/
theorem find_withPartial (hb : lo = b) (hk : min (2 ^ k) (n - b) = min (2 ^ j) (n - b)) :
    (withPartial n j b x ms).find? (fillsNode n k lo) = some (b, min (2 ^ j) (n - b), x) := by
  subst hb
  rw [withPartial, List.find?_append, List.find?_eq_none.mpr, Option.none_or, List.find?_singleton]
  · exact if_pos (fillsNode_iff.mpr ⟨rfl, hk.symm⟩)
  intro m hm hf
  obtain ⟨hlo, -⟩ := fillsNode_iff.mp hf
  have := (List.mem_filter.mp hm).2
  simp [startsIn, hlo] at this

/-- Before the block the inputs are as they were. -/
theorem find_withPartial_of_lt (hlt : lo < b) :
    (withPartial n j b x ms).find? (fillsNode n k lo) = ms.find? (fillsNode n k lo) := by
  have hlast : fillsNode n k lo (b, min (2 ^ j) (n - b), x) = false := by simp [fillsNode]; omega
  rw [withPartial, List.find?_append, List.find?_filter, List.find?_singleton, hlast, if_neg Bool.false_ne_true, Option.or_none]
  refine List.find?_congr fun m _ => ?_
  by_cases hf : fillsNode n k lo m = true
  · have : startsIn b (2 ^ j) m = false := by
      obtain ⟨hm, -⟩ := fillsNode_iff.mp hf
      simp [startsIn]; omega
    simp [hf, this]
  · simp [hf]

/-- A half that contains the block keeps the partial. -/
theorem filter_withPartial_in {a : Nat} (ha : startsIn a (2 ^ k) (b, min (2 ^ j) (n - b), x) = true) :
    (withPartial n j b x ms).filter (startsIn a (2 ^ k)) = withPartial n j b x (ms.filter (startsIn a (2 ^ k))) := by
  simp only [withPartial, List.filter_append, List.filter_filter, List.filter_singleton, ha, Bool.and_comm, cond_true]

/-- A half apart from the block loses nothing. -/
theorem filter_withPartial_out {a : Nat} (ha : a + 2 ^ k ≤ b ∨ b + 2 ^ j ≤ a) :
    (withPartial n j b x ms).filter (startsIn a (2 ^ k)) = ms.filter (startsIn a (2 ^ k)) := by
  have hj := Nat.two_pow_pos j
  have hlast : startsIn a (2 ^ k) (b, min (2 ^ j) (n - b), x) = false := by simp [startsIn]; omega
  simp only [withPartial, List.filter_append, List.filter_filter, List.filter_singleton, hlast, cond_false, List.append_nil]
  refine List.filter_congr fun m _ => ?_
  by_cases hm : startsIn a (2 ^ k) m = true
  · have : startsIn b (2 ^ j) m = false := by
      have := startsIn_iff.mp hm
      simp [startsIn]; omega
    simp [hm, this]
  · simp [hm]

/-- Inputs of a block are inputs of a half that contains the block. -/
theorem filter_block_of_subset {a : Nat} (ha : a ≤ b) (hb : b + 2 ^ j ≤ a + 2 ^ k) :
    (ms.filter (startsIn a (2 ^ k))).filter (startsIn b (2 ^ j)) = ms.filter (startsIn b (2 ^ j)) := by
  rw [List.filter_filter]
  refine List.filter_congr fun m _ => ?_
  by_cases hm : startsIn b (2 ^ j) m = true
  · have : startsIn a (2 ^ k) m = true := by
      have := startsIn_iff.mp hm
      exact startsIn_iff.mpr (by omega)
    simp [hm, this]
  · simp [hm]

/-- A node is made of the inputs that start among its ranks. -/
theorem node_filter : node h n (ms.filter (startsIn lo (2 ^ k))) k lo = node h n ms k lo := by
  have hfind : (ms.filter (startsIn lo (2 ^ k))).find? (fillsNode n k lo) = ms.find? (fillsNode n k lo) := by
    rw [List.find?_filter]
    refine List.find?_congr fun m _ => ?_
    by_cases hf : fillsNode n k lo m = true
    · obtain ⟨hm, -⟩ := fillsNode_iff.mp hf
      have hk := Nat.two_pow_pos k
      have : startsIn lo (2 ^ k) m = true := startsIn_iff.mpr (by omega)
      simp [hf, this]
    · simp [hf]
  cases hf : ms.find? (fillsNode n k lo) with
  | some m => rw [node_of_find_some hf, node_of_find_some (hfind.trans hf)]
  | none =>
    cases k with
    | zero => rw [node_zero_of_find_none hf, node_zero_of_find_none (hfind.trans hf)]
    | succ k =>
      have hk := Nat.two_pow_pos k
      rw [node_succ_of_find_none hf, node_succ_of_find_none (hfind.trans hf), filter_block_of_subset le_rfl (by omega),
        filter_block_of_subset (Nat.le_add_right _ _) (by omega)]

/-- Past the last rank a node holds nothing, so that one of more ranks has the same value. -/
theorem node_cut (hjk : j ≤ k) (hn : n ≤ lo + 2 ^ j) (hms : ∀ m ∈ ms, m.1 < n) :
    (node h n ms k lo).1 = (node h n ms j lo).1 := by
  induction k, hjk using Nat.le_induction with
  | base => rfl
  | succ k hk ih =>
    have hpow : n ≤ lo + 2 ^ k := hn.trans (Nat.add_le_add_left (Nat.pow_le_pow_right two_pos hk) lo)
    have hpow' : 2 ^ (k + 1) = 2 ^ k + 2 ^ k := by rw [pow_succ]; omega
    have hsame : fillsNode n (k + 1) lo = fillsNode n k lo := by
      have hcut : n - lo ≤ 2 ^ k := Nat.sub_le_iff_le_add'.mpr hpow
      have : min (2 ^ (k + 1)) (n - lo) = min (2 ^ k) (n - lo) := by rw [min_eq_right hcut, min_eq_right (by omega)]
      unfold fillsNode; rw [this]
    rw [← ih]
    cases hf : ms.find? (fillsNode n (k + 1) lo) with
    | some m => rw [node_of_find_some hf, node_of_find_some (hsame ▸ hf)]
    | none =>
      have hr : ms.filter (startsIn (lo + 2 ^ k) (2 ^ k)) = [] :=
        List.filter_eq_nil_iff.mpr fun m hm hs => by
          have := hms m hm
          have := startsIn_iff.mp hs
          omega
      rw [node_succ_of_find_none hf, node_filter, hr, node_nil]
      exact combineOpt_none_right h _

/-- An aligned block that starts before an aligned end stops before it. -/
theorem block_le_of_lt {c b e : Nat} (hb : c ∣ b) (he : c ∣ e) (h : b < e) : b + c ≤ e :=
  Nat.le_of_lt_add_of_dvd (Nat.add_lt_add_right h c) (Nat.dvd_add hb (dvd_refl c)) he

/-- An input that starts at the block and fills a larger node would reach beyond it. -/
theorem find_none_of_block {ms : List (Nat × Nat × Vals)} (hjk : j ≤ k) (hn : b + 2 ^ j < n)
    (hms : ∀ m ∈ ms, b ≤ m.1 → m.1 < b + 2 ^ j → m.1 + m.2.1 ≤ b + 2 ^ j) :
    ms.find? (fillsNode n (k + 1) b) = none := by
  have hpow : 2 ^ j < 2 ^ (k + 1) := Nat.pow_lt_pow_right one_lt_two (by omega)
  have hj := Nat.two_pow_pos j
  refine List.find?_eq_none.mpr fun m hm hf => ?_
  obtain ⟨hm1, hm2⟩ := fillsNode_iff.mp hf
  have := hms m hm (by omega) (by omega)
  omega

/-- The partial alone starts at its block, and it does not fill a larger node. -/
theorem find_withPartial_none (hjk : j ≤ k) (hn : b + 2 ^ j < n) :
    (withPartial n j b x ms).find? (fillsNode n (k + 1) b) = none := by
  have hj := Nat.two_pow_pos j
  refine find_none_of_block hjk hn fun m hm h1 h2 => ?_
  rcases List.mem_append.mp hm with hm | hm
  · have : startsIn b (2 ^ j) m = true := startsIn_iff.mpr ⟨h1, h2⟩
    simp [this] at hm
  · rw [List.mem_singleton.mp hm]
    exact Nat.add_le_add_left (Nat.min_le_left _ _) _

/-- A node is the same when the inputs of an aligned block in it are one partial with the value of the block's own node. -/
theorem node_withPartial (hb : b % 2 ^ j = 0) (hbn : b < n) (hjk : j ≤ k) (hlo : lo % 2 ^ k = 0) (h1 : lo ≤ b)
    (h2 : b < lo + 2 ^ k) (hms : ∀ m ∈ ms, m.1 < n)
    (hin : ∀ m ∈ ms, b ≤ m.1 → m.1 < b + 2 ^ j → m.1 + m.2.1 ≤ b + 2 ^ j)
    (hx : (node h n (ms.filter (startsIn b (2 ^ j))) j b).1 = some x) :
    (node h n (withPartial n j b x ms) k lo).1 = (node h n ms k lo).1 := by
  have hbj := Nat.dvd_of_mod_eq_zero hb
  induction k, hjk using Nat.le_induction generalizing ms lo with
  | base =>
    obtain rfl | hlt := h1.eq_or_lt
    · rw [node_of_find_some (find_withPartial rfl rfl), ← node_filter (ms := ms), hx]
    · have := block_le_of_lt (Nat.dvd_of_mod_eq_zero hlo) hbj hlt
      omega
  | succ k hk ih =>
    have hpow : 2 ^ (k + 1) = 2 ^ k + 2 ^ k := by rw [pow_succ]; omega
    have hjk : 2 ^ j ∣ 2 ^ k := Nat.pow_dvd_pow 2 hk
    have hlok : lo % 2 ^ k = 0 := Nat.mod_eq_zero_of_dvd ((Nat.pow_dvd_pow 2 k.le_succ).trans (Nat.dvd_of_mod_eq_zero hlo))
    have half (a : Nat) (ha : a % 2 ^ k = 0) :
        (node h n ((withPartial n j b x ms).filter (startsIn a (2 ^ k))) k a).1 =
          (node h n (ms.filter (startsIn a (2 ^ k))) k a).1 := by
      have haj := hjk.trans (Nat.dvd_of_mod_eq_zero ha)
      rcases Nat.lt_or_ge b a with hba | hab
      · rw [filter_withPartial_out (Or.inr (block_le_of_lt hbj haj hba))]
      rcases Nat.lt_or_ge b (a + 2 ^ k) with hba | hba
      · rw [filter_withPartial_in (startsIn_iff.mpr ⟨hab, hba⟩)]
        exact ih ha hab hba (fun m hm => hms m (List.mem_of_mem_filter hm)) (fun m hm => hin m (List.mem_of_mem_filter hm))
          (by rwa [filter_block_of_subset hab (block_le_of_lt hbj (Nat.dvd_add haj hjk) hba)])
      · rw [filter_withPartial_out (Or.inl hba)]
    have descend (hp : (withPartial n j b x ms).find? (fillsNode n (k + 1) lo) = none)
        (hf : ms.find? (fillsNode n (k + 1) lo) = none) :
        (node h n (withPartial n j b x ms) (k + 1) lo).1 = (node h n ms (k + 1) lo).1 := by
      rw [node_succ_of_find_none hp, node_succ_of_find_none hf]
      simp only [half lo hlok, half (lo + 2 ^ k) (by rw [Nat.add_mod_right, hlok])]
    obtain rfl | hlt := h1.eq_or_lt
    · rcases Nat.lt_or_ge (lo + 2 ^ j) n with hn | hn
      · exact descend (find_withPartial_none hk hn) (find_none_of_block hk hn hin)
      · have hcut (i : Nat) (hi : j ≤ i) : min (2 ^ i) (n - lo) = n - lo :=
          min_eq_right (Nat.sub_le_iff_le_add'.mpr (hn.trans (Nat.add_le_add_left (Nat.pow_le_pow_right two_pos hi) lo)))
        rw [node_of_find_some (find_withPartial rfl (by rw [hcut _ (by omega), hcut j le_rfl])), node_cut (by omega) hn hms,
          ← node_filter, hx]
    · cases hf : ms.find? (fillsNode n (k + 1) lo) with
      | some m => rw [node_of_find_some hf, node_of_find_some ((find_withPartial_of_lt hlt).trans hf)]
      | none => exact descend ((find_withPartial_of_lt hlt).trans hf) hf

end

/-! ### The order of the inputs -/

/-- Of inputs with distinct ranges one at most fills a node. -/
theorem fillsNode_subsingleton {n k lo : Nat} {ms : List (Nat × Nat × Vals)} (hd : (ms.map (fun m => (m.1, m.2.1))).Nodup) :
    {m ∈ ms | fillsNode n k lo m}.Subsingleton := by
  rintro m ⟨hm, hf⟩ m' ⟨hm', hf'⟩
  obtain ⟨h1, h2⟩ := fillsNode_iff.mp hf
  obtain ⟨h1', h2'⟩ := fillsNode_iff.mp hf'
  exact List.inj_on_of_nodup_map hd hm hm' (Prod.ext (h1.trans h1'.symm) (h2.trans h2'.symm))

theorem node_perm {h : List Byte} {n k lo : Nat} {ms ms' : List (Nat × Nat × Vals)} (hp : ms.Perm ms')
    (hd : (ms.map (fun m => (m.1, m.2.1))).Nodup) : node h n ms k lo = node h n ms' k lo := by
  induction k generalizing ms ms' lo with
  | zero =>
    have hfind := List.find?_eq_find?_of_perm hp (fillsNode_subsingleton (n := n) (k := 0) (lo := lo) hd)
    cases hf : ms.find? (fillsNode n 0 lo) with
    | some m => rw [node_of_find_some hf, node_of_find_some (hfind ▸ hf)]
    | none => rw [node_zero_of_find_none hf, node_zero_of_find_none (hfind ▸ hf)]
  | succ k ih =>
    have hfind := List.find?_eq_find?_of_perm hp (fillsNode_subsingleton (n := n) (k := k + 1) (lo := lo) hd)
    have half (a : Nat) : node h n (ms.filter (startsIn a (2 ^ k))) k a = node h n (ms'.filter (startsIn a (2 ^ k))) k a :=
      ih (hp.filter _) (hd.sublist (List.filter_sublist.map _))
    cases hf : ms.find? (fillsNode n (k + 1) lo) with
    | some m => rw [node_of_find_some hf, node_of_find_some (hfind ▸ hf)]
    | none => rw [node_succ_of_find_none hf, node_succ_of_find_none (hfind ▸ hf), half, half]

/-- Settles O15, by induction on the exponent of the node: the partial stands where its block's node stood
(`node_withPartial`), and of inputs with distinct ranges one at most fills a node, whatever their order (`node_perm`). -/
theorem orderedReduction : Obligations.OrderedReduction := by
  unfold Obligations.OrderedReduction
  exact ⟨fun h n ms j k b lo x hb hbn hjk hlo h1 h2 hms hin hx => node_withPartial hb hbn hjk hlo h1 h2 hms hin hx,
    fun h n ms ms' k lo hp hd => node_perm hp hd⟩

end Sys2Proof.Machine
end

section
/-! SUPPORT. Frames that a Tally engine sends, and what sending and releasing leave unchanged (08 R223, R226, R240 to R248). -/

namespace Sys2Proof.Machine

open Sys2Proof

/-! ### What the rows of a Tally engine leave unchanged -/

theorem coll_of_offBuf {s t : State} (h : t.offBuf = s.offBuf) : t.coll = s.coll := (congrArg State.coll h :)

section
variable (s : State)

@[simp] theorem offBuf_enterUnit (w : WaitFrame) : (s.enterUnit w).offBuf = s.offBuf := by
  unfold State.enterUnit
  split
  · rw [offBuf_letIn, offBuf_chargeAlloc]
  · rfl

@[simp] theorem offBuf_sendTally (die lk : Nat) (tag : TallyTag) (f : Frame) : (s.sendTally die lk tag f).offBuf = s.offBuf := by
  unfold State.sendTally
  extract_lets t w resv _ w'
  split
  · exact offBuf_letIn ..
  · exact offBuf_enterUnit ..

@[simp] theorem offBuf_sendDown (tag : TallyTag) (g : Group) (m : Member) (cells : List Byte) :
    (s.sendDown tag g m cells).offBuf = s.offBuf := offBuf_sendTally ..

@[simp] theorem offBuf_sendUp (g : Group) (tag : TallyTag) (cells : List Byte) : (s.sendUp g tag cells).offBuf = s.offBuf := by
  unfold State.sendUp
  split
  · rfl
  · exact offBuf_sendTally ..

@[simp] theorem offBuf_sendErrors (no : Nat) (g : Group) (h : List Byte) (seq status eflags : Nat) (cell : List Byte) :
    (s.sendErrors no g h seq status eflags cell).offBuf = s.offBuf :=
  foldl_view State.offBuf (fun _ _ => (offBuf_bump ..).trans (offBuf_sendDown ..)) _ s

@[simp] theorem offBuf_sendDone (no : Nat) (g : Group) (h : List Byte) (seq : Nat) : (s.sendDone no g h seq).offBuf = s.offBuf :=
  foldl_view State.offBuf (fun _ _ => offBuf_sendDown ..) _ s

@[simp] theorem offHanks_releaseHeld (q : QFrame) : (s.releaseHeld q).offHanks = s.offHanks :=
  foldl_view State.offHanks (fun _ _ => offHanks_freeHank ..) _ s

@[simp] theorem offHanks_releaseColl (c : Coll) : (s.releaseColl c).offHanks = s.offHanks :=
  foldl_view State.offHanks (fun s _ => foldl_view State.offHanks (fun _ _ => offHanks_releaseHeld ..) _ s) _ s

@[simp] theorem offBuf_stopSending (no seq : Nat) : (s.stopSending no seq).offBuf = s.offBuf :=
  foldl_view State.offBuf (fun _ _ => offBuf_consume ..) _ (s.setBuf _)

theorem wait_setFrames (fs : List QFrame) : (s.setFrames fs).buf.wait = s.buf.wait :=
  (congrArg (fun s : State => s.buf.wait) (offTags_setFrames s fs) :)

theorem wait_of_offHanks {s t : State} (h : t.offHanks = s.offHanks) : t.buf.wait = s.buf.wait :=
  (congrArg (fun s : State => s.buf.wait) h :)

end

/-! ### Frames that are on their way -/

/-- A frame with these fields is queued for the link, or waits to enter its queue. -/
def State.OnItsWay (s : State) (lk ty vc dst : Nat) (cells : List Byte) : Prop :=
  ∃ fr : Frame, ((∃ y ∈ s.buf.frames, y.f = fr ∧ y.dest = .link lk) ∨ (∃ w ∈ s.buf.wait, w.q.f = fr ∧ w.todo = .tally lk)) ∧
    fr.ty = ty ∧ fr.vc = vc ∧ fr.dst = dst ∧ fr.cells = cells

/-- Every frame that is queued or waits in `s` does so in `t`. -/
structure FramesStay (s t : State) : Prop where
  queued : ∀ y ∈ s.buf.frames, ∃ x ∈ t.buf.frames, x.bare = y.bare
  waiting : ∀ w ∈ s.buf.wait, w ∈ t.buf.wait

section
variable {s t u : State}

theorem FramesStay.of_eq (hf : t.buf.frames = s.buf.frames) (hw : t.buf.wait = s.buf.wait) : FramesStay s t :=
  ⟨fun y hy => ⟨y, hf ▸ hy, rfl⟩, fun _ h => hw ▸ h⟩

theorem FramesStay.of_offHanks (h : t.offHanks = s.offHanks) : FramesStay s t :=
  .of_eq (frames_of_offHanks h) (wait_of_offHanks h)

theorem FramesStay.trans (h1 : FramesStay s t) (h2 : FramesStay t u) : FramesStay s u := by
  refine ⟨fun y hy => ?_, fun w h => h2.waiting w (h1.waiting w h)⟩
  obtain ⟨x, hx, hxy⟩ := h1.queued y hy
  obtain ⟨z, hz, hzx⟩ := h2.queued x hx
  exact ⟨z, hz, hzx.trans hxy⟩

theorem State.OnItsWay.stay {lk ty vc dst : Nat} {cells : List Byte} (h : s.OnItsWay lk ty vc dst cells) (hst : FramesStay s t) :
    t.OnItsWay lk ty vc dst cells := by
  obtain ⟨fr, hq | ⟨w, hw, hwf⟩, hfr⟩ := h
  · obtain ⟨y, hy, hyf, hyd⟩ := hq
    obtain ⟨x, hx, hxy⟩ := hst.queued y hy
    have hxf : x.f = y.f := (congrArg QFrame.f hxy :)
    have hxd : x.dest = y.dest := (congrArg QFrame.dest hxy :)
    exact ⟨fr, Or.inl ⟨x, hx, hxf.trans hyf, hxd.trans hyd⟩, hfr⟩
  · exact ⟨fr, Or.inr ⟨w, hst.waiting w hw, hwf⟩, hfr⟩

end

section
variable (s : State)

/-- A frame that is put into its queue moves no other. -/
theorem framesStay_enqueue (q : QFrame) : FramesStay s (s.enqueue q) := by
  refine ⟨fun y hy => ?_, fun w h => ?_⟩
  · rw [frames_enqueue]
    exact mem_setFrames _ (List.mem_append_left _ hy)
  · have hw : (s.enqueue q).buf.wait = s.buf.wait := by
      unfold State.enqueue
      extract_lets r v _ t
      have ht : t.buf.wait = s.buf.wait :=
        (wait_of_offHanks (offHanks_freshHanks ..)).trans ((wait_of_offHanks (offHanks_noteTorn ..)).trans (wait_setFrames ..))
      split
      · exact ht
      · exact ht
    exact hw ▸ h

theorem enqueueUnit_queued (q : QFrame) : FramesStay s (s.enqueueUnit q none) ∧
    ∃ y ∈ (s.enqueueUnit q none).buf.frames, y.f = q.f ∧ y.dest = q.dest := by
  have he : s.enqueueUnit q none = s.enqueue { q with store := s.storeCause q.dest q.f.vc (fun _ => false) false } := rfl
  rw [he]
  obtain ⟨y, hy, hb⟩ := mem_enqueue (s := s) (q := { q with store := s.storeCause q.dest q.f.vc (fun _ => false) false })
  exact ⟨framesStay_enqueue .., y, hy, (congrArg QFrame.f hb :), (congrArg QFrame.dest hb :)⟩

/-- A Tally frame that enters is queued for its link, with the epoch it is stamped with (05 R162). -/
theorem letIn_tally {w : WaitFrame} {lk : Nat} (hw : w.todo = .tally lk) :
    FramesStay s (s.letIn w) ∧ (s.letIn w).OnItsWay lk w.q.f.ty w.q.f.vc w.q.f.dst w.q.f.cells := by
  unfold State.letIn
  extract_lets t f _ q u
  rw [hw]
  have hu : FramesStay s u := by
    unfold u State.countStamp
    split
    · exact .of_eq rfl rfl
    · exact .of_eq rfl rfl
  have hf : f.ty = w.q.f.ty ∧ f.vc = w.q.f.vc ∧ f.dst = w.q.f.dst ∧ f.cells = w.q.f.cells := by
    unfold f State.stamp
    split
    · exact ⟨rfl, rfl, rfl, rfl⟩
    · extract_lets e
      split
      · exact ⟨rfl, rfl, rfl, rfl⟩
      · exact ⟨rfl, rfl, rfl, rfl⟩
  obtain ⟨hst, y, hy, hyf, hyd⟩ := enqueueUnit_queued u { q with dest := .link lk, path := s.pathFor w.die lk f (s.hashOf f) }
  exact ⟨hu.trans hst, f, Or.inl ⟨y, hy, hyf, hyd⟩, hf⟩

/-- A Tally frame that is sent is on its way, and those before it are still. -/
theorem enterUnit_tally {w : WaitFrame} {lk : Nat} (hw : w.todo = .tally lk) :
    FramesStay s (s.enterUnit w) ∧ (s.enterUnit w).OnItsWay lk w.q.f.ty w.q.f.vc w.q.f.dst w.q.f.cells := by
  unfold State.enterUnit
  split
  · obtain ⟨hst, hon⟩ := letIn_tally (s.chargeAlloc w.die w.kind) hw
    have hc : FramesStay s (s.chargeAlloc w.die w.kind) := .of_eq rfl rfl
    exact ⟨hc.trans hst, hon⟩
  · exact ⟨⟨fun y hy => ⟨y, hy, rfl⟩, fun x hx => List.mem_append_left _ hx⟩,
      w.q.f, Or.inr ⟨w, List.mem_append_right _ (List.mem_singleton.mpr rfl), rfl, hw⟩, rfl, rfl, rfl, rfl⟩

theorem sendTally_sent (die lk : Nat) (tag : TallyTag) (f : Frame) :
    FramesStay s (s.sendTally die lk tag f) ∧ (s.sendTally die lk tag f).OnItsWay lk f.ty f.vc f.dst f.cells := by
  unfold State.sendTally
  extract_lets t w resv _ w'
  have ht : FramesStay s t := .of_eq rfl rfl
  have hto : w'.todo = .tally lk := rfl
  split
  · obtain ⟨hst, hon⟩ := letIn_tally t hto
    exact ⟨ht.trans hst, hon⟩
  · obtain ⟨hst, hon⟩ := enterUnit_tally t hto
    exact ⟨ht.trans hst, hon⟩

theorem sendDown_sent (tag : TallyTag) (g : Group) (m : Member) (cells : List Byte) :
    FramesStay s (s.sendDown tag g m cells) ∧ (s.sendDown tag g m cells).OnItsWay m.lk 5 4 m.fid cells := sendTally_sent ..

theorem sendUp_sent {g : Group} {lk : Nat} (hp : g.parent = some lk) (tag : TallyTag) (cells : List Byte) :
    FramesStay s (s.sendUp g tag cells) ∧ (s.sendUp g tag cells).OnItsWay lk 4 3 g.parentFid cells := by
  unfold State.sendUp
  rw [hp]
  exact sendTally_sent ..

/-- What is sent to each of a list of members in turn is on its way to all of them. -/
theorem foldl_sent {send : State → Member → State} {cells : Member → List Byte}
    (h : ∀ s m, FramesStay s (send s m) ∧ (send s m).OnItsWay m.lk 5 4 m.fid (cells m)) (ms : List Member) (s : State) :
    FramesStay s (ms.foldl send s) ∧ ∀ m ∈ ms, (ms.foldl send s).OnItsWay m.lk 5 4 m.fid (cells m) := by
  induction ms generalizing s with
  | nil => exact ⟨.of_eq rfl rfl, fun _ h => absurd h List.not_mem_nil⟩
  | cons m ms ih =>
    obtain ⟨hst, hon⟩ := h s m
    obtain ⟨hst', hon'⟩ := ih (send s m)
    refine ⟨hst.trans hst', fun m' hm => ?_⟩
    rcases List.mem_cons.mp hm with rfl | hm
    · exact hon.stay hst'
    · exact hon' m' hm

theorem sendDone_sent (no : Nat) (g : Group) (h : List Byte) (seq : Nat) : ∀ m ∈ g.members,
    (s.sendDone no g h seq).OnItsWay m.lk 5 4 m.fid (headerOf h 4 seq m.lo m.cnt 0 0) := by
  unfold State.sendDone
  exact (foldl_sent (cells := fun m => headerOf h 4 seq m.lo m.cnt 0 0) (fun s _ => sendDown_sent s ..) g.members s).2

theorem sendErrors_sent (no : Nat) (g : Group) (h : List Byte) (seq status eflags : Nat) (cell : List Byte) : ∀ m ∈ g.members,
    (s.sendErrors no g h seq status eflags cell).OnItsWay m.lk 5 4 m.fid (headerOf h 6 seq m.lo m.cnt status eflags ++ cell) := by
  unfold State.sendErrors
  refine (foldl_sent (cells := fun m => headerOf h 6 seq m.lo m.cnt status eflags ++ cell) (fun s m => ?_) g.members s).2
  obtain ⟨hst, hon⟩ := sendDown_sent s { no := no, seq := seq } g m (headerOf h 6 seq m.lo m.cnt status eflags ++ cell)
  have hb (t : State) : FramesStay t (t.bump .coll g.home ccErrSent) := .of_eq rfl rfl
  exact ⟨hst.trans (hb _), hon.stay (hb _)⟩

end

end Sys2Proof.Machine
end

section
/-! SUPPORT. Collectives of a group and the rows of Tally frames (08 R226, R227, R236, R244 to R252). -/

namespace Sys2Proof.Machine

open Sys2Proof

/-! ### Collectives that are over (R236, R252) -/

theorem contains_addNew (l : List Nat) (x : Nat) : (addNew l x).contains x = true := by
  unfold addNew
  split
  · assumption
  · simp

/-- A collective is over, and stays so while the oldest open one moves on by no more than `n` more numbers. -/
def Group.OverFor (g : Group) (seq n : Nat) : Prop :=
  g.closed.contains seq = true ∨ ∃ k, 1 ≤ k ∧ k + n ≤ 2 ^ 31 ∧ g.oldest = (seq + k) % 2 ^ 32

section
variable {g : Group} {seq n : Nat}

theorem Group.late_of_overFor (h : g.OverFor seq n) : g.late seq = true := by
  unfold Group.late
  rcases h with h | ⟨k, h1, hk, ho⟩
  · rw [h, Bool.or_true]
  · have : seqBefore seq g.oldest = true := by
      unfold seqBefore
      rw [ho]
      exact decide_eq_true (by omega)
    rw [this, Bool.true_or]

theorem Group.overFor_advance (h : g.OverFor seq n) (hn : n ≤ 2 ^ 30) : (g.advance n).OverFor seq 0 := by
  induction n generalizing g with
  | zero => exact h
  | succ n ih =>
    unfold Group.advance
    split
    · refine ih ?_ (by omega)
      rcases h with h | ⟨k, h1, hk, ho⟩
      · by_cases hs : g.oldest = seq
        · exact Or.inr ⟨1, le_rfl, by omega, by rw [hs]⟩
        · refine Or.inl ?_
          have hm := List.contains_iff_mem.mp h
          exact List.contains_iff_mem.mpr (List.mem_filter.mpr ⟨hm, by simpa using fun e => hs e.symm⟩)
      · exact Or.inr ⟨k + 1, by omega, by omega, by
          show (g.oldest + 1) % 2 ^ 32 = _
          rw [ho]
          omega⟩
    · rcases h with h | ⟨k, h1, hk, ho⟩
      · exact Or.inl h
      · exact Or.inr ⟨k, h1, by omega, ho⟩

theorem Group.colls_advance (g : Group) (n : Nat) : (g.advance n).colls = g.colls := by
  induction n generalizing g with
  | zero => rfl
  | succ n ih =>
    unfold Group.advance
    split
    · exact ih _
    · rfl

/-- A collective that is closed is over. -/
theorem Group.late_close (hg : g.closed.length < 2 ^ 30) (seq : Nat) : (g.close seq).late seq = true :=
  Group.late_of_overFor (n := 0) (Group.overFor_advance (Or.inl (contains_addNew ..)) (by omega))

theorem Group.coll?_close (g : Group) (seq : Nat) : (g.close seq).coll? seq = none := by
  unfold Group.coll? Group.close
  rw [Group.colls_advance]
  refine List.find?_eq_none.mpr fun c hc => ?_
  simpa using (List.mem_filter.mp hc).2

theorem Group.seq_of_coll? {c : Coll} (h : g.coll? seq = some c) : c.seq = seq := by
  simpa using List.find?_some h

theorem Group.closed_straggle (g : Group) (pip : Nat) (fs : Tab Nat) : (g.straggle pip fs).closed = g.closed := by
  unfold Group.straggle
  split <;> rfl

@[simp] theorem Group.oldest_putColl (g : Group) (c : Coll) : (g.putColl c).oldest = g.oldest := by
  unfold Group.putColl
  split <;> rfl

@[simp] theorem Group.closed_putColl (g : Group) (c : Coll) : (g.putColl c).closed = g.closed := by
  unfold Group.putColl
  split <;> rfl

end

theorem coll_setGroup (s : State) (no : Nat) (g : Group) : tabGet? (s.setGroup no g).coll no = some g := tabGet?_tabPut_self ..

/-- The group of a frame stands in the table. -/
theorem coll_of_groupFor {s : State} {q : QFrame} {g : Group} (h : s.groupFor q = some g) : tabGet? s.coll q.f.group = some g :=
  (Option.filter_eq_some_iff.mp h).1

/-- The head of a local queue stands in its queue. -/
theorem mem_frames_of_localHead {s : State} {ing vc ty : Nat} {q : QFrame} (h : s.localHead ing vc ty = some q) : q ∈ s.buf.frames :=
  mem_frames_of_mem_heads (List.mem_of_find?_eq_some h)

/-! ### The rows of Tally frames -/

section
variable {s : State} {ing : Nat} {q : QFrame} {g : Group} {mine : Nat → Bool}

theorem upRow_foreign {f : State → QFrame → Group → Nat → State} (hq : s.localHead ing 3 4 = some q) (hn : q.note = none)
    (hk : mine (chKind q.f.head) = true) (hg : s.groupFor q = none) : s.upRow ing mine f = .next (s.foreign q) := by
  simp only [State.upRow, hq, hn, hk, hg, Option.isSome_none, Bool.not_true, Bool.or_self, Bool.false_eq_true, if_false]

/-- A well-formed frame of a member, of a kind that it may send: late, past the limit of its collective, or given to the row. -/
theorem upRow_known {f : State → QFrame → Group → Nat → State} {m : Nat} (hq : s.localHead ing 3 4 = some q) (hn : q.note = none)
    (hk : mine (chKind q.f.head) = true) (hg : s.groupFor q = some g) (hm : s.senderOf q g = some m)
    (ha : chKind q.f.head = 2 ∨ chKind q.f.head = 5 ∨
      ∃ mb, g.members[m]? = some mb ∧ chKind q.f.head = 1 ∧ mb.switch = false ∧ mb.cnt = 1)
    (hb : badReserved q = false) :
    s.upRow ing mine f =
      if g.late (chSeq q.f.head) then .next (s.late q)
      else match g.pastLimit (chSeq q.f.head) q.stamp with
        | some c => .next (((s.failColl q.f.group c .timeout (g.missing c) false false).late q).flowGroup q.f.group)
        | none => .next ((f s q g m).flowGroup q.f.group) := by
  have hallow : (chKind q.f.head == 2 || chKind q.f.head == 5 || (chKind q.f.head == 1 &&
      !(g.members.getD m { lk := 0, switch := false, lo := 0, cnt := 0, fid := 0 }).switch &&
      (g.members.getD m { lk := 0, switch := false, lo := 0, cnt := 0, fid := 0 }).cnt == 1)) = true := by
    rcases ha with h | h | ⟨mb, hmb, h, hs, hc⟩
    · simp [h]
    · simp [h]
    · simp [h, List.getD, hmb, hs, hc]
  simp only [State.upRow, hq, hn, hk, hg, hm, hb, hallow, Option.isSome_none, Bool.not_true, Bool.or_self, Bool.false_eq_true, if_false] <;> rfl

/-- A well-formed frame of the parent: past the backstop of its collective, or given to the row. -/
theorem downRow_known {f : State → QFrame → Group → State} (hq : s.localHead ing 4 5 = some q)
    (hk : mine (chKind q.f.head) = true) (hg : s.groupFor q = some g)
    (hp : g.parent = some q.ing ∧ q.f.src = g.parentFid ∧ q.f.dst = s.fidAt q.stamp)
    (ha : chKind q.f.head = 3 ∨ chKind q.f.head = 4 ∨ chKind q.f.head = 6) (hb : badReserved q = false) :
    s.downRow ing mine f =
      match g.pastBackstop (chSeq q.f.head) q.stamp with
        | some c => .next (((s.failColl q.f.group c .timeout [(g.lo, g.cnt)] false true).late q).flowGroup q.f.group)
        | none => .next ((f s q g).flowGroup q.f.group) := by
  obtain ⟨hpar, hsrc, hdst⟩ := hp
  have hmine : ¬(g.parent ≠ some q.ing ∨ q.f.src ≠ g.parentFid ∨ q.f.dst ≠ s.fidAt q.stamp) := by simp [hpar, hsrc, hdst]
  have hallow : [3, 4, 6].contains (chKind q.f.head) = true := by simpa using ha
  simp only [State.downRow, hq, hk, hg, hmine, hb, hallow, Bool.not_true, Bool.or_self, Bool.false_eq_true, if_false] <;> rfl

/-- A downward frame that came in time is given to its row. -/
theorem State.TallyDown.downRow {f : State → QFrame → Group → State} (h : s.TallyDown ing q g)
    (hk : mine (chKind q.f.head) = true) (ha : chKind q.f.head = 3 ∨ chKind q.f.head = 4 ∨ chKind q.f.head = 6) :
    s.downRow ing mine f = .next ((f s q g).flowGroup q.f.group) := by
  rw [downRow_known h.head hk h.group h.parent ha h.sound, h.inTime]

/-- An upward frame that came in time is given to its row. -/
theorem State.TallyHead.upRow {f : State → QFrame → Group → Nat → State} {m : Nat} (h : s.TallyHead ing q g m)
    (hk : mine (chKind q.f.head) = true)
    (ha : chKind q.f.head = 2 ∨ chKind q.f.head = 5 ∨
      ∃ mb, g.members[m]? = some mb ∧ chKind q.f.head = 1 ∧ mb.switch = false ∧ mb.cnt = 1) :
    s.upRow ing mine f = .next ((f s q g m).flowGroup q.f.group) := by
  rw [upRow_known h.head h.note hk h.group h.sender ha h.sound, h.live, h.inTime]
  rfl

end

end Sys2Proof.Machine
end

section
/-! PROOF. RESULT, DONE, ERROR and FAIL, and what a failure does (08 R242, R244, R247, R250, R252). -/

namespace Sys2Proof.Machine

open Sys2Proof

/-! ### DONE and ERROR (R244, R247) -/

section
variable {s : State} {q : QFrame} {g : Group}

/-- DONE of an open collective: it is over here, and every member is told. -/
theorem completed_done {t : State} {no : Nat} {c : Coll} (ht : tabGet? t.coll no = some g) (hg : g.closed.length < 2 ^ 30)
    (h : List Byte) : ∃ g', tabGet? (((t.sendDone no g h c.seq).releaseColl c).completeColl no c).coll no = some g' ∧
      g'.late c.seq = true ∧ g'.coll? c.seq = none ∧
      ∀ m ∈ g.members, (((t.sendDone no g h c.seq).releaseColl c).completeColl no c).OnItsWay m.lk 5 4 m.fid
        (headerOf h 4 c.seq m.lo m.cnt 0 0) := by
  have hu : tabGet? ((t.sendDone no g h c.seq).releaseColl c).coll no = some g := by
    rw [coll_of_offBuf (offBuf_of_offHanks (offHanks_releaseColl ..)), coll_of_offBuf (offBuf_sendDone ..), ht]
  unfold State.completeColl
  rw [hu]
  refine ⟨_, coll_setGroup .., Group.late_close (by rwa [Group.closed_straggle]) _, Group.coll?_close .., fun m hm => ?_⟩
  exact (sendDone_sent t no g h c.seq m hm).stay ((FramesStay.of_offHanks (offHanks_releaseColl ..)).trans (.of_eq rfl rfl))

/-- ERROR of a collective that is not over: it is over then, and every member is told. -/
theorem errored_done (t : State) (no : Nat) (hg : g.closed.length < 2 ^ 30) (h : List Byte) (seq i status eflags : Nat)
    (cell : List Byte) : ∃ g', tabGet? (((t.setGroup no (g.close seq)).bump .coll g.home i).sendErrors no g h seq status eflags cell).coll no =
        some g' ∧ g'.late seq = true ∧ g'.coll? seq = none ∧
      ∀ m ∈ g.members, (((t.setGroup no (g.close seq)).bump .coll g.home i).sendErrors no g h seq status eflags cell).OnItsWay
        m.lk 5 4 m.fid (headerOf h 6 seq m.lo m.cnt status eflags ++ cell) := by
  refine ⟨g.close seq, ?_, Group.late_close hg seq, Group.coll?_close .., fun m hm => sendErrors_sent _ _ _ _ _ _ _ _ m hm⟩
  rw [coll_of_offBuf (offBuf_sendErrors ..)]
  exact coll_setGroup ..

end

/-! ### A collective fails (R247) -/

/-- The group after a collective failed: it is over, and below a parent its ERROR is awaited. -/
def Group.failed (g : Group) (seq : Nat) : Group :=
  if g.parent.isNone then g.close seq else { g.close seq with waitErr := addNew (g.close seq).waitErr seq }

/-- The state in which a collective of a group that feeds no shard has failed, before anybody is told. -/
def State.collOver (s : State) (no : Nat) (g : Group) (c : Coll) (st : Status) : State :=
  ((((s.stopSending no c.seq).releaseColl c).setGroup no (g.failed c.seq)).bump .coll g.home (ccStatus + st.code)).logRaise
    0x0801 2 st.code (srcOf 3 g.home) 0 (no + c.seq * 2 ^ 32)

theorem Group.late_failed {g : Group} (hg : g.closed.length < 2 ^ 30) (seq : Nat) : (g.failed seq).late seq = true := by
  unfold Group.failed
  split
  · exact Group.late_close hg seq
  · exact Group.late_close hg seq

theorem Group.coll?_failed (g : Group) (seq : Nat) : (g.failed seq).coll? seq = none := by
  unfold Group.failed
  split
  · exact Group.coll?_close g seq
  · exact Group.coll?_close g seq

section
variable {s : State} {no : Nat} {g : Group} {c : Coll} {st : Status} {rs : List (Nat × Nat)} {cut : Bool}

theorem offBuf_setGroup_congr {t : State} (h : t.offBuf = s.offBuf) : (t.setGroup no g).offBuf = (s.setGroup no g).offBuf :=
  (congrArg (fun u : State => (u.setColl (tabPut u.coll no g))) h :)

theorem offBuf_collOver : (s.collOver no g c st).offBuf = (s.setGroup no (g.failed c.seq)).offBuf := by
  unfold State.collOver
  rw [offBuf_logRaise, offBuf_bump]
  exact offBuf_setGroup_congr ((offBuf_of_offHanks (offHanks_releaseColl ..)).trans (offBuf_stopSending ..))

variable (hg : tabGet? s.coll no = some g) (hr : g.rub = none)
include hg hr

/-- At the root every member is sent an ERROR. -/
theorem failColl_root (hp : g.parent = none) : s.failColl no c st rs cut false =
    (s.collOver no g c st).sendErrors no g c.hdr c.seq st.code (b2n ((rangesCell rs).2 || cut)) (rangesCell rs).1 := by
  simp [State.failColl, hg, hr, hp, State.collOver, Group.failed]

/-- Elsewhere the parent is sent a FAIL. -/
theorem failColl_below {lk : Nat} (hp : g.parent = some lk) : s.failColl no c st rs cut false =
    ((s.collOver no g c st).sendUp g { no := no, seq := c.seq }
      (headerOf c.hdr 5 c.seq g.lo g.cnt st.code (b2n ((rangesCell rs).2 || cut)) ++ (rangesCell rs).1)).bump .coll g.home ccFailSent := by
  simp [State.failColl, hg, hr, hp, State.collOver, Group.failed]

theorem offBuf_failColl : (s.failColl no c st rs cut false).offBuf = (s.setGroup no (g.failed c.seq)).offBuf := by
  cases hp : g.parent with
  | none => rw [failColl_root hg hr hp, offBuf_sendErrors, offBuf_collOver]
  | some lk => rw [failColl_below hg hr hp, offBuf_bump, offBuf_sendUp, offBuf_collOver]

end

/-! ### The rows -/

section
variable {s : State} {ing : Nat} {q : QFrame} {g : Group} {c : Coll}

theorem exec_resultFrame_late (h : s.TallyDown ing q g) (hk : chKind q.f.head = 3) (hc : g.coll? (chSeq q.f.head) = none) :
    exec (.resultFrame ing) s = .next ((s.late q).flowGroup q.f.group) := by
  show execResultFrame ing s = _
  unfold execResultFrame
  rw [h.downRow (mine := fun k => k != 4 && k != 6) (by rw [hk]; rfl) (.inl hk)]
  simp only [hc]

theorem exec_resultFrame_open (h : s.TallyDown ing q g) (hk : chKind q.f.head = 3) (hc : g.coll? (chSeq q.f.head) = some c)
    (ho : opsBad q.f.head q.f.n = false) (hr : chRub q.f.head = false) :
    exec (.resultFrame ing) s = .next (((s.consume q).sendResults q.f.group g q.f.head (chSeq q.f.head) (chSlice q.f.head)
      (fullRec q.f.head) (q.f.cells.drop 64) false).flowGroup q.f.group) := by
  show execResultFrame ing s = _
  unfold execResultFrame
  rw [h.downRow (mine := fun k => k != 4 && k != 6) (by rw [hk]; rfl) (.inl hk)]
  simp only [hc, ho, hr, Bool.false_eq_true, if_false]

theorem exec_doneFrame_late (h : s.TallyDown ing q g) (hk : chKind q.f.head = 4) (hc : g.coll? (chSeq q.f.head) = none) :
    exec (.doneFrame ing) s = .next ((s.late q).flowGroup q.f.group) := by
  show execDoneFrame ing s = _
  unfold execDoneFrame
  rw [h.downRow (mine := fun k => k == 4) (by rw [hk]; rfl) (.inr (.inl hk))]
  simp only [hc]

theorem exec_doneFrame_open (h : s.TallyDown ing q g) (hk : chKind q.f.head = 4) (hc : g.coll? (chSeq q.f.head) = some c) :
    exec (.doneFrame ing) s = .next (((((s.consume q).sendDone q.f.group g q.f.head c.seq).releaseColl c).completeColl
      q.f.group c).flowGroup q.f.group) := by
  show execDoneFrame ing s = _
  unfold execDoneFrame
  rw [h.downRow (mine := fun k => k == 4) (by rw [hk]; rfl) (.inr (.inl hk))]
  simp only [hc, Group.seq_of_coll? hc]

theorem exec_doneFrame_pastBackstop (hq : s.localHead ing 4 5 = some q) (hg : s.groupFor q = some g)
    (hp : g.parent = some q.ing ∧ q.f.src = g.parentFid ∧ q.f.dst = s.fidAt q.stamp) (hb : badReserved q = false)
    (hk : chKind q.f.head = 4) (hx : g.pastBackstop (chSeq q.f.head) q.stamp = some c) :
    exec (.doneFrame ing) s =
      .next (((s.failColl q.f.group c .timeout [(g.lo, g.cnt)] false true).late q).flowGroup q.f.group) := by
  show execDoneFrame ing s = _
  unfold execDoneFrame
  rw [downRow_known (mine := fun k => k == 4) hq (by rw [hk]; rfl) hg hp (.inr (.inl hk)) hb, hx]

/-- The state in which an ERROR has been taken and the slots of its collective are released. -/
def State.errorTaken (s : State) (q : QFrame) (g : Group) : State :=
  match g.coll? (chSeq q.f.head) with
  | some c => ((s.consume q).bump .coll q.die ccErrRecv).releaseColl c
  | none => (s.consume q).bump .coll q.die ccErrRecv

theorem exec_errorFrame_open (h : s.TallyDown ing q g) (hk : chKind q.f.head = 6) (hl : g.late (chSeq q.f.head) = false)
    (hw : g.waitErr.contains (chSeq q.f.head) = false) :
    exec (.errorFrame ing) s = .next (((((s.errorTaken q g).setGroup q.f.group (g.close (chSeq q.f.head))).bump .coll g.home
      (ccStatus + chStatus q.f.head)).sendErrors q.f.group g q.f.head (chSeq q.f.head) (chStatus q.f.head) (fieldAt q.f.head 41 1)
        (q.f.cells.drop 64)).flowGroup q.f.group) := by
  show execErrorFrame ing s = _
  unfold execErrorFrame
  rw [h.downRow (mine := fun k => k == 6) (by rw [hk]; rfl) (.inr (.inr hk))]
  simp only [hl, hw, Bool.false_eq_true, if_false]
  rfl

theorem exec_failFrame_open {m : Nat} {st : Status} (h : s.TallyHead ing q g m) (hk : chKind q.f.head = 5)
    (hc : g.coll? (chSeq q.f.head) = some c) (hst : Status.ofCode (chStatus q.f.head) = some st) :
    exec (.failFrame ing) s = .next ((((s.consume q).bump .coll q.die ccFailRecv).failColl q.f.group (c.withHeader q.f.head) st
      (cellRanges (q.f.cells.drop 64)) (bit (fieldAt q.f.head 41 1) 0) false).flowGroup q.f.group) := by
  show execFailFrame ing s = _
  unfold execFailFrame
  rw [h.upRow (mine := fun k => k == 5) (by rw [hk]; rfl) (.inr (.inl hk))]
  simp only [State.collAt, hc, hst, Option.getD_some]

end

/-- Settles O18: a closed collective is late and no longer open (`Group.late_close`, `Group.coll?_close`), and each frame sent to a
member or the parent is queued for its link or waits to be (`sendDone_sent`, `sendErrors_sent`, `sendUp_sent`). -/
theorem tallyDownward : Obligations.TallyDownward := by
  unfold Obligations.TallyDownward
  refine ⟨fun ing s q g h => ⟨fun hk => ⟨exec_resultFrame_late h hk, fun c hc => exec_resultFrame_open h hk hc⟩,
    fun hk => ⟨exec_doneFrame_late h hk, fun c hc hlen => ?_⟩, fun hk hl hw hlen => ?_⟩,
    fun ing s q g x hq hg hpar hsrc hdst => exec_doneFrame_pastBackstop hq hg ⟨hpar, hsrc, hdst⟩,
    fun ing s q g m c st h => exec_failFrame_open h, fun no c st rs cut s g hg hr hlen => ?_⟩
  · have hgroup : tabGet? (s.consume q).coll q.f.group = some g := by
      rw [coll_of_offBuf (offBuf_consume ..), coll_of_groupFor h.group]
    obtain ⟨g', hdone⟩ := completed_done (c := c) hgroup hlen q.f.head
    refine ⟨_, g', exec_doneFrame_open h hk hc, ?_⟩
    rwa [← Group.seq_of_coll? hc]
  · obtain ⟨g', herror⟩ := errored_done (s.errorTaken q g) q.f.group hlen q.f.head (chSeq q.f.head) (ccStatus + chStatus q.f.head)
      (chStatus q.f.head) (fieldAt q.f.head 41 1) (q.f.cells.drop 64)
    exact ⟨_, g', exec_errorFrame_open h hk hl hw, herror⟩
  · have hoff := offBuf_failColl (c := c) (st := st) (rs := rs) (cut := cut) hg hr
    refine ⟨g.failed c.seq, ?_, Group.late_failed hlen c.seq, Group.coll?_failed g c.seq, (mem_of_offBuf hoff).trans rfl,
      (host_of_offBuf hoff).trans rfl, fun hp => ?_, fun lk hp => ⟨?_, ?_⟩⟩
    · rw [coll_of_offBuf hoff]
      exact coll_setGroup ..
    · rw [failColl_root hg hr hp]
      exact fun m hm => sendErrors_sent _ _ _ _ _ _ _ _ m hm
    · have hm := contains_addNew (g.close c.seq).waitErr c.seq
      simpa [Group.failed, hp] using hm
    · rw [failColl_below hg hr hp]
      exact (sendUp_sent (s.collOver no g c st) hp ..).2.stay (.of_eq rfl rfl)

end Sys2Proof.Machine
end

section
/-! PROOF. Timeouts of collectives and the COLL commands (08 R224, R241, R246, R250, R251, R253, R255). -/

namespace Sys2Proof.Machine

open Sys2Proof

/-! ### Timeouts (R250) -/

section
variable {s : State} {no seq : Nat} {g : Group} {c : Coll} (hg : tabGet? s.coll no = some g) (hc : g.coll? seq = some c)
include hg hc

theorem exec_collTimeout_early (ht : s.time.pip < c.t0 + g.timeout) : exec (.collTimeout no seq) s = .next s := by
  show execCollTimeout no seq s = _
  simp [execCollTimeout, hg, hc, ht]

theorem exec_collTimeout_due (ht : c.t0 + g.timeout ≤ s.time.pip) (hh : c.hdr ≠ []) (hm : g.missing c ≠ []) :
    exec (.collTimeout no seq) s = .next ((s.failColl no c .timeout (g.missing c) false false).flowGroup no) := by
  show execCollTimeout no seq s = _
  simp [execCollTimeout, hg, hc, Nat.not_lt.mpr ht, hh, hm]

theorem exec_collBackstopTimeout_early (ht : s.time.pip < g.backstop c) : exec (.collBackstopTimeout no seq) s = .next s := by
  show execCollBackstopTimeout no seq s = _
  simp [execCollBackstopTimeout, hg, hc, Nat.not_le.mpr ht]

theorem exec_collBackstopTimeout_due (ht : g.backstop c ≤ s.time.pip) (hp : g.parent ≠ none) (hs : c.passed ≠ none) :
    exec (.collBackstopTimeout no seq) s =
      .next ((s.failColl no c .timeout [(g.lo, g.cnt)] false true).flowGroup no) := by
  show execCollBackstopTimeout no seq s = _
  simp [execCollBackstopTimeout, hg, hc, ht, Option.isSome_iff_ne_none.mpr hp, Option.isSome_iff_ne_none.mpr hs]

end

/-! ### COLL_GROUP_CREATE (R224, R225, R241) -/

@[simp] theorem time_drawGo (s : State) (g : Group) : (s.drawGo g).1.time = s.time := by
  unfold State.drawGo
  split
  · split <;> rfl
  · rfl

theorem time_of_core {s t : State} (h : t.core = s.core) : t.time = s.time := (congrArg State.time h :)

/-- The state in which a descriptor has been loaded and its group entered with its reservations. -/
def State.groupEntered (s : State) (no : Nat) (g : Group) (res : Tab Nat) : State :=
  ((s.drawGo { g with reserve := res, born := s.time.pip }).1.setGroup no
    (s.drawGo { g with reserve := res, born := s.time.pip }).2).reserveGroup
      (s.drawGo { g with reserve := res, born := s.time.pip }).2 true

@[simp] theorem time_groupEntered (s : State) (no : Nat) (g : Group) (res : Tab Nat) : (s.groupEntered no g res).time = s.time :=
  (time_of_core ((core_reserveGroup ..).trans (core_setGroup ..))).trans (time_drawGo ..)

/-- The answer of COLL_GROUP_CREATE at a pip. -/
def createdFlds (no : Nat) (g : Group) (res : Tab Nat) (pip : Nat) : List Fld :=
  [uf 2 no, uf 1 g.home] ++ (List.range 4).map (fun d => uf 4 (tabGet res 0 d)) ++ [uf 8 pip]

section
variable {s : State} {o : Origin} {p : Posted}

theorem exec_collGroupCreate {addr len : Nat} {b : List Byte} {res : Tab Nat} (hw : s.waiting o 0x0501 [addr, len] = some p)
    (hm : s.MaySend o 0x0501) (ho : s.Owns o resColl) (ha : addr % 64 = 0) (hl : addr + len ≤ 2 ^ 37)
    (hd : s.dramDenied addr len = false) (hn : len = 64 + 32 * s.readNat (dramKey (addr + 30)) 2)
    (hb : b = s.read (dramKey addr) (min len (64 + 32 * 1024))) (hf : groupFieldBad b = false)
    (hmem : ∀ x ∈ descMembers b, x.2 = false) (hbad : s.groupDescBad (descGroup b) (parseGroup b) = false)
    (hres : res = (parseGroup b).dies.map (fun d => (d, (parseGroup b).need d)))
    (htake : ∀ x ∈ res, s.take (unitAcct x.1 1 3) x.2 = x.2) (hu : s.firstUe (dramKey addr) len = none)
    (hi : s.mayIssue (addr / 2 ^ 35 % 4) clsMgmt = true) :
    exec (.collGroupCreate o addr len) s = .next (s.concluded p
      (fun a => (a.chargeLoad addr len).groupEntered (descGroup b) (parseGroup b) res) .ok
      (fun a => createdFlds (descGroup b) (parseGroup b) res a.time.pip)) := by
  have hchks : ∀ c ∈ s.addrChks 0 addr len 64 ++
      [badFld 0 (groupFieldBad b || (descMembers b).any (·.2)), s.ownChk o resColl,
        ⟨decide (len ≠ len), .badDesc, some 1⟩,
        ⟨s.groupDescBad (descGroup b) (parseGroup b), .badDesc, none⟩,
        ⟨res.any (fun p => s.take (unitAcct p.1 1 3) p.2 != p.2), .capacity, none⟩], c.bad = false := by
    have hmem' : (descMembers b).any (·.2) = false := any_eq_false_of hmem
    have htake' : res.any (fun p => s.take (unitAcct p.1 1 3) p.2 != p.2) = false :=
      any_eq_false_of fun x hx => by simpa using htake x hx
    have ho' : (s.ownChk o resColl).bad = false := ho
    refine List.forall_mem_append.mpr ⟨addrChks_ok hl ha hd, ?_⟩
    simp only [List.forall_mem_cons, badFld, hf, hmem', ho', hbad, htake', Bool.or_self, true_and, List.not_mem_nil, false_imp_iff,
      implies_true, and_true]
    exact decide_eq_false (not_not.mpr rfl)
  have hflds : (fun a : State => createdFlds (descGroup b) (parseGroup b) res a.time.pip) = fun a =>
      createdFlds (descGroup b) (parseGroup b) res ((a.chargeLoad addr len).groupEntered (descGroup b) (parseGroup b) res).time.pip :=
    funext fun a => by rw [time_groupEntered]; rfl
  rw [hflds]
  show execCollGroupCreate o addr len s = _
  unfold execCollGroupCreate
  simp only [← hn, ← hb, ← hres]
  exact loading_concluded (f := fun a => a.groupEntered (descGroup b) (parseGroup b) res)
    (res := fun a => createdFlds (descGroup b) (parseGroup b) res (a.groupEntered (descGroup b) (parseGroup b) res).time.pip)
    hw hm hchks hi hu

/-! ### Commands that name a group (R255) -/

theorem groupChks_ok {no : Nat} {g : Group} (hn : no ≤ 4095) (hg : tabGet? s.coll no = some g) :
    ∀ c ∈ s.groupChks no, c.bad = false := by
  simp [State.groupChks, badFld, hg, hn]

section
variable {no : Nat} {g : Group} (hn : no ≤ 4095) (hg : tabGet? s.coll no = some g)
include hn hg

theorem exec_collGroupDestroy (hw : s.waiting o 0x0502 [no] = some p) (hm : s.MaySend o 0x0502) (ho : s.Owns o resColl) :
    exec (.collGroupDestroy o no) s = .next (s.concluded p (fun a => a.removeGroup no g) .ok
      (fun a => [uf 4 (a.openColls g).length, uf 4 (g.reserve.map (·.2)).sum])) := by
  show execCollGroupDestroy o no s = _
  unfold execCollGroupDestroy
  refine command_concluded_of_run hw hm (List.forall_mem_cons.mpr ⟨ho, groupChks_ok hn hg⟩) ?_
  rw [accept_coll, hg]

/-- The answer of COLL_GROUP_STATUS. -/
def State.groupFlds (s : State) (no : Nat) (g : Group) : List Fld :=
  [uf 1 (b2n g.arrival), uf 4 g.oldest] ++
    listFlds ((s.openColls g).map (fun c => [uf 4 c.seq, uf 8 c.t0, uf 4 c.sent.length, uf 4 (chDigest c.hdr)])) ++
    (List.range 4).map (fun d => uf 1 (s.slotsUsed no g d)) ++
    [uf 4 g.stats.amax, uf 4 g.stats.sat, uf 4 g.stats.inv, uf 4 g.stats.nanblk]

theorem exec_collGroupStatus {clear : Nat} (hw : s.waiting o 0x0503 [no, clear] = some p) (hm : s.MaySend o 0x0503)
    (hc : clearOk o clear) :
    exec (.collGroupStatus o no clear) s = .next (s.concluded p
      (fun a => if clear = 1 then a.setGroup no { g with stats := {} } else a) .ok (fun a => a.groupFlds no g)) := by
  show execCollGroupStatus o no clear s = _
  unfold execCollGroupStatus
  refine command_concluded_of_run hw hm (List.forall_mem_append.mpr ⟨clearChks_ok hc, groupChks_ok hn hg⟩) ?_
  rw [accept_coll, hg]
  rfl

theorem exec_collStragglers (hw : s.waiting o 0x0504 [no] = some p) (hm : s.MaySend o 0x0504) :
    ∃ res, exec (.collStragglers o no) s = .next (s.concluded p id .ok res) ∧
      res (s.accept p).2 = listFlds (g.members.map (fun m => [uf 4 m.lo, uf 4 (m.cnt % 2 ^ 24), uf 2 m.last, uf 2 m.hist,
        uf 8 m.lag, uf 1 (b2n (decide (popCount m.hist ≥ g.suspectK)))])) := by
  show ∃ res, execCollStragglers o no s = _ ∧ _
  unfold execCollStragglers
  refine ⟨_, query_concluded hw hm (groupChks_ok hn hg), ?_⟩
  rw [accept_coll, hg]

/-- COLL_ABORT fails the open collective that it names and waits for the frames that tell of it. -/
theorem exec_collAbort {seq : Nat} {c : Coll} (hw : s.waiting o 0x0506 [no, seq] = some p) (hm : s.MaySend o 0x0506)
    (ho : s.Owns o resColl) (hdead : g.dead = false) (hc : s.collAt g seq = some c) :
    exec (.collAbort o no seq) s = .next (s.begun p (fun k a =>
      ((a.failColl no c .aborted [(g.lo, g.cnt)] false false).setHost
        { (a.failColl no c .aborted [(g.lo, g.cnt)] false false).host with
          sending := (a.failColl no c .aborted [(g.lo, g.cnt)] false false).host.sending ++
            [(k, ((a.failColl no c .aborted [(g.lo, g.cnt)] false false).failFrames no seq).filter
              (fun f => !(a.failFrames no seq).contains f))] }).flowGroup no)) := by
  have hopen : (tabGet? s.coll no).bind (fun g => if g.dead then none else s.collAt g seq) = some c := by
    simp [hg, hdead, hc]
  show execCollAbort o no seq s = _
  unfold execCollAbort
  simp only [hopen]
  rw [command_run hw hm (List.forall_mem_cons.mpr ⟨ho, List.forall_mem_cons.mpr ⟨rfl, groupChks_ok hn hg⟩⟩), accept_coll, hg]
  rfl

end

theorem exec_collCounters {die clear : Nat} (hw : s.waiting o 0x0505 [die, clear] = some p) (hm : s.MaySend o 0x0505)
    (hd : die ≤ 3) (hc : clearOk o clear) :
    ∃ res : State → List Fld, exec (.collCounters o die clear) s = .next (s.concluded p
      (fun a => if clear = 1 then (a.clearUnit .coll die).setTraf { a.traf with waits := tabPut a.traf.waits die 0 } else a) .ok res) ∧
      ∀ a : State, (res a).head? = some (uf 4 (a.count .coll die ccCompleted)) := by
  show ∃ res : State → List Fld, execCollCounters o die clear s = _ ∧ _
  unfold execCollCounters
  exact ⟨_, command_concluded hw hm (List.forall_mem_cons.mpr ⟨decide_eq_false (Nat.not_lt.mpr hd), clearChks_ok hc⟩), fun a => rfl⟩

end

/-! ### A command that waits for its frames (R255) -/

section
variable {s : State} {k : Nat} {fs : List (List Byte)} (h : s.host.sending = [(k, fs)])
include h

theorem finishSent_left (hq : ∀ q ∈ s.tallyFrames, q.f.cells ∉ fs) :
    s.finishSent = (s.setHost { s.host with sending := [] }).finish k .ok [] := by
  have hgone : fs.any (fun f => s.tallyFrames.any (fun q => decide (q.f.cells = f))) = false :=
    any_eq_false_of fun f hf => any_eq_false_of fun q hm => decide_eq_false fun he => hq q hm (he ▸ hf)
  simp [State.finishSent, h, hgone]

theorem finishSent_waits (hq : ∃ q ∈ s.tallyFrames, q.f.cells ∈ fs) : s.finishSent = s := by
  obtain ⟨q, hm, hf⟩ := hq
  have hthere : fs.any (fun f => s.tallyFrames.any (fun q => decide (q.f.cells = f))) = true :=
    List.any_eq_true.mpr ⟨_, hf, List.any_eq_true.mpr ⟨q, hm, decide_eq_true rfl⟩⟩
  simp [State.finishSent, h, hthere]

end

/-- Settles O19: each row by its own lemma. -/
theorem collectiveCommands : Obligations.CollectiveCommands := by
  unfold Obligations.CollectiveCommands
  refine ⟨fun no seq s g c hg hc => ⟨exec_collTimeout_early hg hc, exec_collTimeout_due hg hc, exec_collBackstopTimeout_early hg hc,
    exec_collBackstopTimeout_due hg hc⟩, ?_, ?_, ?_, ?_, ?_, ?_, fun s k fs h => ⟨finishSent_left h, finishSent_waits h⟩⟩
  · intro o addr len s p b g res hw hm ho ha hl hd hn hb hf hmem hg hbad hres htake hu hi
    subst hg
    exact exec_collGroupCreate hw hm ho ha hl hd hn hb hf hmem hbad hres htake hu hi
  · intro o no s p g hw hm ho hn hg
    exact ⟨_, exec_collGroupDestroy hn hg hw hm ho, fun a => tabGet?_tabDel_self ..⟩
  · intro o no clear s p g hw hm hc hn hg
    exact ⟨_, exec_collGroupStatus hn hg hw hm hc, fun a => rfl⟩
  · intro o no s p g hw hm hn hg
    exact exec_collStragglers hn hg hw hm
  · intro o die clear s p hw hm hd hc
    exact exec_collCounters hw hm hd hc
  · intro o no seq s p g c hw hm ho hn hg hdead hc
    exact exec_collAbort hn hg hw hm ho hdead hc

end Sys2Proof.Machine
end

section
/-! PROOF. CONTRIB and PARTIAL (08 R224, R226, R236, R249, R250, R252). -/

namespace Sys2Proof.Machine

open Sys2Proof

section
variable (s : State) (q : QFrame)

theorem coll_consume : (s.consume q).coll = s.coll := coll_of_offBuf (offBuf_consume ..)

theorem mem_consume : (s.consume q).mem = s.mem := mem_of_offBuf (offBuf_consume ..)

end

/-! ### The reference of a collective (R249) -/

/-- An absent key is put between the entries below it and the others. -/
theorem tabPut_of_absent {α : Type} {t : Tab α} {x : Nat} (h : tabGet? t x = none) (v : α) :
    ∃ l r, t = l ++ r ∧ tabPut t x v = l ++ (x, v) :: r := by
  induction t with
  | nil => exact ⟨[], [], rfl, rfl⟩
  | cons e t ih =>
    obtain ⟨k, w⟩ := e
    have hk : ¬k = x := fun e => by simp [tabGet?, e] at h
    have ht : tabGet? t x = none := by simpa [tabGet?, hk] using h
    obtain ⟨l, r, hlr, hput⟩ := ih ht
    simp only [tabPut]
    split
    · exact ⟨[], (k, w) :: t, rfl, rfl⟩
    · exact ⟨(k, w) :: l, r, by rw [hlr]; rfl, by rw [if_neg fun e => hk e.symm, hput]; rfl⟩

/-- The reference after one more first frame. -/
def refStep (pip : Nat) (ms : List Member) (a : Option (Nat × Nat × Nat)) (p : Nat × Nat × Nat) : Option (Nat × Nat × Nat) :=
  let tie (x : Nat) : Nat := (ms.getD x { lk := 0, switch := false, lo := 0, cnt := 0, fid := 0 }).tieIndex x
  match a with
  | none => some (p.1, p.2)
  | some b => if p.2.2 < b.2.2 ∨ (p.2.2 = b.2.2 ∧ tieWins pip (tie p.1) (tie b.1)) then some (p.1, p.2) else some b

theorem refMember_eq (pip : Nat) (ms : List Member) (fs : Tab (Nat × Nat)) :
    refMember pip ms fs = (fs.foldl (refStep pip ms) none).map (fun r => (r.1, r.2.1)) := by
  unfold refMember refStep
  rfl

section
variable {pip st : Nat} {ms : List Member}

theorem refStep_later {b p : Nat × Nat × Nat} (h : b.2.2 < p.2.2) : refStep pip ms (some b) p = some b :=
  if_neg (by omega)

theorem refStep_earlier {b p : Nat × Nat × Nat} (h : p.2.2 < b.2.2) : refStep pip ms (some b) p = some p := if_pos (.inl h)

/-- The reference is the new frame or the one before. -/
theorem refStep_cases (a : Option (Nat × Nat × Nat)) (p : Nat × Nat × Nat) :
    refStep pip ms a p = some p ∨ ∃ b, a = some b ∧ refStep pip ms a p = some b := by
  cases a with
  | none => exact .inl rfl
  | some b =>
    unfold refStep
    extract_lets tie
    simp only
    split
    · exact .inl rfl
    · exact .inr ⟨b, rfl, rfl⟩

/-- A first frame stamped after all others does not become the reference. -/
theorem foldl_refStep_later {p : Nat × Nat × Nat} {l r : Tab (Nat × Nat)} (h : ∀ e ∈ l ++ r, e.2.2 < p.2.2)
    {a : Option (Nat × Nat × Nat)} (ha : ∀ b, a = some b → b.2.2 < p.2.2) (hne : a = none → l ++ r ≠ []) :
    (l ++ p :: r).foldl (refStep pip ms) a = (l ++ r).foldl (refStep pip ms) a := by
  induction l generalizing a with
  | nil =>
    cases a with
    | some b => exact congrArg (r.foldl _) (refStep_later (ha b rfl))
    | none =>
      cases r with
      | nil => exact absurd rfl (hne rfl)
      | cons e r => exact congrArg (r.foldl _) (refStep_earlier (h e List.mem_cons_self))
  | cons e l ih =>
    refine ih (fun x hx => h x (List.mem_cons_of_mem _ hx)) (fun b hb => ?_) (fun hn => ?_)
    · rcases refStep_cases (pip := pip) (ms := ms) a e with he | ⟨c, hc, he⟩
      · exact Option.some.inj (he.symm.trans hb) ▸ h e List.mem_cons_self
      · exact Option.some.inj (he.symm.trans hb) ▸ ha c hc
    · rcases refStep_cases (pip := pip) (ms := ms) a e with he | ⟨c, -, he⟩
      · exact absurd (he.symm.trans hn) (Option.some_ne_none e)
      · exact absurd (he.symm.trans hn) (Option.some_ne_none c)

theorem refMember_tabPut {fs : Tab (Nat × Nat)} {m d : Nat} (hm : tabGet? fs m = none) (hne : fs ≠ [])
    (h : ∀ e ∈ fs, e.2.2 < st) : refMember pip ms (tabPut fs m (d, st)) = refMember pip ms fs := by
  obtain ⟨l, r, rfl, hput⟩ := tabPut_of_absent hm (d, st)
  rw [hput, refMember_eq, refMember_eq]
  exact congrArg _ (foldl_refStep_later (p := (m, d, st)) h (fun _ hb => absurd hb.symm (Option.some_ne_none _)) (fun _ => hne))

theorem mem_tabPut {α : Type} {t : Tab α} {x : Nat} (h : tabGet? t x = none) (v : α) : (x, v) ∈ tabPut t x v := by
  obtain ⟨l, r, -, hput⟩ := tabPut_of_absent h v
  rw [hput]
  exact List.mem_append_right _ List.mem_cons_self

end

/-! ### The check of a CONTRIB or PARTIAL (R226, R230, R249) -/

section
variable {s : State} {q : QFrame} {g : Group} {m : Nat}

/-- The collective that a first frame opens. -/
def openedBy (q : QFrame) (m : Nat) : Coll :=
  { seq := chSeq q.f.head, t0 := q.stamp, hdr := q.f.head, firsts := [(m, chDigest q.f.head, q.stamp)] }

/-- The frame is noted for admission. -/
def State.noted (s : State) (q : QFrame) (m : Nat) : State :=
  s.setFrames (s.buf.frames.map (fun x => if x = q then { x with note := some m } else x))

theorem checkUp_opens (hc : g.coll? (chSeq q.f.head) = none) (hs : chSlice q.f.head = 0) (ho : opsBad q.f.head q.f.n = false)
    (hf : s.openFailure g q.f.head = none) :
    s.checkUp q g m = (s.setGroup q.f.group (g.putColl (openedBy q m))).noted q m := by
  simp only [State.checkUp, hc, hs, ho, hf, ne_eq, not_true_eq_false, Bool.false_eq_true, or_self, if_false]
  rfl

/-- A noted frame stands in its queue with its note. -/
theorem mem_noted (h : q ∈ s.buf.frames) : ∃ y ∈ (s.noted q m).buf.frames, y.f = q.f ∧ y.note = some m := by
  obtain ⟨y, hy, hb⟩ := mem_setFrames s (List.mem_map_of_mem (f := fun x => if x = q then { x with note := some m } else x) h)
  rw [if_pos rfl] at hb
  exact ⟨y, hy, (congrArg QFrame.f hb :), (congrArg QFrame.note hb :)⟩

/-- A group entered and a frame noted: nothing else changes but tags and heads. -/
theorem noted_setGroup_frame (s : State) (q : QFrame) (m no : Nat) (g : Group) : (s.setGroup no g).noted q m =
    { s with coll := ((s.setGroup no g).noted q m).coll, buf := ((s.setGroup no g).noted q m).buf,
             traf := ((s.setGroup no g).noted q m).traf } :=
  congrArg (fun u : State => { u with coll := ((s.setGroup no g).noted q m).coll, buf := ((s.setGroup no g).noted q m).buf,
                                      traf := ((s.setGroup no g).noted q m).traf }) (offTags_setFrames (s.setGroup no g) _)

theorem coll_noted (s : State) (q : QFrame) (m : Nat) : (s.noted q m).coll = s.coll := coll_of_offBuf (offBuf_setFrames ..)

/-- An open collective after a frame of a member: its first stamp and, where none of the member came before, its first frame. -/
def Coll.heard (c : Coll) (q : QFrame) (m : Nat) : Coll :=
  { c with t0 := min c.t0 q.stamp,
           firsts := if (tabGet? c.firsts m).isNone then tabPut c.firsts m (chDigest q.f.head, q.stamp) else c.firsts }

/-- The first frames whose digest is not that of the reference. -/
def Coll.differing (c : Coll) (pip : Nat) (ms : List Member) : Tab (Nat × Nat) :=
  c.firsts.filter (fun p => some p.2.1 != (refMember pip ms c.firsts).map (·.2))

variable {x : Coll}

theorem Coll.heard_of_first (h : tabGet? x.firsts m = none) :
    x.heard q m = { x with t0 := min x.t0 q.stamp, firsts := tabPut x.firsts m (chDigest q.f.head, q.stamp) } := by
  simp [Coll.heard, h]

theorem Coll.heard_of_known {e : Nat × Nat} (h : tabGet? x.firsts m = some e) :
    x.heard q m = { x with t0 := min x.t0 q.stamp } := by
  simp [Coll.heard, h]

theorem checkUp_mismatch (hc : g.coll? (chSeq q.f.head) = some x) (hm : tabGet? x.firsts m = none)
    (hd : (x.heard q m).differing s.time.pip g.members ≠ []) :
    s.checkUp q g m = ((s.setGroup q.f.group (g.putColl (x.heard q m))).consume q).failColl q.f.group (x.heard q m) .mismatch
      (((x.heard q m).differing s.time.pip g.members).map (fun p => (g.members.map Member.range).getD p.1 (0, 0))) false false := by
  have hd' : (!((x.heard q m).differing s.time.pip g.members).isEmpty) = true := by simpa using hd
  rw [Coll.heard_of_first hm] at hd' ⊢
  simp only [State.checkUp, hc, hm, Option.isNone_none, Bool.true_and, if_true]
  exact if_pos hd'

/-- A first frame of another digest than the reference, stamped after all others, is one that differs. -/
theorem differing_of_later {pip : Nat} {ms : List Member} {r : Nat × Nat} (hm : tabGet? x.firsts m = none) (hne : x.firsts ≠ [])
    (hl : ∀ e ∈ x.firsts, e.2.2 < q.stamp) (hr : refMember pip ms x.firsts = some r) (hd : r.2 ≠ chDigest q.f.head) :
    (m, chDigest q.f.head, q.stamp) ∈ (x.heard q m).differing pip ms := by
  unfold Coll.differing
  rw [Coll.heard_of_first hm, refMember_tabPut hm hne hl, hr]
  exact List.mem_filter.mpr ⟨mem_tabPut hm _, by simpa using fun e => hd e.symm⟩

theorem checkUp_duplicate {st0 : Nat} (hc : g.coll? (chSeq q.f.head) = some x)
    (hm : tabGet? x.firsts m = some (chDigest q.f.head, st0)) (hb : coveredBytes q.f.head = coveredBytes x.hdr)
    (ho : opsBad q.f.head q.f.n = false) (hg : m ∈ (tabGet x.slices {} (chSlice q.f.head)).got) :
    s.checkUp q g m = ((s.setGroup q.f.group (g.putColl (x.heard q m))).consume q).bump .coll q.die ccDuplicate := by
  rw [Coll.heard_of_known hm]
  simp [State.checkUp, hc, hm, hb, ho, hg]

end

/-! ### The rows -/

section
variable {s : State} {ing : Nat} {c : Instr} (hc : c = .contrib ing ∨ c = .partialFrame ing) {q : QFrame}
  (h1 : c = .contrib ing → chKind q.f.head = 1) (h2 : c = .partialFrame ing → chKind q.f.head = 2)
include hc h1 h2

/-- Both rows serve the frames of their kind alike. -/
theorem exec_inputRow : ∃ mine : Nat → Bool, mine (chKind q.f.head) = true ∧
    exec c s = s.upRow ing mine (fun s q g m => s.checkUp q g m) := by
  rcases hc with rfl | rfl
  · exact ⟨fun k => k != 2 && k != 5, by rw [h1 rfl]; rfl, rfl⟩
  · exact ⟨fun k => k == 2, by rw [h2 rfl]; rfl, rfl⟩

end

theorem otherCounter_ccDuplicate : otherCounter ccDuplicate := by unfold otherCounter; decide

/-- Settles O16: the frame of a member passes the checks of its row (`upRow_known`) and is noted, fails the collective or is a
duplicate (`checkUp_opens`, `checkUp_mismatch`, `checkUp_duplicate`); a later first frame leaves the reference (`refMember_tabPut`). -/
theorem tallyInputs : Obligations.TallyInputs := by
  unfold Obligations.TallyInputs
  intro ing s c hc
  refine ⟨fun q g m mb h hmb h1 h2 => ?_, fun q hq hn h1 h2 => ?_⟩
  · obtain ⟨mine, hmine, hexec⟩ := exec_inputRow (s := s) hc (fun e => (h1 e).1) h2
    have hallow : chKind q.f.head = 2 ∨ chKind q.f.head = 5 ∨
        ∃ mb, g.members[m]? = some mb ∧ chKind q.f.head = 1 ∧ mb.switch = false ∧ mb.cnt = 1 := by
      rcases hc with hc | hc
      · exact .inr (.inr ⟨mb, hmb, h1 hc⟩)
      · exact .inl (h2 hc)
    rw [hexec, h.upRow hmine hallow]
    refine ⟨fun hcoll hs ho hf => ?_, fun x r hcoll hm hne hl hr hd => ?_, fun x st0 hcoll hm hb ho hg => ?_⟩
    · rw [checkUp_opens hcoll hs ho hf]
      exact ⟨_, openedBy q m, rfl, (congrArg (tabGet? · q.f.group) (coll_noted ..)).trans (coll_setGroup ..), rfl, rfl, rfl,
        mem_noted (mem_frames_of_localHead h.head), noted_setGroup_frame ..⟩
    · have hmem := differing_of_later hm hne hl hr hd
      rw [checkUp_mismatch hcoll hm (List.ne_nil_of_mem hmem)]
      refine ⟨_, x.heard q m, _, rfl, (Group.seq_of_coll? hcoll : x.seq = _), List.mem_map.mpr ⟨_, hmem, ?_⟩,
        (congrArg (tabGet? · q.f.group) (coll_consume ..)).trans (coll_setGroup ..), mem_consume (s.setGroup _ _) q⟩
      simp [List.getD, hmb]
    · rw [checkUp_duplicate hcoll hm hb ho hg]
      refine ⟨_, g.putColl (x.heard q m), rfl,
        (congrArg (tabGet? · q.f.group) (coll_consume (s.setGroup _ _) q)).trans (coll_setGroup ..), Group.oldest_putColl ..,
        Group.closed_putColl .., mem_consume (s.setGroup _ _) q, ?_⟩
      rw [count_bump_self, count_consume _ _ _ otherCounter_ccDuplicate]
      rfl
  · obtain ⟨mine, hmine, hexec⟩ := exec_inputRow (s := s) hc h1 h2
    have hallow (g : Group) (m : Nat) (mb : Member) (hmb : g.members[m]? = some mb) (hs : mb.switch = false) (hcnt : mb.cnt = 1) :
        chKind q.f.head = 2 ∨ chKind q.f.head = 5 ∨
          ∃ mb, g.members[m]? = some mb ∧ chKind q.f.head = 1 ∧ mb.switch = false ∧ mb.cnt = 1 := by
      rcases hc with hc | hc
      · exact .inr (.inr ⟨mb, hmb, h1 hc, hs, hcnt⟩)
      · exact .inl (h2 hc)
    rw [hexec]
    refine ⟨fun hg => ⟨upRow_foreign hq hn hmine hg, coll_consume s q⟩,
      fun g m mb hg hm hmb hs hcnt hb hl => ?_, fun g m mb x hg hm hmb hs hcnt hb hl hx => ?_⟩
    · rw [upRow_known hq hn hmine hg hm (hallow g m mb hmb hs hcnt) hb, hl]
      rfl
    · rw [upRow_known hq hn hmine hg hm (hallow g m mb hmb hs hcnt) hb, hl, hx]
      rfl

end Sys2Proof.Machine
end

section
/-! PROOF. Admission to TALLY when the reset of an error is due (O17). -/

namespace Sys2Proof.Machine

open Sys2Proof

/-- TALLY_ADMIT drops the checked frame of a collective that is over, and then begins the resets that errors made due. -/
theorem exec_tallyAdmit_late {ing : Nat} {s : State} {q : QFrame} {m : Nat} {g : Group} (hq : s.localHead ing 3 4 = some q)
    (hm : q.note = some m) (hg : s.groupFor q = some g) (hc : g.coll? (chSeq q.f.head) = none) :
    exec (.tallyAdmit ing) s = .next (s.late q).settle := by
  change settled (rowTallyAdmit ing s) = _
  simp only [rowTallyAdmit, hq, hm, hg, hc, settled_next]

/-- A group of one endpoint on link 4, without an open collective. -/
def quietGroup : Group :=
  { arrival := false, lo := 0, cnt := 1, n := 1, parent := none, parentFid := 0, parentGroup := 0, home := 0, depth := 0,
    timeout := 4096, window := 2, suspectK := 1, rub := none, oldest := 3,
    members := [{ lk := 4, switch := false, lo := 0, cnt := 1, fid := 7, stride := 4096 }] }

/-- A checked frame of that endpoint for group 8, as the CONTRIB row leaves it for admission. -/
def checkedFrame : QFrame :=
  { die := 0, ing := 4, dest := .tally, stamp := 0, acct := portAcct 2 3, hanks := [], note := some 0,
    f := { ty := 4, vc := 3, ch := 0, dst := 0xFFFFF, src := 7, spec := 8 * 4096, cells := 1 :: List.replicate 127 0 } }

/-- The frame waits at a READY device where the reset that an error of Stitch 0 asked for is due. -/
def resetDueState : State :=
  { State.reset with
    boot := { phase := .ready, jobs := [{ scope := 5, unit := 0, source := 6, due := 0 }] }
    buf := { frames := [checkedFrame] }
    coll := [(8, quietGroup)] }

/-- Dropping the frame leaves the due reset unbegun. -/
theorem jobs_late_resetDueState :
    (resetDueState.late checkedFrame).boot.jobs = [{ scope := 5, unit := 0, source := 6, due := 0 }] := by
  decide +kernel

/-- The end of the step begins it. -/
theorem jobs_settle_resetDueState :
    (resetDueState.late checkedFrame).settle.boot.jobs = [{ scope := 5, unit := 0, source := 6, due := 0, begun := true }] := by
  decide +kernel

/-- Refutes O17: the row of TALLY_ADMIT also begins the resets that errors made due (log entry 13, SETTLE), which no clause of the
statement names. In `resetDueState` the late frame is dropped, and the reset of Stitch 0 begins in the same step. -/
theorem not_tallyAdmission : ¬ Obligations.TallyAdmission := by
  unfold Obligations.TallyAdmission
  intro h
  have hq : resetDueState.localHead 4 3 4 = some checkedFrame := by decide +kernel
  have hg : resetDueState.groupFor checkedFrame = some quietGroup := by decide +kernel
  have hc : quietGroup.coll? (chSeq checkedFrame.f.head) = none := by decide +kernel
  have claimed := (h 4 resetDueState checkedFrame 0 quietGroup hq rfl hg).1 hc
  rw [exec_tallyAdmit_late hq rfl hg hc] at claimed
  have hs : (resetDueState.late checkedFrame).settle = resetDueState.late checkedFrame := by simpa using claimed
  have hj := jobs_settle_resetDueState
  rw [hs, jobs_late_resetDueState] at hj
  simp at hj

end Sys2Proof.Machine
end

section
/-! SUPPORT. What the rows of local memory leave unchanged: a frame that is consumed, an answer that a Skein sends (05 R151, R152; 09 R278,
R279). -/

namespace Sys2Proof.Machine

open Sys2Proof

/-! ### Frames that a Skein sends -/

section
variable {s t : State} (h : t.offBuf = s.offBuf)
include h

theorem tile_of_offBuf (st : Nat) : t.tile st = s.tile st := (congrArg (fun s : State => s.tile st) h :)
theorem ueWords_of_offBuf : t.ueWords = s.ueWords := (congrArg State.ueWords h :)

end

section
variable (s : State)

@[simp] theorem offBuf_sendSkein (k : Nat) (f : Frame) : (s.sendSkein k f).offBuf = s.offBuf := by
  unfold State.sendSkein State.sendSkeinWith
  extract_lets g first t
  have ht : t.offBuf = s.offBuf := offBuf_countStamp ..
  split
  · exact (offBuf_enterUnit ..).trans ht
  · exact (offBuf_place _ _ _ (fun _ _ _ => offBuf_enterUnit ..)).trans ht

@[simp] theorem offBuf_answerErr (q : QFrame) (st : Status) : (s.answerErr q st).offBuf = s.offBuf := offBuf_sendSkein ..

/-! ### A frame that is consumed -/

variable (q : QFrame)

theorem route_consume : (s.consume q).route = s.route := (route_of_offHanks (offHanks_freeFrame ..)).trans (route_setFrames ..)

theorem ueWords_consume : (s.consume q).ueWords = s.ueWords := ueWords_of_offBuf (offBuf_consume ..)

/-- The frames that stay, but for the stamps and tags of heads. -/
theorem bare_consume : (s.consume q).buf.frames.map QFrame.bare = (s.buf.frames.erase q).map QFrame.bare := by
  unfold State.consume State.dropQueued
  rw [frames_freeFrame, bare_setFrames]

theorem wait_consume : (s.consume q).buf.wait = s.buf.wait :=
  (wait_of_offHanks (offHanks_freeFrame ..)).trans (wait_setFrames ..)

end

theorem any_erase_of_false {α : Type} [BEq α] [LawfulBEq α] {p : α → Bool} {a : α} {l : List α} (h : a ∈ l) (ha : p a = false) :
    (l.erase a).any p = l.any p := by
  rw [(List.perm_cons_erase h).any_eq, List.any_cons, ha, Bool.false_or]

theorem local_of_localHead {s : State} {ing vc ty : Nat} {q : QFrame} (h : s.localHead ing vc ty = some q) : q.local = true := by
  have hp := List.find?_some h
  simp only [Bool.and_eq_true] at hp
  exact hp.1.1.1.1.1.1

/-! ### Requests while a frame is consumed -/

section
variable {s : State} {q : QFrame} (hm : q ∈ s.buf.frames) (hl : q.local = true)

theorem reqFor_consume (f : Frame) : (s.consume q).reqFor f = s.reqFor f := by
  unfold State.reqFor; rw [route_consume]

/-- A queued frame of an internal source that carries a request out of the device. -/
def Request.leaving (r : Request) (x : QFrame) : Bool := !x.local && decide (x.ing ≥ 128) && r.carries x.f

theorem unsent_eq (s : State) (r : Request) :
    s.unsent r = (!r.gone && (s.buf.frames.any r.leaving || s.buf.wait.any (fun w => r.carries w.q.f))) := rfl

include hm hl

/-- A frame that waited for a unit of the device was no request on its way out. -/
theorem unsent_consume (r : Request) : (s.consume q).unsent r = s.unsent r := by
  have hbare (fs : List QFrame) : fs.any r.leaving = (fs.map QFrame.bare).any r.leaving := by rw [List.any_map]; rfl
  have hframes : (s.consume q).buf.frames.any r.leaving = s.buf.frames.any r.leaving := by
    rw [hbare, bare_consume, ← hbare]
    exact any_erase_of_false hm (by simp [Request.leaving, hl])
  rw [unsent_eq, unsent_eq, hframes, wait_consume]

theorem inTime_consume (r : Request) (x : QFrame) : (s.consume q).inTime r x = s.inTime r x := by
  unfold State.inTime State.due
  rw [unsent_consume hm hl]

end

end Sys2Proof.Machine
end

section
/-! PROOF. READ_RSP, ERR_COMPL and FAR_TIMEOUT (05 R152, R165; 09 R278, R287; 02 R52). -/

namespace Sys2Proof.Machine

open Sys2Proof

section
variable {s : State} {ing ty : Nat} {q : QFrame} {ans : Frame → Except Status (List Byte)} (hq : s.localHead ing 2 ty = some q)
include hq

/-- A response in time gives its request the answer. -/
theorem responseRow_inTime {r : Request} (hr : s.reqFor q.f = some r) (ht : s.inTime r q = true) :
    s.responseRow ing ty ans = .next ((s.consume q).answered r (ans q.f) q.stamp) := by
  simp only [State.responseRow, hq, reqFor_consume, hr, inTime_consume (mem_frames_of_localHead hq) (local_of_localHead hq), ht, if_true]

/-- A late response, and one to no request, is only counted. -/
theorem responseRow_late (h : ∀ r, s.reqFor q.f = some r → s.inTime r q = false) :
    s.responseRow ing ty ans = .next ((s.consume q).bump .route q.die rcLate) := by
  simp only [State.responseRow, hq, reqFor_consume]
  cases hr : s.reqFor q.f with
  | none => rfl
  | some r =>
    simp only [inTime_consume (mem_frames_of_localHead hq) (local_of_localHead hq), h r hr, Bool.false_eq_true, if_false]

end

theorem otherCounter_rcLate : otherCounter rcLate := by unfold otherCounter; decide

/-- A discarded response changes neither requests nor memory, and adds one to its counter. -/
theorem lateResponse_frame (s : State) (q : QFrame) :
    ((s.consume q).bump .route q.die rcLate).route = s.route ∧ ((s.consume q).bump .route q.die rcLate).mem = s.mem ∧
      ((s.consume q).bump .route q.die rcLate).count .route q.die rcLate = min cMax (s.count .route q.die rcLate + 1) :=
  ⟨route_consume s q, mem_consume s q, by rw [count_bump_self, count_consume _ _ _ otherCounter_rcLate]⟩

/-- The answer that an ERR_COMPL brings. -/
def errAnswer (f : Frame) : Except Status (List Byte) :=
  match (Status.ofCode (bits f.spec 0 8)).getD .aborted with | .ok => .ok [] | e => .error e

theorem errAnswer_of_code {f : Frame} {st : Status} (h : Status.ofCode (bits f.spec 0 8) = some st) :
    errAnswer f = if st = .ok then .ok [] else .error st := by
  unfold errAnswer
  rw [h]
  cases st <;> rfl

theorem exec_readRsp (ing : Nat) (s : State) :
    exec (.readRsp ing) s = s.responseRow ing 2 (fun f => .ok (f.cells.take f.dataLen)) := rfl

theorem exec_errCompl (ing : Nat) (s : State) : exec (.errCompl ing) s = settled (s.responseRow ing 11 errAnswer) := rfl

section
variable {s : State} {dst seq : Nat} {r : Request} (hr : s.route.reqs.find? (fun x => x.dst == dst && x.seq == seq) = some r)
include hr

theorem exec_farTimeout_waits (h : (∀ d, s.due r = some d → s.time.pip < d) ∨ s.answerWaits r = true) :
    exec (.farTimeout dst seq) s = .next s := by
  have hoff : ¬(r.far = true ∧ (s.due r).any (· ≤ s.time.pip) = true ∧ s.answerWaits r = false) := by
    rintro ⟨-, hd, ha⟩
    rcases h with h | h
    · cases hdue : s.due r with
      | none => simp [hdue] at hd
      | some d => exact absurd (h d hdue) (by simpa [hdue] using hd)
    · simp [h] at ha
  show execFarTimeout dst seq s = _
  simp only [execFarTimeout, hr, if_neg hoff]

theorem exec_farTimeout_ends {d : Nat} (hd : s.due r = some d) (hle : d ≤ s.time.pip) (ha : s.answerWaits r = false) (hf : r.far = true) :
    exec (.farTimeout dst seq) s = .next (s.answered r (.error .timeout) s.time.pip) := by
  show execFarTimeout dst seq s = _
  simp [execFarTimeout, hr, hd, hle, ha, hf]

end

theorem far_of_who {r : Request} (h1 : ∀ h k, r.who ≠ .mirror h k) (h2 : ∀ h, r.who ≠ .seal h) : r.far = true := by
  unfold Request.far
  split
  case h_1 hw => exact absurd hw (h1 _ _)
  case h_2 hw => exact absurd hw (h2 _)
  case h_3 => rfl

/-- Settles O24: a response in time answers its request (`responseRow_inTime`), any other is discarded and counted
(`responseRow_late`, `lateResponse_frame`), and FAR_TIMEOUT ends a request that is due and has no answer waiting. -/
theorem farRequests : Obligations.FarRequests := by
  unfold Obligations.FarRequests
  refine ⟨fun ing s q hq => ⟨fun r hr ht => ?_, fun h => ?_⟩, fun ing s q hq => ⟨fun r st hr ht hst => ?_, fun h => ?_⟩,
    fun dst seq s r hr => ⟨exec_farTimeout_waits hr, fun d hd hle ha h1 h2 => exec_farTimeout_ends hr hd hle ha (far_of_who h1 h2)⟩⟩
  · rw [exec_readRsp, responseRow_inTime hq hr ht]
  · rw [exec_readRsp, responseRow_late hq h]
    exact ⟨_, rfl, lateResponse_frame s q⟩
  · rw [exec_errCompl, responseRow_inTime hq hr ht, errAnswer_of_code hst]
    exact ⟨_, rfl, rfl⟩
  · rw [exec_errCompl, responseRow_late hq h]
    exact ⟨_, rfl, lateResponse_frame s q⟩

end Sys2Proof.Machine
end

section
/-! SUPPORT. ATOMIC frames: what the shared row does with one (09 R284), and paired values while a frame is consumed. -/

namespace Sys2Proof.Machine

open Sys2Proof

/-! ### Paired values whose halves disagree (17 R474, R475) -/

section
variable (s : State)

theorem mismatch_freeHank (die src : Nat) (dram : Bool) (k : Nat × Nat) : (s.freeHank die src dram k).1.mismatch ⊆ s.mismatch := by
  unfold State.freeHank
  extract_lets key w
  split
  · exact List.filter_subset_self _
  · split <;> exact List.Subset.refl _

theorem mismatch_freeChain (q : Chain) : (s.freeChain q).mismatch ⊆ s.mismatch := by
  unfold State.freeChain
  rw [advertise_frame]
  refine List.foldlRecOn (motive := fun t : State => t.mismatch ⊆ s.mismatch) q.hanks _ (List.Subset.refl _) (fun t ht k _ => ?_)
  extract_lets r y
  have hr : r.1.mismatch ⊆ s.mismatch := List.Subset.trans (mismatch_freeHank ..) ht
  split
  · exact hr
  · exact hr

/-- A release may report a torn hank, and tears nothing. -/
theorem mismatch_consume (q : QFrame) : (s.consume q).mismatch ⊆ s.mismatch := by
  have hd : (s.dropQueued q).mismatch = s.mismatch := (congrArg State.mismatch (offTags_setFrames s _) :)
  unfold State.consume State.freeFrame
  rw [← hd]
  exact List.foldlRecOn (motive := fun t : State => t.mismatch ⊆ (s.dropQueued q).mismatch) q.rel _ (mismatch_freeChain ..)
    (fun _ ht c _ => List.Subset.trans (mismatch_freeChain ..) ht)

end

theorem cntTorn_consume {s : State} {st n : Nat} (h : s.cntTorn st n = false) (q : QFrame) : (s.consume q).cntTorn st n = false := by
  simp only [State.cntTorn, State.torn, List.contains_eq_mem, decide_eq_false_iff_not] at h ⊢
  exact fun hm => h (mismatch_consume s q hm)

/-! ### Answers -/

/-- The state once a frame without data to return is answered: ERR_COMPL ST_OK where its sender asked for one (R284). -/
def State.acknowledged (s : State) (q : QFrame) : State := if q.f.ackReq then s.answerErr q .ok else s

theorem acknowledged_of_ackReq {s : State} {q : QFrame} (h : q.f.ackReq = true) : s.acknowledged q = s.answerErr q .ok := if_pos h

theorem offBuf_acknowledged (s : State) (q : QFrame) : (s.acknowledged q).offBuf = s.offBuf := by
  unfold State.acknowledged
  split
  · exact offBuf_answerErr ..
  · rfl

/-- The state after a refused access: the frame goes, and the refusal is counted (R279, R284). -/
def State.refused (s : State) (q : QFrame) : State := (s.consume q).bump .local q.die lcRefused

theorem mem_refused (s : State) (q : QFrame) : (s.refused q).mem = s.mem := mem_consume s q

/-! ### The row of an ATOMIC frame (R284 to R286) -/

/-- The state after the atomic of a frame has stored its value over the `old` bytes of its location (Table 09-7). -/
def State.atomicApplied (s : State) (q : QFrame) (key n : Nat) : State :=
  let v := atomApply (bits q.f.spec 0 8) (leNat (s.read key n)) (q.f.operand (atomOperands (bits q.f.spec 0 8)))
  ((s.consume q).write key (leBytes n v.1)).atomCount key v.2

theorem atomSize_mod (c : Nat) : atomSize (c % 128) = atomSize c := by
  unfold atomSize
  rw [Nat.mod_mod]

@[simp] theorem firstUe_consume (s : State) (q : QFrame) (key n : Nat) : (s.consume q).firstUe key n = s.firstUe key n := by
  unfold State.firstUe
  rw [ueWords_consume]

@[simp] theorem read_consume (s : State) (q : QFrame) (key n : Nat) : (s.consume q).read key n = s.read key n := by
  unfold State.read
  rw [mem_consume]

theorem memOk_consume {s : State} (h : s.MemOk) (q : QFrame) : (s.consume q).MemOk := (congrArg memWf (mem_consume s q)).trans h

theorem load_of_sound {s : State} {key n : Nat} (h : s.firstUe key n = none) : s.load key n = (s, .ok (s.read key n)) := by
  simp only [State.load, h]

section
variable {s : State} {ing code : Nat} {q : QFrame} (hq : s.localHead ing 1 3 = some q) (hc : bits q.f.spec 0 8 % 128 = code)
include hq hc

theorem atomicRow_refused {st : Status} (h : s.atomicStatus q.f = some st) :
    s.atomicRow ing code = .next ((s.refused q).answerErr q st) := by
  simp only [State.atomicRow, hq, hc, h, decide_true, Bool.true_or, Bool.not_true, Bool.false_eq_true, if_false]
  rfl

variable (h : s.atomicStatus q.f = none)
include h

/-- A signal that nothing refuses reaches an ACTIVE Stitch. -/
theorem atomicRow_signal {st : Nat} (h20 : 0x20 ≤ code) (hst : signalStitch (bits q.f.offset 0 32) = some st)
    (hp : (s.tile st).power = .active) :
    s.atomicRow ing code = .next (((s.consume q).signal st (bits q.f.spec 0 8) (q.f.operand 8)).acknowledged q) := by
  simp only [State.atomicRow, hq, hc, h, h20, hst, hp, decide_true, Bool.true_or, Bool.not_true, Bool.false_eq_true, if_false, if_true,
    Option.getD_some, ne_eq, not_true, decide_false]
  rfl

variable {n : Nat} (hn : atomSize code = some n) (h20 : code < 0x20)
include hn h20

theorem atomicRow_waits (hr : s.memReady q.skein (offsetAddr q.f.offset) n = false) : s.atomicRow ing code = .next s := by
  have hn' : atomSize (bits q.f.spec 0 8) = some n := by rw [← atomSize_mod, hc, hn]
  simp only [State.atomicRow, hq, hc, h, hn', hr, Nat.not_le.mpr h20, decide_true, Bool.true_or, Bool.not_true, Bool.not_false,
    Bool.false_eq_true, if_false, if_true, Option.getD_some]

/-- An atomic that nothing refuses or holds, on correctable words. -/
theorem atomicRow_applied (hr : s.memReady q.skein (offsetAddr q.f.offset) n = true)
    (hu : s.firstUe (memKey (offsetAddr q.f.offset)) n = none) :
    s.atomicRow ing code = .next
      (let u := s.atomicApplied q (memKey (offsetAddr q.f.offset)) n
       if bit (bits q.f.spec 0 8) 7 then u.acknowledged q
       else u.sendSkein q.skein (u.readRspTo q.f (s.read (memKey (offsetAddr q.f.offset)) n))) := by
  have hn' : atomSize (bits q.f.spec 0 8) = some n := by rw [← atomSize_mod, hc, hn]
  have hl : (s.consume q).load (memKey (offsetAddr q.f.offset)) n = (s.consume q, .ok (s.read (memKey (offsetAddr q.f.offset)) n)) := by
    rw [load_of_sound (by simpa using hu), read_consume]
  simp only [State.atomicRow, State.atomic, hq, hc, h, hn', hr, hl, Nat.not_le.mpr h20, decide_true, Bool.true_or, Bool.not_true,
    Bool.false_eq_true, if_false, Option.getD_some]
  split <;> rfl

end

end Sys2Proof.Machine
end

section
/-! PROOF. Signals from the fabric, and the retention of scratchpad banks (09 R267, R271, R284). -/

namespace Sys2Proof.Machine

open Sys2Proof

/-! ### Flags and counters of a Stitch -/

section
variable (s : State) (st : Nat)

@[simp] theorem flags_atTile : ((s.atTile st).tile st).flags = (s.tile st).flags := by simp [State.atTile]
@[simp] theorem cnts_atTile : ((s.atTile st).tile st).cnts = (s.tile st).cnts := by simp [State.atTile]
@[simp] theorem awake_atTile : ((s.atTile st).tile st).awake = (s.tile st).awake := by simp [State.atTile]

@[simp] theorem flags_setFlag (f : Nat) : ((s.setFlag st f).tile st).flags = (s.tile st).flags ||| (1#32 <<< f) := by simp [State.setFlag]
@[simp] theorem cnts_setFlag (f : Nat) : ((s.setFlag st f).tile st).cnts = (s.tile st).cnts := by simp [State.setFlag]

theorem mem_addCntr (n v : Nat) : (s.addCntr st n v).mem = s.mem := by
  unfold State.addCntr
  split <;> rfl

variable {n : Nat} (h : s.cntTorn st n = false) (v : Nat)
include h

theorem flags_addCntr : ((s.addCntr st n v).tile st).flags = (s.tile st).flags := by
  simp [State.addCntr, State.setCntr, h]

/-- A counter with sound halves takes the sum modulo 2^32, the others stay (R271). -/
theorem cnt_addCntr (m : Nat) :
    ((s.addCntr st n v).tile st).cnt m = if m = n then ((s.tile st).cnt n + v) % 2 ^ 32 else (s.tile st).cnt m := by
  simp only [State.addCntr, State.setCntr, h, Bool.false_eq_true, if_false, tile_setTile_self, Stitch.cnt, tabGet, tabGet?_tabPut]
  split <;> rfl

end

/-! ### SIGNAL_FLAG and SIGNAL_CNT -/

section
variable {s : State} {ing st : Nat} {q : QFrame} (hq : s.localHead ing 1 3 = some q) (h : s.atomicStatus q.f = none)
  (hst : signalStitch (bits q.f.offset 0 32) = some st) (hp : (s.tile st).power = .active)
include hq h hst hp

theorem exec_signalFlag (hc : bits q.f.spec 0 8 % 128 = 0x20) :
    exec (.signalFlag ing) s = .next ((((s.consume q).atTile st).setFlag st (bits (q.f.operand 8) 0 5)).acknowledged q).settle := by
  have hsig : (s.consume q).signal st (bits q.f.spec 0 8) (q.f.operand 8) =
      ((s.consume q).atTile st).setFlag st (bits (q.f.operand 8) 0 5) := if_pos hc
  rw [← hsig]
  exact congrArg settled (atomicRow_signal hq hc h (by decide) hst hp)

theorem exec_signalCnt (hc : bits q.f.spec 0 8 % 128 = 0x21) :
    exec (.signalCnt ing) s =
      .next ((((s.consume q).atTile st).addCntr st (bits (q.f.operand 8) 32 4) (bits (q.f.operand 8) 0 32)).acknowledged q).settle := by
  have hsig : (s.consume q).signal st (bits q.f.spec 0 8) (q.f.operand 8) =
      ((s.consume q).atTile st).addCntr st (bits (q.f.operand 8) 32 4) (bits (q.f.operand 8) 0 32) := if_neg (by rw [hc]; decide)
  rw [← hsig]
  exact congrArg settled (atomicRow_signal hq hc h (by decide) hst hp)

end

/-! ### Retention (R267) -/

section
variable {s : State} {st : Nat} (hs : s.stitchStatus st = none)
include hs

theorem exec_spadRetainWrite (w : BitVec 32) (hp : (s.tile st).power = .active) :
    exec (.spadRetainWrite st w) s = .next ((s.atTile st).writeRetain st w) := by
  show execSpadRetainWrite st w s = _
  simp [execSpadRetainWrite, hs, hp]

variable {bank : Nat} (hb : bank < 32)
include hb

theorem exec_bankWake (ha : (s.tile st).awake.getLsbD bank = false) (hp : (s.tile st).power = .active) :
    exec (.bankWake st bank) s = .next (s.setTile st { s.tile st with
      awake := (s.tile st).awake ||| (1#32 <<< bank), idle := tabPut (s.tile st).idle bank s.time.pip }) := by
  show execBankWake st bank s = _
  simp only [execBankWake, hs, ha, hp, ge_iff_le, Nat.not_le.mpr hb, Option.isSome_none, decide_false, ne_eq, not_true, Bool.or_self,
    Bool.false_eq_true, if_false]

/-- A bank whose bit is 1, quiet for 2,048 core cycles since its last access or not woken since, and with no access pending. -/
theorem exec_bankRetentionEntry (ha : (s.tile st).awake.getLsbD bank = true) (hr : (s.tile st).retain.getLsbD bank = true)
    (hi : ∀ p, tabGet? (s.tile st).idle bank = some p → p + s.cyclesPips (st / 256) 2048 ≤ s.time.pip)
    (hn : s.bankPending st bank = false) :
    exec (.bankRetentionEntry st bank) s =
      .next (s.setTile st { s.tile st with awake := (s.tile st).awake &&& ~~~(1#32 <<< bank) }) := by
  show execBankRetentionEntry st bank s = _
  cases hidle : tabGet? (s.tile st).idle bank with
  | none => simp [execBankRetentionEntry, hs, ha, hr, hb, hn, hidle]
  | some p => simp [execBankRetentionEntry, hs, ha, hr, hb, hn, hidle, hi p hidle]

omit hs hb in
theorem exec_bankRetentionEntry_unset (hr : (s.tile st).retain.getLsbD bank = false) :
    exec (.bankRetentionEntry st bank) s = .next s := by
  show execBankRetentionEntry st bank s = _
  simp [execBankRetentionEntry, hr]

end

theorem retain_writeRetain (s : State) (st : Nat) (w : BitVec 32) : ((s.writeRetain st w).tile st).retain = w := by
  simp [State.writeRetain]

theorem awake_writeRetain (s : State) (st : Nat) (w : BitVec 32) :
    ((s.writeRetain st w).tile st).awake = (s.tile st).awake ||| ~~~w := by
  simp [State.writeRetain]

/-- Settles O22: a signal changes its flag or counter alone (`flags_setFlag`, `cnt_addCntr`), releases of hanks tear no counter
(`cntTorn_consume`); a write of SPAD_RETAIN, a wake and an entry into retention replace one Stitch. -/
theorem signalsAndRetention : Obligations.SignalsAndRetention := by
  unfold Obligations.SignalsAndRetention
  refine ⟨fun ing s q st hq h hst hp =>
      ⟨fun hc => ⟨_, exec_signalFlag hq h hst hp hc, ?_⟩, fun hc ht => ⟨_, exec_signalCnt hq h hst hp hc, ?_⟩⟩,
    fun st w s hs hp => ⟨_, exec_spadRetainWrite hs w hp, retain_writeRetain .., fun b hb hw => ?_, fun b hw => ?_, rfl⟩,
    fun st bank s hs hb => ⟨fun ha hp => ⟨_, exec_bankWake hs hb ha hp, by simp, rfl⟩,
      fun ha hr hi hn => ⟨_, exec_bankRetentionEntry hs hb ha hr hi hn, by simp, rfl⟩, exec_bankRetentionEntry_unset⟩⟩
  · have htile : (s.consume q).tile st = s.tile st := tile_of_offBuf (offBuf_consume ..) st
    rw [tile_of_offBuf (offBuf_acknowledged ..), mem_of_offBuf (offBuf_acknowledged ..), flags_setFlag, cnts_setFlag, flags_atTile,
      cnts_atTile, htile]
    exact ⟨rfl, rfl, mem_consume s q, fun ha => ⟨_, acknowledged_of_ackReq ha⟩⟩
  · have htile : (s.consume q).tile st = s.tile st := tile_of_offBuf (offBuf_consume ..) st
    have hsound : ((s.consume q).atTile st).cntTorn st (bits (q.f.operand 8) 32 4) = false := cntTorn_consume ht q
    have hcnt (m : Nat) : (((s.consume q).atTile st).tile st).cnt m = (s.tile st).cnt m := by
      rw [Stitch.cnt, cnts_atTile, htile]; rfl
    rw [tile_of_offBuf (offBuf_acknowledged ..), mem_of_offBuf (offBuf_acknowledged ..), flags_addCntr _ _ hsound, flags_atTile, htile,
      mem_addCntr]
    simp only [cnt_addCntr _ _ hsound, hcnt, if_true]
    exact ⟨trivial, fun m hm => if_neg hm, trivial, mem_consume s q, fun ha => ⟨_, acknowledged_of_ackReq ha⟩⟩
  · rw [awake_writeRetain, awake_atTile, BitVec.getLsbD_or, BitVec.getLsbD_not, hw]
    simp [hb]
  · rw [awake_writeRetain, awake_atTile, BitVec.getLsbD_or, BitVec.getLsbD_not, hw]
    simp

end Sys2Proof.Machine
end

section
/-! PROOF. Atomics on device DRAM (09 R284 to R286, Table 09-7). -/

namespace Sys2Proof.Machine

open Sys2Proof

/-! ### Memory after a write -/

@[simp] theorem length_leBytes (n x : Nat) : (leBytes n x).length = n := by
  induction n generalizing x with
  | zero => rfl
  | succ n ih => simp [leBytes, ih]

/-- A write replaces the bytes of its range and leaves the others. -/
theorem memGet_memPutAll {m : List Host.Cell} (h : memWf m = true) (a : Nat) (bs : List Byte) (k : Nat) :
    memGet (memPutAll m a bs) k = if a ≤ k ∧ k < a + bs.length then bs.getD (k - a) 0 else memGet m k := by
  split
  next hk =>
    obtain ⟨i, rfl⟩ := Nat.exists_eq_add_of_le hk.1
    rw [memGet_memPutAll_in a bs h (by omega), Nat.add_sub_cancel_left]
  next hk => exact memGet_memPutAll_out m a bs (by omega)

/-! ### The rows -/

/-- The thirteen rows serve the codes of Table 09-7. -/
theorem exec_atomic {ing code : Nat} {i : Instr} (s : State)
    (h : (i, code) ∈ [(Instr.addI32 ing, 1), (.addI64 ing, 2), (.addF32 ing, 3), (.addF32x8 ing, 4), (.maxI32 ing, 5), (.minI32 ing, 6),
      (.maxF32 ing, 7), (.minF32 ing, 8), (.and64 ing, 9), (.or64 ing, 10), (.xor64 ing, 11), (.swap64 ing, 12), (.cas64 ing, 13)]) :
    exec i s = s.atomicRow ing code ∧ code < 0x20 := by
  simp only [List.mem_cons, List.not_mem_nil, or_false, Prod.mk.injEq] at h
  rcases h with h | h | h | h | h | h | h | h | h | h | h | h | h
  all_goals
    obtain ⟨rfl, rfl⟩ := h
    exact ⟨rfl, by decide⟩

theorem mem_atomicApplied (s : State) (q : QFrame) (key n : Nat) : (s.atomicApplied q key n).mem =
    memPutAll s.mem key (leBytes n
      (atomApply (bits q.f.spec 0 8) (leNat (s.read key n)) (q.f.operand (atomOperands (bits q.f.spec 0 8)))).1) :=
  (State.write_mem ..).trans (by rw [mem_consume])

/-- The answer to an atomic, or none with no_return, changes queues alone. -/
theorem offBuf_atomicAnswer (u : State) (q : QFrame) (quiet : Bool) (bs : List Byte) :
    (if quiet then u.acknowledged q else u.sendSkein q.skein (u.readRspTo q.f bs)).offBuf = u.offBuf := by
  split
  · exact offBuf_acknowledged ..
  · exact offBuf_sendSkein ..

/-! ### Results as numbers (R213, Table 09-7) -/

theorem bits_zero_of_lt {x n : Nat} (h : x < 2 ^ n) : bits x 0 n = x := Nat.mod_eq_of_lt h

@[simp] theorem toInt_bits (x : Nat) : toInt 32 (bits x 0 32) = toInt 32 x := by
  simp only [toInt, bits, Nat.shiftRight_zero, Nat.mod_mod]

theorem toInt_ofInt {i : Int} (h : -2147483648 ≤ i ∧ i ≤ 2147483647) : toInt 32 (ofInt 32 i) = i := by
  unfold toInt
  extract_lets v
  have hv : v = (i % 2 ^ 32).toNat % 2 ^ 32 := rfl
  split <;> omega

/-- Saturating addition clamps to the range of I32 and counts when it does (R213). -/
theorem satI32_eq (i : Int) : (satI32 i).1 = max (-2147483648) (min 2147483647 i) ∧
    ((satI32 i).2 = 0 ↔ -2147483648 ≤ i ∧ i ≤ 2147483647) := by
  unfold satI32
  split
  · simp; omega
  · split
    · simp; omega
    · simp; omega

theorem atomApply_addI32 (old x : Nat) :
    toInt 32 (atomApply 1 old x).1 = max (-2147483648) (min 2147483647 (toInt 32 old + toInt 32 x)) ∧
    ((atomApply 1 old x).2.sat = 0 ↔ -2147483648 ≤ toInt 32 old + toInt 32 x ∧ toInt 32 old + toInt 32 x ≤ 2147483647) := by
  obtain ⟨hv, hc⟩ := satI32_eq (toInt 32 old + toInt 32 x)
  refine ⟨?_, hc⟩
  show toInt 32 (ofInt 32 (satI32 (toInt 32 old + toInt 32 x)).1) = _
  rw [hv, toInt_ofInt (by omega)]

theorem atomApply_maxI32 (old x : Nat) : toInt 32 (atomApply 5 old x).1 = max (toInt 32 old) (toInt 32 x) := by
  show toInt 32 (if toInt 32 old ≥ toInt 32 x then old else bits x 0 32) = _
  split
  · rw [max_eq_left ‹_›]
  · rw [toInt_bits, max_eq_right (by omega)]

theorem atomApply_minI32 (old x : Nat) : toInt 32 (atomApply 6 old x).1 = min (toInt 32 old) (toInt 32 x) := by
  show toInt 32 (if toInt 32 old ≤ toInt 32 x then old else bits x 0 32) = _
  split
  · rw [min_eq_left ‹_›]
  · rw [toInt_bits, min_eq_right (by omega)]

/-- A compare-and-swap whose operands are the comparand and the new value. -/
theorem atomApply_cas64 (old : Nat) {c n : Nat} (hc : c < 2 ^ 64) (hn : n < 2 ^ 64) :
    (atomApply 13 old (c + n * 2 ^ 64)).1 = if old = c then n else old := by
  have hlo : bits (c + n * 2 ^ 64) 0 64 = c := by simp only [bits, Nat.shiftRight_zero]; omega
  have hhi : bits (c + n * 2 ^ 64) 64 64 = n := by simp only [bits, Nat.shiftRight_eq_div_pow]; omega
  show (if old = bits (c + n * 2 ^ 64) 0 64 then bits (c + n * 2 ^ 64) 64 64 else old) = _
  rw [hlo, hhi]

/-- Settles O21: each row serves its code (`exec_atomic`), refuses, waits or stores what Table 09-7 computes (`atomicRow_refused`,
`atomicRow_waits`, `atomicRow_applied`), and the results of the integer rows are their numbers. -/
theorem atomics : Obligations.Atomics := by
  unfold Obligations.Atomics
  refine ⟨fun ing s i code q hi hq hc => ?_, fun old x _ => ?_, fun old x _ hx => ?_, fun old c n hc hn => atomApply_cas64 old hc hn⟩
  · obtain ⟨hexec, h20⟩ := exec_atomic s hi
    rw [hexec]
    refine ⟨fun st h => ⟨atomicRow_refused hq hc h, ?_⟩, fun n h hn hr => atomicRow_waits hq hc h hn h20 hr,
      fun key n v h hkey hn hr hu hm hv => ?_⟩
    · rw [mem_of_offBuf (offBuf_answerErr ..)]
      exact mem_refused s q
    · subst hkey hv
      refine ⟨_, s.atomicApplied q _ n, atomicRow_applied hq hc h hn h20 hr hu, fun k => ?_, rfl, rfl⟩
      rw [mem_of_offBuf (offBuf_atomicAnswer ..), mem_atomicApplied, memGet_memPutAll hm, length_leBytes]
  · exact ⟨(atomApply_addI32 old x).1, (atomApply_addI32 old x).2, atomApply_maxI32 old x, atomApply_minI32 old x⟩
  · have hb : bits x 0 64 = x := bits_zero_of_lt hx
    exact ⟨rfl, congrArg (old &&& ·) hb, congrArg (old ||| ·) hb, congrArg (old ^^^ ·) hb, hb⟩

end Sys2Proof.Machine
end

section
/-! SUPPORT. Accesses that meet in one core cycle of a scratchpad: what the one with precedence observes, and what memory holds after it
(09 R265). -/

namespace Sys2Proof.Machine

open Sys2Proof

/-! ### Bytes of memory -/

@[simp] theorem length_memGetAll (m : List Host.Cell) (a n : Nat) : (memGetAll m a n).length = n := by
  induction n generalizing a with
  | zero => rfl
  | succ n ih => simp [memGetAll, ih]

theorem getD_memGetAll (m : List Host.Cell) (a : Nat) {n i : Nat} (h : i < n) : (memGetAll m a n).getD i 0 = memGet m (a + i) := by
  induction n generalizing a i with
  | zero => omega
  | succ n ih =>
    cases i with
    | zero => rfl
    | succ i => exact (ih (a + 1) (by omega)).trans (congrArg (memGet m) (by omega))

/-! ### The bytes that writes of the same cycle replaced -/

/-- A byte that one of the writes has replaced. -/
def coversByte (l : List (Nat × Met)) (k : Nat) : Bool :=
  l.any (fun m => decide (padKey m.1 m.2.off ≤ k) && decide (k < padKey m.1 m.2.off + m.2.old.length))

theorem overtaken_eq (s : State) (a n k : Nat) : s.overtaken a n k = coversByte ((s.fabricAccess a n).yielding incoming) k := rfl

section
variable (s : State) (l : List (Nat × Met))

theorem ueWords_putMet : (s.putMet l).ueWords = s.ueWords := by
  unfold State.putMet
  exact foldl_view State.ueWords (by intros; rfl) l s

theorem memWf_putMet {s : State} (h : memWf s.mem = true) : memWf (s.putMet l).mem = true :=
  List.foldlRecOn (motive := fun t : State => memWf t.mem = true) l _ h (fun _ ht _ _ => memWf_memPutAll _ _ ht)

theorem memGet_putMet_out {k : Nat} (h : coversByte l k = false) : memGet (s.putMet l).mem k = memGet s.mem k := by
  unfold coversByte at h
  induction l generalizing s with
  | nil => rfl
  | cons x r ih =>
    rw [List.any_cons, Bool.or_eq_false_iff] at h
    obtain ⟨hx, hr⟩ := h
    refine (ih _ hr).trans (memGet_memPutAll_out _ _ _ ?_)
    simp at hx
    omega

/-- Putting bytes of one memory back at the places of writes. -/
theorem memGet_putMet_in {s : State} {g : List Host.Cell} (hw : memWf s.mem = true)
    (hg : ∀ x ∈ l, x.2.old = memGetAll g (padKey x.1 x.2.off) x.2.old.length) {k : Nat} (h : coversByte l k = true) :
    memGet (s.putMet l).mem k = memGet g k := by
  induction l generalizing s with
  | nil => simp [coversByte] at h
  | cons x r ih =>
    have hx := hg x (List.mem_cons_self ..)
    have hr := fun y hy => hg y (List.mem_cons_of_mem _ hy)
    have hw' := memWf_memPutAll (padKey x.1 x.2.off) x.2.old hw
    by_cases hc : coversByte r k = true
    · exact ih (s := s.setMem _) hw' hr hc
    · have hin : padKey x.1 x.2.off ≤ k ∧ k < padKey x.1 x.2.off + x.2.old.length := by
        unfold coversByte at h hc
        rw [List.any_cons, Bool.or_eq_true, Bool.and_eq_true, decide_eq_true_eq, decide_eq_true_eq] at h
        exact h.resolve_right hc
      refine (memGet_putMet_out _ r (Bool.not_eq_true _ ▸ hc)).trans ?_
      show memGet (memPutAll s.mem _ _) k = _
      rw [memGet_memPutAll hw, if_pos hin, hx, getD_memGetAll _ _ (by omega), Nat.add_sub_cancel' hin.1]

end

/-- The writes with the bytes that a state holds at their places. -/
def State.found (s : State) (l : List (Nat × Met)) : List (Nat × Met) :=
  l.map (fun p => (p.1, { p.2 with old := s.read (padKey p.1 p.2.off) p.2.old.length }))

theorem coversByte_found (s : State) (l : List (Nat × Met)) (k : Nat) : coversByte (s.found l) k = coversByte l k := by
  simp [coversByte, State.found, State.read, List.any_map, Function.comp_def]

/-- Each byte that the writes have replaced ends as the state held it. -/
theorem memGet_putMet_found (s : State) {u : State} (l : List (Nat × Met)) (hw : memWf u.mem = true) (k : Nat) :
    memGet (u.putMet (s.found l)).mem k = if coversByte l k then memGet s.mem k else memGet u.mem k := by
  split
  next hk =>
    refine memGet_putMet_in _ hw (fun x hx => ?_) ((coversByte_found s l k).trans hk)
    obtain ⟨p, -, rfl⟩ := List.mem_map.mp hx
    simp [State.read]
  next hk => exact memGet_putMet_out _ _ ((coversByte_found s l k).trans (Bool.not_eq_true _ ▸ hk))

/-! ### The access with precedence -/

section
variable {α : Type} (s : State) {r : Requester} (f : State → State × α) (hr : r.whole = false)
include hr

/-- The access is made without the writes over which it has precedence; then these are put back (R265). -/
theorem firstBy_eq : ∃ u : State,
    s.firstBy r f = (u.putMet (s.found (s.yielding r)), (f (s.putMet (s.yielding r).reverse)).2) ∧
      u.mem = (f (s.putMet (s.yielding r).reverse)).1.mem ∧ u.ueWords = (f (s.putMet (s.yielding r).reverse)).1.ueWords := by
  unfold State.firstBy
  dsimp only
  split
  next h =>
    rw [hr, Bool.or_false, List.isEmpty_iff] at h
    rw [h]
    exact ⟨(f s).1, rfl, rfl, rfl⟩
  · exact ⟨_, rfl, foldl_view State.mem (by intros; rfl) _ _, foldl_view State.ueWords (by intros; rfl) _ _⟩

theorem firstBy_snd : (s.firstBy r f).2 = (f (s.putMet (s.yielding r).reverse)).2 := by
  obtain ⟨u, hu, -, -⟩ := firstBy_eq s f hr
  rw [hu]

theorem ueWords_firstBy : (s.firstBy r f).1.ueWords = (f (s.putMet (s.yielding r).reverse)).1.ueWords := by
  obtain ⟨u, hu, -, hue⟩ := firstBy_eq s f hr
  rw [hu, ueWords_putMet, hue]

/-- A byte that both write ends with the write that goes last; the others are as the access leaves them (R265). -/
theorem memGet_firstBy (hw : memWf (f (s.putMet (s.yielding r).reverse)).1.mem = true) (k : Nat) :
    memGet (s.firstBy r f).1.mem k =
      if coversByte (s.yielding r) k then memGet s.mem k else memGet (f (s.putMet (s.yielding r).reverse)).1.mem k := by
  obtain ⟨u, hu, hmem, -⟩ := firstBy_eq s f hr
  rw [hu, memGet_putMet_found _ _ (hmem ▸ hw), hmem]

end

/-! ### What an access from the fabric notes of itself (R265, R267) -/

section
variable (s : State) (a n : Nat)

@[simp] theorem core_touch : (s.touch a n).core = s.core := by
  unfold State.touch
  split
  · exact foldl_view State.core (fun _ _ => core_setTile ..) _ s
  · split
    · rfl
    · exact foldl_view State.core (fun _ _ => core_setTile ..) _ s

@[simp] theorem core_meet (r : Requester) (key len : Nat) : (s.meet r key len).core = s.core := by
  unfold State.meet
  exact foldl_view State.core (fun _ _ => core_setTile ..) _ s

@[simp] theorem core_noteWrite (r : Requester) (key len : Nat) : (s.noteWrite r key len).core = s.core := by
  unfold State.noteWrite
  split
  · rfl
  · exact foldl_view State.core (fun _ _ => core_setTile ..) _ s

@[simp] theorem core_fabricAccess : (s.fabricAccess a n).core = s.core := by
  unfold State.fabricAccess
  split
  · rw [core_meet, core_touch]
  · rfl

theorem mem_of_core {s t : State} (h : t.core = s.core) : t.mem = s.mem := (congrArg State.mem h :)
theorem ueWords_of_core {s t : State} (h : t.core = s.core) : t.ueWords = s.ueWords := (congrArg State.ueWords h :)

theorem offBuf_touch : (s.touch a n).offBuf = s.offBuf.touch a n := by
  unfold State.touch
  split
  · exact (List.foldl_hom State.offBuf (by intros; rfl)).symm
  · split
    · rfl
    · exact (List.foldl_hom State.offBuf (by intros; rfl)).symm

theorem offBuf_meet (r : Requester) (key len : Nat) : (s.meet r key len).offBuf = s.offBuf.meet r key len := by
  unfold State.meet
  exact (List.foldl_hom State.offBuf (by intros; rfl)).symm

theorem offBuf_fabricAccess : (s.fabricAccess a n).offBuf = s.offBuf.fabricAccess a n := by
  unfold State.fabricAccess
  split
  · rw [offBuf_meet, offBuf_touch]
  · rfl

end

section
variable {s t : State} (h : t.offBuf = s.offBuf) (a n : Nat)
include h

/-- What an access notes of itself depends on the Stitches and the pip, not on packet buffers. -/
theorem fabricAccess_congr : (t.fabricAccess a n).offBuf = (s.fabricAccess a n).offBuf := by
  rw [offBuf_fabricAccess, offBuf_fabricAccess, h]

theorem yielding_congr (r : Requester) : t.yielding r = s.yielding r := (congrArg (fun s : State => s.yielding r) h :)

theorem putMet_congr (l : List (Nat × Met)) : (t.putMet l).offBuf = (s.putMet l).offBuf := by
  have hp (u : State) : (u.putMet l).offBuf = u.offBuf.putMet l := (List.foldl_hom State.offBuf (by intros; rfl)).symm
  rw [hp, hp, h]

theorem seenBy_congr : (t.seenBy a n).offBuf = (s.seenBy a n).offBuf := by
  have hf := fabricAccess_congr h a n
  unfold State.seenBy
  rw [yielding_congr hf]
  exact putMet_congr hf _

theorem overtaken_congr (k : Nat) : t.overtaken a n k = s.overtaken a n k := by
  rw [overtaken_eq, overtaken_eq, yielding_congr (fabricAccess_congr h a n)]

end

end Sys2Proof.Machine
end

section
/-! PROOF. READ_REQ and DATA frames from the fabric (09 R265, R267, R279, R561; O20). -/

namespace Sys2Proof.Machine

open Sys2Proof

/-! ### A read, and a write, of memory by an incoming access -/

/-- A read of a range that the fabric addresses, and the bytes observed (R265). -/
def State.fabricRead (s : State) (a n : Nat) : State × Except Status (List Byte) :=
  (s.fabricAccess a n).firstBy incoming (fun s => s.load (memKey a) n)

/-- A write of bytes to a range of `n` that the fabric addresses, and whether a word could not be merged (R265, R279). -/
def State.fabricWrite (s : State) (a n : Nat) (bs : List Byte) : State × Bool :=
  (s.fabricAccess a n).firstBy incoming (fun s => s.storeBy incoming (memKey a) bs)

/-- No uncorrectable word is covered in part by a range (R477). -/
def State.MergesWell (s : State) (key n : Nat) : Prop :=
  ∀ w ∈ s.ueWords, w * 8 + 8 ≤ key ∨ key + n ≤ w * 8 ∨ (key ≤ w * 8 ∧ w * 8 + 8 ≤ key + n)

theorem mergesWell_congr {s t : State} (h : t.ueWords = s.ueWords) {key n : Nat} (hw : s.MergesWell key n) : t.MergesWell key n := by
  unfold State.MergesWell
  rw [h]
  exact hw

theorem mergesWell_consume {s : State} {key n : Nat} (h : s.MergesWell key n) (q : QFrame) : (s.consume q).MergesWell key n :=
  mergesWell_congr (ueWords_consume ..) h

section
variable (s : State) (a n : Nat)

theorem mem_fabricAccess : (s.fabricAccess a n).mem = s.mem := mem_of_core (core_fabricAccess ..)

theorem ueWords_seenBy : (s.seenBy a n).ueWords = s.ueWords :=
  (ueWords_putMet ..).trans (ueWords_of_core (core_fabricAccess ..))

theorem memWf_seenBy {s : State} (hm : s.MemOk) : memWf (s.seenBy a n).mem = true :=
  memWf_putMet _ ((congrArg memWf (mem_fabricAccess s a n)).trans hm)

/-- Bytes that nobody overtakes are observed as they stand. -/
theorem memGet_seenBy {k : Nat} (h : s.overtaken a n k = false) : memGet (s.seenBy a n).mem k = memGet s.mem k := by
  refine (memGet_putMet_out _ _ ?_).trans (congrArg (memGet · k) (mem_fabricAccess s a n))
  rw [← h, overtaken_eq, coversByte, coversByte, List.any_reverse]

theorem firstUe_congr {s t : State} (h : t.ueWords = s.ueWords) (key n : Nat) : t.firstUe key n = s.firstUe key n := by
  unfold State.firstUe
  rw [h]

section
variable {s} (hu : s.firstUe (memKey a) n = none)
include hu

theorem load_seenBy : (s.seenBy a n).load (memKey a) n = (s.seenBy a n, .ok ((s.seenBy a n).read (memKey a) n)) :=
  load_of_sound ((firstUe_congr (ueWords_seenBy ..) ..).trans hu)

theorem fabricRead_snd : (s.fabricRead a n).2 = .ok ((s.seenBy a n).read (memKey a) n) :=
  (firstBy_snd _ _ rfl).trans (congrArg Prod.snd (load_seenBy a n hu))

theorem ueWords_fabricRead : (s.fabricRead a n).1.ueWords = s.ueWords :=
  (ueWords_firstBy _ _ rfl).trans ((congrArg (·.1.ueWords) (load_seenBy a n hu)).trans (ueWords_seenBy ..))

/-- A read leaves every byte. -/
theorem memGet_fabricRead (hm : s.MemOk) (k : Nat) : memGet (s.fabricRead a n).1.mem k = memGet s.mem k := by
  have hload := congrArg (·.1.mem) (load_seenBy a n hu)
  refine (memGet_firstBy _ _ rfl ((congrArg memWf hload).trans (memWf_seenBy a n hm)) k).trans ?_
  split
  · rw [mem_fabricAccess]
  next h => exact (congrArg (memGet · k) hload).trans (memGet_seenBy s a n (Bool.not_eq_true _ ▸ h))

end

/-- A write that merges with no uncorrectable word. -/
theorem storeBy_of_mergesWell {s : State} {key : Nat} {bs : List Byte} (h : s.MergesWell key bs.length) (r : Requester) :
    (s.storeBy r key bs).2 = false ∧ (s.storeBy r key bs).1.mem = memPutAll s.mem key bs := by
  have hnote := core_noteWrite s r key bs.length
  have hpart : (s.noteWrite r key bs.length).ueWords.filter (fun w =>
      decide (key < w * 8 + 8) && decide (w * 8 < key + bs.length) &&
        !(decide (key ≤ w * 8) && decide (w * 8 + 8 ≤ key + bs.length))) = [] := by
    rw [List.filter_eq_nil_iff, ueWords_of_core hnote]
    intro w hw
    have := h w hw
    simp only [Bool.and_eq_true, Bool.not_eq_true', Bool.and_eq_false_iff, decide_eq_true_eq, decide_eq_false_iff_not]
    omega
  have hstore : s.storeBy r key bs = ((s.noteWrite r key bs.length).write key bs, false) := by
    simp only [State.storeBy, State.store, hpart, List.isEmpty_nil, if_true]
  rw [hstore]
  exact ⟨rfl, by rw [State.write_mem, mem_of_core hnote]⟩

section
variable {s} {bs : List Byte} (h : s.MergesWell (memKey a) bs.length)
include h

theorem mergesWell_seenBy : (s.seenBy a n).MergesWell (memKey a) bs.length := mergesWell_congr (ueWords_seenBy ..) h

theorem fabricWrite_snd : (s.fabricWrite a n bs).2 = false :=
  (firstBy_snd _ _ rfl).trans (storeBy_of_mergesWell (mergesWell_seenBy a n h) incoming).1

/-- A write stores the bytes given where nobody overtakes it and leaves every other byte. -/
theorem memGet_fabricWrite (hm : s.MemOk) (k : Nat) : memGet (s.fabricWrite a n bs).1.mem k =
    if memKey a ≤ k ∧ k < memKey a + bs.length ∧ s.overtaken a n k = false then bs.getD (k - memKey a) 0 else memGet s.mem k := by
  have hstore := (storeBy_of_mergesWell (mergesWell_seenBy a n h) incoming).2
  have hwf := memWf_seenBy a n hm
  refine (memGet_firstBy _ _ rfl ((congrArg memWf hstore).trans (memWf_memPutAll _ _ hwf)) k).trans ?_
  rw [← overtaken_eq, mem_fabricAccess]
  cases ho : s.overtaken a n k with
  | true => simp
  | false =>
    refine (congrArg (memGet · k) hstore).trans ?_
    rw [memGet_memPutAll hwf, memGet_seenBy s a n ho]
    simp

end

end

/-! ### READ_REQ -/

section
variable {s : State} {ing vc n : Nat} {q : QFrame} (hq : s.localHead ing vc 1 = some q) (hn : n = bits q.f.spec 0 14)
include hq hn

theorem exec_readReq_refused {st : Status}
    (h : (n = 0 ∨ 8192 < n) ∧ st = .badField ∨ (0 < n ∧ n ≤ 8192 ∧ s.fabricStatus q.f n = some st)) :
    exec (.readReq ing vc) s = .next ((s.refused q).answerErr q st) := by
  subst hn
  show execReadReq ing vc s = _
  rcases h with ⟨hn, rfl⟩ | ⟨h0, h8, h⟩
  · simp only [execReadReq, hq, gt_iff_lt, if_pos hn]
    rfl
  · have hn : ¬(bits q.f.spec 0 14 = 0 ∨ 8192 < bits q.f.spec 0 14) := by omega
    simp only [execReadReq, hq, gt_iff_lt, if_neg hn, h]
    rfl

variable (h0 : 0 < n) (h8 : n ≤ 8192) (h : s.fabricStatus q.f n = none)
include h0 h8 h

theorem exec_readReq_waits (hr : s.memReady q.skein (offsetAddr q.f.offset) n = false) : exec (.readReq ing vc) s = .next s := by
  subst hn
  have hn : ¬(bits q.f.spec 0 14 = 0 ∨ 8192 < bits q.f.spec 0 14) := by omega
  show execReadReq ing vc s = _
  simp only [execReadReq, hq, gt_iff_lt, if_neg hn, h, hr, Bool.not_false, if_true]

/-- A read of correctable words that nothing refuses or holds is answered with the bytes observed, and changes no byte. -/
theorem exec_readReq_answered (hr : s.memReady q.skein (offsetAddr q.f.offset) n = true)
    (hu : s.firstUe (memKey (offsetAddr q.f.offset)) n = none) (hm : s.MemOk) :
    ∃ u : State, exec (.readReq ing vc) s = .next (u.sendSkein q.skein (u.readRspTo q.f
        ((s.seenBy (offsetAddr q.f.offset) n).read (memKey (offsetAddr q.f.offset)) n))) ∧
      (∀ k, memGet u.mem k = memGet s.mem k) ∧ u.ueWords = s.ueWords := by
  have hu' : (s.consume q).firstUe (memKey (offsetAddr q.f.offset)) n = none := by rw [firstUe_consume, hu]
  have hm' := memOk_consume hm q
  refine ⟨((s.consume q).fabricRead (offsetAddr q.f.offset) n).1, ?_, fun k => ?_, ?_⟩
  · subst hn
    have hn : ¬(bits q.f.spec 0 14 = 0 ∨ 8192 < bits q.f.spec 0 14) := by omega
    have hmem := mem_of_offBuf (seenBy_congr (offBuf_consume s q) (offsetAddr q.f.offset) (bits q.f.spec 0 14))
    have hread := fabricRead_snd (offsetAddr q.f.offset) (bits q.f.spec 0 14) hu'
    rw [State.read, hmem, ← State.read] at hread
    unfold State.fabricRead at hread ⊢
    show execReadReq ing vc s = _
    simp only [execReadReq, hq, gt_iff_lt, if_neg hn, h, hr, Bool.not_true, Bool.false_eq_true, if_false, hread]
  · rw [memGet_fabricRead _ _ hu' hm', mem_consume]
  · rw [ueWords_fabricRead _ _ hu', ueWords_consume]

end

/-! ### DATA -/

/-- The bytes that a DATA frame carries for a range of `n`. -/
def Frame.carried (f : Frame) (n : Nat) : List Byte := (f.cells.drop 16).take n

/-- A frame of whole cells carries the bytes that its spec announces. -/
theorem length_carried {f : Frame} {n : Nat} (hn : f.dataLen = n + 16) (hc : f.cells.length % 64 = 0) : (f.carried n).length = n := by
  have hk : bits f.spec 0 6 < 64 := Nat.mod_lt _ (by decide)
  have hlen : n + 16 ≤ f.cells.length := by
    rw [← hn]
    simp only [Frame.dataLen, Frame.n]
    split <;> omega
  rw [Frame.carried, List.length_take, List.length_drop]
  omega

section
variable {s : State} {ing vc n : Nat} {q : QFrame} (hq : s.localHead ing vc 0 = some q) (hd : q.dest ≠ .ladder)
  (hn : q.f.dataLen = n + 16)
include hq hd hn

theorem exec_dataFrame_refused {st : Status} (h : s.fabricStatus q.f n = some st) :
    exec (.dataFrame ing vc) s = .next (if q.f.ackReq then (s.refused q).answerErr q st else s.refused q) := by
  have hlen : ¬(n + 16 < 16) := by omega
  show execDataFrame ing vc s = _
  simp only [execDataFrame, hq, if_neg hd, hn, Nat.add_sub_cancel, if_neg hlen, h]
  rfl

variable (h : s.fabricStatus q.f n = none)
include h

theorem exec_dataFrame_waits (hr : s.memReady q.skein (offsetAddr q.f.offset) n = false) : exec (.dataFrame ing vc) s = .next s := by
  have hlen : ¬(n + 16 < 16) := by omega
  show execDataFrame ing vc s = _
  simp only [execDataFrame, hq, if_neg hd, hn, Nat.add_sub_cancel, if_neg hlen, h, hr, Bool.not_false, if_true]

variable (hr : s.memReady q.skein (offsetAddr q.f.offset) n = true)
  (hw : s.MergesWell (memKey (offsetAddr q.f.offset)) (q.f.carried n).length)
include hr hw

/-- A frame that nothing refuses or holds is stored, and acknowledged where its sender asks for it. -/
theorem exec_dataFrame_stored : exec (.dataFrame ing vc) s =
    .next (((s.consume q).fabricWrite (offsetAddr q.f.offset) n (q.f.carried n)).1.acknowledged q) := by
  have hlen : ¬(n + 16 < 16) := by omega
  have hsnd := fabricWrite_snd (offsetAddr q.f.offset) n (mergesWell_consume hw q)
  unfold State.fabricWrite Frame.carried at hsnd ⊢
  show execDataFrame ing vc s = _
  simp only [execDataFrame, hq, if_neg hd, hn, Nat.add_sub_cancel, if_neg hlen, h, hr, Bool.not_true, Bool.false_eq_true, if_false, hsnd]
  rfl

omit hq hd hn h hr in
/-- Of memory it changes the bytes that it carries, but for those that a requester it precedes writes in the same core cycle. -/
theorem memGet_dataStored (hm : s.MemOk) (k : Nat) :
    memGet (((s.consume q).fabricWrite (offsetAddr q.f.offset) n (q.f.carried n)).1.acknowledged q).mem k =
      if memKey (offsetAddr q.f.offset) ≤ k ∧ k < memKey (offsetAddr q.f.offset) + (q.f.carried n).length ∧
          s.overtaken (offsetAddr q.f.offset) n k = false
      then (q.f.carried n).getD (k - memKey (offsetAddr q.f.offset)) 0 else memGet s.mem k := by
  rw [mem_of_offBuf (offBuf_acknowledged ..), memGet_fabricWrite _ _ (mergesWell_consume hw q) (memOk_consume hm q), overtaken_congr (offBuf_consume s q), mem_consume]

end

end Sys2Proof.Machine
end

section
/-! PROOF. What holds of READ_REQ and of DATA frames of whole cells, and a DATA frame whose last cell is cut short (O20). -/

namespace Sys2Proof.Machine

open Sys2Proof

/-- Every clause of O20 about READ_REQ, and those about DATA for frames of whole cells, which all frames of a link are (03 R84). -/
theorem fabricAccesses_of_wholeCells :
    (∀ ing, ∀ vc, ∀ s : State, ∀ q, ∀ n, s.localHead ing vc 1 = some q → n = bits q.f.spec 0 14 →
      (∀ st, (n = 0 ∨ 8192 < n) ∧ st = Status.badField ∨ (0 < n ∧ n ≤ 8192 ∧ s.fabricStatus q.f n = some st) →
        exec (.readReq ing vc) s = .next ((s.refused q).answerErr q st)) ∧
      (0 < n → n ≤ 8192 → s.fabricStatus q.f n = none →
        (s.memReady q.skein (offsetAddr q.f.offset) n = false → exec (.readReq ing vc) s = .next s) ∧
        (s.memReady q.skein (offsetAddr q.f.offset) n = true → s.firstUe (memKey (offsetAddr q.f.offset)) n = none → s.MemOk →
          ∃ t : State, ∃ u : State, exec (.readReq ing vc) s = .next t ∧ (∀ k : Nat, memGet t.mem k = memGet s.mem k) ∧
            t.ueWords = s.ueWords ∧
            t = u.sendSkein q.skein (u.readRspTo q.f
              ((s.seenBy (offsetAddr q.f.offset) n).read (memKey (offsetAddr q.f.offset)) n))))) ∧
    (∀ ing, ∀ vc, ∀ s : State, ∀ q, ∀ n, s.localHead ing vc 0 = some q → q.dest ≠ .ladder → q.f.dataLen = n + 16 →
      q.f.cells.length % 64 = 0 →
      (∀ st, s.fabricStatus q.f n = some st →
        ∃ t : State, exec (.dataFrame ing vc) s = .next t ∧ t.mem = s.mem ∧
          (q.f.ackReq = false → t = s.refused q) ∧ (q.f.ackReq = true → t = (s.refused q).answerErr q st)) ∧
      (s.fabricStatus q.f n = none → s.memReady q.skein (offsetAddr q.f.offset) n = false → exec (.dataFrame ing vc) s = .next s) ∧
      (s.fabricStatus q.f n = none → s.memReady q.skein (offsetAddr q.f.offset) n = true → s.MemOk →
        s.MergesWell (memKey (offsetAddr q.f.offset)) n →
        ∃ t : State, ∃ u : State, exec (.dataFrame ing vc) s = .next t ∧
          (∀ k, memGet t.mem k = if memKey (offsetAddr q.f.offset) ≤ k ∧ k < memKey (offsetAddr q.f.offset) + n ∧
              s.overtaken (offsetAddr q.f.offset) n k = false then
            (q.f.carried n).getD (k - memKey (offsetAddr q.f.offset)) 0 else memGet s.mem k) ∧
          (q.f.ackReq = true → t = u.answerErr q .ok))) := by
  refine ⟨fun ing vc s q n hq hn => ⟨fun st h => exec_readReq_refused hq hn h, fun h0 h8 h => ⟨exec_readReq_waits hq hn h0 h8 h,
    fun hr hu hm => ?_⟩⟩,
    fun ing vc s q n hq hd hn hc => ⟨fun st h => ⟨_, exec_dataFrame_refused hq hd hn h, ?_, fun ha => ?_, fun ha => ?_⟩,
    exec_dataFrame_waits hq hd hn, fun h hr hm hw => ?_⟩⟩
  · obtain ⟨u, hu, hmem, hue⟩ := exec_readReq_answered hq hn h0 h8 h hr hu hm
    exact ⟨_, u, hu, fun k => by rw [mem_of_offBuf (offBuf_sendSkein ..), hmem],
      by rw [ueWords_of_offBuf (offBuf_sendSkein ..), hue], rfl⟩
  · split
    · exact (mem_of_offBuf (offBuf_answerErr ..)).trans (mem_refused s q)
    · exact mem_refused s q
  · exact if_neg (by simp [ha])
  · exact if_pos ha
  · have hlen := length_carried hn hc
    rw [← hlen] at hw
    refine ⟨_, _, exec_dataFrame_stored hq hd hn h hr hw, fun k => ?_, acknowledged_of_ackReq⟩
    rw [memGet_dataStored hw hm, hlen]

/-- A DATA frame of 65 bytes of cells: two cells by its count, so a range of 112 bytes, of which it holds 49. -/
def cutFrame : QFrame :=
  { die := 0, ing := 4, dest := .skein 0, stamp := 0, acct := portAcct 2 1, hanks := [],
    f := { ty := 0, vc := 1, ch := 0, dst := 0, src := 7, cells := padTo 64 (leBytes 8 0x1000) ++ [0] } }

/-- It waits at a READY device where byte 60 of its range holds 5. -/
def cutState : State :=
  { State.reset with boot := { phase := .ready }, mem := [(0x103C, 5)], buf := { frames := [cutFrame] } }

/-- The bytes that the frame lacks stay. -/
theorem memGet_cutStored :
    memGet (((cutState.consume cutFrame).fabricWrite 0x1000 112 (cutFrame.f.carried 112)).1.acknowledged cutFrame).mem 0x103C = 5 := by
  have hw : cutState.MergesWell (memKey (offsetAddr cutFrame.f.offset)) (cutFrame.f.carried 112).length := by
    unfold State.MergesWell
    decide
  exact (memGet_dataStored hw (by unfold State.MemOk; decide) 0x103C).trans (by decide +kernel)

/-- Refutes O20: its last clause says that 0 is written for bytes that a DATA frame announces and does not hold, where the cells of
a queued frame are no whole cells. `cutFrame` holds 49 of 112 bytes, and byte 60 of its range stays 5. For frames of whole cells the
statement holds (`fabricAccesses_of_wholeCells`). -/
theorem not_fabricAccesses : ¬ Obligations.FabricAccesses := by
  unfold Obligations.FabricAccesses
  intro h
  have hq : cutState.localHead 4 1 0 = some cutFrame := by decide +kernel
  have hd : cutFrame.dest ≠ .ladder := by decide
  have hn : cutFrame.f.dataLen = 112 + 16 := by decide
  have hs : cutState.fabricStatus cutFrame.f 112 = none := by decide +kernel
  have hr : cutState.memReady cutFrame.skein (offsetAddr cutFrame.f.offset) 112 = true := by decide +kernel
  have hw (n : Nat) : cutState.MergesWell (memKey (offsetAddr cutFrame.f.offset)) n := fun _ hw => absurd hw List.not_mem_nil
  obtain ⟨t, -, ht, hmem, -⟩ := (h.2 4 1 cutState cutFrame 112 hq hd hn).2.2 hs hr (by unfold State.MemOk; decide) (hw 112)
  rw [exec_dataFrame_stored hq hd hn hs hr (hw _), Host.Outcome.next.injEq] at ht
  have claimed := hmem 0x103C
  rw [← ht] at claimed
  exact absurd (memGet_cutStored.symm.trans claimed) (by decide +kernel)

end Sys2Proof.Machine
end

section
/-! PROOF. Hardware loops: the position after a word (10 R296, R297). -/

namespace Sys2Proof.Machine

open Sys2Proof

/-! ### Levels of a list of loops -/

section
variable {ls : List Loop} {n m e : Nat}

theorem getD_set_loop_self (h : n < ls.length) (l : Loop) : (ls.set n l).getD n {} = l := by
  simp [List.getD_eq_getElem?_getD, h]

theorem getD_set_loop_ne (h : m ≠ n) (l : Loop) : (ls.set n l).getD m {} = ls.getD m {} := by
  simp [List.getD_eq_getElem?_getD, List.getElem?_set_ne (Ne.symm h)]

/-- A level that the slot lacks is not active. -/
theorem lt_length_of_active (h : (ls.getD n {}).active = true) : n < ls.length := by
  by_contra hn
  rw [List.getD_eq_default _ _ (Nat.le_of_not_lt hn)] at h
  cases h

/-- From level `n` inward the loops have ended. -/
theorem getD_endLoops (h : n ≤ m) : ((endLoops ls n).getD m {}).active = false ∧ ((endLoops ls n).getD m {}).index = 0 := by
  rw [endLoops, List.getD_eq_getElem?_getD, List.getElem?_map, List.getElem?_zipIdx]
  cases ls[m]? <;> simp [h]

/-! ### The loop ends tested from the innermost level -/

/-- Levels whose loop does not end here are passed over. -/
theorem closeLoops_skip {k : Nat} (hk : n ≤ k)
    (h : ∀ m, n ≤ m → m < k → (ls.getD m {}).active = true → (ls.getD m {}).last ≠ e) : closeLoops e k ls = closeLoops e n ls := by
  induction k, hk using Nat.le_induction with
  | base => rfl
  | succ k hk ih =>
    rw [closeLoops, if_neg fun ha => h k hk (Nat.lt_succ_self k) ha.1 ha.2]
    exact ih fun m hm hmk => h m hm (Nat.lt_succ_of_lt hmk)

theorem closeLoops_none {k : Nat} (h : ∀ m, m < k → (ls.getD m {}).active = true → (ls.getD m {}).last ≠ e) :
    closeLoops e k ls = (ls, e + 1) := closeLoops_skip (Nat.zero_le k) fun m _ => h m

theorem closeLoops_turn (ha : (ls.getD n {}).active = true) (he : (ls.getD n {}).last = e)
    (hc : (ls.getD n {}).index + 1 < (ls.getD n {}).count) : closeLoops e (n + 1) ls =
      (ls.set n { ls.getD n {} with index := (ls.getD n {}).index + 1 }, (ls.getD n {}).first) := by
  rw [closeLoops, if_pos ⟨ha, he⟩, if_pos hc, setLoop]

theorem closeLoops_end (ha : (ls.getD n {}).active = true) (he : (ls.getD n {}).last = e)
    (hc : (ls.getD n {}).count ≤ (ls.getD n {}).index + 1) : closeLoops e (n + 1) ls =
      closeLoops e n (ls.set n { ls.getD n {} with active := false, index := 0 }) := by
  rw [closeLoops, if_pos ⟨ha, he⟩, if_neg (Nat.not_lt.mpr hc), setLoop]

/-- A level that is not active stays as it is. -/
theorem getD_closeLoops (k : Nat) (h : (ls.getD m {}).active = false) : (closeLoops e k ls).1.getD m {} = ls.getD m {} := by
  induction k generalizing ls with
  | zero => rfl
  | succ k ih =>
    by_cases ha : (ls.getD k {}).active = true ∧ (ls.getD k {}).last = e
    · have hm : m ≠ k := fun hm => by rw [← hm, h] at ha; cases ha.1
      rcases Nat.lt_or_ge ((ls.getD k {}).index + 1) (ls.getD k {}).count with hc | hc
      · rw [closeLoops_turn ha.1 ha.2 hc, getD_set_loop_ne hm]
      · rw [closeLoops_end ha.1 ha.2 hc, ih (by rwa [getD_set_loop_ne hm]), getD_set_loop_ne hm]
    · rw [closeLoops, if_neg ha]
      exact ih h

end

/-! ### The position after a word -/

section
variable {x : Slot} {w : BitVec 256} {pc : Nat}

theorem nextPc_plain (h : wf w 188 187 = 0) : nextPc x w pc = closeLoops pc 4 x.loops := by
  simp [nextPc, h]

theorem nextPc_begin (h : wf w 188 187 = 1) {n cnt : Nat} (hn : n = wf w 186 185)
    (hcnt : cnt = if wf w 184 184 = 0 then wf w 183 168 else x.lc.getD n 0) : nextPc x w pc =
      if 0 < cnt then (x.loops.set n { active := true, first := pc + 1, last := pc + wf w 167 152, count := cnt, index := 0 }, pc + 1)
      else closeLoops (pc + wf w 167 152) 4 x.loops := by
  subst hn hcnt
  simp only [nextPc, h, if_true, setLoop, gt_iff_lt]

theorem nextPc_break (h : wf w 188 187 = 2) (ht : (x.p.getD (wf w 150 149) false != (wf w 151 151 == 1)) = true) :
    nextPc x w pc = closeLoops (x.loops.getD (wf w 186 185) {}).last 4 (endLoops x.loops (wf w 186 185)) := by
  rw [nextPc, h, if_neg (by decide), if_pos ⟨rfl, ht⟩]

end

/-- Settles O26: a plain word and a begin with count 0 test the levels from the innermost (`closeLoops_skip`), of which the first that
ends here turns or ends (`closeLoops_turn`, `closeLoops_end`); levels that a break has ended stay so (`getD_closeLoops`). -/
theorem hardwareLoops : Obligations.HardwareLoops := by
  unfold Obligations.HardwareLoops
  refine fun x w pc => ⟨fun h hn => ?_, fun n cnt h hn hcnt => ?_, fun n h hn ha he hi => ?_, fun h ht m hm _ => ?_⟩
  · rw [nextPc_plain h, closeLoops_none hn]
  · rw [nextPc_begin h hn hcnt]
    exact ⟨fun hc => if_pos hc, fun hc hm => by rw [if_neg (by omega), closeLoops_none hm]⟩
  · have hskip : nextPc x w pc = closeLoops pc (n + 1) x.loops := by
      rw [nextPc_plain h]
      exact closeLoops_skip hn fun m hm => hi m hm
    rw [hskip]
    refine ⟨closeLoops_turn ha he, fun hc => ?_⟩
    rw [closeLoops_end ha he hc]
    have hself := getD_set_loop_self (lt_length_of_active ha) { x.loops.getD n {} with active := false, index := 0 }
    rw [getD_closeLoops n (by rw [hself]), hself]
    refine ⟨rfl, rfl, fun ho => ?_⟩
    rw [closeLoops_none fun m hm => by rw [getD_set_loop_ne hm.ne]; exact ho m hm]
  · have hend := getD_endLoops (ls := x.loops) hm
    rw [nextPc_break h ht, getD_closeLoops 4 hend.1]
    exact hend

end Sys2Proof.Machine
end

section
/-! SUPPORT. What faults, traces, the end of launches and the check of a next word leave of a Stitch (10 R290, R313 to R315, R321). -/

namespace Sys2Proof.Machine

open Sys2Proof

/-! ### Stitches and descriptors stay -/

/-- The Stitches and the descriptor tables. -/
def State.tables (s : State) : Tab Stitch × Tab DescEntry := (s.tiles, s.descs)

section
variable {s t : State} (h : t.tables = s.tables)
include h

theorem tile_of_tables (st : Nat) : t.tile st = s.tile st := congrArg (fun x : Tab Stitch × Tab DescEntry => tabGet x.1 {} st) h
theorem slot_of_tables (st i : Nat) : t.slot st i = s.slot st i := congrArg (fun x : Stitch => tabGet x.slots {} i) (tile_of_tables h st)
theorem descs_of_tables : t.descs = s.descs := congrArg Prod.snd h

end

section
variable (s : State)

@[simp] theorem tables_logRaise (code c st src tag d : Nat) : (s.logRaise code c st src tag d).tables = s.tables := rfl
@[simp] theorem tables_logUe (key : Nat) : (s.logUe key).tables = s.tables := rfl
@[simp] theorem tables_setLaunch (key : Nat) (l : Launch) : (s.setLaunch key l).tables = s.tables := rfl
@[simp] theorem tables_setLayer (k i : Nat) (e : LayerEntry) : (s.setLayer k i e).tables = s.tables := rfl
@[simp] theorem tables_setDom (x : Nat) (d : Domain) : (s.setDom x d).tables = s.tables := rfl
@[simp] theorem tables_charge (x c cycles sum : Nat) : (s.charge x c cycles sum).tables = s.tables := rfl
@[simp] theorem tables_stitchCritical (st loc : Nat) : (s.stitchCritical st loc).tables = s.tables := rfl

@[simp] theorem tables_write (key : Nat) (bs : List Byte) : (s.write key bs).tables = s.tables := by rw [State.write_frame]; rfl

@[simp] theorem tables_traceAt (stamp st slot tag ev status : Nat) : (s.traceAt stamp st slot tag ev status).tables = s.tables := by
  unfold State.traceAt
  split
  · rfl
  · extract_lets r t
    split
    · rfl
    · exact tables_write ..

@[simp] theorem tables_trace (st slot tag ev status : Nat) : (s.trace st slot tag ev status).tables = s.tables := tables_traceAt ..

@[simp] theorem tables_sendVector (h : HostId) (v : Nat) : (s.sendVector h v).tables = s.tables := by
  unfold State.sendVector; extract_lets; split <;> rfl

@[simp] theorem tables_irq (b : Nat) (h : HostId) : (s.irq b h).tables = s.tables := by
  unfold State.irq
  extract_lets p r m t
  split
  · rfl
  · split
    · exact tables_sendVector ..
    · rfl

@[simp] theorem tables_finish (ticket : Nat) (st : Status) (res : List Fld) : (s.finish ticket st res).tables = s.tables := by
  unfold State.finish State.finishAt
  split
  · rfl
  · unfold State.respond
    split
    · split
      · rfl
      · extract_lets body b b' b'' u v
        split
        · exact tables_sendVector ..
        · rfl
    · extract_lets body cells
      exact (congrArg State.tables (offBuf_sendFrom ..) :)

@[simp] theorem tables_endLaunch (key : Nat) : (s.endLaunch key).tables = s.tables := by
  unfold State.endLaunch
  split
  · rfl
  · split
    · rfl
    · extract_lets t u
      refine (foldl_view State.tables (fun _ _ => tables_finish ..) _ u).trans ?_
      unfold u
      split
      · rfl
      · exact tables_irq ..

@[simp] theorem tables_logWordUe (st : Nat) (p : Pattern) (pc : Nat) : (s.logWordUe st p pc).tables = s.tables := by
  unfold State.logWordUe State.dropSite
  split
  · rfl
  · split <;> rfl

@[simp] theorem tables_noteMask (st : Nat) (c : Checked) (step : Nat) : (s.noteMask st c step).1.tables = s.tables := by
  unfold State.noteMask
  split
  · rfl
  · split
    · rfl
    · split
      · rfl
      · extract_lets newer t
        unfold t
        split <;> rfl

end

/-! ### One slot replaced -/

section
variable (s : State) (st i : Nat) (x : Slot)

@[simp] theorem tile_setSlot : (s.setSlot st i x).tile st = { s.tile st with slots := tabPut (s.tile st).slots i x } :=
  tile_setTile_self ..
@[simp] theorem slot_setSlot : (s.setSlot st i x).slot st i = x := by simp [State.slot]

theorem slot_setSlot_ne {k j : Nat} (h : (k, j) ≠ (st, i)) : (s.setSlot st i x).slot k j = s.slot k j := by
  by_cases hk : k = st
  · subst hk
    have hj : j ≠ i := fun hj => h (by rw [hj])
    simp [State.slot, tabGet_tabPut_ne _ _ _ hj]
  · simp [State.slot, State.setSlot, tile_setTile_ne _ _ hk]

@[simp] theorem slot_atTile : (s.atTile st).slot st i = s.slot st i := by simp [State.slot, State.atTile]

end

/-! ### Faults (R262, R313, R314) -/

section
variable (s : State) (st i : Nat) (status : Status) (tag pc : Nat) (ex : Bool) (stamp : Nat)

/-- The record of a fault of a slot. -/
def Slot.faultRec (x : Slot) (st i : Nat) (status : Status) (tag pc : Nat) (ex : Bool) (stamp : Nat) : FaultRec :=
  { status := status, tag := tag, pc := pc, exec := ex, st := st, slot := i, stamp := stamp, index := x.loops.map (·.index) }

/-- A slot that has faulted. -/
def Slot.faulted (x : Slot) (r : FaultRec) : Slot := { x with st := .faulted, fault := some r, next := none, ending := false }

theorem tables_stopSlot : (s.stopSlot st i status tag pc ex stamp).tables =
    ((s.setSlot st i ((s.slot st i).faulted ((s.slot st i).faultRec st i status tag pc ex stamp))).atTile st).tables := by
  unfold State.stopSlot
  extract_lets x r t
  split
  · rfl
  · split <;> rfl

/-- The tables after a fault are those after the slot has stopped and its requests are discarded. -/
theorem tables_slotFault : (s.slotFault st i status tag pc ex stamp).tables =
    ((s.stopSlot st i status tag pc ex stamp).discardMem st i).tables := by
  unfold State.slotFault
  extract_lets key t u
  exact (tables_endLaunch ..).trans (tables_traceAt ..)

/-- A fault leaves all but the memory words of the slot as it stops it. -/
theorem slot_slotFault : ∃ m, (s.slotFault st i status tag pc ex stamp).slot st i =
    { (s.slot st i).faulted ((s.slot st i).faultRec st i status tag pc ex stamp) with mem := m } := by
  rw [slot_of_tables (tables_slotFault ..), State.discardMem, slot_setSlot, slot_of_tables (tables_stopSlot ..), slot_atTile,
    slot_setSlot]
  exact ⟨_, rfl⟩

end

/-! ### What a fault and the check of a next word leave -/

/-- The values of a slot that only the effects of its words change: comparators, loop counts, predicates and generators (Table 10-1). -/
structure Regs where
  cmp : List Nat
  lc : List Nat
  p : List Bool
  ag : List AddrGen

/-- Those of a slot. -/
def Slot.regs (x : Slot) : Regs := { cmp := x.cmp, lc := x.lc, p := x.p, ag := x.ag }

/-- What words work with that only the effects of words and signals change: flags, counters and engines of a Stitch, the descriptors, and
the values of a slot. -/
structure Lasting where
  flags : BitVec 32
  cnts : Tab Nat
  eng : Tab (List Op)
  descs : Tab DescEntry
  regs : Regs

/-- That of a Stitch and a slot. -/
def State.lasting (s : State) (st i : Nat) : Lasting :=
  { flags := (s.tile st).flags, cnts := (s.tile st).cnts, eng := (s.tile st).eng, descs := s.descs, regs := (s.slot st i).regs }

section
variable {s t : State} {st i : Nat}

theorem lasting_of_tables (h : t.tables = s.tables) : t.lasting st i = s.lasting st i := by
  simp only [State.lasting, tile_of_tables h, slot_of_tables h, descs_of_tables h]

/-- A slot replaced by one of the same values. -/
theorem lasting_setSlot {x : Slot} (h : x.regs = (s.slot st i).regs) : (s.setSlot st i x).lasting st i = s.lasting st i := by
  simp only [State.lasting, tile_setSlot, slot_setSlot, h]
  rfl

/-- A Stitch replaced by one of the same flags, counters, engines and slots. -/
theorem lasting_setTile {x : Stitch} (hf : x.flags = (s.tile st).flags) (hc : x.cnts = (s.tile st).cnts)
    (he : x.eng = (s.tile st).eng) (hs : x.slots = (s.tile st).slots) : (s.setTile st x).lasting st i = s.lasting st i := by
  simp only [State.lasting, State.slot, tile_setTile_self, hf, hc, he, hs]
  rfl

end

section
variable (s : State) (st i : Nat)

theorem lasting_atTile : (s.atTile st).lasting st i = s.lasting st i := lasting_setTile rfl rfl rfl rfl

theorem lasting_slotFault (status : Status) (tag pc : Nat) (ex : Bool) (stamp : Nat) :
    (s.slotFault st i status tag pc ex stamp).lasting st i = s.lasting st i := by
  calc (s.slotFault st i status tag pc ex stamp).lasting st i
    _ = ((s.stopSlot st i status tag pc ex stamp).discardMem st i).lasting st i := lasting_of_tables (tables_slotFault ..)
    _ = (s.stopSlot st i status tag pc ex stamp).lasting st i := lasting_setSlot rfl
    _ = _ := lasting_of_tables (tables_stopSlot ..)
    _ = s.lasting st i := (lasting_atTile ..).trans (lasting_setSlot rfl)

theorem lasting_noteWait (c : Checked) : (s.noteWait st i c).lasting st i = s.lasting st i := by
  unfold State.noteWait
  extract_lets x
  split
  · rfl
  · exact (lasting_of_tables (tables_trace ..)).trans (lasting_setSlot rfl)

theorem lasting_checkNext (l : Launch) (p : Pattern) : (s.checkNext st i l p).lasting st i = s.lasting st i := by
  unfold State.checkNext
  extract_lets x k t a b w
  split
  · have hcache : b.lasting st i = t.lasting st i := lasting_setTile rfl rfl rfl rfl
    exact (lasting_slotFault ..).trans (hcache.trans (lasting_of_tables (tables_logWordUe ..)))
  · split
    · exact lasting_slotFault ..
    · extract_lets r
      have hx : x = r.1.slot st i := (slot_of_tables (tables_noteMask ..) st i).symm
      have hset : (r.1.setSlot st i { x with next := some r.2, waited := false }).lasting st i = r.1.lasting st i :=
        lasting_setSlot (show x.regs = _ from congrArg Slot.regs hx)
      exact (lasting_noteWait ..).trans (hset.trans (lasting_of_tables (tables_noteMask ..)))

theorem lasting_becomeNext : (s.becomeNext st i).lasting st i = s.lasting st i := by
  unfold State.becomeNext
  extract_lets x
  split
  · rfl
  · split
    · rfl
    · split
      · exact lasting_slotFault ..
      · extract_lets
        split
        · exact (lasting_checkNext ..).trans (lasting_setTile rfl rfl rfl rfl)
        · exact lasting_setSlot rfl

end

end Sys2Proof.Machine
end

section
/-! PROOF. Issue of control words (09 R261; 10 R291, R293). -/

namespace Sys2Proof.Machine

open Sys2Proof

section
variable {st slot : Nat} {s : State} {c : Checked} {mine : BitVec 256 → Bool} (hn : (s.slot st slot).next = some c) (hk : mine c.w = true)
  (hl : (s.slot st slot).st = .live) (he : (s.slot st slot).ending = false) (hw : s.waitTorn st c.w = false)
  (ht : s.testTorn st c.w = false) (hp : s.torn rowStitch st (loopLoc slot) = false)
include hn hk hl he hw ht hp

/-- A word of the row's kind in a live slot, with sound counter and loop values: it waits, its class is held, or it issues. -/
theorem wordRow_sound : s.wordRow st slot mine =
    if s.waitOk st slot (s.slot st slot) c.w = false then .next (s.noteWait st slot c)
    else if (s.couldIssue st slot && !s.slotReady st slot) = true then .next (s.noteHold (st / 256) (s.slotClass st slot))
    else if s.pick st = some slot then .next (s.issueWord st slot c)
    else .next s := by
  simp [State.wordRow, hn, hk, hl, he, hw, ht, hp]

/-- The selected slot is READY, so that no class holds it (R261). -/
theorem wordRow_issues (ho : s.waitOk st slot (s.slot st slot) c.w = true) (hs : s.pick st = some slot) :
    s.wordRow st slot mine = .next (s.issueWord st slot c) := by
  have hr : s.slotReady st slot = true := List.find?_some hs
  rw [wordRow_sound hn hk hl he hw ht hp, if_neg (by simp [ho]), if_neg (by simp [hr]), if_pos hs]

theorem wordRow_waits (ho : s.waitOk st slot (s.slot st slot) c.w = false) :
    s.wordRow st slot mine = .next (s.noteWait st slot c) := by
  rw [wordRow_sound hn hk hl he hw ht hp, if_pos ho]

end

section
variable {st slot : Nat} {s : State} {c : Checked}

theorem noteWait_waited (h : (s.slot st slot).waited = true) : s.noteWait st slot c = s := by
  simp [State.noteWait, h]

/-- The wait that begins is marked in its slot, and traced. -/
theorem noteWait_begins (hw : (s.slot st slot).waited = false) (ho : s.waitOk st slot (s.slot st slot) c.w = false) :
    s.noteWait st slot c = (s.setSlot st slot { s.slot st slot with waited := true }).trace st slot (wTag c.w) evWait 0 := by
  simp [State.noteWait, hw, ho]

end

/-- Settles O25: each kind has its row (`wordRow_sound`), which issues the word of the selected slot (`wordRow_issues`) and otherwise
marks the wait once (`wordRow_waits`, `noteWait_begins`). -/
theorem wordIssue : Obligations.WordIssue := by
  unfold Obligations.WordIssue
  intro st slot s i kind c hi hn hk hl he hw ht hp
  have hrow : exec i s = settled (s.wordRow st slot kind) := by
    simp only [List.mem_cons, List.not_mem_nil, Prod.mk.injEq] at hi
    repeat' obtain ⟨rfl, rfl⟩ | hi := hi
    all_goals rfl
  refine ⟨fun ho hs => ?_, fun ho hwt => ?_, fun ho hwt => ⟨s.noteWait st slot c, ?_, ?_⟩⟩
  · rw [hrow, wordRow_issues hn hk hl he hw ht hp ho hs, settled_next]
  · rw [hrow, wordRow_waits hn hk hl he hw ht hp ho, settled_next, noteWait_waited hwt]
  · rw [hrow, wordRow_waits hn hk hl he hw ht hp ho, settled_next]
  · have htab := tables_trace (s.setSlot st slot { s.slot st slot with waited := true }) st slot (wTag c.w) evWait 0
    have hlast := lasting_noteWait s st slot c
    refine ⟨?_, ?_, congrArg Lasting.flags hlast, congrArg Lasting.cnts hlast⟩ <;>
      rw [noteWait_begins hwt ho, slot_of_tables htab, slot_setSlot]
    exact hn

end Sys2Proof.Machine
end

section
/-! PROOF. What an issued word leaves (10 R292, R305 to R307, R312, Tables 10-4, 10-10). -/

namespace Sys2Proof.Machine

open Sys2Proof

/-! ### Signals (R271, R293, R294) -/

section
variable (s : State) (st : Nat)

@[simp] theorem descs_setFlag (f : Nat) : (s.setFlag st f).descs = s.descs := rfl
@[simp] theorem slot_setFlag (f i : Nat) : (s.setFlag st f).slot st i = s.slot st i := by simp [State.slot, State.setFlag]

@[simp] theorem descs_addCntr (n v : Nat) : (s.addCntr st n v).descs = s.descs := by
  unfold State.addCntr; split <;> rfl

@[simp] theorem slot_addCntr (n v i : Nat) : (s.addCntr st n v).slot st i = s.slot st i := by
  unfold State.addCntr
  split
  · exact slot_of_tables (tables_stitchCritical ..) ..
  · simp [State.slot, State.setCntr]

@[simp] theorem descs_signalNow (w : BitVec 256) : (s.signalNow st w).descs = s.descs := by
  unfold State.signalNow; split <;> simp

@[simp] theorem slot_signalNow (w : BitVec 256) (i : Nat) : (s.signalNow st w).slot st i = s.slot st i := by
  unfold State.signalNow; split <;> simp

@[simp] theorem eng_signalNow (w : BitVec 256) : ((s.signalNow st w).tile st).eng = (s.tile st).eng := by
  unfold State.signalNow State.setFlag State.addCntr
  split
  · simp
  · split
    · exact congrArg Stitch.eng (tile_of_tables (tables_stitchCritical s st _) st)
    · simp [State.setCntr]

variable (slot id : Nat) (w : BitVec 256) (stamp : Nat)

theorem postSignal_none (h : wf w 211 210 = 0) : s.postSignal st slot id w stamp = s := if_pos h

/-- With no memory word of the slot outstanding the signal takes effect at once (R276). -/
theorem postSignal_now (h : wf w 211 210 ≠ 0) (hm : (s.slot st slot).mem = []) :
    s.postSignal st slot id w stamp = (s.traceAt stamp st slot (wTag w) evSignal 0).signalNow st w := by
  unfold State.postSignal
  extract_lets t ids
  have hids : ids = [] := by
    simp [ids, State.olderWrites, t, slot_of_tables (tables_traceAt s stamp st slot (wTag w) evSignal 0), hm]
  rw [if_neg h, hids]
  rfl

/-- A signal that waits is held by the slot, of which it changes nothing else. -/
theorem slot_postSignal : ∃ h, (s.postSignal st slot id w stamp).slot st slot = { s.slot st slot with held := h } := by
  unfold State.postSignal
  split
  · exact ⟨_, rfl⟩
  · extract_lets t ids x
    have hx : x = s.slot st slot := slot_of_tables (tables_traceAt ..) ..
    split
    · exact ⟨_, (slot_signalNow ..).trans hx⟩
    · exact ⟨_, by rw [slot_setSlot, hx]⟩

theorem descs_postSignal : (s.postSignal st slot id w stamp).descs = s.descs := by
  unfold State.postSignal
  split
  · rfl
  · extract_lets t ids x
    have ht : t.descs = s.descs := descs_of_tables (tables_traceAt ..)
    split
    · exact (descs_signalNow ..).trans ht
    · exact ht

theorem eng_postSignal : ((s.postSignal st slot id w stamp).tile st).eng = (s.tile st).eng := by
  unfold State.postSignal
  split
  · rfl
  · extract_lets t ids x
    have ht : (t.tile st).eng = (s.tile st).eng := congrArg Stitch.eng (tile_of_tables (tables_traceAt ..) st)
    split
    · exact (eng_signalNow ..).trans ht
    · rw [tile_setSlot, ht]

end

/-! ### The stages of an issue (R291 to R296) -/

/-- The slot of a word that issues. -/
def Slot.issued (x : Slot) (w : BitVec 256) : Slot := { x with tag := wTag w, next := none, waited := false }

/-- The state in which a word begins to issue: the wait's clear is done, and the slot has no next word. -/
def State.issuing (s : State) (st slot : Nat) (c : Checked) : State :=
  let t := s.tile st
  let s := s.setTile st { t with lastSlot := slot, idle := tabPut t.idle 32 s.time.pip, cycle := {} }
  let s := s.trace st slot (wTag c.w) evIssue 0
  let s := if wf c.w 235 234 = 2 then s.clearFlag st (wf c.w 233 229) else s
  s.setSlot st slot ((s.slot st slot).issued c.w)

/-- What follows the effect of a word: a slot that has ended is freed, another takes its loop step and its next word. -/
def State.afterWord (s : State) (st slot : Nat) (c : Checked) : State :=
  let y := s.slot st slot
  if decide (y.st ≠ .live) then s
  else if y.ending then s.freeIfEnded st slot
  else
    let r := nextPc y c.w c.pc
    (s.setSlot st slot { y with loops := r.1, pc := r.2 }).becomeNext st slot

/-- A word without an engine completes as it issues, and posts its signal (Table 10-3). -/
def State.wordDone (s : State) (st slot : Nat) (w : BitVec 256) : State :=
  (s.trace st slot (wTag w) evComplete 0).postSignal st slot (s.tile st).nextOp w s.time.pip

section
variable (s : State) (st slot : Nat) (c : Checked)

theorem slot_clearFlag (f i : Nat) : (s.clearFlag st f).slot st i = s.slot st i := by simp [State.slot, State.clearFlag]

theorem lasting_clearFlag (f i : Nat) : (s.clearFlag st f).lasting st i =
    { s.lasting st i with flags := (s.tile st).flags &&& ~~~(1#32 <<< f) } := by
  simp only [State.lasting, State.slot, State.clearFlag, tile_setTile_self]
  rfl

theorem slot_issuing : (s.issuing st slot c).slot st slot = (s.slot st slot).issued c.w := by
  unfold State.issuing
  extract_lets t a b d
  have hb : b.slot st slot = s.slot st slot := by
    rw [slot_of_tables (tables_trace ..)]
    simp [a, t, State.slot]
  have hd : d.slot st slot = s.slot st slot := by
    unfold d
    split
    · exact (slot_clearFlag ..).trans hb
    · exact hb
  rw [slot_setSlot, hd]

/-- Before its effect an issue changes flags only, by the clear of its wait. -/
theorem lasting_issuing : ∃ f, (s.issuing st slot c).lasting st slot = { s.lasting st slot with flags := f } ∧
    (wf c.w 235 234 ≠ 2 → f = (s.tile st).flags) := by
  unfold State.issuing
  extract_lets t a b d
  have hb : b.lasting st slot = s.lasting st slot := (lasting_of_tables (tables_trace ..)).trans (lasting_setTile rfl rfl rfl rfl)
  rw [show (d.setSlot st slot ((d.slot st slot).issued c.w)).lasting st slot = d.lasting st slot from lasting_setSlot rfl]
  unfold d
  split
  next h => exact ⟨_, by rw [lasting_clearFlag, hb], fun hn => absurd h hn⟩
  next => exact ⟨_, hb, fun _ => rfl⟩

theorem tables_chargeWord (cost : Nat × Nat) : (s.chargeWord st slot cost).tables = s.tables := by
  unfold State.chargeWord
  extract_lets k cls e t
  split
  · rfl
  · split <;> rfl

theorem lasting_afterWord (h : (s.slot st slot).ending = false) : (s.afterWord st slot c).lasting st slot = s.lasting st slot := by
  unfold State.afterWord
  extract_lets y r
  split
  · rfl
  · rw [if_neg (by simp [y, h])]
    exact (lasting_becomeNext ..).trans (lasting_setSlot rfl)

/-- The guard of a word is that of its slot before it issues. -/
theorem guardOk_issuing : guardOk ((s.issuing st slot c).slot st slot) c.w = guardOk (s.slot st slot) c.w := by
  rw [slot_issuing]; rfl

/-- An issue by its stages: its charge, the effect unless the guard fails, and what follows. -/
theorem issueWord_eq : s.issueWord st slot c =
    (if guardOk (s.slot st slot) c.w then
      (((s.issuing st slot c).wordCost st c).2.chargeWord st slot ((s.issuing st slot c).wordCost st c).1).wordEffect st slot c
        ((s.issuing st slot c).wordCost st c).1.1
    else (s.issuing st slot c).chargeWord st slot (1, 1)).afterWord st slot c := by
  unfold State.issueWord
  extract_lets w t s1 s2 s3 x s4 pass cost s5 s6 y r
  have hpass : guardOk (s.slot st slot) c.w = pass := by
    rw [← guardOk_issuing, show (s.issuing st slot c).slot st slot = x.issued w from slot_setSlot ..]
    rfl
  have h6 : s6 = if pass = true then (((s.issuing st slot c).wordCost st c).2.chargeWord st slot
      ((s.issuing st slot c).wordCost st c).1).wordEffect st slot c ((s.issuing st slot c).wordCost st c).1.1
    else (s.issuing st slot c).chargeWord st slot (1, 1) := by
    unfold s6 s5 cost
    by_cases hp : pass = true
    · simp only [if_pos hp]; rfl
    · simp only [if_neg hp]; rfl
  rw [hpass, ← h6]
  rfl

theorem issueWord_fails (h : guardOk (s.slot st slot) c.w = false) :
    s.issueWord st slot c = ((s.issuing st slot c).chargeWord st slot (1, 1)).afterWord st slot c := by
  rw [issueWord_eq, h, if_neg Bool.false_ne_true]

/-- The cost of a word without an engine. -/
theorem wordCost_plain (hf : wForm c.w ∉ [1, 2, 3, 4]) : s.wordCost st c = ((1, 1), s) := by
  simp only [List.mem_cons, List.not_mem_nil, or_false, not_or] at hf
  obtain ⟨h1, h2, h3, h4⟩ := hf
  unfold State.wordCost
  extract_lets
  split
  next h => exact absurd h h1
  next h => exact absurd h h2
  next h => exact absurd h h3
  next h => exact absurd h h4
  next => rfl

theorem issueWord_passes (h : guardOk (s.slot st slot) c.w = true) (hf : wForm c.w ∉ [1, 2, 3, 4]) :
    s.issueWord st slot c = (((s.issuing st slot c).chargeWord st slot (1, 1)).wordEffect st slot c 1).afterWord st slot c := by
  rw [issueWord_eq, if_pos h, wordCost_plain _ _ _ hf]

end

/-! ### Effects of words without an engine (Tables 10-4, 10-10) -/

section
variable (s : State) (st slot : Nat) (c : Checked) (cycles : Nat)

theorem wordEffect_agset (h : wForm c.w = 5) : s.wordEffect st slot c cycles =
    (s.setSlot st slot (agSet (s.slot st slot) c.w)).wordDone st slot c.w := by
  simp only [State.wordEffect, h]; rfl

theorem wordEffect_cntWrite (h : wForm c.w = 6) (hs : wf c.w 127 124 = 3) : s.wordEffect st slot c cycles =
    (s.setCntr st (wf c.w 114 111) (wf c.w 31 0)).wordDone st slot c.w := by
  simp only [State.wordEffect, h, hs, if_true]; rfl

theorem wordEffect_scalar (h : wForm c.w = 6) (hs : wf c.w 127 124 ≠ 3) : s.wordEffect st slot c cycles =
    (s.setSlot st slot (scalarSet (s.tile st) (s.slot st slot) c.w)).wordDone st slot c.w := by
  simp only [State.wordEffect, h, if_neg hs]; rfl

theorem wordEffect_desc (h : wForm c.w = 7) {d : Desc} (hu : s.ueAt (wf c.w 63 0) 64 = none)
    (hd : parseDesc (s.read (memKey (wf c.w 63 0)) 64) = .ok d) : s.wordEffect st slot c cycles =
    (s.loadDesc false (wf c.w 127 112) d).wordDone st slot c.w := by
  simp only [State.wordEffect, h, State.descLoadWord, hu, hd]; rfl

theorem wordEffect_end (h : wForm c.w = 15) : s.wordEffect st slot c cycles =
    (s.setSlot st slot { s.slot st slot with ending := true, next := none }).wordDone st slot c.w := by
  simp only [State.wordEffect, h]; rfl

/-- The completion of a word changes nothing of its slot but the signals held. -/
theorem slot_wordDone (w : BitVec 256) : ∃ h, (s.wordDone st slot w).slot st slot = { s.slot st slot with held := h } := by
  obtain ⟨h, hs⟩ := slot_postSignal (s.trace st slot (wTag w) evComplete 0) st slot (s.tile st).nextOp w s.time.pip
  exact ⟨h, by rw [State.wordDone, hs, slot_of_tables (tables_trace ..)]⟩

theorem descs_wordDone (w : BitVec 256) : (s.wordDone st slot w).descs = s.descs :=
  (descs_postSignal ..).trans (descs_of_tables (tables_trace ..))

theorem eng_wordDone (w : BitVec 256) : ((s.wordDone st slot w).tile st).eng = (s.tile st).eng :=
  (eng_postSignal ..).trans (congrArg Stitch.eng (tile_of_tables (tables_trace ..) st))

/-- The values that a word leaves in a slot that has not ended, whatever its signal and the next word's check do. -/
theorem regs_done {x : Slot} (he : x.ending = false) :
    ((((s.setSlot st slot x).wordDone st slot c.w).afterWord st slot c).slot st slot).regs = x.regs := by
  obtain ⟨h, hs⟩ := slot_wordDone (s.setSlot st slot x) st slot c.w
  rw [slot_setSlot] at hs
  have hlast := lasting_afterWord ((s.setSlot st slot x).wordDone st slot c.w) st slot c (by rw [hs]; exact he)
  exact (congrArg Lasting.regs hlast).trans ((congrArg Slot.regs hs).trans rfl)

end

/-- A SCALAR word reads of the Stitch its counters only. -/
theorem scalarSet_congr {t u : Stitch} (h : t.cnts = u.cnts) (x : Slot) (w : BitVec 256) : scalarSet t x w = scalarSet u x w := by
  simp only [scalarSet, testValue, Stitch.cnt, h]

/-- A SCALAR word acts on a slot that issues as on the slot before. -/
theorem scalarSet_issued (t : Stitch) (x : Slot) (w v : BitVec 256) : scalarSet t (x.issued v) w = (scalarSet t x w).issued v := by
  unfold scalarSet
  extract_lets
  split <;> rfl

theorem scalarSet_ag (t : Stitch) (x : Slot) (w : BitVec 256) : (scalarSet t x w).ag = x.ag := by
  unfold scalarSet
  extract_lets
  split <;> rfl

theorem scalarSet_ending (t : Stitch) (x : Slot) (w : BitVec 256) : (scalarSet t x w).ending = x.ending := by
  unfold scalarSet
  extract_lets
  split <;> rfl

/-- The entry after a load at a pip: its image, unless the load of the other origin at this pip stays by R191; a new generation either
way (R312). -/
def DescEntry.loaded (e : DescEntry) (pip : Nat) (cmd : Bool) (d : Desc) : DescEntry :=
  if e.last = some (pip, !cmd) ∧ tieWins pip (b2n !cmd) (b2n cmd) then { e with gen := e.gen + 1 }
  else { gen := e.gen + 1, d := some d, last := some (pip, cmd) }

section
variable (s : State) (st : Nat)

theorem slot_setCntr (n v i : Nat) : (s.setCntr st n v).slot st i = s.slot st i := by simp [State.slot, State.setCntr]

theorem cnt_setCntr (n v : Nat) : ((s.setCntr st n v).tile st).cnt n = v % 2 ^ 32 := by simp [State.setCntr, Stitch.cnt]

theorem slot_loadDesc (cmd : Bool) (h : Nat) (d : Desc) (i : Nat) : (s.loadDesc cmd h d).slot st i = s.slot st i := by
  unfold State.loadDesc; extract_lets; split <;> rfl

theorem desc_loadDesc (cmd : Bool) (h : Nat) (d : Desc) : (s.loadDesc cmd h d).desc h = (s.desc h).loaded s.time.pip cmd d := by
  unfold State.loadDesc DescEntry.loaded
  extract_lets e
  split <;> exact tabGet_tabPut_self ..

theorem opsOf_congr {t u : Stitch} {i : Nat} (he : t.eng = u.eng) (hm : (tabGet t.slots {} i).mem = (tabGet u.slots {} i).mem) :
    t.opsOf i = u.opsOf i := by
  rw [Stitch.opsOf, Stitch.opsOf, he, hm]

variable {s st} {slot : Nat} {c : Checked}

/-- A slot that has issued END with nothing outstanding is freed (R307). -/
theorem afterWord_ended (hl : (s.slot st slot).st = .live) (he : (s.slot st slot).ending = true)
    (ho : ((s.tile st).opsOf slot).isEmpty = true) : s.afterWord st slot c =
      (s.setSlot st slot { reserved := (s.slot st slot).reserved }).endLaunch ((s.slot st slot).owner.getD 0) := by
  simp [State.afterWord, State.freeIfEnded, hl, he, ho]

end

/-! ### The state in which a word takes effect -/

/-- The state in which the effect of a word without an engine takes place: the issue has begun, and is charged. -/
def State.atEffect (s : State) (st slot : Nat) (c : Checked) : State := (s.issuing st slot c).chargeWord st slot (1, 1)

section
variable (s : State) (st slot : Nat) (c : Checked)

theorem slot_atEffect : (s.atEffect st slot c).slot st slot = (s.slot st slot).issued c.w :=
  (slot_of_tables (tables_chargeWord ..) ..).trans (slot_issuing ..)

/-- Only the clear of its wait has changed a flag. -/
theorem lasting_atEffect : ∃ f, (s.atEffect st slot c).lasting st slot = { s.lasting st slot with flags := f } ∧
    (wf c.w 235 234 ≠ 2 → f = (s.tile st).flags) := by
  obtain ⟨f, hf, hn⟩ := lasting_issuing s st slot c
  exact ⟨f, (lasting_of_tables (tables_chargeWord ..)).trans hf, hn⟩

theorem cnts_atEffect : ((s.atEffect st slot c).tile st).cnts = (s.tile st).cnts := by
  obtain ⟨f, hf, -⟩ := lasting_atEffect s st slot c
  exact congrArg Lasting.cnts hf

theorem eng_atEffect : ((s.atEffect st slot c).tile st).eng = (s.tile st).eng := by
  obtain ⟨f, hf, -⟩ := lasting_atEffect s st slot c
  exact congrArg Lasting.eng hf

theorem descs_atEffect : (s.atEffect st slot c).descs = s.descs := by
  obtain ⟨f, hf, -⟩ := lasting_atEffect s st slot c
  exact congrArg Lasting.descs hf

/-- The state without Stitches, charges and launches. -/
def State.offIssue (s : State) : State := { s with tiles := [], pwr := {}, pat := {} }

theorem traceAt_off (h : s.pat.traces = []) (stamp tag ev status : Nat) : s.traceAt stamp st slot tag ev status = s := by
  simp [State.traceAt, h]

/-- With no trace set, an issue writes nothing to memory (R315). -/
theorem offIssue_atEffect (h : s.pat.traces = []) : (s.atEffect st slot c).offIssue = s.offIssue := by
  have hcharge (u : State) : (u.chargeWord st slot (1, 1)).offIssue = u.offIssue := by
    unfold State.chargeWord
    extract_lets k cls e t
    split
    · rfl
    · split <;> rfl
  refine (hcharge _).trans ?_
  unfold State.issuing
  extract_lets t a b d
  have hb : b = a := traceAt_off a st slot h ..
  show d.offIssue = s.offIssue
  unfold d
  split <;> rw [hb] <;> rfl

variable {s st slot c}

/-- A word without an engine whose guard passes: its effect, and what follows. -/
theorem issueWord_plain (h : guardOk (s.slot st slot) c.w = true) (hf : wForm c.w ∉ [1, 2, 3, 4]) :
    s.issueWord st slot c = ((s.atEffect st slot c).wordEffect st slot c 1).afterWord st slot c := issueWord_passes _ _ _ _ h hf

end

/-! ### What an issued word leaves -/

section
variable {st slot : Nat} {s : State} {c : Checked} (hl : (s.slot st slot).st = .live) (he : (s.slot st slot).ending = false)

section
include he

/-- A word whose guard fails changes nothing but flags, and these only by the clear of its wait (R292). -/
theorem lasting_issueWord_fails (h : guardOk (s.slot st slot) c.w = false) (hn : wf c.w 235 234 ≠ 2) :
    (s.issueWord st slot c).lasting st slot = s.lasting st slot := by
  obtain ⟨f, hf, hclear⟩ := lasting_atEffect s st slot c
  rw [issueWord_fails _ _ _ _ h]
  refine (lasting_afterWord _ _ _ _ (congrArg Slot.ending (slot_atEffect s st slot c) |>.trans he)).trans (hf.trans ?_)
  rw [hclear hn]
  rfl

variable (hg : guardOk (s.slot st slot) c.w = true)
include hg

theorem regs_issueWord_scalar (hf : wForm c.w = 6) (hs : wf c.w 127 124 ≠ 3) :
    ((s.issueWord st slot c).slot st slot).regs = (scalarSet (s.tile st) (s.slot st slot) c.w).regs := by
  have hset : scalarSet ((s.atEffect st slot c).tile st) ((s.atEffect st slot c).slot st slot) c.w =
      (scalarSet (s.tile st) (s.slot st slot) c.w).issued c.w := by
    rw [slot_atEffect, scalarSet_issued, scalarSet_congr (cnts_atEffect ..)]
  rw [issueWord_plain hg (by simp [hf]), wordEffect_scalar _ _ _ _ _ hf hs, hset]
  exact regs_done _ _ _ _ ((scalarSet_ending ..).trans he)

theorem regs_issueWord_agset (hf : wForm c.w = 5) :
    ((s.issueWord st slot c).slot st slot).regs = (agSet (s.slot st slot) c.w).regs := by
  rw [issueWord_plain hg (by simp [hf]), wordEffect_agset _ _ _ _ _ hf, slot_atEffect]
  exact regs_done _ _ _ _ he

theorem cnt_issueWord_cntWrite (hf : wForm c.w = 6) (hs : wf c.w 127 124 = 3) (hsig : wf c.w 211 210 = 0) :
    ((s.issueWord st slot c).tile st).cnt (wf c.w 114 111) = wf c.w 31 0 := by
  rw [issueWord_plain hg (by simp [hf]), wordEffect_cntWrite _ _ _ _ _ hf hs]
  generalize hu : (s.atEffect st slot c).setCntr st (wf c.w 114 111) (wf c.w 31 0) = u
  have hend : (u.slot st slot).ending = false := by
    rw [← hu, slot_setCntr, slot_atEffect]
    exact he
  have hdone : (u.wordDone st slot c.w).tables = u.tables := by
    rw [State.wordDone, postSignal_none _ _ _ _ _ _ hsig, tables_trace]
  have hlast := lasting_afterWord (u.wordDone st slot c.w) st slot c (by rw [slot_of_tables hdone, hend])
  have hcnts : ((u.wordDone st slot c.w).tile st).cnts = (u.tile st).cnts := congrArg Stitch.cnts (tile_of_tables hdone st)
  calc (((u.wordDone st slot c.w).afterWord st slot c).tile st).cnt (wf c.w 114 111)
    _ = (u.tile st).cnt (wf c.w 114 111) := congrArg (tabGet · 0 _) ((congrArg Lasting.cnts hlast).trans hcnts)
    _ = wf c.w 31 0 % 2 ^ 32 := hu ▸ cnt_setCntr ..
    _ = wf c.w 31 0 := Nat.mod_eq_of_lt (Nat.mod_lt _ (by decide))

theorem desc_issueWord (hf : wForm c.w = 7) {d : Desc} (hu : s.ueAt (wf c.w 63 0) 64 = none) (ht : s.pat.traces = [])
    (hd : parseDesc (s.read (memKey (wf c.w 63 0)) 64) = .ok d) :
    (s.issueWord st slot c).desc (wf c.w 127 112) = (s.desc (wf c.w 127 112)).loaded s.time.pip false d := by
  have hoff := offIssue_atEffect s st slot c ht
  have hue : (s.atEffect st slot c).ueAt (wf c.w 63 0) 64 = none :=
    (congrArg (fun s : State => s.ueAt (wf c.w 63 0) 64) hoff :).trans hu
  have himg : parseDesc ((s.atEffect st slot c).read (memKey (wf c.w 63 0)) 64) = .ok d :=
    (congrArg (fun s : State => parseDesc (s.read (memKey (wf c.w 63 0)) 64)) hoff :).trans hd
  rw [issueWord_plain hg (by simp [hf]), wordEffect_desc _ _ _ _ _ hf hue himg]
  generalize hv : (s.atEffect st slot c).loadDesc false (wf c.w 127 112) d = v
  have hend : ((v.wordDone st slot c.w).slot st slot).ending = false := by
    obtain ⟨h, hs⟩ := slot_wordDone v st slot c.w
    rw [hs, ← hv, slot_loadDesc, slot_atEffect]
    exact he
  have hdescs : ((v.wordDone st slot c.w).afterWord st slot c).descs = v.descs :=
    (congrArg Lasting.descs (lasting_afterWord _ _ _ c hend)).trans (descs_wordDone ..)
  calc ((v.wordDone st slot c.w).afterWord st slot c).desc (wf c.w 127 112)
    _ = v.desc (wf c.w 127 112) := congrArg (fun x : Tab DescEntry => tabGet x {} _) hdescs
    _ = ((s.atEffect st slot c).desc (wf c.w 127 112)).loaded (s.atEffect st slot c).time.pip false d := hv ▸ desc_loadDesc ..
    _ = (s.desc (wf c.w 127 112)).loaded s.time.pip false d :=
      (congrArg (fun s : State => (s.desc (wf c.w 127 112)).loaded s.time.pip false d) hoff :)

end

include hl

theorem slot_issueWord_end (hg : guardOk (s.slot st slot) c.w = true) (hf : wForm c.w = 15)
    (ho : ((s.tile st).opsOf slot).isEmpty = true) :
    (s.issueWord st slot c).slot st slot = { reserved := (s.slot st slot).reserved } := by
  rw [issueWord_plain hg (by simp [hf]), wordEffect_end _ _ _ _ _ hf, slot_atEffect]
  generalize hu : (s.atEffect st slot c).setSlot st slot { (s.slot st slot).issued c.w with ending := true, next := none } = u
  obtain ⟨h, hs⟩ := slot_wordDone u st slot c.w
  have heng : ((u.wordDone st slot c.w).tile st).eng = (s.tile st).eng := by
    rw [eng_wordDone, ← hu, tile_setSlot, eng_atEffect]
  rw [← hu, slot_setSlot, hu] at hs
  have hops : ((u.wordDone st slot c.w).tile st).opsOf slot = (s.tile st).opsOf slot := opsOf_congr heng ((congrArg Slot.mem hs).trans rfl)
  have hlive : ((u.wordDone st slot c.w).slot st slot).st = .live := (congrArg Slot.st hs).trans hl
  have hend : ((u.wordDone st slot c.w).slot st slot).ending = true := congrArg Slot.ending hs
  rw [afterWord_ended hlive hend (by rw [hops]; exact ho), slot_of_tables (tables_endLaunch ..), slot_setSlot, hs]
  rfl

end

/-- Settles O27: the effect of the word takes place in `State.atEffect`, where the slot's values, the counters and the descriptors are as
before (`slot_atEffect`, `lasting_atEffect`, `offIssue_atEffect`), and neither its signal nor what follows it (`lasting_afterWord`)
changes them; END leaves a slot to be freed (`afterWord_ended`). -/
theorem wordEffects : Obligations.WordEffects := by
  unfold Obligations.WordEffects
  refine ⟨fun st slot s c hl he hg => ⟨fun hf hs => ?_, fun hf => ?_, fun hf hs hsig => ?_, fun d hf hu ht hd => ?_, fun hf ho => ?_⟩,
    fun st slot s c hl he hg hn => ?_⟩
  · have h := regs_issueWord_scalar he hg hf hs
    exact ⟨congrArg Regs.cmp h, congrArg Regs.lc h, congrArg Regs.p h, (congrArg Regs.ag h).trans (scalarSet_ag ..)⟩
  · have h := regs_issueWord_agset he hg hf
    exact ⟨congrArg Regs.ag h, congrArg Regs.cmp h⟩
  · exact cnt_issueWord_cntWrite he hg hf hs hsig
  · rw [desc_issueWord he hg hf hu ht hd]
    exact ⟨fun hlast hodd => if_pos ⟨hlast, by simp [tieWins, b2n, hodd]⟩,
      fun hno => if_neg fun h => hno.elim (fun hn => hn h.1) (fun hev => by simp [tieWins, b2n, hev] at h)⟩
  · rw [slot_issueWord_end hl hg hf ho]
    exact ⟨rfl, rfl⟩
  · have h := lasting_issueWord_fails he hg hn
    exact ⟨congrArg (·.regs.cmp) h, congrArg (·.regs.lc) h, congrArg (·.regs.p) h, congrArg (·.regs.ag) h, congrArg Lasting.flags h,
      congrArg Lasting.cnts h, congrArg Lasting.eng h, congrArg Lasting.descs h⟩

end Sys2Proof.Machine
end

section
/-! PROOF. Accumulator tiles: what MATRIX operations write (09 R257; 10 R300; 12 R365). -/

namespace Sys2Proof.Machine

open Sys2Proof

/-! ### Cells of a tile -/

/-- The new bits of cells, each with what is counted for it. -/
abbrev TileOut := List ((Nat × Nat) × Nat × Cnts)

/-- A Stitch after the cells of a tile are set; the tile holds I32 or F32 words. -/
def Stitch.putCells (t : Stitch) (tile : Nat) (int : Bool) (out : TileOut) : Stitch :=
  let t := out.foldl (fun t o => t.setAcc tile o.1.1 o.1.2 o.2.1) t
  { t with acc := tabPut t.acc (8192 + tile) (b2n int) }

section
variable {tile : Nat}

/-- Within a tile a key tells its cell. -/
theorem accKey_inj {i j k n : Nat} (hj : j < 64) (hn : n < 64) (h : accKey tile i j = accKey tile k n) : (i, j) = (k, n) := by
  simp only [accKey] at h
  rw [Prod.mk.injEq]
  omega

theorem accKey_ne_tile {i j k n tile' : Nat} (hi : i < 64) (hj : j < 64) (hk : k < 64) (hn : n < 64) (h : tile' ≠ tile) :
    accKey tile k n ≠ accKey tile' i j := by
  simp only [accKey]
  omega

theorem mem_regionCells {rows cols : Nat} {p : Nat × Nat} : p ∈ regionCells rows cols ↔ p.1 < rows ∧ p.2 < cols := by
  obtain ⟨i, j⟩ := p
  simp [regionCells]

theorem acc_foldl_setAcc_ne {out : TileOut} {k : Nat} (t : Stitch) (h : ∀ o ∈ out, accKey tile o.1.1 o.1.2 ≠ k) :
    tabGet (out.foldl (fun t o => t.setAcc tile o.1.1 o.1.2 o.2.1) t).acc 0 k = tabGet t.acc 0 k := by
  induction out generalizing t with
  | nil => rfl
  | cons o r ih =>
    obtain ⟨ho, hr⟩ := List.forall_mem_cons.mp h
    rw [List.foldl_cons, ih _ hr]
    exact tabGet_tabPut_ne _ _ _ ho.symm

/-- A cell that is set holds the value that its place gives. -/
theorem acc_foldl_setAcc {cells : List (Nat × Nat)} (g : Nat × Nat → Nat × Cnts) {p : Nat × Nat} (t : Stitch)
    (hinj : ∀ q ∈ cells, accKey tile q.1 q.2 = accKey tile p.1 p.2 → q = p) (hp : p ∈ cells) :
    tabGet ((cells.map (fun p => (p, g p))).foldl (fun t o => t.setAcc tile o.1.1 o.1.2 o.2.1) t).acc 0 (accKey tile p.1 p.2) =
      (g p).1 := by
  induction cells generalizing t with
  | nil => cases hp
  | cons q r ih =>
    obtain ⟨hq, hr⟩ := List.forall_mem_cons.mp hinj
    rw [List.map_cons, List.foldl_cons]
    by_cases hpr : p ∈ r
    · exact ih _ hr hpr
    · obtain rfl : p = q := (List.mem_cons.mp hp).resolve_right hpr
      rw [acc_foldl_setAcc_ne]
      · exact tabGet_tabPut_self ..
      · intro o ho hk
        obtain ⟨a, ha, rfl⟩ := List.mem_map.mp ho
        exact hpr (hr a ha hk ▸ ha)

variable {rows cols : Nat} (hr : rows ≤ 64) (hc : cols ≤ 64) (t : Stitch) (int : Bool) (g : Nat × Nat → Nat × Cnts)
include hr hc

theorem accAt_putCells_out {tile' i j : Nat} (ht : tile' < 2) (hi : i < 64) (hj : j < 64) (h : tile' ≠ tile ∨ rows ≤ i ∨ cols ≤ j) :
    (t.putCells tile int ((regionCells rows cols).map (fun p => (p, g p)))).accAt tile' i j = t.accAt tile' i j := by
  have hk : accKey tile' i j ≠ 8192 + tile := by simp only [accKey]; omega
  refine (tabGet_tabPut_ne _ _ _ hk).trans (acc_foldl_setAcc_ne t fun o ho => ?_)
  obtain ⟨⟨k, n⟩, hp, rfl⟩ := List.mem_map.mp ho
  obtain ⟨hk, hn⟩ : k < rows ∧ n < cols := mem_regionCells.mp hp
  show accKey tile k n ≠ accKey tile' i j
  rcases eq_or_ne tile' tile with rfl | hne
  · intro he
    obtain ⟨rfl, rfl⟩ := Prod.mk.inj (accKey_inj (by omega) hj he)
    omega
  · exact accKey_ne_tile hi hj (by omega) (by omega) hne

theorem accAt_putCells_in (ht : tile < 2) {i j : Nat} (hi : i < rows) (hj : j < cols) :
    (t.putCells tile int ((regionCells rows cols).map (fun p => (p, g p)))).accAt tile i j = (g (i, j)).1 := by
  have hk : accKey tile i j ≠ 8192 + tile := by simp only [accKey]; omega
  refine (tabGet_tabPut_ne _ _ _ hk).trans (acc_foldl_setAcc g t (p := (i, j)) (fun q hq he => ?_) (mem_regionCells.mpr ⟨hi, hj⟩))
  obtain ⟨-, hq2⟩ := mem_regionCells.mp hq
  exact accKey_inj (by omega) (by omega) he

end

/-! ### Fields of a MATRIX word -/

theorem wM_le (w : BitVec 256) : wM w ≤ 64 := Nat.mod_lt _ (by decide)
theorem wN_le (w : BitVec 256) : wN w ≤ 64 := Nat.mod_lt _ (by decide)
theorem wTile_lt (w : BitVec 256) : wf w 123 123 < 2 := Nat.mod_lt _ (by decide)

/-! ### What the operations write -/

section
variable {s t : State} {st : Nat} {c : Checked} {x y : LatOp} {z : Option LatOp}

/-- The bits of an element of MMA or MMA_ZERO over segments cut at `thr`. -/
def State.mmaCell (s : State) (st : Nat) (w : BitVec 256) (x y : LatOp) (thr : Nat) (p : Nat × Nat) : Nat × Cnts :=
  s.mmaElem st x y ((s.aRow st x p.1 (wK w)).getD []) p.2 (groupLen x.d) (wK w) thr
    (if wf w 127 124 = 1 then 0 else (s.tile st).accAt (wf w 123 123) p.1 p.2)

/-- A word that completes has set its cells, and counted. -/
def State.tileWritten (s : State) (st : Nat) (w : BitVec 256) (int : Bool) (g : Nat × Nat → Nat × Cnts) (t : State) : Prop :=
  ∃ cnt, t = { s.setTile st ((s.tile st).putCells (wf w 123 123) int ((regionCells (wM w) (wN w)).map (fun p => (p, g p)))) with cnt := cnt }

theorem tileWritten_mma (ho : c.ops = [some x, some y, z]) (h : s.mma st c = (t, none)) :
    s.tileWritten st c.w x.d.fmt.int (s.mmaCell st c.w x y (if wSpctl c.w = 1 then c.split else 0)) t := by
  simp only [State.mma, ho] at h
  split at h
  · simp at h
  · split at h
    · simp at h
    · obtain rfl := (Prod.mk.inj h).1
      have hout : (regionCells (wM c.w) (wN c.w)).map (fun p => (p, s.mmaElem st x y
          ((((List.range (wM c.w)).map (fun i => s.aRow st x i (wK c.w))).getD p.1 none).getD []) p.2 (groupLen x.d) (wK c.w)
          (if wSpctl c.w = 1 then c.split else 0)
          (if wf c.w 127 124 = 1 then 0 else (s.tile st).accAt (wf c.w 123 123) p.1 p.2))) =
        (regionCells (wM c.w) (wN c.w)).map (fun p => (p, s.mmaCell st c.w x y (if wSpctl c.w = 1 then c.split else 0) p)) :=
        List.map_congr_left fun p hp => by
          simp [State.mmaCell, List.getD_eq_getElem?_getD, (mem_regionCells.mp hp).1]
      exact ⟨_, by rw [← hout]; rfl⟩

/-- The bits of an element of LOAD_ACC. -/
def State.loadCell (s : State) (st : Nat) (o : LatOp) (p : Nat × Nat) : Nat × Cnts :=
  if o.d.fmt.int then (ofInt 32 (s.opInt st o p.1 p.2), {})
  else (Fmt.encode .f32 (s.opElem st o p.1 p.2).1, (s.opElem st o p.1 p.2).2)

theorem tileWritten_loadAcc {x y : Option LatOp} {o : LatOp} (ho : c.ops = [x, y, some o]) (h : s.loadAcc st c = (t, none)) :
    s.tileWritten st c.w o.d.fmt.int (s.loadCell st o) t := by
  simp only [State.loadAcc, ho] at h
  split at h
  · simp at h
  · obtain rfl := (Prod.mk.inj h).1
    have hout : (regionCells (wM c.w) (wN c.w)).map (fun p =>
        if o.d.fmt.int then (p, ofInt 32 (s.opInt st o p.1 p.2), ({} : Cnts))
        else (p, Fmt.encode .f32 (s.opElem st o p.1 p.2).1, (s.opElem st o p.1 p.2).2)) =
      (regionCells (wM c.w) (wN c.w)).map (fun p => (p, s.loadCell st o p)) :=
      List.map_congr_left fun p _ => by unfold State.loadCell; split <;> rfl
    exact ⟨_, by rw [← hout]; rfl⟩

section
variable {li step : Nat} {l : Layer} {exact : Bool} (ho : c.ops = [some x, some y, z]) (hly : c.layer = some (li, l, exact))
  (hf : l.mode = 2 ∨ exact = true)
include ho hly hf

/-- In EXACT mode, or under fallback, MASK_N leaves out no block (R365), and audits none. -/
theorem tileWritten_maskN (h : s.maskN st c step = (t, none)) : s.tileWritten st c.w x.d.fmt.int (s.mmaCell st c.w x y 0) t := by
  have hfull : (l.mode == 2 || exact) = true := by simpa using hf
  simp only [State.maskN, ho, hly, hfull] at h
  split at h
  · simp at h
  · simp only [Bool.true_or, if_true, List.foldl_fixed] at h
    obtain rfl := (Prod.mk.inj h).1
    exact ⟨_, rfl⟩

/-- In EXACT mode, or under fallback, MASK_K leaves out no block (R365), and audits none. -/
theorem tileWritten_maskK (h : s.maskK st c step = (t, none)) : s.tileWritten st c.w x.d.fmt.int (s.mmaCell st c.w x y 0) t := by
  have hfull : (l.mode == 2 || exact) = true := by simpa using hf
  simp only [State.maskK, ho, hly, hfull] at h
  split at h
  · simp at h
  · simp only [Bool.true_or, if_true, List.foldl_fixed, List.filter_true] at h
    obtain rfl := (Prod.mk.inj h).1
    exact ⟨_, rfl⟩

end

section
variable {w : BitVec 256} {int : Bool} {g : Nat × Nat → Nat × Cnts} (h : s.tileWritten st w int g t)
include h

theorem tileWritten_frame : t.mem = s.mem ∧ t.descs = s.descs ∧ ∀ k, k ≠ st → t.tile k = s.tile k := by
  obtain ⟨cnt, rfl⟩ := h
  exact ⟨rfl, rfl, fun k hk => tile_setTile_ne _ _ hk⟩

theorem tile_tileWritten :
    t.tile st = (s.tile st).putCells (wf w 123 123) int ((regionCells (wM w) (wN w)).map (fun p => (p, g p))) := by
  obtain ⟨cnt, rfl⟩ := h
  exact tile_setTile_self ..

theorem accAt_tileWritten_out {tile i j : Nat} (ht : tile < 2) (hi : i < 64) (hj : j < 64)
    (ho : tile ≠ wf w 123 123 ∨ wM w ≤ i ∨ wN w ≤ j) : (t.tile st).accAt tile i j = (s.tile st).accAt tile i j := by
  rw [tile_tileWritten h]
  exact accAt_putCells_out (wM_le w) (wN_le w) _ _ _ ht hi hj ho

theorem accAt_tileWritten_in {i j : Nat} (hi : i < wM w) (hj : j < wN w) :
    (t.tile st).accAt (wf w 123 123) i j = (g (i, j)).1 := by
  rw [tile_tileWritten h]
  exact accAt_putCells_in (wM_le w) (wN_le w) _ _ _ (wTile_lt w) hi hj

end

end

/-- Settles O29: MMA, LOAD_ACC and, where nothing is left out, the MASK words write the cells of their M rows and N columns
(`State.tileWritten`), which have keys of their own (`accKey_inj`); the cells of an EXACT mask are those of DENSE. -/
theorem matrixTiles : Obligations.MatrixTiles := by
  unfold Obligations.MatrixTiles
  refine ⟨fun st s t c x y z ho h => ?_, fun st s t c x y z ho h => ?_, fun st s t u c d x y z li l exact step ho hd hly hf _
    hm hn hk htile hzero hsp ht hu tile i j => ?_⟩
  · have hw := tileWritten_mma ho h
    obtain ⟨hmem, hdescs, htiles⟩ := tileWritten_frame hw
    refine ⟨hmem, hdescs, htiles, fun tile i j => accAt_tileWritten_out hw, fun i j row hi hj hrow => ?_⟩
    rw [accAt_tileWritten_in hw hi hj, State.mmaCell, hrow, Option.getD_some]
  · cases z with
    | none =>
      simp only [State.loadAcc, ho] at h
      obtain rfl := (Prod.mk.inj h).1
      exact ⟨rfl, fun _ _ => rfl, fun _ _ _ _ _ _ _ => rfl⟩
    | some o =>
      have hw := tileWritten_loadAcc ho h
      obtain ⟨hmem, -, htiles⟩ := tileWritten_frame hw
      exact ⟨hmem, htiles, fun tile i j => accAt_tileWritten_out hw⟩
  · have hdense := tileWritten_mma (hd.trans ho) ht
    have hmask : s.tileWritten st c.w x.d.fmt.int (s.mmaCell st c.w x y 0) u :=
      hu.elim (tileWritten_maskN ho hly hf) (tileWritten_maskK ho hly hf)
    have hcell : s.mmaCell st d.w x y (if wSpctl d.w = 1 then d.split else 0) = s.mmaCell st c.w x y 0 := by
      funext p
      simp only [State.mmaCell, hsp, hk, htile, hzero, if_neg (show ¬ (0 : Nat) = 1 by decide)]
    rw [tile_tileWritten hdense, tile_tileWritten hmask, hcell, htile, hm, hn]

end Sys2Proof.Machine
end

section
/-! PROOF. Commands on Patterns, launches and traces (10 R315, R316, R319, R323, R325; 02 R54). -/

namespace Sys2Proof.Machine

open Sys2Proof

/-! ### Numbers of memory -/

theorem leNat_drop (l : List Byte) (i : Nat) : leNat (l.drop i) = leNat l / 256 ^ i := by
  induction i generalizing l with
  | zero => simp
  | succ i ih =>
    cases l with
    | nil => simp [leNat]
    | cons b r =>
      have hb := b.isLt
      rw [List.drop_succ_cons, ih, leNat, Nat.pow_succ', ← Nat.div_div_eq_div_mul]
      congr 1
      omega

theorem leNat_take (l : List Byte) (k : Nat) : leNat (l.take k) = leNat l % 256 ^ k := by
  induction k generalizing l with
  | zero => simp [leNat, Nat.mod_one]
  | succ k ih =>
    cases l with
    | nil => simp [leNat]
    | cons b r =>
      have hb := b.isLt
      have hmod := Nat.mod_mul (x := b.toNat + 256 * leNat r) (a := 256) (b := 256 ^ k)
      rw [List.take_succ_cons, leNat, leNat, ih, Nat.pow_succ', hmod]
      have hlow : (b.toNat + 256 * leNat r) % 256 = b.toNat := by omega
      have hhigh : (b.toNat + 256 * leNat r) / 256 = leNat r := by omega
      rw [hlow, hhigh]

theorem drop_memGetAll (m : List Host.Cell) (a i n : Nat) : (memGetAll m a (i + n)).drop i = memGetAll m (a + i) n := by
  induction i generalizing a with
  | zero => simp
  | succ i ih => rw [Nat.succ_add, memGetAll, List.drop_succ_cons, ih, Nat.add_assoc, Nat.add_comm 1 i]

theorem take_memGetAll (m : List Host.Cell) (a k n : Nat) : (memGetAll m a (k + n)).take k = memGetAll m a k := by
  induction k generalizing a with
  | zero => rfl
  | succ k ih => rw [Nat.succ_add, memGetAll, memGetAll, List.take_succ_cons, ih]

/-- A field of whole bytes of a number in memory is the number at the field's bytes. -/
theorem bits_readNat (s : State) (key i k n : Nat) : bits (s.readNat key (i + (k + n))) (8 * i) (8 * k) = s.readNat (key + i) k := by
  unfold State.readNat State.read bits
  rw [Nat.shiftRight_eq_div_pow, Nat.pow_mul, Nat.pow_mul, ← leNat_drop, ← leNat_take, drop_memGetAll, take_memGetAll]

/-- Bytes that memory holds at rising addresses are what a read gives. -/
theorem memGetAll_eq {m : List Host.Cell} {a : Nat} {bs : List Byte} (h : ∀ i, i < bs.length → memGet m (a + i) = bs.getD i 0) :
    memGetAll m a bs.length = bs := by
  apply List.ext_getElem (length_memGetAll ..)
  intro i h1 h2
  have hi := (getD_memGetAll m a h2).trans (h i h2)
  rwa [List.getD_eq_getElem _ _ h1, List.getD_eq_getElem _ _ h2] at hi

/-! ### PAT_LOAD (R316, R325) -/

/-- The image written into the store of each Skein of a list. -/
def State.storePattern (s : State) (off : Nat) (bs : List Byte) (ks : List Nat) : State :=
  ks.foldl (fun s k => s.write (dramKey (patStore k + off)) bs) s

/-- What PAT_LOAD of an image of `n` words leaves: the copies, the Pattern with its id, the measurement. -/
def State.loadPattern (s : State) (id n off len : Nat) (bs : List Byte) : State :=
  let s := s.storePattern off bs (List.range 4)
  (s.setPat { s.pat with
    pats := tabPut s.pat.pats id { gen := s.pat.nextGen, off := off, len := len, count := n, digest := Config.sha384 bs },
    nextGen := s.pat.nextGen + 1 }).measure 2 id (Config.sha384 bs)

/-- The conditions of a PAT_LOAD whose image has header `h`. -/
def State.patLoadChks (s : State) (o : Origin) (addr len h : Nat) : List Chk :=
  let n := bits h 32 32
  s.addrChks 0 addr len 64 ++
  [badFld 0 (decide (n = 0) || decide (n > 65536) || decide (bits h 8 24 ≠ 0) || decide (bits h 64 448 ≠ 0)),
   s.ownChk o resPat, ⟨decide (bits h 0 8 ≠ 1), .badDesc, none⟩, ⟨decide (len ≠ 64 + 32 * n), .badDesc, some 1⟩,
   ⟨decide (firstFree (s.pat.pats.map (·.1)) 257 0 ≥ 256) || decide (s.patPlace len + len > 2 ^ 25), .capacity, none⟩]

/-- What PAT_LOAD answers. -/
def patLoadFlds (id n : Nat) (bs : List Byte) : List Fld :=
  [uf 1 id, uf 4 n, bf 48 (leNat (beBytes 48 (Config.sha384 bs).toNat))]

theorem exec_patLoad (o : Origin) (addr len : Nat) (s : State) :
    exec (.patLoad o addr len) s =
      s.loading o 0x0601 [addr, len] addr len (s.patLoadChks o addr len (s.readNat (dramKey addr) 64)) (fun _ a =>
        (a.loadPattern (firstFree (s.pat.pats.map (·.1)) 257 0) (bits (s.readNat (dramKey addr) 64) 32 32) (s.patPlace len) len
          (a.read (dramKey addr) len),
         .done .ok (patLoadFlds (firstFree (s.pat.pats.map (·.1)) 257 0) (bits (s.readNat (dramKey addr) 64) 32 32)
          (a.read (dramKey addr) len)))) := rfl

@[simp] theorem measure_pat (s : State) (kind id : Nat) (d : BitVec 384) : (s.measure kind id d).pat = s.pat := by
  unfold State.measure; extract_lets; split <;> rfl

@[simp] theorem measure_mem (s : State) (kind id : Nat) (d : BitVec 384) : (s.measure kind id d).mem = s.mem := by
  unfold State.measure; extract_lets; split <;> rfl

@[simp] theorem storePattern_pat (s : State) (off : Nat) (bs : List Byte) (ks : List Nat) : (s.storePattern off bs ks).pat = s.pat := by
  induction ks generalizing s with
  | nil => rfl
  | cons k ks ih => rw [State.storePattern, List.foldl_cons, ← State.storePattern, ih, State.write_frame]; rfl

/-- The bytes of the store of a Skein: the image where that Skein is in the list. -/
theorem memGet_storePattern {s : State} (hs : s.MemOk) {off : Nat} {bs : List Byte} (hn : off + bs.length ≤ 2 ^ 25) {ks : List Nat}
    (hk : ∀ k ∈ ks, k < 4) {k i : Nat} (hk4 : k < 4) (hi : i < bs.length) :
    memGet (s.storePattern off bs ks).mem (dramKey (patStore k + off) + i) =
      if k ∈ ks then bs.getD i 0 else memGet s.mem (dramKey (patStore k + off) + i) := by
  induction ks generalizing s with
  | nil => rfl
  | cons j ks ih =>
    have hj : j < 4 := hk j (List.mem_cons_self ..)
    rw [State.storePattern, List.foldl_cons, ← State.storePattern, ih (State.write_memWf _ _ _ hs) (fun x hx => hk x (.tail _ hx)),
      State.write_mem]
    by_cases hjk : k = j
    · subst hjk
      rw [memGet_memPutAll_in _ _ hs hi, ite_self, if_pos (List.mem_cons_self ..)]
    · rw [memGet_memPutAll_out _ _ _ (by unfold dramKey patStore; omega)]
      simp only [List.mem_cons, hjk, false_or]

/-- Each store reads back the image. -/
theorem read_loadPattern {s : State} (hs : s.MemOk) {id n off len : Nat} {bs : List Byte} (hb : bs.length = len)
    (hn : off + len ≤ 2 ^ 25) {k : Nat} (hk : k < 4) :
    (s.loadPattern id n off len bs).read (dramKey (patStore k + off)) len = bs := by
  unfold State.read State.loadPattern
  rw [measure_mem, ← hb]
  refine memGetAll_eq (fun i hi => ?_)
  have h := memGet_storePattern (ks := List.range 4) hs (hb ▸ hn) (fun _ => List.mem_range.mp) hk hi
  rwa [if_pos (List.mem_range.mpr hk)] at h

theorem pats_loadPattern (s : State) (id n off len : Nat) (bs : List Byte) :
    tabGet? (s.loadPattern id n off len bs).pat.pats id =
      some { gen := s.pat.nextGen, off := off, len := len, count := n, digest := Config.sha384 bs } := by
  unfold State.loadPattern
  simp only [measure_pat, storePattern_pat]
  exact tabGet?_tabPut_self ..

/-- The word count of an image stands in bytes 4 to 7 of its header. -/
theorem header_count (s : State) {addr : Nat} (ha : addr % 64 = 0) :
    bits (s.readNat (dramKey addr) 64) 32 32 = s.readNat (dramKey (addr + 4)) 4 := by
  have hkey : dramKey (addr + 4) = dramKey addr + 4 := by unfold dramKey; omega
  rw [hkey]
  exact bits_readNat s (dramKey addr) 4 4 56

theorem patLoadChks_ok {s : State} {o : Origin} {addr len h n : Nat} (ho : s.Owns o resPat) (ha : addr % 64 = 0)
    (hl : addr + len ≤ 2 ^ 37) (hd : s.dramDenied addr len = false) (hc : bits h 32 32 = n) (h1 : 1 ≤ n) (h2 : n ≤ 65536)
    (hv : bits h 0 32 = 1) (hz : bits h 64 448 = 0) (hn : len = 64 + 32 * n)
    (hi : firstFree (s.pat.pats.map (·.1)) 257 0 < 256) (hp : s.patPlace len + len ≤ 2 ^ 25) :
    ∀ c ∈ s.patLoadChks o addr len h, c.bad = false := by
  have hver : bits h 0 8 = 1 ∧ bits h 8 24 = 0 := by
    unfold bits at hv ⊢
    simp only [Nat.shiftRight_eq_div_pow] at hv ⊢
    omega
  simp only [State.patLoadChks, hc, List.forall_mem_append, List.forall_mem_cons]
  refine ⟨addrChks_ok hl ha hd, ?_, ho, ?_, ?_, ?_, by simp⟩
  · simp only [badFld, hver.2, hz, Bool.or_eq_false_iff, decide_eq_false_iff_not]; omega
  · simp [hver.1]
  · simp [← hn]
  · simp only [Bool.or_eq_false_iff, decide_eq_false_iff_not]; omega

/-- PAT_LOAD (R316, R325). -/
theorem patLoad_loads {o : Origin} {addr len : Nat} {s : State} {p : Posted} {id : Nat} (hw : s.waiting o 0x0601 [addr, len] = some p)
    (hm : s.MaySend o 0x0601) (ho : s.Owns o resPat) (ha : addr % 64 = 0) (hl : addr + len ≤ 2 ^ 37) (hd : s.dramDenied addr len = false)
    (h1 : 1 ≤ s.readNat (dramKey (addr + 4)) 4) (h2 : s.readNat (dramKey (addr + 4)) 4 ≤ 65536)
    (hv : bits (s.readNat (dramKey addr) 64) 0 32 = 1) (hz : bits (s.readNat (dramKey addr) 64) 64 448 = 0)
    (hn : len = 64 + 32 * s.readNat (dramKey (addr + 4)) 4) (hid : id = firstFree (s.pat.pats.map (·.1)) 257 0) (hi : id < 256)
    (hp : s.patPlace len + len ≤ 2 ^ 25) (hu : s.firstUe (dramKey addr) len = none)
    (hs : s.mayIssue (addr / 2 ^ 35 % 4) clsMgmt = true) :
    ∃ f : State → State, ∃ res, exec (.patLoad o addr len) s = .next (s.concluded p f .ok res) ∧
      ∀ a : State, a.MemOk → (∃ x, tabGet? (f a).pat.pats id = some x ∧ x.count = s.readNat (dramKey (addr + 4)) 4 ∧ x.len = len ∧
          x.digest = Config.sha384 (a.read (dramKey addr) len)) ∧
        (∀ k, k < 4 → (f a).read (dramKey (patStore k + s.patPlace len)) len = a.read (dramKey addr) len) := by
  subst hid
  have hcount := header_count s ha
  have hc := patLoadChks_ok ho ha hl hd hcount h1 h2 hv hz hn hi hp
  refine ⟨_, _, (exec_patLoad ..).trans (loading_concluded hw hm hc hs hu), fun a hok => ⟨⟨_, pats_loadPattern .., hcount, rfl, rfl⟩,
    fun k hk => ?_⟩⟩
  · exact read_loadPattern (s := a.chargeLoad addr len) hok (length_memGetAll ..) hp hk

/-! ### PAT_UNLOAD, PAT_STATUS, PAT_FAULT_READ, PAT_TRACE_SET (R315, R325) -/

theorem exec_patUnload (o : Origin) (pat : Nat) (s : State) : exec (.patUnload o pat) s = execPatUnload o pat s := rfl

theorem exec_patStatus (o : Origin) (n : Nat) (s : State) : exec (.patStatus o n) s = execPatStatus o n s := rfl

theorem exec_patFaultRead (o : Origin) (k i slot : Nat) (s : State) : exec (.patFaultRead o k i slot) s = execPatFaultRead o k i slot s := rfl

theorem exec_patTraceSet (o : Origin) (mask lo hi events ring size wrap : Nat) (s : State) :
    exec (.patTraceSet o mask lo hi events ring size wrap) s = execPatTraceSet o mask lo hi events ring size wrap s := rfl

theorem exec_patAbort (o : Origin) (n : Nat) (s : State) : exec (.patAbort o n) s = execPatAbort o n s := rfl

theorem exec_patLaunchAt (o : Origin) (x : LaunchArgs) (s : State) : exec (.patLaunchAt o x) s = execPatLaunchAt o x s := rfl

/-- PAT_UNLOAD (R325). -/
theorem patUnload_removes {o : Origin} {pat : Nat} {s : State} {p : Posted} {x : Pattern} (hw : s.waiting o 0x0602 [pat] = some p)
    (hm : s.MaySend o 0x0602) (ho : s.Owns o resPat) (hx : tabGet? s.pat.pats pat = some x) (hb : s.patBusy pat = false) :
    exec (.patUnload o pat) s =
      .next (s.concluded p (fun a => a.setPat { a.pat with pats := tabDel a.pat.pats pat }) .ok (fun _ => [])) := by
  rw [exec_patUnload, execPatUnload, update_concluded hw hm]
  simp only [List.forall_mem_cons]
  exact ⟨ho, by simp [hx], hb, by simp⟩

theorem launch_accept (s : State) (p : Posted) (n : Nat) : (s.accept p).2.launch n = s.launch n := by simp [State.launch]

/-- PAT_STATUS (R325). -/
theorem patStatus_answers {o : Origin} {n : Nat} {s : State} {p : Posted} {l : Launch} (hw : s.waiting o 0x0604 [n] = some p)
    (hm : s.MaySend o 0x0604) (hn : n ≤ 1023) (hl : s.launch n = some l) :
    ∃ res, exec (.patStatus o n) s = .next (s.concluded p id .ok res) ∧
      (res (s.accept p).2).take 3 = [uf 1 (match l.st with | .armed => 0 | .running => 1 | .ended => 2), uf 8 l.start, uf 8 l.stop] := by
  rw [exec_patStatus, execPatStatus]
  refine ⟨_, query_concluded hw hm ?_, ?_⟩
  · simp only [List.forall_mem_cons]
    exact ⟨by simp [badFld, hn], by simp [hl], by simp⟩
  · simp only [launch_accept, hl]
    rfl

/-- PAT_FAULT_READ (R313, R325). -/
theorem patFaultRead_answers {o : Origin} {k i slot : Nat} {s : State} {p : Posted} (hw : s.waiting o 0x0606 [k, i, slot] = some p)
    (hm : s.MaySend o 0x0606) (hk : k ≤ 3) (hs : slot ≤ 63) (ha : s.absent (stitchNo k i) = false)
    (hr : s.isRetired (stitchNo k i) = false) :
    exec (.patFaultRead o k i slot) s = .next (s.concluded p id .ok (fun a => faultFlds
      (if (a.slot (stitchNo k i) slot).st = .faulted then (a.slot (stitchNo k i) slot).fault else none))) := by
  rw [exec_patFaultRead, execPatFaultRead]
  refine query_concluded hw hm ?_
  simp only [List.forall_mem_cons]
  exact ⟨by simp [badFld, hk], by simp [badFld, hs], ha, hr, by simp⟩

/-- PAT_TRACE_SET with a ring (R315, R325). -/
theorem patTraceSet_replaces {o : Origin} {mask lo hi events ring size wrap : Nat} {s : State} {p : Posted}
    (hw : s.waiting o 0x0607 [mask, lo, hi, events, ring, size, wrap] = some p) (hm : s.MaySend o 0x0607) (ho : s.Owns o resPat)
    (ha : ring % 64 = 0) (hl : ring + size ≤ 2 ^ 37) (hd : s.dramDenied ring size = false) (hk : mask ≤ 15) (hk0 : mask ≠ 0)
    (hlo : lo ≤ hi) (h16 : size % 16 = 0) (hs0 : size ≠ 0) (hwr : wrap ≤ 1) :
    ∃ f : State → State, ∃ res, exec (.patTraceSet o mask lo hi events ring size wrap) s = .next (s.concluded p f .ok res) ∧
      ∀ a : State, (f a).pat.traces.getLast? = some (Trace.mk mask lo hi events ring size (decide (wrap = 1)) 0 0 0) ∧
        f a = { a with pat := (f a).pat } := by
  rw [exec_patTraceSet, execPatTraceSet]
  refine ⟨_, _, update_concluded hw hm ?_, fun a => ⟨?_, rfl⟩⟩
  · simp only [if_neg hs0, List.forall_mem_append, List.forall_mem_cons]
    exact ⟨addrChks_ok hl ha hd, by simp [badFld, hk], by simp [badFld, hlo], by simp [badFld, h16], by simp [badFld, hwr], ho, by simp⟩
  · simp only [hs0, hk0, or_self, if_false, State.setPat]
    exact List.getLast?_concat ..

/-! ### PAT_ABORT (R323, R325) -/

section
variable {o : Origin} {n : Nat} {s : State} {p : Posted} {l : Launch} (hw : s.waiting o 0x0605 [n] = some p) (hm : s.MaySend o 0x0605)
  (ho : s.Owns o resPat) (hn : n ≤ 1023) (hl : s.launch n = some l)
include hw hm ho hn hl

/-- An armed launch is dropped. -/
theorem patAbort_armed (hst : l.st = .armed) :
    exec (.patAbort o n) s = .next (s.concluded p (fun a => a.dropLaunch n l .aborted) .ok (fun _ => [])) := by
  rw [exec_patAbort, execPatAbort]
  refine command_concluded_of_run hw hm ?_ ?_
  · simp only [List.forall_mem_cons]
    exact ⟨by simp [badFld, hn], ho, by simp [hl, hst], by simp⟩
  · simp only [launch_accept, hl, if_pos hst]

/-- A running launch is stopped, and the command waits for its end. -/
theorem patAbort_running (hst : l.st = .running) :
    exec (.patAbort o n) s = .next (s.begun p (fun tk a =>
      (a.setLaunch n { l with abortTickets := l.abortTickets ++ [tk] }).abortLaunch n
        { l with abortTickets := l.abortTickets ++ [tk] } .aborted)) := by
  rw [exec_patAbort, execPatAbort]
  refine (command_run hw hm ?_).trans ?_
  · simp only [List.forall_mem_cons]
    exact ⟨by simp [badFld, hn], ho, by simp [hl, hst], by simp⟩
  · have hna : l.st ≠ .armed := by simp [hst]
    simp only [launch_accept, hl, if_neg hna]
    rfl

end

/-! ### PAT_LAUNCH_AT without a barrier group (R54, R319, R320) -/

/-- A slot that keeps its reservation, or is one of those reserved. -/
theorem slot_reserveSlots_reserved {key : Nat} {q : Nat × Nat} {ps : List (Nat × Nat)} {s : State}
    (h : q ∈ ps ∨ (s.slot q.1 q.2).reserved = some key) : ((s.reserveSlots key ps).slot q.1 q.2).reserved = some key := by
  induction ps generalizing s with
  | nil => simpa [State.reserveSlots] using h
  | cons r ps ih =>
    rw [State.reserveSlots, List.foldl_cons, ← State.reserveSlots]
    apply ih
    by_cases hq : q = r
    · subst hq
      exact .inr (by rw [slot_setSlot])
    · rw [slot_setSlot_ne _ _ _ _ hq]
      simpa [hq] using h

/-- A Stitch that R31 and R434 refuse no use of. -/
theorem stitchStatus_eq_none {s : State} {st : Nat} (h : s.stitchStatus st = none) : s.absent st = false ∧ s.isRetired st = false := by
  unfold State.stitchStatus at h
  split at h
  · cases h
  next ha =>
    split at h
    · cases h
    next hr => exact ⟨by simpa using ha, by simpa using hr⟩

theorem stitchChks_ok {s : State} {sts : List Nat} (h : ∀ st ∈ sts, s.stitchStatus st = none) :
    ∀ c ∈ s.stitchChks sts, c.bad = false := by
  simp only [State.stitchChks, List.forall_mem_cons, List.any_eq_false]
  exact ⟨fun st hs => by simp [(stitchStatus_eq_none (h st hs)).1], fun st hs => by simp [(stitchStatus_eq_none (h st hs)).2],
    fun st hs => by simp [h st hs], by simp⟩

/-- The launch that PAT_LAUNCH_AT arms without a barrier group. -/
def armedLaunch (x : LaunchArgs) (o : Origin) (sl : List (Nat × Nat)) (target tk : Nat) : Launch :=
  { host := Origin.host? o, pat := x.pat, slots := sl, entry := x.entry, target := target, runLimit := x.runLimit,
    optStep := decide (x.optStep = 1), step := x.step, arg0 := x.arg0, arg1 := x.arg1, ticket := some tk }

/-- The conditions of a PAT_LAUNCH_AT. -/
def State.patLaunchChks (s : State) (o : Origin) (x : LaunchArgs) : List Chk :=
  let sts := mapStitches (s.readNat (dramKey x.map) 128)
  let p := tabGet? s.pat.pats x.pat
  let g := (tabGet? s.coll x.group).filter (fun g => !g.dead)
  s.addrChks 2 x.map 128 64 ++ s.stitchChks sts ++
  [badFld 0 (decide (x.launch > 1023)), badFld 3 (!inRange 1 64 x.slotsPer), badFld 6 (decide (x.late > 1)),
   badFld 7 (decide (x.group > 4095) && decide (x.group ≠ 0xFFFF)),
   badFld 8 (decide (x.runLimit ≠ 0) && !inRange (2 ^ 12) (2 ^ 40) x.runLimit), badFld 9 (decide (x.optStep > 1)),
   badFld 4 (match p with | some p => decide (x.entry ≥ p.count) | none => false), s.ownChk o resPat,
   ⟨p.isNone, .badDesc, some 1⟩, ⟨sts.isEmpty, .badDesc, some 2⟩,
   ⟨decide (x.group ≠ 0xFFFF) && g.isNone, .badDesc, some 7⟩, ⟨(scheduled s.time.pip x.target x.late).isNone, .late, none⟩,
   ⟨decide (x.group ≠ 0xFFFF) && s.freeBarrier.isNone, .capacity, none⟩,
   ⟨(match s.launch x.launch with | some l => decide (l.st ≠ .ended) | none => false) || (s.takeAll sts x.slotsPer).isNone ||
     decide (s.time.state = .unlocked), .busy, none⟩]

theorem exec_patLaunchAt_alone {o : Origin} {x : LaunchArgs} {s : State} {sl : List (Nat × Nat)} {target : Nat} (hg : x.group = 0xFFFF)
    (ht : scheduled s.time.pip x.target x.late = some target)
    (hl : s.takeAll (mapStitches (s.readNat (dramKey x.map) 128)) x.slotsPer = some sl) :
    exec (.patLaunchAt o x) s =
      s.loading o 0x0603 [x.launch, x.pat, x.map, x.slotsPer, x.entry, x.target, x.late, x.group, x.runLimit, x.optStep, x.step,
        x.arg0, x.arg1] x.map 128 (s.patLaunchChks o x)
        (fun tk a => ((a.reserveSlots x.launch sl).setLaunch x.launch (armedLaunch x o sl target tk), .later)) := by
  rw [exec_patLaunchAt, execPatLaunchAt, State.patLaunchChks]
  simp only [hg, ht, hl, if_true, Option.getD_some]
  rfl

theorem patLaunchChks_ok {o : Origin} {x : LaunchArgs} {s : State} {y : Pattern} {sl : List (Nat × Nat)} {target : Nat}
    (ho : s.Owns o resPat) (ha : x.map % 64 = 0) (hl : x.map + 128 ≤ 2 ^ 37) (hd : s.dramDenied x.map 128 = false)
    (hst : ∀ st ∈ mapStitches (s.readNat (dramKey x.map) 128), s.stitchStatus st = none)
    (hne : mapStitches (s.readNat (dramKey x.map) 128) ≠ []) (hn : x.launch ≤ 1023) (h1 : 1 ≤ x.slotsPer) (h64 : x.slotsPer ≤ 64)
    (hlate : x.late ≤ 1) (hg : x.group = 0xFFFF) (hr : x.runLimit = 0) (hopt : x.optStep ≤ 1) (hy : tabGet? s.pat.pats x.pat = some y)
    (he : x.entry < y.count) (ht : scheduled s.time.pip x.target x.late = some target)
    (hsl : s.takeAll (mapStitches (s.readNat (dramKey x.map) 128)) x.slotsPer = some sl)
    (hold : ∀ l, s.launch x.launch = some l → l.st = .ended) (hu : s.time.state ≠ .unlocked) :
    ∀ c ∈ s.patLaunchChks o x, c.bad = false := by
  simp only [State.patLaunchChks, List.forall_mem_append, List.forall_mem_cons]
  refine ⟨⟨addrChks_ok hl ha hd, stitchChks_ok hst⟩, ?_, ?_, ?_, ?_, ?_, ?_, ?_, ho, ?_, ?_, ?_, ?_, ?_, ?_, by simp⟩
  · simp [badFld, hn]
  · simp [badFld, inRange, h1, h64]
  · simp [badFld, hlate]
  · simp [badFld, hg]
  · simp [badFld, hr]
  · simp [badFld, hopt]
  · simp [badFld, hy, he]
  · simp [hy]
  · simp [hne]
  · simp [hg]
  · simp [ht]
  · simp [hg]
  · cases h : s.launch x.launch with
    | none => simp [hsl, hu]
    | some l => simp [hsl, hu, hold l h]

/-- PAT_LAUNCH_AT arms the launch, its slots reserved. -/
theorem patLaunchAt_arms {o : Origin} {x : LaunchArgs} {s : State} {p : Posted} {sl : List (Nat × Nat)} {target : Nat}
    (hw : s.waiting o 0x0603 [x.launch, x.pat, x.map, x.slotsPer, x.entry, x.target, x.late, x.group, x.runLimit, x.optStep, x.step,
      x.arg0, x.arg1] = some p) (hm : s.MaySend o 0x0603) (hc : ∀ c ∈ s.patLaunchChks o x, c.bad = false) (hg : x.group = 0xFFFF)
    (ht : scheduled s.time.pip x.target x.late = some target)
    (hsl : s.takeAll (mapStitches (s.readNat (dramKey x.map) 128)) x.slotsPer = some sl) (hu : s.firstUe (dramKey x.map) 128 = none)
    (hi : s.mayIssue (x.map / 2 ^ 35 % 4) clsMgmt = true) :
    ∃ ft : Nat → State → State, exec (.patLaunchAt o x) s = .next (s.begun p ft) ∧
      ∀ tk, ∀ a : State, ∃ l, (ft tk a).launch x.launch = some l ∧ l.st = .armed ∧ l.target = target ∧ l.slots = sl ∧ l.ticket = some tk ∧
        ∀ q ∈ sl, ((ft tk a).slot q.1 q.2).reserved = some x.launch :=
  ⟨_, (exec_patLaunchAt_alone hg ht hsl).trans (loading_begun hw hm hc hi hu), fun tk _ =>
    ⟨armedLaunch x o sl target tk, launch_setLaunch_self .., rfl, rfl, rfl, rfl, fun _ hq => slot_reserveSlots_reserved (.inl hq)⟩⟩

/-- Settles O31: each command is a row that nothing refuses, with the effect and the answer that its lemma names; the image that
PAT_LOAD reads back from each store rests on the four stores being apart. -/
theorem patternCommands : Obligations.PatternCommands := by
  unfold Obligations.PatternCommands
  refine ⟨?_, ?_, ?_, ?_, ?_, ?_, ?_⟩
  · intro o addr len s p id hw hm ho ha hl hd h1 h2 hv hz hn hid hi hp hu hs
    exact patLoad_loads hw hm ho ha hl hd h1 h2 hv hz hn hid hi hp hu hs
  · intro o pat s p x hw hm ho hx hb
    exact patUnload_removes hw hm ho hx hb
  · intro o x s p y sl target hw hm ho ha hl hd hst hne hn h1 h64 hlate hg hr hopt hy he ht hsl hold hlock hu hi
    exact patLaunchAt_arms hw hm
      (patLaunchChks_ok ho ha hl hd hst hne hn h1 h64 hlate hg hr hopt hy he ht hsl hold hlock) hg ht hsl hu hi
  · intro o n s p l hw hm ho hn hl
    exact ⟨patAbort_armed hw hm ho hn hl, patAbort_running hw hm ho hn hl⟩
  · intro o n s p l hw hm hn hl
    exact patStatus_answers hw hm hn hl
  · intro o k i slot s p hw hm hk hs ha hr
    exact patFaultRead_answers hw hm hk hs ha hr
  · intro o mask lo hi events ring size wrap s p hw hm ho ha hl hd hk hk0 hlo h16 hs0 hwr
    exact patTraceSet_replaces hw hm ho ha hl hd hk hk0 hlo h16 hs0 hwr

end Sys2Proof.Machine
end

section
/-! SUPPORT. No reset starts an operation of an engine (10 R294; 17 R475, R476; 18 Table 18-2). -/

namespace Sys2Proof.Machine

open Sys2Proof

/-! ### Engines without operations -/

/-- Whether an engine of a Stitch has no operation. -/
def State.idle (s : State) (st e : Nat) : Bool := ((s.tile st).ops e).isEmpty

theorem idle_eq_true {s : State} {st e : Nat} : s.idle st e = true ↔ (s.tile st).ops e = [] := List.isEmpty_iff

theorem idle_of_tables {s t : State} (h : t.tables = s.tables) : t.idle = s.idle :=
  funext fun st => by unfold State.idle; rw [tile_of_tables h]

theorem idle_of_offBuf {s t : State} (h : t.offBuf = s.offBuf) : t.idle = s.idle := (congrArg State.idle h :)

theorem idle_of_offHanks {s t : State} (h : t.offHanks = s.offHanks) : t.idle = s.idle := (congrArg State.idle h :)

/-- A new record of a Stitch with operations on the same engines. -/
theorem idle_setTile {s : State} {st : Nat} {x : Stitch} (h : ∀ e, (x.ops e).isEmpty = s.idle st e) : (s.setTile st x).idle = s.idle := by
  funext k e
  by_cases hk : k = st
  · subst hk
    exact (congrArg (fun t : Stitch => (t.ops e).isEmpty) (tile_setTile_self ..)).trans (h e)
  · exact congrArg (fun t : Stitch => (t.ops e).isEmpty) (tile_setTile_ne _ _ hk)

section
variable (s : State)

theorem idle_setSlot (st i : Nat) (x : Slot) : (s.setSlot st i x).idle = s.idle := idle_setTile (fun _ => rfl)

theorem idle_setLink (lk : Nat) (l : Link) : (s.setLink lk l).idle = s.idle := rfl

theorem idle_setLad (x : LadSt) : (s.setLad x).idle = s.idle := rfl

theorem idle_setBuf (x : BufSt) : (s.setBuf x).idle = s.idle := rfl

theorem idle_setColl (x : Tab Group) : (s.setColl x).idle = s.idle := rfl

theorem idle_setMem (m : List Host.Cell) : (s.setMem m).idle = s.idle := rfl

theorem idle_setBoot (x : BootSt) : (s.setBoot x).idle = s.idle := rfl

theorem idle_setDealer (k : Nat) (d : Dealer) : (s.setDealer k d).idle = s.idle := rfl

theorem idle_bumpBy (f : Fam) (u i n : Nat) : (s.bumpBy f u i n).idle = s.idle := rfl

theorem idle_bump (f : Fam) (u i : Nat) : (s.bump f u i).idle = s.idle := rfl

theorem idle_finish (ticket : Nat) (st : Status) (res : List Fld) : (s.finish ticket st res).idle = s.idle :=
  idle_of_tables (tables_finish ..)

theorem idle_finishAll (ts : List Nat) (st : Status) : (s.finishAll ts st).idle = s.idle :=
  foldl_view State.idle (fun _ _ => idle_finish ..) _ s

theorem idle_irqAll (b : Nat) : (s.irqAll b).idle = s.idle := (idle_of_tables (tables_irq ..)).trans (idle_of_tables (tables_irq ..))

theorem idle_consume (q : QFrame) : (s.consume q).idle = s.idle := idle_of_offBuf (offBuf_consume ..)

theorem idle_freeFrame (q : QFrame) : (s.freeFrame q).idle = s.idle := idle_of_offBuf (offBuf_freeFrame ..)

theorem idle_setFrames (fs : List QFrame) : (s.setFrames fs).idle = s.idle := idle_of_offBuf (offBuf_setFrames ..)

theorem idle_releaseHeld (q : QFrame) : (s.releaseHeld q).idle = s.idle := idle_of_offHanks (offHanks_releaseHeld ..)

/-! ### The log -/

theorem idle_logWrite (r : Raised) : (s.logWrite r).idle = s.idle := by
  unfold State.logWrite
  split
  · extract_lets x t
    have ht : t.idle = s.idle := idle_irqAll ..
    split
    · exact ht
    · exact ht
  · rfl

theorem idle_logHandle (r : Raised) : (s.logHandle r).idle = s.idle := by
  unfold State.logHandle
  split
  · rfl
  · extract_lets written t
    have ht : t.idle = s.idle := idle_logWrite ..
    split
    · exact ht
    · exact ht

theorem idle_logFlush : s.logFlush.idle = s.idle := foldl_view State.idle (fun _ _ => idle_logHandle ..) _ (s.setLog _)

theorem idle_ladLog (die status : Nat) : (s.ladLog die status).idle = s.idle := rfl

theorem idle_sentSkip (st cause : Nat) : (s.sentSkip st cause).idle = s.idle := rfl

theorem idle_absorbReset (j : ResetJob) : (s.absorbReset j).idle = s.idle := by
  unfold State.absorbReset
  extract_lets t
  split
  · exact idle_finish ..
  · rfl

/-! ### Requests, work of the units and shards -/

theorem idle_dropWork (k : Nat) (p : Work → Bool) : (s.dropWork k p).idle = s.idle := rfl

theorem idle_request (p : Parked) : (s.request p).idle = s.idle := by
  unfold State.request
  split
  · rfl
  · extract_lets t f
    split
    · exact idle_of_offBuf (offBuf_sendSkein ..)
    · exact idle_of_offBuf (offBuf_sendFrom ..)

theorem idle_dropAskers (gone : Asker → Bool) : (s.dropAskers gone).idle = s.idle :=
  foldl_view State.idle (fun _ _ => idle_request ..) _ ((s.setRoute _).setRoute _)

theorem idle_dropAsks (h : Nat) : (s.dropAsks h).idle = s.idle := idle_dropAskers ..

theorem idle_tear (h : Nat) : (s.tear h).idle = s.idle := by
  unfold State.tear
  split
  · rfl
  · exact (idle_finishAll ..).trans ((idle_irqAll ..).trans (idle_dropAsks ..))

theorem idle_rubFailed (h no seq : Nat) : (s.rubFailed h no seq).idle = s.idle := by
  unfold State.rubFailed
  split
  · rfl
  · split
    · exact idle_tear ..
    · extract_lets
      split <;> rfl

theorem idle_sliceReady (h : Nat) (g : GradSlice) (c : Cnts) : (s.sliceReady h g c).idle = s.idle := by
  unfold State.sliceReady
  split <;> rfl

theorem idle_endShard (h : Nat) (x : Shard) : (s.endShard h x).idle = s.idle := by
  unfold State.endShard
  extract_lets t w u
  have hu : u.idle = s.idle := idle_dropAsks s h
  exact (foldl_view State.idle (fun _ _ => idle_finish ..) _ u).trans hu

theorem idle_queueS (k : Nat) (w : Work) (key : List Nat) : (s.queueS k w key).idle = s.idle := by
  unfold State.queueS
  extract_lets d q t
  split
  · rfl
  · split
    · exact idle_sentSkip ..
    · rfl

/-! ### Collectives (08 R242 to R251) -/

theorem idle_sendResults (no : Nat) (g : Group) (h : List Byte) (seq slice rec_ : Nat) (body : List Byte) (own : Bool) :
    (s.sendResults no g h seq slice rec_ body own).idle = s.idle :=
  foldl_view State.idle (fun _ _ => idle_of_offBuf (offBuf_sendDown ..)) _ s

theorem idle_withGroup (no : Nat) (f : Group → Group) : (s.withGroup no f).idle = s.idle := by
  unfold State.withGroup
  split <;> rfl

theorem idle_collStats (no : Nat) (t : Stats) : (s.collStats no t).idle = s.idle := idle_withGroup ..

theorem idle_chargeNodes (g : Group) (h : List Byte) (sl die m : Nat) : (s.chargeNodes g h sl die m).idle = s.idle := by
  unfold State.chargeNodes
  split <;> rfl

theorem idle_absorb (no : Nat) (x : Slice) (die : Nat) : (s.absorb no x die).1.idle = s.idle :=
  foldl_view (fun a : State × Slice => a.1.idle) (fun _ _ => (idle_releaseHeld ..).trans (idle_collStats ..)) _ (s, x)

theorem idle_sendNodes (no : Nat) (h : List Byte) (x : Slice) (sl d : Nat) : (s.sendNodes no h x sl d).1.idle = s.idle := by
  unfold State.sendNodes
  split
  · rfl
  · exact (idle_collStats ..).trans (idle_chargeNodes ..)

theorem idle_completeColl (no : Nat) (c : Coll) : (s.completeColl no c).idle = s.idle := by
  unfold State.completeColl
  split <;> rfl

theorem idle_failColl (no : Nat) (c : Coll) (status : Status) (ranges : List (Nat × Nat)) (cut down : Bool) :
    (s.failColl no c status ranges cut down).idle = s.idle := by
  unfold State.failColl
  split
  · rfl
  · extract_lets t root u g' v w rc e x
    have ht : t.idle = s.idle := (idle_of_offHanks (offHanks_releaseColl ..)).trans (idle_of_offBuf (offBuf_stopSending ..))
    have hu : u.idle = s.idle := by
      unfold u
      split
      · split
        · exact (idle_rubFailed ..).trans ht
        · exact ht
      · exact ht
    have hx : x.idle = s.idle := by
      unfold x
      split
      · exact (idle_of_offBuf (offBuf_sendErrors ..)).trans hu
      · exact hu
    split
    · exact hx
    · exact (idle_of_offBuf (offBuf_sendUp ..)).trans hx

theorem idle_finishSlice (no : Nat) (c : Coll) (sl : Nat) (x : Slice) : (s.finishSlice no c sl x).idle = s.idle := by
  unfold State.finishSlice
  split
  · rfl
  · extract_lets h r vs c1 all c2 s1 s2 x1 x2 rr s3 rf e gs x3 s4
    have h2 : s2.idle = s.idle := (idle_chargeNodes ..).trans (idle_collStats ..)
    have h3 : s3.idle = s.idle := (idle_collStats ..).trans h2
    have h4 : s4.idle = s.idle := (idle_sendResults ..).trans h3
    split
    · exact (idle_of_offBuf (offBuf_sendUp ..)).trans h2
    · split
      · exact (idle_sliceReady ..).trans h3
      · split
        · exact (idle_completeColl ..).trans ((idle_of_offBuf (offBuf_sendDone ..)).trans h4)
        · exact h4

theorem idle_flowSlice (no seq sl : Nat) : (s.flowSlice no seq sl).idle = s.idle := by
  unfold State.flowSlice
  split
  · rfl
  · split
    · rfl
    · split
      · rfl
      · split
        · exact idle_failColl ..
        · extract_lets step r x c t ready u
          have hstep : ∀ a d, (step a d).1.idle = a.1.idle := by
            intro a d
            unfold step
            extract_lets y p q
            split
            · rfl
            · have hp : p.1.idle = a.1.idle := idle_absorb ..
              show q.1.idle = _
              unfold q
              split
              · exact (idle_collStats ..).trans hp
              · exact (idle_sendNodes ..).trans hp
          have ht : t.idle = s.idle := (idle_withGroup ..).trans (foldl_view (fun a => a.1.idle) hstep _ (s, _, []))
          split
          · exact (idle_finishSlice ..).trans ((idle_absorb ..).trans ht)
          · exact ht

theorem idle_flowGroup (no : Nat) : (s.flowGroup no).idle = s.idle := by
  unfold State.flowGroup
  split
  · rfl
  · exact foldl_view State.idle (fun s _ => foldl_view State.idle (fun _ _ => idle_flowSlice ..) _ s) _ s

theorem idle_abortGroup (no : Nat) (g : Group) : (s.abortGroup no g).idle = s.idle :=
  foldl_view State.idle (fun _ _ => idle_failColl ..) _ s

theorem idle_setAccts {α : Type} (a : State → α → Nat) (f : State → α → Acct) (l : List α) :
    (l.foldl (fun s x => s.setAcct (a s x) (f s x)) s).idle = s.idle :=
  foldl_view State.idle (f := fun s x => s.setAcct (a s x) (f s x)) (fun _ _ => rfl) l s

theorem idle_giveBack (no : Nat) (g : Group) : (s.giveBack no g).idle = s.idle := by
  unfold State.giveBack State.reserveGroup
  extract_lets mine t
  have ht : t.idle = s.idle := idle_setAccts ..
  exact (idle_setAccts ..).trans ((idle_setFrames ..).trans ht)

theorem idle_killGroups (d : Nat) : (s.killGroups d).idle = s.idle :=
  foldl_view State.idle (fun _ _ => (idle_withGroup ..).trans ((idle_giveBack ..).trans (idle_abortGroup ..))) _ s

theorem idle_failSlots (d : Nat) : (s.failSlots d).idle = s.idle :=
  foldl_view State.idle
    (fun s _ => (idle_flowGroup ..).trans (foldl_view State.idle (fun _ _ => idle_failColl ..) _ s)) _ s

/-! ### Links and ports -/

theorem idle_linkTo (lk : Nat) (st : LinkState) : (s.linkTo lk st).idle = s.idle := by
  unfold State.linkTo
  extract_lets t
  split
  · rfl
  · exact idle_irqAll ..

theorem idle_logDisagree (lk : Nat) (old new : BitVec 4) (p m : Bool) (fw : Nat) :
    (s.logDisagree lk old new p m fw).idle = s.idle := by
  refine foldl_view State.idle (fun s r => ?_) _ s
  split <;> rfl

theorem idle_reparented : s.reparented.idle = s.idle := by
  have h : s.reparent.idle = s.idle := by
    unfold State.reparent
    split <;> rfl
  obtain ⟨x, hx⟩ := noteTime_frame s.reparent s.time.state s.stratum
  exact (congrArg State.idle hx).trans h

theorem idle_dropEarmarks (lk : Nat) : (s.dropEarmarks lk).idle = s.idle := idle_setAccts ..

theorem idle_leave (lk : Nat) (st : LinkState) : (s.leave lk st).idle = s.idle := by
  unfold State.leave
  extract_lets l t u v b w
  have ht : t.idle = s.idle := by
    unfold t
    split
    · exact idle_finish ..
    · rfl
  have hu : u.idle = s.idle := (idle_bumpBy ..).trans ((idle_dropEarmarks ..).trans ht)
  have hv : v.idle = s.idle := (idle_logDisagree ..).trans hu
  have hw : w.idle = s.idle := by
    unfold w
    split
    · exact (idle_setBuf ..).trans hv
    · exact hv
  exact (idle_reparented ..).trans ((idle_linkTo ..).trans ((idle_setLink ..).trans hw))

theorem idle_resetLink (lk : Nat) : (s.resetLink lk).idle = s.idle := by
  unfold State.resetLink
  extract_lets t l
  exact (idle_setLink ..).trans (idle_leave ..)

theorem idle_resetTraffic (p : Nat) : (s.resetTraffic p).idle = s.idle := rfl

theorem idle_resetDieTokens (d : Nat) : (s.resetDieTokens d).idle = s.idle := rfl

theorem idle_dropTokens (gone : QFrame → Bool) : (s.dropTokens gone).idle = s.idle :=
  foldl_view State.idle (fun s _ => foldl_view State.idle (fun _ _ => idle_freeFrame ..) _ s) _ (s.setExp _)

theorem idle_resetPort (p : Nat) : (s.resetPort p).idle = s.idle := by
  unfold State.resetPort
  extract_lets t u v
  have hu : u.idle = s.idle := (idle_dropTokens ..).trans (idle_failSlots ..)
  have hv : v.idle = s.idle := (foldl_view State.idle (fun _ _ => idle_consume ..) _ u).trans hu
  exact (idle_resetTraffic ..).trans ((foldl_view State.idle (fun _ _ => idle_resetLink ..) _ v).trans hv)

theorem idle_endDieStreams (die : Nat) : (s.endDieStreams die).idle = s.idle := by
  unfold State.endDieStreams
  extract_lets mine held t x u v
  have ht : t.idle = s.idle := by
    refine foldl_view State.idle (fun s p => ?_) _ s
    split
    · rfl
    · exact idle_freeFrame ..
  have hv : v.idle = s.idle := (idle_dropAskers ..).trans ((idle_setLad ..).trans ht)
  refine (foldl_view State.idle (fun s e => ?_) _ v).trans hv
  split
  · exact idle_finish ..
  · rfl

theorem idle_emptyPool (d : Nat) : (s.emptyPool d).idle = s.idle := by
  unfold State.emptyPool
  extract_lets t gone rest u v x w
  have hu : u.idle = s.idle := (idle_setFrames ..).trans (idle_setColl ..)
  have hv : v.idle = u.idle := by
    refine foldl_view State.idle (fun s c => ?_) _ u
    split
    · rfl
    · exact idle_of_offBuf (offBuf_freeChain ..)
  exact (idle_setBuf ..).trans (hv.trans hu)

theorem idle_resetDie (d : Nat) : (s.resetDie d).idle = s.idle := by
  unfold State.resetDie
  extract_lets t ports u
  have ht : t.idle = s.idle := (idle_emptyPool ..).trans ((idle_resetDieTokens ..).trans (idle_endDieStreams ..))
  have hu : u.idle = s.idle :=
    (foldl_view State.idle (fun s _ =>
      (idle_resetTraffic ..).trans (foldl_view State.idle (fun _ _ => idle_resetLink ..) _ s)) _ t).trans ht
  exact (idle_killGroups ..).trans hu

/-! ### Experts (11 R350) -/

theorem idle_returnTok (k u : Nat) (t : Tok) (st : Status) : (s.returnTok k u t st).idle = s.idle := by
  have h (a : State) (rel : List Chain) (f : Frame) : (a.sendSkeinWith k rel f).idle = a.idle := by
    unfold State.sendSkeinWith
    extract_lets g first b
    have hb : b.idle = a.idle := idle_of_offBuf (offBuf_countStamp ..)
    split
    · exact (idle_of_offBuf (offBuf_enterUnit ..)).trans hb
    · exact (idle_of_offBuf (offBuf_place _ _ _ (fun _ _ _ => offBuf_enterUnit ..))).trans hb
  exact h ..

theorem idle_returnAll (k u : Nat) (ts : List Tok) (st : Status) : (s.returnAll k u ts st).idle = s.idle :=
  foldl_view State.idle (fun _ _ => idle_returnTok ..) _ s

theorem idle_setExpert (id : Nat) (x : Expert) : (s.setExpert id x).idle = s.idle := rfl

theorem idle_setPat (x : PatSt) : (s.setPat x).idle = s.idle := rfl

theorem idle_setRep (id r : Nat) (p : Replica) : (s.setRep id r p).idle = s.idle := by
  unfold State.setRep
  split <;> rfl

theorem idle_unreserve (key : Nat) (l : List (Nat × Nat)) : (s.unreserve key l).idle = s.idle := by
  refine foldl_view State.idle (fun s p => ?_) l s
  extract_lets x
  split
  · exact idle_setSlot ..
  · rfl

theorem idle_dropTiles (id : Nat) : (s.dropTiles id).idle = s.idle := by
  unfold State.dropTiles
  split
  · rfl
  · split
    · rfl
    · extract_lets idleToks keep ts ks t u
      have hu : u.idle = s.idle := (foldl_view State.idle (fun _ _ => idle_dropWork ..) _ t).trans (idle_setExpert ..)
      exact (idle_returnAll ..).trans hu

theorem idle_suspendRep (id r : Nat) (st : Status) (f : Option FaultRec) : (s.suspendRep id r st f).idle = s.idle := by
  unfold State.suspendRep
  split
  · rfl
  · split
    · rfl
    · extract_lets t u
      have hu : u.idle = s.idle := rfl
      exact (idle_dropTiles ..).trans hu

theorem idle_passGrad (id : Nat) : (s.passGrad id).idle = s.idle := by
  unfold State.passGrad
  split
  · rfl
  · split
    · rfl
    · extract_lets t u
      have ht : t.idle = s.idle := by
        unfold t
        split
        · split
          · rfl
          · refine foldl_view State.idle (fun a i => ?_) _ s
            extract_lets r u
            refine (idle_sliceReady ..).trans ?_
            clear_value u
            cases u <;> rfl
        · rfl
      have hu : u.idle = s.idle := (idle_setExpert ..).trans ht
      exact (foldl_view State.idle (fun _ _ => idle_finish ..) _ u).trans hu

theorem idle_finishDrop (id r : Nat) : (s.finishDrop id r).idle = s.idle := by
  unfold State.finishDrop
  split
  · rfl
  · split
    · rfl
    · split
      · rfl
      · extract_lets back own rest heir x t u v
        have hu : u.idle = s.idle := (idle_dropWork ..).trans ((idle_unreserve ..).trans (idle_setExpert ..))
        have hv : v.idle = s.idle := by
          unfold v
          split
          · exact (idle_returnAll ..).trans hu
          · exact hu
        exact (idle_passGrad ..).trans ((idle_finish ..).trans ((idle_dropTiles ..).trans hv))

theorem idle_resetExperts (k : Nat) : (s.resetExperts k).idle = s.idle := by
  unfold State.resetExperts
  extract_lets hit area
  refine foldl_view State.idle (fun s id => ?_) hit s
  split
  · rfl
  · extract_lets ts base t
    have ht : t.idle = s.idle := by
      unfold t
      split
      · rfl
      · exact (idle_bumpBy ..).trans ((idle_returnAll ..).trans (idle_setExpert ..))
    refine (foldl_view State.idle (fun s r => ?_) _ t).trans ht
    split
    · rfl
    · extract_lets f a pats b c d
      have hb : b.idle = s.idle := (idle_setPat ..).trans (idle_returnAll ..)
      have hd : d.idle = s.idle := (idle_dropWork ..).trans ((idle_setRep ..).trans hb)
      exact (idle_passGrad ..).trans ((idle_finishDrop ..).trans ((idle_suspendRep ..).trans hd))

/-! ### Shards and streams (13 R395; 14 R414) -/

theorem idle_endSkeinShards (k : Nat) : (s.endSkeinShards k).idle = s.idle := by
  unfold State.endSkeinShards
  extract_lets gone t u
  have ht : t.idle = s.idle := foldl_view State.idle (fun _ _ => idle_endShard ..) _ s
  have hu : u.idle = s.idle := by
    refine (foldl_view State.idle (fun s g => ?_) _ t).trans ht
    split
    · split
      · exact (idle_withGroup ..).trans ((idle_flowGroup ..).trans (foldl_view State.idle (fun _ _ => idle_failColl ..) _ s))
      · rfl
    · rfl
  exact hu

theorem idle_store (key : Nat) (bs : List Byte) : (s.store key bs).1.idle = s.idle := by
  unfold State.store
  extract_lets n part old t u
  split
  · exact idle_of_tables (tables_write ..)
  · have ht : t.idle = s.idle := idle_of_tables (tables_write ..)
    have hu : u.idle = s.idle := (foldl_view State.idle (fun _ _ => idle_setMem ..) _ t).trans ht
    exact (foldl_view State.idle (fun _ _ => idle_of_tables (tables_logUe ..)) _ u).trans hu

theorem idle_writeHeader (x : Stream) (b : LBuf) : (s.writeHeader x b).idle = s.idle := by
  unfold State.writeHeader
  extract_lets die a
  split
  · exact foldl_view State.idle (fun _ _ => idle_request ..) _ s
  · split
    · rfl
    · exact idle_store ..

theorem idle_endBatch (slot : Nat) (b : LBuf) : (s.endBatch slot b).idle = s.idle := by
  unfold State.endBatch
  split
  · rfl
  · extract_lets die lad t u x src v
    have hu : u.idle = s.idle := (idle_bumpBy ..).trans ((idle_bumpBy ..).trans ((idle_bump ..).trans (idle_writeHeader ..)))
    split
    · have hv : v.idle = s.idle := hu
      split
      · exact (idle_finish ..).trans hv
      · exact hv
    · exact hu

theorem idle_endStream (k : Nat) (st : Status) : (s.endStream k st).1.idle = s.idle := by
  unfold State.endStream
  split
  · rfl
  · extract_lets mine lad t u v src w
    have hu : u.idle = s.idle :=
      (foldl_view State.idle (fun s _ => foldl_view State.idle (fun _ _ => (idle_bump ..).trans (idle_freeFrame ..)) _ s) _ t).trans
        (idle_setLad ..)
    have hv : v.idle = s.idle := by
      refine (foldl_view State.idle (fun s i => ?_) _ u).trans hu
      split
      · split
        · exact (idle_endBatch ..).trans (idle_dropAskers ..)
        · rfl
      · rfl
    have hw : w.idle = s.idle := (idle_setLad ..).trans hv
    split
    · exact (idle_finish ..).trans hw
    · exact hw

theorem idle_endSkeinStreams (k : Nat) : (s.endSkeinStreams k).idle = s.idle :=
  foldl_view State.idle (fun _ _ => (idle_ladLog ..).trans (idle_endStream ..)) _ s

/-! ### Stitches -/

theorem idle_freeCheck (c : Check) : (s.freeCheck c).idle = s.idle := rfl

theorem idle_lostWitness (st : Nat) : (s.lostWitness st).idle = s.idle :=
  foldl_view State.idle (fun _ _ => (idle_sentSkip ..).trans (idle_freeCheck ..)) _ s

theorem idle_endLaunch (key : Nat) : (s.endLaunch key).idle = s.idle := idle_of_tables (tables_endLaunch ..)

/-- Muting the operations of a launch leaves as many. -/
theorem Stitch.isEmpty_ops_mute (t : Stitch) (key e : Nat) : ((t.mute key).ops e).isEmpty = (t.ops e).isEmpty := by
  unfold Stitch.mute Stitch.ops tabGet
  extract_lets f
  rw [tabGet?_tabMap]
  cases tabGet? t.eng e with
  | none => rfl
  | some l => exact List.isEmpty_map ..

theorem idle_atTile (st : Nat) : (s.atTile st).idle = s.idle := idle_setTile (fun _ => rfl)

theorem idle_stopSlot (st i : Nat) (status : Status) (tag pc : Nat) (ex : Bool) (stamp : Nat) :
    (s.stopSlot st i status tag pc ex stamp).idle = s.idle :=
  (idle_of_tables (tables_stopSlot ..)).trans ((idle_atTile ..).trans (idle_setSlot ..))

theorem idle_stopRunning (key : Nat) (p : Nat × Nat) (status : Status) : (s.stopRunning key p status).idle = s.idle := by
  unfold State.stopRunning
  extract_lets x t
  have ht : t.idle = s.idle := idle_setTile (fun e => Stitch.isEmpty_ops_mute ..)
  split
  · exact (idle_stopSlot ..).trans ht
  · exact ht

theorem idle_endSlots (st : Nat) (status : Status) : (s.endSlots st status).idle = s.idle := by
  unfold State.endSlots
  extract_lets used t
  have ht : t.idle = s.idle := foldl_view State.idle (fun _ _ => idle_stopRunning ..) _ s
  exact (foldl_view State.idle (fun _ _ => idle_endLaunch ..) _ t).trans ht

theorem idle_feedSwatch (k : Nat) : (s.feedSwatch k).idle = s.idle := by
  unfold State.feedSwatch
  extract_lets d
  split
  · rfl
  · split
    · rfl
    · split
      · exact idle_queueS ..
      · rfl

end

/-! ### Resets empty engines and fill none -/

section
variable {s : State} {st e : Nat} (h : s.idle st e = true)
include h

theorem idle_clearStitch (k : Nat) (f : Stitch → Stitch) : (s.clearStitch k f).idle st e = true := by
  unfold State.clearStitch
  extract_lets keys t x kept base u v
  have ht : t.idle st e = true := (congrFun₂ (idle_endSlots ..) st e).trans h
  have hu : u.idle st e = true := by
    by_cases hk : st = k
    · subst hk
      exact idle_eq_true.mpr (congrArg (fun x : Stitch => x.ops e) (tile_setTile_self ..))
    · exact (congrArg (fun x : Stitch => (x.ops e).isEmpty) (tile_setTile_ne _ _ hk)).trans ht
  have hv : v.idle = u.idle := idle_dropAskers ..
  exact (congrFun₂ ((foldl_view State.idle (fun _ _ => idle_endLaunch ..) _ _).trans ((idle_lostWitness ..).trans hv)) st e).trans hu

theorem idle_resetSkein (k : Nat) : (s.resetSkein k).idle st e = true := by
  unfold State.resetSkein
  extract_lets t lost u away v w sts x mine y z q
  have ht : t.idle = s.idle := (idle_endSkeinStreams ..).trans ((idle_endSkeinShards ..).trans (idle_resetExperts ..))
  have hu : u.idle = s.idle := (foldl_view State.idle (fun _ _ => (idle_consume ..).trans (idle_bump ..)) _ t).trans ht
  have hv : v.idle = s.idle := (idle_dropTokens ..).trans ((foldl_view State.idle (fun _ _ => idle_bump ..) _ u).trans hu)
  have hw : w.idle = s.idle := (foldl_view State.idle (fun _ _ => idle_freeCheck ..) _ v).trans hv
  have hx : x.idle st e = true :=
    List.foldlRecOn (motive := fun a : State => a.idle st e = true) sts _ ((congrFun₂ hw st e).trans h)
      (fun _ ha _ _ => idle_clearStitch ha ..)
  clear_value x
  have hq : q.idle = x.idle := rfl
  exact (congrFun₂ ((idle_feedSwatch ..).trans ((idle_setDealer ..).trans hq)) st e).trans hx

omit h in
theorem idle_coldReset : s.coldReset.idle st e = true := rfl

omit h in
theorem idle_warmReset (source : Nat) : (s.warmReset source).idle st e = true := rfl

theorem idle_beginReset (j : ResetJob) : (s.beginReset j).idle st e = true := by
  unfold State.beginReset
  split
  · exact idle_coldReset
  · exact idle_warmReset ..
  · extract_lets t under inner base jobs u
    have ht : t.idle = s.idle := by
      unfold t
      split
      · exact idle_logFlush ..
      · rfl
    have hu : u.idle st e = true :=
      (congrFun₂ ((foldl_view State.idle (fun _ _ => idle_absorbReset ..) _ _).trans ((idle_setBoot ..).trans ht)) st e).trans h
    split
    · exact (congrFun₂ ((idle_absorbReset ..).trans ht) st e).trans h
    · split
      · exact idle_resetSkein hu ..
      · exact (congrFun₂ (idle_resetPort ..) st e).trans hu
      · exact (congrFun₂ (idle_resetDie ..) st e).trans hu
      · exact idle_clearStitch hu ..
      · exact hu

/-- The resets of errors that are due leave an engine without operations as it is. -/
theorem idle_settle : s.settle.idle st e = true := by
  unfold State.settle
  extract_lets due
  split
  · exact h
  · split
    · exact idle_beginReset ((congrFun₂ (idle_setBoot ..) st e).trans h) _
    · exact List.foldlRecOn (motive := fun a : State => a.idle st e = true) due _
        ((congrFun₂ (idle_setBoot ..) st e).trans h) (fun _ ha _ _ => idle_beginReset ha ..)

end

end Sys2Proof.Machine
end

section
/-! PROOF. A PREDICT that is done waits for its turn (12 R364): OPERATION_COMPLETE then completes nothing. -/

namespace Sys2Proof.Machine

open Sys2Proof

/-- A PREDICT that the predictor has begun at a pip. -/
def begunPredict (began : Nat) (done : Bool) : Op :=
  { id := 0, slot := 0, owner := 0, c := { w := BitVec.ofNat 256 (2 ^ 236 + 2 ^ 124 + 2 ^ 113), pc := 0 }, begun := true, done := done,
    began := began }

/-- Stitch 0 has a PREDICT that is done, and Stitch 1 of the same Skein one that began before it. -/
def twoPredicts : State :=
  State.reset.setTiles [(0, { eng := [(0, [begunPredict 10 true])] }), (1, { eng := [(0, [begunPredict 5 false])] })]

theorem ops_twoPredicts : (twoPredicts.tile 0).ops 0 = [begunPredict 10 true] := rfl

theorem completing_twoPredicts : twoPredicts.completing 0 0 = [] := by decide

theorem settle_twoPredicts : twoPredicts.settle = twoPredicts := settle_none (fun _ h => (List.not_mem_nil h).elim)

/-- An engine with nothing to complete stays as it is. -/
theorem exec_operationComplete_none {st e : Nat} {s : State} (h : s.completing st e = []) :
    exec (.operationComplete st e) s = .next s.settle := by
  show settled (rowOperationComplete st e s) = _
  unfold rowOperationComplete
  rw [h]
  rfl

/-- Refutes O28: the completed PREDICT of `twoPredicts` stays in its engine, since one of another Stitch of its Skein began before it
(R364); and no state whose engine is empty gives that state when due resets begin, since resets start no operation (`idle_settle`). -/
theorem not_operationsAndCache : ¬ Obligations.OperationsAndCache := by
  unfold Obligations.OperationsAndCache
  rintro ⟨hcomplete, -⟩
  obtain ⟨u, hu, hops, -⟩ :=
    hcomplete 0 0 twoPredicts (begunPredict 10 true) (by decide) ops_twoPredicts rfl rfl rfl rfl rfl
  rw [exec_operationComplete_none completing_twoPredicts, settle_twoPredicts, Host.Outcome.next.injEq] at hu
  have hidle : twoPredicts.idle 0 0 = true := hu ▸ idle_settle (idle_eq_true.mpr hops)
  exact List.cons_ne_nil _ _ (ops_twoPredicts.symm.trans (idle_eq_true.mp hidle))

end Sys2Proof.Machine
end

section
/-! SUPPORT. The directory while its experts change, frames are sent, and tokens are read for a copy (11 R326, R334, R343). -/

namespace Sys2Proof.Machine

open Sys2Proof

/-! ### Hosted experts -/

theorem tabPut_tabPut {α : Type} (t : Tab α) (x : Nat) (v w : α) : tabPut (tabPut t x v) x w = tabPut t x w := by
  induction t with
  | nil => simp [tabPut]
  | cons e r ih =>
    obtain ⟨k, u⟩ := e
    rcases Nat.lt_trichotomy x k with h | rfl | h
    · simp [tabPut, h]
    · simp [tabPut]
    · simp [tabPut, Nat.not_lt.mpr h.le, h.ne', ih]

section
variable {s t : State} {id : Nat} {x : Expert}

/-- What leaves the directory leaves its experts. -/
theorem expert?_of_exp (h : t.exp = s.exp) (id : Nat) : t.expert? id = s.expert? id := by
  unfold State.expert?
  rw [h]

theorem expert?_of_hosted (h : s.lookupExpert id = .hosted x) : s.expert? id = some x := by
  unfold State.lookupExpert at h
  unfold State.expert?
  split at h
  · next hx => rw [hx, Found.hosted.inj h]
  · contradiction
  · split at h <;> contradiction

end

section
variable (s : State) (id : Nat) (x y : Expert)

@[simp] theorem expert?_setExpert_self : (s.setExpert id x).expert? id = some x := by
  simp [State.expert?, State.setExpert]

theorem setExpert_setExpert : (s.setExpert id x).setExpert id y = s.setExpert id y := by
  unfold State.setExpert
  rw [setExp_exp, tabPut_tabPut]
  rfl

@[simp] theorem expert?_bump (f : Fam) (u i : Nat) : (s.bump f u i).expert? id = s.expert? id := rfl

@[simp] theorem exp_write (key : Nat) (bs : List Byte) : (s.write key bs).exp = s.exp := by rw [State.write_frame]; rfl

@[simp] theorem exp_charge (x c cycles sum : Nat) : (s.charge x c cycles sum).exp = s.exp := rfl

end

/-! ### Frames that enter and leave queues -/

theorem exp_of_offHanks {s t : State} (h : t.offHanks = s.offHanks) : t.exp = s.exp := (congrArg State.exp h :)

section
variable (s : State)

@[simp] theorem exp_freeFrame (q : QFrame) : (s.freeFrame q).exp = s.exp := exp_of_offHanks (offHanks_freeFrame ..)

@[simp] theorem exp_freeChains (l : List Chain) : (l.foldl State.freeChain s).exp = s.exp := exp_of_offHanks (offHanks_freeChains ..)

@[simp] theorem exp_setFrames (fs : List QFrame) : (s.setFrames fs).exp = s.exp := (congrArg State.exp (offTags_setFrames s fs) :)

@[simp] theorem exp_dropQueued (q : QFrame) : (s.dropQueued q).exp = s.exp := exp_setFrames ..

@[simp] theorem exp_consume (q : QFrame) : (s.consume q).exp = s.exp := (exp_freeFrame ..).trans (exp_dropQueued ..)

@[simp] theorem exp_routeDiscard (die ing cause : Nat) (f : Frame) : (s.routeDiscard die ing cause f).exp = s.exp := by
  unfold State.routeDiscard
  extract_lets
  split <;> rfl

@[simp] theorem exp_countStamp (die : Nat) (f g : Frame) : (s.countStamp die f g).exp = s.exp := by
  unfold State.countStamp
  split <;> rfl

/-- A frame that is placed changes what its entry does. -/
theorem exp_place (q : QFrame) (r : Routed) {enter : State → QFrame → Option ReplJob → State}
    (he : ∀ s q job, (enter s q job).exp = s.exp) : (s.place q r enter).exp = s.exp := by
  unfold State.place
  split
  · extract_lets t
    rw [he]
    unfold t
    split <;> rfl
  · split
    · rfl
    · exact he ..
  · exact (exp_routeDiscard ..).trans (exp_freeChains ..)
  · exact exp_freeChains ..

@[simp] theorem exp_enqueue (q : QFrame) : (s.enqueue q).exp = s.exp := by
  unfold State.enqueue
  extract_lets r _ t u
  have hu : u.exp = s.exp := (exp_of_offHanks ((offHanks_freshHanks ..).trans (offHanks_noteTorn ..))).trans (exp_setFrames t _)
  split
  · exact hu
  · exact hu

@[simp] theorem exp_enqueueUnit (q : QFrame) (job : Option ReplJob) : (s.enqueueUnit q job).exp = s.exp := by
  unfold State.enqueueUnit State.postJob
  split
  · exact exp_enqueue ..
  · exact exp_enqueue ..

@[simp] theorem exp_letIn (w : WaitFrame) : (s.letIn w).exp = s.exp := by
  unfold State.letIn
  extract_lets t f _ q u
  split
  · exact exp_enqueueUnit ..
  · exact (exp_enqueueUnit ..).trans (exp_countStamp ..)
  · split
    · exact (exp_enqueueUnit ..).trans (exp_countStamp ..)
    · exact (exp_place _ _ _ exp_enqueueUnit).trans (exp_countStamp ..)

@[simp] theorem exp_enterUnit (w : WaitFrame) : (s.enterUnit w).exp = s.exp := by
  unfold State.enterUnit
  split
  · exact exp_letIn ..
  · rfl

@[simp] theorem exp_sendSkeinWith (k : Nat) (rel : List Chain) (f : Frame) : (s.sendSkeinWith k rel f).exp = s.exp := by
  unfold State.sendSkeinWith
  extract_lets g first t
  have ht : t.exp = s.exp := exp_countStamp ..
  split
  · exact (exp_enterUnit ..).trans ht
  · exact (exp_place _ _ _ (fun _ _ _ => exp_enterUnit ..)).trans ht

/-- A token that is returned leaves the directory as it is. -/
@[simp] theorem exp_returnTok (k u : Nat) (t : Tok) (st : Status) : (s.returnTok k u t st).exp = s.exp := exp_sendSkeinWith ..

end

/-! ### Tokens read for a copy -/

section
variable (s : State)

@[simp] theorem exp_logFrameUe (q : QFrame) : (s.logFrameUe q).exp = s.exp := by
  unfold State.logFrameUe
  split <;> rfl

@[simp] theorem exp_moveBack (q : QFrame) : (s.moveBack q).2.exp = s.exp := by
  unfold State.moveBack
  extract_lets t r _ u x v w
  show w.exp = s.exp
  calc w.exp = v.exp := exp_charge ..
    _ = u.exp := rfl
    _ = t.exp := exp_of_offHanks ((offHanks_freshHanks ..).trans (offHanks_noteTorn ..))
    _ = s.exp := exp_of_offHanks (offHanks_freeChain ..)

end

theorem exp_readFrames {qs : List QFrame} {s : State} {a : State × List QFrame × Bool} (h : readFrames qs s = some a) :
    a.1.exp = s.exp := by
  induction qs generalizing s a with
  | nil =>
    obtain rfl := Option.some.inj h
    rfl
  | cons q r ih =>
    unfold readFrames at h
    split at h
    · obtain rfl := Option.some.inj h
      exact exp_logFrameUe ..
    · split at h
      · obtain ⟨b, hb, rfl⟩ := Option.map_eq_some_iff.mp h
        exact (ih hb :)
      · split at h
        · contradiction
        · split at h
          · obtain rfl := Option.some.inj h
            rfl
          · obtain ⟨b, hb, rfl⟩ := Option.map_eq_some_iff.mp h
            exact (ih hb).trans (exp_moveBack ..)

theorem exp_takeTok {s : State} {k : Tok} {a : State × Bool} (h : s.takeTok k = some a) : a.1.exp = s.exp := by
  obtain ⟨b, hb, rfl⟩ := Option.map_eq_some_iff.mp h
  exact (foldl_view State.exp exp_freeFrame _ _).trans (exp_readFrames hb)

theorem exp_takeToks {ts : List Tok} {s : State} {a : State × List Tok} (h : takeToks ts s = some a) : a.1.exp = s.exp := by
  induction ts generalizing s a with
  | nil =>
    obtain rfl := Option.some.inj h
    rfl
  | cons k r ih =>
    unfold takeToks at h
    split at h
    · contradiction
    · next hk =>
      obtain ⟨b, hb, rfl⟩ := Option.map_eq_some_iff.mp h
      exact (ih hb).trans (exp_takeTok hk)

end Sys2Proof.Machine
end

section
/-! PROOF. TOKEN and TOKEN_RES frames at the directory, and ASM_LIMIT_EXPIRY (11 R327, R328, R332 to R334). -/

namespace Sys2Proof.Machine

open Sys2Proof

section
variable {s : State} {q : QFrame}

theorem exec_token {ing : Nat} (h : s.localHead ing 5 6 = some q) : exec (.token ing) s = .next (s.tokenIn q) := by
  show execToken ing s = _
  unfold execToken
  rw [h]

/-! ### Frames of no open token -/

/-- A frame of no open token opens one, or is discarded. -/
theorem tokenIn_of_noToken (h : s.exp.toks.find? (fun x => x.keyOf q) = none) :
    s.tokenIn q = if q.f.segOff = 0 then s.openTok q else s.discardTok q := by
  have hlate : s.exp.toks.find? (fun x => x.keyOf q && decide (s.asmEnd x ≤ q.stamp)) = none := by
    rw [List.find?_eq_none] at h ⊢
    exact fun x hx hk => h x hx (Bool.and_eq_true_iff.mp hk).1
  unfold State.tokenIn
  rw [hlate]
  simp only [h]

theorem exp_discardTok (s : State) (q : QFrame) : (s.discardTok q).exp = s.exp := exp_consume s q

/-! ### First frames -/

/-- The token of a first frame that goes to an owner. -/
def forwardedTok (q : QFrame) (fid : Nat) : Tok := { tokOf q with fwd := some fid }

/-- A frame of a token that is forwarded goes on to the owner (R328). -/
theorem joinTok_forwarded {t : Tok} {owner : Nat} (h : t.fwd = some owner) : ∃ l, s.joinTok t q = (s.setToks l).forwardTok q owner := by
  unfold State.joinTok
  extract_lets next rest
  rw [h]
  exact ⟨_, rfl⟩

theorem openTok_full (h : 1024 ≤ (s.exp.toks.filter (fun x => x.die == q.die)).length) :
    s.openTok q = (s.dropQueued q).returnTok (dieReturn q.die) q.die { tokOf q with frames := [q] } .capacity :=
  if_pos h

section
variable (hroom : (s.exp.toks.filter (fun x => x.die == q.die)).length < 1024)
include hroom

theorem openTok_owner {fid : Nat} (hl : s.lookupExpert (tokOf q).expert = .owner fid) :
    ∃ u : State, s.openTok q = u.forwardTok q fid ∧ u.buf = s.buf ∧ u.route = s.route := by
  have hopen : s.openTok q = (((s.setToks (s.exp.toks ++ [forwardedTok q fid])).peak q.die ecOpen
      ((s.exp.toks.filter (fun x => x.die == q.die)).length + 1)).bump .exp q.die ecForward).joinTok (forwardedTok q fid) q := by
    unfold State.openTok
    extract_lets t fail n s1
    rw [if_neg (Nat.not_le.mpr hroom), hl]
    rfl
  obtain ⟨l, hjoin⟩ := joinTok_forwarded (s := ((s.setToks _).peak ..).bump ..) (q := q) (t := forwardedTok q fid) rfl
  refine ⟨_, hopen.trans hjoin, ?_, ?_⟩
  · simp only [State.setToks, State.bump, State.bumpBy, State.peak, setExp_buf, setCnt_buf]
  · simp only [State.setToks, State.bump, State.bumpBy, State.peak, setExp_route, setCnt_route]

theorem openTok_nobody (hl : s.lookupExpert (tokOf q).expert = .nobody) (hf : tokFrameBad q.f = false) :
    s.openTok q = (s.dropQueued q).returnTok (dieReturn q.die) q.die { tokOf q with frames := [q] } .badDesc := by
  unfold State.openTok
  extract_lets t fail n s1
  rw [if_neg (Nat.not_le.mpr hroom), hl]
  simp only [hf]
  rfl

theorem openTok_hosted {x : Expert} (hl : s.lookupExpert (tokOf q).expert = .hosted x) (hf : tokFrameBad q.f = false)
    (hr : x.refuses (tokOf q).hdr = false) :
    s.openTok q = ((s.setToks (s.exp.toks ++ [tokOf q])).peak q.die ecOpen
      ((s.exp.toks.filter (fun x => x.die == q.die)).length + 1)).joinTok (tokOf q) q := by
  unfold State.openTok
  extract_lets t fail n s1
  rw [if_neg (Nat.not_le.mpr hroom), hl]
  simp only [hf, show x.refuses t.hdr = false from hr]
  rfl

end

/-! ### Complete tokens -/

/-- A frame that ends a token the device keeps: its token is complete (R332, R333). -/
theorem joinTok_last {t : Tok} (hfwd : t.fwd = none) (hd : q.f.segOff + q.f.segElems = t.d) :
    s.joinTok t q = ((s.dropQueued q).setToks (s.exp.toks.filter (· ≠ t))).completeTok
      { t with next := t.d, stamp := q.stamp, frames := t.frames ++ [q] } := by
  unfold State.joinTok
  simp only [hfwd, hd]
  exact if_pos rfl

/-- A complete token whose frames pass the checks is noticed to its expert. -/
theorem completeTok_sound {t : Tok} {x : Expert} (hx : s.expert? t.expert = some x) (hf : ∀ q ∈ t.frames, tokFrameBad q.f = false)
    (hr : ∀ q ∈ t.frames, x.refuses (q.f.cells.take 64) = false) :
    s.completeTok t = (s.setExpert t.expert { x with notices := x.notices ++ [t] }).bump .exp 4 (ecNotice + t.pass) := by
  have hbad : t.frames.any (fun q => tokFrameBad q.f) = false := List.any_eq_false.mpr (fun q hq => by simp [hf q hq])
  have hrefused : t.frames.any (fun q => x.refuses (q.f.cells.take 64)) = false := List.any_eq_false.mpr (fun q hq => by simp [hr q hq])
  unfold State.completeTok
  simp only [hx, hbad, hrefused]
  rfl

/-- The token of a first frame that is its last too. -/
def wholeTok (q : QFrame) : Tok := { tokOf q with next := (tokOf q).d, frames := [q] }

theorem expert_wholeTok (q : QFrame) : (wholeTok q).expert = (tokOf q).expert := by
  unfold Tok.expert Tok.h wholeTok
  rfl

/-- A token of one frame that passes the checks joins the notices of its expert in its hanks (R333, R334). -/
theorem joinTok_whole {x : Expert} (hx : s.expert? (tokOf q).expert = some x) (hoff : q.f.segOff = 0) (hd : q.f.segElems = (tokOf q).d)
    (hf : tokFrameBad q.f = false) (hr : x.refuses (tokOf q).hdr = false) :
    (s.joinTok (tokOf q) q).expert? (tokOf q).expert = some { x with notices := x.notices ++ [wholeTok q] } ∧
      (s.joinTok (tokOf q) q).mem = s.mem := by
  have hjoin : s.joinTok (tokOf q) q = ((s.dropQueued q).setToks (s.exp.toks.filter (· ≠ tokOf q))).completeTok (wholeTok q) :=
    joinTok_last rfl (by omega)
  have hu : ((s.dropQueued q).setToks (s.exp.toks.filter (· ≠ tokOf q))).expert? (wholeTok q).expert = some x := by
    rw [expert_wholeTok, ← hx]
    exact expert?_of_exp (exp_dropQueued s q) _
  have hone {y : QFrame} (hy : y ∈ (wholeTok q).frames) : y = q := List.mem_singleton.mp hy
  rw [hjoin, completeTok_sound hu (fun y hy => hone hy ▸ hf) (fun y hy => hone hy ▸ hr), expert_wholeTok]
  refine ⟨(expert?_bump ..).trans (expert?_setExpert_self ..), ?_⟩
  calc _ = (s.dropQueued q).mem := by simp only [State.bump, State.bumpBy, State.setExpert, State.setToks, setCnt_mem, setExp_mem]
    _ = s.mem := mem_of_offBuf (offBuf_setFrames ..)

/-! ### Tokens that come late (R332) -/

theorem asmFail_kept {k : Tok} (h : k.fwd = none) :
    s.asmFail k = (s.setToks (s.exp.toks.filter (· ≠ k))).returnTok (dieReturn k.die) k.die k .timeout := by
  unfold State.asmFail
  simp only [h]
  rfl

theorem toks_asmFail (k : Tok) : (s.asmFail k).exp.toks = s.exp.toks.filter (· ≠ k) := by
  unfold State.asmFail
  extract_lets t
  split
  · rfl
  · exact congrArg ExpSt.toks (exp_returnTok ..)

/-- A frame stamped at the limit of its token, or later, belongs to no open token once that has failed. -/
theorem tokenIn_late {k : Tok} (hk : s.exp.toks.find? (fun x => x.keyOf q) = some k)
    (hrest : (s.exp.toks.filter (· ≠ k)).find? (fun x => x.keyOf q) = none) (ht : s.asmEnd k ≤ q.stamp) (hoff : q.f.segOff ≠ 0) :
    s.tokenIn q = (s.asmFail k).discardTok q := by
  have hlate : s.exp.toks.find? (fun x => x.keyOf q && decide (s.asmEnd x ≤ q.stamp)) = some k := by
    obtain ⟨hkey, as, bs, hl, has⟩ := List.find?_eq_some_iff_append.mp hk
    refine List.find?_eq_some_iff_append.mpr ⟨by simp [hkey, ht], as, bs, hl, fun x hx => ?_⟩
    simp [(Bool.not_eq_true' _).mp (has x hx)]
  unfold State.tokenIn
  rw [hlate]
  simp only [toks_asmFail, hrest, hoff]
  rfl

end

/-! ### ASM_LIMIT_EXPIRY (R332) -/

section
variable {s : State} {ing src ch pass : Nat} {k : Tok}
  (hk : s.exp.toks.find? (fun x => x.ing == ing && x.src == src && x.ch == ch && x.pass == pass) = some k)
include hk

theorem exec_asmLimitExpiry_early (h : s.time.pip < s.asmEnd k) : exec (.asmLimitExpiry ing src ch pass) s = .next s := by
  show execAsmLimitExpiry ing src ch pass s = _
  unfold execAsmLimitExpiry
  rw [hk]
  exact if_neg (fun h' => Nat.not_le.mpr h h'.1)

theorem exec_asmLimitExpiry_due (h : s.asmEnd k ≤ s.time.pip)
    (hwait : ∀ q ∈ s.buf.frames, q.dest = .directory → k.keyOf q = true → s.asmEnd k ≤ q.stamp) :
    exec (.asmLimitExpiry ing src ch pass) s = .next (s.asmFail k) := by
  show execAsmLimitExpiry ing src ch pass s = _
  have hnone : s.buf.frames.any (fun q => decide (q.dest = .directory) && k.keyOf q && decide (q.stamp < s.asmEnd k)) = false := by
    refine List.any_eq_false.mpr (fun q hq => ?_)
    simp only [Bool.and_eq_true, decide_eq_true_eq]
    exact fun ⟨⟨hd, hkey⟩, hlt⟩ => Nat.not_lt.mpr (hwait q hq hd hkey) hlt
  unfold execAsmLimitExpiry
  rw [hk]
  exact if_pos ⟨h, hnone⟩

end

/-! ### TOKEN_RES -/

theorem exec_tokenRes {ing : Nat} {s : State} {q : QFrame} (h : s.localHead ing 6 7 = some q) :
    exec (.tokenRes ing) s = .next ((s.consume q).bump .route q.die rcLate) := by
  show execTokenRes ing s = _
  unfold execTokenRes
  rw [h]

/-- Settles O33: what `tokenIn` makes of a frame of no open token (`openTok`, `discardTok`) and of one that comes late, and the limit of
assembly. -/
theorem tokenArrival : Obligations.TokenArrival := by
  unfold Obligations.TokenArrival
  refine ⟨fun ing s q hq hnone => ?_, fun ing s q hq => ?_, fun ing src ch pass s k hk => ⟨?_, ?_⟩, ?_⟩
  · have hrow : exec (.token ing) s = .next (if q.f.segOff = 0 then s.openTok q else s.discardTok q) :=
      (exec_token hq).trans (congrArg _ (tokenIn_of_noToken hnone))
    have hfirst (h : q.f.segOff = 0) : exec (.token ing) s = .next (s.openTok q) := hrow.trans (congrArg _ (if_pos h))
    refine ⟨fun hoff => ?_, fun hoff hfull => ?_, fun fid hoff hroom hl => ?_, fun hoff hroom hl hf => ?_,
      fun x hoff hroom hl hf hr hd => ?_⟩
    · exact ⟨s.discardTok q, hrow.trans (congrArg _ (if_neg hoff)), rfl, exp_discardTok s q⟩
    · exact (hfirst hoff).trans (congrArg _ (openTok_full hfull))
    · obtain ⟨u, hu, hbuf, hroute⟩ := openTok_owner hroom hl
      exact ⟨s.openTok q, u, hfirst hoff, hu, hbuf, hroute⟩
    · exact (hfirst hoff).trans (congrArg _ (openTok_nobody hroom hl hf))
    · have hopen := openTok_hosted hroom hl hf hr
      obtain ⟨hx, hmem⟩ := joinTok_whole (s := (s.setToks (s.exp.toks ++ [tokOf q])).peak q.die ecOpen _)
        (expert?_of_hosted hl) hoff hd hf hr
      exact ⟨_, _, wholeTok q, (hfirst hoff).trans (congrArg _ hopen), hx, rfl, rfl, rfl, rfl, hmem⟩
  · exact ⟨_, exec_tokenRes hq, rfl, exp_consume s q, mem_of_offBuf (offBuf_consume s q)⟩
  · exact exec_asmLimitExpiry_early hk
  · exact fun hdue hfwd hwait => (exec_asmLimitExpiry_due hk hdue hwait).trans (congrArg _ (asmFail_kept hfwd))
  · exact fun ing s q k hq hk hrest ht hoff => (exec_token hq).trans (congrArg _ (tokenIn_late hk hrest ht hoff))

end Sys2Proof.Machine
end

section
/-! PROOF. TOKEN_NOTICE by the rules of the controller, and TILE_WAIT_EXPIRY (11 R335, R336, R347, R348). -/

namespace Sys2Proof.Machine

open Sys2Proof

/-! ### The open tile of a pass -/

@[simp] theorem tile_setTile (x : Expert) (pass : Nat) (t : Option Tile) : (x.setTile pass t).tile pass = t := by
  unfold Expert.tile Expert.setTile
  split <;> rfl

@[simp] theorem reps_setTile (x : Expert) (pass : Nat) (t : Option Tile) : (x.setTile pass t).reps = x.reps := by
  unfold Expert.setTile
  split <;> rfl

@[simp] theorem closed_setTile (x : Expert) (pass : Nat) (t : Option Tile) : (x.setTile pass t).closed = x.closed := by
  unfold Expert.setTile
  split <;> rfl

/-- The tile in which a token takes its row: the open one of its pass, or one that it opens at its stamp (R336). -/
def Expert.rowTile (x : Expert) (k : Tok) : Tile := (x.tile k.pass).getD { t0 := k.stamp, toks := [] }

theorem rowTile_of_open {x : Expert} {k : Tok} {y : Tile} (h : x.tile k.pass = some y) : x.rowTile k = y := by
  simp [Expert.rowTile, h]

theorem rowTile_of_noTile {x : Expert} {k : Tok} (h : x.tile k.pass = none) : x.rowTile k = { t0 := k.stamp, toks := [] } := by
  simp [Expert.rowTile, h]

/-- A tile with a further row. -/
def Tile.add (o : Tile) (k : Tok) : Tile := { o with toks := o.toks ++ [k] }

@[simp] theorem length_add (o : Tile) (k : Tok) : (o.add k).toks.length = o.toks.length + 1 := List.length_append

/-- An expert whose open tile has taken a token. -/
def Expert.placed (x : Expert) (k : Tok) : Expert := x.setTile k.pass (some ((x.rowTile k).add k))

/-- An expert whose open tile has closed. -/
def Expert.tileClosed (x : Expert) (pass : Nat) (y : Tile) : Expert := { x with closed := x.closed ++ [(pass, y)] }.setTile pass none

section
variable {s : State} {id : Nat} {x : Expert} (hx : s.expert? id = some x)
include hx

/-- While a replica may take runs no tile is dropped (R340). -/
theorem dropTiles_active (ha : ∃ r ∈ x.reps, r.2.active = true) : s.dropTiles id = s := by
  unfold State.dropTiles
  simp only [hx]
  exact if_pos (List.any_eq_true.mpr ha)

theorem closeTile_active {pass : Nat} {y : Tile} (ht : x.tile pass = some y) (ha : ∃ r ∈ x.reps, r.2.active = true) :
    s.closeTile id pass = s.setExpert id (x.tileClosed pass y) := by
  unfold State.closeTile
  simp only [hx, ht]
  refine dropTiles_active (expert?_setExpert_self ..) ?_
  rwa [reps_setTile]

/-- A token stamped before the expiry of the open tile takes its next row; the 64th closes it (R336). -/
theorem placeTok_eq {k : Tok} (hopen : ∀ y, x.tile k.pass = some y → k.stamp < y.t0 + x.tileWait) :
    s.placeTok id k = if 64 ≤ ((x.rowTile k).add k).toks.length then (s.setExpert id (x.placed k)).closeTile id k.pass
      else s.setExpert id (x.placed k) := by
  unfold State.placeTok
  extract_lets t
  have ht : t = s := by
    unfold t
    simp only [hx]
    split
    · next y hy => exact if_neg (Nat.not_le.mpr (hopen y hy))
    · rfl
  rw [ht]
  simp only [hx]
  rfl

theorem placeTok_row {k : Tok} (hopen : ∀ y, x.tile k.pass = some y → k.stamp < y.t0 + x.tileWait)
    (hlen : (x.rowTile k).toks.length + 1 < 64) : s.placeTok id k = s.setExpert id (x.placed k) := by
  rw [placeTok_eq hx hopen]
  exact if_neg (by rw [length_add]; omega)

theorem placeTok_full {k : Tok} (hopen : ∀ y, x.tile k.pass = some y → k.stamp < y.t0 + x.tileWait)
    (hlen : (x.rowTile k).toks.length + 1 = 64) (ha : ∃ r ∈ x.reps, r.2.active = true) :
    s.placeTok id k = s.setExpert id ((x.placed k).tileClosed k.pass ((x.rowTile k).add k)) := by
  rw [placeTok_eq hx hopen, if_pos (by rw [length_add]; omega),
    closeTile_active (x := x.placed k) (expert?_setExpert_self ..) (tile_setTile ..) (by rwa [Expert.placed, reps_setTile]),
    setExpert_setExpert]

end

/-! ### What becomes of the first notice (R335) -/

/-- An expert whose notice has been taken. -/
def Expert.unnoticed (x : Expert) (k : Tok) : Expert := { x with notices := x.notices.erase k }

/-- An expert that has counted a forward token (R335). -/
def Expert.counted (x : Expert) (k : Tok) : Expert := { x with notices := x.notices.erase k, fwd := x.fwd + 1 }

/-- A token as it is staged: its payload stands in an entry of the stage region (R348). -/
def Tok.stagedIn (k : Tok) (e : Nat) : Tok := { k.copied with data := [], scales := [], entry := some e }

/-- An expert that has staged a backward token. -/
def Expert.withStaged (x : Expert) (k : Tok) : Expert :=
  { x with notices := x.notices.erase k, staged := x.staged ++ [k.stagedIn x.freeEntry] }

theorem hdr_copied (k : Tok) : k.copied.hdr = k.hdr := by
  unfold Tok.copied
  split <;> rfl

section
variable {s : State} {id : Nat} {x : Expert} {k : Tok}

theorem exec_tokenNotice (hx : s.expert? id = some x) (hk : firstNotice s.time.pip x.notices = some k) (hw : s.wayOpen x.home k = true)
    (hi : x.isKeyed = false ∨ k.pass = 0 ∨ s.mayIssue x.home clsExpert = true) :
    exec (.tokenNotice id) s = .next ((s.takeNotice id x k).getD s) := by
  show execTokenNotice id s = _
  have hheld : (x.isKeyed && k.pass == 1 && !s.mayIssue x.home clsExpert) = false := by
    rcases hi with h | h | h <;> simp [h]
  unfold execTokenNotice
  simp only [hx, hk, hw, hheld]
  rfl

theorem takeNotice_otherStep (hs : k.step ≠ x.wstep) :
    s.takeNotice id x k = some ((s.setExpert id (x.unnoticed k)).returnTok x.home 4 k .epoch) := if_pos hs

section
variable (hs : k.step = x.wstep)
include hs

theorem takeNotice_overCap (hp : k.pass = 0) (hc : x.cap ≤ x.fwd) :
    s.takeNotice id x k = some ((s.setExpert id (x.unnoticed k)).returnTok x.home 4 k .capacity) :=
  (if_neg (not_not_intro hs)).trans ((if_pos hp).trans (if_pos hc))

/-- A forward token within the cap is counted and takes a row. -/
theorem takeNotice_forward (hp : k.pass = 0) (hc : x.fwd < x.cap) :
    s.takeNotice id x k = some ((s.setExpert id (x.counted k)).placeTok id k) := by
  rw [← setExpert_setExpert s id (x.unnoticed k)]
  exact (if_neg (not_not_intro hs)).trans ((if_pos hp).trans (if_neg (Nat.not_le.mpr hc)))

section
variable (hp : k.pass = 1)
include hp

theorem takeNotice_closed (hg : x.grad ≠ 0) :
    s.takeNotice id x k = some ((s.setExpert id (x.unnoticed k)).returnTok x.home 4 k .late) :=
  (if_neg (not_not_intro hs)).trans ((if_neg (by omega)).trans (if_pos hg))

variable (hg : x.grad = 0) {n : Nat} (hn : x.firstBwd = some n)
include hg hn

theorem takeNotice_pastLimit (ht : n + x.bwdLimit ≤ k.stamp) :
    s.takeNotice id x k = some (((s.setExpert id (x.unnoticed k)).closeGrad id).returnTok x.home 4 k .late) := by
  have hlate : (x.firstBwd.any (fun f => decide (f + x.bwdLimit ≤ k.stamp))) = true := by simp [hn, ht]
  exact (if_neg (not_not_intro hs)).trans ((if_neg (by omega)).trans ((if_neg (not_not_intro hg)).trans (if_pos hlate)))

/-- A backward token of a keyed gradient that can be read is staged in the lowest free entry (R348). -/
theorem takeNotice_staged (ht : k.stamp < n + x.bwdLimit) (hkey : x.isKeyed = true) (hroom : x.stagedNum < x.stageTokens) {u : State}
    (hu : (s.setExpert id (x.unnoticed k)).takeTok k = some (u, true)) :
    ∃ t, s.takeNotice id x k = some t ∧
      t.expert? id = some (x.withStaged k) := by
  unfold State.takeNotice
  extract_lets x' s' ret x'' s''
  have hlate : ¬ (x'.firstBwd.any (fun f => decide (f + x'.bwdLimit ≤ k.stamp))) = true := by
    have hlt : ¬ n + x'.bwdLimit ≤ k.stamp := Nat.not_le.mpr ht
    simp [show x'.firstBwd = some n from hn, hlt]
  have hx'' : x'' = x.unnoticed k := by simp [x'', x', Expert.unnoticed, hn]
  have hs'' : s'' = s.setExpert id (x.unnoticed k) := by
    unfold s''
    rw [hx'']
    exact setExpert_setExpert ..
  have hkeyed : ¬ (!(x.unnoticed k).isKeyed) = true := by simp [show (x.unnoticed k).isKeyed = true from hkey]
  have hfree : ¬ (x.unnoticed k).stagedNum ≥ (x.unnoticed k).stageTokens := Nat.not_le.mpr hroom
  rw [if_neg (not_not_intro hs), if_neg (by omega), if_neg (not_not_intro hg), if_neg hlate, hs'', hx'', if_neg hkeyed,
    if_neg hfree, hu]
  exact ⟨_, rfl, expert?_setExpert_self ..⟩

end

end

end

/-! ### TILE_WAIT_EXPIRY (R336) -/

section
variable {s : State} {id pass : Nat} {x : Expert} {y : Tile} (hx : s.expert? id = some x) (ht : x.tile pass = some y)
include hx ht

theorem exec_tileWaitExpiry_early (h : s.time.pip < y.t0 + x.tileWait) : exec (.tileWaitExpiry id pass) s = .next s := by
  show execTileWaitExpiry id pass s = _
  unfold execTileWaitExpiry
  simp only [hx, ht, Nat.not_le.mpr h]
  rfl

theorem exec_tileWaitExpiry_due (hp : pass < 2) (h : y.t0 + x.tileWait ≤ s.time.pip)
    (hn : ∀ n ∈ x.notices, y.t0 + x.tileWait ≤ n.stamp) : exec (.tileWaitExpiry id pass) s = .next (s.closeTile id pass) := by
  show execTileWaitExpiry id pass s = _
  unfold execTileWaitExpiry
  simp only [hx, ht]
  exact if_pos (by simpa [h, hp] using hn)

end

/-- Settles O34: the cases of `takeNotice` in their order, the row that `placeTok` gives a forward token, and the expiry of a tile. -/
theorem noticesAndTiles : Obligations.NoticesAndTiles := by
  unfold Obligations.NoticesAndTiles
  refine ⟨fun id s x k hx hk hw hi => ?_, fun id pass s x y hx ht hp => ⟨?_, fun hdue hn ha => ?_⟩⟩
  · have hrow {t : State} (h : s.takeNotice id x k = some t) : exec (.tokenNotice id) s = .next t :=
      (exec_tokenNotice hx hk hw hi).trans (by rw [h]; rfl)
    have hplaced {z : Expert} (hs : k.step = x.wstep) (hp : k.pass = 0) (hc : x.fwd < x.cap)
        (h : (s.setExpert id (x.counted k)).placeTok id k = (s.setExpert id (x.counted k)).setExpert id z) :
        ∃ t : State, exec (.tokenNotice id) s = .next t ∧ t.expert? id = some z :=
      ⟨_, hrow ((takeNotice_forward hs hp hc).trans (congrArg some h)), expert?_setExpert_self ..⟩
    have hx' : (s.setExpert id (x.counted k)).expert? id = some (x.counted k) := expert?_setExpert_self ..
    have htile (hp : k.pass = 0) : (x.counted k).tile k.pass = x.openF := by rw [hp]; rfl
    refine ⟨fun hs => hrow (takeNotice_otherStep hs), fun hs hp hc => hrow (takeNotice_overCap hs hp hc),
      fun hs hp hg => hrow (takeNotice_closed hs hp hg), fun n hs hp hg hn ht => hrow (takeNotice_pastLimit hs hp hg hn ht),
      fun n u hs hp hg hn ht hkey hroom hu => ?_, fun hs hp hc ho => ?_, fun y hs hp hc ho hy => ⟨fun hlen => ?_, fun hlen ha => ?_⟩⟩
    · obtain ⟨t, ht, hxt⟩ := takeNotice_staged hs hp hg hn ht hkey hroom hu
      exact ⟨t, k.stagedIn x.freeEntry, hrow ht, rfl, hdr_copied k, hxt⟩
    · have hnone := (htile hp).trans ho
      have hz := placeTok_row (k := k) hx' (by simp [hnone]) (by simp [rowTile_of_noTile hnone])
      rw [Expert.placed, rowTile_of_noTile hnone, hp] at hz
      exact hplaced hs hp hc hz
    · have hsome := (htile hp).trans ho
      have hz := placeTok_row hx' (fun z hz => Option.some.inj (hsome.symm.trans hz) ▸ hy) (by rwa [rowTile_of_open hsome])
      rw [Expert.placed, rowTile_of_open hsome, hp] at hz
      exact hplaced hs hp hc hz
    · have hsome := (htile hp).trans ho
      have hz := placeTok_full hx' (fun z hz => Option.some.inj (hsome.symm.trans hz) ▸ hy) (by rwa [rowTile_of_open hsome]) ha
      rw [Expert.placed, rowTile_of_open hsome, hp] at hz
      exact hplaced hs hp hc hz
  · exact exec_tileWaitExpiry_early hx ht
  · refine ⟨_, x.tileClosed pass y, exec_tileWaitExpiry_due hx ht hp hdue hn, ?_, tile_setTile .., closed_setTile ..⟩
    rw [closeTile_active hx ht ha]
    exact expert?_setExpert_self ..

end Sys2Proof.Machine
end

section
/-! SUPPORT. Runs of experts: what the slots of a launch leave of its record, and what is loaded into an area (10 R313, R314, R320; 11 R339). -/

namespace Sys2Proof.Machine

open Sys2Proof

/-! ### The arguments and the start of a launch -/

/-- The arguments of a launch and its start. -/
def Launch.args (l : Launch) : Nat × Nat × Nat := (l.arg0, l.arg1, l.start)

/-- What the record of a launch says of its arguments and its start. -/
def State.launchArgs (s : State) (n : Nat) : Option (Nat × Nat × Nat) := (s.launch n).map Launch.args

section
variable {s t : State} (n : Nat)

theorem launchArgs_of_launches (h : t.pat.launches = s.pat.launches) : t.launchArgs n = s.launchArgs n :=
  congrArg (fun m : Tab Launch => (tabGet? m n).map Launch.args) h

theorem launchArgs_of_core (h : t.core = s.core) : t.launchArgs n = s.launchArgs n := launchArgs_of_launches n (launches_of_core h)

/-- A change of a record that leaves its arguments and its start. -/
theorem launchArgs_setLaunch {k : Nat} {l l' : Launch} (hl : s.launch k = some l) (ha : l'.args = l.args) :
    (s.setLaunch k l').launchArgs n = s.launchArgs n := by
  unfold State.launchArgs
  by_cases hk : n = k
  · subst hk
    rw [launch_setLaunch_self, hl, Option.map_some, Option.map_some, ha]
  · rw [launch_setLaunch_ne s l' hk]

end

section
variable (s : State) (n st i : Nat)

theorem launchArgs_stopSlot (status : Status) (tag pc : Nat) (ex : Bool) (stamp : Nat) :
    (s.stopSlot st i status tag pc ex stamp).launchArgs n = s.launchArgs n := by
  unfold State.stopSlot
  extract_lets x r t
  split
  · rfl
  · split
    · rfl
    · next hl => exact launchArgs_setLaunch n hl rfl

theorem launchArgs_endLaunch (k : Nat) : (s.endLaunch k).launchArgs n = s.launchArgs n := by
  unfold State.endLaunch
  split
  · rfl
  · next l hl =>
    split
    · rfl
    · extract_lets t u
      have hu : u.core = t.core := by
        unfold u
        split
        · rfl
        · exact core_irq ..
      exact (launchArgs_of_core n ((foldl_view State.core (fun _ _ => core_finish ..) _ u).trans hu)).trans
        (launchArgs_setLaunch n hl rfl)

theorem launchArgs_slotFault (status : Status) (tag pc : Nat) (ex : Bool) (stamp : Nat) :
    (s.slotFault st i status tag pc ex stamp).launchArgs n = s.launchArgs n :=
  (launchArgs_endLaunch ..).trans ((launchArgs_of_launches n (launches_traceAt ..)).trans (launchArgs_stopSlot ..))

theorem launchArgs_checkNext (l : Launch) (x : Pattern) : (s.checkNext st i l x).launchArgs n = s.launchArgs n := by
  unfold State.checkNext
  extract_lets
  split
  · exact (launchArgs_slotFault ..).trans (launchArgs_of_launches n (launches_logWordUe ..))
  · split
    · exact launchArgs_slotFault ..
    · exact launchArgs_of_launches n ((launches_noteWait ..).trans (launches_noteMask ..))

theorem launchArgs_becomeNext : (s.becomeNext st i).launchArgs n = s.launchArgs n := by
  unfold State.becomeNext
  extract_lets
  split
  · rfl
  · split
    · rfl
    · split
      · exact launchArgs_slotFault ..
      · extract_lets key
        split
        · exact launchArgs_checkNext ..
        · rfl

/-- Slots that start leave the arguments and the start of every launch. -/
theorem launchArgs_startSlots (k : Nat) (l : Launch) : (s.startSlots k l).launchArgs n = s.launchArgs n := by
  unfold State.startSlots
  extract_lets ps t
  have ht : t.launchArgs n = s.launchArgs n := launchArgs_of_core n (foldl_view State.core (fun _ _ => core_setSlot ..) _ s)
  refine (foldl_view (fun s : State => s.launchArgs n) (fun u q => ?_) ps t).trans ht
  split
  · exact launchArgs_stopSlot ..
  · exact launchArgs_becomeNext ..

end

/-! ### Areas and their Stitches -/

@[simp] theorem area_setArea (p : Replica) (a : Nat) (r : Option Run) : (p.setArea a r).area a = r := by
  unfold Replica.area Replica.setArea
  split <;> rfl

section
variable (s : State)

theorem core_wakeGroup (sts : List Nat) : (s.wakeGroup sts).core = s.core := by
  refine foldl_view State.core (fun s st => ?_) sts s
  extract_lets t u
  have hu : u.core = s.core := by
    unfold u
    split <;> rfl
  exact hu

theorem exp_wakeGroup (sts : List Nat) : (s.wakeGroup sts).exp = s.exp := by
  refine foldl_view State.exp (fun s st => ?_) sts s
  extract_lets t u
  have hu : u.exp = s.exp := by
    unfold u
    split <;> rfl
  exact hu

theorem exp_fillArea (x : Expert) (area pass g i st : Nat) (rows : List (Option Tok)) :
    (s.fillArea x area pass g i st rows).exp = s.exp := by
  unfold State.fillArea
  extract_lets b d off n u v w
  have hv : v.exp = s.exp := by
    unfold v
    split
    · exact (exp_write ..).trans (exp_write ..)
    · exact exp_write ..
  have hw : w.exp = s.exp := (exp_write ..).trans hv
  split
  · exact hw
  · refine (foldl_view State.exp (fun s q => ?_) _ w).trans hw
    split
    · exact exp_write ..
    · rfl

theorem exp_queueRuns (id r : Nat) (p : Replica) : (s.queueRuns id r p).exp = s.exp := by
  unfold State.queueRuns
  split
  · rfl
  · refine foldl_view State.exp (fun s a => ?_) _ s
    split
    · split <;> rfl
    · rfl

theorem core_setRep (id r : Nat) (p : Replica) : (s.setRep id r p).core = s.core := by
  unfold State.setRep
  split <;> rfl

variable {s}

theorem expert?_setRep {id : Nat} {x : Expert} (hx : s.expert? id = some x) (r : Nat) (p : Replica) :
    (s.setRep id r p).expert? id = some (x.setRep r p) := by
  unfold State.setRep
  simp only [hx]
  exact expert?_setExpert_self ..

@[simp] theorem rep_setRep (x : Expert) (r : Nat) (p : Replica) : (x.setRep r p).rep r = some p := tabGet?_tabPut_self ..

end

/-- Tokens that may all be loaded, and that could be read, are the rows of the area's run (R339). -/
theorem loadTiles_sound {id r area pass : Nat} {s u : State} {x : Expert} {p : Replica} {ts : List Tile} (hx : s.expert? id = some x)
    (hne : ts.flatMap (·.toks) ≠ []) (hgood : ∀ k ∈ ts.flatMap (·.toks), s.loadBad x p.sts.length k = none)
    (htake : takeToks (ts.flatMap (·.toks)) s = some (u, [])) :
    ∃ t : State, ∃ q : Replica, ∃ run : Run, s.loadTiles id r area pass p ts = some t ∧ t.expert? id = some (x.setRep r q) ∧
      q.area area = some run ∧ run.pass = pass ∧ run.step = x.wstep ∧ run.running = false ∧
      run.rows = (ts.flatMap (·.toks)).map (fun k => some (s.loadTok x k)) := by
  have hbad : (ts.flatMap (·.toks)).filterMap (fun k => (s.loadBad x p.sts.length k).map (fun st => (k, st))) = [] :=
    List.filterMap_eq_nil_iff.mpr (fun k hk => by rw [hgood k hk]; rfl)
  have hall : (ts.flatMap (·.toks)).filter (fun k => (s.loadBad x p.sts.length k).isNone) = ts.flatMap (·.toks) :=
    List.filter_eq_self.mpr (fun k hk => by rw [hgood k hk]; rfl)
  unfold State.loadTiles
  split
  · next hnone => exact absurd (hx.symm.trans hnone) (by simp)
  · next y hy =>
    obtain rfl := Option.some.inj (hx.symm.trans hy)
    extract_lets g toks bad before a
    have ha : takeToks (toks.filter (fun k => (before.loadBad x g k).isNone)) a = some (u, []) := by
      rw [show toks.filter _ = toks from hall, show a = s by unfold a; rw [show bad = [] from hbad]; rfl]
      exact htake
    rw [ha, Option.map_some]
    extract_lets v ok good rows awake filled bytes w kept _ q
    have hok : ∀ k ∈ toks, ok k = true := fun k hk => by
      have hk' : before.loadBad x g k = none := hgood k hk
      simp [ok, hk']
    have hsome : ¬ good.isEmpty = true := by
      rw [show good = toks from List.filter_eq_self.mpr hok, List.isEmpty_iff]
      exact hne
    have hrows : rows = toks.map (fun k => some (s.loadTok x k)) := List.map_congr_left (fun k hk => if_pos (hok k hk))
    have hw : w.exp = s.exp :=
      calc w.exp = filled.exp := exp_charge ..
        _ = awake.exp := foldl_view State.exp (fun _ _ => exp_fillArea ..) _ _
        _ = u.exp := exp_wakeGroup ..
        _ = s.exp := exp_takeToks htake
    have hq : (w.setRep id r q).expert? id = some (x.setRep r q) := expert?_setRep ((expert?_of_exp hw id).trans hx) r q
    rw [if_neg hsome]
    exact ⟨_, q, _, rfl, (expert?_of_exp (exp_queueRuns ..) id).trans hq, area_setArea p area _, rfl, rfl, rfl, hrows⟩

end Sys2Proof.Machine
end

section
/-! PROOF. Runs of experts: loading, starting, ending and their limits (11 R337, R339 to R341, R347). -/

namespace Sys2Proof.Machine

open Sys2Proof

/-! ### RUN_LOAD (R337, R339) -/

/-- The first free area takes the oldest closed tiles of one pass while no bridge on the way of their tokens is frozen. -/
theorem exec_runLoad {id r area pass : Nat} {s t : State} {x : Expert} {p : Replica} {ts : List Tile} {rest : List (Nat × Tile)}
    (hx : s.expert? id = some x) (hp : x.rep r = some p) (ha : p.active = true) (hg : s.groupReady p.sts = true)
    (hi : s.mayIssue p.skein clsExpert = true) (hk : p.keyed = []) (hf : x.freeArea = some (r, area))
    (hn : x.nextTiles = some (pass, ts, rest)) (hw : (ts.flatMap (·.toks)).all (s.wayOpen p.skein) = true)
    (ht : (s.setExpert id { x with closed := rest }).loadTiles id r area pass p ts = some t) : exec (.runLoad id r area) s = .next t := by
  show execRunLoad id r area s = _
  unfold execRunLoad
  simp [hx, hp, ha, hg, hi, hk, hf, hn, hw, ht]

/-! ### RUN_START (R339, R341) -/

/-- The record of a run that starts keeps its arguments, its valid rows and w_step, and its start. -/
theorem launchArgs_startRun (s : State) (id r area : Nat) (x : Expert) (p : Replica) (run : Run) :
    (s.startRun id r area x p run).launchArgs (runKey id r) = some (run.toks.length, x.wstep, s.time.pip) := by
  unfold State.startRun
  extract_lets key l t u y z v w started
  have hu : u.launchArgs key = some l.args := congrArg (Option.map Launch.args) (launch_setLaunch_self t key l)
  have hv : v.core = u.core := (core_dropWork ..).trans (core_setRep ..)
  have hw : w.core = u.core := (core_bumpBy ..).trans ((core_bump ..).trans hv)
  have hstarted : started.launchArgs key = some l.args :=
    (launchArgs_startSlots ..).trans ((launchArgs_of_core key ((core_wakeGroup ..).trans hw)).trans hu)
  split
  · exact (foldl_view (fun s : State => s.launchArgs key) (fun _ _ => launchArgs_slotFault ..) _ started).trans hstarted
  · exact hstarted

theorem launch_startRun (s : State) (id r area : Nat) (x : Expert) (p : Replica) (run : Run) :
    ∃ l, (s.startRun id r area x p run).launch (runKey id r) = some l ∧ l.arg0 = run.toks.length ∧ l.arg1 = x.wstep ∧
      l.start = s.time.pip := by
  obtain ⟨l, hl, ha⟩ := Option.map_eq_some_iff.mp (launchArgs_startRun s id r area x p run)
  obtain ⟨h0, h1, hs⟩ := Prod.mk.inj ha |>.imp_right Prod.mk.inj
  exact ⟨l, hl, h0, h1, hs⟩

section
variable {id r area : Nat} {s : State} {x : Expert} {p : Replica} {run : Run} (hx : s.expert? id = some x) (hp : x.rep r = some p)
include hx hp

/-- An item that the Dealer started, of a free replica whose shard is quiet: its run begins, or is returned if its step is over. -/
theorem exec_runStart (hr : p.area area = some run) (ha : area ≤ 1) (hfree : p.running = none) (hact : p.active = true)
    (hd : (s.dealer p.skein).started.contains (runItem id r area) = true) (hq : s.shardQuiet x = true)
    (hi : s.mayIssue p.skein clsExpert = true) (ho : x.runOver p run = false) :
    exec (.runStart id r area) s = .next (if run.step ≠ x.wstep then
      (((s.takeUp p.skein (runItem id r area)).setRep id r (p.setArea area none)).returnAll x.home 4 run.toks .epoch).passGrad id
      else s.startRun id r area x p run) := by
  show execRunStart id r area s = _
  have hready : ¬ (decide (area > 1) || p.running.isSome || !p.active || !(s.dealer p.skein).started.contains (runItem id r area) ||
      !s.shardQuiet x || x.runOver p run) = true := by
    rw [hfree, hact, hd, hq, ho]
    simpa using ha
  unfold execRunStart
  simp only [hx, hp, hr]
  rw [if_neg hready, if_neg (by simp [hi])]
  split <;> rfl

/-! ### RUN_END and RUN_LIMIT_EXPIRY (R339, R340) -/

variable (hrun : p.running = some (area, run))
include hrun

theorem exec_runEnd_over {l : Launch} (hl : s.launch (runKey id r) = some l) (hs : l.slots.all (s.slotOver (runKey id r)) = true)
    (hg : s.groupReady p.sts = true) (hi : l.fault ≠ none ∨ s.mayIssue p.skein clsExpert = true) :
    exec (.runEnd id r) s = .next ((s.endRun id r x p area run l).tryRestore x.shardH) := by
  show execRunEnd id r s = _
  have hheld : ¬ (l.fault.isNone && !s.mayIssue p.skein clsExpert) = true := by
    rcases hi with h | h <;> simp [h]
  unfold execRunEnd
  simp only [hx, hp, hrun, hl]
  rw [if_pos (Bool.and_eq_true_iff.mpr ⟨hs, hg⟩), if_neg hheld]

theorem exec_runEnd_going {l : Launch} (hl : s.launch (runKey id r) = some l) (hs : l.slots.all (s.slotOver (runKey id r)) = false) :
    exec (.runEnd id r) s = .next s := by
  show execRunEnd id r s = _
  unfold execRunEnd
  simp only [hx, hp, hrun, hl, hs]
  rfl

theorem exec_runLimitExpiry_due (h0 : x.runLimit ≠ 0) (h : run.start + x.runLimit ≤ s.time.pip) :
    exec (.runLimitExpiry id r) s = .next (s.stopRun id r .timeout) := by
  show execRunLimitExpiry id r s = _
  unfold execRunLimitExpiry
  simp only [hx, hp, Option.bind_some, hrun]
  exact if_pos (by simp [h0, h])

theorem exec_runLimitExpiry_early (h : x.runLimit = 0 ∨ s.time.pip < run.start + x.runLimit) :
    exec (.runLimitExpiry id r) s = .next s := by
  show execRunLimitExpiry id r s = _
  unfold execRunLimitExpiry
  simp only [hx, hp, Option.bind_some, hrun]
  refine if_neg ?_
  rcases h with h | h
  · simp [h]
  · simp [Nat.not_le.mpr h]

end

/-- The rows of a run with a fault are all returned with its status. -/
theorem endRows_fault (s : State) (id : Nat) (x : Expert) (p : Replica) (area : Nat) (run : Run) {l : Launch} (h : l.fault ≠ none) :
    s.endRows id x p area run l = (s.returnAll p.skein 4 run.toks l.status, 0) :=
  if_pos (Option.isSome_iff_ne_none.mpr h)

/-! ### BWD_LIMIT_EXPIRY (R347) -/

section
variable {id n : Nat} {s : State} {x : Expert} (hx : s.expert? id = some x) (hb : x.firstBwd = some n)
include hx hb

theorem exec_bwdLimitExpiry_due (hg : x.grad = 0) (h : n + x.bwdLimit ≤ s.time.pip) (hn : ∀ k ∈ x.notices, n + x.bwdLimit ≤ k.stamp) :
    exec (.bwdLimitExpiry id) s = .next (s.closeGrad id) := by
  show execBwdLimitExpiry id s = _
  unfold execBwdLimitExpiry
  simp only [hx, hb]
  exact if_pos (by simpa [hg, h] using hn)

theorem exec_bwdLimitExpiry_early (h : s.time.pip < n + x.bwdLimit) : exec (.bwdLimitExpiry id) s = .next s := by
  show execBwdLimitExpiry id s = _
  unfold execBwdLimitExpiry
  simp only [hx, hb, Nat.not_le.mpr h]
  exact if_neg (by simp)

end

/-- Settles O35: what RUN_LOAD loads (`loadTiles_sound`), the launch record of a run that starts (`launch_startRun`), and when a run ends
or reaches a limit. -/
theorem expertRuns : Obligations.ExpertRuns := by
  unfold Obligations.ExpertRuns
  refine ⟨fun id r area s x p pass ts rest hx hp ha hg hi hk hf hn hw t ht => exec_runLoad hx hp ha hg hi hk hf hn hw ht,
    fun id r area pass s u x p ts hx hne hgood htake => ?_,
    fun id r area s x p run hx hp hr ha hfree hact hd hq hi ho => ⟨fun hs => ⟨?_, launch_startRun ..⟩, fun hs => ?_⟩,
    fun id r s x p area run l hx hp hrun hl => ⟨exec_runEnd_over hx hp hrun hl, exec_runEnd_going hx hp hrun hl,
      endRows_fault s id x p area run, exec_runLimitExpiry_due hx hp hrun, exec_runLimitExpiry_early hx hp hrun⟩,
    fun id s x n hx hb => ⟨exec_bwdLimitExpiry_due hx hb, exec_bwdLimitExpiry_early hx hb⟩⟩
  · obtain ⟨t, q, run, ht, hy, hrun⟩ := loadTiles_sound (r := r) (area := area) (pass := pass) hx hne hgood htake
    exact ⟨t, x.setRep r q, q, run, ht, hy, rep_setRep .., hrun⟩
  · exact (exec_runStart hx hp hr ha hfree hact hd hq hi ho).trans (congrArg _ (if_neg (not_not_intro hs)))
  · exact (exec_runStart hx hp hr ha hfree hact hd hq hi ho).trans (congrArg _ (if_pos hs))

end Sys2Proof.Machine
end

section
/-! SUPPORT. Stores that merge, and what leaves shards and mirror entries as they are (13; 17 R477). -/

namespace Sys2Proof.Machine

open Sys2Proof

/-! ### A store of bytes -/

/-- A store that covers no uncorrectable word in part is a write. -/
theorem store_of_mergesWell {s : State} {key : Nat} {bs : List Byte} (h : s.MergesWell key bs.length) :
    s.store key bs = (s.write key bs, false) := by
  have hpart : s.ueWords.filter (fun w => decide (key < w * 8 + 8) && decide (w * 8 < key + bs.length) &&
      !(decide (key ≤ w * 8) && decide (w * 8 + 8 ≤ key + bs.length))) = [] := by
    refine List.filter_eq_nil_iff.mpr fun w hw => ?_
    have := h w hw
    simp only [Bool.and_eq_true, Bool.not_eq_true', Bool.and_eq_false_iff, decide_eq_true_eq, decide_eq_false_iff_not]
    omega
  simp only [State.store, hpart, List.isEmpty_nil, if_true]

theorem mergesWell_of_sound {s : State} (h : s.ueWords = []) (key n : Nat) : s.MergesWell key n := by
  unfold State.MergesWell
  rw [h]
  exact fun w hw => absurd hw List.not_mem_nil

theorem mergesWell_of_firstUe {s : State} {key n : Nat} (h : s.firstUe key n = none) : s.MergesWell key n := by
  intro w hw
  have := List.find?_eq_none.mp (Option.map_eq_none_iff.mp h) w hw
  simp only [Bool.and_eq_true, decide_eq_true_eq] at this
  omega

/-- A write leaves no word uncorrectable that was not. -/
theorem mergesWell_write {s : State} {key n : Nat} (h : s.MergesWell key n) (a : Nat) (bs : List Byte) :
    (s.write a bs).MergesWell key n := by
  intro w hw
  refine h w ?_
  unfold State.write at hw
  dsimp only at hw
  split at hw
  · exact hw
  · exact List.mem_of_mem_filter hw

/-- Words restored to what they held leave every byte that still holds it. -/
theorem memGet_restoreWords (m : List Host.Cell) (ws : List Nat) {s : State} (hs : memWf s.mem = true) {k : Nat}
    (hk : memGet s.mem k = memGet m k) :
    memGet ((ws.map (fun w => (w * 8, memGetAll m (w * 8) 8))).foldl (fun (t : State) p => t.setMem (memPutAll t.mem p.1 p.2)) s).mem k =
      memGet m k := by
  induction ws generalizing s with
  | nil => exact hk
  | cons w ws ih =>
    refine ih (memWf_memPutAll _ _ hs) ?_
    show memGet (memPutAll s.mem (w * 8) (memGetAll m (w * 8) 8)) k = _
    rw [memGet_memPutAll hs, length_memGetAll]
    split
    next h => rw [getD_memGetAll _ _ (by omega), Nat.add_sub_cancel' h.1]
    next => exact hk

section
variable {s : State} (key : Nat) (bs : List Byte) (h : s.MemOk)
include h

/-- A store keeps memory in its form, and leaves every byte outside its range. -/
theorem store_memOk : (s.store key bs).1.MemOk ∧
    ∀ k, k < key ∨ key + bs.length ≤ k → memGet (s.store key bs).1.mem k = memGet s.mem k := by
  have hw : memWf (s.write key bs).mem = true := State.write_memWf _ _ _ h
  have hout (k : Nat) (hk : k < key ∨ key + bs.length ≤ k) : memGet (s.write key bs).mem k = memGet s.mem k := by
    rw [State.write_mem]; exact memGet_memPutAll_out _ _ _ hk
  unfold State.store
  extract_lets n ws old t u
  split
  · exact ⟨hw, hout⟩
  · have hu : (ws.foldl (fun t w => t.logUe (w * 8)) u).mem = u.mem := foldl_view State.mem (by intros; rfl) ws u
    refine ⟨?_, fun k hk => ?_⟩
    · show memWf (ws.foldl (fun t w => t.logUe (w * 8)) u).mem = true
      rw [hu]
      exact memWf_foldl_setMem old t hw
    · show memGet (ws.foldl (fun t w => t.logUe (w * 8)) u).mem k = _
      rw [hu]
      exact memGet_restoreWords s.mem ws hw (hout k hk)

theorem memOk_store : (s.store key bs).1.MemOk := (store_memOk key bs h).1

theorem memGet_store_out {k : Nat} (hk : k < key ∨ key + bs.length ≤ k) : memGet (s.store key bs).1.mem k = memGet s.mem k :=
  (store_memOk key bs h).2 k hk

end

/-! ### Answers, requests and work -/

theorem upd_of_offBuf {s t : State} (h : t.offBuf = s.offBuf) : t.upd = s.upd := (congrArg State.upd h :)

section
variable (s : State)

theorem upd_sendVector (h : HostId) (v : Nat) : (s.sendVector h v).upd = s.upd := by
  unfold State.sendVector
  extract_lets
  split <;> rfl

theorem upd_irqAll (b : Nat) : (s.irqAll b).upd = s.upd := by rw [irqAll_frame]

theorem upd_finish (ticket : Nat) (st : Status) (res : List Fld) : (s.finish ticket st res).upd = s.upd := by
  unfold State.finish State.finishAt
  split
  · rfl
  · unfold State.respond
    split
    · split
      · rfl
      · extract_lets body b b' b'' u v
        split
        · exact upd_sendVector ..
        · rfl
    · exact (congrArg State.upd (offBuf_sendFrom ..) :)

theorem upd_finishAll (ts : List Nat) (st : Status) : (s.finishAll ts st).upd = s.upd := foldl_view State.upd (fun _ _ => upd_finish ..) ts s

theorem upd_request (p : Parked) : (s.request p).upd = s.upd := by
  unfold State.request
  split
  · rfl
  · extract_lets t f
    split
    · exact upd_of_offBuf (offBuf_sendSkein ..)
    · exact upd_of_offBuf (offBuf_sendFrom ..)

theorem upd_unpark : s.unpark.upd = s.upd := foldl_view State.upd (fun _ _ => upd_request ..) _ (s.setRoute _)

theorem upd_dropAskers (gone : Asker → Bool) : (s.dropAskers gone).upd = s.upd := upd_unpark ..

theorem upd_dropAsks (h : Nat) : (s.dropAsks h).upd = s.upd := upd_dropAskers ..

theorem upd_delReq (r : Request) : (s.delReq r).upd = s.upd := upd_unpark ..

theorem upd_farRead (st : Nat) (who : Asker) (ch a n : Nat) : (s.farRead st who ch a n).1.upd = s.upd :=
  foldl_view State.upd (fun _ _ => upd_request ..) _ s

end

/-! ### Shards by their handle -/

theorem shard?_of_upd {s t : State} (h : t.upd = s.upd) (n : Nat) : t.shard? n = s.shard? n := by
  unfold State.shard?
  rw [h]

@[simp] theorem shard?_setShard_self (s : State) (h : Nat) (x : Shard) : (s.setShard h x).shard? h = some x := tabGet?_tabPut_self ..

theorem shard?_setShard_ne (s : State) {h n : Nat} (x : Shard) (hn : n ≠ h) : (s.setShard h x).shard? n = s.shard? n :=
  tabGet?_tabPut_ne _ _ hn

theorem upd_setShard_congr {s t : State} (h : t.upd = s.upd) (n : Nat) (x : Shard) : (t.setShard n x).upd = (s.setShard n x).upd := by
  show ({ t.upd with shards := _ } : UpdSt) = _
  rw [h]
  rfl

theorem shard?_setShard_of_upd {s t : State} {h : Nat} {x : Shard} (ht : t.upd = (s.setShard h x).upd) : t.shard? h = some x :=
  (shard?_of_upd ht h).trans (shard?_setShard_self s h x)

end Sys2Proof.Machine
end

section
/-! SUPPORT. MIRROR frames at the partner: what an answer, a chunk and a seal change (13 R383, R386). -/

namespace Sys2Proof.Machine

open Sys2Proof

/-! ### A frame that is taken -/

/-- The state in which a MIRROR frame is charged for and leaves its queue. -/
def State.mirrorTaken (s : State) (q : QFrame) : State := (s.charge q.skein clsUpdate 0 (moveEu (64 * (q.f.n - 1)))).consume q

section
variable (s : State) (q : QFrame)

theorem offBuf_mirrorTaken : (s.mirrorTaken q).offBuf = s.offBuf := (offBuf_consume ..).trans (offBuf_charge ..)

theorem mem_mirrorTaken : (s.mirrorTaken q).mem = s.mem := mem_of_offBuf (offBuf_mirrorTaken s q)

theorem ueWords_mirrorTaken : (s.mirrorTaken q).ueWords = s.ueWords := ueWords_of_offBuf (offBuf_mirrorTaken s q)

theorem memOk_mirrorTaken {s : State} (h : s.MemOk) (q : QFrame) : (s.mirrorTaken q).MemOk := (congrArg memWf (mem_mirrorTaken s q)).trans h

theorem offBuf_answerMirror (st : Status) : (s.answerMirror q st).offBuf = s.offBuf := (offBuf_sendSkein ..).trans (offBuf_bump ..)

theorem mem_answerMirror (st : Status) : (s.answerMirror q st).mem = s.mem := mem_of_offBuf (offBuf_answerMirror s q st)

theorem upd_answerMirror (st : Status) : (s.answerMirror q st).upd = s.upd := upd_of_offBuf (offBuf_answerMirror s q st)

end

section
variable {s : State} {ing : Nat} {q : QFrame} {mine : Nat → Bool} {f : State → QFrame → Mirror → State} (hq : s.localHead ing 4 8 = some q)
include hq

theorem mirrorRow_idle (h : (!mine (fieldAt q.f.cells 0 1) || decide (s.mirrorAnswers ≥ 4096)) = true) :
    s.mirrorRow ing mine f = .next s := by
  unfold State.mirrorRow
  simp only [hq]
  exact if_pos h

variable (h : (!mine (fieldAt q.f.cells 0 1) || decide (s.mirrorAnswers ≥ 4096)) = false)
include h

theorem mirrorRow_accepted {m : Mirror} (hm : s.mirrorStatus q.f = .ok m) : s.mirrorRow ing mine f = .next (f (s.mirrorTaken q) q m) := by
  unfold State.mirrorRow
  simp only [hq, h, Bool.false_eq_true, if_false, hm]
  rfl

theorem mirrorRow_refused {e : Status} (he : s.mirrorStatus q.f = .error e) :
    s.mirrorRow ing mine f = .next ((s.mirrorTaken q).answerMirror q e) := by
  unfold State.mirrorRow
  simp only [hq, h, Bool.false_eq_true, if_false, he]
  rfl

end

theorem mem_mirrorRefused (s : State) (q : QFrame) (e : Status) : ((s.mirrorTaken q).answerMirror q e).mem = s.mem :=
  (mem_answerMirror ..).trans (mem_mirrorTaken s q)

theorem upd_mirrorRefused (s : State) (q : QFrame) (e : Status) : ((s.mirrorTaken q).answerMirror q e).upd = s.upd :=
  (upd_answerMirror ..).trans (upd_of_offBuf (offBuf_mirrorTaken s q))

/-- A frame that R386 does not refuse and that is no SEAL holds a chunk of the entry. -/
theorem chunk_of_mirrorStatus {s : State} {f : Frame} {m : Mirror} (h : s.mirrorStatus f = .ok m) (hk : fieldAt f.cells 0 1 ≠ 2) :
    512 * fieldAt f.cells 8 4 < m.n := by
  have hbad : mirrorFieldBad f m = false := by
    unfold State.mirrorStatus at h
    split at h
    · cases h
    · dsimp only at h
      split_ifs at h with hfid hbad
      split at h
      · split_ifs at h
        cases h
        exact Bool.eq_false_iff.mpr hbad
      · cases h
        exact Bool.eq_false_iff.mpr hbad
  unfold mirrorFieldBad at hbad
  dsimp only at hbad
  split_ifs at hbad with h1
  · simp only [Bool.or_eq_false_iff, decide_eq_false_iff_not] at hbad
    omega
  · simp [hk] at hbad

/-! ### The slots -/

theorem le_alignUp (n : Nat) : n ≤ alignUp n 64 := by unfold alignUp; omega

/-- The arrays lie between where they begin and where they end. -/
theorem arrayOffs_inside {n : Nat} {ws : List Nat} {a : Nat} {w : Nat × Nat} (h : w ∈ ws.zip (arrayOffs n ws a)) :
    a ≤ w.2 ∧ w.2 + n * w.1 ≤ a + arraysEnd n ws := by
  induction ws generalizing a with
  | nil => simp at h
  | cons x ws ih =>
    have hx := le_alignUp (n * x)
    have hend : arraysEnd n (x :: ws) = alignUp (n * x) 64 + arraysEnd n ws := rfl
    rcases List.mem_cons.mp h with rfl | h
    · exact ⟨le_rfl, by rw [hend]; simp only; omega⟩
    · obtain ⟨h1, h2⟩ := ih h
      exact ⟨by omega, by rw [hend]; omega⟩

/-- The part of an array that a chunk holds lies in the array. -/
theorem chunk_inside {n k : Nat} (h : 512 * k < n) (w : Nat) : 512 * k * w + min 512 (n - 512 * k) * w ≤ n * w := by
  rw [← Nat.add_mul]
  exact Nat.mul_le_mul_right w (by omega)

theorem recvSlot_eq {m : Mirror} {v i : Nat} (h : m.sealed = some (v, i)) (hi : i < 2) : m.recvSlot = 1 - i := by
  unfold Mirror.recvSlot
  rw [h]
  interval_cases i <;> rfl

/-- A byte of the slot that holds v_s, where both slots lie in DRAM, lies outside any range of the slot that receives. -/
theorem outside_recvSlot {m : Mirror} {v i : Nat} (h : m.sealed = some (v, i)) (hi : i < 2) (h0 : m.slot0 + m.slotLen ≤ 2 ^ 37)
    (h1 : m.slot1 + m.slotLen ≤ 2 ^ 37) (ho : overlaps m.slot0 m.slotLen m.slot1 m.slotLen = false) {k : Nat}
    (hk : dramKey (m.slot i) ≤ k) (hk' : k < dramKey (m.slot i) + m.slotLen) {a n : Nat} (ha : m.slot m.recvSlot ≤ a)
    (hn : a + n ≤ m.slot m.recvSlot + m.slotLen) : k < dramKey a ∨ dramKey a + n ≤ k := by
  have hlen : 0 < m.slotLen := by unfold Mirror.slotLen; omega
  simp only [overlaps, hlen, decide_true, Bool.true_and, Bool.and_eq_false_iff, decide_eq_false_iff_not] at ho
  rw [recvSlot_eq h hi] at ha hn
  unfold dramKey at hk hk' ⊢
  interval_cases i <;> simp only [Mirror.slot] at ha hn hk hk' <;> norm_num at ha hn hk hk' ⊢ <;> omega

/-! ### MIRROR_DATA -/

/-- The entry while it receives a version. -/
def Mirror.receiving (m : Mirror) (v : Nat) : Mirror := if m.recv != some v then { m with recv := some v, chunks := [] } else m

section
variable (m : Mirror) (v : Nat)

theorem receiving_slots : (m.receiving v).recvSlot = m.recvSlot ∧ (m.receiving v).slot = m.slot ∧ (m.receiving v).widths = m.widths ∧
    (m.receiving v).n = m.n := by
  unfold Mirror.receiving
  split <;> exact ⟨rfl, rfl, rfl, rfl⟩

theorem receiving_noted (cs : List Nat) : { m.receiving v with chunks := cs } = { m with recv := some v, chunks := cs } := by
  unfold Mirror.receiving
  split
  · rfl
  next h => rw [bne_iff_ne, not_not] at h; rw [← h]

theorem chunks_receiving : (m.receiving v).chunks = if m.recv = some v then m.chunks else [] := by
  unfold Mirror.receiving
  by_cases h : m.recv = some v <;> simp [h]

end

/-- The first chunk of a new version clears the mark of the seal record in the slot that receives. -/
def State.unsealed (s : State) (m : Mirror) (v : Nat) : State × Bool :=
  if m.recv != some v then s.store (dramKey ((m.receiving v).slot (m.receiving v).recvSlot + 17)) [0] else (s, false)

/-- A chunk of a version in the slot that receives, and whether a word of it could not be merged. -/
def State.chunkIn (s : State) (m : Mirror) (v k : Nat) (data : List Byte) : State × Bool :=
  (((s.unsealed m v).1.putChunk (m.receiving v) k data).1,
    (s.unsealed m v).2 || ((s.unsealed m v).1.putChunk (m.receiving v) k data).2)

/-- What MIRROR_DATA makes of an accepted chunk. -/
def State.chunkTaken (s : State) (q : QFrame) (m : Mirror) (i v k : Nat) (data : List Byte) : State :=
  if (s.chunkIn m v k data).2 then ((s.chunkIn m v k data).1.setMirror i (m.receiving v)).answerMirror q .integrity
  else ((s.chunkIn m v k data).1.setMirror i { m.receiving v with chunks := addNew (m.receiving v).chunks k }).answerMirror q .ok

theorem mem_chunkTaken (s : State) (q : QFrame) (m : Mirror) (i v k : Nat) (data : List Byte) :
    (s.chunkTaken q m i v k data).mem = (s.chunkIn m v k data).1.mem := by
  unfold State.chunkTaken
  split <;> exact mem_answerMirror ..

section
variable {s : State} {ing : Nat} {q : QFrame} {m : Mirror} (hq : s.localHead ing 4 8 = some q)
include hq

theorem exec_mirrorData_idle (h : fieldAt q.f.cells 0 1 = 2 ∨ 4096 ≤ s.mirrorAnswers) : exec (.mirrorData ing) s = .next s := by
  show execMirrorData ing s = _
  unfold execMirrorData
  exact mirrorRow_idle hq (by simpa using h)

theorem exec_mirrorData_accepted (hk : fieldAt q.f.cells 0 1 ≠ 2) (ha : s.mirrorAnswers < 4096) (hm : s.mirrorStatus q.f = .ok m) :
    exec (.mirrorData ing) s = .next ((s.mirrorTaken q).chunkTaken q m (bits q.f.spec 14 10) (fieldAt q.f.cells 4 4)
      (fieldAt q.f.cells 8 4) (q.f.cells.drop 64)) := by
  show execMirrorData ing s = _
  unfold execMirrorData
  exact mirrorRow_accepted hq (by simp [hk, ha]) hm

theorem exec_mirrorData_refused {e : Status} (hk : fieldAt q.f.cells 0 1 ≠ 2) (ha : s.mirrorAnswers < 4096)
    (he : s.mirrorStatus q.f = .error e) : exec (.mirrorData ing) s = .next ((s.mirrorTaken q).answerMirror q e) := by
  show execMirrorData ing s = _
  unfold execMirrorData
  exact mirrorRow_refused hq (by simp [hk, ha]) he

end

/-! ### A chunk in memory -/

/-- What a chunk writes: one part of each array in turn. -/
def State.putPart (m : Mirror) (k : Nat) (a : State × Bool × List Byte) (w : Nat × Nat) : State × Bool × List Byte :=
  ((a.1.store (dramKey (w.2 + 512 * k * w.1)) (a.2.2.take (min 512 (m.n - 512 * k) * w.1))).1,
    a.2.1 || (a.1.store (dramKey (w.2 + 512 * k * w.1)) (a.2.2.take (min 512 (m.n - 512 * k) * w.1))).2,
    a.2.2.drop (min 512 (m.n - 512 * k) * w.1))

theorem putChunk_eq (s : State) (m : Mirror) (k : Nat) (data : List Byte) : s.putChunk m k data =
    (((m.widths.zip (arrayOffs m.n m.widths (m.slot m.recvSlot + 64))).foldl (State.putPart m k) (s, false, data)).1,
     ((m.widths.zip (arrayOffs m.n m.widths (m.slot m.recvSlot + 64))).foldl (State.putPart m k) (s, false, data)).2.1) := rfl

theorem memGet_foldl_putPart {m : Mirror} {k j : Nat} (l : List (Nat × Nat)) {a : State × Bool × List Byte} (h : a.1.MemOk)
    (hl : ∀ w ∈ l, j < dramKey (w.2 + 512 * k * w.1) ∨ dramKey (w.2 + 512 * k * w.1) + min 512 (m.n - 512 * k) * w.1 ≤ j) :
    memGet (l.foldl (State.putPart m k) a).1.mem j = memGet a.1.mem j := by
  induction l generalizing a with
  | nil => rfl
  | cons w l ih =>
    refine (ih (memOk_store _ _ h) (fun x hx => hl x (List.mem_cons_of_mem _ hx))).trans (memGet_store_out _ _ h ?_)
    have := hl w (List.mem_cons_self ..)
    rw [List.length_take]
    omega

/-- A byte outside the parts of the arrays that a chunk holds stays. -/
theorem memGet_putChunk_out {s : State} {m : Mirror} {k j : Nat} (h : s.MemOk) (data : List Byte)
    (hl : ∀ w ∈ m.widths.zip (arrayOffs m.n m.widths (m.slot m.recvSlot + 64)),
      j < dramKey (w.2 + 512 * k * w.1) ∨ dramKey (w.2 + 512 * k * w.1) + min 512 (m.n - 512 * k) * w.1 ≤ j) :
    memGet (s.putChunk m k data).1.mem j = memGet s.mem j := by
  rw [putChunk_eq]
  exact memGet_foldl_putPart _ h hl

/-- Where no word is uncorrectable a chunk is stored whole. -/
theorem putChunk_sound {s : State} (h : s.ueWords = []) (m : Mirror) (k : Nat) (data : List Byte) : (s.putChunk m k data).2 = false := by
  rw [putChunk_eq]
  suffices ∀ (l : List (Nat × Nat)) (a : State × Bool × List Byte), a.1.ueWords = [] → a.2.1 = false →
      (l.foldl (State.putPart m k) a).2.1 = false from this _ _ h rfl
  intro l
  induction l with
  | nil => exact fun _ _ ha => ha
  | cons w l ih =>
    intro a hu ha
    have hs (key : Nat) (bs : List Byte) := store_of_mergesWell (bs := bs) (mergesWell_of_sound hu key _)
    refine ih _ ?_ ?_
    · simp [State.putPart, hs, State.write, hu]
    · simp [State.putPart, hs, ha]

section
variable {s : State} (h : s.ueWords = []) (m : Mirror) (v k : Nat) (data : List Byte)

include h in
theorem unsealed_sound : (s.unsealed m v).2 = false ∧ (s.unsealed m v).1.ueWords = [] := by
  unfold State.unsealed
  split
  · rw [store_of_mergesWell (mergesWell_of_sound h _ _)]
    exact ⟨rfl, by simp [State.write, h]⟩
  · exact ⟨rfl, h⟩

include h in
/-- Where no word is uncorrectable the entry notes the chunk. -/
theorem chunkTaken_sound (q : QFrame) (i : Nat) : s.chunkTaken q m i v k data =
    ((s.chunkIn m v k data).1.setMirror i
      { m with recv := some v, chunks := addNew (if m.recv = some v then m.chunks else []) k }).answerMirror q .ok := by
  obtain ⟨hu, hue⟩ := unsealed_sound h m v
  have hin : (s.chunkIn m v k data).2 = false := by simp [State.chunkIn, hu, putChunk_sound hue]
  unfold State.chunkTaken
  rw [hin, if_neg Bool.false_ne_true, chunks_receiving, receiving_noted]

theorem memOk_unsealed (hm : s.MemOk) : (s.unsealed m v).1.MemOk := by
  unfold State.unsealed
  split
  · exact memOk_store _ _ hm
  · exact hm

/-- A byte outside the mark of the seal record and outside the parts of the arrays that the chunk holds stays. -/
theorem memGet_chunkIn_out (hm : s.MemOk) {j : Nat} (hj : j < dramKey (m.slot m.recvSlot + 17) ∨ dramKey (m.slot m.recvSlot + 17) + 1 ≤ j)
    (hl : ∀ w ∈ m.widths.zip (arrayOffs m.n m.widths (m.slot m.recvSlot + 64)),
      j < dramKey (w.2 + 512 * k * w.1) ∨ dramKey (w.2 + 512 * k * w.1) + min 512 (m.n - 512 * k) * w.1 ≤ j) :
    memGet (s.chunkIn m v k data).1.mem j = memGet s.mem j := by
  obtain ⟨hr, hs, hw, hn⟩ := receiving_slots m v
  refine (memGet_putChunk_out (memOk_unsealed m v hm) data (by rw [hr, hs, hw, hn]; exact hl)).trans ?_
  unfold State.unsealed
  split
  · rw [hr, hs]
    exact memGet_store_out _ _ hm hj
  · rfl

end

/-! ### MIRROR_SEAL -/

theorem commitTorn_mirrorTaken {s : State} {k i : Nat} (h : s.commitTorn k i = false) (q : QFrame) :
    (s.mirrorTaken q).commitTorn k i = false := by
  unfold State.commitTorn State.torn at h ⊢
  rw [Bool.eq_false_iff, Ne, List.contains_iff_mem] at h ⊢
  exact fun hs => h (mismatch_consume (s.charge ..) q hs)

/-- The seal record of an entry (Table 13-4). -/
def Mirror.record (m : Mirror) (h : List Byte) : List Byte :=
  padTo 64 (leBytes 4 (fieldAt h 4 4) ++ leBytes 4 (fieldAt h 16 4) ++ leBytes 4 (fieldAt h 20 4) ++ leBytes 4 m.n ++ leBytes 1 m.b ++ [1])

theorem length_record (m : Mirror) (h : List Byte) : (m.record h).length = 64 := by simp [Mirror.record, padTo]

/-- What an accepted SEAL does with a sound commit record: it seals a version all of whose chunks have come. -/
def State.sealTaken (s : State) (q : QFrame) (m : Mirror) (i v : Nat) : State :=
  if m.recv = some v && decide (m.chunks.length ≥ (m.n + 511) / 512) then
    if (s.store (dramKey (m.slot m.recvSlot)) (m.record q.f.cells)).2 then
      (s.store (dramKey (m.slot m.recvSlot)) (m.record q.f.cells)).1.answerMirror q .integrity
    else ((s.store (dramKey (m.slot m.recvSlot)) (m.record q.f.cells)).1.setMirror i
      { m with sealed := some (v, m.recvSlot), recv := none, chunks := [] }).answerMirror q .ok
  else if m.recv = none && (m.sealed.map (·.1)) == some v then s.answerMirror q .ok
  else s.answerMirror q .badDesc

section
variable {s : State} {ing : Nat} {q : QFrame} {m : Mirror} (hq : s.localHead ing 4 8 = some q)
  (hk : fieldAt q.f.cells 0 1 = 2) (ha : s.mirrorAnswers < 4096)
include hq hk ha

theorem exec_mirrorSeal_accepted (hm : s.mirrorStatus q.f = .ok m) (ht : s.commitTorn q.skein (1024 + bits q.f.spec 14 10) = false) :
    exec (.mirrorSeal ing) s =
      .next ((s.mirrorTaken q).sealTaken q m (bits q.f.spec 14 10) (fieldAt q.f.cells 4 4)).settle := by
  show settled (rowMirrorSeal ing s) = _
  unfold rowMirrorSeal
  rw [mirrorRow_accepted hq (by simp [hk, ha]) hm]
  dsimp only
  rw [commitTorn_mirrorTaken ht, if_neg Bool.false_ne_true]
  rfl

theorem exec_mirrorSeal_refused {e : Status} (he : s.mirrorStatus q.f = .error e) :
    exec (.mirrorSeal ing) s = .next ((s.mirrorTaken q).answerMirror q e).settle := by
  show settled (rowMirrorSeal ing s) = _
  unfold rowMirrorSeal
  rw [mirrorRow_refused hq (by simp [hk, ha]) he]
  rfl

end

/-- A byte outside the seal record stays. -/
theorem memGet_sealTaken_out {s : State} (h : s.MemOk) (q : QFrame) {m : Mirror} (i v : Nat) {j : Nat}
    (hj : j < dramKey (m.slot m.recvSlot) ∨ dramKey (m.slot m.recvSlot) + 64 ≤ j) :
    memGet (s.sealTaken q m i v).mem j = memGet s.mem j := by
  have hstore := memGet_store_out (dramKey (m.slot m.recvSlot)) (m.record q.f.cells) h (k := j) (by rwa [length_record])
  unfold State.sealTaken
  split
  · split
    · rw [mem_answerMirror, hstore]
    · rw [mem_answerMirror]
      exact hstore
  · split <;> rw [mem_answerMirror]

section
variable {s : State} {m : Mirror} {v : Nat} (hr : m.recv = some v) (q : QFrame) (i : Nat)
include hr

/-- With every chunk received the slot that received holds the new v_s. -/
theorem sealTaken_complete (h : s.ueWords = []) (hc : (m.n + 511) / 512 ≤ m.chunks.length) : s.sealTaken q m i v =
    ((s.write (dramKey (m.slot m.recvSlot)) (m.record q.f.cells)).setMirror i
      { m with sealed := some (v, m.recvSlot), recv := none, chunks := [] }).answerMirror q .ok := by
  unfold State.sealTaken
  rw [store_of_mergesWell (mergesWell_of_sound h _ _)]
  simp [hr, hc]

theorem sealTaken_missing (hc : m.chunks.length < (m.n + 511) / 512) : s.sealTaken q m i v = s.answerMirror q .badDesc := by
  have hn : ¬ m.chunks.length ≥ (m.n + 511) / 512 := Nat.not_le.mpr hc
  simp [State.sealTaken, hr, hn]

end

end Sys2Proof.Machine
end

section
/-! PROOF. The partner's slots: what holds of entries whose slots lie in DRAM, and one whose slots share their bytes (13 R386, R387; O39). -/

namespace Sys2Proof.Machine

open Sys2Proof

/-! ### The slot that holds v_s -/

section
variable {s : State} {ing : Nat} {q : QFrame} {m : Mirror} {v i : Nat} (hm : s.MemOk) (hq : s.localHead ing 4 8 = some q)
  (hok : s.mirrorStatus q.f = .ok m) (hs : m.sealed = some (v, i)) (hi : i < 2) (h0 : m.slot0 + m.slotLen ≤ 2 ^ 37)
  (h1 : m.slot1 + m.slotLen ≤ 2 ^ 37) (ho : overlaps m.slot0 m.slotLen m.slot1 m.slotLen = false)
include hm hq hok hs hi h0 h1 ho

/-- MIRROR_DATA writes in the other slot: the mark of its seal record and a part of each of its arrays. -/
theorem mirrorData_keeps_sealed : ∃ t : State, exec (.mirrorData ing) s = .next t ∧ ∀ k, dramKey (m.slot i) ≤ k →
    k < dramKey (m.slot i) + m.slotLen → memGet t.mem k = memGet s.mem k := by
  by_cases hidle : fieldAt q.f.cells 0 1 = 2 ∨ 4096 ≤ s.mirrorAnswers
  · exact ⟨s, exec_mirrorData_idle hq hidle, fun _ _ _ => rfl⟩
  · obtain ⟨hk, ha⟩ := not_or.mp hidle
    refine ⟨_, exec_mirrorData_accepted hq hk (Nat.not_le.mp ha) hok, fun k hlo hhi => ?_⟩
    have hout {a n : Nat} := outside_recvSlot hs hi h0 h1 ho hlo hhi (a := a) (n := n)
    have hlen : m.slotLen = 64 + arraysEnd m.n m.widths := rfl
    rw [mem_chunkTaken]
    refine (memGet_chunkIn_out m _ _ _ (memOk_mirrorTaken hm q) (hout (by omega) (by omega)) fun w hw => ?_).trans
      (congrArg (memGet · k) (mem_mirrorTaken s q))
    obtain ⟨hbegin, hend⟩ := arrayOffs_inside hw
    have hpart := chunk_inside (chunk_of_mirrorStatus hok hk) w.1
    exact hout (by omega) (by omega)

/-- MIRROR_SEAL writes the seal record of the other slot. -/
theorem mirrorSeal_keeps_sealed (ha : s.mirrorAnswers < 4096) (hk : fieldAt q.f.cells 0 1 = 2)
    (ht : s.commitTorn q.skein (1024 + bits q.f.spec 14 10) = false) :
    ∃ u : State, exec (.mirrorSeal ing) s = .next u.settle ∧ ∀ k, dramKey (m.slot i) ≤ k → k < dramKey (m.slot i) + m.slotLen →
      memGet u.mem k = memGet s.mem k := by
  refine ⟨_, exec_mirrorSeal_accepted hq hk ha hok ht, fun k hlo hhi => ?_⟩
  have hlen : m.slotLen = 64 + arraysEnd m.n m.widths := rfl
  exact (memGet_sealTaken_out (memOk_mirrorTaken hm q) q _ _ (outside_recvSlot hs hi h0 h1 ho hlo hhi le_rfl (by omega))).trans
    (congrArg (memGet · k) (mem_mirrorTaken s q))

end

/-! ### The other clauses -/

section
variable {s : State} {ing : Nat} {q : QFrame} (hq : s.localHead ing 4 8 = some q) (ha : s.mirrorAnswers < 4096)
include hq ha

/-- A refused frame is answered with its status alone. -/
theorem mirror_refused {e : Status} (he : s.mirrorStatus q.f = .error e) :
    (fieldAt q.f.cells 0 1 ≠ 2 → ∃ t : State, ∃ u : State, exec (.mirrorData ing) s = .next t ∧ t = u.answerMirror q e ∧
      t.mem = s.mem ∧ t.upd = s.upd) ∧
    (fieldAt q.f.cells 0 1 = 2 → ∃ t : State, ∃ u : State, exec (.mirrorSeal ing) s = .next t.settle ∧ t = u.answerMirror q e ∧
      t.mem = s.mem ∧ t.upd = s.upd) :=
  ⟨fun hk => ⟨_, _, exec_mirrorData_refused hq hk ha he, rfl, mem_mirrorRefused .., upd_mirrorRefused ..⟩,
    fun hk => ⟨_, _, exec_mirrorSeal_refused hq hk ha he, rfl, mem_mirrorRefused .., upd_mirrorRefused ..⟩⟩

variable {m : Mirror} (hok : s.mirrorStatus q.f = .ok m) (hue : s.ueWords = [])
include hok hue

/-- An accepted chunk is noted. -/
theorem mirrorData_noted (hk : fieldAt q.f.cells 0 1 ≠ 2) :
    ∃ t : State, ∃ u : State, exec (.mirrorData ing) s = .next t ∧ t = u.answerMirror q .ok ∧
      tabGet? t.upd.mirrors (bits q.f.spec 14 10) = some
        { m with recv := some (fieldAt q.f.cells 4 4),
                 chunks := addNew (if m.recv = some (fieldAt q.f.cells 4 4) then m.chunks else []) (fieldAt q.f.cells 8 4) } := by
  have hue' : (s.mirrorTaken q).ueWords = [] := (ueWords_mirrorTaken s q).trans hue
  refine ⟨_, _, exec_mirrorData_accepted hq hk ha hok, chunkTaken_sound hue' m _ _ _ q _, ?_⟩
  rw [chunkTaken_sound hue', upd_answerMirror]
  exact tabGet?_tabPut_self ..

variable (hk : fieldAt q.f.cells 0 1 = 2) (ht : s.commitTorn q.skein (1024 + bits q.f.spec 14 10) = false)
  (hr : m.recv = some (fieldAt q.f.cells 4 4))
include hk ht hr

/-- A SEAL makes the slot that received hold the new v_s once every chunk has come. -/
theorem mirrorSeal_by_chunks :
    ((m.n + 511) / 512 ≤ m.chunks.length →
      ∃ t : State, ∃ u : State, exec (.mirrorSeal ing) s = .next t.settle ∧ t = u.answerMirror q .ok ∧
        tabGet? t.upd.mirrors (bits q.f.spec 14 10) =
          some { m with sealed := some (fieldAt q.f.cells 4 4, m.recvSlot), recv := none, chunks := [] }) ∧
    (m.chunks.length < (m.n + 511) / 512 →
      ∃ t : State, ∃ u : State, exec (.mirrorSeal ing) s = .next t.settle ∧ t = u.answerMirror q .badDesc ∧ t.mem = s.mem ∧
        t.upd = s.upd) := by
  have hexec := exec_mirrorSeal_accepted hq hk ha hok ht
  have hue' : (s.mirrorTaken q).ueWords = [] := (ueWords_mirrorTaken s q).trans hue
  refine ⟨fun hc => ⟨_, _, hexec, sealTaken_complete hr q _ hue' hc, ?_⟩, fun hc => ⟨_, _, hexec, sealTaken_missing hr q _ hc, ?_, ?_⟩⟩
  · rw [sealTaken_complete hr q _ hue' hc, upd_answerMirror]
    exact tabGet?_tabPut_self ..
  · rw [sealTaken_missing hr q _ hc, mem_mirrorRefused]
  · rw [sealTaken_missing hr q _ hc, upd_mirrorRefused]

end

/-- Every clause of O39, the first for entries whose slots lie in device DRAM, as UPD_MIRROR_CREATE requires (13 R398). -/
theorem mirrorPartner_of_slotsInDram :
    (∀ ing, ∀ s : State, ∀ q, ∀ m, ∀ v, ∀ i, s.MemOk → s.localHead ing 4 8 = some q → s.mirrorStatus q.f = .ok m →
      m.sealed = some (v, i) → i < 2 → m.slot0 + m.slotLen ≤ 2 ^ 37 → m.slot1 + m.slotLen ≤ 2 ^ 37 →
      overlaps m.slot0 m.slotLen m.slot1 m.slotLen = false →
      (∃ t : State, exec (.mirrorData ing) s = .next t ∧ ∀ k, dramKey (m.slot i) ≤ k → k < dramKey (m.slot i) + m.slotLen →
        memGet t.mem k = memGet s.mem k) ∧
      (s.mirrorAnswers < 4096 → fieldAt q.f.cells 0 1 = 2 → s.commitTorn q.skein (1024 + bits q.f.spec 14 10) = false →
        ∃ u : State, exec (.mirrorSeal ing) s = .next u.settle ∧ ∀ k, dramKey (m.slot i) ≤ k →
          k < dramKey (m.slot i) + m.slotLen → memGet u.mem k = memGet s.mem k)) ∧
    (∀ ing, ∀ s : State, ∀ q, ∀ e, s.localHead ing 4 8 = some q → s.mirrorAnswers < 4096 → s.mirrorStatus q.f = .error e →
      (fieldAt q.f.cells 0 1 ≠ 2 → ∃ t : State, ∃ u : State, exec (.mirrorData ing) s = .next t ∧ t = u.answerMirror q e ∧
        t.mem = s.mem ∧ t.upd = s.upd) ∧
      (fieldAt q.f.cells 0 1 = 2 → ∃ t : State, ∃ u : State, exec (.mirrorSeal ing) s = .next t.settle ∧ t = u.answerMirror q e ∧
        t.mem = s.mem ∧ t.upd = s.upd)) ∧
    (∀ ing, ∀ s : State, ∀ q, ∀ m, s.localHead ing 4 8 = some q → s.mirrorAnswers < 4096 → s.mirrorStatus q.f = .ok m →
      s.ueWords = [] → fieldAt q.f.cells 0 1 ≠ 2 →
      ∃ t : State, ∃ u : State, exec (.mirrorData ing) s = .next t ∧ t = u.answerMirror q .ok ∧
        tabGet? t.upd.mirrors (bits q.f.spec 14 10) = some
          { m with recv := some (fieldAt q.f.cells 4 4),
                   chunks := addNew (if m.recv = some (fieldAt q.f.cells 4 4) then m.chunks else []) (fieldAt q.f.cells 8 4) }) ∧
    (∀ ing, ∀ s : State, ∀ q, ∀ m, s.localHead ing 4 8 = some q → s.mirrorAnswers < 4096 → s.mirrorStatus q.f = .ok m →
      s.ueWords = [] → fieldAt q.f.cells 0 1 = 2 → s.commitTorn q.skein (1024 + bits q.f.spec 14 10) = false →
      m.recv = some (fieldAt q.f.cells 4 4) →
      ((m.n + 511) / 512 ≤ m.chunks.length →
        ∃ t : State, ∃ u : State, exec (.mirrorSeal ing) s = .next t.settle ∧ t = u.answerMirror q .ok ∧
          tabGet? t.upd.mirrors (bits q.f.spec 14 10) =
            some { m with sealed := some (fieldAt q.f.cells 4 4, m.recvSlot), recv := none, chunks := [] }) ∧
      (m.chunks.length < (m.n + 511) / 512 →
        ∃ t : State, ∃ u : State, exec (.mirrorSeal ing) s = .next t.settle ∧ t = u.answerMirror q .badDesc ∧ t.mem = s.mem ∧
          t.upd = s.upd)) :=
  ⟨fun _ _ _ _ _ _ hm hq hok hs hi h0 h1 ho => ⟨mirrorData_keeps_sealed hm hq hok hs hi h0 h1 ho,
      mirrorSeal_keeps_sealed hm hq hok hs hi h0 h1 ho⟩,
    fun _ _ _ _ hq ha he => mirror_refused hq ha he,
    fun _ _ _ _ hq ha hok hue hk => mirrorData_noted hq ha hok hue hk,
    fun _ _ _ _ hq ha hok hue hk ht hr => mirrorSeal_by_chunks hq ha hok hue hk ht hr⟩

/-! ### Slots that lie apart and share their bytes -/

theorem mirrorStatus_ok {s : State} {f : Frame} {m : Mirror} {v i : Nat} (hm : tabGet? s.upd.mirrors (bits f.spec 14 10) = some m)
    (hf : m.fid = f.src) (hb : mirrorFieldBad f m = false) (hs : m.sealed = some (v, i))
    (hv : fieldAt f.cells 4 4 = v ∨ fieldAt f.cells 4 4 = (v + 1) % 2 ^ 32) : s.mirrorStatus f = .ok m := by
  unfold State.mirrorStatus
  simp only [hm, hf, hb, hs, ne_eq, not_true, if_false, Bool.false_eq_true]
  exact if_pos hv

/-- An entry of one element whose slot 0 holds version 0 and whose slot 1 begins one DRAM size further on. -/
def wrappedMirror : Mirror :=
  { fid := 7, handle := 3, n := 1, b := 4, slot0 := 0x1000, slot1 := 0x1000 + 2 ^ 37, sealed := some (0, 0) }

/-- Its chunk of version 1. -/
def wrappedChunk : QFrame :=
  { die := 0, ing := 4, dest := .skein 0, stamp := 0, acct := portAcct 2 4, hanks := [],
    f := { ty := 8, vc := 4, ch := 0, dst := 0, src := 7, spec := 2 ^ 14,
           cells := padTo 64 (leBytes 1 1 ++ leBytes 1 4 ++ leBytes 2 0 ++ leBytes 4 1 ++ leBytes 4 0 ++ leBytes 4 1) ++
             List.replicate 64 0 } }

/-- The chunk waits at a READY device where the seal record of slot 0 carries its mark. -/
def wrappedState : State :=
  { State.reset with boot := { phase := .ready }, mem := [(0x1011, 1)], buf := { frames := [wrappedChunk] },
                     upd := { mirrors := [(1, wrappedMirror)] } }

/-- Four bytes per element are split in one way alone (Tables 13-2, 13-3). -/
theorem widths_wrappedMirror : wrappedMirror.widths = [2, 2] := by
  simp [Mirror.widths, wrappedMirror, splits, Nat.mod_one]

theorem slotLen_wrappedMirror : wrappedMirror.slotLen = 192 := by
  rw [Mirror.slotLen, widths_wrappedMirror]
  decide

/-- The chunk clears the mark of the slot that holds v_s. -/
theorem memGet_wrappedChunk (s : State) (h : s.MemOk) (hue : s.ueWords = []) :
    memGet (s.chunkIn wrappedMirror 1 0 (List.replicate 64 0)).1.mem 0x1011 = 0 := by
  have hrecv := receiving_slots wrappedMirror 1
  obtain ⟨hr, hs, hw, hn⟩ := hrecv
  refine (memGet_putChunk_out (memOk_unsealed _ _ h) _ ?_).trans ?_
  · rw [hr, hs, hw, hn, widths_wrappedMirror]
    decide
  · have hnew : wrappedMirror.recv != some 1 := by decide
    unfold State.unsealed
    rw [if_pos hnew, hr, hs, store_of_mergesWell (mergesWell_of_sound hue _ _), State.write_mem]
    exact memGet_memPut_self _ _ h

/-- Refutes O39: its first clause asks that the slots of the entry lie apart, but not that they lie in device DRAM, where addresses that
differ by 2^37 name one byte (`dramKey`). The slots of `wrappedMirror` lie apart and share every byte: the first chunk of version 1 clears
the mark of the seal record of version 0. UPD_MIRROR_CREATE enters no such slots, and for slots in DRAM the statement holds
(`mirrorPartner_of_slotsInDram`). -/
theorem not_mirrorPartner : ¬ Obligations.MirrorPartner := by
  unfold Obligations.MirrorPartner
  intro h
  have hm : wrappedState.MemOk := by unfold State.MemOk; decide
  have hq : wrappedState.localHead 4 4 8 = some wrappedChunk := by decide +kernel
  have hok : wrappedState.mirrorStatus wrappedChunk.f = .ok wrappedMirror :=
    mirrorStatus_ok (by decide) rfl (by decide +kernel) rfl (.inr (by decide))
  have hk : fieldAt wrappedChunk.f.cells 0 1 ≠ 2 := by decide
  have ha : wrappedState.mirrorAnswers < 4096 := by decide +kernel
  have ho : overlaps wrappedMirror.slot0 wrappedMirror.slotLen wrappedMirror.slot1 wrappedMirror.slotLen = false := by
    rw [slotLen_wrappedMirror]
    decide
  obtain ⟨t, ht, hkept⟩ := (h.1 4 wrappedState wrappedChunk wrappedMirror 0 0 hm hq hok rfl (by decide) (by decide) ho _
    (.inl rfl)).1 rfl
  rw [exec_mirrorData_accepted hq hk ha hok, Host.Outcome.next.injEq] at ht
  have claimed := hkept 0x1011 (by decide) (by rw [slotLen_wrappedMirror]; decide)
  rw [← ht, mem_chunkTaken] at claimed
  have cleared := memGet_wrappedChunk _ (memOk_mirrorTaken hm wrappedChunk) (ueWords_mirrorTaken ..)
  exact absurd (cleared.symm.trans claimed) (by decide)

end Sys2Proof.Machine
end

section
/-! SUPPORT. What a commit, a tear and the failure of a RUB collective make of a shard (13 R390 to R394). -/

namespace Sys2Proof.Machine

open Sys2Proof

/-! ### TORN (R394) -/

/-- A shard whose stored state could not be kept whole. -/
def Shard.torn (x : Shard) : Shard :=
  { x with st := .torn, ready := [], pend := [], ticket := none, later := [], rubColl := none, sealSent := false }

section
variable {s : State} {h : Nat} {x : Shard} (hx : s.shard? h = some x)
include hx

theorem upd_tear : (s.tear h).upd = (s.setShard h x.torn).upd := by
  unfold State.tear
  rw [hx]
  dsimp only
  rw [upd_finishAll, upd_irqAll]
  exact upd_setShard_congr (t := (s.dropAsks h).dropWork x.skein (isSliceOf h)) (upd_dropAsks s h) h x.torn

theorem shard?_tear : (s.tear h).shard? h = some x.torn := shard?_setShard_of_upd (upd_tear hx)

end

theorem shard?_tear_ne (s : State) {h n : Nat} (hn : n ≠ h) : (s.tear h).shard? n = s.shard? n := by
  cases hx : s.shard? h with
  | none => unfold State.tear; rw [hx]
  | some x => exact (shard?_of_upd (upd_tear hx) n).trans (shard?_setShard_ne s _ hn)

theorem mem_tear (s : State) (h : Nat) : (s.tear h).mem = s.mem := mem_of_core (core_tear s h)

theorem upd_sendResults (s : State) (no : Nat) (g : Group) (h : List Byte) (seq slice rec_ : Nat) (body : List Byte) (own : Bool) :
    (s.sendResults no g h seq slice rec_ body own).upd = s.upd :=
  foldl_view State.upd (fun _ _ => upd_of_offBuf (offBuf_sendDown ..)) g.members s

/-! ### Collectives that end (R391, R392) -/

section
variable {s : State} {h : Nat} {x : Shard} (hx : s.shard? h = some x) (hr : x.rubColl = none)
include hx hr

/-- A shard that applies no collective loses at most slices that wait when one fails. -/
theorem shard?_rubFailed (n no seq : Nat) : ∃ l, (s.rubFailed n no seq).shard? h = some { x with ready := l } := by
  by_cases hn : h = n
  · subst hn
    have hno : x.rubColl ≠ some (no, seq) := by rw [hr]; exact nofun
    unfold State.rubFailed
    simp only [hx, hno, decide_false, Bool.false_and, Bool.false_eq_true, if_false]
    exact ⟨_, shard?_setShard_self ..⟩
  · refine ⟨x.ready, ?_⟩
    unfold State.rubFailed
    split
    · exact hx
    · split
      · exact (shard?_tear_ne s hn).trans hx
      · dsimp only
        split <;> exact (shard?_setShard_ne _ _ hn).trans hx

theorem shard?_failColl (no : Nat) (c : Coll) (st : Status) (rs : List (Nat × Nat)) (cut down : Bool) :
    ∃ l, (s.failColl no c st rs cut down).shard? h = some { x with ready := l } := by
  unfold State.failColl
  split
  · exact ⟨_, hx⟩
  · extract_lets t root u g' v w rc e y
    have ht : t.shard? h = some x :=
      (shard?_of_upd (upd_of_offBuf ((offBuf_of_offHanks (offHanks_releaseColl ..)).trans (offBuf_stopSending ..))) h).trans hx
    have hu : ∃ l, u.shard? h = some { x with ready := l } := by
      unfold u
      split
      · split
        · exact shard?_rubFailed ht hr ..
        · exact ⟨_, ht⟩
      · exact ⟨_, ht⟩
    have hw : w.upd = u.upd := rfl
    have hy : y.upd = u.upd := by
      unfold y
      split
      · exact (upd_of_offBuf (offBuf_sendErrors ..)).trans hw
      · exact hw
    obtain ⟨l, hl⟩ := hu
    refine ⟨l, (shard?_of_upd ?_ h).trans hl⟩
    split
    · exact hy
    · exact (upd_of_offBuf (offBuf_sendUp ..)).trans hy

/-- Publication sends frames and ends the collective. -/
theorem shard?_publish (z : Shard) (no seq tc : Nat) : ∃ l, (s.publish z no seq tc).shard? h = some { x with ready := l } := by
  unfold State.publish
  split
  · split
    · split
      · exact shard?_failColl hx hr ..
      · split
        · exact shard?_failColl (s := s.logUe _) hx hr ..
        · extract_lets hd t
          have ht : t.upd = s.upd := foldl_view State.upd (fun _ _ => upd_sendResults ..) _ s
          refine ⟨x.ready, (shard?_of_upd ?_ h).trans hx⟩
          unfold State.completeColl
          split
          · exact (upd_of_offBuf (offBuf_sendDone ..)).trans ht
          · exact (upd_of_offBuf (offBuf_sendDone ..)).trans ht
    · exact ⟨_, hx⟩
  · exact ⟨_, hx⟩

end

/-! ### The commit (R390) -/

/-- The shard after its next version has committed. -/
def Shard.committed (x : Shard) (forced : Bool) : Shard :=
  { x with st := .committed, version := (x.version + 1) % 2 ^ 32, b1t := x.consts.getD 0 x.b1t, b2t := x.consts.getD 1 x.b2t,
           consts := [], next := 0, ticket := none, later := [], rubColl := none, sealSent := false, mirrorBad := false, pend := [],
           unprotected := x.unprotected || forced || decide (x.partner = 0xFFFFF) }

theorem upd_stepExpert (s : State) (e : Option Nat) (v : Nat) : (s.stepExpert e v).upd = s.upd := by
  unfold State.stepExpert
  split
  · rfl
  · split <;> rfl

/-- A commit with a sound record: the next version, and of the slices that wait those that publication leaves. -/
theorem shard?_commitShard {s : State} {h : Nat} {x : Shard} (hx : s.shard? h = some x) (ht : s.commitTorn x.skein h = false)
    (forced : Bool) (tc : Nat) : ∃ l, (s.commitShard h forced tc).shard? h = some { x.committed forced with ready := l } := by
  unfold State.commitShard
  split
  next hnone => rw [hx] at hnone; cases hnone
  next x' hx' =>
  obtain rfl : x = x' := Option.some.inj (hx.symm.trans hx')
  rw [if_neg (by rw [ht]; exact Bool.false_ne_true)]
  extract_lets v y t u
  have hu : u.shard? h = some (x.committed forced) := by
    have hput : t.shard? h = some (x.committed forced) := shard?_setShard_self s h y
    unfold u
    split <;> exact hput
  split
  · refine ⟨_, (shard?_of_upd ?_ h).trans hu⟩
    rw [upd_finishAll]
    exact foldl_view State.upd (fun _ _ => upd_finish ..) _ u
  · split
    · exact shard?_publish hu rfl ..
    · exact ⟨_, hu⟩
  · exact ⟨_, (shard?_of_upd (upd_stepExpert ..) h).trans hu⟩

end Sys2Proof.Machine
end

section
/-! SUPPORT. Commands that name a shard or a mirror entry: when nothing refuses them, and what they begin (13 R398). -/

namespace Sys2Proof.Machine

open Sys2Proof

/-! ### Rows whose effect is read from the state at acceptance -/

section
variable {s : State} {o : Origin} {op : Nat} {vs : List Nat} {cs : List Chk} {run : Nat → State → State × Reply} {p : Posted}
  (hw : s.waiting o op vs = some p) (hm : s.MaySend o op) (hc : ∀ c ∈ cs, c.bad = false)
include hw hm hc

theorem command_begun_of_run {f : Nat → State → State}
    (hr : run (s.accept p).1 (s.accept p).2 = (f (s.accept p).1 (s.accept p).2, .later)) :
    s.command o op vs cs run = .next (s.begun p f) := by
  rw [command_run hw hm hc, hr]
  rfl

/-- A command that one condition alone refuses, the last of its row. -/
theorem command_turnedAway {c : Chk} (hb : c.bad = true) :
    s.command o op vs (cs ++ [c]) run = .next (s.turnedAway p c.st (fldOffset op (s.posted p).2.toNat c.fld)) := by
  refine command_refused hw ?_
  rw [firstRefusal_append_left (markChks_ok hm), firstRefusal_append_left hc]
  exact firstRefusal_cons_true hb firstRefusal_nil

section
variable {addr len : Nat} (hi : s.mayIssue (addr / 2 ^ 35 % 4) clsMgmt = true) (hu : s.firstUe (dramKey addr) len = none)
include hi hu

theorem loading_concluded_of_run {f : State → State} {st : Status} {res : State → List Fld}
    (hr : run (s.accept p).1 ((s.accept p).2.chargeLoad addr len) = (f (s.accept p).2, .done st (res (s.accept p).2))) :
    s.loading o op vs addr len cs run = .next (s.concluded p f st res) := by
  unfold State.loading
  extract_lets k
  rw [show s.mayIssue k clsMgmt = true from hi, Bool.not_true, Bool.and_false, if_neg Bool.false_ne_true]
  exact command_concluded_of_run hw hm hc (by simp only [accept_firstUe, hu]; exact hr)

theorem loading_begun_of_run {f : Nat → State → State}
    (hr : run (s.accept p).1 ((s.accept p).2.chargeLoad addr len) = (f (s.accept p).1 (s.accept p).2, .later)) :
    s.loading o op vs addr len cs run = .next (s.begun p f) := by
  unfold State.loading
  extract_lets k
  rw [show s.mayIssue k clsMgmt = true from hi, Bool.not_true, Bool.and_false, if_neg Bool.false_ne_true]
  exact command_begun_of_run hw hm hc (by simp only [accept_firstUe, hu]; exact hr)

end

end

/-! ### What a row finds at acceptance -/

section
variable (s : State) (p : Posted)

@[simp] theorem accept_shard? (h : Nat) : (s.accept p).2.shard? h = s.shard? h := shard?_of_upd (accept_upd s p) h

@[simp] theorem accept_commitTorn (k i : Nat) : (s.accept p).2.commitTorn k i = s.commitTorn k i := by rw [accept_frame]; rfl

@[simp] theorem accept_masterUe (x : Shard) : (s.accept p).2.masterUe x = s.masterUe x := accept_firstUe ..

@[simp] theorem accept_mirrorSkein (i : Nat) : (s.accept p).2.mirrorSkein i = s.mirrorSkein i := by rw [accept_frame]; rfl

end

/-! ### The conditions of a handle and of an index -/

theorem onShard_eq {s : State} {h : Nat} {x : Shard} (hx : s.shard? h = some x) (f : Shard → Bool) : s.onShard h f = f x := by
  unfold State.onShard
  rw [hx]

theorem shardChks_ok {s : State} {o : Origin} {h : Nat} {x : Shard} (hn : h ≤ 1023) (ho : s.Owns o resUpd) (hx : s.shard? h = some x) :
    ∀ c ∈ s.shardChks o h, c.bad = false := by
  have ho' : (s.ownChk o resUpd).bad = false := ho
  have hd : h / 1024 = 0 := Nat.div_eq_of_lt (by omega)
  simp [State.shardChks, badFld, ho', hx, hd]

theorem mirrorChks_ok {s : State} {i : Nat} {m : Mirror} (hn : i ≤ 1023) (hm : tabGet? s.upd.mirrors i = some m) :
    ∀ c ∈ s.mirrorChks i, c.bad = false := by
  simp [State.mirrorChks, badFld, hm, hn]

theorem farBad_eq_false {far : Nat} (hs : addrSpace far = 2) (hf : bits far 42 20 ≠ 0xFFFFF) : farBad far = false := by
  simp [farBad, hs, hf]

/-! ### A shard that ends -/

theorem core_endShard (s : State) (h : Nat) (x : Shard) : (s.endShard h x).core = s.core := by
  unfold State.endShard
  extract_lets t w u
  have hu : u.core = s.core := core_dropAsks s h
  exact (foldl_view State.core (fun _ _ => core_finish ..) _ u).trans hu

theorem shard?_endShard (s : State) (h : Nat) (x : Shard) : (s.endShard h x).shard? h = none := by
  unfold State.endShard
  extract_lets t w u
  have hu : u.shard? h = none := tabGet?_tabDel_self ..
  exact (shard?_of_upd (foldl_view State.upd (fun _ _ => upd_finish ..) _ u) h).trans hu

/-! ### Slices that become ready (R380) -/

/-- A shard after the slices of some numbers have become ready from a tensor in DRAM. -/
def Shard.awaiting (x : Shard) (l : List Nat) : Shard :=
  { x with ready := x.ready ++ l.map (fun i => { s := i }), sat := if 0 < l.length then min cMax x.sat else x.sat,
           inv := if 0 < l.length then min cMax x.inv else x.inv }

theorem shard?_sliceReady {s : State} {h : Nat} {x : Shard} (hx : s.shard? h = some x) (i : Nat) :
    (s.sliceReady h { s := i } {}).shard? h = some (x.awaiting [i]) := by
  unfold State.sliceReady
  rw [hx]
  exact shard?_setShard_self ..

theorem awaiting_cons (x : Shard) (i : Nat) (l : List Nat) : (x.awaiting [i]).awaiting l = x.awaiting (i :: l) := by
  unfold Shard.awaiting
  by_cases hl : 0 < l.length <;> simp [hl]

theorem shard?_slicesReady (l : List Nat) {s : State} {h : Nat} {x : Shard} (hx : s.shard? h = some x) :
    (l.foldl (fun s i => s.sliceReady h { s := i } {}) s).shard? h = some (x.awaiting l) := by
  induction l generalizing s x with
  | nil => simpa [Shard.awaiting] using hx
  | cons i l ih => exact (ih (shard?_sliceReady hx _)).trans (congrArg some (awaiting_cons x i l))

/-! ### Rebinds and restores that begin (R395) -/

theorem shard?_resendRebind {s : State} {h : Nat} {x : Shard} {b : Rebind} (hx : s.shard? h = some x) (hb : x.rebind = some b) :
    (s.resendRebind h).shard? h =
      some { x with pend := List.range x.chunkNum, sent := 0, acked := 0, sealSent := false, mirrorBad := false } := by
  unfold State.resendRebind
  simp only [hx, hb]
  exact shard?_setShard_self ..

/-- The next read of a restore notes how far reads have gone. -/
theorem shard?_askRestore_one {s : State} {h : Nat} {x : Shard} {r : Restore} (hx : s.shard? h = some x) (hr : x.restore = some r) :
    ∃ r', (s.askRestore h 1).shard? h = some { x with restore := some r' } ∧ r'.far = r.far ∧ r'.ticket = r.ticket ∧
      r'.stage = r.stage := by
  have hsame : { x with restore := some r } = x := by rw [← hr]
  unfold State.askRestore
  simp only [hx, hr]
  generalize (if r.stage = 0 then 64 else 64 + x.region) = len
  split
  · exact ⟨r, hx.trans (congrArg some hsame.symm), rfl, rfl, rfl⟩
  · exact ⟨_, (shard?_of_upd (upd_farRead ..) h).trans (shard?_setShard_self ..), rfl, rfl, rfl⟩

end Sys2Proof.Machine
end

section
/-! PROOF. Commands of shards and of mirror entries (13 R374 to R380, R383, R387, R395, R398). -/

namespace Sys2Proof.Machine

open Sys2Proof

/-! ### UPD_SHARD_CREATE (R372, R374, R377) -/

/-- The conditions of an UPD_SHARD_CREATE whose descriptor has `n` bytes `b` and says the shard `x`. -/
def State.shardCreateChks (s : State) (o : Origin) (handle addr len source far n : Nat) (b : List Byte) (x : Shard) : List Chk :=
  s.addrChks 1 addr len 1 ++
    [badFld 0 (decide (handle / 1024 ≠ 0) || decide (handle = 0)), badFld 1 (shardFieldBad b x), badFld 3 (decide (source > 1)),
     badFld 4 (decide (source = 1) && farBad far), s.ownChk o resUpd, ⟨(s.shard? handle).isSome, .badDesc, some 0⟩,
     ⟨decide (len ≠ n), .badDesc, some 2⟩, ⟨s.shardDescBad x, .badDesc, none⟩, ⟨s.copiesDenied x x.copies, .denied, none⟩]

/-- What an UPD_SHARD_CREATE that nothing refuses does with the shard of its descriptor. -/
def createRun (handle source far : Nat) (x : Shard) (t : Nat) (s : State) : State × Reply :=
  if source = 1 then
    ((s.setShard handle { x with st := .torn, restore := some { far := far, ticket := t, create := true } }).askRestore handle 1, .later)
  else match s.masterUe x with
    | some u => (s.logUe u, .done .integrity [])
    | none => ((s.setShard handle x).writeCopies x ((x.version + 2 ^ 32 - 1) % 2 ^ 32), .done .ok [uf 4 x.version, uf 8 s.time.pip])

section
variable {o : Origin} {handle addr len source far : Nat} {s : State} {p : Posted} {x : Shard}

theorem exec_updShardCreate
    (hlen : len = 128 + 16 * (min 16 (fieldAt (s.read (dramKey addr) 128) 5 1) + min 64 (fieldAt (s.read (dramKey addr) 128) 6 1)))
    (hx : x = parseShard (s.read (dramKey addr) len)) :
    exec (.updShardCreate o handle addr len source far) s = s.loading o 0x0901 [handle, addr, len, source, far] addr len
      (s.shardCreateChks o handle addr len source far len (s.read (dramKey addr) len) x) (createRun handle source far x) := by
  show execUpdShardCreate o handle addr len source far s = _
  unfold execUpdShardCreate
  simp only [← hlen, ← hx]
  rfl

theorem shardCreateChks_ok {b : List Byte} (ho : s.Owns o resUpd) (h1 : 1 ≤ handle) (hn : handle ≤ 1023) (hl : addr + len ≤ 2 ^ 37)
    (hd : s.dramDenied addr len = false) (hf : shardFieldBad b x = false) (hfree : s.shard? handle = none)
    (hb : s.shardDescBad x = false) (hc : s.copiesDenied x x.copies = false) (hs : source = 0 ∨ source = 1 ∧ farBad far = false) :
    ∀ c ∈ s.shardCreateChks o handle addr len source far len b x, c.bad = false := by
  have hdiv : handle / 1024 = 0 := Nat.div_eq_of_lt (by omega)
  simp only [State.shardCreateChks, List.forall_mem_append, List.forall_mem_cons]
  refine ⟨addrChks_ok hl (Nat.mod_one _) hd, ?_, hf, ?_, ?_, ho, ?_, decide_eq_false (not_not_intro rfl), hb, hc,
    by simp⟩
  · simp [badFld, hdiv]; omega
  · rcases hs with rfl | ⟨rfl, -⟩ <;> rfl
  · rcases hs with rfl | ⟨rfl, hfar⟩
    · rfl
    · simp [badFld, hfar]
  · simp [hfree]

end

/-! ### UPD_APPLY (R380, R390, R398) -/

/-- The conditions of an UPD_APPLY but that of the version. -/
def State.applyChks (s : State) (o : Origin) (handle addr : Nat) (x : Shard) : List Chk :=
  s.addrChks 1 addr (x.n * (x.gradFmt.width / 8)) 1 ++ s.shardChks o handle ++
    [⟨s.onShard handle (fun x => decide (x.kind ≠ 0)), .badDesc, some 0⟩,
     ⟨s.onShard handle (fun x => decide (x.st ≠ .committed)), .busy, none⟩]

/-- What an UPD_APPLY that nothing refuses does. -/
def applyRun (handle addr t : Nat) (s : State) : State × Reply :=
  match s.shard? handle with
  | none => (s, .done .ok [])
  | some x =>
    if x.ticket.isSome then (s.setShard handle { x with later := x.later ++ [t] }, .later)
    else ((List.range x.sliceNum).foldl (fun s i => s.sliceReady handle { s := i } {})
      (s.setShard handle { x with ticket := some t, src := addr }), .later)

section
variable {o : Origin} {handle addr version : Nat} {s : State} {p : Posted} {x : Shard} (hx : s.shard? handle = some x)
include hx

theorem exec_updApply : exec (.updApply o handle addr version) s = s.command o 0x0903 [handle, addr, version]
    (s.applyChks o handle addr x ++ [⟨s.onShard handle (fun x => decide (x.version ≠ version)), .epoch, none⟩])
    (applyRun handle addr) := by
  show execUpdApply o handle addr version s = _
  unfold execUpdApply
  simp only [hx]
  rfl

theorem applyChks_ok (ho : s.Owns o resUpd) (hn : handle ≤ 1023) (hl : addr + x.n * (x.gradFmt.width / 8) ≤ 2 ^ 37)
    (hd : s.dramDenied addr (x.n * (x.gradFmt.width / 8)) = false) (hk : x.kind = 0) (hst : x.st = .committed) :
    ∀ c ∈ s.applyChks o handle addr x, c.bad = false := by
  refine List.forall_mem_append.mpr ⟨List.forall_mem_append.mpr ⟨addrChks_ok hl (Nat.mod_one _) hd, shardChks_ok hn ho hx⟩, ?_⟩
  simp [onShard_eq hx, hk, hst]

variable (hw : s.waiting o 0x0903 [handle, addr, version] = some p) (hm : s.MaySend o 0x0903)
  (hc : ∀ c ∈ s.applyChks o handle addr x, c.bad = false)
include hw hm hc

theorem updApply_turnedAway (hv : x.version ≠ version) :
    exec (.updApply o handle addr version) s = .next (s.turnedAway p .epoch 0xFFFF) :=
  (exec_updApply hx).trans (command_turnedAway hw hm hc (by simp [onShard_eq hx, hv]))

variable (hv : x.version = version)
include hv

theorem updApply_begun {f : Nat → State → State} (hf : ∀ tk, applyRun handle addr tk (s.accept p).2 = (f tk (s.accept p).2, .later)) :
    exec (.updApply o handle addr version) s = .next (s.begun p f) :=
  (exec_updApply hx).trans (command_begun_of_run hw hm (List.forall_mem_append.mpr ⟨hc, by simp [onShard_eq hx, hv]⟩) (hf _))

/-- Behind an UPD_APPLY that waits another one waits too. -/
theorem updApply_later (ht : x.ticket.isSome = true) : ∃ ft : Nat → State → State,
    exec (.updApply o handle addr version) s = .next (s.begun p ft) ∧
      ∀ tk, ∀ a : State, a.upd = s.upd → (ft tk a).shard? handle = some { x with later := x.later ++ [tk] } := by
  refine ⟨fun tk a => a.setShard handle { x with later := x.later ++ [tk] }, updApply_begun hx hw hm hc hv fun tk => ?_,
    fun tk a _ => shard?_setShard_self ..⟩
  unfold applyRun
  rw [accept_shard?, hx]
  exact if_pos ht

/-- Every slice of the tensor becomes ready. -/
theorem updApply_first (ht : x.ticket = none) : ∃ ft : Nat → State → State,
    exec (.updApply o handle addr version) s = .next (s.begun p ft) ∧ ∀ tk, ∀ a : State, a.upd = s.upd →
      (ft tk a).shard? handle = some ({ x with ticket := some tk, src := addr }.awaiting (List.range x.sliceNum)) := by
  refine ⟨fun tk a => (List.range x.sliceNum).foldl (fun s i => s.sliceReady handle { s := i } {})
    (a.setShard handle { x with ticket := some tk, src := addr }), updApply_begun hx hw hm hc hv fun tk => ?_,
    fun tk a _ => shard?_slicesReady _ (shard?_setShard_self ..)⟩
  unfold applyRun
  rw [accept_shard?, hx]
  exact if_neg (by simp [ht])

end

/-! ### UPD_PARAMS_SET (R375, R379) -/

section
variable {o : Origin} {handle fromX : Nat} {params : List Byte} {s : State} {p : Posted} {x : Shard}
  (hw : s.waiting o 0x0904 [handle, fromX, leNat params] = some p) (hm : s.MaySend o 0x0904) (ho : s.Owns o resUpd) (hn : handle ≤ 1023)
  (hx : s.shard? handle = some x) (hp : paramsBad x.opt (parseParams params) = false)
include hw hm ho hn hx hp

theorem updParamsSet_staged (hv : 0 ≤ verDiff fromX x.version) (hst : fromX = x.version → x.st = .committed) :
    exec (.updParamsSet o handle fromX params) s =
      .next (s.concluded p (fun a => a.setShard handle { x with staged := some (fromX, parseParams params) }) .ok (fun _ => [])) := by
  show execUpdParamsSet o handle fromX params s = _
  unfold execUpdParamsSet State.update
  refine command_concluded_of_run hw hm (List.forall_mem_append.mpr ⟨shardChks_ok hn ho hx, ?_⟩) ?_
  · simp only [List.forall_mem_cons, onShard_eq hx, badFld, hp, true_and, List.not_mem_nil, false_imp_iff, implies_true, and_true,
      Bool.or_eq_false_iff, Bool.and_eq_false_iff, decide_eq_false_iff_not]
    exact ⟨Int.not_lt.mpr hv, not_or_of_imp fun h => not_not_intro (hst h)⟩
  · simp only [accept_shard?, hx]

theorem updParamsSet_late (hv : verDiff fromX x.version < 0) :
    exec (.updParamsSet o handle fromX params) s = .next (s.turnedAway p .late 0xFFFF) := by
  show execUpdParamsSet o handle fromX params s = _
  unfold execUpdParamsSet State.update
  extract_lets b
  rw [List.append_cons]
  refine command_turnedAway hw hm (List.forall_mem_append.mpr ⟨shardChks_ok hn ho hx, ?_⟩) ?_
  · simpa [onShard_eq hx, badFld] using hp
  · simp [onShard_eq hx, hv]

end

/-! ### UPD_SHARD_DESTROY, UPD_SHARD_STATUS, UPD_COUNTERS (R387, R398) -/

section
variable {o : Origin} {handle : Nat} {s : State} {p : Posted} {x : Shard}

theorem updShardDestroy_deletes (hw : s.waiting o 0x0902 [handle] = some p) (hm : s.MaySend o 0x0902) (ho : s.Owns o resUpd)
    (hn : handle ≤ 1023) (hx : s.shard? handle = some x) (hg : ∀ g ∈ s.coll, g.2.rub ≠ some handle) (he : x.expert = none)
    (h1 : x.st ≠ .opened) (h2 : x.st ≠ .sealing) :
    exec (.updShardDestroy o handle) s = .next (s.concluded p (fun a => a.endShard handle x) .ok (fun _ => [])) := by
  have hno : s.coll.any (fun g => g.2.rub == some handle) = false := any_eq_false_of fun g hmem => by simpa using hg g hmem
  show execUpdShardDestroy o handle s = _
  unfold execUpdShardDestroy State.update
  refine command_concluded_of_run hw hm (List.forall_mem_append.mpr ⟨shardChks_ok hn ho hx, ?_⟩) ?_
  · simp [onShard_eq hx, hno, he, h1, h2]
  · simp only [accept_shard?, hx]

/-- The answer of UPD_SHARD_STATUS. -/
def Shard.statusFlds (x : Shard) : List Fld :=
  [uf 1 x.st.code, uf 4 x.version, uf 4 x.b1t, uf 4 x.b2t, uf 4 x.sent, uf 4 x.acked, uf 4 x.partner, uf 2 x.idx,
    uf 1 (b2n x.unprotected), bf 32 (leNat ((x.staged.getD (0, [])).2.flatMap (leBytes 4))), uf 4 (x.staged.getD (0, [])).1] ++
    listFlds (x.layers.map (fun l => [uf 4 l.q, uf 4 l.excursions])) ++ [uf 4 x.sat, uf 4 x.inv]

/-- The shard whose counters have been read and cleared. -/
def Shard.cleared (x : Shard) : Shard := { x with sat := 0, inv := 0, layers := x.layers.map (fun l => { l with excursions := 0 }) }

theorem updShardStatus_answers {clear : Nat} (hw : s.waiting o 0x0905 [handle, clear] = some p) (hm : s.MaySend o 0x0905)
    (hn : handle ≤ 1023) (hc : clearOk o clear) (hx : s.shard? handle = some x) (ht : s.commitTorn x.skein handle = false) :
    exec (.updShardStatus o handle clear) s =
      .next (s.concluded p (fun a => if clear = 1 then a.setShard handle x.cleared else a) .ok (fun _ => x.statusFlds)).settle := by
  have hd : handle / 1024 = 0 := Nat.div_eq_of_lt (by omega)
  show settled (rowUpdShardStatus o handle clear s) = _
  unfold rowUpdShardStatus
  rw [command_concluded_of_run (f := fun a => if clear = 1 then a.setShard handle x.cleared else a) (st := .ok)
    (res := fun _ => x.statusFlds) hw hm (List.forall_mem_append.mpr ⟨by simp [badFld, hd, hx], clearChks_ok hc⟩), settled_next]
  simp only [accept_shard?, hx, accept_commitTorn, ht, Bool.false_eq_true, if_false]
  rfl

theorem updCounters_answers {skein clear : Nat} (hw : s.waiting o 0x090F [skein, clear] = some p) (hm : s.MaySend o 0x090F)
    (hk : skein ≤ 3) (hc : clearOk o clear) :
    ∃ res : State → List Fld,
      exec (.updCounters o skein clear) s = .next (s.concluded p (fun a => a.clearIf clear .upd skein) .ok res) ∧
      ∀ a : State, (res a).head? = some (uf 4 (a.count .upd skein ucElems)) := by
  show ∃ res : State → List Fld, execUpdCounters o skein clear s = _ ∧ _
  unfold execUpdCounters
  exact ⟨_, command_concluded hw hm (List.forall_mem_cons.mpr ⟨decide_eq_false (Nat.not_lt.mpr hk), clearChks_ok hc⟩), fun a => rfl⟩

end

/-- Settles O37: nothing refuses the command, and its effect and its answer are those that its lemma names. -/
theorem shardCommands : Obligations.ShardCommands := by
  unfold Obligations.ShardCommands
  refine ⟨?_, ?_, ?_, ?_, ?_, fun o skein clear s p hw hm hk hc => updCounters_answers hw hm hk hc⟩
  · intro o handle addr len source far s p x hw hm ho h1 hn hl hd hu hlen hx hf hfree hb hc hi
    have hchks := shardCreateChks_ok (source := source) (far := far) (b := s.read (dramKey addr) len) ho h1 hn hl hd hf hfree hb hc
    refine ⟨fun hs hue => ?_, fun hs hsp hfid => ?_⟩
    · refine (exec_updShardCreate hlen hx).trans (loading_concluded_of_run hw hm (hchks (.inl hs)) hi hu ?_)
      have hue' : ((s.accept p).2.chargeLoad addr len).masterUe x = none := (accept_masterUe s p x).trans hue
      unfold createRun
      rw [if_neg (by omega), hue']
      rfl
    · refine (exec_updShardCreate hlen hx).trans (loading_begun_of_run hw hm (hchks (.inr ⟨hs, farBad_eq_false hsp hfid⟩)) hi hu ?_)
      exact if_pos hs
  · intro o handle s p x hw hm ho hn hx hg he h1 h2
    exact ⟨_, updShardDestroy_deletes hw hm ho hn hx hg he h1 h2,
      fun a _ => ⟨shard?_endShard a handle x, mem_of_core (core_endShard a handle x)⟩⟩
  · intro o handle addr version s p x hw hm ho hn hx hl hd hk hst
    have hc := applyChks_ok hx ho hn hl hd hk hst
    refine ⟨updApply_later hx hw hm hc, fun hv ht => ?_, updApply_turnedAway hx hw hm hc⟩
    obtain ⟨ft, hft, hready⟩ := updApply_first hx hw hm hc hv ht
    refine ⟨ft, hft, fun tk a ha => (hready tk a ha).trans ?_⟩
    simp [Shard.awaiting]
  · intro o handle fromX params s p x hw hm ho hn hx hp
    exact ⟨updParamsSet_staged hw hm ho hn hx hp, updParamsSet_late hw hm ho hn hx hp⟩
  · intro o handle clear s p x hw hm hn hc hx ht
    refine ⟨_, _, updShardStatus_answers hw hm hn hc hx ht, rfl, fun h0 a => ?_, fun h1 a => ⟨x.cleared, ?_, rfl, rfl, rfl⟩⟩
    · simp [h0]
    · simp [h1]

end Sys2Proof.Machine
end

section
/-! PROOF. Rebinds, restores, forced commits, copies and mirror entries (13 R377, R383, R387, R395, R398). -/

namespace Sys2Proof.Machine

open Sys2Proof

/-! ### Rebind, restore and forced commit (R395, R398) -/

section
variable {o : Origin} {handle : Nat} {s : State} {p : Posted} {x : Shard} (ho : s.Owns o resUpd) (hn : handle ≤ 1023)
  (hx : s.shard? handle = some x)
include ho hn hx

/-- A rebind has every chunk pending for the new partner. -/
theorem updShardRebind_begun {fid index : Nat} (hw : s.waiting o 0x0906 [handle, fid, index] = some p) (hm : s.MaySend o 0x0906)
    (hf : fid < 0xFFFFF) (hi : index < 1024) (hself : fid ≠ s.devFid) (hst : x.st = .committed ∨ x.st = .lost) :
    ∃ ft : Nat → State → State, exec (.updShardRebind o handle fid index) s = .next (s.begun p ft) ∧ ∀ tk, ∀ a : State, a.upd = s.upd →
      (ft tk a).shard? handle = some { x with rebind := some { fid := fid, idx := index, ticket := tk }, pend := List.range x.chunkNum,
                                              sent := 0, acked := 0, sealSent := false, mirrorBad := false } := by
  refine ⟨fun tk a => ((a.finishAll (x.rebind.map (·.ticket)).toList .aborted).setShard handle
    { x with rebind := some { fid := fid, idx := index, ticket := tk } }).resendRebind handle, ?_,
    fun tk a _ => shard?_resendRebind (shard?_setShard_self ..) rfl⟩
  show execUpdShardRebind o handle fid index s = _
  unfold execUpdShardRebind
  refine command_begun_of_run hw hm (List.forall_mem_append.mpr ⟨shardChks_ok hn ho hx, ?_⟩) ?_
  · have hbusy : (decide (x.st = .opened) || decide (x.st = .sealing) || decide (x.st = .torn)) = false := by
      rcases hst with h | h <;> rw [h] <;> rfl
    simp [badFld, onShard_eq hx, hf, hi, hself, hbusy]
  · simp only [accept_shard?, hx]

/-- A restore begins with the read of the seal record. -/
theorem updShardRestore_begun {far : Nat} (hw : s.waiting o 0x0907 [handle, far] = some p) (hm : s.MaySend o 0x0907)
    (hs : addrSpace far = 2) (hf : bits far 42 20 ≠ 0xFFFFF) (hst : x.st = .committed ∨ x.st = .lost ∨ x.st = .torn) :
    ∃ ft : Nat → State → State, exec (.updShardRestore o handle far) s = .next (s.begun p ft) ∧ ∀ tk, ∀ a : State, a.upd = s.upd →
      ∃ y, ∃ r, (ft tk a).shard? handle = some y ∧ y.restore = some r ∧ r.far = far ∧ r.ticket = tk ∧ r.stage = 0 ∧ y.st = x.st ∧
        y.version = x.version := by
  refine ⟨fun tk a => (((a.dropAskers (fun a => match a with | .restore y _ => y == handle | _ => false)).finishAll
    (x.restore.map (·.ticket)).toList .aborted).setShard handle
    { x with restore := some { far := far, ticket := tk, create := (x.restore.map (·.create)).getD false } }).askRestore handle 1,
    ?_, fun tk a _ => ?_⟩
  · show execUpdShardRestore o handle far s = _
    unfold execUpdShardRestore
    refine command_begun_of_run hw hm (List.forall_mem_append.mpr ⟨shardChks_ok hn ho hx, ?_⟩) ?_
    · have hbusy : (decide (x.st = .opened) || decide (x.st = .sealing)) = false := by
        rcases hst with h | h | h <;> rw [h] <;> rfl
      simp [badFld, onShard_eq hx, farBad_eq_false hs hf, hbusy]
    · simp only [accept_shard?, hx] <;> rfl
  · obtain ⟨r, hr, hfar, htk, hstage⟩ := shard?_askRestore_one (shard?_setShard_self
      ((a.dropAskers (fun a => match a with | .restore y _ => y == handle | _ => false)).finishAll
        (x.restore.map (·.ticket)).toList .aborted) handle
      { x with restore := some { far := far, ticket := tk, create := (x.restore.map (·.create)).getD false } }) rfl
    exact ⟨_, r, hr, rfl, hfar, htk, hstage, rfl, rfl⟩

/-- A forced commit of a LOST shard commits its next version as UNPROTECTED. -/
theorem updCommitForce_commits {version : Nat} (hw : s.waiting o 0x0908 [handle, version] = some p) (hm : s.MaySend o 0x0908)
    (hst : x.st = .lost) (hv : version = (x.version + 1) % 2 ^ 32) (ht : s.commitTorn x.skein handle = false) :
    ∃ f : State → State, ∃ res, exec (.updCommitForce o handle version) s = .next (s.concluded p f .ok res).settle ∧
      ∀ a : State, a.upd = s.upd → a.mismatch = s.mismatch →
        ∃ y, (f a).shard? handle = some y ∧ y.st = .committed ∧ y.version = version ∧ y.unprotected = true := by
  refine ⟨fun a => a.commitShard handle true a.time.pip, fun a => [uf 8 (a.commitShard handle true a.time.pip).time.pip], ?_,
    fun a ha hmis => ?_⟩
  · show settled (rowUpdCommitForce o handle version s) = _
    unfold rowUpdCommitForce
    rw [update_concluded hw hm (List.forall_mem_append.mpr ⟨shardChks_ok hn ho hx, by simp [badFld, onShard_eq hx, hv, hst]⟩)]
    rfl
  · have ht' : a.commitTorn x.skein handle = false := by
      unfold State.commitTorn State.torn at ht ⊢
      rw [hmis]
      exact ht
    obtain ⟨l, hl⟩ := shard?_commitShard ((shard?_of_upd ha handle).trans hx) ht' true a.time.pip
    exact ⟨_, hl, rfl, hv.symm, by simp [Shard.committed]⟩

/-! ### Copies (R374, R377) -/

/-- A copy is entered and written from the master. -/
theorem updCopyAdd_writes {entry : List Byte} (hw : s.waiting o 0x0909 [handle, leNat entry] = some p) (hm : s.MaySend o 0x0909)
    (hf : (parseCopy entry).2 = false) (hd : s.copyDesc x (parseCopy entry).1 ≠ none)
    (hc : s.copiesDenied x [(parseCopy entry).1] = false) (hlen : x.copies.length < 16) (hst : x.st = .committed)
    (hue : s.masterUe x = none) :
    exec (.updCopyAdd o handle entry) s = .next (s.concluded p (fun a =>
      (a.setShard handle { x with copies := x.copies ++ [(parseCopy entry).1] }).writeCopy x ((x.version + 2 ^ 32 - 1) % 2 ^ 32)
        (parseCopy entry).1) .ok (fun _ => [uf 1 x.copies.length])) := by
  show execUpdCopyAdd o handle entry s = _
  unfold execUpdCopyAdd
  refine command_concluded_of_run hw hm (List.forall_mem_append.mpr ⟨shardChks_ok hn ho hx, ?_⟩) ?_
  · have hd' : (s.copyDesc x (parseCopy entry).1).isNone = false := Option.isNone_eq_false_iff.mpr (Option.isSome_iff_ne_none.mpr hd)
    simp [badFld, onShard_eq hx, hf, hd', hc, hlen, hst]
  · simp only [accept_shard?, hx, accept_masterUe, hue]

theorem updCopyDrop_removes {copy : Nat} (hw : s.waiting o 0x090A [handle, copy] = some p) (hm : s.MaySend o 0x090A)
    (hlen : copy < x.copies.length) (hk : x.kind = 1 → copy ≠ 0) (hst : x.st = .committed) :
    exec (.updCopyDrop o handle copy) s =
      .next (s.concluded p (fun a => a.setShard handle { x with copies := x.copies.eraseIdx copy }) .ok (fun _ => [])) := by
  show execUpdCopyDrop o handle copy s = _
  unfold execUpdCopyDrop State.update
  refine command_concluded_of_run hw hm (List.forall_mem_append.mpr ⟨shardChks_ok hn ho hx, ?_⟩) ?_
  · simpa [badFld, onShard_eq hx, hlen, hst] using hk
  · simp only [accept_shard?, hx]

end

/-! ### Mirror entries (R383, R387) -/

theorem not_inRange_eq_false {lo hi v : Nat} (h : lo ≤ v ∧ v ≤ hi) : (!inRange lo hi v) = false := by simp [inRange, h.1, h.2]

theorem slotBad_eq_false {a n : Nat} (h : a + n ≤ 2 ^ 37) : slotBad a n = false := decide_eq_false (Nat.not_lt.mpr h)

section
variable {o : Origin} {index : Nat} {s : State} {p : Posted}

theorem updMirrorCreate_enters {fid handle n b slot0 slot1 : Nat} {m : Mirror}
    (hw : s.waiting o 0x090B [index, fid, handle, n, b, slot0, slot1] = some p) (hmay : s.MaySend o 0x090B) (ho : s.Owns o resUpd)
    (hm : m = { fid := fid, handle := handle, n := n, b := b, slot0 := slot0, slot1 := slot1 }) (hi : index ≤ 1023) (hf : fid < 0xFFFFF)
    (hh : 1 ≤ handle ∧ handle ≤ 1023) (hn : 1 ≤ n ∧ n ≤ 2 ^ 28) (hb : 4 ≤ b ∧ b ≤ 12) (h0 : slot0 + m.slotLen ≤ 2 ^ 37)
    (h1 : slot1 + m.slotLen ≤ 2 ^ 37) (hfree : tabGet? s.upd.mirrors index = none) (hd0 : s.dramDenied slot0 m.slotLen = false)
    (hd1 : s.dramDenied slot1 m.slotLen = false) (hov : overlaps slot0 m.slotLen slot1 m.slotLen = false) :
    exec (.updMirrorCreate o index fid handle n b slot0 slot1) s =
      .next (s.concluded p (fun a => a.setMirror index m) .ok (fun _ => [])) := by
  show execUpdMirrorCreate o index fid handle n b slot0 slot1 s = _
  unfold execUpdMirrorCreate
  rw [← hm]
  refine update_concluded hw hmay ?_
  simp only [List.forall_mem_cons]
  refine ⟨?_, ?_, not_inRange_eq_false hh, not_inRange_eq_false hn, not_inRange_eq_false hb, slotBad_eq_false h0, slotBad_eq_false h1,
    ho, ?_, hd0, ?_, by simp⟩
  · simp [badFld, hi]
  · simp [badFld, hf]
  · simp [hfree]
  · simp [hd1, hov]

section
variable {m : Mirror} (hi : index ≤ 1023) (hm : tabGet? s.upd.mirrors index = some m)
include hi hm

/-- UPD_MIRROR_BIND names a new primary and keeps the slots. -/
theorem updMirrorBind_names {fid handle : Nat} (hw : s.waiting o 0x090C [index, fid, handle] = some p) (hmay : s.MaySend o 0x090C)
    (ho : s.Owns o resUpd) (hf : fid < 0xFFFFF) (h1 : 1 ≤ handle) (hn : handle ≤ 1023) :
    exec (.updMirrorBind o index fid handle) s =
      .next (s.concluded p (fun a => a.setMirror index { m with fid := fid, handle := handle }) .ok (fun _ => [])) := by
  have ho' : (s.ownChk o resUpd).bad = false := ho
  show execUpdMirrorBind o index fid handle s = _
  unfold execUpdMirrorBind State.update
  refine command_concluded_of_run hw hmay (List.forall_mem_append.mpr ⟨mirrorChks_ok hi hm, ?_⟩) ?_
  · simp [badFld, not_inRange_eq_false ⟨h1, hn⟩, hf, ho']
  · simp only [accept_upd, hm]

theorem updMirrorDestroy_deletes (hw : s.waiting o 0x090D [index] = some p) (hmay : s.MaySend o 0x090D) (ho : s.Owns o resUpd) :
    exec (.updMirrorDestroy o index) s =
      .next (s.concluded p (fun a => a.setUpd { a.upd with mirrors := tabDel a.upd.mirrors index }) .ok (fun _ => [])) := by
  show execUpdMirrorDestroy o index s = _
  unfold execUpdMirrorDestroy
  exact update_concluded hw hmay (List.forall_mem_cons.mpr ⟨ho, mirrorChks_ok hi hm⟩)

/-- The answer of UPD_MIRROR_STATUS: a FRESH entry has version and address 0. -/
def State.mirrorFlds (s : State) (m : Mirror) : List Fld :=
  [uf 4 (m.sealed.getD (0, 0)).1,
    uf 8 (if m.sealed.isSome then 2 ^ 63 + s.devFid * 2 ^ 42 + m.slot (m.sealed.getD (0, 0)).2 else 0), uf 4 (m.recv.getD 0),
    uf 4 m.chunks.length]

theorem updMirrorStatus_answers (hw : s.waiting o 0x090E [index] = some p) (hmay : s.MaySend o 0x090E)
    (ht : s.commitTorn (s.mirrorSkein index) (1024 + index) = false) :
    exec (.updMirrorStatus o index) s = .next (s.concluded p (fun a => a) .ok (fun a => a.mirrorFlds m)).settle := by
  show settled (rowUpdMirrorStatus o index s) = _
  unfold rowUpdMirrorStatus
  rw [command_concluded_of_run (f := fun a => a) (st := .ok) (res := fun a => a.mirrorFlds m) hw hmay (mirrorChks_ok hi hm),
    settled_next]
  simp only [accept_upd, hm, accept_mirrorSkein, accept_commitTorn, ht, Bool.false_eq_true, if_false]
  rfl

end

end

/-- Settles O40: nothing refuses the command, and its effect and its answer are those that its lemma names. -/
theorem mirrorCommands : Obligations.MirrorCommands := by
  unfold Obligations.MirrorCommands
  refine ⟨fun o handle fid index s p x hw hm ho hn hx hf hi hself hst => updShardRebind_begun ho hn hx hw hm hf hi hself hst,
    fun o handle far s p x hw hm ho hn hx hs hf hst => updShardRestore_begun ho hn hx hw hm hs hf hst,
    fun o handle version s p x hw hm ho hn hx hst hv ht => updCommitForce_commits ho hn hx hw hm hst hv ht,
    fun o handle entry s p x hw hm ho hn hx hf hd hc hlen hst hue => updCopyAdd_writes ho hn hx hw hm hf hd hc hlen hst hue,
    fun o handle copy s p x hw hm ho hn hx hlen hk hst => updCopyDrop_removes ho hn hx hw hm hlen hk hst, ?_,
    fun o index fid handle s p m hw hmay ho hi hm hf h1 hn => updMirrorBind_names hi hm hw hmay ho hf h1 hn, ?_, ?_⟩
  · intro o index fid handle n b slot0 slot1 s p m hw hmay ho hm hi hf h1 hh hn hn' hb hb' h0 h1' hfree hd0 hd1 hov
    exact ⟨updMirrorCreate_enters hw hmay ho hm hi hf ⟨h1, hh⟩ ⟨hn, hn'⟩ ⟨hb, hb'⟩ h0 h1' hfree hd0 hd1 hov, by rw [hm]⟩
  · intro o index s p m hw hmay ho hi hm
    exact ⟨_, updMirrorDestroy_deletes hi hm hw hmay ho, fun a => ⟨tabGet?_tabDel_self .., rfl⟩⟩
  · intro o index s p m hw hmay hi hm ht
    refine ⟨_, updMirrorStatus_answers hi hm hw hmay ht, fun v i hs => ?_⟩
    have hfid : (s.accept p).2.devFid = s.devFid := by rw [accept_frame]; rfl
    simp [State.mirrorFlds, hs, hfid]

end Sys2Proof.Machine
end

section
/-! SUPPORT. Requests that are sent, gradients and stored slices (05 R152; 13 R376, R385). -/

namespace Sys2Proof.Machine

open Sys2Proof

/-! ### A request that is sent -/

section
variable (s : State)

/-- A frame that is placed changes the routing state as its entry does, but for the pips of log entries. -/
theorem unlogged_placeFrom (q : QFrame) (r : Routed) {enter : State → QFrame → Option ReplJob → State}
    (he : ∀ s q job, (enter s q job).route.unlogged = s.route.unlogged) : (s.place q r enter).route.unlogged = s.route.unlogged := by
  unfold State.place
  split
  · extract_lets t
    rw [he]
    unfold t
    split <;> rfl
  · split
    · rfl
    · rw [he]
  · rw [unlogged_routeDiscard, route_of_offHanks (offHanks_freeChains ..)]
  · exact congrArg RouteSt.unlogged (route_of_offHanks (offHanks_freeChains s q.rel) :)

theorem unlogged_enterUnit (w : WaitFrame) : (s.enterUnit w).route.unlogged = s.route.unlogged := by
  unfold State.enterUnit
  split
  · rw [unlogged_letIn]
    rfl
  · rfl

theorem unlogged_sendSkein (k : Nat) (f : Frame) : (s.sendSkein k f).route.unlogged = s.route.unlogged := by
  unfold State.sendSkein State.sendSkeinWith
  extract_lets g first t
  have ht : t.route.unlogged = s.route.unlogged := congrArg RouteSt.unlogged (route_countStamp ..)
  split
  · exact (unlogged_enterUnit ..).trans ht
  · exact (unlogged_placeFrom _ _ _ (fun _ _ _ => unlogged_enterUnit ..)).trans ht

theorem reqs_of_unlogged {r q : RouteSt} (h : r.unlogged = q.unlogged) : r.reqs = q.reqs := (congrArg RouteSt.reqs h :)

/-- A request with a free tag is recorded as outstanding. -/
theorem reqs_sendReq {f : Frame} {q : Nat} (h : s.freeSeq f.dst = some q) (st : Nat) (who : Asker) (addr len : Nat) :
    (s.sendReq st who f addr len).route.reqs = s.route.reqs ++
      [{ dst := f.dst, seq := q, who := who, addr := addr, len := len, stamp := s.time.pip, limit := s.limitFor who }] := by
  unfold State.sendReq State.request
  rw [h]
  dsimp only
  split
  · exact reqs_of_unlogged (unlogged_sendSkein ..)
  · exact reqs_of_unlogged (unlogged_sendFrom ..)

theorem upd_sendReq (st : Nat) (who : Asker) (f : Frame) (addr len : Nat) : (s.sendReq st who f addr len).upd = s.upd := upd_request ..

theorem upd_sendMirror (x : Shard) (who : Asker) (f : Frame) : (s.sendMirror x who f).upd = s.upd := upd_sendReq ..

theorem core_sendMirror (x : Shard) (who : Asker) (f : Frame) : (s.sendMirror x who f).core = s.core := core_request ..

end

/-! ### What a slice is computed from -/

section
variable {s t : State} (hue : t.ueWords = s.ueWords)
include hue

theorem sliceUe_congr (x : Shard) (sl cnt : Nat) : t.sliceUe x sl cnt = s.sliceUe x sl cnt := by
  unfold State.sliceUe
  simp only [firstUe_congr hue]

/-- A gradient that was read is read again. -/
theorem gradOf_congr (hmem : t.mem = s.mem) {x : Shard} {r : GradSlice} {gs : List Num} (h : (s.gradOf x r).2 = some gs) :
    t.gradOf x r = (t, some gs) := by
  have helem (base : Nat) (f : Fmt) (e : Nat) : t.arrElem base f e = s.arrElem base f e := by
    unfold State.arrElem State.readNat State.read
    rw [hmem]
  unfold State.gradOf at h ⊢
  simp only [firstUe_congr hue, helem]
  dsimp only at h
  split_ifs at h ⊢ with hbad hg
  · exact congrArg (Prod.mk t) h
  · split at h
    · cases h
    · exact congrArg (Prod.mk t) h

end

theorem length_sliceValues (s : State) (x : Shard) (sl : Nat) (gs : List Num) : ∀ v ∈ (s.sliceValues x sl gs).1, v.length = gs.length := by
  intro v hv
  obtain ⟨i, -, rfl⟩ := List.mem_map.mp hv
  simp

/-! ### A slice in memory -/

/-- Where the part of an array that a slice holds begins. -/
def sliceKey (sl : Nat) (a : Nat × Fmt) : Nat := dramKey (a.1 + 1024 * sl * (a.2.width / 8))

theorem mergesWell_of_sliceUe {s : State} {x : Shard} {sl cnt : Nat} (h : s.sliceUe x sl cnt = none) :
    ∀ a ∈ x.arrays, s.MergesWell (sliceKey sl a) (cnt * (a.2.width / 8)) :=
  fun a ha => mergesWell_of_firstUe (List.findSome?_eq_none_iff.mp h a ha)

/-- A stored slice leaves every byte outside its parts of the arrays. -/
theorem memGet_storeSlice_out {s : State} {x : Shard} {sl cnt k : Nat} {vs : List (List Nat)} (hue : s.sliceUe x sl cnt = none)
    (hv : ∀ v ∈ vs, v.length = cnt)
    (hk : ∀ a ∈ x.arrays, k < sliceKey sl a ∨ sliceKey sl a + cnt * (a.2.width / 8) ≤ k) :
    memGet (s.storeSlice x sl vs).mem k = memGet s.mem k := by
  have hmerge := mergesWell_of_sliceUe hue
  have hmem {p : (Nat × Fmt) × List Nat} (hp : p ∈ x.arrays.zip vs) : p.1 ∈ x.arrays ∧ p.2 ∈ vs := List.of_mem_zip hp
  unfold State.storeSlice
  clear hue
  generalize x.arrays.zip vs = l at hmem
  induction l generalizing s with
  | nil => rfl
  | cons p l ih =>
    obtain ⟨ha, hp⟩ := hmem (List.mem_cons_self ..)
    have hlen : (leBytes (p.2.length * (p.1.2.width / 8)) (packBits p.1.2 p.2)).length = cnt * (p.1.2.width / 8) := by
      rw [length_leBytes, hv p.2 hp]
    have hstore : (s.store (sliceKey sl p.1) (leBytes (p.2.length * (p.1.2.width / 8)) (packBits p.1.2 p.2))).1 = s.write _ _ :=
      congrArg Prod.fst (store_of_mergesWell (hlen ▸ hmerge p.1 ha))
    rw [List.foldl_cons]
    refine (congrArg (fun u : State => memGet (l.foldl _ u).mem k) hstore).trans ?_
    refine (ih (fun a ha => mergesWell_write (hmerge a ha) _ _) fun hq => hmem (List.mem_cons_of_mem _ hq)).trans ?_
    rw [State.write_mem]
    exact memGet_memPutAll_out _ _ _ (by rw [hlen]; exact hk p.1 ha)

end Sys2Proof.Machine
end

section
/-! PROOF. Updates that open, slices that are applied, chunks that are sent, and how they end (13 R376, R379, R385, R389 to R394). -/

namespace Sys2Proof.Machine

open Sys2Proof

/-! ### UPDATE_OPEN (R376, R379, R390) -/

/-- A shard whose staged parameters, where they are due, are in force. -/
def Shard.withDue (x : Shard) : Shard :=
  match x.staged with
  | some (v, p) => if verDiff x.version v ≥ 0 then { x with params := p, staged := none } else x
  | none => x

theorem withDue_kept (x : Shard) : x.withDue = { x with params := x.withDue.params, staged := x.withDue.staged } := by
  unfold Shard.withDue
  split
  · split <;> rfl
  · rfl

theorem withDue_none {x : Shard} (h : x.staged = none) : x.withDue = x := by
  unfold Shard.withDue
  rw [h]

section
variable {x : Shard} {v : Nat} {b : List Nat} (h : x.staged = some (v, b))
include h

theorem withDue_due (hv : 0 ≤ verDiff x.version v) : x.withDue = { x with params := b, staged := none } := by
  unfold Shard.withDue
  rw [h]
  exact if_pos hv

theorem withDue_later (hv : verDiff x.version v < 0) : x.withDue = x := by
  unfold Shard.withDue
  rw [h]
  exact if_neg (Int.not_le.mpr hv)

end

/-- The shard once an update by a slice opens. -/
def Shard.opens (x : Shard) (r : GradSlice) : Shard :=
  { x.withDue with st := .opened, consts := x.withDue.opening.1, next := 0, sent := 0, acked := 0, pend := [], sealSent := false,
                   mirrorBad := false, rubColl := r.coll, sat := min cMax (x.withDue.sat + x.withDue.opening.2.sat),
                   inv := min cMax (x.withDue.inv + x.withDue.opening.2.inv) }

theorem take_opening {x : Shard} (h : x.opt ≠ 2) : x.opening.1.take 2 = [x.b1t, x.b2t] := by
  unfold Shard.opening
  simp [h]

section
variable {h : Nat} {s : State} {x : Shard} {r : GradSlice} {rest : List GradSlice} (hx : s.shard? h = some x) (hr : x.ready = r :: rest)
include hx hr

theorem exec_updateOpen_opens (hst : x.st = .committed) (hb : x.rebind = none) (hre : x.restore = none)
    (hq : ∀ e, x.expert = some e → s.expertQuiet e = true) (ht : s.commitTorn x.skein h = false) :
    exec (.updateOpen h) s = .next (s.setShard h (x.opens r)).settle := by
  show settled (rowUpdateOpen h s) = _
  unfold rowUpdateOpen
  split
  next hnone => rw [hx] at hnone; cases hnone
  next x' hx' =>
  obtain rfl : x = x' := Option.some.inj (hx.symm.trans hx')
  split
  next hnil => rw [hr] at hnil; cases hnil
  next r' rest' hr' =>
  obtain ⟨rfl, rfl⟩ := List.cons.inj (hr.symm.trans hr')
  have hopen : ¬(decide (x.st ≠ .committed) || x.rebind.isSome || x.restore.isSome ||
      !(match x.expert with | some e => s.expertQuiet e | none => true)) = true := by
    cases he : x.expert with
    | none => simp [hst, hb, hre]
    | some e => simp [hst, hb, hre, hq e he]
  have hsound : ¬s.commitTorn x.skein h = true := by rw [ht]; exact Bool.false_ne_true
  show _ = settled (.next (s.setShard h (x.opens r)))
  refine congrArg settled ((if_neg hopen).trans ((if_neg hsound).trans ?_))
  rfl

theorem exec_updateOpen_waits
    (hno : x.st ≠ .committed ∨ x.rebind.isSome = true ∨ x.restore.isSome = true ∨ ∃ e, x.expert = some e ∧ s.expertQuiet e = false) :
    exec (.updateOpen h) s = .next s.settle := by
  show settled (rowUpdateOpen h s) = _
  unfold rowUpdateOpen
  simp only [hx, hr]
  rw [if_pos, settled_next]
  rcases hno with hst | hb | hre | ⟨e, he, hq⟩
  · simp [hst]
  · simp [hb]
  · simp [hre]
  · simp [he, hq]

end

/-- What an update that opens takes over, and its constants. -/
theorem opens_spec (x : Shard) (r : GradSlice) : (x.opens r).version = x.version ∧ (x.opens r).ready = x.ready ∧
    (x.opens r).consts = (x.opens r).opening.1 ∧ (x.staged = none → (x.opens r).params = x.params) ∧
    (∀ v, ∀ b, x.staged = some (v, b) → 0 ≤ verDiff x.version v → (x.opens r).params = b ∧ (x.opens r).staged = none) ∧
    (∀ v, ∀ b, x.staged = some (v, b) → verDiff x.version v < 0 → (x.opens r).params = x.params ∧ (x.opens r).staged = some (v, b)) ∧
    (x.opt ≠ 2 → (x.opens r).consts.take 2 = [x.b1t, x.b2t]) := by
  have hkept := withDue_kept x
  refine ⟨(congrArg Shard.version hkept :), (congrArg Shard.ready hkept :), rfl, fun h => ?_, fun v b h hv => ?_, fun v b h hv => ?_,
    fun hopt => ?_⟩
  · exact (congrArg Shard.params (withDue_none h) :)
  · exact ⟨(congrArg Shard.params (withDue_due h hv) :), (congrArg Shard.staged (withDue_due h hv) :)⟩
  · exact ⟨(congrArg Shard.params (withDue_later h hv) :), (congrArg Shard.staged (withDue_later h hv) :).trans h⟩
  · have hopt' : x.withDue.opt ≠ 2 := fun h => hopt ((congrArg Shard.opt hkept :).symm.trans h)
    refine (take_opening hopt').trans ?_
    rw [hkept]

/-! ### PIPE_SLICE (R376, R394) -/

theorem exec_pipeSlice_applies {h : Nat} {s : State} {x : Shard} {r : GradSlice} (hx : s.shard? h = some x)
    (hr : x.ready.find? (fun r => r.coll == x.rubColl && (s.dealer x.skein).started.contains (.slice h r.s)) = some r)
    (hst : x.st = .opened) (hc : s.copiesInFlight x = false) (hi : s.mayIssue x.skein clsUpdate = true) :
    exec (.pipeSlice h) s = .next (s.applySlice h x r).settle := by
  show settled (rowPipeSlice h s) = _
  unfold rowPipeSlice
  simp only [hx, hr, hst, hc, hi]
  rfl

/-- The shard after a slice of it has been applied with some values and counts. -/
def Shard.sliced (x : Shard) (r : GradSlice) (v : List (List Nat) × Cnts × List (Nat × Nat × Nat)) : Shard :=
  { x with ready := x.ready.erase r, next := x.next + 1,
           pend := x.pend ++ (if x.partner ≠ 0xFFFFF ∧ !x.mirrorBad then [2 * r.s, 2 * r.s + 1].filter (fun c => decide (c < x.chunkNum))
             else []),
           layers := x.layers.map (·.take v.2.2), sat := min cMax (x.sat + v.2.1.sat), inv := min cMax (x.inv + v.2.1.inv) }

/-- The work of a slice in eu: its elements, and what is moved of the stored state and of a gradient in DRAM. -/
def sliceEu (x : Shard) (r : GradSlice) (n : Nat) : Nat :=
  n + moveEu (2 * n * x.b + (if r.g.isEmpty then n * (x.gradFmt.width / 8) else 0))

/-- The state in which a slice is stored, charged for and counted. -/
def State.sliceDone (s : State) (h : Nat) (x : Shard) (r : GradSlice) (gs : List Num) : State :=
  let t := s.storeSlice x r.s (s.sliceValues x r.s gs).1
  (((t.charge x.skein clsUpdate ((gs.length + 127) / 128) (sliceEu x r gs.length)).noteEst x.skein (keyShard h)
    (t.energyOf x.skein (sliceEu x r gs.length))).bumpBy .upd x.skein ucElems gs.length).setShard h (x.sliced r (s.sliceValues x r.s gs))

theorem shard?_sliceDone (s : State) (h : Nat) (x : Shard) (r : GradSlice) (gs : List Num) :
    (s.sliceDone h x r gs).shard? h = some (x.sliced r (s.sliceValues x r.s gs)) := by
  unfold State.sliceDone
  exact shard?_setShard_self ..

theorem mem_sliceDone (s : State) (h : Nat) (x : Shard) (r : GradSlice) (gs : List Num) :
    (s.sliceDone h x r gs).mem = (s.storeSlice x r.s (s.sliceValues x r.s gs).1).mem := by
  unfold State.sliceDone
  extract_lets t
  exact mem_of_core ((core_setShard ..).trans ((core_bumpBy ..).trans ((core_setDealer ..).trans (core_charge ..))))

section
variable {h : Nat} {s : State} {x : Shard} {r : GradSlice} {gs : List Num} (hg : (s.gradOf x r).2 = some gs)
include hg

/-- A slice that can be read is stored; after the last one the update ends. -/
theorem applySlice_stores (hue : s.sliceUe x r.s gs.length = none) : s.applySlice h x r =
    if x.next + 1 ≥ x.sliceNum then ((s.takeUp x.skein (.slice h r.s)).sliceDone h x r gs).endUpdate h
    else (s.takeUp x.skein (.slice h r.s)).sliceDone h x r gs := by
  have hgrad : (s.takeUp x.skein (.slice h r.s)).gradOf x r = (s.takeUp x.skein (.slice h r.s), some gs) :=
    gradOf_congr (s := s) (t := s.takeUp x.skein (.slice h r.s)) rfl rfl hg
  have hsame : (s.takeUp x.skein (.slice h r.s)).sliceUe x r.s gs.length = none :=
    (sliceUe_congr (s := s) (t := s.takeUp ..) rfl ..).trans hue
  unfold State.applySlice
  simp only [hgrad, hsame]
  rfl

/-- A slice that is not the last is stored, and the next one is due. -/
theorem applySlice_goes (hue : s.sliceUe x r.s gs.length = none) (hn : x.next + 1 < x.sliceNum) :
    (∃ y, (s.applySlice h x r).shard? h = some y ∧ y.st = x.st ∧ y.next = x.next + 1 ∧ y.ready = x.ready.erase r ∧
      y.version = x.version) ∧
    ∀ k, (∀ a ∈ x.arrays, k < sliceKey r.s a ∨ sliceKey r.s a + gs.length * (a.2.width / 8) ≤ k) →
      memGet (s.applySlice h x r).mem k = memGet s.mem k := by
  have hsame : (s.takeUp x.skein (.slice h r.s)).sliceUe x r.s gs.length = none :=
    (sliceUe_congr (s := s) (t := s.takeUp ..) rfl ..).trans hue
  rw [applySlice_stores hg hue, if_neg (Nat.not_le.mpr hn)]
  exact ⟨⟨_, shard?_sliceDone .., rfl, rfl, rfl, rfl⟩, fun j hj => by
    rw [mem_sliceDone]
    exact memGet_storeSlice_out hsame (length_sliceValues _ x r.s gs) hj⟩

/-- A word of the stored state that cannot be read makes the shard TORN. -/
theorem applySlice_tears {w : Nat} (hx : s.shard? h = some x) (hue : s.sliceUe x r.s gs.length = some w) :
    (s.applySlice h x r).shard? h = some x.torn ∧ (s.applySlice h x r).mem = s.mem := by
  have hgrad : (s.takeUp x.skein (.slice h r.s)).gradOf x r = (s.takeUp x.skein (.slice h r.s), some gs) :=
    gradOf_congr (s := s) (t := s.takeUp x.skein (.slice h r.s)) rfl rfl hg
  have hsame : (s.takeUp x.skein (.slice h r.s)).sliceUe x r.s gs.length = some w := (sliceUe_congr (s := s) (t := s.takeUp ..) rfl ..).trans hue
  unfold State.applySlice
  simp only [hgrad, hsame]
  exact ⟨shard?_tear (s := (s.takeUp x.skein (.slice h r.s)).logUe w) hx, mem_tear ..⟩

end

/-! ### MIRROR_CHUNK_SEND (R385, R394) -/

/-- A SEAL is not sent while chunks are pending or unanswered. -/
theorem trySeal_waits {s : State} {h : Nat} {x : Shard} (hx : s.shard? h = some x) (hw : x.pend ≠ [] ∨ x.acked ≠ x.chunkNum) :
    s.trySeal h = s := by
  unfold State.trySeal
  rw [hx]
  refine if_neg ?_
  rcases hw with hw | hw <;> simp [hw]

section
variable {h k : Nat} {s : State} {x : Shard} {rest : List Nat} (hx : s.shard? h = some x) (hp : x.pend = k :: rest)
include hx hp

theorem exec_mirrorChunkSend_full (hw : x.window ≤ x.sent - x.acked) : exec (.mirrorChunkSend h) s = .next s := by
  show execMirrorChunkSend h s = _
  unfold execMirrorChunkSend
  simp only [hx, hp]
  exact if_pos (by simp [hw])

variable {sq : Nat} (hw : x.sent - x.acked < x.window) (hsq : s.freeSeq x.goal.1 = some sq) (hi : s.mayIssue x.skein clsUpdate = true)
include hw hsq hi

theorem exec_mirrorChunkSend_torn {bad : Nat} (hue : s.chunkUe x k = some bad) (hb : x.rebind = none) :
    exec (.mirrorChunkSend h) s = .next ((s.logUe bad).tear h) := by
  have hno : (((s.logUe bad).shard? h).bind (·.rebind)).isSome = false := by
    rw [show (s.logUe bad).shard? h = some x from hx, Option.bind_some, hb]
    rfl
  show execMirrorChunkSend h s = _
  unfold execMirrorChunkSend
  simp only [hx, hp]
  rw [if_neg (by simp [hw, hsq]), hi, hue, Bool.not_true, if_neg Bool.false_ne_true]
  dsimp only [State.stateError]
  rw [hno, if_neg Bool.false_ne_true]

/-- The state in which a chunk is charged for and no longer pending. -/
def State.chunkCharged (s : State) (h : Nat) (x : Shard) (k : Nat) (rest : List Nat) : State :=
  (s.charge x.skein clsUpdate 0 (moveEu (x.chunkElems k * x.b))).setShard h { x with pend := rest, sent := x.sent + 1 }

/-- The MIRROR frame of a chunk. -/
def State.chunkFrame (s : State) (x : Shard) (k : Nat) : Frame :=
  s.mirrorFrame x (k % x.mirrorCh)
    (mirrorHeader 1 x.b x.sendVersion k (x.chunkElems k) 0 0 0 0 ++ dataCells (s.chunkData x k))

variable (hue : s.chunkUe x k = none) (hmore : rest ≠ [] ∨ x.acked ≠ x.chunkNum)
include hue hmore

/-- A chunk within the window is sent. -/
theorem exec_mirrorChunkSend_sends :
    exec (.mirrorChunkSend h) s = .next ((s.chunkCharged h x k rest).sendMirror x (.mirror h k) (s.chunkFrame x k)) := by
  show execMirrorChunkSend h s = _
  unfold execMirrorChunkSend
  simp only [hx, hp]
  rw [if_neg (by simp [hw, hsq]), hi, hue, Bool.not_true, if_neg Bool.false_ne_true]
  exact congrArg _ (trySeal_waits ((shard?_of_upd (upd_sendMirror ..) h).trans (shard?_setShard_self ..)) hmore)

/-- It is noted as outstanding. -/
theorem mirrorChunkSend_sent :
    ∃ t : State, exec (.mirrorChunkSend h) s = .next t ∧ t.shard? h = some { x with pend := rest, sent := x.sent + 1 } ∧ t.mem = s.mem ∧
      t.route.reqs = s.route.reqs ++
        [{ dst := x.goal.1, seq := sq, who := .mirror h k, addr := 0, len := 0, stamp := s.time.pip, limit := x.timeout }] := by
  have hlimit : (s.chunkCharged h x k rest).limitFor (.mirror h k) = x.timeout := by
    show ((tabGet? (s.chunkCharged h x k rest).upd.shards h).map (·.timeout)).getD 0 = _
    rw [show tabGet? (s.chunkCharged h x k rest).upd.shards h = some { x with pend := rest, sent := x.sent + 1 } from
      shard?_setShard_self ..]
    rfl
  refine ⟨_, exec_mirrorChunkSend_sends hx hp hw hsq hi hue hmore, (shard?_of_upd (upd_sendMirror ..) h).trans (shard?_setShard_self ..),
    mem_of_core (core_sendMirror ..), ?_⟩
  have hreqs := reqs_sendReq (s.chunkCharged h x k rest) (f := s.chunkFrame x k) (q := sq) hsq (256 * x.skein) (.mirror h k) 0 0
  rw [hlimit] at hreqs
  exact hreqs

end

/-! ### MIRROR_TIMEOUT (R389, R394) -/

section
variable {s : State} {h : Nat} {x : Shard} (hx : s.shard? h = some x) (chunk : Nat) (st : Status)
include hx

/-- A mirror failure ends a rebind that is not of a create. -/
theorem shard?_mirrorFail_rebind {b : Rebind} (hb : x.rebind = some b) (hc : b.create = false) :
    (s.mirrorFail h chunk st).shard? h = some { x with rebind := none, pend := [], sealSent := false } := by
  unfold State.mirrorFail
  simp only [hx, hb, hc, Bool.false_eq_true, if_false]
  exact (shard?_of_upd (upd_finish ..) h).trans (shard?_setShard_self ..)

variable (hb : x.rebind = none)
include hb

theorem shard?_mirrorFail_sealing (hst : x.st = .sealing) : (s.mirrorFail h chunk st).shard? h =
    some { x with mirrorBad := true, pend := [], st := .lost, ticket := none, later := [] } := by
  unfold State.mirrorFail
  simp only [hx, hb, hst, if_true]
  unfold State.loseShard
  extract_lets t
  refine (shard?_of_upd ((upd_finishAll ..).trans (upd_irqAll ..)) h).trans ?_
  rw [shard?_setShard_self]

theorem shard?_mirrorFail (hst : x.st ≠ .sealing) :
    (s.mirrorFail h chunk st).shard? h = some { x with mirrorBad := true, pend := [] } := by
  unfold State.mirrorFail
  simp only [hx, hb, hst, if_false]
  exact shard?_setShard_self ..

end

section
variable {dst seq h k : Nat} {s : State} {x : Shard} {r : Request}
  (hr : s.route.reqs.find? (fun r => r.dst == dst && r.seq == seq) = some r) (hwho : r.who = .mirror h k) (hx : s.shard? h = some x)
include hr hwho hx

theorem exec_mirrorTimeout_early (he : (∀ d, s.due r = some d → s.time.pip < d) ∨ s.answerWaits r = true) :
    exec (.mirrorTimeout dst seq) s = .next s := by
  show execMirrorTimeout dst seq s = _
  unfold execMirrorTimeout
  simp only [hr, hwho, hx]
  refine if_neg fun ⟨hdue, hans⟩ => ?_
  rcases he with he | he
  · cases hd : s.due r with
    | none => rw [hd] at hdue; cases hdue
    | some d => rw [hd] at hdue; exact absurd (of_decide_eq_true hdue) (Nat.not_le.mpr (he d hd))
  · rw [he] at hans
    cases hans

theorem exec_mirrorTimeout_due {d : Nat} (hd : s.due r = some d) (hle : d ≤ s.time.pip) (hans : s.answerWaits r = false) :
    exec (.mirrorTimeout dst seq) s =
      .next (((s.delReq r).bump .upd x.skein (ucFailed + Status.timeout.code)).mirrorFail h k .timeout) := by
  show execMirrorTimeout dst seq s = _
  unfold execMirrorTimeout
  simp only [hr, hwho, hx]
  exact if_pos ⟨by simp [hd, hle], hans⟩

/-- Once due, the version is mirrored no further: a rebind ends, and an update that was sealing is LOST. -/
theorem mirrorTimeout_fails {d : Nat} (hd : s.due r = some d) (hle : d ≤ s.time.pip) (hans : s.answerWaits r = false)
    (hc : ∀ b, x.rebind = some b → b.create = false) :
    ∃ t : State, ∃ y, exec (.mirrorTimeout dst seq) s = .next t ∧ t.shard? h = some y ∧ y.pend = [] ∧ y.rebind = none ∧
      (x.rebind = none → x.st = .opened → y.st = .opened ∧ y.mirrorBad = true) ∧
      (x.rebind = none → x.st = .sealing → y.st = .lost ∧ y.ticket = none) := by
  have hexec := exec_mirrorTimeout_due hr hwho hx hd hle hans
  have hkept : ((s.delReq r).bump .upd x.skein (ucFailed + Status.timeout.code)).shard? h = some x :=
    (shard?_of_upd (upd_delReq s r) h).trans hx
  cases hb : x.rebind with
  | some b =>
    exact ⟨_, _, hexec, shard?_mirrorFail_rebind hkept k .timeout hb (hc b hb), rfl, rfl, nofun, nofun⟩
  | none =>
    by_cases hst : x.st = .sealing
    · refine ⟨_, _, hexec, shard?_mirrorFail_sealing hkept k .timeout hb hst, rfl, hb, fun _ ho => ?_, fun _ _ => ⟨rfl, rfl⟩⟩
      rw [hst] at ho
      cases ho
    · exact ⟨_, _, hexec, shard?_mirrorFail hkept k .timeout hb hst, rfl, hb, fun _ ho => ⟨ho, rfl⟩, fun _ hs => absurd hs hst⟩

end

/-! ### RUB_COMMIT_TIMEOUT (R392) and the answer to a SEAL (R390) -/

section
variable {group seq n : Nat} {s : State} {g : Group} {c : Coll} (hg : tabGet? s.coll group = some g) (hc : g.coll? seq = some c)
  (hn : c.passed = some n)
include hg hc hn

theorem exec_rubCommitTimeout_due (hp : g.parent = none) (hrub : chRub c.hdr = true) (hle : n + g.timeout ≤ s.time.pip)
    (hans : ∀ h, g.rub = some h → s.sealAnswered h (n + g.timeout) = false) :
    exec (.rubCommitTimeout group seq) s = .next (s.failColl group c .timeout [(0, g.n)] false false) := by
  show execRubCommitTimeout group seq s = _
  unfold execRubCommitTimeout
  simp only [hg, hc, hn]
  refine if_pos ?_
  cases hh : g.rub with
  | none => simp [hp, hrub, hle]
  | some h => simp [hp, hrub, hle, hans h hh]

theorem exec_rubCommitTimeout_early
    (he : s.time.pip < n + g.timeout ∨ ∃ h, g.rub = some h ∧ s.sealAnswered h (n + g.timeout) = true) :
    exec (.rubCommitTimeout group seq) s = .next s := by
  show execRubCommitTimeout group seq s = _
  unfold execRubCommitTimeout
  simp only [hg, hc, hn]
  refine if_neg ?_
  rcases he with he | ⟨h, hh, ha⟩
  · simp [Nat.not_le.mpr he]
  · simp [hh, ha]

end

/-- An ST_OK answer to the SEAL of an update commits its version. -/
theorem mirrorAnswer_commits {h c tc : Nat} {s : State} {x : Shard} (hx : s.shard? h = some x) (ht : s.commitTorn x.skein h = false)
    (hb : x.rebind = none) : ∃ l, (s.mirrorAnswer h c true .ok tc).shard? h = some { x.committed false with ready := l } := by
  have hx' : (s.bump .upd x.skein ucAnswered).shard? h = some x := hx
  unfold State.mirrorAnswer
  simp only [hx, ne_eq, not_true, if_false, if_true]
  unfold State.sealed
  simp only [hx', hb]
  exact shard?_commitShard hx' ht false tc

/-- Settles O38: each step by what its lemma says it does to the shard, memory and the outstanding requests. -/
theorem updateSteps : Obligations.UpdateSteps := by
  unfold Obligations.UpdateSteps
  refine ⟨?_, ?_, ?_, ?_, ?_, ?_⟩
  · intro h s x r rest hx hr
    refine ⟨fun hst hb hre hq ht => ?_, exec_updateOpen_waits hx hr⟩
    obtain ⟨hver, hready, hconsts, hnone, hdue, hlater, htake⟩ := opens_spec x r
    exact ⟨_, x.opens r, exec_updateOpen_opens hx hr hst hb hre hq ht, shard?_setShard_self .., rfl, rfl, rfl, hver, hready, rfl, hconsts,
      hnone, hdue, hlater, htake⟩
  · intro h s x r hx hr hst hc hi
    have hexec := exec_pipeSlice_applies hx hr hst hc hi
    refine ⟨fun gs hg hue hn => ?_, fun gs w hg hue => ?_⟩
    · obtain ⟨⟨y, hy, hyst, hnext, hready, hver⟩, hmem⟩ := applySlice_goes (h := h) (congrArg Prod.snd hg) hue hn
      exact ⟨_, y, hexec, hy, hyst.trans hst, hnext, hready, hver, hmem⟩
    · obtain ⟨hy, hmem⟩ := applySlice_tears (congrArg Prod.snd hg) hx hue
      exact ⟨_, _, hexec, hy, rfl, hmem⟩
  · intro h s x k rest hx hp
    refine ⟨exec_mirrorChunkSend_full hx hp, fun sq bad hw hsq hi hue hb => ?_, fun sq hw hsq hi hue hmore =>
      mirrorChunkSend_sent hx hp hw hsq hi hue hmore⟩
    exact ⟨_, _, exec_mirrorChunkSend_torn hx hp hw hsq hi hue hb, shard?_tear (s := s.logUe bad) hx, rfl, mem_tear ..⟩
  · intro dst seq h k s x r hr hwho hx
    exact ⟨exec_mirrorTimeout_early hr hwho hx, fun d hd hle hans hc => mirrorTimeout_fails hr hwho hx hd hle hans hc⟩
  · intro group seq s g c n hg hc hn hp hrub
    exact ⟨exec_rubCommitTimeout_due hg hc hn hp hrub, exec_rubCommitTimeout_early hg hc hn⟩
  · intro h c tc s x hx ht hb
    obtain ⟨l, hl⟩ := mirrorAnswer_commits (c := c) (tc := tc) hx ht hb
    exact ⟨_, hl, rfl, rfl, rfl, rfl, rfl⟩

end Sys2Proof.Machine
end
